-- ==== Sys2Proof/Word.lean ====
section
/-! DEFINITION. The machine's words: the 32-bit register word (R521, R522), bytes (R14) and their plainest conversions. -/

namespace Sys2Proof

/-- A 32-bit register word. -/
abbrev W32 := BitVec 32
/-- A byte of memory. -/
abbrev Byte := BitVec 8
/-- A sequence of bytes, lowest address first (R14). -/
abbrev Bytes := List Byte

end Sys2Proof
end

