-- ==== Sys2Proof/Syntax.lean ====
section
/-! DEFINITION. The commands the block takes (spec/opcode_table.json), one constructor per row, and the types of their
operands. The table gives the rows no operands: they are the model's (notes/assumptions/5.md). -/

namespace Sys2Proof

/-- The sixteen dies of R16, in the order of their codes. -/
inductive Die where
  | T0 | T1 | T2 | T3 | T4 | T5 | T6 | T7 | H0 | H1 | N0 | N1 | C0 | C1 | C2 | C3
  deriving DecidableEq, Repr

/-- The block types of R539. -/
inductive Blk where
  | eng | tfab | hbmc | depc | whc | upd | lkp | xch | net | pcie | prep | xlt | plc | pool | tal | cpt | coh | d2d
  | clk | pwr | thm | bist | frz | ledg | svc | mgmt | conv
  deriving DecidableEq, Repr

/-- One register page: block type, instance and die (R518). -/
structure Page where
  die : Die
  blk : Blk
  inst : Nat
  deriving DecidableEq, Repr

/-- The message classes of R30, in the credit order of R29. -/
inductive MsgCls where
  | req | snp | rsp | dat | wb
  deriving DecidableEq, Repr

/-- A message of the fabric (R31): its class, its ends, its physical address where it has one (R46), and its chunks
of 16 bytes, header first. -/
structure Msg where
  src : Die
  dst : Die
  cls : MsgCls
  addr : Option Nat
  chunks : List Bytes
  deriving DecidableEq, Repr

/-- The parts of a matrix array that detect errors (R137); of the shadow plane, the number along K of the weight tile it is being
loaded with. -/
inductive ArrPart where
  | shadowPlane (k : Nat) | activePlane | reducer | bankSingle | bankDouble | prepass
  deriving DecidableEq, Repr

/-- The structures that take a targeted self-test (R625), and the crossing of an island, whose words carry parity on its ratio-locked path and
which takes none (R550). -/
inductive Struct where
  | array (e a : Nat) | cistRow (e row : Nat) | vector (e : Nat) | lsu (e : Nat) | sched (e : Nat)
  | feRow (n : Nat) | routerBuf | memLogic (ch : Nat) | dramLane (ch pair : Nat)
  | upd (i : Nat) | lkp (i : Nat) | xch | rdma | prep (i : Nat)
  | plc | pool | tal | core (h : Nat) | d2dLane (p m l : Nat) | testLogic
  | crossing (island : Nat)
  deriving DecidableEq, Repr

/-- The error classes of R621. -/
inductive ErrClass where
  | corrected | transient | lasting | data | fatal | writeLost | refusal
  deriving DecidableEq, Repr

/-- Who makes an access: a stream of a tensor die, a queue pair of a network die, a hart, a PCIe inbound request, the
inspection port, the management controller, or a unit that has a page (R59, R255, R440, R495). -/
inductive Requester where
  | stream (d : Die) (n : Nat) | qp (d : Die) (i : Nat) | hart (h : Nat)
  | pcie | inspect | mgmt | unit (pg : Page)
  deriving DecidableEq, Repr

/-- What a PTP message says (R359): of a time stamp, the master's time of sending, or of receipt in a response, in 2^-16 ns of its clock; and its
correction field, in 2^-16 ns. A two-step message's time follows in its follow-up. -/
inductive PtpBody where
  | sync (twoStep : Bool) (origin : Nat) (corr : Int)
  | followUp (origin : Nat) (corr : Int)
  | delayReq
  | delayResp (receipt : Nat) (corr : Int)
  | pdelayReq
  | pdelayResp (twoStep : Bool) (receipt : Nat) (corr : Int)
  | pdelayFollowUp (origin : Nat) (corr : Int)
  deriving DecidableEq, Repr

/-- A PTP message with its sequence number (R359). -/
structure PtpMsg where
  seq : Nat
  body : PtpBody
  deriving DecidableEq, Repr

/-- What an inbound frame carries: the verb of its command, an atomic, a SEND with invalidate (R346), or a PTP message, which goes to the port and
not to a queue pair (R359). -/
inductive PacketOp where
  | verb | atomic | invalidate | ptp (m : PtpMsg)
  deriving DecidableEq, Repr

/-- An inbound frame (R344, R350, R354): its port, [1:0], and sub-port under MODE 2, [2]; its length on the wire; and what it carries. -/
structure Packet where
  size : Nat
  op : PacketOp
  psn : Nat
  rkey : Nat
  va : Nat
  len : Nat
  payload : Bytes
  first : Bool
  last : Bool
  imm : Option W32
  ce : Bool
  port : Nat
  deriving DecidableEq, Repr

/-- What a channel controller fetches for a read: a codeword, or its whole granule; the symbols that arrive wrong, by sector of it; and
whether the row tag of a second row that a depot granule runs into fails to match (R247, R251, R252). -/
structure Fetch where
  granule : Bool
  errs : List (Nat × List Nat)
  tag2 : Bool
  deriving DecidableEq, Repr

/-- What a channel controller writes: the bytes; and of the codewords that it must read first, the symbols that arrive wrong, by sector,
and whether the row tag fails to match (R252, R253). -/
structure MemStore where
  data : Bytes
  errs : List (Nat × List Nat)
  tagBad : Bool
  deriving DecidableEq, Repr

/-- A narrow read: its length, and the symbols of its codeword that arrive wrong and whether the row tag fails to match when it is fetched
(R263, R264). -/
structure NarrowAsk where
  len : Nat
  errs : List Nat
  tagBad : Bool
  deriving DecidableEq, Repr

/-- The NAKs of R351. -/
inductive NakKind where
  | sequence | rnr | access | invalid | operational
  deriving DecidableEq, Repr

/-- A coherent cache: a core's (L1 and L2 together) or a host die's L3 (R450). -/
inductive Cache where
  | core (h : Nat) | l3 (d : Die)
  deriving DecidableEq, Repr

/-- The atomic memory operations of a hart (R440). -/
inductive Amo where
  | swap | add | and | or | xor | max | min | maxu | minu
  deriving DecidableEq, Repr

/-- A hart's access (R440, R485). -/
inductive HartOp where
  | load | store | amo (op : Amo) | lr | sc | fetch
  deriving DecidableEq, Repr

/-- The clock sources of R541. -/
inductive ClkSrc where
  | crystal | baseboard | oscillator
  deriving DecidableEq, Repr


/-- A sensor that the management buses read (R584). -/
inductive Sensor where
  | inputVoltage | inputCurrent | tj (d : Die) | power (d : Die) | coolant
  deriving DecidableEq, Repr

/-- A control message of R386; `kind` is its TYPE. -/
structure Ctl where
  kind : Nat
  sender : Nat
  convoy : Nat
  group : Nat
  outcome : Nat
  convoyId : Nat
  epoch : Nat
  barrier : Nat
  milestone : Nat
  time : Nat
  committed : Nat
  readyM : Nat
  deriving DecidableEq, Repr

/-- A message of a participant's exchange engine (R365 to R371, R394): its triple of GROUP, TOPO and FANIN; a token for a slot of an expert; a source's counts of filled
slots by expert, with its fault mark; the acknowledgement of a participant; a returned row of a slot; a partial reduction of
one phase (1 anchors, 2 values, 3 NRM128) over the ranks it covers, its sender's rank first in a tree, the rank at which the
segment began first in a ring; the finished reduction of a segment (0 in a tree); the abort mark of a participant whose engine became
unusable, of a reduction or of an exchange of tokens (R628). -/
inductive XMsg where
  | plan (src group : Nat) (ring : Bool) (fanin : Nat)
  | token (src expert slot : Nat) (data : Bytes)
  | counts (src : Nat) (fault : Bool) (counts : List Nat)
  | acked (src : Nat)
  | row (src expert slot : Nat) (data : Bytes)
  | part (phase : Nat) (ranks : List Nat) (data : Bytes)
  | result (phase seg : Nat) (data : Bytes)
  | abort (reduce : Bool) (src : Nat)
  deriving DecidableEq, Repr

/-- The block's commands: one constructor per row of spec/opcode_table.json, in the table's order. -/
inductive Instr where
  | dataFlitReceive (d : Die) (p : Nat) (flit : Bytes)
  | idleFlitReceive (d : Die) (p : Nat) (flit : Bytes)
  | retryRequest (d : Die) (p : Nat) (flit : Bytes)
  | linkControlFlit (d : Die) (p : Nat) (flit : Bytes)
  | ackTimer (d : Die) (p : Nat)
  | flitSend (d : Die) (p : Nat)
  | messageSend (x : Die) (m : Msg)
  | laneDiagnosis (d : Die) (p : Nat) (bad : List (Nat × Nat))
  | laneLoss (d : Die) (p m l : Nat)
  | spareSubstitution (d : Die) (p m l : Nat)
  | halfWidthEntry (d : Die) (p : Nat)
  | linkDown (d : Die) (p : Nat)
  | matmul (d : Die) (n q : Nat)
  | matmulAcc (d : Die) (n q : Nat)
  | weightPreload (d : Die) (e a : Nat)
  | tileComplete (d : Die) (e a : Nat)
  | arrayDetectedError (d : Die) (e a : Nat) (w : ArrPart)
  | targetedSelfTestDone (d : Die) (st : Struct) (pass : Bool)
  | transientLimit (d : Die) (st : Struct)
  | arrayClearDone (d : Die) (e a : Nat)
  | feCtxEnable (d : Die)
  | feCtxDrain (d : Die)
  | feCtxAbort (d : Die)
  | feCtxDataWrite (d : Die) (w : Nat) (v : W32)
  | dbRing (d : Die) (c : Nat) (v : W32)
  | descriptorFetch (d : Die) (n : Nat)
  | descriptorStart (d : Die) (n q : Nat)
  | completionRecordWrite (d : Die) (n : Nat)
  | fillStart (d : Die) (e : Nat)
  | fillPreempt (d : Die) (e : Nat)
  | fillResume (d : Die) (e : Nat)
  | engFillCistWrite (d : Die) (e : Nat) (v : W32)
  | add (d : Die) (n q : Nat)
  | sub (d : Die) (n q : Nat)
  | mul (d : Die) (n q : Nat)
  | fma (d : Die) (n q : Nat)
  | div (d : Die) (n q : Nat)
  | sqrt (d : Die) (n q : Nat)
  | max (d : Die) (n q : Nat)
  | min (d : Die) (n q : Nat)
  | exp (d : Die) (n q : Nat)
  | log (d : Die) (n q : Nat)
  | recip (d : Die) (n q : Nat)
  | rsqrt (d : Die) (n q : Nat)
  | tanh (d : Die) (n q : Nat)
  | sigmoid (d : Die) (n q : Nat)
  | erf (d : Die) (n q : Nat)
  | convert (d : Die) (n q : Nat)
  | sum (d : Die) (n q : Nat)
  | sumsq (d : Die) (n q : Nat)
  | dot (d : Die) (n q : Nat)
  | rmax (d : Die) (n q : Nat)
  | partialRecordMerge (d : Die) (n q : Nat)
  | orfValueSum (d : Die) (n q : Nat)
  | anchorMaximum (d : Die) (n q : Nat)
  | nrm128Sum (d : Die) (n q : Nat)
  | moveCopy (d : Die) (n q : Nat)
  | moveFill (d : Die) (n q : Nat)
  | migrate (d : Die) (n q : Nat)
  | lotMoveCommit (lot : Nat)
  | nop (d : Die) (n q : Nat)
  | fence (d : Die) (n q : Nat)
  | fenceComplete (d : Die) (n q : Nat)
  | tallyWait (d : Die) (n q : Nat)
  | tallySignalAdd (d : Die) (n q : Nat)
  | tallySignalSet (d : Die) (n q : Nat)
  | tallyOperation (i : Nat)
  | waitPoll (i : Nat)
  | lockAcquire (d : Die) (n q : Nat)
  | lockRelease (d : Die) (n q : Nat)
  | leaseLapse (t : Nat)
  | talwAdd (h t : Nat) (v : W32)
  | talwSetHi (h t : Nat) (v : W32)
  | talwTry (h t : Nat)
  | talwRelease (h t : Nat)
  | talwClearAbandoned (h t : Nat)
  | talCfgWrite (d : Die) (v : W32)
  | hartDebugEnter (h : Nat)
  | hartDebugExit (h : Nat)
  | ageStep (k : Nat)
  | evictAhead (near : Bool) (bucket way : Nat)
  | writebackComplete (lot : Nat)
  | pageInComplete (lot way : Nat)
  | plcQueryLot (k : Nat) (v : W32)
  | poolQTail (c : Nat) (v : W32)
  | poolQEnable (c : Nat) (v : W32)
  | poolRequestFetch (c : Nat)
  | alloc (c base idx : Nat)
  | free (c : Nat)
  | freeComplete (c : Nat)
  | setPlacement (c : Nat)
  | memRead (r : Requester) (pa : Nat) (x : Fetch) (tagBad : Bool)
  | memWrite (r : Requester) (pa : Nat) (x : MemStore)
  | narrowRead (k pa : Nat) (x : NarrowAsk)
  | narrowWaitExpiry (d : Die) (ch : Nat)
  | refreshDue (d : Die) (ch : Nat)
  | refreshPullIn (d : Die) (ch : Nat)
  | calibrationDue (d : Die) (ch : Nat)
  | forcedCalibration (d : Die) (ch : Nat)
  | calibrationEnd (d : Die) (ch : Nat)
  | guaranteedScrub (d : Die) (ch : Nat) (errs : List (Nat × List Nat))
  | patrolScrub (d : Die) (ch : Nat) (errs : List (Nat × List Nat))
  | dqPairMark (d : Die) (ch pair : Nat)
  | telemetrySample (d : Die)
  | stackTemperatureSample (d : Die) (temp : Nat)
  | mr4Read (d : Die) (ch rate : Nat)
  | localGibWrite (v : W32)
  | update (d : Die) (n q : Nat)
  | updateAdmit (d : Die) (n q : Nat)
  | updateLotApply (d : Die) (n q l : Nat)
  | dsRecordWrite (u : Nat)
  | updDsTail (u : Nat) (v : W32)
  | updDsCfgWrite (u off : Nat) (v : W32)
  | orderGapTimeout (d : Die) (n q : Nat)
  | snapshot (d : Die) (n q : Nat)
  | snapshotLotShip (d : Die) (n q l : Nat)
  | snapshotAck (d : Die) (n q l : Nat)
  | snapshotDelayLimit (d : Die) (n q l : Nat)
  | lookup (d : Die) (n q : Nat)
  | lookupGrad (d : Die) (n q : Nat)
  | lookupRowUpdate (d : Die) (n q row : Nat)
  | load (v : W32)
  | loadComplete
  | unload (v : W32)
  | switch (v : W32)
  | tombstone (v : W32)
  | revive (v : W32)
  | sweep (tbl : Nat)
  | hotSlotFree (tbl sl w hot : Nat)
  | netPortModeWrite (d : Die) (p : Nat) (v : W32)
  | portLinkUp (d : Die) (p sub : Nat)
  | ethLaneLockLoss (d : Die) (p lane : Nat)
  | qpEnable (d : Die)
  | qpReset (d : Die)
  | send (d : Die) (n q : Nat)
  | rdmaWrite (d : Die) (n q : Nat)
  | rdmaRead (d : Die) (n q : Nat)
  | recv (d : Die) (n q : Nat)
  | inboundRdmaWrite (d : Die) (i : Nat) (pk : Packet)
  | inboundRdmaRead (d : Die) (i : Nat) (pk : Packet)
  | inboundSend (d : Die) (i : Nat) (pk : Packet)
  | rdmaAck (d : Die) (i psn : Nat)
  | rdmaNak (d : Die) (i psn : Nat) (kind : NakKind)
  | rdmaReadResponse (d : Die) (i : Nat) (pk : Packet)
  | ackTimeout (d : Die) (i : Nat)
  | cnpReceive (d : Die) (i : Nat)
  | dcqcnRateIncrease (d : Die) (i : Nat)
  | register (d : Die)
  | deregister (d : Die)
  | netQpDb (d : Die) (v : W32)
  | nvmeCompletion (d : Die) (i cid status : Nat) (result : W32) (data : Bytes)
  | fileQueueRead (d : Die) (i : Nat)
  | fileQueueWrite (d : Die) (i : Nat)
  | fileQueueWriteDone (d : Die) (i : Nat)
  | fileQueueFlush (d : Die) (i : Nat)
  | fileQueueWriteZeroes (d : Die) (i : Nat)
  | fileQueueDeallocate (d : Die) (i : Nat)
  | netPtpAdj (v : W32)
  | netPtpStep (v : W32)
  | applyAtSecond
  | ppsOutEdge
  | ppsInEdge
  | exchangeDispatch (d : Die) (n q : Nat)
  | exchangeCombine (d : Die) (n q : Nat)
  | exchangeMessage (x : Die) (m : XMsg)
  | reduceNetBoth (d : Die) (n q : Nat)
  | reduceNetAnchor (d : Die) (n q : Nat)
  | reduceNetValue (d : Die) (n q : Nat)
  | reduceNetNrm128 (d : Die) (n q : Nat)
  | gatherWindow (d : Die) (n q : Nat)
  | windowRelease (x : Die) (w : Nat)
  | xchWinRelease (x : Die)
  | start (k : Nat)
  | stop (k : Nat)
  | admitRank (k r : Nat)
  | resume (k : Nat)
  | heartbeatSend (k : Nat)
  | heartbeat (k : Nat) (m : Ctl)
  | hbReply (k : Nat) (m : Ctl)
  | workerLost (k r : Nat)
  | managerLost (k : Nat)
  | takeoverTimer (k : Nat)
  | takeover (k : Nat) (m : Ctl)
  | query (k : Nat) (m : Ctl)
  | state (k : Nat) (m : Ctl)
  | convBarrier (k : Nat) (v : W32)
  | arrive (k : Nat) (m : Ctl)
  | release (k : Nat) (m : Ctl)
  | convReady (k : Nat) (v : W32)
  | ready (k : Nat) (m : Ctl)
  | commit (k : Nat) (m : Ctl)
  | convApplied (k : Nat) (v : W32)
  | applied (k : Nat) (m : Ctl)
  | abortStep (k : Nat) (m : Ctl)
  | prepBatch (d : Die) (n q : Nat)
  | xltInvGo (d : Die)
  | invalidationAck (d g : Die)
  | rdShared (x : Cache) (line : Nat)
  | rdUnique (x : Cache) (line : Nat)
  | upgrade (x : Cache) (line : Nat)
  | rdOnce (line : Nat)
  | wrLine (line : Nat) (data : Bytes)
  | wrPart (line off : Nat) (data : Bytes)
  | snpShared (x : Cache) (line : Nat)
  | snpInv (x : Cache) (line : Nat)
  | snpOnce (x : Cache) (line : Nat)
  | snpResp (ring : Die) (line : Nat)
  | data (line : Nat)
  | wbDirty (x : Cache) (line : Nat)
  | wbAck (x : Cache) (line : Nat)
  | comp (line : Nat)
  | compAck (line : Nat)
  | msiDelivery (i : Nat) (keep : Bool)
  | cohMsiFlush
  | hartAccess (h : Nat) (op : HartOp) (pa size : Nat) (data : Bytes)
  | pcieInboundRead (bar off len : Nat)
  | pcieInboundWrite (bar off : Nat) (data : Bytes)
  | inspectionRead (pa : Nat)
  | inspectionWrite (pa : Nat) (v : W32)
  | create
  | compartmentRelease
  | releaseComplete (c : Nat)
  | grant
  | grantComplete
  | returnUnit
  | returnComplete
  | cptLock
  | cptEntCfgWrite (v : W32)
  | openBuf (c : Nat)
  | closeBuf (c : Nat)
  | pageEnable (r : Requester) (pg : Page) (v : W32)
  | blockReset (r : Requester) (pg : Page)
  | blockResetEnd (pg : Page)
  | applyRequest (pg : Page) (v : W32)
  | applyCancel (pg : Page)
  | applyAtBoundary (pg : Page)
  | pageIrqEnWrite (pg : Page) (v : W32)
  | tvRevote (pg : Page)
  | registerWrite (r : Requester) (pg : Page) (off : Nat) (v : W32)
  | sourceQualified (src : ClkSrc)
  | sourceLoss (src : ClkSrc)
  | clockSourceSwitch
  | pllLock
  | clkSrcSelWrite (v : W32)
  | clkSscWrite (v : W32)
  | clkIslMaxWrite (d : Die) (v : W32)
  | frequencyStep (d : Die) (isl : Nat) (up : Bool)
  | clkModeWrite (d : Die) (v : W32)
  | crossingModeChange (d : Die) (isl : Nat) (async : Bool)
  | powerRound (demands : List (Die × Nat))
  | budgetMessage (d src : Die) (round demand : Nat)
  | capRaise (d : Die)
  | powerMeasure (d : Die) (p : Nat)
  | thermalSample (d : Die) (readings : List Nat)
  | thermalHysteresisTimer (d : Die)
  | leverSwitchClose
  | auxPathOn (slotId : Nat)
  | rom
  | mc
  | mainPower
  | links (bad : List (Die × Nat × Nat × Nat))
  | memory (badStacks badSets : List Nat)
  | bist (failed notRun : List (Die × Nat))
  | host
  | openBoot
  | leverSwitchOpen
  | inputUndervoltage (mv : Nat)
  | inputOvervoltage (mv : Nat)
  | overvoltageRecovery (slotId : Nat)
  | mainOvercurrent (ma : Nat)
  | uvWarn (mv : Nat)
  | attentionButtonPress
  | abortWindowExpiry
  | startDrain
  | drainDone
  | cancel
  | drainTimeout
  | poweringDown
  | powerDownLinkTimeout
  | powerDownComplete
  | modResetN
  | perstNAssert
  | perstNDeassert
  | hotReset
  | functionLevelReset
  | pldmReset
  | pldmWake
  | pldmIdentify (seconds : Nat)
  | pldmSetTime (sec : Nat)
  | pldmFreeze
  | pldmThaw
  | pldmFirmwareUpdate (image : Bytes)
  | pldmSensorRead (sensor : Sensor)
  | pldmFruRead
  | entdaa (addr : Nat)
  | resetCmdModule
  | resetCmdDie (target : Nat)
  | resetCmdCompartment (target : Nat)
  | coreHold (target : Nat)
  | coreRelease (target : Nat)
  | dieRecoveryComplete (d : Die)
  | park (d : Die)
  | unpark (d : Die)
  | standbyEnter (keepH0 : Bool)
  | standbyWake
  | h0L3Miss (h : Nat)
  | wakeComplete
  | errorDetected (d : Die) (st : Struct) (cls : ErrClass) (pa : Nat)
  | writeLost (r : Requester) (pa : Nat) (retired : Bool)
  | bistRun (d : Die)
  | bistComplete (d : Die) (isl : Nat) (sig : BitVec 64) (vOk : Bool)
  | injArm (pg : Page)
  | tstRun (pg : Page) (pass : Bool)
  | freezeN
  | freezeDebug
  | freezeCapture
  | thaw
  | thawLimitExpiry
  | scanShift (recirculate : Bool)
  | instrumentWrite
  | inspectEn (level : Bool)
  | hourlyRecord (mvh : List (Die × Nat))
  | eraseAhead
  | pageProgramFail (erase : Bool)
  | ledgRtcHi (v : W32)
  | ptpRtcSet
  | ledgLogData7 (r : Requester)
  | warehouseCreditExhausted (d : Die)
  | warehouseWorn (d : Die)
  | reserveLow (d : Die)
  | serviceTagDraw
  | tagRefreshDone
  | redraw
  | svcLocate (v : W32)
  | locateExpiry
  | sounderShort
  | sounderRetry (short : Bool)
  | svcSndClear
  | pcieLinkUp (speed width : Nat) (flitMode : Bool)
  | pcieLinkDown
  | pfcPauseFrameReceive (d : Die) (p : Nat) (prio : BitVec 8) (quanta : Nat)
  | undervoltageLockoutRelease (mv : Nat)
  | reducedRangeExit (mv : Nat)
  | auxiliaryPathOff
  | supercapacitorRunDown
  | garbageCollection (d : Die) (moved freed : Nat)
  | creditAccrual (d : Die)
  | standbyEntryComplete
  deriving DecidableEq, Repr

end Sys2Proof
end

