-- ==== Sys2Proof/Config.lean ====
section
/-! DEFINITION. The values that the spec leaves open: constants without a body, applied to a counter of the state or to
operands. No proof can see what they are. -/

namespace Sys2Proof.Config

/-- What the reverse table holds for a frame that holds no lot (R206), by frame; notes/assumptions/74.md. -/
opaque reverseFree : Nat → BitVec 32

/-- CYCLES of a completion record where the spec states no formula (R10); notes/assumptions/14.md. -/
opaque freeCycles : Nat → BitVec 32

/-- Cycles that ENG_BUSY gains where the spec states no number (R197); notes/assumptions/14.md. -/
opaque freeBusy : Nat → BitVec 32

/-- The two tensor scales of a final INT8 REDUCE_LOCAL, which the descriptor does not name, as a function of the descriptor and of the
records it merges, so that equal ones give equal results (R8); notes/assumptions/15.md. -/
opaque reduceScales : Nat → List (BitVec 8) → BitVec 32 × BitVec 32

/-- G of a sum of NRM128 records that differ in G (R103, R104), by the records; notes/assumptions/72.md. -/
opaque nrmG : List (List (BitVec 8)) → BitVec 8

/-- The integer of a NaN element in the value phase (R99), by format and anchor byte; notes/assumptions/72.md. -/
opaque orfNan : Nat → Nat → Int

/-- What the decoder makes of a codeword whose errors lie beyond what it corrects: nothing, so that it is reported, or, where the word
comes to lie near another codeword, that one's data (R251, R252), by the counter; notes/assumptions/23.md. -/
opaque miscorrected : Nat → Option (BitVec 512)

/-- tREFI of a depot channel in ns, by the MR4 refresh-rate field (R249): the spec gives neither; notes/assumptions/23.md. -/
opaque depotTrefi : Nat → Nat

/-- Whether the management controller has drained a controller's telemetry buffer since the last sample (R271), by the counter: when it
drains it the spec does not say; notes/assumptions/23.md. -/
opaque telemDrained : Nat → Bool

/-- The source number of the MSI that comes with the record of a hart's uncorrectable load or fetch (R255), which R459 does not list;
notes/assumptions/23.md. -/
opaque hartDataMsi : BitVec 20

/-- Redundant lanes of the stack of a tensor die, by die code (R248, R254): the spec gives no number; notes/assumptions/23.md. -/
opaque spareLanes : Nat → BitVec 8

/-- Spare rows of the context SRAM of a tensor die's front end, by die code (R625): the spec gives no number;
notes/assumptions/23.md. -/
opaque contextSpares : Nat → BitVec 8

/-- What a reset of a die or of the module finds of the next lot of an update unit (R298): nothing begun, or the lot in progress with the
first so many of its writes made, by the counter; notes/assumptions/26.md. -/
opaque lotInProgress : Nat → Option Nat

/-- How a difference-stream payload is cut into tokens (R301): lengths, and whether each is a run of zeros. The spec gives
the tokens and not the cutting; notes/assumptions/30.md. -/
opaque dsTokens : Bytes → List (Nat × Bool)

/-- The moments of a table's master region are BF16 rather than FP32, for ALGO 0x01 to 0x04 (R330): a LOOKUP_GRAD names no
moment format; notes/assumptions/35.md. -/
opaque rowMomentsBf16 : Bool

/-- Which free hot slot a sweep takes (R338), as an index into the free ones; notes/assumptions/36.md. -/
opaque hotPick : Nat → Nat

/-- The entries of a walk that a walker's cache still holds, one bit for each level of the table (R443); notes/assumptions/12.md. -/
opaque keepsWalk : Nat → Nat

/-- Ring cycles in which a coherent request waits for credit (R455, R465); notes/assumptions/60.md. -/
opaque creditStalls : Nat → Nat

/-- Microseconds of a move of queue pairs, at most 40 (R375); notes/assumptions/40.md. -/
opaque failoverUs : Nat → Nat

/-- The network die whose flash holds a lot's warehouse home is N1 (R208 names none); notes/assumptions/41.md. -/
opaque homeOnN1 : Nat → Bool

/-- Whether a port whose packets wait sends a priority flow control frame, and of how many quanta (R344 names no condition): none for 0;
notes/assumptions/75.md. -/
opaque pfcQuanta : Nat → Nat

/-- IEEE 1588 on a logical port (R359), which firmware sets up by no register: whether it is in the master role at a time, whether its messages are
two-step, and whether it measures the delay to its peer; notes/assumptions/75.md. -/
opaque ptpMaster : Nat → Nat → Bool
opaque ptpTwoStep : Nat → Bool
opaque ptpPeer : Nat → Bool

/-- What the management controller's random bit generator draws (R502): a free value for each draw; notes/assumptions/77.md. -/
opaque randomKey : Nat → BitVec 512

/-- The submission queue identifier in a completion entry (R357): a queue pair's context names none; notes/assumptions/44.md. -/
opaque sqId : Nat → BitVec 16

/-- What the JPEG decoder reads from a record up to its dequantised coefficients (ISO/IEC 10918-1, R412, R425), or the reason
of a skip: the reason, 0 for none; width, height, and for each component its horizontal and vertical sampling factors and its 8 × 8 blocks in raster
order, each with its 64 coefficients in natural order; notes/assumptions/20.md. -/
opaque jpeg : Bytes → Nat × Nat × Nat × List (Nat × Nat × List (List Int))

/-- The image of a PNG record (ISO/IEC 15948, R412), or the reason of a skip: the reason, 0 for none; width, height, bits of a component, planes of
samples in raster order; notes/assumptions/20.md. -/
opaque png : Bytes → Nat × Nat × Nat × Nat × List (List Nat)

/-- The frame of a video record, by codec, number of the frame and bytes (R412, R425), or the reason of a skip: the reason, 0 for none; width, height,
bits of a component, and the planes Y, Cb and Cr at 4:2:0; notes/assumptions/20.md. -/
opaque video : Nat → Nat → Bytes → Nat × Nat × Nat × Nat × List (List Nat)

/-- Bilinear interpolation in FP32: fractions along x and y, and the values of the four corners, row by row, all as FP32
codes. The spec does not state the order of its operations (R427); notes/assumptions/48.md. -/
opaque bilinear : Nat → Nat → List Nat → Nat

/-- The conversion of Y, Cb, Cr to R, G, B by a matrix of R413, all as FP32 codes: the spec names the matrices and not the order
of the operations (R429); notes/assumptions/48.md. -/
opaque toRgb : Nat → Nat × Nat × Nat → Nat × Nat × Nat

/-- What a message's header chunk says (R31, whose layout the spec does not give): codes of its source and destination dies, its
class in the order of R29, its data chunks, and its physical address where it has one; notes/assumptions/51.md. -/
opaque msgHeader : List (BitVec 8) → Nat × Nat × Nat × Nat × Option Nat

/-- The header chunk of a message (R31), whose layout the spec does not give: codes of its source and destination dies, its class in the
order of R29, its data chunks and its physical address; notes/assumptions/51.md. -/
opaque msgChunk : Nat → Nat → Nat → Nat → Nat → BitVec 128

/-- The highest P/E count of a block of a network die's flash at an hour (R654, R673): the spec does not say how programs spread
over blocks; notes/assumptions/53.md. -/
opaque peMax : Nat → Nat → BitVec 16

/-- Power in 0.1 W and voltage in mV of a die at a clock step of 25 MHz, by class (1 host, 2 network, 3 capacity) and step (R563, whose
table gives the tensor die's points only); notes/assumptions/57.md. -/
opaque opPower : Nat → Nat → Nat
opaque opMv : Nat → Nat → BitVec 10

/-- A firmware image that PLDM delivered carries a good signature (R512, R585); notes/assumptions/58.md. -/
opaque imageSigned : Bytes → Bool

/-- The module's serial number (R584, R586); notes/assumptions/58.md. -/
opaque serial : BitVec 64

/-- The class of the record of a PLC event (R228 names none; R621): its code less 1, modulo 7; notes/assumptions/60.md. -/
opaque plcEventClass : Nat

/-- A byte that the spec leaves unspecified. -/
opaque freeByte : Nat → BitVec 8

end Sys2Proof.Config
end

