-- ==== Sys2Proof/Machine/RegMap.lean ====
section
/-! DEFINITION. The register maps of the chapters (R197 to R199, R244, R245, R272, R273, R309, R341, R342, R378 to R381, R408,
R437, R464, R465, R488, R489, R514, R515, R522, R566 to R568, R600, R619, R648 to R651, R672 to R674): for each word the
bits of each access code of R18 and the reset value. -/

namespace Sys2Proof.Machine

/-- One word of a register map: its offset, the bits under each access code of R18 (a bit under none is RO or RV),
the die to which RW is limited where the map limits it, and the reset value. -/
structure RegRow where
  off : Nat
  rw : Nat
  wm : Nat
  w1c : Nat
  wb : Nat
  tv : Nat
  only : Option Die
  reset : Nat
  deriving DecidableEq, Repr

/-- A word of RW, W1C and RO or RV bits. -/
def RegRow.plain (off rw w1c reset : Nat) : RegRow := ⟨off, rw, 0, w1c, 0, 0, none, reset⟩

namespace RegMap

/-- The map of R197. -/
def engine : List RegRow := [
  .plain 0x40 0x0 0x0 0x730100,
  .plain 0x44 0x0 0x0 0x0,
  .plain 0x48 0xffff 0x0 0x100,
  .plain 0x4c 0x3f 0x0 0x0,
  .plain 0x50 0x0 0x0 0x0,
  .plain 0x54 0x0 0x0 0x0,
  .plain 0x58 0x0 0x0 0x0,
  .plain 0x60 0x0 0x0 0x0,
  .plain 0x64 0x0 0x0 0x0,
  .plain 0x68 0x0 0x0 0x0]

/-- The map of R198. -/
def frontEnd : List RegRow := [
  .plain 0x40 0x3fff 0x0 0x0,
  .plain 0x44 0x3 0x8 0x0,
  .plain 0x48 0x0 0x0 0x0,
  .plain 0x4c 0x0 0x0 0x0,
  .plain 0x50 0x0 0x0 0x0,
  .plain 0x54 0x0 0x0 0x0,
  .plain 0x100 0xffffffff 0x0 0x0,
  .plain 0x104 0xffffffff 0x0 0x0,
  .plain 0x108 0xffffffff 0x0 0x0,
  .plain 0x10c 0xffffffff 0x0 0x0,
  .plain 0x110 0xffffffff 0x0 0x0,
  .plain 0x114 0xffffffff 0x0 0x0,
  .plain 0x118 0xffffffff 0x0 0x0,
  .plain 0x11c 0xffffffff 0x0 0x0,
  .plain 0x120 0xffffffff 0x0 0x0,
  .plain 0x124 0xffffffff 0x0 0x0,
  .plain 0x128 0xffffffff 0x0 0x0,
  .plain 0x12c 0xffffffff 0x0 0x0,
  .plain 0x130 0xffffffff 0x0 0x0,
  .plain 0x134 0xffffffff 0x0 0x0,
  .plain 0x138 0xffffffff 0x0 0x0,
  .plain 0x13c 0xffffffff 0x0 0x0,
  .plain 0x140 0xffffffff 0x0 0x0,
  .plain 0x144 0xffffffff 0x0 0x0,
  .plain 0x148 0xffffffff 0x0 0x0,
  .plain 0x14c 0xffffffff 0x0 0x0,
  .plain 0x150 0xffffffff 0x0 0x0,
  .plain 0x154 0xffffffff 0x0 0x0,
  .plain 0x158 0xffffffff 0x0 0x0,
  .plain 0x15c 0xffffffff 0x0 0x0,
  .plain 0x160 0xffffffff 0x0 0x0,
  .plain 0x164 0xffffffff 0x0 0x0,
  .plain 0x168 0xffffffff 0x0 0x0,
  .plain 0x16c 0xffffffff 0x0 0x0,
  .plain 0x170 0xffffffff 0x0 0x0,
  .plain 0x174 0xffffffff 0x0 0x0,
  .plain 0x178 0xffffffff 0x0 0x0,
  .plain 0x17c 0xffffffff 0x0 0x0]

/-- The map of R199. -/
def doorbell : List RegRow := [
  .plain 0x40 0x3fffffff 0x0 0x0,
  .plain 0x44 0x0 0x0 0x0]

/-- The map of R244. -/
def plc : List RegRow := [
  .plain 0x40 0xfffffff 0x0 0x0,
  .plain 0x44 0x0 0x0 0x0,
  .plain 0x48 0x1fffff 0x0 0x174000,
  .plain 0x4c 0x7fffff 0x0 0x744000,
  .plain 0x50 0x1fff 0x0 0x40,
  .plain 0x54 0x0 0x1 0x0,
  .plain 0x58 0x0 0x0 0x0,
  .plain 0x5c 0x0 0x0 0x0,
  .plain 0x60 0x0 0x0 0x0,
  .plain 0x64 0x0 0x0 0x0,
  .plain 0x68 0x0 0x0 0x0,
  .plain 0x6c 0x0 0x0 0x0,
  .plain 0x70 0x0 0x0 0x0,
  .plain 0x74 0x0 0x0 0x0,
  .plain 0x78 0x0 0x0 0x0,
  .plain 0x7c 0x0 0x0 0x0]

/-- The map of R245. -/
def pool : List RegRow := [
  .plain 0x40 0xfffff000 0x0 0x0,
  .plain 0x44 0x1fff 0x0 0x0,
  .plain 0x48 0x1f 0x0 0x8,
  .plain 0x4c 0xfff 0x0 0x0,
  .plain 0x50 0x0 0x0 0x0,
  .plain 0x54 0xffffffff 0x0 0x0,
  .plain 0x58 0x0 0x0 0x0,
  .plain 0x5c 0x0 0x0 0x0,
  .plain 0x60 0x0 0x0 0x0,
  .plain 0x64 0x0 0x0 0x0]

/-- The map of R272. -/
def hbmc : List RegRow := [
  .plain 0x40 0x7fdf 0x0 0x540,
  .plain 0x44 0x1f 0x0 0x0,
  .plain 0x48 0x0 0x0 0x0,
  .plain 0x4c 0x0 0x0 0x0,
  .plain 0x50 0x0 0x0 0x0,
  .plain 0x54 0x0 0x0 0x0,
  .plain 0x58 0x0 0x0 0x0,
  .plain 0x5c 0x0 0x0 0x0,
  .plain 0x60 0x0 0x0 0x0,
  .plain 0x64 0x0 0x0 0x0,
  .plain 0x68 0x0 0x0 0x0,
  .plain 0x6c 0x0 0x0 0x0,
  .plain 0x70 0x0 0x0 0x0,
  .plain 0x74 0x0 0x0 0x0]

/-- The map of R273. -/
def depc : List RegRow := [
  .plain 0x40 0x1ff 0x0 0x15,
  .plain 0x44 0x1f 0x0 0x0,
  .plain 0x48 0x0 0x0 0x0,
  .plain 0x4c 0x0 0x0 0x0,
  .plain 0x50 0x0 0x0 0x0,
  .plain 0x54 0x0 0x0 0x0,
  .plain 0x58 0x0 0x0 0x0,
  .plain 0x5c 0x0 0x0 0x0,
  .plain 0x60 0x0 0x0 0x0,
  .plain 0x64 0x0 0x0 0x0,
  .plain 0x68 0x0 0x0 0x0,
  .plain 0x6c 0x0 0x0 0x0,
  .plain 0x70 0x0 0x0 0x0,
  .plain 0x74 0x0 0x0 0x0,
  .plain 0x78 0x0 0x0 0x0,
  .plain 0x7c 0x0 0x0 0x0,
  .plain 0x80 0x0 0x0 0x0]

/-- The map of R309. -/
def upd : List RegRow := [
  .plain 0x40 0xffffff 0x0 0x2710,
  .plain 0x44 0x1fff 0x0 0x40,
  .plain 0x48 0xffffffc0 0x0 0x0,
  .plain 0x4c 0x1fff 0x0 0x0,
  .plain 0x50 0x0 0x0 0x0,
  .plain 0x54 0x3fffffff 0x0 0x0,
  .plain 0x58 0x0 0x0 0x0,
  .plain 0x5c 0x0 0x0 0x0,
  .plain 0x60 0x0 0x0 0x0,
  .plain 0x64 0x0 0x0 0x0,
  .plain 0x68 0x0 0x0 0x0,
  .plain 0x6c 0x0 0x0 0x0,
  .plain 0x70 0x0 0x0 0x0,
  .plain 0x74 0x0 0x0 0x0,
  .plain 0x78 0x0 0x0 0x0,
  .plain 0x7c 0x0 0xffffffff 0x0,
  .plain 0x80 0x0 0x0 0x0,
  .plain 0x84 0x0 0x0 0x0]

/-- The map of R341. -/
def lkpEngine : List RegRow := [
  .plain 0x40 0x0 0x0 0x0,
  .plain 0x44 0x0 0x0 0x0,
  .plain 0x48 0x0 0x0 0x0,
  .plain 0x4c 0x0 0x0 0x0,
  .plain 0x50 0x0 0x0 0x0,
  .plain 0x54 0x0 0x0 0x0,
  .plain 0x58 0x0 0x0 0x0,
  .plain 0x5c 0x0 0x0 0x0,
  .plain 0x60 0x1ffff 0x0 0xc9,
  .plain 0x64 0x0 0x0 0x1000000]

/-- The map of R342. -/
def lkpRegistry : List RegRow := [
  .plain 0x40 0x3ff 0x0 0x0,
  .plain 0x44 0xffffffc0 0x0 0x0,
  .plain 0x48 0x1fff 0x0 0x0,
  .plain 0x4c 0x7 0x10 0x0,
  .plain 0x50 0x7ff 0x0 0x0,
  .plain 0x54 0x0 0x400 0x0,
  .plain 0x58 0x0 0x0 0x0,
  .plain 0x5c 0x0 0x0 0x0,
  .plain 0x60 0x0 0x0 0x0,
  .plain 0x64 0xffffffff 0x0 0x0,
  .plain 0x68 0xfff 0x1000 0x0]

/-- The map of R378. -/
def netPort : List RegRow := [
  .plain 0x40 0x7ff 0x0 0x4,
  .plain 0x44 0x0 0x40 0x0,
  .plain 0x48 0x0 0x0 0x0,
  .plain 0x4c 0x0 0x0 0x0,
  .plain 0x50 0x0 0x0 0x0,
  .plain 0x54 0x0 0x0 0x0,
  .plain 0x58 0x0 0x0 0x0,
  .plain 0x5c 0x0 0x0 0x0,
  .plain 0x60 0x0 0x0 0x0,
  .plain 0x64 0x0 0x0 0x0,
  .plain 0x68 0x0 0x0 0x0,
  .plain 0x6c 0x0 0x0 0x0,
  .plain 0x70 0x0 0x0 0x0]

/-- The map of R379. -/
def netRdma : List RegRow := [
  .plain 0x40 0x3fff 0x0 0x0,
  .plain 0x44 0x3 0x4 0x0,
  .plain 0x48 0x0 0x0 0x0,
  .plain 0x4c 0xffffff 0x0 0x0,
  .plain 0x50 0xffff 0x0 0x0,
  .plain 0x54 0x3 0x4 0x0,
  .plain 0x58 0x0 0x0 0x0,
  .plain 0x5c 0x0 0x0 0x0,
  .plain 0x60 0x0 0x0 0x0,
  .plain 0x64 0x3fffff 0x0 0xca005,
  .plain 0x100 0xffffffff 0x0 0x0,
  .plain 0x104 0xffffffff 0x0 0x0,
  .plain 0x108 0xffffffff 0x0 0x0,
  .plain 0x10c 0xffffffff 0x0 0x0,
  .plain 0x110 0xffffffff 0x0 0x0,
  .plain 0x114 0xffffffff 0x0 0x0,
  .plain 0x118 0xffffffff 0x0 0x0,
  .plain 0x11c 0xffffffff 0x0 0x0,
  .plain 0x120 0xffffffff 0x0 0x0,
  .plain 0x124 0xffffffff 0x0 0x0,
  .plain 0x128 0xffffffff 0x0 0x0,
  .plain 0x12c 0xffffffff 0x0 0x0,
  .plain 0x130 0xffffffff 0x0 0x0,
  .plain 0x134 0xffffffff 0x0 0x0,
  .plain 0x138 0xffffffff 0x0 0x0,
  .plain 0x13c 0xffffffff 0x0 0x0,
  .plain 0x140 0xffffffff 0x0 0x0,
  .plain 0x144 0xffffffff 0x0 0x0,
  .plain 0x148 0xffffffff 0x0 0x0,
  .plain 0x14c 0xffffffff 0x0 0x0,
  .plain 0x150 0xffffffff 0x0 0x0,
  .plain 0x154 0xffffffff 0x0 0x0,
  .plain 0x158 0xffffffff 0x0 0x0,
  .plain 0x15c 0xffffffff 0x0 0x0]

/-- The map of R380. -/
def netTime : List RegRow := [
  .plain 0x40 0x0 0x0 0x0,
  .plain 0x44 0x0 0x0 0x0,
  .plain 0x48 0x0 0x0 0x0,
  .plain 0x4c 0xffffffff 0x0 0x0,
  ⟨0x50, 0x0, 0x0, 0x0, 0xffffffff, 0x0, none, 0x0⟩,
  .plain 0x54 0x7ff 0x0 0x190,
  .plain 0x58 0x0 0x0 0x0,
  .plain 0x5c 0x0 0x0 0x0]

/-- The map of R381. -/
def xch : List RegRow := [
  .plain 0x40 0x0 0x0 0x0,
  .plain 0x44 0x0 0x0 0x0,
  .plain 0x48 0x0 0x0 0x0,
  .plain 0x4c 0x0 0x0 0x0,
  .plain 0x50 0x0 0x0 0x0,
  .plain 0x54 0x3f 0x0 0x0,
  .plain 0x58 0x0 0x0 0x0,
  .plain 0x5c 0x0 0x0 0x0,
  .plain 0x60 0x1 0x0 0x0]

/-- The map of R408. -/
def conv : List RegRow := [
  .plain 0x40 0xfffffff 0x0 0x0,
  .plain 0x44 0x3fff 0x0 0x1064,
  .plain 0x48 0x3fff 0x0 0x0,
  .plain 0x4c 0x3fff 0x0 0x0,
  .plain 0x50 0x3fff 0x0 0x0,
  .plain 0x54 0xfffffc00 0x0 0x0,
  .plain 0x58 0x1fff 0x0 0x0,
  .plain 0x5c 0xffffff 0x0 0x0,
  .plain 0x60 0xffffffe0 0x0 0x0,
  .plain 0x64 0x1fff 0x0 0x0,
  .plain 0x68 0xf 0x0 0xa,
  .plain 0x6c 0x3ff 0x400 0x0,
  .plain 0x70 0x0 0x0 0x0,
  .plain 0x74 0x0 0x0 0x0,
  .plain 0x78 0xffffffff 0x0 0x0,
  .plain 0x7c 0xffffffff 0x0 0x0,
  .plain 0x80 0xffffffff 0x0 0x0,
  .plain 0x84 0x3f 0x0 0x0,
  .plain 0x88 0x0 0x0 0x0,
  .plain 0x8c 0x0 0x0 0x0,
  .plain 0x90 0xffffffff 0x0 0x0,
  .plain 0x94 0xffffffff 0x0 0x0,
  .plain 0x98 0x3 0x0 0x0,
  .plain 0x9c 0x0 0x0 0x0,
  .plain 0xa0 0x0 0x0 0x0,
  .plain 0xa4 0x0 0x0 0x0,
  .plain 0xa8 0x0 0x0 0x0,
  .plain 0xac 0x0 0x0 0x0,
  .plain 0xb0 0x0 0x0 0x0,
  .plain 0xb4 0xffffffff 0x0 0x0]

/-- The map of R437. -/
def prep : List RegRow := [
  .plain 0x40 0x0 0x0 0x0,
  .plain 0x44 0x0 0x0 0x0,
  .plain 0x48 0x0 0x0 0x0,
  .plain 0x4c 0x0 0x0 0x0,
  .plain 0x50 0x0 0x0 0x0,
  .plain 0x54 0x0 0x0 0x0,
  .plain 0x58 0x0 0x0 0x0,
  .plain 0x5c 0x0 0x0 0x0,
  .plain 0x60 0x0 0x0 0x0,
  .plain 0x64 0x0 0x0 0x0,
  .plain 0x68 0x0 0x0 0x0,
  .plain 0x6c 0x0 0x0 0x0,
  .plain 0x70 0x0 0x0 0x0,
  .plain 0x74 0x0 0x0 0x0,
  .plain 0x78 0x0 0x0 0x0,
  .plain 0x7c 0x0 0x0 0x0,
  .plain 0x80 0x0 0x0 0x0,
  .plain 0x84 0x0 0x0 0x0,
  .plain 0x88 0x0 0xffffffff 0x0,
  .plain 0x8c 0x0 0x0 0x0,
  .plain 0x90 0x0 0x0 0x0,
  .plain 0x94 0x0 0x0 0x0]

/-- The map of R464. -/
def xlt : List RegRow := [
  .plain 0x40 0xfffff000 0x0 0x0,
  .plain 0x44 0x1ffffff 0x0 0x0,
  .plain 0x48 0xffffffff 0x0 0x0,
  .plain 0x4c 0x1ffff 0x0 0x0,
  .plain 0x50 0x1 0x4 0x0,
  .plain 0x54 0x0 0x0 0x0,
  .plain 0x58 0x0 0x0 0x0,
  .plain 0x5c 0x0 0x0 0x0,
  .plain 0x60 0x0 0x0 0x0,
  .plain 0x64 0x0 0x0 0x0,
  .plain 0x68 0x0 0x0 0x0,
  .plain 0x6c 0x0 0x0 0x0]

/-- The map of R465. -/
def coh : List RegRow := [
  ⟨0x40, 0xfffff000, 0x0, 0x0, 0x0, 0x0, some .H0, 0x0⟩,
  ⟨0x44, 0x1fff, 0x0, 0x0, 0x0, 0x0, some .H0, 0x0⟩,
  ⟨0x48, 0x3, 0x0, 0x0, 0x0, 0x0, some .H0, 0x0⟩,
  .plain 0x4c 0x0 0x0 0x0,
  .plain 0x50 0x0 0x0 0x0,
  .plain 0x54 0x0 0x0 0x0,
  .plain 0x58 0x0 0x0 0x0,
  .plain 0x5c 0x0 0x0 0x0,
  .plain 0x60 0x0 0x0 0x0,
  .plain 0x64 0x0 0x0 0x0,
  .plain 0x68 0x0 0x0 0x0,
  .plain 0x6c 0x0 0x0 0x0]

/-- The map of R488. -/
def tal : List RegRow := [
  .plain 0x40 0x7ff 0x0 0x0,
  .plain 0x44 0xff 0x0 0x0,
  .plain 0x48 0xffffff 0x0 0x3e8,
  .plain 0x4c 0x0 0x0 0x0,
  .plain 0x50 0x0 0x0 0x0,
  .plain 0x54 0x0 0x0 0x0,
  .plain 0x58 0x0 0x0 0x0,
  .plain 0x5c 0x0 0x0 0x0,
  .plain 0x60 0x0 0x0 0x0,
  .plain 0x64 0x0 0x0 0x0,
  .plain 0x68 0x0 0x0 0x0,
  .plain 0x6c 0x0 0x0 0x0,
  .plain 0x70 0x0 0x0 0x0]

/-- The map of R489. -/
def tallyWindow : List RegRow := [
  .plain 0x0 0x0 0x0 0x0,
  .plain 0x4 0x0 0x0 0x0,
  .plain 0x8 0xffffffff 0x0 0x0,
  .plain 0xc 0xffffffff 0x0 0x0,
  .plain 0x10 0xffffffff 0x0 0x0,
  .plain 0x14 0x0 0x0 0x0,
  .plain 0x18 0x0 0x0 0x0,
  .plain 0x1c 0x3 0x0 0x0,
  .plain 0x20 0x0 0x0 0x0,
  .plain 0x24 0x0 0x0 0x0]

/-- The map of R514. -/
def cptAdmin : List RegRow := [
  .plain 0x40 0x1fff 0x0 0x0,
  .plain 0x44 0x3f 0x0 0x0,
  .plain 0x48 0x3fffffff 0x0 0x0,
  .plain 0x4c 0x0 0x0 0x0,
  .plain 0x50 0x7 0x10 0x0,
  .plain 0x54 0x7fffff 0x0 0x3f800000,
  .plain 0x58 0x0 0x0 0xffffffff,
  .plain 0x5c 0x0 0x0 0xffffffff,
  .plain 0x60 0xf 0x0 0x0,
  .plain 0x64 0x0 0x0 0x0,
  .plain 0x68 0x0 0x0 0x0,
  .plain 0x6c 0x0 0x0 0x0]

/-- The map of R515. -/
def cptOwn : List RegRow := [
  .plain 0x40 0xf 0x0 0x0,
  .plain 0x44 0xffffffff 0x0 0x0,
  .plain 0x48 0x3f 0x0 0x0,
  .plain 0x4c 0x3 0x4 0x0,
  .plain 0x50 0x0 0x0 0x0]

/-- The map of R522. -/
def header : List RegRow := [
  .plain 0x0 0x0 0x0 0x0,
  .plain 0x4 0x0 0x0 0x100,
  .plain 0x8 0x0 0x0 0x0,
  ⟨0x10, 0x0, 0x7, 0x0, 0x0, 0x0, none, 0x1⟩,
  .plain 0x14 0x0 0x0 0x1,
  .plain 0x18 0xffff00f1 0x0 0x0,
  .plain 0x1c 0x0 0x0 0x0,
  .plain 0x20 0x0 0xffff 0x0,
  ⟨0x24, 0x0, 0xffff, 0x0, 0x0, 0x0, none, 0x0⟩,
  .plain 0x28 0x0 0x0 0x0,
  .plain 0x2c 0x0 0x1 0x0,
  .plain 0x30 0x0 0xffffff07 0x0,
  .plain 0x34 0x0 0x0 0x0,
  .plain 0x38 0x0 0x0 0x0,
  .plain 0x3c 0x0 0x0 0x0]

/-- The map of R566. -/
def clk : List RegRow := [
  ⟨0x40, 0x3, 0x0, 0x0, 0x0, 0x3, some .N0, 0x20⟩,
  ⟨0x44, 0x1ff, 0x0, 0x0, 0x0, 0x1ff, some .N0, 0xf0⟩,
  .plain 0x48 0x0 0x9 0x4,
  .plain 0x4c 0x3 0x0 0x0,
  .plain 0x50 0xff 0x0 0x0,
  .plain 0x54 0xff00 0x0 0x0,
  .plain 0x58 0x0 0x0 0x0,
  .plain 0x5c 0x0 0x0 0x0,
  .plain 0x60 0x0 0x0 0x0]

/-- The map of R567. -/
def pwr : List RegRow := [
  ⟨0x40, 0xfff, 0x0, 0x0, 0x0, 0xfff, some .N0, 0xc80⟩,
  .plain 0x44 0x0 0x0 0x0,
  .plain 0x48 0x0 0x0 0x0,
  .plain 0x4c 0x0 0x0 0x0,
  .plain 0x50 0x0 0x0 0x0,
  .plain 0x54 0x0 0x0 0x0,
  .plain 0x58 0x0 0x0 0x0,
  .plain 0x5c 0x0 0x0 0x0,
  .plain 0x60 0x0 0x0 0x0,
  .plain 0x64 0x0 0x0 0x0]

/-- The map of R568. -/
def thm : List RegRow := [
  .plain 0x40 0x0 0x0 0x0,
  ⟨0x44, 0xffff, 0x0, 0x0, 0x0, 0xffff, some .N0, 0x6e69645f⟩,
  .plain 0x48 0x0 0x0 0x0,
  .plain 0x4c 0x1f 0x0 0x0,
  .plain 0x50 0x0 0x0 0x0,
  .plain 0x54 0x0 0xff 0x0,
  .plain 0x58 0x0 0x0 0x0]

/-- The map of R600. -/
def pcie : List RegRow := [
  .plain 0x40 0x0 0x0 0x0,
  .plain 0x44 0x0 0x0 0x0,
  .plain 0x48 0x0 0x0 0x0,
  .plain 0x4c 0x0 0x0 0x0,
  .plain 0x50 0x0 0x8 0x0,
  .plain 0x54 0x3 0x4 0x0,
  .plain 0x58 0xffff 0x0 0x3c,
  .plain 0x5c 0x0 0x0 0x0,
  .plain 0x60 0x0 0x0 0x0,
  .plain 0x64 0x0 0x0 0x1,
  .plain 0x68 0x0 0x0 0x0,
  .plain 0x6c 0x0 0x0 0x0]

/-- The map of R619. -/
def mgmt : List RegRow := [
  .plain 0x40 0x100 0x0 0x0,
  .plain 0x44 0x7ff 0x800 0x0,
  .plain 0x48 0x0 0x0 0x0,
  .plain 0x4c 0xffff 0x10000 0x0,
  .plain 0x50 0x0 0x0 0x0,
  .plain 0x54 0x1c 0x20 0x0,
  .plain 0x58 0x0 0x0 0xffffffff,
  .plain 0x5c 0x0 0x0 0xffffffff,
  .plain 0x60 0x0 0x0 0xffffffff,
  .plain 0x64 0x0 0x0 0x0,
  .plain 0x68 0x0 0x0 0x0,
  .plain 0x6c 0x0 0x0 0x0]

/-- The map of R648. -/
def bist : List RegRow := [
  .plain 0x40 0xff 0x0 0x0,
  .plain 0x44 0x1 0x4 0x0,
  .plain 0x48 0x0 0x0 0x0,
  .plain 0x4c 0x0 0x0 0x0,
  .plain 0x50 0x0 0x0 0x0,
  .plain 0x54 0x0 0x0 0x0,
  .plain 0x58 0x0 0x0 0x0,
  .plain 0x5c 0x0 0x0 0x0,
  .plain 0x60 0x0 0x0 0x0,
  .plain 0x64 0x0 0x0 0x0,
  .plain 0x68 0x0 0x0 0x0,
  .plain 0x6c 0x0 0x0 0x0]

/-- The map of R649. -/
def frz : List RegRow := [
  .plain 0x40 0x3 0x4 0x0,
  .plain 0x44 0x3 0x0 0x0,
  .plain 0x48 0x0 0x0 0x0,
  .plain 0x4c 0x0 0x0 0x0,
  .plain 0x50 0xffff 0x0 0x3e8,
  .plain 0x54 0x0 0x0 0x0,
  .plain 0x58 0x0 0x0 0x1d800000,
  .plain 0x5c 0x0 0x0 0x0]

/-- The map of R650. -/
def tfab : List RegRow := [
  .plain 0x40 0x0 0x0 0x0,
  .plain 0x44 0x0 0x0 0x0,
  .plain 0x48 0x0 0x0 0x0,
  .plain 0x4c 0x0 0x0 0x0]

/-- The map of R651. -/
def d2d : List RegRow := [
  .plain 0x40 0x0 0x0 0x0,
  .plain 0x44 0x3 0x0 0x0,
  .plain 0x48 0x0 0x0 0x0,
  .plain 0x4c 0x0 0x0 0x0,
  .plain 0x50 0x0 0x0 0x0,
  .plain 0x54 0x0 0x0 0x0,
  .plain 0x58 0x0 0x0 0x0]

/-- The map of R672. -/
def ledg : List RegRow := [
  .plain 0x40 0x0 0x0 0x0,
  .plain 0x44 0x0 0x0 0x0,
  .plain 0x48 0x0 0x0 0x0,
  .plain 0x4c 0xffffffff 0x0 0x0,
  .plain 0x50 0xffff 0x0 0x0,
  .plain 0x54 0x1 0x0 0x1,
  .plain 0x58 0x0 0x0 0x0,
  .plain 0x5c 0x0 0x0 0x0,
  .plain 0x60 0x0 0x0 0x0,
  .plain 0x64 0x0 0x0 0x0,
  .plain 0x68 0x0 0x0 0x0,
  .plain 0x6c 0x0 0x0 0x0,
  .plain 0x70 0x0 0x0 0x0,
  .plain 0x74 0x0 0x0 0x0,
  .plain 0x78 0x0 0x0 0x0,
  .plain 0x7c 0x0 0x0 0x0,
  .plain 0x80 0xf 0x0 0x0,
  .plain 0x84 0x0 0x0 0x0,
  .plain 0x88 0x0 0x2 0x0,
  .plain 0x8c 0x0 0x0 0x40]

/-- The map of R673. -/
def whc : List RegRow := [
  .plain 0x40 0x0 0x0 0x0,
  .plain 0x44 0x0 0x0 0x0,
  .plain 0x48 0x0 0x0 0x0,
  .plain 0x4c 0x0 0x0 0x0,
  .plain 0x50 0x0 0x0 0x0,
  .plain 0x54 0xf 0x0 0x2,
  .plain 0x58 0x0 0x0 0x0,
  .plain 0x5c 0x0 0x0 0x0,
  .plain 0x60 0x0 0x0 0x0]

/-- The map of R674. -/
def svc : List RegRow := [
  .plain 0x40 0x0 0x0 0x0,
  .plain 0x44 0x1 0x0 0x0,
  .plain 0x48 0x0 0x0 0x0,
  .plain 0x4c 0xffff 0x0 0x0,
  .plain 0x50 0x20 0x0 0x0,
  .plain 0x54 0x0 0x0 0x0]

end RegMap

end Sys2Proof.Machine
end

