-- ==== Sys2Proof/Machine/Fields.lean ====
section
/-! DEFINITION. The named fields of the register pages: the offset, lowest bit and width of each, from the register maps of the
chapters (the rule is named beside each). -/

namespace Sys2Proof.Machine

/-- A field of a register word: byte offset in the page, lowest bit, width. -/
structure Fld where
  off : Nat
  lo : Nat
  w : Nat
  deriving DecidableEq, Repr

namespace Reg

/-- R197. -/ def ENG_CAP_LIVE_MASK : Fld := ⟨0x40, 0, 4⟩
/-- R197. -/ def ENG_CAP_LIVE_COUNT : Fld := ⟨0x40, 4, 3⟩
/-- R197. -/ def ENG_CAP_ENABLED : Fld := ⟨0x40, 7, 1⟩
/-- R197. -/ def ENG_CAP_HULUX_LEVEL : Fld := ⟨0x40, 8, 8⟩
/-- R197. -/ def ENG_CAP_CISTERN_MIB : Fld := ⟨0x40, 16, 4⟩
/-- R197. -/ def ENG_CAP_VEC_LANES_LOG2 : Fld := ⟨0x40, 20, 4⟩
/-- R197. -/ def ENG_STATUS_RUNNING : Fld := ⟨0x44, 0, 2⟩
/-- R197. -/ def ENG_STATUS_COMPARTMENT : Fld := ⟨0x44, 2, 6⟩
/-- R197. -/ def ENG_STATUS_RETIRED : Fld := ⟨0x44, 8, 1⟩
/-- R197. -/ def ENG_FILL_IDLE_IDLE : Fld := ⟨0x48, 0, 16⟩
/-- R197. -/ def ENG_FILL_CIST_FILL_UNITS : Fld := ⟨0x4c, 0, 6⟩
/-- R197. -/ def ENG_PREEMPTS : Fld := ⟨0x50, 0, 32⟩
/-- R197. -/ def ENG_SWITCHES : Fld := ⟨0x54, 0, 32⟩
/-- R197. -/ def ENG_ARR_XERR : Fld := ⟨0x58, 0, 32⟩
/-- R197. -/ def ENG_BUSY_LO : Fld := ⟨0x60, 0, 32⟩
/-- R197. -/ def ENG_BUSY_HI : Fld := ⟨0x64, 0, 32⟩
/-- R197. -/ def ENG_CIST_CORR : Fld := ⟨0x68, 0, 32⟩
/-- R198. -/ def FE_CTX_SEL_INDEX : Fld := ⟨0x40, 0, 14⟩
/-- R198. -/ def FE_CTX_CMD_CMD : Fld := ⟨0x44, 0, 2⟩
/-- R198. -/ def FE_CTX_CMD_BUSY : Fld := ⟨0x44, 2, 1⟩
/-- R198. -/ def FE_CTX_CMD_REJECTED : Fld := ⟨0x44, 3, 1⟩
/-- R198. -/ def FE_CTX_STATE_STATE : Fld := ⟨0x48, 0, 2⟩
/-- R198. -/ def FE_CTX_STATE_HALT_CAUSE : Fld := ⟨0x48, 8, 8⟩
/-- R198. -/ def FE_DB_REJECTS : Fld := ⟨0x4c, 0, 32⟩
/-- R198. -/ def FE_HEAD_HEAD : Fld := ⟨0x50, 0, 16⟩
/-- R198. -/ def FE_HEAD_OLDEST : Fld := ⟨0x50, 16, 16⟩
/-- R198. -/ def FE_ACTIVE : Fld := ⟨0x54, 0, 15⟩
/-- R198. -/ def FE_CTX_DATA : Fld := ⟨0x100, 0, 32⟩
/-- R199. -/ def DB_RING_STREAM : Fld := ⟨0x40, 0, 14⟩
/-- R199. -/ def DB_RING_TAIL : Fld := ⟨0x40, 14, 16⟩
/-- R199. -/ def DB_REJECTS : Fld := ⟨0x44, 0, 32⟩
/-- R244. -/ def PLC_QUERY_LOT_LOT : Fld := ⟨0x40, 0, 28⟩
/-- R244. -/ def PLC_QUERY_ENTRY : Fld := ⟨0x44, 0, 32⟩
/-- R244. -/ def PLC_NS_MARK_MARK : Fld := ⟨0x48, 0, 21⟩
/-- R244. -/ def PLC_DP_MARK_MARK : Fld := ⟨0x4c, 0, 23⟩
/-- R244. -/ def PLC_LOW_FRAMES : Fld := ⟨0x50, 0, 13⟩
/-- R244. -/ def PLC_WMARK_DP : Fld := ⟨0x54, 0, 32⟩
/-- R244. -/ def PLC_NS_USED : Fld := ⟨0x58, 0, 21⟩
/-- R244. -/ def PLC_DP_USED : Fld := ⟨0x5c, 0, 23⟩
/-- R244. -/ def PLC_EVICT_DOWN : Fld := ⟨0x60, 0, 32⟩
/-- R244. -/ def PLC_DROPS : Fld := ⟨0x64, 0, 32⟩
/-- R244. -/ def PLC_WRITEBACKS : Fld := ⟨0x68, 0, 32⟩
/-- R244. -/ def PLC_PAGEINS : Fld := ⟨0x6c, 0, 32⟩
/-- R244. -/ def PLC_MIG_SKIPPED : Fld := ⟨0x70, 0, 32⟩
/-- R244. -/ def PLC_MIG_BADIDX_INDEX : Fld := ⟨0x74, 0, 13⟩
/-- R244. -/ def PLC_NOFRAME : Fld := ⟨0x78, 0, 32⟩
/-- R244. -/ def PLC_PIN_REFUSED : Fld := ⟨0x7c, 0, 32⟩
/-- R245. -/ def POOL_Q_BASE_LO_ADDR : Fld := ⟨0x40, 12, 20⟩
/-- R245. -/ def POOL_Q_BASE_HI_ADDR : Fld := ⟨0x44, 0, 13⟩
/-- R245. -/ def POOL_Q_CFG_ENABLE : Fld := ⟨0x48, 0, 1⟩
/-- R245. -/ def POOL_Q_CFG_LOG2_SLOTS : Fld := ⟨0x48, 1, 4⟩
/-- R245. -/ def POOL_Q_CFG_HALTED : Fld := ⟨0x48, 5, 1⟩
/-- R245. -/ def POOL_Q_CFG_HALT_CAUSE : Fld := ⟨0x48, 6, 8⟩
/-- R245. -/ def POOL_Q_CFG_RECORD_LOST : Fld := ⟨0x48, 14, 1⟩
/-- R245. -/ def POOL_Q_TAIL_TAIL : Fld := ⟨0x4c, 0, 12⟩
/-- R245. -/ def POOL_Q_HEAD_HEAD : Fld := ⟨0x50, 0, 12⟩
/-- R245. -/ def POOL_Q_NEXT_SEQ : Fld := ⟨0x54, 0, 32⟩
/-- R245. -/ def POOL_FREE_NOT_OWNER : Fld := ⟨0x58, 0, 32⟩
/-- R245. -/ def POOL_FREE_STALE : Fld := ⟨0x5c, 0, 32⟩
/-- R245. -/ def POOL_LIVE_BUFFERS : Fld := ⟨0x60, 0, 18⟩
/-- R245. -/ def POOL_DB_REJECTS : Fld := ⟨0x64, 0, 32⟩
/-- R272. -/ def HBMC_CFG_LOCAL_GIB : Fld := ⟨0x40, 0, 5⟩
/-- R272. -/ def HBMC_CFG_LOCKED : Fld := ⟨0x40, 5, 1⟩
/-- R272. -/ def HBMC_CFG_SCRUB_EN : Fld := ⟨0x40, 6, 1⟩
/-- R272. -/ def HBMC_CFG_NARROW_WAIT : Fld := ⟨0x40, 7, 8⟩
/-- R272. -/ def HBMC_SEL_PC : Fld := ⟨0x44, 0, 5⟩
/-- R272. -/ def HBMC_CORR : Fld := ⟨0x48, 0, 32⟩
/-- R272. -/ def HBMC_UNCORR : Fld := ⟨0x4c, 0, 32⟩
/-- R272. -/ def HBMC_SCRUB_POS : Fld := ⟨0x50, 0, 25⟩
/-- R272. -/ def HBMC_SCRUB_LAST : Fld := ⟨0x54, 0, 32⟩
/-- R272. -/ def HBMC_REF_DEBT : Fld := ⟨0x58, 0, 5⟩
/-- R272. -/ def HBMC_REF_DEBT_MAX : Fld := ⟨0x58, 5, 4⟩
/-- R272. -/ def HBMC_REF_FORCED : Fld := ⟨0x58, 9, 16⟩
/-- R272. -/ def HBMC_CAL_FORCED : Fld := ⟨0x5c, 0, 16⟩
/-- R272. -/ def HBMC_CAL_STALL_MAX_NS : Fld := ⟨0x5c, 16, 16⟩
/-- R272. -/ def HBMC_TELEM_DROPS : Fld := ⟨0x60, 0, 32⟩
/-- R272. -/ def HBMC_UE_ADDR_LO_PA : Fld := ⟨0x64, 6, 26⟩
/-- R272. -/ def HBMC_UE_ADDR_HI_PA : Fld := ⟨0x68, 0, 13⟩
/-- R272. -/ def HBMC_TEMP_TEMP_C : Fld := ⟨0x6c, 0, 8⟩
/-- R272. -/ def HBMC_TEMP_HOT : Fld := ⟨0x6c, 8, 1⟩
/-- R272. -/ def HBMC_LANES_REPAIRED : Fld := ⟨0x70, 0, 8⟩
/-- R272. -/ def HBMC_LANES_MARKED : Fld := ⟨0x70, 8, 8⟩
/-- R272. -/ def HBMC_NARROW_DEPTH : Fld := ⟨0x74, 0, 9⟩
/-- R273. -/ def DEPC_CFG_SCRUB_EN : Fld := ⟨0x40, 0, 1⟩
/-- R273. -/ def DEPC_CFG_NARROW_WAIT : Fld := ⟨0x40, 1, 8⟩
/-- R273. -/ def DEPC_SEL_CH : Fld := ⟨0x44, 0, 5⟩
/-- R273. -/ def DEPC_CORR : Fld := ⟨0x48, 0, 32⟩
/-- R273. -/ def DEPC_UNCORR : Fld := ⟨0x4c, 0, 32⟩
/-- R273. -/ def DEPC_SCRUB_POS : Fld := ⟨0x50, 0, 28⟩
/-- R273. -/ def DEPC_SCRUB_LAST : Fld := ⟨0x54, 0, 32⟩
/-- R273. -/ def DEPC_REF : Fld := ⟨0x58, 0, 32⟩
/-- R273. -/ def DEPC_CAL : Fld := ⟨0x5c, 0, 32⟩
/-- R273. -/ def DEPC_TELEM_DROPS : Fld := ⟨0x60, 0, 32⟩
/-- R273. -/ def DEPC_UE_ADDR_LO_PA : Fld := ⟨0x64, 6, 26⟩
/-- R273. -/ def DEPC_UE_ADDR_HI_PA : Fld := ⟨0x68, 0, 13⟩
/-- R273. -/ def DEPC_CHK_HITS : Fld := ⟨0x6c, 0, 32⟩
/-- R273. -/ def DEPC_CHK_MISSES : Fld := ⟨0x70, 0, 32⟩
/-- R273. -/ def DEPC_RMW : Fld := ⟨0x74, 0, 32⟩
/-- R273. -/ def DEPC_TAG_ERR : Fld := ⟨0x78, 0, 32⟩
/-- R273. -/ def DEPC_NARROW_DEPTH : Fld := ⟨0x7c, 0, 9⟩
/-- R273. -/ def DEPC_MR4_REF_RATE : Fld := ⟨0x80, 0, 5⟩
/-- R309. -/ def UPD_GAP_TIMEOUT_US : Fld := ⟨0x40, 0, 24⟩
/-- R309. -/ def UPD_DS_CFG_MODE : Fld := ⟨0x44, 0, 2⟩
/-- R309. -/ def UPD_DS_CFG_LOG2_SIZE : Fld := ⟨0x44, 2, 5⟩
/-- R309. -/ def UPD_DS_CFG_COMPARTMENT : Fld := ⟨0x44, 7, 6⟩
/-- R309. -/ def UPD_DS_BASE_LO_PA : Fld := ⟨0x48, 6, 26⟩
/-- R309. -/ def UPD_DS_BASE_HI_PA : Fld := ⟨0x4c, 0, 13⟩
/-- R309. -/ def UPD_DS_HEAD : Fld := ⟨0x50, 0, 30⟩
/-- R309. -/ def UPD_DS_TAIL : Fld := ⟨0x54, 0, 30⟩
/-- R309. -/ def UPD_DS_DROPS : Fld := ⟨0x58, 0, 32⟩
/-- R309. -/ def UPD_DS_FOREIGN : Fld := ⟨0x5c, 0, 32⟩
/-- R309. -/ def UPD_APPLIED : Fld := ⟨0x60, 0, 32⟩
/-- R309. -/ def UPD_IDEMP_SKIPS : Fld := ⟨0x64, 0, 32⟩
/-- R309. -/ def UPD_SKIPPED : Fld := ⟨0x68, 0, 32⟩
/-- R309. -/ def UPD_CLIPPED : Fld := ⟨0x6c, 0, 32⟩
/-- R309. -/ def UPD_WAITING : Fld := ⟨0x70, 0, 12⟩
/-- R309. -/ def UPD_BUSY : Fld := ⟨0x74, 0, 32⟩
/-- R309. -/ def UPD_GAP_TIMEOUTS : Fld := ⟨0x78, 0, 32⟩
/-- R309. -/ def UPD_SNAP_DELAY_MAX : Fld := ⟨0x7c, 0, 32⟩
/-- R309. -/ def UPD_NONFINITE_OUT : Fld := ⟨0x80, 0, 32⟩
/-- R309. -/ def UPD_TORN : Fld := ⟨0x84, 0, 32⟩
/-- R341. -/ def LKP_STATUS_STATE : Fld := ⟨0x40, 0, 2⟩
/-- R341. -/ def LKP_STATUS_COMPARTMENT : Fld := ⟨0x40, 2, 6⟩
/-- R341. -/ def LKP_DONE : Fld := ⟨0x44, 0, 32⟩
/-- R341. -/ def LKP_ROWS_FETCHED : Fld := ⟨0x48, 0, 32⟩
/-- R341. -/ def LKP_REFETCHED : Fld := ⟨0x4c, 0, 32⟩
/-- R341. -/ def LKP_INDEX_FAULTS : Fld := ⟨0x50, 0, 32⟩
/-- R341. -/ def LKP_UNIQUE_LAST : Fld := ⟨0x54, 0, 21⟩
/-- R341. -/ def LKP_WIDTH_CHANGES : Fld := ⟨0x58, 0, 32⟩
/-- R341. -/ def LKP_RELOCATIONS : Fld := ⟨0x5c, 0, 32⟩
/-- R341. -/ def LKP_SWEEP_CFG_EN : Fld := ⟨0x60, 0, 1⟩
/-- R341. -/ def LKP_SWEEP_CFG_PERIOD_MS : Fld := ⟨0x60, 1, 16⟩
/-- R341. -/ def LKP_STAGE_BYTES : Fld := ⟨0x64, 0, 32⟩
/-- R342. -/ def LKP_TBL_SEL_TABLE : Fld := ⟨0x40, 0, 10⟩
/-- R342. -/ def LKP_TBL_REC_LO_PA : Fld := ⟨0x44, 6, 26⟩
/-- R342. -/ def LKP_TBL_REC_HI_PA : Fld := ⟨0x48, 0, 13⟩
/-- R342. -/ def LKP_TBL_CMD_CMD : Fld := ⟨0x4c, 0, 2⟩
/-- R342. -/ def LKP_TBL_CMD_SLOT : Fld := ⟨0x4c, 2, 1⟩
/-- R342. -/ def LKP_TBL_CMD_BUSY : Fld := ⟨0x4c, 3, 1⟩
/-- R342. -/ def LKP_TBL_CMD_REJECTED : Fld := ⟨0x4c, 4, 1⟩
/-- R342. -/ def LKP_TBL_SWITCH_TABLE : Fld := ⟨0x50, 0, 10⟩
/-- R342. -/ def LKP_TBL_SWITCH_SLOT : Fld := ⟨0x50, 10, 1⟩
/-- R342. -/ def LKP_TBL_STATE_A : Fld := ⟨0x54, 0, 2⟩
/-- R342. -/ def LKP_TBL_STATE_B : Fld := ⟨0x54, 2, 2⟩
/-- R342. -/ def LKP_TBL_STATE_OWNER : Fld := ⟨0x54, 4, 6⟩
/-- R342. -/ def LKP_TBL_STATE_RELEASED : Fld := ⟨0x54, 10, 1⟩
/-- R342. -/ def LKP_TBL_VER_A : Fld := ⟨0x58, 0, 32⟩
/-- R342. -/ def LKP_TBL_VER_B : Fld := ⟨0x5c, 0, 32⟩
/-- R342. -/ def LKP_TBL_INFLIGHT_A : Fld := ⟨0x60, 0, 16⟩
/-- R342. -/ def LKP_TBL_INFLIGHT_B : Fld := ⟨0x60, 16, 16⟩
/-- R342. -/ def LKP_ROW : Fld := ⟨0x64, 0, 32⟩
/-- R342. -/ def LKP_ROW_CMD_TABLE : Fld := ⟨0x68, 0, 10⟩
/-- R342. -/ def LKP_ROW_CMD_CMD : Fld := ⟨0x68, 10, 2⟩
/-- R342. -/ def LKP_ROW_CMD_REJECTED : Fld := ⟨0x68, 12, 1⟩
/-- R378. -/ def NET_PORT_CFG_MODE : Fld := ⟨0x40, 0, 2⟩
/-- R378. -/ def NET_PORT_CFG_AN_EN : Fld := ⟨0x40, 2, 1⟩
/-- R378. -/ def NET_PORT_CFG_PFC_MASK : Fld := ⟨0x40, 3, 8⟩
/-- R378. -/ def NET_PORT_STAT_LINK : Fld := ⟨0x44, 0, 2⟩
/-- R378. -/ def NET_PORT_STAT_LOCK : Fld := ⟨0x44, 2, 4⟩
/-- R378. -/ def NET_PORT_STAT_STEERED_AWAY : Fld := ⟨0x44, 6, 1⟩
/-- R378. -/ def NET_LANE_ERR01 : Fld := ⟨0x48, 0, 32⟩
/-- R378. -/ def NET_LANE_ERR23 : Fld := ⟨0x4c, 0, 32⟩
/-- R378. -/ def NET_FEC_CORR : Fld := ⟨0x50, 0, 32⟩
/-- R378. -/ def NET_FEC_UNCORR : Fld := ⟨0x54, 0, 32⟩
/-- R378. -/ def NET_RX_FRAMES : Fld := ⟨0x58, 0, 32⟩
/-- R378. -/ def NET_TX_FRAMES : Fld := ⟨0x5c, 0, 32⟩
/-- R378. -/ def NET_ECN_CE : Fld := ⟨0x60, 0, 32⟩
/-- R378. -/ def NET_CNP_TX : Fld := ⟨0x64, 0, 32⟩
/-- R378. -/ def NET_CNP_RX : Fld := ⟨0x68, 0, 32⟩
/-- R378. -/ def NET_PFC_RX : Fld := ⟨0x6c, 0, 32⟩
/-- R378. -/ def NET_FAILOVER_US_MAX : Fld := ⟨0x70, 0, 16⟩
/-- R378. -/ def NET_FAILOVERS : Fld := ⟨0x70, 16, 16⟩
/-- R379. -/ def NET_QP_SEL_INDEX : Fld := ⟨0x40, 0, 14⟩
/-- R379. -/ def NET_QP_CMD_CMD : Fld := ⟨0x44, 0, 2⟩
/-- R379. -/ def NET_QP_CMD_REJECTED : Fld := ⟨0x44, 2, 1⟩
/-- R379. -/ def NET_QP_STATE_STATE : Fld := ⟨0x48, 0, 2⟩
/-- R379. -/ def NET_QP_STATE_PORT : Fld := ⟨0x48, 2, 5⟩
/-- R379. -/ def NET_QP_DB_INDEX : Fld := ⟨0x4c, 0, 14⟩
/-- R379. -/ def NET_QP_DB_TAIL : Fld := ⟨0x4c, 14, 10⟩
/-- R379. -/ def NET_MR_SEL_INDEX : Fld := ⟨0x50, 0, 16⟩
/-- R379. -/ def NET_MR_CMD_CMD : Fld := ⟨0x54, 0, 2⟩
/-- R379. -/ def NET_MR_CMD_REJECTED : Fld := ⟨0x54, 2, 1⟩
/-- R379. -/ def NET_QP_ERRORS : Fld := ⟨0x58, 0, 32⟩
/-- R379. -/ def NET_ACCESS_NAKS : Fld := ⟨0x5c, 0, 32⟩
/-- R379. -/ def NET_RETRANSMITS : Fld := ⟨0x60, 0, 32⟩
/-- R379. -/ def NET_DCQCN_CFG_AI_10MBPS : Fld := ⟨0x64, 0, 10⟩
/-- R379. -/ def NET_DCQCN_CFG_G_LOG2 : Fld := ⟨0x64, 10, 4⟩
/-- R379. -/ def NET_DCQCN_CFG_CNP_GAP_US : Fld := ⟨0x64, 14, 8⟩
/-- R379. -/ def NET_QP_DATA : Fld := ⟨0x100, 0, 32⟩
/-- R379. -/ def NET_MR_DATA : Fld := ⟨0x140, 0, 32⟩
/-- R380. -/ def NET_PTP_SEC_LO : Fld := ⟨0x40, 0, 32⟩
/-- R380. -/ def NET_PTP_SEC_HI : Fld := ⟨0x44, 0, 16⟩
/-- R380. -/ def NET_PTP_NS : Fld := ⟨0x48, 0, 30⟩
/-- R380. -/ def NET_PTP_ADJ : Fld := ⟨0x4c, 0, 32⟩
/-- R380. -/ def NET_PTP_STEP : Fld := ⟨0x50, 0, 32⟩
/-- R380. -/ def NET_PPS_CFG_OUT_EN : Fld := ⟨0x54, 0, 1⟩
/-- R380. -/ def NET_PPS_CFG_IN_EN : Fld := ⟨0x54, 1, 1⟩
/-- R380. -/ def NET_PPS_CFG_WIDTH_MS : Fld := ⟨0x54, 2, 9⟩
/-- R380. -/ def NET_PPS_IN_SEC : Fld := ⟨0x58, 0, 32⟩
/-- R380. -/ def NET_PPS_IN_NS : Fld := ⟨0x5c, 0, 30⟩
/-- R381. -/ def XCH_STATUS_TOKENS : Fld := ⟨0x40, 0, 1⟩
/-- R381. -/ def XCH_STATUS_REDUCE : Fld := ⟨0x40, 1, 1⟩
/-- R381. -/ def XCH_STATUS_WINDOWS : Fld := ⟨0x40, 2, 7⟩
/-- R381. -/ def XCH_DISPATCHED : Fld := ⟨0x44, 0, 32⟩
/-- R381. -/ def XCH_DROPPED : Fld := ⟨0x48, 0, 32⟩
/-- R381. -/ def XCH_REDIRECTED : Fld := ⟨0x4c, 0, 32⟩
/-- R381. -/ def XCH_REDUCTIONS : Fld := ⟨0x50, 0, 32⟩
/-- R381. -/ def XCH_WIN_SEL_WINDOW : Fld := ⟨0x54, 0, 6⟩
/-- R381. -/ def XCH_WIN_STATE_STATE : Fld := ⟨0x58, 0, 2⟩
/-- R381. -/ def XCH_WIN_STATE_REFS : Fld := ⟨0x58, 2, 16⟩
/-- R381. -/ def XCH_WIN_LAYER : Fld := ⟨0x5c, 0, 32⟩
/-- R381. -/ def XCH_WIN_CMD_RELEASE : Fld := ⟨0x60, 0, 1⟩
/-- R408. -/ def CONV_CFG_ROLE : Fld := ⟨0x40, 0, 2⟩
/-- R408. -/ def CONV_CFG_RANK : Fld := ⟨0x40, 2, 7⟩
/-- R408. -/ def CONV_CFG_CONVOY : Fld := ⟨0x40, 9, 5⟩
/-- R408. -/ def CONV_CFG_COMPARTMENT : Fld := ⟨0x40, 14, 6⟩
/-- R408. -/ def CONV_CFG_LAYER_MODE : Fld := ⟨0x40, 20, 1⟩
/-- R408. -/ def CONV_CFG_FED : Fld := ⟨0x40, 21, 1⟩
/-- R408. -/ def CONV_CFG_GROUPS : Fld := ⟨0x40, 22, 6⟩
/-- R408. -/ def CONV_HB_PERIOD_US : Fld := ⟨0x44, 0, 10⟩
/-- R408. -/ def CONV_HB_MISS : Fld := ⟨0x44, 10, 4⟩
/-- R408. -/ def CONV_TALLY_BAR_INDEX : Fld := ⟨0x48, 0, 14⟩
/-- R408. -/ def CONV_TALLY_COMMIT_INDEX : Fld := ⟨0x4c, 0, 14⟩
/-- R408. -/ def CONV_TALLY_LAYER_BASE : Fld := ⟨0x50, 0, 14⟩
/-- R408. -/ def CONV_MEMBERS_LO_PA : Fld := ⟨0x54, 10, 22⟩
/-- R408. -/ def CONV_MEMBERS_HI_PA : Fld := ⟨0x58, 0, 13⟩
/-- R408. -/ def CONV_TOP_QP_QPN : Fld := ⟨0x5c, 0, 24⟩
/-- R408. -/ def CONV_MREC_LO_PA : Fld := ⟨0x60, 5, 27⟩
/-- R408. -/ def CONV_MREC_HI_PA : Fld := ⟨0x64, 0, 13⟩
/-- R408. -/ def CONV_MREC_CFG_LOG2_ENTRIES : Fld := ⟨0x68, 0, 4⟩
/-- R408. -/ def CONV_CMD_CMD : Fld := ⟨0x6c, 0, 3⟩
/-- R408. -/ def CONV_CMD_ADMIT_RANK : Fld := ⟨0x6c, 3, 7⟩
/-- R408. -/ def CONV_CMD_REJECTED : Fld := ⟨0x6c, 10, 1⟩
/-- R408. -/ def CONV_STAT_STATE : Fld := ⟨0x70, 0, 2⟩
/-- R408. -/ def CONV_STAT_IS_MANAGER : Fld := ⟨0x70, 2, 1⟩
/-- R408. -/ def CONV_EPOCH : Fld := ⟨0x74, 0, 32⟩
/-- R408. -/ def CONV_BARRIER : Fld := ⟨0x78, 0, 32⟩
/-- R408. -/ def CONV_READY_LO : Fld := ⟨0x7c, 0, 32⟩
/-- R408. -/ def CONV_READY_HI : Fld := ⟨0x80, 0, 32⟩
/-- R408. -/ def CONV_READY_GROUP : Fld := ⟨0x84, 0, 6⟩
/-- R408. -/ def CONV_COMMITTED_LO : Fld := ⟨0x88, 0, 32⟩
/-- R408. -/ def CONV_COMMITTED_HI : Fld := ⟨0x8c, 0, 32⟩
/-- R408. -/ def CONV_APPLIED_LO : Fld := ⟨0x90, 0, 32⟩
/-- R408. -/ def CONV_APPLIED_HI : Fld := ⟨0x94, 0, 32⟩
/-- R408. -/ def CONV_APPLY_OUT : Fld := ⟨0x98, 0, 2⟩
/-- R408. -/ def CONV_ABORTED_M : Fld := ⟨0x9c, 0, 32⟩
/-- R408. -/ def CONV_LOST_RANK : Fld := ⟨0xa0, 0, 7⟩
/-- R408. -/ def CONV_RETRIES : Fld := ⟨0xa4, 0, 32⟩
/-- R408. -/ def CONV_HB_RTT_MAX : Fld := ⟨0xa8, 0, 16⟩
/-- R408. -/ def CONV_LMASK_LO : Fld := ⟨0xac, 0, 32⟩
/-- R408. -/ def CONV_LMASK_HI : Fld := ⟨0xb0, 0, 32⟩
/-- R408. -/ def CONV_ID : Fld := ⟨0xb4, 0, 32⟩
/-- R437. -/ def PREP_STATUS_STATE : Fld := ⟨0x40, 0, 2⟩
/-- R437. -/ def PREP_STATUS_COMPARTMENT : Fld := ⟨0x40, 2, 6⟩
/-- R437. -/ def PREP_DONE : Fld := ⟨0x44, 0, 32⟩
/-- R437. -/ def PREP_SAMPLES : Fld := ⟨0x48, 0, 32⟩
/-- R437. -/ def PREP_SKIP : Fld := ⟨0x4c, 0, 32⟩
/-- R437. -/ def PREP_WALK_FAILS : Fld := ⟨0x6c, 0, 32⟩
/-- R437. -/ def PREP_CACHE_HITS : Fld := ⟨0x70, 0, 32⟩
/-- R437. -/ def PREP_CACHE_MISSES : Fld := ⟨0x74, 0, 32⟩
/-- R437. -/ def PREP_CACHE_BADCRC : Fld := ⟨0x78, 0, 32⟩
/-- R437. -/ def PREP_SUPERSEDED : Fld := ⟨0x7c, 0, 32⟩
/-- R437. -/ def PREP_STALE_ENTRY : Fld := ⟨0x80, 0, 32⟩
/-- R437. -/ def PREP_STALE_DELIVERY : Fld := ⟨0x84, 0, 32⟩
/-- R437. -/ def PREP_LIVE_AGE_MAX : Fld := ⟨0x88, 0, 32⟩
/-- R437. -/ def PREP_VIDEO_ACTIVE : Fld := ⟨0x8c, 0, 4⟩
/-- R437. -/ def PREP_OUT_PIXELS_LO : Fld := ⟨0x90, 0, 32⟩
/-- R437. -/ def PREP_OUT_PIXELS_HI : Fld := ⟨0x94, 0, 32⟩
/-- R464. -/ def XLT_INV_VA_LO_VA : Fld := ⟨0x40, 12, 20⟩
/-- R464. -/ def XLT_INV_VA_HI_VA : Fld := ⟨0x44, 0, 25⟩
/-- R464. -/ def XLT_INV_PAGES : Fld := ⟨0x48, 0, 32⟩
/-- R464. -/ def XLT_INV_ASID_ASID : Fld := ⟨0x4c, 0, 16⟩
/-- R464. -/ def XLT_INV_ASID_ALL_ASID : Fld := ⟨0x4c, 16, 1⟩
/-- R464. -/ def XLT_INV_CMD_GO : Fld := ⟨0x50, 0, 1⟩
/-- R464. -/ def XLT_INV_CMD_BUSY : Fld := ⟨0x50, 1, 1⟩
/-- R464. -/ def XLT_INV_CMD_REJECTED : Fld := ⟨0x50, 2, 1⟩
/-- R464. -/ def XLT_INV_TIME_US : Fld := ⟨0x54, 0, 32⟩
/-- R464. -/ def XLT_INV_HOLDER_STREAM : Fld := ⟨0x58, 0, 14⟩
/-- R464. -/ def XLT_INV_HOLDER_DIE : Fld := ⟨0x58, 14, 8⟩
/-- R464. -/ def XLT_INV_HOLDER_QP : Fld := ⟨0x58, 22, 1⟩
/-- R464. -/ def XLT_INV_HOLDER_VALID : Fld := ⟨0x58, 23, 1⟩
/-- R464. -/ def XLT_WALKS : Fld := ⟨0x5c, 0, 32⟩
/-- R464. -/ def XLT_WALK_FAULTS : Fld := ⟨0x60, 0, 32⟩
/-- R464. -/ def XLT_INVALIDATIONS : Fld := ⟨0x64, 0, 32⟩
/-- R464. -/ def XLT_FAULT_VA_LO_VA : Fld := ⟨0x68, 12, 20⟩
/-- R464. -/ def XLT_FAULT_VA_LO_CAUSE : Fld := ⟨0x68, 0, 4⟩
/-- R464. -/ def XLT_FAULT_VA_HI_VA : Fld := ⟨0x6c, 0, 25⟩
/-- R465. -/ def COH_MSI_BASE_LO_PA : Fld := ⟨0x40, 12, 20⟩
/-- R465. -/ def COH_MSI_BASE_HI_PA : Fld := ⟨0x44, 0, 13⟩
/-- R465. -/ def COH_MSI_CFG_EN : Fld := ⟨0x48, 0, 1⟩
/-- R465. -/ def COH_MSI_CFG_FLUSH : Fld := ⟨0x48, 1, 1⟩
/-- R465. -/ def COH_MSI_SENT : Fld := ⟨0x4c, 0, 32⟩
/-- R465. -/ def COH_MSI_DROPS : Fld := ⟨0x50, 0, 32⟩
/-- R465. -/ def COH_MSI_LAST_DROP : Fld := ⟨0x54, 0, 20⟩
/-- R465. -/ def COH_SNOOPS : Fld := ⟨0x58, 0, 32⟩
/-- R465. -/ def COH_DEV_RD : Fld := ⟨0x5c, 0, 32⟩
/-- R465. -/ def COH_DEV_WR : Fld := ⟨0x60, 0, 32⟩
/-- R465. -/ def COH_WBP : Fld := ⟨0x64, 0, 32⟩
/-- R465. -/ def COH_HOME_WAIT_MAX : Fld := ⟨0x68, 0, 16⟩
/-- R465. -/ def COH_REQ_CREDIT_STALLS : Fld := ⟨0x6c, 0, 32⟩
/-- R488. -/ def TAL_SEL_SLOT : Fld := ⟨0x40, 0, 11⟩
/-- R488. -/ def TAL_CFG_MODE : Fld := ⟨0x44, 0, 2⟩
/-- R488. -/ def TAL_CFG_COMPARTMENT : Fld := ⟨0x44, 2, 6⟩
/-- R488. -/ def TAL_CORE_LEASE_US : Fld := ⟨0x48, 0, 24⟩
/-- R488. -/ def TAL_STATE_WAITERS : Fld := ⟨0x4c, 0, 13⟩
/-- R488. -/ def TAL_STATE_HELD : Fld := ⟨0x4c, 13, 1⟩
/-- R488. -/ def TAL_STATE_ABANDONED : Fld := ⟨0x4c, 14, 1⟩
/-- R488. -/ def TAL_STATE_HOLDER_HALTED : Fld := ⟨0x4c, 15, 1⟩
/-- R488. -/ def TAL_VALUE_LO : Fld := ⟨0x50, 0, 32⟩
/-- R488. -/ def TAL_VALUE_HI : Fld := ⟨0x54, 0, 32⟩
/-- R488. -/ def TAL_WAIT_ENTRIES : Fld := ⟨0x58, 0, 13⟩
/-- R488. -/ def TAL_WAITER_FULL : Fld := ⟨0x5c, 0, 32⟩
/-- R488. -/ def TAL_OPS : Fld := ⟨0x60, 0, 32⟩
/-- R488. -/ def TAL_ABANDONS : Fld := ⟨0x64, 0, 32⟩
/-- R488. -/ def TAL_LEASE_LAPSES : Fld := ⟨0x68, 0, 32⟩
/-- R488. -/ def TAL_REFUSED : Fld := ⟨0x6c, 0, 32⟩
/-- R488. -/ def TAL_LAST_ABANDON_SLOT : Fld := ⟨0x70, 0, 11⟩
/-- R489. -/ def TALW_VALUE_LO : Fld := ⟨0x0, 0, 32⟩
/-- R489. -/ def TALW_VALUE_HI : Fld := ⟨0x4, 0, 32⟩
/-- R489. -/ def TALW_ADD : Fld := ⟨0x8, 0, 32⟩
/-- R489. -/ def TALW_SET_LO : Fld := ⟨0xc, 0, 32⟩
/-- R489. -/ def TALW_SET_HI : Fld := ⟨0x10, 0, 32⟩
/-- R489. -/ def TALW_LOCK_HELD : Fld := ⟨0x14, 0, 1⟩
/-- R489. -/ def TALW_LOCK_ABANDONED : Fld := ⟨0x14, 1, 1⟩
/-- R489. -/ def TALW_LOCK_HOLDER_HALTED : Fld := ⟨0x14, 2, 1⟩
/-- R489. -/ def TALW_LOCK_HOLDER_KIND : Fld := ⟨0x14, 3, 1⟩
/-- R489. -/ def TALW_LOCK_HOLDER_DIE : Fld := ⟨0x14, 4, 8⟩
/-- R489. -/ def TALW_LOCK_HOLDER_ID : Fld := ⟨0x14, 12, 14⟩
/-- R489. -/ def TALW_LOCK_COMPARTMENT : Fld := ⟨0x14, 26, 6⟩
/-- R489. -/ def TALW_TRY_CODE : Fld := ⟨0x18, 0, 2⟩
/-- R489. -/ def TALW_RELEASE_CMD : Fld := ⟨0x1c, 0, 2⟩
/-- R489. -/ def TALW_LEASE_LEFT_US : Fld := ⟨0x20, 0, 24⟩
/-- R489. -/ def TALW_WAITERS : Fld := ⟨0x24, 0, 13⟩
/-- R514. -/ def CPT_CFG_ADMIN : Fld := ⟨0x40, 0, 6⟩
/-- R514. -/ def CPT_CFG_PCIE : Fld := ⟨0x40, 6, 6⟩
/-- R514. -/ def CPT_CFG_LOCKED : Fld := ⟨0x40, 12, 1⟩
/-- R514. -/ def CPT_CFG_FW_SIGNED : Fld := ⟨0x40, 13, 1⟩
/-- R514. -/ def CPT_CFG_DEBUG_OPEN : Fld := ⟨0x40, 14, 1⟩
/-- R514. -/ def CPT_CFG_PROMISE : Fld := ⟨0x40, 15, 1⟩
/-- R514. -/ def CPT_SEL_COMPARTMENT : Fld := ⟨0x44, 0, 6⟩
/-- R514. -/ def CPT_ENT_CFG_SEALED : Fld := ⟨0x48, 0, 1⟩
/-- R514. -/ def CPT_ENT_CFG_ACCEPT_FILL : Fld := ⟨0x48, 1, 1⟩
/-- R514. -/ def CPT_ENT_CFG_SLOTS : Fld := ⟨0x48, 2, 4⟩
/-- R514. -/ def CPT_ENT_CFG_NS_FLOOR : Fld := ⟨0x48, 6, 12⟩
/-- R514. -/ def CPT_ENT_CFG_DP_FLOOR : Fld := ⟨0x48, 18, 12⟩
/-- R514. -/ def CPT_ENT_STAT_STATE : Fld := ⟨0x4c, 0, 2⟩
/-- R514. -/ def CPT_ENT_STAT_KEY_GEN : Fld := ⟨0x4c, 2, 8⟩
/-- R514. -/ def CPT_CMD_CMD : Fld := ⟨0x50, 0, 3⟩
/-- R514. -/ def CPT_CMD_BUSY : Fld := ⟨0x50, 3, 1⟩
/-- R514. -/ def CPT_CMD_REJECTED : Fld := ⟨0x50, 4, 1⟩
/-- R514. -/ def CPT_UNIT_KIND : Fld := ⟨0x54, 0, 3⟩
/-- R514. -/ def CPT_UNIT_INDEX : Fld := ⟨0x54, 3, 20⟩
/-- R514. -/ def CPT_UNIT_OWNER : Fld := ⟨0x54, 23, 7⟩
/-- R514. -/ def CPT_SEAL_MAP : Fld := ⟨0x58, 0, 32⟩
/-- R514. -/ def CPT_SEAL_MAP_HI : Fld := ⟨0x5c, 0, 32⟩
/-- R514. -/ def CPT_SEAL_SEL : Fld := ⟨0x60, 0, 4⟩
/-- R514. -/ def CPT_SEAL_COMP : Fld := ⟨0x64, 0, 6⟩
/-- R514. -/ def CPT_SCRUBS : Fld := ⟨0x68, 0, 32⟩
/-- R514. -/ def CPT_LAST_SCRUB_US : Fld := ⟨0x6c, 0, 32⟩
/-- R515. -/ def CPT_OPEN_SEL_ENTRY : Fld := ⟨0x40, 0, 4⟩
/-- R515. -/ def CPT_OPEN_HANDLE : Fld := ⟨0x44, 0, 32⟩
/-- R515. -/ def CPT_OPEN_TO_COMPARTMENT : Fld := ⟨0x48, 0, 6⟩
/-- R515. -/ def CPT_OPEN_TO_VALID : Fld := ⟨0x48, 6, 1⟩
/-- R515. -/ def CPT_OPEN_CMD_CMD : Fld := ⟨0x4c, 0, 2⟩
/-- R515. -/ def CPT_OPEN_CMD_REJECTED : Fld := ⟨0x4c, 2, 1⟩
/-- R515. -/ def CPT_OWN_STATE : Fld := ⟨0x50, 0, 2⟩
/-- R515. -/ def CPT_OWN_SEALED : Fld := ⟨0x50, 2, 1⟩
/-- R515. -/ def CPT_OWN_PROMISE : Fld := ⟨0x50, 3, 1⟩
/-- R522. -/ def PAGE_ID_DIE : Fld := ⟨0x0, 0, 8⟩
/-- R522. -/ def PAGE_ID_INSTANCE : Fld := ⟨0x0, 8, 8⟩
/-- R522. -/ def PAGE_ID_TYPE : Fld := ⟨0x0, 16, 16⟩
/-- R522. -/ def PAGE_VER_LAYOUT : Fld := ⟨0x4, 0, 16⟩
/-- R522. -/ def PAGE_CAP_APPLY : Fld := ⟨0x8, 0, 1⟩
/-- R522. -/ def PAGE_CAP_AUTO_APPLY : Fld := ⟨0x8, 1, 1⟩
/-- R522. -/ def PAGE_CAP_WMARK : Fld := ⟨0x8, 2, 1⟩
/-- R522. -/ def PAGE_CAP_TV : Fld := ⟨0x8, 3, 1⟩
/-- R522. -/ def PAGE_CAP_LIVE_TEST : Fld := ⟨0x8, 4, 1⟩
/-- R522. -/ def PAGE_CAP_READ_EFFECTS : Fld := ⟨0x8, 5, 1⟩
/-- R522. -/ def PAGE_CAP_BOUNDARY : Fld := ⟨0x8, 8, 4⟩
/-- R522. -/ def PAGE_CAP_IRQ_USED : Fld := ⟨0x8, 16, 13⟩
/-- R522. -/ def PAGE_CTRL_ENABLE : Fld := ⟨0x10, 0, 1⟩
/-- R522. -/ def PAGE_CTRL_RESET : Fld := ⟨0x10, 1, 1⟩
/-- R522. -/ def PAGE_CTRL_INSPECT_SAFE : Fld := ⟨0x10, 2, 1⟩
/-- R522. -/ def PAGE_STAT_ENABLED : Fld := ⟨0x14, 0, 1⟩
/-- R522. -/ def PAGE_STAT_QUIESCENT : Fld := ⟨0x14, 1, 1⟩
/-- R522. -/ def PAGE_STAT_RESETTING : Fld := ⟨0x14, 2, 1⟩
/-- R522. -/ def PAGE_STAT_UNUSABLE : Fld := ⟨0x14, 3, 1⟩
/-- R522. -/ def PAGE_STAT_APPLY_PENDING : Fld := ⟨0x14, 4, 1⟩
/-- R522. -/ def PAGE_APPLY_REQ : Fld := ⟨0x18, 0, 1⟩
/-- R522. -/ def PAGE_APPLY_KIND : Fld := ⟨0x18, 4, 4⟩
/-- R522. -/ def PAGE_APPLY_GEN : Fld := ⟨0x18, 16, 16⟩
/-- R522. -/ def PAGE_APPLIED_CANCELLED : Fld := ⟨0x1c, 0, 1⟩
/-- R522. -/ def PAGE_APPLIED_GEN : Fld := ⟨0x1c, 16, 16⟩
/-- R522. -/ def PAGE_IRQ_STAT_BLOCK : Fld := ⟨0x20, 0, 13⟩
/-- R522. -/ def PAGE_IRQ_STAT_APPLIED : Fld := ⟨0x20, 13, 1⟩
/-- R522. -/ def PAGE_IRQ_STAT_WMARK : Fld := ⟨0x20, 14, 1⟩
/-- R522. -/ def PAGE_IRQ_STAT_ERR : Fld := ⟨0x20, 15, 1⟩
/-- R522. -/ def PAGE_IRQ_EN : Fld := ⟨0x24, 0, 16⟩
/-- R522. -/ def PAGE_IRQ_RAW : Fld := ⟨0x28, 0, 16⟩
/-- R522. -/ def PAGE_WMARK_STICKY : Fld := ⟨0x2c, 0, 1⟩
/-- R522. -/ def PAGE_WMARK_SIDE : Fld := ⟨0x2c, 1, 1⟩
/-- R522. -/ def PAGE_WMARK_COUNT : Fld := ⟨0x2c, 16, 16⟩
/-- R522. -/ def PAGE_ERR_WRITE_IGNORED : Fld := ⟨0x30, 0, 1⟩
/-- R522. -/ def PAGE_ERR_APPLY_REFUSED : Fld := ⟨0x30, 1, 1⟩
/-- R522. -/ def PAGE_ERR_VOTE : Fld := ⟨0x30, 2, 1⟩
/-- R522. -/ def PAGE_ERR_BLOCK : Fld := ⟨0x30, 8, 24⟩
/-- R522. -/ def PAGE_ERRCNT : Fld := ⟨0x34, 0, 32⟩
/-- R522. -/ def PAGE_VOTE_COUNT : Fld := ⟨0x38, 0, 16⟩
/-- R522. -/ def PAGE_VOTE_LAST_WORD : Fld := ⟨0x38, 16, 10⟩
/-- R566. -/ def CLK_SRC_SEL : Fld := ⟨0x40, 0, 2⟩
/-- R566. -/ def CLK_SRC_XTAL_OK : Fld := ⟨0x40, 2, 1⟩
/-- R566. -/ def CLK_SRC_BASE_OK : Fld := ⟨0x40, 3, 1⟩
/-- R566. -/ def CLK_SRC_ACTIVE : Fld := ⟨0x40, 4, 2⟩
/-- R566. -/ def CLK_SSC_SPREAD : Fld := ⟨0x44, 0, 4⟩
/-- R566. -/ def CLK_SSC_RATE : Fld := ⟨0x44, 4, 5⟩
/-- R566. -/ def CLK_STAT_CLK_LOSS : Fld := ⟨0x48, 0, 1⟩
/-- R566. -/ def CLK_STAT_COASTING : Fld := ⟨0x48, 1, 1⟩
/-- R566. -/ def CLK_STAT_ASYNC_ACTIVE : Fld := ⟨0x48, 2, 1⟩
/-- R566. -/ def CLK_STAT_XPARITY : Fld := ⟨0x48, 3, 1⟩
/-- R566. -/ def CLK_MODE_ASYNC : Fld := ⟨0x4c, 0, 1⟩
/-- R566. -/ def CLK_MODE_GATE_OFF : Fld := ⟨0x4c, 1, 1⟩
/-- R566. -/ def CLK_ISL_SEL_INDEX : Fld := ⟨0x50, 0, 8⟩
/-- R566. -/ def CLK_ISL_CUR : Fld := ⟨0x54, 0, 8⟩
/-- R566. -/ def CLK_ISL_MAX : Fld := ⟨0x54, 8, 8⟩
/-- R566. -/ def CLK_ISL_LOWEST : Fld := ⟨0x54, 16, 8⟩
/-- R566. -/ def CLK_ISL_NOMINAL : Fld := ⟨0x54, 24, 8⟩
/-- R566. -/ def CLK_XPAR_CNT : Fld := ⟨0x58, 0, 32⟩
/-- R566. -/ def CLK_LOSS_CNT : Fld := ⟨0x5c, 0, 32⟩
/-- R566. -/ def CLK_ISLANDS : Fld := ⟨0x60, 0, 8⟩
/-- R567. -/ def PWR_MODULE_BUDGET_W : Fld := ⟨0x40, 0, 12⟩
/-- R567. -/ def PWR_CAP : Fld := ⟨0x44, 0, 16⟩
/-- R567. -/ def PWR_DEMAND : Fld := ⟨0x48, 0, 16⟩
/-- R567. -/ def PWR_MEAS : Fld := ⟨0x4c, 0, 16⟩
/-- R567. -/ def PWR_LIMITS_FLOOR : Fld := ⟨0x50, 0, 16⟩
/-- R567. -/ def PWR_LIMITS_CEIL : Fld := ⟨0x50, 16, 16⟩
/-- R567. -/ def PWR_OP_STEP : Fld := ⟨0x54, 0, 8⟩
/-- R567. -/ def PWR_OP_MV : Fld := ⟨0x54, 8, 10⟩
/-- R567. -/ def PWR_CAUSE : Fld := ⟨0x58, 0, 3⟩
/-- R567. -/ def PWR_MISSED : Fld := ⟨0x5c, 0, 32⟩
/-- R567. -/ def PWR_THROTTLE_US : Fld := ⟨0x60, 0, 32⟩
/-- R567. -/ def PWR_ROUND : Fld := ⟨0x64, 0, 32⟩
/-- R568. -/ def THM_TJ_TEMP_C : Fld := ⟨0x40, 0, 8⟩
/-- R568. -/ def THM_TJ_SENSOR : Fld := ⟨0x40, 8, 6⟩
/-- R568. -/ def THM_LIMITS_STEP1 : Fld := ⟨0x44, 0, 8⟩
/-- R568. -/ def THM_LIMITS_STEP2 : Fld := ⟨0x44, 8, 8⟩
/-- R568. -/ def THM_LIMITS_LIMIT : Fld := ⟨0x44, 16, 8⟩
/-- R568. -/ def THM_LIMITS_SHUTDOWN : Fld := ⟨0x44, 24, 8⟩
/-- R568. -/ def THM_STATE : Fld := ⟨0x48, 0, 3⟩
/-- R568. -/ def THM_SENSOR_SEL : Fld := ⟨0x4c, 0, 5⟩
/-- R568. -/ def THM_SENSOR : Fld := ⟨0x50, 0, 8⟩
/-- R568. -/ def THM_MAX_SEEN : Fld := ⟨0x54, 0, 8⟩
/-- R568. -/ def THM_STEP_US : Fld := ⟨0x58, 0, 32⟩
/-- R600. -/ def PCIE_LINK_SPEED : Fld := ⟨0x40, 0, 3⟩
/-- R600. -/ def PCIE_LINK_WIDTH : Fld := ⟨0x40, 3, 5⟩
/-- R600. -/ def PCIE_LINK_DL_ACTIVE : Fld := ⟨0x40, 8, 1⟩
/-- R600. -/ def PCIE_LINK_FLIT : Fld := ⟨0x40, 9, 1⟩
/-- R600. -/ def PCIE_LINK_DOWNS : Fld := ⟨0x44, 0, 32⟩
/-- R600. -/ def PCIE_AER_UNCORR : Fld := ⟨0x48, 0, 32⟩
/-- R600. -/ def PCIE_AER_CORR : Fld := ⟨0x4c, 0, 32⟩
/-- R600. -/ def PCIE_HP_STATE_STATE : Fld := ⟨0x50, 0, 3⟩
/-- R600. -/ def PCIE_HP_STATE_DRAIN_TIMEOUT : Fld := ⟨0x50, 3, 1⟩
/-- R600. -/ def PCIE_HP_STATE_LEVER_CLOSED : Fld := ⟨0x50, 4, 1⟩
/-- R600. -/ def PCIE_HP_STATE_LATCH_LOCKED : Fld := ⟨0x50, 5, 1⟩
/-- R600. -/ def PCIE_HP_CMD_CMD : Fld := ⟨0x54, 0, 2⟩
/-- R600. -/ def PCIE_HP_CMD_REJECTED : Fld := ⟨0x54, 2, 1⟩
/-- R600. -/ def PCIE_HP_DRAIN_S : Fld := ⟨0x58, 0, 16⟩
/-- R600. -/ def PCIE_HP_BTN_PRESSES : Fld := ⟨0x5c, 0, 16⟩
/-- R600. -/ def PCIE_HP_BTN_IGNORED : Fld := ⟨0x5c, 16, 16⟩
/-- R600. -/ def PCIE_IN_VOLT : Fld := ⟨0x60, 0, 16⟩
/-- R600. -/ def PCIE_IN_CURR : Fld := ⟨0x60, 16, 16⟩
/-- R600. -/ def PCIE_HSW_AUX_ON : Fld := ⟨0x64, 0, 1⟩
/-- R600. -/ def PCIE_HSW_MAIN_ON : Fld := ⟨0x64, 1, 1⟩
/-- R600. -/ def PCIE_HSW_OC_LATCHED : Fld := ⟨0x64, 2, 1⟩
/-- R600. -/ def PCIE_HSW_OV : Fld := ⟨0x64, 3, 1⟩
/-- R600. -/ def PCIE_HSW_UV_WARN : Fld := ⟨0x64, 4, 1⟩
/-- R600. -/ def PCIE_SLOT_ID : Fld := ⟨0x68, 0, 4⟩
/-- R600. -/ def PCIE_INSERTIONS_INSERTIONS : Fld := ⟨0x6c, 0, 16⟩
/-- R600. -/ def PCIE_INSERTIONS_COUPLINGS : Fld := ⟨0x6c, 16, 16⟩
/-- R619. -/ def MGMT_BOOT_STAGE : Fld := ⟨0x40, 0, 4⟩
/-- R619. -/ def MGMT_BOOT_ERROR : Fld := ⟨0x40, 4, 4⟩
/-- R619. -/ def MGMT_BOOT_OPEN : Fld := ⟨0x40, 8, 1⟩
/-- R619. -/ def MGMT_RESET_CMD_KIND : Fld := ⟨0x44, 0, 3⟩
/-- R619. -/ def MGMT_RESET_CMD_TARGET : Fld := ⟨0x44, 3, 8⟩
/-- R619. -/ def MGMT_RESET_CMD_REJECTED : Fld := ⟨0x44, 11, 1⟩
/-- R619. -/ def MGMT_RESET_LAST_KIND : Fld := ⟨0x48, 0, 3⟩
/-- R619. -/ def MGMT_RESET_LAST_CAUSE : Fld := ⟨0x48, 3, 4⟩
/-- R619. -/ def MGMT_RESET_LAST_TARGET : Fld := ⟨0x48, 7, 8⟩
/-- R619. -/ def MGMT_PARK_REQ : Fld := ⟨0x4c, 0, 16⟩
/-- R619. -/ def MGMT_PARK_REJECTED : Fld := ⟨0x4c, 16, 1⟩
/-- R619. -/ def MGMT_DIES_PARKED : Fld := ⟨0x50, 0, 16⟩
/-- R619. -/ def MGMT_DIES_UNUSABLE : Fld := ⟨0x50, 16, 16⟩
/-- R619. -/ def MGMT_STANDBY_STATE : Fld := ⟨0x54, 0, 2⟩
/-- R619. -/ def MGMT_STANDBY_ENTER : Fld := ⟨0x54, 2, 1⟩
/-- R619. -/ def MGMT_STANDBY_WAKE : Fld := ⟨0x54, 3, 1⟩
/-- R619. -/ def MGMT_STANDBY_KEEP_H0 : Fld := ⟨0x54, 4, 1⟩
/-- R619. -/ def MGMT_STANDBY_REJECTED : Fld := ⟨0x54, 5, 1⟩
/-- R619. -/ def MGMT_STANDBY_WAKE_CAUSE : Fld := ⟨0x54, 6, 3⟩
/-- R619. -/ def MGMT_CORE_HELD : Fld := ⟨0x58, 0, 32⟩
/-- R619. -/ def MGMT_LIMITED_ACTIVE : Fld := ⟨0x64, 0, 1⟩
/-- R619. -/ def MGMT_LIMITED_NS_STACKS : Fld := ⟨0x64, 1, 8⟩
/-- R619. -/ def MGMT_LIMITED_DEPOT_SETS : Fld := ⟨0x64, 9, 5⟩
/-- R619. -/ def MGMT_RESETS_DIE : Fld := ⟨0x68, 0, 16⟩
/-- R619. -/ def MGMT_RESETS_ABSORBED : Fld := ⟨0x68, 16, 16⟩
/-- R619. -/ def MGMT_RESETS_MODULE : Fld := ⟨0x6c, 0, 32⟩
/-- R647. -/ def INJ_KIND : Fld := ⟨0x3c, 0, 4⟩
/-- R647. -/ def INJ_TARGET : Fld := ⟨0x3c, 4, 8⟩
/-- R647. -/ def INJ_ARM : Fld := ⟨0x3c, 12, 1⟩
/-- R647. -/ def TST_RUN : Fld := ⟨0x3c, 13, 1⟩
/-- R648. -/ def BIST_SEL_ISLAND : Fld := ⟨0x40, 0, 8⟩
/-- R648. -/ def BIST_CMD_RUN : Fld := ⟨0x44, 0, 1⟩
/-- R648. -/ def BIST_CMD_BUSY : Fld := ⟨0x44, 1, 1⟩
/-- R648. -/ def BIST_CMD_REJECTED : Fld := ⟨0x44, 2, 1⟩
/-- R648. -/ def BIST_RESULT_RESULT : Fld := ⟨0x48, 0, 2⟩
/-- R648. -/ def BIST_RESULT_UNUSABLE : Fld := ⟨0x48, 2, 1⟩
/-- R648. -/ def BIST_RESULT_V_OUT : Fld := ⟨0x48, 3, 1⟩
/-- R648. -/ def BIST_RESULT_NO_REF : Fld := ⟨0x48, 4, 1⟩
/-- R648. -/ def BIST_RESULT_TRANSIENTS : Fld := ⟨0x48, 8, 5⟩
/-- R648. -/ def BIST_SIG_LO : Fld := ⟨0x4c, 0, 32⟩
/-- R648. -/ def BIST_SIG_HI : Fld := ⟨0x50, 0, 32⟩
/-- R648. -/ def BIST_REF_LO : Fld := ⟨0x54, 0, 32⟩
/-- R648. -/ def BIST_REF_HI : Fld := ⟨0x58, 0, 32⟩
/-- R648. -/ def BIST_SUMMARY_FAILED : Fld := ⟨0x5c, 0, 8⟩
/-- R648. -/ def BIST_SUMMARY_NOT_RUN : Fld := ⟨0x5c, 8, 8⟩
/-- R648. -/ def BIST_SUMMARY_UNUSABLE : Fld := ⟨0x5c, 16, 8⟩
/-- R648. -/ def BIST_TST_RUNS : Fld := ⟨0x60, 0, 32⟩
/-- R648. -/ def BIST_TST_FAILS : Fld := ⟨0x64, 0, 32⟩
/-- R648. -/ def BIST_TST_US_MAX : Fld := ⟨0x68, 0, 16⟩
/-- R648. -/ def BIST_WRLOST : Fld := ⟨0x6c, 0, 32⟩
/-- R649. -/ def FRZ_CMD_CMD : Fld := ⟨0x40, 0, 2⟩
/-- R649. -/ def FRZ_CMD_REJECTED : Fld := ⟨0x40, 2, 1⟩
/-- R649. -/ def FRZ_CFG_PIN_MODE : Fld := ⟨0x44, 0, 1⟩
/-- R649. -/ def FRZ_CFG_ON_FATAL : Fld := ⟨0x44, 1, 1⟩
/-- R649. -/ def FRZ_STAT_STATE : Fld := ⟨0x48, 0, 2⟩
/-- R649. -/ def FRZ_STAT_KIND : Fld := ⟨0x48, 2, 1⟩
/-- R649. -/ def FRZ_STAT_TIMEOUTS : Fld := ⟨0x48, 3, 1⟩
/-- R649. -/ def FRZ_STAT_MODIFIED : Fld := ⟨0x48, 4, 1⟩
/-- R649. -/ def FRZ_STAT_SOURCE : Fld := ⟨0x48, 5, 3⟩
/-- R649. -/ def FRZ_TIMEOUT_CAUSE : Fld := ⟨0x4c, 0, 4⟩
/-- R649. -/ def FRZ_THAW_LIMIT_MS : Fld := ⟨0x50, 0, 16⟩
/-- R649. -/ def FRZ_DURATION_US : Fld := ⟨0x54, 0, 32⟩
/-- R649. -/ def FRZ_IMAGE_BITS : Fld := ⟨0x58, 0, 32⟩
/-- R649. -/ def FRZ_COUNT : Fld := ⟨0x5c, 0, 32⟩
/-- R650. -/ def TFAB_CORR : Fld := ⟨0x40, 0, 32⟩
/-- R650. -/ def TFAB_SPARES : Fld := ⟨0x44, 0, 8⟩
/-- R650. -/ def TFAB_FALLBACK : Fld := ⟨0x48, 0, 32⟩
/-- R650. -/ def TFAB_LINKS_DOWN : Fld := ⟨0x4c, 0, 3⟩
/-- R651. -/ def D2D_STAT_STATE : Fld := ⟨0x40, 0, 2⟩
/-- R651. -/ def D2D_STAT_HALF_UPPER : Fld := ⟨0x40, 2, 4⟩
/-- R651. -/ def D2D_STAT_SPARES_LEFT : Fld := ⟨0x40, 6, 5⟩
/-- R651. -/ def D2D_SEL_MODULE : Fld := ⟨0x44, 0, 2⟩
/-- R651. -/ def D2D_MAP : Fld := ⟨0x48, 0, 32⟩
/-- R651. -/ def D2D_RETRIES : Fld := ⟨0x4c, 0, 32⟩
/-- R651. -/ def D2D_CRC_ERR : Fld := ⟨0x50, 0, 32⟩
/-- R651. -/ def D2D_LOCK_LOSS : Fld := ⟨0x54, 0, 32⟩
/-- R651. -/ def D2D_SUBST_US_MAX : Fld := ⟨0x58, 0, 16⟩
/-- R672. -/ def LEDG_POH : Fld := ⟨0x40, 0, 32⟩
/-- R672. -/ def LEDG_THERM_CYCLES : Fld := ⟨0x44, 0, 32⟩
/-- R672. -/ def LEDG_RETIRED : Fld := ⟨0x48, 0, 12⟩
/-- R672. -/ def LEDG_RTC_LO : Fld := ⟨0x4c, 0, 32⟩
/-- R672. -/ def LEDG_RTC_HI_SEC : Fld := ⟨0x50, 0, 16⟩
/-- R672. -/ def LEDG_RTC_HI_VALID : Fld := ⟨0x50, 16, 1⟩
/-- R672. -/ def LEDG_RTC_HI_SRC : Fld := ⟨0x50, 17, 2⟩
/-- R672. -/ def LEDG_RTC_CFG_PTP_EN : Fld := ⟨0x54, 0, 1⟩
/-- R672. -/ def LEDG_LOG_COUNT : Fld := ⟨0x58, 0, 17⟩
/-- R672. -/ def LEDG_LOG_LOST : Fld := ⟨0x5c, 0, 32⟩
/-- R672. -/ def LEDG_LOG_DATA : Fld := ⟨0x60, 0, 32⟩
/-- R672. -/ def LEDG_VT_SEL_DIE : Fld := ⟨0x80, 0, 4⟩
/-- R672. -/ def LEDG_VT : Fld := ⟨0x84, 0, 32⟩
/-- R672. -/ def LEDG_STAT_HOURLY_WRAPPED : Fld := ⟨0x88, 0, 1⟩
/-- R672. -/ def LEDG_STAT_WRITE_FAIL : Fld := ⟨0x88, 1, 1⟩
/-- R672. -/ def LEDG_STAT_TAG_TORN : Fld := ⟨0x88, 2, 1⟩
/-- R672. -/ def LEDG_FREE_PAGES : Fld := ⟨0x8c, 0, 8⟩
/-- R673. -/ def WHC_PROGRAMMED_GIB : Fld := ⟨0x40, 0, 32⟩
/-- R673. -/ def WHC_HOST_GIB : Fld := ⟨0x44, 0, 32⟩
/-- R673. -/ def WHC_PE_MEAN : Fld := ⟨0x48, 0, 16⟩
/-- R673. -/ def WHC_PE_MAX : Fld := ⟨0x48, 16, 16⟩
/-- R673. -/ def WHC_CREDIT_GIB : Fld := ⟨0x4c, 0, 32⟩
/-- R673. -/ def WHC_STAT_PACED : Fld := ⟨0x50, 0, 1⟩
/-- R673. -/ def WHC_STAT_WORN : Fld := ⟨0x50, 1, 1⟩
/-- R673. -/ def WHC_STAT_RESERVE_LOW : Fld := ⟨0x50, 2, 1⟩
/-- R673. -/ def WHC_CFG_RESERVE_PCT : Fld := ⟨0x54, 0, 4⟩
/-- R673. -/ def WHC_FREE_BLOCKS : Fld := ⟨0x58, 0, 32⟩
/-- R673. -/ def WHC_BAD_BLOCKS : Fld := ⟨0x5c, 0, 32⟩
/-- R673. -/ def WHC_PACED_US : Fld := ⟨0x60, 0, 32⟩
/-- R674. -/ def SVC_TAG_STAT_DRAWING : Fld := ⟨0x40, 0, 1⟩
/-- R674. -/ def SVC_TAG_STAT_QUEUED : Fld := ⟨0x40, 1, 1⟩
/-- R674. -/ def SVC_TAG_STAT_HEALTH : Fld := ⟨0x40, 2, 2⟩
/-- R674. -/ def SVC_TAG_CMD_REDRAW : Fld := ⟨0x44, 0, 1⟩
/-- R674. -/ def SVC_TAG_DRAWS : Fld := ⟨0x48, 0, 32⟩
/-- R674. -/ def SVC_LOCATE_SECONDS : Fld := ⟨0x4c, 0, 16⟩
/-- R674. -/ def SVC_LOCATE_ACTIVE : Fld := ⟨0x4c, 16, 1⟩
/-- R674. -/ def SVC_SND_FAULT : Fld := ⟨0x50, 0, 1⟩
/-- R674. -/ def SVC_SND_RETRIES : Fld := ⟨0x50, 1, 3⟩
/-- R674. -/ def SVC_SND_LATCHED : Fld := ⟨0x50, 4, 1⟩
/-- R674. -/ def SVC_SND_CLEAR : Fld := ⟨0x50, 5, 1⟩
/-- R674. -/ def SVC_LED_POWER : Fld := ⟨0x54, 0, 2⟩
/-- R674. -/ def SVC_LED_ATTN : Fld := ⟨0x54, 2, 2⟩
/-- R674. -/ def SVC_LED_FAULT : Fld := ⟨0x54, 4, 1⟩

end Reg

end Sys2Proof.Machine
end

