-- ==== Sys2Proof/Machine/Arith.lean ====
section
/-! DEFINITION. Exact numbers and the one rounding of R84 to R90: every value is held as an integer times a power of two, and
every rounding of the chapters goes through `roundNum`. -/

namespace Sys2Proof.Machine

/-- A number that a format can name: canonical NaN, an infinity, or ±m·2^e (m = 0 is the zero of that sign). -/
inductive Num where
  | nan
  | inf (neg : Bool)
  | fin (neg : Bool) (m : Nat) (e : Int)
  deriving DecidableEq, Repr

/-- Rounding modes of R87; `sr` carries its word of R89. -/
inductive RMode where
  | rne | rtz | rup | rdn
  | sr (r : Nat)
  deriving DecidableEq, Repr

/-- floor(log2 n) for n above 0; 0 for 0. -/
def log2 (n : Nat) : Nat := n.log2

/-- floor(log2) of the magnitude m·2^e, m above 0. -/
def log2Of (m : Nat) (e : Int) : Int := (log2 m : Int) + e

/-- n·2^k for an integer k: exact when k is not negative, cut toward zero otherwise. -/
def shiftNat (n : Nat) (k : Int) : Nat := if 0 ≤ k then n <<< k.toNat else n >>> (-k).toNat

/-- The bits of n below 2^(-k) are not all zero. -/
def lostBits (n : Nat) (k : Int) : Bool := decide (k < 0) && n % 2 ^ (-k).toNat != 0

/-- A signed integer from sign and magnitude. -/
def signed (neg : Bool) (m : Nat) : Int := if neg then -(m : Int) else (m : Int)

/-- i·2^k, cut toward zero. -/
def shiftInt (i : Int) (k : Int) : Int := signed (decide (i < 0)) (shiftNat i.natAbs k)

/-- i·2^(-k) rounded toward minus infinity, as a shift of a two's complement register, and whether bits were lost. -/
def asr (i : Int) (k : Nat) : Int × Bool := (i >>> k, (i >>> k) <<< k != i)

/-- Rounding up of a magnitude whose integer part is `q` and whose dropped part is `rem / 2^s` (R87, R90). -/
def roundsAway (mode : RMode) (neg : Bool) (q rem s : Nat) : Bool :=
  match mode with
  | .rne => decide (2 ^ s < 2 * rem) || (2 * rem == 2 ^ s && q % 2 == 1)
  | .rtz => false
  | .rup => !neg && rem != 0
  | .rdn => neg && rem != 0
  | .sr r => decide (r < (rem <<< 32) >>> s)

/-- The magnitude m·2^e rounded to a multiple of 2^u: the multiple. -/
def roundAt (mode : RMode) (neg : Bool) (m : Nat) (e u : Int) : Nat :=
  if u ≤ e then m <<< (e - u).toNat
  else
    let s := (u - e).toNat
    let q := m >>> s
    if roundsAway mode neg q (m % 2 ^ s) s then q + 1 else q

/-- The range of a binary floating format: precision with the hidden bit, exponents of the smallest normal and of the
largest binade. -/
structure FSpec where
  p : Nat
  emin : Int
  emax : Int
  deriving DecidableEq, Repr

/-- A finite magnitude beyond the range becomes an infinity (R85). -/
def overflowsToInf (mode : RMode) (neg : Bool) : Bool :=
  match mode with
  | .rne => true
  | .rtz => false
  | .rup => !neg
  | .rdn => neg
  | .sr _ => true

/-- The largest finite number of a format. -/
def FSpec.largest (f : FSpec) (neg : Bool) : Num := .fin neg (2 ^ f.p - 1) (f.emax - (f.p - 1))

/-- One rounding of a finite nonzero magnitude into a floating format (R84, R85, R87, R90). Under RNE a result is beyond the largest
finite value when it rounds beyond it: one less than half a step above it becomes that value (DESIGN CHOICE between R85's words and
IEEE 754, notes/assumptions/71.md). -/
def roundMag (f : FSpec) (mode : RMode) (neg : Bool) (m : Nat) (e : Int) : Num :=
  let top := log2Of m e
  if f.emax < top then
    if overflowsToInf mode neg then .inf neg else f.largest neg
  else
    let u := max top f.emin - (f.p - 1)
    let q := roundAt mode neg m e u
    if 2 ^ f.p ≤ q && decide (f.emax < log2Of q u) then
      if overflowsToInf mode neg then .inf neg else f.largest neg
    else .fin neg q u

/-- One rounding of a number into a floating format. -/
def roundNum (f : FSpec) (mode : RMode) (x : Num) : Num :=
  match x with
  | .nan => .nan
  | .inf n => .inf n
  | .fin n m e => if m == 0 then .fin n 0 0 else roundMag f mode n m e

namespace Num

def isNan (x : Num) : Bool := match x with | .nan => true | _ => false
def isInf (x : Num) : Bool := match x with | .inf _ => true | _ => false
def isFin (x : Num) : Bool := match x with | .fin _ _ _ => true | _ => false
def isZero (x : Num) : Bool := match x with | .fin _ m _ => m == 0 | _ => false
/-- The sign; a NaN has none. -/
def neg (x : Num) : Bool := match x with | .nan => false | .inf n => n | .fin n _ _ => n

/-- The number with its sign changed. -/
def negate (x : Num) : Num := match x with | .nan => .nan | .inf n => .inf (!n) | .fin n m e => .fin (!n) m e

/-- The magnitude. -/
def abs (x : Num) : Num := match x with | .nan => .nan | .inf _ => .inf false | .fin _ m e => .fin false m e

/-- The exact product; infinity times zero is NaN (R81). -/
def mul (x y : Num) : Num :=
  match x, y with
  | .nan, _ => .nan
  | _, .nan => .nan
  | .inf a, .inf b => .inf (a != b)
  | .inf a, .fin b m _ => if m == 0 then .nan else .inf (a != b)
  | .fin a m _, .inf b => if m == 0 then .nan else .inf (a != b)
  | .fin a m e, .fin b k f => .fin (a != b) (m * k) (e + f)

/-- The exact sum. An exactly zero sum is −0 when both terms are −0, or when `down` (rounding toward −∞) and a term is
nonzero; otherwise +0 (R83). Infinities of both signs give NaN (R81). -/
def add (down : Bool) (x y : Num) : Num :=
  match x, y with
  | .nan, _ => .nan
  | _, .nan => .nan
  | .inf a, .inf b => if a == b then .inf a else .nan
  | .inf a, .fin _ _ _ => .inf a
  | .fin _ _ _, .inf b => .inf b
  | .fin a m e, .fin b k f =>
    let g := min e f
    let s := signed a (m <<< (e - g).toNat) + signed b (k <<< (f - g).toNat)
    if s == 0 then .fin ((a && b && m == 0 && k == 0) || (down && !(m == 0 && k == 0))) 0 0
    else .fin (decide (s < 0)) s.natAbs g

/-- The order of two numbers that are not NaN, +0 above −0 (R177). -/
def lt (x y : Num) : Bool :=
  match x, y with
  | .nan, _ => false
  | _, .nan => false
  | .inf a, .inf b => a && !b
  | .inf a, .fin _ _ _ => a
  | .fin _ _ _, .inf b => !b
  | .fin a m e, .fin b k f =>
    let g := min e f
    let s := signed a (m <<< (e - g).toNat)
    let t := signed b (k <<< (f - g).toNat)
    decide (s < t) || (s == t && a && !b && m == 0)

/-- floor(log2 |x|) of a finite nonzero number. -/
def log2? (x : Num) : Option Int :=
  match x with
  | .fin _ m e => if m == 0 then none else some (log2Of m e)
  | _ => none

end Num

/-- The quotient a/b of natural numbers, b above 0, as a magnitude with at least `bits` significant bits and a last bit
that is 1 when the quotient goes on: fit for one rounding. -/
def quotient (a b bits : Nat) : Nat × Int :=
  let k := bits + log2 b + 1 - log2 a
  let q := (a <<< k) / b
  (q * 2 + (if (a <<< k) % b == 0 then 0 else 1), -((k : Int) + 1))

/-- The integer square root, by the digits of `fuel` bit positions from the highest down. -/
def isqrtAux (n : Nat) : Nat → Nat → Nat
  | 0, r => r
  | k + 1, r =>
    let c := r + 2 ^ k
    isqrtAux n k (if c * c ≤ n then c else r)

/-- The integer square root of `n`. -/
def isqrt (n : Nat) : Nat := isqrtAux n (log2 n / 2 + 1) 0

/-- The square root of m·2^e (m above 0) with at least `bits` significant bits and a sticky last bit. -/
def sqrtMag (m : Nat) (e : Int) (bits : Nat) : Nat × Int :=
  let k0 : Nat := 2 * bits
  let k := if (e - k0) % 2 == 0 then k0 else k0 + 1
  let n := m <<< k
  let r := isqrt n
  (r * 2 + (if r * r == n then 0 else 1), (e - (k : Int)) / 2 - 1)

/-! ### Philox-4×32-10 (R89) -/

/-- One round of the generator on counter words and key words. -/
def philoxRound (c : Nat × Nat × Nat × Nat) (k : Nat × Nat) : Nat × Nat × Nat × Nat :=
  let p0 := c.1 * 0xD2511F53
  let p1 := c.2.2.1 * 0xCD9E8D57
  ((p1 >>> 32) ^^^ c.2.1 ^^^ k.1, p1 % 2 ^ 32, (p0 >>> 32) ^^^ c.2.2.2 ^^^ k.2, p0 % 2 ^ 32)

/-- `n` rounds, the key bumped between rounds. -/
def philoxRounds (c : Nat × Nat × Nat × Nat) (k : Nat × Nat) : Nat → Nat × Nat × Nat × Nat
  | 0 => c
  | n + 1 =>
    philoxRounds (philoxRound c k) ((k.1 + 0x9E3779B9) % 2 ^ 32, (k.2 + 0xBB67AE85) % 2 ^ 32) n

/-- The four words of the output block for a 64-bit key and a 128-bit counter. -/
def philox (key counter : Nat) : Nat × Nat × Nat × Nat :=
  philoxRounds (counter % 2 ^ 32, (counter >>> 32) % 2 ^ 32, (counter >>> 64) % 2 ^ 32, (counter >>> 96) % 2 ^ 32)
    (key % 2 ^ 32, (key >>> 32) % 2 ^ 32) 10

/-- The word r of stochastic rounding for seed, milestone, logical index and site (R89). -/
def srWord (seed milestone index site : Nat) : Nat :=
  (philox seed ((milestone % 2 ^ 64) <<< 64 + (index % 2 ^ 48) <<< 16 + site % 2 ^ 16)).1

/-- The mode of code `rnd` with `r` for stochastic rounding; codes 5 to 7 never reach a rounding (R87). -/
def rmode (rnd r : Nat) : RMode :=
  match rnd with
  | 1 => .rtz | 2 => .rup | 3 => .rdn | 4 => .sr r | _ => .rne

end Sys2Proof.Machine
end

