-- ==== Sys2Proof/Machine/Transcend.lean ====
section
/-! DEFINITION. The vector functions of R91 and R93, evaluated in fixed point at 2^-768 and handed, with a last bit that
says the value goes on, to the one rounding of `roundNum`. -/

namespace Sys2Proof.Machine.Fn

/-- Fraction bits of the evaluation. -/
def fb : Nat := 768

/-- The fixed-point one. -/
def one : Nat := 2 ^ fb

/-- Σ t(2i+1) of the inverse hyperbolic tangent: `t` is z^(2i+1), `z2` is z², both fixed point. -/
def atanhSum (t z2 i : Nat) : Nat → Nat
  | 0 => 0
  | n + 1 => t / (2 * i + 1) + atanhSum (t * z2 / one) z2 (i + 1) n

/-- atanh(a/b) for 0 ≤ a/b ≤ 1/3, fixed point. -/
def atanh (a b : Nat) : Nat :=
  let z := a * one / b
  atanhSum z (z * z / one) 0 260

/-- ln 2, fixed point. -/
def ln2 : Nat := 2 * atanh 1 3

/-- ln(m·2^e) for m above 0, fixed point, signed. -/
def ln (m : Nat) (e : Int) : Int :=
  let l := log2 m
  ((l : Int) + e) * (ln2 : Int) + 2 * (atanh (m - 2 ^ l) (m + 2 ^ l) : Int)

/-- Σ x^n/n!, `t` being the term x^i/i!, signed fixed point. -/
def expSum (x t : Int) (i : Nat) : Nat → Int
  | 0 => 0
  | n + 1 => t + expSum x ((t * x / (one : Int)) / ((i : Int) + 1)) (i + 1) n

/-- exp(x) of a fixed-point x as a magnitude m·2^k. -/
def exp (x : Int) : Nat × Int :=
  let k := x / (ln2 : Int)
  ((expSum (x - k * (ln2 : Int)) (one : Int) 0 200).toNat, k - (fb : Int))

/-- A positive value that is not exact, given as m·2^e: its last bit says that it goes on. -/
def inexact (neg : Bool) (m : Nat) (e : Int) : Num := .fin neg (2 * m + 1) (e - 1)

/-- The fixed-point form of ±m·2^e, |x| below 2^9. -/
def fix (neg : Bool) (m : Nat) (e : Int) : Int := signed neg (shiftNat m (e + fb))

/-- A value above every finite number of the 32-bit formats, and one below half of every smallest step. -/
def huge : Num := .fin false 1 1000
def tiny (neg : Bool) : Num := .fin neg 1 (-2000)

/-- e^x. -/
def vexp (x : Num) : Num :=
  match x with
  | .nan => .nan
  | .inf n => if n then .fin false 0 0 else .inf false
  | .fin n m e =>
    if m == 0 then .fin false 1 0
    else if 9 ≤ log2Of m e then (if n then tiny false else huge)
    else
      let r := exp (fix n m e)
      inexact false r.1 r.2

/-- ln x. -/
def vlog (x : Num) : Num :=
  match x with
  | .nan => .nan
  | .inf n => if n then .nan else .inf false
  | .fin n m e =>
    if m == 0 then .inf true
    else if n then .nan
    else if m == 2 ^ log2 m && log2Of m e == 0 then .fin false 0 0
    else
      let r := ln m e
      inexact (decide (r < 0)) r.natAbs (-(fb : Int))

/-- 1/x. -/
def vrecip (x : Num) : Num :=
  match x with
  | .nan => .nan
  | .inf n => .fin n 0 0
  | .fin n m e =>
    if m == 0 then .inf n
    else
      let q := quotient 1 m 64
      .fin n q.1 (q.2 - e)

/-- √x. -/
def vsqrt (x : Num) : Num :=
  match x with
  | .nan => .nan
  | .inf n => if n then .nan else .inf false
  | .fin n m e =>
    if m == 0 then .fin n 0 0
    else if n then .nan
    else
      let r := sqrtMag m e 64
      .fin false r.1 r.2

/-- 1/√x: the square root of the reciprocal, exact where the root is. -/
def vrsqrt (x : Num) : Num :=
  match x with
  | .nan => .nan
  | .inf n => if n then .nan else .fin false 0 0
  | .fin n m e =>
    if m == 0 then .inf n
    else if n then .nan
    else
      -- 1/√(m·2^e) = √m·2^(e/2) / (m·2^e); the quotient below keeps one sticky bit of the root and one of its own
      let r := sqrtMag m e 160
      let q := quotient 1 r.1 120
      .fin false q.1 (q.2 - r.2)

/-- e^(−|x|) at the evaluation's precision, |x| below 2^9; never zero. -/
def expNeg (m : Nat) (e : Int) : Nat :=
  let r := exp (-(fix false m e))
  max 1 (shiftNat r.1 (r.2 + fb))

/-- 1/(1 + e^(−x)). -/
def vsigmoid (x : Num) : Num :=
  match x with
  | .nan => .nan
  | .inf n => if n then .fin false 0 0 else .fin false 1 0
  | .fin n m e =>
    if m == 0 then .fin false 1 (-1)
    else if 9 ≤ log2Of m e then (if n then tiny false else inexact false (2 ^ 200 - 1) (-200))
    else
      let g := expNeg m e
      inexact false ((if n then g else one) * one / (one + g)) (-(fb : Int))

/-- tanh x. -/
def vtanh (x : Num) : Num :=
  match x with
  | .nan => .nan
  | .inf n => .fin n 1 0
  | .fin n m e =>
    if m == 0 then .fin n 0 0
    else if 8 ≤ log2Of m e then inexact n (2 ^ 200 - 1) (-200)
    else
      let g := expNeg m (e + 1)
      inexact n ((one - g) * one / (one + g)) (-(fb : Int))

/-- Σ (−1)^i x^(2i+1)/(i!(2i+1)), `t` being x^(2i+1)/i!, signed fixed point. -/
def erfSum (t x2 : Int) (i : Nat) : Nat → Int
  | 0 => 0
  | n + 1 => t / (2 * (i : Int) + 1) + erfSum (-(t * x2 / (one : Int)) / ((i : Int) + 1)) x2 (i + 1) n

/-- π by Machin's formula, fixed point. -/
def atanInvSum (t n2 : Nat) (i : Nat) (plus : Bool) : Nat → Int
  | 0 => 0
  | n + 1 =>
    (if plus then ((t / (2 * i + 1) : Nat) : Int) else -((t / (2 * i + 1) : Nat) : Int))
      + atanInvSum (t / n2) n2 (i + 1) (!plus) n

def pi : Nat := (16 * atanInvSum (one / 5) 25 0 true 180 - 4 * atanInvSum (one / 239) 57121 0 true 60).toNat

/-- 2/√π, fixed point. -/
def twoOverSqrtPi : Nat := 2 * one * one / isqrt (pi * one)

/-- erf x. -/
def verf (x : Num) : Num :=
  match x with
  | .nan => .nan
  | .inf n => .fin n 1 0
  | .fin n m e =>
    if m == 0 then .fin n 0 0
    else if 3 ≤ log2Of m e then inexact n (2 ^ 80 - 1) (-80)
    else
      let v := fix false m e
      let s := erfSum v (v * v / (one : Int)) 0 480
      inexact n (s.toNat * twoOverSqrtPi / one) (-(fb : Int))

end Sys2Proof.Machine.Fn
end

