-- ==== Sys2Proof/Machine/Operands.lean ====
section
/-! DEFINITION. The operand forms: the number formats of R63 to R66, R82, R95 and R97, their bits, and the groups of R86. -/

namespace Sys2Proof.Machine

/-- Bits per element of a format code (R63). -/
def fmtBits (c : Nat) : Nat := [4, 6, 6, 8, 8, 8, 8, 16, 16, 32, 48, 24, 32, 48].getD c 0

/-- Codes 0x0 to 0x5 are the MX formats (R63). -/
def isMx (c : Nat) : Bool := decide (c < 6)

/-- BF16 or FP16. -/
def isHalf (c : Nat) : Bool := c == 7 || c == 8

/-- Precision and exponent range of the floating formats: BF16, FP16, FP32, FP32X; FP64 under code 16. -/
def fspec (c : Nat) : FSpec :=
  match c with
  | 7 => ⟨8, -126, 127⟩ | 8 => ⟨11, -14, 15⟩ | 9 => ⟨24, -126, 127⟩ | 10 => ⟨40, -126, 127⟩
  | 0 => ⟨2, 0, 2⟩ | 1 => ⟨4, 0, 2⟩ | 2 => ⟨3, -2, 4⟩ | 3 => ⟨4, -6, 8⟩ | 4 => ⟨3, -14, 15⟩ | 5 => ⟨7, 0, 0⟩
  | _ => ⟨53, -1022, 1023⟩

/-- Exponent bits of a floating format. -/
def expBits (c : Nat) : Nat :=
  match c with
  | 7 => 8 | 8 => 5 | 9 => 8 | 10 => 8 | 0 => 2 | 1 => 2 | 2 => 3 | 3 => 4 | 4 => 5 | _ => 11

/-- The binary fields of a floating number: exponent field, fraction and sign to a number, `special` saying what the
highest exponent field means. -/
def decodeFloat (c : Nat) (special : Bool) (v : Nat) : Num :=
  let f := fspec c
  let fbits := f.p - 1
  let eb := expBits c
  let frac := v % 2 ^ fbits
  let ex := (v >>> fbits) % 2 ^ eb
  let neg := (v >>> (fbits + eb)) % 2 == 1
  let u : Int := f.emin - fbits
  if special && ex == 2 ^ eb - 1 then (if frac == 0 then .inf neg else .nan)
  else if ex == 0 then .fin neg frac u
  else .fin neg (frac + 2 ^ fbits) (u + ((ex : Int) - 1))

/-- The number an element's bits stand for, before its block scale (R65, R95). -/
def decodeElem (c v : Nat) : Num :=
  match c with
  | 3 => if v % 128 == 127 then .nan else decodeFloat 3 false v
  | 5 =>
    let i : Int := (BitVec.ofNat 8 v).toInt
    .fin (decide (i < 0)) i.natAbs (-6)
  | 6 =>
    let i : Int := (BitVec.ofNat 8 v).toInt
    .fin (decide (i < 0)) i.natAbs 0
  | 0 | 1 | 2 => decodeFloat c false v
  | _ => decodeFloat c true v

/-- The bits of a number that the floating format `c` holds exactly; the canonical NaN for a NaN (R82). -/
def encodeFloat (c : Nat) (x : Num) : Nat :=
  let f := fspec c
  let fbits := f.p - 1
  let eb := expBits c
  let sgn (n : Bool) : Nat := n.toNat <<< (fbits + eb)
  match x with
  | .nan => if c == 4 then 0x7E else if c == 3 then 0x7F else ((2 ^ eb - 1) <<< fbits) + 2 ^ (fbits - 1)
  | .inf n => sgn n + (2 ^ eb - 1) <<< fbits
  | .fin n m e =>
    if m == 0 then sgn n
    else
      let top := log2Of m e
      let u := max top f.emin - fbits
      let q := shiftNat m (e - u)
      if q < 2 ^ fbits then sgn n + q
      else sgn n + ((u - (f.emin - fbits)).toNat + 1) <<< fbits + (q - 2 ^ fbits)

/-- The scale factor's exponent of an E8M0 byte; none for NaN (R66). -/
def scaleExp (b : Nat) : Option Int := if b == 255 then none else some ((b : Int) - 127)

/-- An element with its block scale: NaN when the scale is (R66). -/
def scaledElem (c v b : Nat) : Num :=
  match scaleExp b, decodeElem c v with
  | some k, .fin n m e => .fin n m (e + k)
  | some _, x => x
  | none, _ => .nan

/-- The exponent l of R65: the weight of the smallest step of an MX element. -/
def mxL (c : Nat) : Int := [-1, -3, -4, -9, -16, -6].getD c 0
/-- The bound a of R65. -/
def mxA (c : Nat) : Nat := [4, 6, 9, 18, 32, 8].getD c 0
/-- emax of R86. -/
def mxEmax (c : Nat) : Int := [2, 2, 4, 8, 15, 0].getD c 0

/-- The element code of the largest magnitude of a sign (R65, R86 step 3). -/
def mxLargest (c : Nat) (neg : Bool) : Nat :=
  match c with
  | 0 => 7 + neg.toNat * 8
  | 1 => 31 + neg.toNat * 32
  | 2 => 31 + neg.toNat * 32
  | 3 => 0x7E + neg.toNat * 128
  | 4 => 0x7B + neg.toNat * 128
  | _ => if neg then 0x80 else 0x7F

/-- The largest magnitude of an MX element of a sign, as a number. -/
def mxLargestNum (c : Nat) (neg : Bool) : Num := decodeElem c (mxLargest c neg)

/-- A finite v/2^X rounded once into an MX element type, saturating (R86 step 3). -/
def roundMx (c : Nat) (mode : RMode) (neg : Bool) (m : Nat) (e : Int) : Nat :=
  if m == 0 then (if c == 5 then 0 else neg.toNat <<< (fmtBits c - 1))
  else
    let f := fspec c
    let u := max (log2Of m e) f.emin - (f.p - 1)
    let u' := if c == 5 then -6 else u
    let q := roundAt mode neg m e u'
    let r := Num.fin neg q u'
    if Num.lt (mxLargestNum c false) r.abs && (c != 5 || Num.lt (mxLargestNum c neg).abs r.abs) then mxLargest c neg
    else if c == 5 then (if neg then (256 - q) % 256 else min q 127)
    else encodeFloat c r

/-- An exact result that R86 or a final rounding takes: a number, its rounding mode kept apart. -/
abbrev Exact := Num

/-- The element of a non-finite result under R86 step 3; none when it needs the group scale 0xFF. -/
def mxNonFinite (c : Nat) (x : Num) : Option Nat :=
  match x, c with
  | .nan, 3 => some 0x7F
  | .nan, 4 => some 0x7E
  | .inf _, 3 => some 0x7F
  | .inf n, 4 => some (0x7C + n.toNat * 128)
  | _, _ => none

/-- The scale byte of R86 steps 1, 2 and 4 over a group's exact results. -/
def groupScale (c : Nat) (g : List Num) : Nat :=
  match (g.filterMap Num.log2?).foldl (fun (acc : Option Int) x => some ((acc.map (max · x)).getD x)) none with
  | none => 0
  | some top =>
    let x := top - mxEmax c + 127
    if 254 < x then 255 else x.toNat

/-- A group of up to 32 exact results, each with its rounding mode, as scale byte and element codes (R86). Step 3 divides by the scale
that the limited scale byte names, also where X + 127 is below 0 (DESIGN CHOICE, notes/assumptions/71.md). -/
def mxGroup (c : Nat) (g : List (Num × RMode)) : Nat × List Nat :=
  let sc := groupScale c (g.map (·.1))
  if sc == 255 || g.any (fun x => !x.1.isFin && (mxNonFinite c x.1).isNone) then (255, g.map fun _ => 0)
  else
    (sc, g.map fun x =>
      match x.1 with
      | .fin n m e => roundMx c x.2 n m (e - ((sc : Int) - 127))
      | y => (mxNonFinite c y).getD 0)

/-- Little-endian value of bytes (R14). -/
def leNat (bs : Bytes) : Nat := bs.foldr (fun b acc => b.toNat + 256 * acc) 0

/-- The `n` little-endian bytes of a number (R14). -/
def leBytes (v : Nat) : Nat → Bytes
  | 0 => []
  | n + 1 => BitVec.ofNat 8 v :: leBytes (v / 256) n

/-- Sign extension of the low `w` bits. -/
def toSigned (v w : Nat) : Int :=
  let x := v % 2 ^ w
  if 2 * x < 2 ^ w then (x : Int) else (x : Int) - (2 : Int) ^ w

/-- The two's complement of width `w` of an integer. -/
def ofSigned (i : Int) (w : Nat) : Nat := (i % (2 : Int) ^ w).toNat

/-- Fraction bits of an ORF format (R97): width less 13. -/
def orfFrac (c : Nat) : Nat := fmtBits c - 13

/-- The candidate anchor byte of a block (R98). -/
def orfCandidate (xs : List Num) : Nat :=
  if xs.any (fun x => !x.isFin) then 255
  else
    match (xs.filterMap Num.log2?).foldl (fun (acc : Option Int) x => some ((acc.map (max · x)).getD x)) none with
    | none => 0
    | some top => (top + 127).toNat

/-- An integer limited to ±(2^f − 1) of an ORF format (R99). -/
def orfLimit (c : Nat) (i : Int) : Int := max (-(2 ^ orfFrac c - 1)) (min i (2 ^ orfFrac c - 1))

/-- The integer of an element under anchor byte `g` (R99): rounded to nearest even and limited to ±(2^f − 1). An infinity is limited too;
the integer of a NaN the spec does not state (DESIGN CHOICE, notes/assumptions/72.md). -/
def orfQuantise (c g : Nat) (x : Num) : Int :=
  match x with
  | .fin n m e =>
    if m == 0 then 0 else orfLimit c (signed n (roundAt .rne n m (e + ((orfFrac c : Int) + 126 - g)) 0))
  | .inf n => signed n (2 ^ orfFrac c - 1)
  | .nan => orfLimit c (Config.orfNan c g)

/-- The value of a result element Q with anchor g (R101). -/
def orfValue (c g : Nat) (q : Int) : Num :=
  if g == 255 then .nan else .fin (decide (q < 0)) q.natAbs ((g : Int) - 126 - orfFrac c)

end Sys2Proof.Machine
end

