-- ==== Sys2Proof/Machine/Matrix.lean ====
section
/-! DEFINITION. The arithmetic of MATMUL (R67 to R83, R123 to R133): block sums, the MX window, the running anchor, the
canonical tree, partial records and the final rounding. -/

namespace Sys2Proof.Machine

/-- The accumulator of one output element, as a partial record holds it (R128). -/
structure Acc where
  reg : Int
  anchor : Int
  sticky : Bool
  nan : Bool
  pinf : Bool
  ninf : Bool
  nz : Bool
  pz : Bool
  deriving DecidableEq, Repr

/-- The three accumulation modes of R74. -/
inductive MatKind where
  | mx | int8 | paired
  deriving DecidableEq, Repr

/-- The accumulation mode of a pair of operand formats (R74). -/
def matKind (ca cb : Nat) : Option MatKind :=
  if isMx ca && isMx cb then some .mx
  else if ca == 6 && cb == 6 then some .int8
  else if isHalf ca && isHalf cb then some .paired
  else none

/-- The output formats a mode allows (R74). -/
def matOutOk (k : MatKind) (c : Nat) : Bool :=
  match k with
  | .mx => isMx c || c == 7 || c == 8 || c == 9
  | _ => c == 7 || c == 8 || c == 9

/-- ANCHOR of a paired window that has met no nonzero product (R128). -/
def noAnchor : Int := -32768

/-- The empty accumulator of a mode with its anchor. -/
def Acc.empty (anchor : Int) : Acc := ⟨0, anchor, false, false, false, false, false, false⟩

/-- W of R67. -/
def mxW (ca cb : Nat) : Nat := mxA ca + mxA cb + 5

/-- The weight exponent F of window bit 0 (R69). -/
def mxFloor (ca cb : Nat) (anchor : Int) : Int := anchor + mxL ca + mxL cb + mxW ca cb - 192

/-- The scale exponent P_b of a block, none when a scale byte is NaN (R68). -/
def scaleSum (x y : Nat) : Option Int :=
  match scaleExp x, scaleExp y with
  | some a, some b => some (a + b)
  | _, _ => none

/-- The anchor A: the largest P_b over blocks with two finite scale bytes, 0 when there is none (R68). -/
def mxAnchor (sa sb : List Nat) : Int :=
  let ps := (sa.zip sb).filterMap fun p => scaleSum p.1 p.2
  match ps with
  | [] => 0
  | p :: t => t.foldl max p

/-- The flags of R128 after one product. A zero product is negative where the signs of its factors differ, INT8 and MXINT8 included,
whose formats have no −0 (DESIGN CHOICE, notes/assumptions/71.md). -/
def Acc.note (a : Acc) (p : Num) : Acc :=
  match p with
  | .nan => { a with nan := true }
  | .inf n => if n then { a with ninf := true, nz := true } else { a with pinf := true, nz := true }
  | .fin n m _ => if m == 0 then { a with pz := a.pz || !n } else { a with nz := true }

/-- The integer of a finite product in units of 2^u, cut toward zero. -/
def numUnits (u : Int) (p : Num) : Int :=
  match p with
  | .fin n m e => signed n (shiftNat m (e - u))
  | _ => 0

/-- A finite product has bits below 2^u. -/
def numLost (u : Int) (p : Num) : Bool :=
  match p with
  | .fin _ m e => lostBits m (e - u)
  | _ => false

/-- One MX block added into the register: its products, given without scales, sum to S_b exactly in units of
2^(lα + lβ); S_b·2^(P_b + lα + lβ) is cut toward zero to the grid of R69 (R67, R70). -/
def mxBlock (ca cb : Nat) (a : Acc) (prods : List Num) (sc : Option Int) : Acc :=
  match sc with
  | none => if prods.isEmpty then a else { a with nan := true }
  | some p =>
    let l := mxL ca + mxL cb
    let f := prods.foldl Acc.note a
    let s := (prods.map (numUnits l)).foldl (· + ·) (0 : Int)
    let k := p + l - mxFloor ca cb a.anchor
    { f with reg := f.reg + shiftInt s k, sticky := f.sticky || lostBits s.natAbs k }

/-- A list cut into pieces of `n`, by the number of pieces. -/
def pieces {α : Type} (n : Nat) (xs : List α) : Nat → List (List α)
  | 0 => []
  | k + 1 => xs.take n :: pieces n (xs.drop n) k

/-- Ceiling division. -/
def ceilDiv (a b : Nat) : Nat := (a + b - 1) / b

/-- The products of an output element over a K range, element codes in K order. The zero elements that pad K to whole blocks (R73) form
no product: they are no terms of R83 and leave PZ of R128 alone (DESIGN CHOICE, notes/assumptions/71.md). -/
def products (ca cb : Nat) (xs ys : List Nat) : List Num :=
  (xs.zip ys).map fun p => Num.mul (decodeElem ca p.1) (decodeElem cb p.2)

/-- MX accumulation of a K range given by its element codes; `sa`, `sb` are the scale bytes of the range's blocks and
`anchor` is A over all of K (R68, R70, R127). The padding of R73 adds nothing and counts as no product (DESIGN CHOICE,
notes/assumptions/71.md). -/
def mxAcc (ca cb : Nat) (anchor : Int) (xs ys sa sb : List Nat) : Acc :=
  let ps := products ca cb xs ys
  ((pieces 32 ps (ceilDiv ps.length 32)).zip (sa.zip sb)).foldl
    (fun a b => mxBlock ca cb a b.1 (scaleSum b.2.1 b.2.2)) (Acc.empty anchor)

/-- INT8 accumulation (R75). -/
def int8Acc (xs ys : List Nat) : Acc :=
  let ps := products 6 6 xs ys
  let f := ps.foldl Acc.note (Acc.empty 0)
  { f with reg := (ps.map (numUnits 0)).foldl (· + ·) 0 }

/-- The window shifted to anchor `e`, lost bits into the sticky bit (R76, R78). -/
def Acc.raise (a : Acc) (e : Int) : Acc :=
  if a.anchor == noAnchor then { a with anchor := e }
  else
    let r := asr a.reg (e - a.anchor).toNat
    { a with reg := r.1, sticky := a.sticky || r.2, anchor := e }

/-- One 32-block of a BF16 or FP16 product run (R76). -/
def pairedBlock (a : Acc) (prods : List Num) : Acc :=
  let f := prods.foldl Acc.note a
  match prods.filterMap Num.log2? with
  | [] => f
  | t :: ts =>
    let e := ts.foldl max (max t f.anchor)
    let g := f.raise e
    let u := e - 169
    { g with
      reg := g.reg + (prods.map (numUnits u)).foldl (· + ·) 0
      sticky := g.sticky || prods.any (numLost u) }

/-- One chunk of 64 blocks accumulated in its own window (R77). -/
def pairedChunk (prods : List Num) : Acc :=
  (pieces 32 prods (ceilDiv prods.length 32)).foldl pairedBlock (Acc.empty noAnchor)

/-- The flags of two records joined. -/
def Acc.joinFlags (x y : Acc) : Acc :=
  { x with sticky := x.sticky || y.sticky, nan := x.nan || y.nan, pinf := x.pinf || y.pinf,
           ninf := x.ninf || y.ninf, nz := x.nz || y.nz, pz := x.pz || y.pz }

/-- The merge of two paired windows (R78). -/
def mergePaired (x y : Acc) : Acc :=
  if y.anchor == noAnchor then x.joinFlags y
  else if x.anchor == noAnchor then y.joinFlags x
  else
    let e := max x.anchor y.anchor
    let a := x.raise e
    let b := y.raise e
    { a.joinFlags b with reg := a.reg + b.reg }

/-- One level of the tree of R77: neighbours merge, an unpaired last window passes up. -/
def mergeLevel : List Acc → List Acc
  | x :: y :: t => mergePaired x y :: mergeLevel t
  | l => l

/-- The tree of R77 over at most 2^fuel windows. -/
def mergeTree (l : List Acc) : Nat → Acc
  | 0 => l.headD (Acc.empty noAnchor)
  | n + 1 => match l with
    | [] => Acc.empty noAnchor
    | [x] => x
    | _ => mergeTree (mergeLevel l) n

/-- Paired accumulation of a K range that starts at a chunk boundary (R76, R77). -/
def pairedAcc (ca cb : Nat) (xs ys : List Nat) : Acc :=
  let ps := products ca cb xs ys
  mergeTree ((pieces 2048 ps (ceilDiv ps.length 2048)).map pairedChunk) 8

/-- The weight exponent of the register's unit (R69, R75, R76). -/
def accUnit (k : MatKind) (ca cb : Nat) (a : Acc) : Int :=
  match k with
  | .mx => mxFloor ca cb a.anchor
  | .int8 => 0
  | .paired => if a.anchor == noAnchor then 0 else a.anchor - 169

/-- A remainder of sign `neg` below every bit that a rounding looks at, added to i·2^e (R88, R124). -/
def withRemainder (neg : Bool) (i e : Int) : Num :=
  let t := max 2 (e + 500)
  let j := shiftInt i t + (if neg then -1 else 1)
  .fin (decide (j < 0)) j.natAbs (e - t)

/-- A nonzero value smaller than every step of every format (R124). -/
def tinyNum (neg : Bool) : Num := .fin neg 1 (-4000)

/-- The finite case of R124: V = reg·2^u with its sticky bit, C a finite initial value. `down` is rounding toward −∞
and `sr` stochastic rounding, in which the sticky bit plays no part (R90). -/
def finalFinite (a : Acc) (u : Int) (vneg : Bool) (c : Num) (cm : Nat) (ce : Int) (down sr : Bool) : Num :=
  let st := a.sticky && !sr
  if a.reg == 0 then
    if !a.sticky then
      if cm == 0 then .fin ((!a.nz && !a.pz && c.neg) || (down && a.nz)) 0 0 else c
    else if cm == 0 then .fin false 0 0
    else if st then withRemainder false (signed c.neg cm) ce
    else c
  else
    let g := min u ce
    let i := signed vneg (shiftNat a.reg.natAbs (u - g)) + signed c.neg (shiftNat cm (ce - g))
    if i == 0 then (if a.sticky then tinyNum vneg else .fin down 0 0)
    else if st then withRemainder vneg i g
    else .fin (decide (i < 0)) i.natAbs g

/-- The exact result V + C before its one rounding (R75, R81, R83, R124). `sp` is the product of the INT8 tensor scales,
one in the other modes. -/
def finalNum (k : MatKind) (ca cb : Nat) (a : Acc) (sp c : Num) (down sr : Bool) : Num :=
  if a.nan || c.isNan || sp.isNan then .nan
  else
    match sp with
    | .inf n =>
      if a.reg == 0 then .nan
      else Num.add down (.inf (n != decide (a.reg < 0))) c
    | .nan => .nan
    | .fin sn sm se =>
      let pos := a.pinf || (match c with | .inf n => !n | _ => false)
      let neg := a.ninf || (match c with | .inf n => n | _ => false)
      if pos && neg then .nan
      else if pos then .inf false
      else if neg then .inf true
      else
        match c with
        | .fin _ cm ce =>
          let b := if k == .int8 then { a with reg := a.reg * (sm : Int) } else a
          let u := if k == .int8 then se else accUnit k ca cb a
          finalFinite b u (decide (a.reg < 0) != (k == .int8 && sn)) c cm ce down sr
        | _ => .nan

/-- The product of the two tensor scales of INT8 (R75): infinity times zero is NaN. -/
def scaleProduct (x y : Num) : Num := Num.mul x y

/-- One element rounded into a format that is not MX: its bits and whether it is finite (R72, R85). -/
def roundElem (c : Nat) (mode : RMode) (x : Num) : Nat × Bool :=
  let r := roundNum (fspec c) mode x
  (encodeFloat c r, r.isFin)

/-- A partial record's 32 bytes (R128). -/
def accBytes (a : Acc) (ca cb chunk level : Nat) : Bytes :=
  leBytes (ofSigned a.reg 208) 26 ++ leBytes (ofSigned a.anchor 16) 2
    ++ leBytes (a.sticky.toNat + a.nan.toNat * 2 + a.pinf.toNat * 4 + a.ninf.toNat * 8 + a.nz.toNat * 16 + a.pz.toNat * 32) 1
    ++ leBytes (ca + cb * 16) 1 ++ leBytes chunk 1 ++ leBytes level 1

/-- A partial record read back. -/
structure PRec where
  acc : Acc
  ca : Nat
  cb : Nat
  chunk : Nat
  level : Nat
  reserved : Bool
  deriving DecidableEq, Repr

/-- The fields of a partial record (R128). -/
def readRec (bs : Bytes) : PRec :=
  let v := leNat bs
  let f := bitsNat v 224 8
  ⟨⟨toSigned v 208, toSigned (v >>> 208) 16, f.testBit 0, f.testBit 1, f.testBit 2, f.testBit 3, f.testBit 4, f.testBit 5⟩,
    bitsNat v 232 4, bitsNat v 236 4, bitsNat v 240 8, bitsNat v 248 3, bitsNat v 230 2 != 0 || bitsNat v 251 5 != 0⟩
where
  /-- Bits [lo+w-1:lo]. -/
  bitsNat (v lo w : Nat) : Nat := (v >>> lo) % 2 ^ w

/-- The level a record of level `l` covering chunk `c` is raised to while it is a left child without a right sibling
among `n` chunks (R131). -/
def raiseLevel (n c l : Nat) : Nat → Nat
  | 0 => l
  | k + 1 => if 0 < c && c % 2 ^ (l + 1) == 0 && n ≤ c + 2 ^ l then raiseLevel n c (l + 1) k else l

/-- ceil(log2 n). -/
def clog2 (n : Nat) : Nat := if n ≤ 1 then 0 else log2 (n - 1) + 1

end Sys2Proof.Machine
end

