-- ==== Sys2Proof/Machine/Sparse.lean ====
section
/-! DEFINITION. Sparse data in one canonical form: lists of key and value pairs with strictly rising keys. Byte memory (R56) is
one such list that names no zero byte; other maps list only what has been written. -/

namespace Sys2Proof.Machine

/-- Data by number: keys strictly rising. A key not listed has the value that its reader names as the default. -/
abbrev SMap (α : Type) := List (Nat × α)

/-- The value listed at key `k`. -/
def SMap.find {α : Type} (m : SMap α) (k : Nat) : Option α :=
  match m with
  | [] => none
  | (a, v) :: t => if k == a then some v else SMap.find t k

/-- The value at key `k`, `d` where none is listed. -/
def SMap.getD {α : Type} (m : SMap α) (k : Nat) (d : α) : α := (SMap.find m k).getD d

/-- `m` with nothing listed at key `k`. -/
def SMap.del {α : Type} (m : SMap α) (k : Nat) : SMap α := m.filter fun e => e.1 != k

/-- `(k, v)` put in front of the first key above `k`. -/
def SMap.ins {α : Type} (m : SMap α) (k : Nat) (v : α) : SMap α :=
  match m with
  | [] => [(k, v)]
  | (a, w) :: t => if k < a then (k, v) :: (a, w) :: t else (a, w) :: SMap.ins t k v

/-- `m` with `v` at key `k`. -/
def SMap.put {α : Type} (m : SMap α) (k : Nat) (v : α) : SMap α := SMap.ins (SMap.del m k) k v

/-- `m` with `v` at key `k`, listed only if it differs from the default `d`. -/
def SMap.putD {α : Type} [DecidableEq α] (m : SMap α) (d : α) (k : Nat) (v : α) : SMap α :=
  if v = d then SMap.del m k else SMap.put m k v

/-- `m` with the value at `k` (`d` where none is listed) changed by `f`. -/
def SMap.modify {α : Type} (m : SMap α) (d : α) (k : Nat) (f : α → α) : SMap α :=
  SMap.put m k (f (SMap.getD m k d))

/-- The keys of `m` rise strictly. -/
def SMap.wf {α : Type} (m : SMap α) : Bool :=
  match m with
  | [] => true
  | [_] => true
  | (a, _) :: (b, v) :: t => decide (a < b) && SMap.wf ((b, v) :: t)

/-- Byte memory: an address not listed reads as `Memory.unlisted`. -/
abbrev Memory := SMap Byte

/-- What an address that nothing has written reads as (DESIGN CHOICE, notes/assumptions/3.md). -/
def Memory.unlisted : Byte := 0

/-- The canonical form of a memory: addresses strictly rising, no entry equal to what an unlisted address reads as. -/
def Memory.wf (m : Memory) : Bool := SMap.wf m && m.all fun e => e.2 != Memory.unlisted

/-- The byte at `a`. -/
def Memory.read (m : Memory) (a : Nat) : Byte := SMap.getD m a Memory.unlisted

/-- `m` with byte `b` at `a`. -/
def Memory.write (m : Memory) (a : Nat) (b : Byte) : Memory := SMap.putD m Memory.unlisted a b

/-- The `n` bytes from `a` on, lowest address first. -/
def Memory.readBytes (m : Memory) (a n : Nat) : Bytes :=
  match n with
  | 0 => []
  | k + 1 => Memory.read m a :: Memory.readBytes m (a + 1) k

/-- `m` with the bytes `bs` from `a` on. -/
def Memory.writeBytes (m : Memory) (a : Nat) (bs : Bytes) : Memory :=
  match bs with
  | [] => m
  | b :: t => Memory.writeBytes (Memory.write m a b) (a + 1) t

/-- `m` with the `n` bytes from `a` on unlisted: they read as what nothing has written, which is zero. -/
def Memory.clear (m : Memory) (a n : Nat) : Memory := m.filter fun e => e.1 < a || a + n ≤ e.1

/-- `m` with the `n` bytes at `src` copied to `dst`, every byte read before any is written. -/
def Memory.copy (m : Memory) (src dst n : Nat) : Memory :=
  let moved := (m.filter fun e => decide (src ≤ e.1) && decide (e.1 < src + n)).map fun e => (e.1 - src + dst, e.2)
  moved.foldl (fun acc e => Memory.write acc e.1 e.2) (Memory.clear m dst n)

end Sys2Proof.Machine
end

