-- ==== Sys2Proof/Machine/State.lean ====
section
/-! DEFINITION. The state of the module: everything spec/ gives it, as plain data, and the state after reset. -/

namespace Sys2Proof.Machine

/-- The reasons a run stops with a fault. -/
inductive Fault where
  /-- No command raises it: every error of the module is a status, a record, a flag or an answer to the requester
  (R59, R186, R621). It stands here because a stop would need a name. Safe. -/
  | stopped
  deriving DecidableEq, Repr

/-- The reasons a command is refused. -/
inductive Refusal where
  /-- Raised by `exec` alone, for a command whose meaning is not written yet. Safe. -/
  | notModelled (mnemonic : String)
  deriving DecidableEq, Repr

/-- What factory test and assembly fix for one module (R3, R4, R41, R605, R631, R638, R650). -/
structure Fuses where
  /-- Enabled arrays per tensor die (the grade table under R4). -/
  grade : Nat
  /-- Engines fused off on each tensor die, as `die code * 128 + engine` (R3). -/
  fusedEngines : List Nat
  /-- Live arrays at shipment of an engine, where not all four: `die code * 128 + engine` to a mask (R4, R5). -/
  arrayMask : SMap Nat
  /-- Fused D2D_MAP words, by `(die code * 4 + instance) * 4 + module` (R41). -/
  spareMap : SMap Nat
  /-- Fused BIST signatures, by `die code * 256 + island` (R631). -/
  bistRef : SMap Nat
  /-- Spare router buffer entries of each die (R650). -/
  bufSpares : Nat
  /-- The fuse DBG_DISABLE is blown (R638). -/
  dbgDisable : Bool
  /-- The management controller's image and the host image carry good signatures (R605). -/
  ctlImageOk : Bool
  hostImageOk : Bool
  deriving DecidableEq, Repr

/-- One error record of the module event log (R622). -/
structure ErrRec where
  time : Nat
  cls : ErrClass
  die : Nat
  block : Nat
  inst : Nat
  island : Nat
  status : Nat
  injected : Bool
  addr : Nat
  reqId : Nat
  reqDie : Nat
  reqKind : Nat
  reqCpt : Nat
  seq : Nat
  deriving DecidableEq, Repr

/-- What a requester is answered (R59, R255, R440, R587). -/
inductive AnsKind where
  | done | accessFault | pageFault | illegal | unsupported | poisoned | hardwareError | pending | scFail
  deriving DecidableEq, Repr

/-- One answer to a hart, a PCIe request, the inspection port or the management buses. -/
structure Answer where
  dest : Requester
  kind : AnsKind
  data : Bytes
  deriving DecidableEq, Repr

/-- Who holds a lock (R481). -/
inductive Holder where
  | stream (die n : Nat) | hart (h : Nat)
  deriving DecidableEq, Repr

/-- What a waiter waits for: the two header forms on the low 32 bits, the two TALLY_WAIT forms on all 64, or a lock with
its lease in µs (R167, R184, R469, R470). -/
inductive WaitFor where
  | hdrGe (v : Nat) | hdrEq (v : Nat) | ge (v : Nat) | eq (v : Nat) | lock (leaseUs : Nat)
  deriving DecidableEq, Repr

/-- A waiter: the descriptor, by die code, stream and sequence number, and what it waits for (R469, R470). -/
structure Waiter where
  die : Nat
  n : Nat
  seq : Nat
  what : WaitFor
  deriving DecidableEq, Repr

/-- One tally (R467, R480). MODE is 0 unconfigured, 1 counter, 2 lock. -/
structure Tally where
  mode : Nat
  value : Nat
  holder : Option Holder
  holderCpt : Nat
  /-- Time base at which the lease ends. -/
  leaseEnd : Nat
  /-- Remaining lease in ns while the holding hart is halted (R484). -/
  paused : Option Nat
  abandoned : Bool
  /-- Registered waiters and queued acquires, in arrival order. -/
  waiters : List Waiter
  deriving DecidableEq, Repr

/-- An unconfigured tally (R492). -/
def Tally.init : Tally := ⟨0, 0, none, 0, 0, none, false, []⟩

/-- A tally operation on its way to its block (R468); `set` is false for an add. -/
structure TallyOp where
  t : Nat
  set : Bool
  v : Nat
  /-- The stream it comes from. -/
  src : Nat × Nat
  deriving DecidableEq, Repr

/-- Where a fetched descriptor stands (R160 to R165). -/
inductive Phase where
  | fetched | running | ended
  deriving DecidableEq, Repr

/-- A fetched descriptor. -/
structure Desc where
  slot : Nat
  seq : Nat
  /-- The 64 bytes, as a little-endian number (R167). -/
  raw : Nat
  /-- The layout record read at fetch (R160, R173). -/
  layout : Nat
  /-- What the front end read at fetch of the record that the footprint follows from, until the unit reads it (R160, R161). -/
  peek : Nat
  /-- The pinned translations: virtual to physical 4 KiB page (R163). -/
  pins : SMap Nat
  phase : Phase
  status : Nat
  operand : Nat
  position : Nat
  /-- Cycles consumed, where the spec states them (R10, R118 to R125). -/
  cycles : Option Nat
  /-- The header wait is met, or there is none (R169). -/
  waitMet : Bool
  /-- An abort has been asked for (R153). -/
  aborting : Bool
  /-- First unstarted tile or unit of output, and those finished (R116, R192). -/
  next : Nat
  finished : Nat
  /-- Discarded tiles that are to be rerun (R138). -/
  rerun : List Nat
  /-- Gather windows that were live when the descriptor started and that its footprint overlaps (R373). -/
  wins : List Nat
  /-- Numbers that the unit running the descriptor keeps for it. -/
  aux : List Nat
  deriving DecidableEq, Repr

/-- What a stream's front end keeps beside its context: its fetched descriptors, oldest first, and whether records wait
for a repaired completion ring (R165, R188). -/
structure Stream where
  fetched : List Desc
  held : Bool
  deriving DecidableEq, Repr

/-- A stream with nothing fetched. -/
def Stream.init : Stream := ⟨[], false⟩

/-- A tile in an array: stream, sequence number, tile number (R116); when the array took it; and the cycle of the descriptor in which
it completes, where the spec gives it (R119, R120). -/
structure TileRun where
  n : Nat
  seq : Nat
  tile : Nat
  since : Nat
  done : Option Nat
  deriving DecidableEq, Repr

/-- A weight plane of an array with its scale latch (R107, R108): the cell rows with their parity bits, and the E8M0 scales of its
weight blocks. An empty list is a part that holds zeros alone. -/
structure Plane where
  rows : List Nat
  parity : List Bool
  scales : List Nat
  deriving DecidableEq, Repr

/-- A plane of zeros (R134). -/
def Plane.zero : Plane := ⟨[], [], []⟩

/-- One matrix array of an engine (R107, R113, R117, R134, R138). -/
structure Arr where
  /-- The tile that came first, and the one that streams after it in the other half of the bank (R117). -/
  run : Option TileRun
  next : Option TileRun
  /-- The half of the accumulator bank that `run` uses, 0 or 1 (R117). -/
  half : Nat
  /-- The two weight planes (R107, R110, R111). -/
  active : Plane
  shadow : Plane
  /-- The anchors that the pre-pass formed, in row-major order of the tile (R107, R118). -/
  prepass : List Int
  /-- The two halves of the accumulator bank: accumulators in row-major order of their tile; an empty list is a half of zeros. -/
  bank0 : List Acc
  bank1 : List Acc
  /-- The descriptor, by stream and sequence number, whose first weights stand in the shadow plane (R113). -/
  preload : Option (Nat × Nat)
  /-- Compartment and class (compartment · 2 + class) that last used the array. -/
  last : Option Nat
  isolated : Bool
  clearing : Bool
  /-- The weight tile along K for which the shadow plane has been reloaded (R137). -/
  reloaded : Option Nat
  /-- The part in which an error was detected during a clearing (R141). -/
  errPending : Option ArrPart
  deriving DecidableEq, Repr

/-- An array at rest, everything in it zero. -/
def Arr.init : Arr :=
  ⟨none, none, 0, .zero, .zero, [], [], [], none, none, false, false, none, none⟩

/-- One engine's scheduler: its arrays, whether FILL work may start, since when no FOREGROUND work has been ready, and
the last user of the vector unit (R190 to R195). -/
structure Engine where
  arrays : List Arr
  filling : Bool
  idleSince : Nat
  vecLast : Option Nat
  /-- The lane registers and the long accumulator of the vector unit, as the last VECTOR left them (R94, R195); an empty list and +0 are
  zeros. -/
  lanes : List Num
  longAcc : Num
  /-- The compartment of the FILL part of the cistern (R510). -/
  fillCpt : Option Nat
  /-- The stream of each class and priority (class · 8 + priority) that last started a descriptor or tile (R190). -/
  turns : SMap Nat
  /-- Single-bit errors of the accumulator banks that were corrected (R137). -/
  bankCorr : Nat
  deriving DecidableEq, Repr

/-- An engine at rest. -/
def Engine.init : Engine := ⟨[.init, .init, .init, .init], false, 0, none, [], .fin false 0 0, none, [], 0⟩

/-- An access that waits until its lots are resident or, for a write, have ceased to move (R228, R234): an inbound PCIe read or
write, a hart's access, a packet of the RDMA queue pair `key` that writes, reads or sends, a completion, the submissions or a completion
entry of an NVMe queue, a message to the exchange engine of a network die, or a write at a channel controller. -/
inductive Stalled where
  | pcieRead (pa len : Nat)
  | pcieWrite (pa : Nat) (data : Bytes)
  | hart (h : Nat) (op : HartOp) (pa size : Nat) (data : Bytes)
  | rdmaWrite (key : Nat) (pk : Packet)
  | rdmaRead (key : Nat) (pk : Packet)
  | rdmaSend (key : Nat) (pk : Packet)
  | nvmeDone (key cid status : Nat) (result : W32) (data : Bytes)
  | nvmePump (key : Nat)
  | cqe (key cid result status : Nat)
  | exchange (nd : Nat) (m : XMsg)
  | memWrite (r : Requester) (pa : Nat) (x : MemStore)
  deriving DecidableEq, Repr

/-- A page-in in progress (R215, R222, R228 to R232): the lot, the tier that a caravan asks for, whether an access asked for it too,
whether R222 has turned it to the depot, and whether its wait for a frame has been counted. Where it goes is decided when it arrives
(R242). -/
structure PageIn where
  lot : Nat
  goal : Option Nat
  asked : Bool
  turned : Bool
  counted : Bool
  deriving DecidableEq, Repr

/-- A lot moving between two frames: target tier and way, and whether a caravan moves it (R219, R231, R234, R493). -/
structure LotMove where
  lot : Nat
  tier : Nat
  way : Nat
  caravan : Bool
  deriving DecidableEq, Repr

/-- A live buffer (R236, R238): base, length, kind, target, hint, generation. -/
structure Buf where
  base : Nat
  bytes : Nat
  kind : Nat
  target : Nat
  hint : Nat
  gen : Nat
  deriving DecidableEq, Repr

/-- Placement and pool (R200 to R245). -/
structure Place where
  /-- Map entry of each lot (R207); a lot not listed reads 0x0000_0003. -/
  map : SMap Nat
  /-- Lots touched since the last age step (R217). -/
  touched : List Nat
  pageins : List PageIn
  writebacks : List Nat
  moves : List LotMove
  /-- Lots whose warehouse home is not trimmed (R208, R210), and the codewords that their homes hold as uncorrectable (R255). -/
  homed : List Nat
  homeBad : List (Nat × Nat)
  /-- Live buffers, by compartment · 2^18 + index. -/
  bufs : SMap Buf
  /-- Generation of each handle index, and the freed indexes of each compartment, longest ago first (R236). -/
  gens : SMap Nat
  freed : List Nat
  /-- The request in hand of each pool queue: its 64 bytes (R237). -/
  poolq : SMap Nat
  /-- FREEs waiting for holders, by queue: handle (R240). -/
  freeing : SMap Nat
  /-- Time of the last age step of each instance (R217). -/
  ageAt : SMap Nat
  /-- Accesses that wait for lots, in the order they came (R228, R234). -/
  stalls : List Stalled
  /-- Lots whose wait for a depot frame PLC_NOFRAME has counted (R222). -/
  waits : List Nat
  /-- Caravans in the order they reached the unit (R235): stream key, slot and sequence number. -/
  caravans : List (Nat × Nat × Nat)
  deriving DecidableEq, Repr

/-- The kinds of event records of the ledger (R654). -/
inductive LedgKind where
  | mark | repair | fence | insertion | coupling | retired | laneMap | notRun | unusable | worn | removal
  | thermalShutdown | error | refreshPending | refreshDone
  deriving DecidableEq, Repr

/-- An event record (R655): kind, what it is about (a die, a channel, a unit, as the kind has it), module time, calendar time,
power-on hours, and the error record of an error. -/
structure LedgEvent where
  kind : LedgKind
  about : List Nat
  time : Nat
  calendar : Nat
  poh : Nat
  err : Option ErrRec
  deriving DecidableEq, Repr

/-- An hourly record (R653, R654): power-on hours and the voltage-time integrals by die code. -/
structure Hourly where
  poh : Nat
  vt : SMap Nat
  deriving DecidableEq, Repr

/-- The ledger (R653 to R657); the summary fields that registers report stand in the registers. -/
structure Ledger where
  /-- Sequence number of the current summary copy. -/
  seq : Nat
  marks : List (List Nat)
  repairs : List (List Nat)
  fenced : List (List Nat)
  insertions : Nat
  couplings : Nat
  retired : List (List Nat)
  laneMaps : List (List Nat)
  notRun : List (List Nat)
  unusable : List (List Nat)
  worn : List (List Nat)
  /-- Uncorrectable codewords per controller at the last hour, by die code. -/
  uncorr : SMap Nat
  /-- Hourly records and event records, newest first, and the event records ever written. -/
  hourly : List Hourly
  events : List LedgEvent
  written : Nat
  deriving DecidableEq, Repr

/-- An empty ledger (DESIGN CHOICE, notes/assumptions/6.md). -/
def Ledger.init : Ledger := ⟨0, [], [], [], 0, 0, [], [], [], [], [], [], [], [], 0⟩

/-- A read in a channel's narrow queue: the lookup engine it answers, its address, what it asks for, when it came (R263, R265), and the
bytes that it returns where a later write of its sector has been taken before it issued (R261). -/
structure Narrow where
  engine : Nat
  pa : Nat
  ask : NarrowAsk
  since : Nat
  got : Option Bytes
  deriving DecidableEq, Repr

/-- A foreground request of a channel: a read, a write, or a narrow read whose wait is over (R262, R265). -/
inductive MemOp where
  | read (x : Fetch) (tagBad : Bool)
  | write (x : MemStore)
  | narrow (x : Narrow)
  deriving DecidableEq, Repr

/-- A request in a channel's foreground queue: who made it, its address, what it does, and when it came. -/
structure MemReq where
  src : Requester
  pa : Nat
  op : MemOp
  since : Nat
  deriving DecidableEq, Repr

/-- What a channel of a controller keeps beside its registers (R253, R254, R263 to R271). -/
structure Chan where
  /-- When the next tREFI of refresh falls due. -/
  refAt : Nat
  /-- When periodic calibration falls, or fell, due, and whether it is due now. -/
  calAt : Nat
  calDue : Bool
  /-- When a forced calibration began, while it runs. -/
  calRun : Option Nat
  /-- Corrections by DQ pair and time, within the last second. -/
  corr : List (Nat × Nat)
  /-- The DQ pair that is marked and not yet repaired. -/
  marked : Option Nat
  /-- Narrow reads that wait, oldest first. -/
  narrow : List Narrow
  /-- Check sectors in the check cache, oldest first. -/
  chk : List Nat
  /-- Complete patrol passes. -/
  passes : Nat
  /-- Foreground requests that wait, oldest first, and whether writes drain (R262). -/
  fg : List MemReq
  draining : Bool
  /-- The open row, and whether its tag failed to match (R247, R252). -/
  row : Option (Nat × Bool)
  /-- When the next guaranteed scrub burst falls due (R267, R270). -/
  scrubDue : Nat
  /-- Refreshes that fell due in the calibration stall, and those of them that HBMC_REF.DEBT has no room for (R269). -/
  owed : Nat
  late : Nat
  deriving DecidableEq, Repr

/-- A channel after reset: the first refresh and calibration one interval away. -/
def Chan.init : Chan := ⟨3900, 64000000, false, none, [], none, [], [], 0, [], false, none, 1747626, 0, 0⟩

/-- A hart (R439, R484, R485, R613): held in core reset, halted in debug mode, and its load-reserved line. -/
structure Hart where
  held : Bool
  debug : Bool
  /-- Line address of its reservation. -/
  resv : Option Nat
  deriving DecidableEq, Repr

/-- A hart at power-on (R602). -/
def Hart.init : Hart := ⟨true, false, none⟩

/-- A difference-stream record on its way into its ring: ring base, log2 of its size, bytes (R300 to R302). -/
structure DsRec where
  base : Nat
  log2 : Nat
  bytes : Bytes
  deriving DecidableEq, Repr

/-- The difference stream of an update unit: the record in progress, and whether records were dropped before the next
one (R302). -/
structure DsUnit where
  out : Option DsRec
  gap : Bool
  deriving DecidableEq, Repr

/-- A slot of the table registry (R314, R316): 0 FREE, 1 LOADED, 2 CURRENT, 3 DRAINING; and the latched version record of
192 bytes. -/
structure TblSlot where
  st : Nat
  ver : Nat
  deriving DecidableEq, Repr

/-- A free slot of the registry. -/
def TblSlot.init : TblSlot := ⟨0, 0⟩

/-- A LOAD in progress: slot of the registry, address of the version record, and whether the record has been accepted
(R315). -/
structure TblLoad where
  key : Nat
  pa : Nat
  taken : Bool
  deriving DecidableEq, Repr

/-- A hot slot in use: slot of the registry, width code, number; and, once its row left it, the descriptors, by stream key
and sequence number, that it still waits for (R338, R339). -/
structure HotSlot where
  key : Nat
  w : Nat
  hot : Nat
  left : Option (List (Nat × Nat))
  deriving DecidableEq, Repr

/-- What a work element of a queue pair is for: a descriptor, a lot of a SNAPSHOT, a shard of a GATHER_WINDOW, or a control
message of a convoy context. -/
inductive WorkSrc where
  | desc (die n slot seq : Nat)
  | lot (die n slot seq l : Nat)
  | shard (die n slot seq k : Nat)
  | control (k : Nat)
  /-- A message of the exchange engine's descriptor to participant `r` (R364, R368). -/
  | exchange (die n slot seq r : Nat) (m : XMsg)
  /-- A command of an NVMe queue, which goes out as a SEND (R357). -/
  | capsule (cid : Nat)
  deriving DecidableEq, Repr

/-- A work element sent on a queue pair and not yet complete (R350, R352): verb 0 send, 1 write, 2 read; its first PSN and
packets; the bytes sent, or the length read and the bytes that have come. -/
structure Work where
  src : WorkSrc
  verb : Nat
  first : Nat
  packets : Nat
  remote : Nat
  rkey : Nat
  imm : Option Nat
  data : Bytes
  len : Nat
  got : Nat
  deriving DecidableEq, Repr

/-- A command of an NVMe queue that the controller has (R357): identifier, whether data comes in, address and length. -/
structure NvmeCmd where
  cid : Nat
  inward : Bool
  va : Nat
  len : Nat
  deriving DecidableEq, Repr

/-- A write of a warehouse file queue that is being programmed (R358): identifier, pieces as file-area offset and bytes. -/
structure FileWrite where
  cid : Nat
  parts : List (Nat × Bytes)
  deriving DecidableEq, Repr

/-- What a queue pair keeps beside its context and its state register (R348 to R358, R375, R376). -/
structure Qp where
  /-- Next PSN to send, oldest unacknowledged PSN, next PSN expected. -/
  psn : Nat
  una : Nat
  rq : Nat
  sent : List Work
  /-- Posted RECVs, oldest first: die code, stream, slot, sequence number. -/
  recvs : List (Nat × Nat × Nat × Nat)
  /-- Bytes of the incoming message so far. -/
  inLen : Nat
  tries : Nat
  rnrTries : Nat
  /-- When the ACK timer started. -/
  since : Nat
  /-- DCQCN: rate in Mb/s and congestion fraction, each as a numerator over a power of 2 (R355). -/
  rate : Nat × Nat
  alpha : Nat × Nat
  /-- When the last congestion notification was sent. -/
  cnpAt : Option Nat
  /-- Current logical port: port · 2 + sub-port. -/
  port : Option Nat
  sqHead : Nat
  sqTail : Nat
  cqTail : Nat
  phase : Bool
  cmds : List NvmeCmd
  writes : List FileWrite
  deriving DecidableEq, Repr

/-- A queue pair in RESET. -/
def Qp.init : Qp := ⟨0, 0, 0, [], [], 0, 0, 0, 0, (800000, 0), (1, 0), none, none, 0, 0, 0, true, [], []⟩

/-- What the ports send to the network (R344, R350 to R359, R362 to R371): for the queue pair of a key, the packets of a work element from a PSN
on, an acknowledgement, a NAK, the bytes of a read, a congestion notification; a message of the exchange to a participant; a priority flow control
frame of the priorities and quanta given; a PTP message. -/
inductive NetMsg where
  | request (qp : Nat) (w : Work) (psn : Nat)
  | ack (qp psn : Nat)
  | nak (qp psn : Nat) (kind : NakKind)
  | response (qp psn : Nat) (data : Bytes)
  | cnp (qp : Nat)
  | pause (prio quanta : Nat)
  | ptp (m : PtpMsg)
  deriving DecidableEq, Repr

/-- Frames of one message on a logical port (R344, R360): the port, the
priority code point of its 802.1Q tag (none where it has no tag), its frames, and the port's time stamp of the first, in 2^-16 ns. -/
structure Frames where
  port : Option Nat
  pcp : Option Nat
  count : Nat
  stamp : Nat
  msg : NetMsg
  deriving DecidableEq, Repr

/-- What a logical port keeps of IEEE 1588 (R359), times in 2^-16 ns of module time: the sequence number of its next request; a two-step Sync without
its follow-up (number, receipt, correction); the last Sync's time at the master and of receipt; a request in flight (number, time sent); a
two-step peer response without its follow-up (number, receipt at the peer, receipt here, correction); the path delay; and the offset
from the master, which the servo of the firmware takes. -/
structure Ptp where
  seq : Nat
  waiting : Option (Nat × Nat × Int)
  master : Option (Int × Nat)
  asked : Option (Nat × Nat)
  turn : Option (Nat × Nat × Nat × Int)
  delay : Option Int
  offset : Option Int
  deriving DecidableEq, Repr

/-- A port that has seen no PTP message. -/
def Ptp.init : Ptp := ⟨0, none, none, none, none, none, none⟩

/-- A gather window of an exchange engine (R372, R373): 1 filling, 2 live, 3 releasing; references, layer, compartment,
first lot and lots, and the shards that have not landed. -/
structure Window where
  st : Nat
  refs : Nat
  layer : Nat
  cpt : Nat
  lot : Nat
  lots : Nat
  left : Nat
  deriving DecidableEq, Repr

/-- An EXCHANGE_TOKENS or REDUCE_NET that an exchange engine runs (R362): its descriptor by die code, stream, slot and
sequence number; the ranks that have acknowledged and those whose counts, rows or partial sums have come; the phase of a
reduction and its running values. -/
structure Xch where
  die : Nat
  n : Nat
  slot : Nat
  seq : Nat
  acked : List Nat
  came : List Nat
  phase : Nat
  acc : List Int
  deriving DecidableEq, Repr

/-- What a coordination context keeps beside its registers and its member table (R387 to R406). A key of 128 and more
stands for the convoy of that number less 128 in a federation. -/
structure Conv where
  /-- Rank of the manager. -/
  mgr : Nat
  /-- When the role began, when the last HEARTBEAT went out, and when one last came from each rank. -/
  since : Nat
  hbAt : Option Nat
  heard : SMap Nat
  /-- When an HB_REPLY last came from each member. -/
  replied : SMap Nat
  /-- Barriers at which members have arrived, and the one forwarded to the top manager. -/
  arrived : SMap Nat
  fwd : Option Nat
  /-- READY reports: rank, layer group, milestone. -/
  ready : List (Nat × Nat × Nat)
  /-- APPLIED reports of the last committed milestone: rank, outcome; the members of that COMMIT; whether some are awaited. -/
  applied : List (Nat × Nat)
  atCommit : List Nat
  applying : Bool
  /-- The last milestone reported ready, and the aborts of the next milestone. -/
  readyM : Nat
  tries : Nat
  /-- A takeover: COMMITTED of the members that have answered, the members of the previous epoch, when it began. -/
  states : SMap Nat
  prev : Nat
  takeAt : Nat
  /-- Convoys that the context has heard from, and the convoy of the top manager (R392). -/
  convoys : List Nat
  top : Nat
  mgrLost : Bool
  deriving DecidableEq, Repr

/-- A context in IDLE. -/
def Conv.init : Conv := ⟨0, 0, none, [], [], [], none, [], [], [], false, 0, 0, [], 0, 0, [], 0, false⟩

/-- A copy of a line in a cache (R450): 0 S, 1 E, 2 M, and its 64 bytes. -/
structure Copy where
  cache : Cache
  st : Nat
  data : Bytes
  deriving DecidableEq, Repr

/-- A line in a cache's writeback buffer (R457, R458): 0 on its way to the home, 1 held at the home while a snoop is
outstanding, 2 written or discarded, so that WB_ACK is due. -/
structure WbBuf where
  cache : Cache
  data : Bytes
  st : Nat
  deriving DecidableEq, Repr

/-- A coherent request (R451). -/
inductive CohReq where
  | rdShared (x : Cache)
  | rdUnique (x : Cache)
  | upgrade (x : Cache)
  | rdOnce
  | wrLine (data : Bytes)
  | wrPart (off : Nat) (data : Bytes)
  deriving DecidableEq, Repr

/-- The transaction that a home runs for a line (R452 to R454, R458): its request, the agents and rings that have answered the
snoop, whether a copy was found, data taken from a holder, and 0 snooping, 1 answering, 2 awaiting COMP_ACK. -/
structure CohTrans where
  req : CohReq
  answered : List Cache
  rings : List Nat
  found : Bool
  taken : Option Bytes
  /-- Agents that answered from their writeback buffer (R457). -/
  wbp : List Cache
  phase : Nat
  deriving DecidableEq, Repr

/-- What caches and home hold of a line: copies, writeback buffers, the transaction, and requests that wait with the time at
which they came. -/
structure Line where
  copies : List Copy
  bufs : List WbBuf
  trans : Option CohTrans
  queue : List (CohReq × Nat)
  deriving DecidableEq, Repr

/-- A line that no cache holds. -/
def Line.init : Line := ⟨[], [], none, []⟩

/-- A page-table entry that a walker's cache holds (R443): the die, the compartment, ASID and root of the walk (ASID above the 44 bits of the
root's page number), the level of the entry, its virtual address in units of that level, and the entry. -/
structure WalkEntry where
  die : Nat
  cpt : Nat
  root : Nat
  level : Nat
  va : Nat
  pte : Nat
  deriving DecidableEq, Repr

/-- A range invalidation under way from an XLT page (R446 to R448): when it began, the range in pages, the ASID it is limited
to, and the dies whose acknowledgement is awaited. -/
structure Inv where
  since : Nat
  page : Nat
  pages : Nat
  asid : Option Nat
  waiting : List Nat
  deriving DecidableEq, Repr

/-- A message that a link's transmitter has taken and that is not wholly acknowledged: its chunks that wait for a flit, and the
SEQ of the last flit that carries some of it (R31, R34, R53); its virtual channel on the link, and whether it goes by a fallback
route (R48, R52). -/
structure LinkMsg where
  msg : Msg
  wait : Nat
  last : Nat
  vc : Nat
  fb : Bool
  deriving DecidableEq, Repr

/-- A lane whose position a spare is being trained for (R633): module, position, spare, and when the lane was lost. -/
structure Training where
  m : Nat
  l : Nat
  spare : Nat
  since : Nat
  deriving DecidableEq, Repr

/-- One end of a link: the transmitter toward the other die and the receiver from it (R29 to R39, R633 to R635). -/
structure Link where
  /-- Next SEQ to send; flits that no ACK covers, oldest first; the SEQ from which they are sent again. -/
  seq : Nat
  replay : List (Nat × Bytes)
  resend : Option Nat
  /-- Chunk credits, by class · 2 + virtual channel. -/
  credits : List Nat
  /-- Chunks that wait for a flit, with the mark of a message's first, and the messages taken. -/
  queue : List (Bool × Bytes)
  msgs : List LinkMsg
  /-- Next SEQ expected, whether flits are being discarded, and when the last retry request was sent. -/
  expect : Nat
  discarding : Bool
  askedAt : Nat
  /-- Consecutive retries of the SEQ expected. -/
  tries : Nat
  /-- Flits accepted since the last ACK, and when the first of them came. -/
  accepted : Nat
  since : Nat
  /-- Chunk credits to be returned. -/
  returns : List Nat
  /-- Chunks of a message in progress. -/
  part : List Bytes
  /-- Lane positions lost since the start, those without a spare, and the spares in training, by module and lane. -/
  lost : List (Nat × Nat)
  stuck : List (Nat × Nat)
  train : List Training
  /-- The receiver is at half width. -/
  half : Bool
  deriving DecidableEq, Repr

/-- A message in a die's routers (R45, R48, R53): the message; the link instance it came by and the virtual channel whose buffer it
holds there; whether it has crossed the dateline of the ring it is on; whether it is one of those that a link which went down makes
later ones wait for; and whether it has gone by a fallback route. -/
structure Transit where
  msg : Msg
  via : Option Nat
  vc : Nat
  crossed : Bool
  reissued : Bool
  fb : Bool
  deriving DecidableEq, Repr

/-- A link after reset, with 64 chunks of credit in each pool (DESIGN CHOICE, notes/assumptions/10.md). -/
def Link.init : Link :=
  ⟨0, [], none, List.replicate 10 64, [], [], 0, false, 0, 0, 0, 0, List.replicate 10 0, [], [], [], [], false⟩

/-- A command of the compartment table (R498): CMD, compartment, kind and index of the unit. -/
structure CptReq where
  cmd : Nat
  cpt : Nat
  kind : Nat
  index : Nat
  deriving DecidableEq, Repr

/-- A targeted self-test in progress (R624 to R627): the die and structure, when the error was detected, what its record will say,
and the streams that it pauses, by stream key. -/
structure SelfTest where
  die : Nat
  st : Struct
  since : Nat
  cause : ErrRec
  paused : List Nat
  deriving DecidableEq, Repr

/-- A die's part in the budget rounds (R559 to R562): the demands that have come in this round by die code, the cap that waits to be
raised, when the round began, the consecutive rounds with a cap below demand, and the powers measured in the round. -/
structure Budget where
  got : SMap Nat
  raised : Option Nat
  tickAt : Nat
  below : Nat
  meas : List Nat
  deriving DecidableEq, Repr

/-- A die before its first round. -/
def Budget.init : Budget := ⟨[], none, 0, 0, []⟩

/-- The clocks (R542 to R555): the source being switched to, when the source in use was lost, the islands whose crossings are
ratio-locked and those that may be stepped, by die code · 256 + island, and writes of CLK_ISL.MAX that wait for a lock. -/
structure Clocks where
  target : Option Nat
  lostAt : Option Nat
  locked : List Nat
  waiting : SMap Nat
  deriving DecidableEq, Repr

/-- The AES-256-XTS keys of a compartment (R502): of the near store, the depot and the warehouse, as the key slots of the controllers hold them. -/
structure Keys where
  near : BitVec 512
  depot : BitVec 512
  warehouse : BitVec 512
  deriving DecidableEq, Repr

/-- What the service tag shows (R666 to R669), and when the last drawing began. -/
structure Panel where
  live : Nat
  health : Nat
  safe : Bool
  fault : Option (Nat × Nat × Nat)
  insertions : Nat
  band : Bool
  drawnAt : Option Nat
  deriving DecidableEq, Repr

/-- The connector and the start (R582 to R598, R602 to R605), beside the registers: since when input and lever are as R582 asks;
when the abort window, the drain and the power-down began; PERST_N; the power-fail sequence has run and the input is gone or
not; the input is above 62 V; the host image verified at this start; the firmware image that waits for a start; the I3C dynamic address. -/
structure Conn where
  qualAt : Option Nat
  windowAt : Nat
  drainAt : Nat
  downAt : Nat
  perst : Bool
  failed : Bool
  excess : Bool
  image : Option Bytes
  i3c : Option Nat
  deriving DecidableEq, Repr

/-- A network die's flash (R661, R673): bytes programmed and host bytes written over its life, credit in bytes, when credit last
accrued, and since when host writes are paced. -/
structure Flash where
  prog : Nat
  host : Nat
  credit : Nat
  accrued : Nat
  paced : Option Nat
  deriving DecidableEq, Repr

/-- Flash that nothing has been written to, without credit. -/
def Flash.init : Flash := ⟨0, 0, 0, 0, none⟩

/-- The module highest junction temperature as the ledger's thermal cycles need it (R654): the extreme since the last turn, and
whether the swing looked for is the downward one. -/
structure Swing where
  ext : Nat
  down : Bool
  deriving DecidableEq, Repr

/-- The state of the module. -/
structure State where
  /-- The commands waiting, first in, first out. -/
  pending : List Instr
  /-- The time base of R544 as the islands count it: nanoseconds since power-on in which no freeze stood (R641). -/
  base : Nat
  /-- The same as the always-on island counts it, frozen or not (R640). -/
  aon : Nat
  /-- Module time of R360, in units of 2^-16 ppb of a nanosecond. -/
  modT : Nat
  fuses : Fuses
  /-- Byte memory by device physical address (R56). -/
  mem : Memory
  /-- The warehouse file area, by byte offset (R358). -/
  file : Memory
  /-- Register words that have been written or have changed, by `regKey`. -/
  regs : SMap W32
  /-- Second and third copies of triplicated words where they differ from the first (R18, R527). -/
  tvB : SMap W32
  tvC : SMap W32
  /-- Writes of _LO words held for their _HI words, and _HI words latched by reads of their _LO words (R527). -/
  heldLo : SMap W32
  latchHi : SMap W32
  /-- Source numbers of MSIs on their way to the router (R459, R533). -/
  msiq : List Nat
  /-- Unread error records, oldest first (R622, R665). -/
  log : List ErrRec
  /-- PLDM events sent, by number of the rule's event (R584), newest first. -/
  events : List String
  /-- Answers given, newest first. -/
  answers : List Answer
  /-- Codewords that read uncorrectable, by address and size: 64 bytes of the near store and the depot (R251, R252), 8
  bytes of a cistern (R148). -/
  bad : List (Nat × Nat)
  /-- Owner records: kind · 2^21 + index to compartment; not listed: unassigned (R492). -/
  owners : SMap Nat
  tallies : SMap Tally
  tallyOps : List TallyOp
  /-- Waits that found no free entry: tally and waiter (R470). -/
  polls : List (Nat × Waiter)
  /-- TALW_SET_LO of each tally window (R489). -/
  talwLo : SMap W32
  /-- Harts by number. -/
  harts : SMap Hart
  /-- Channels, by die code · 32 + channel. -/
  chans : SMap Chan
  /-- Time base at which the channels of a die last left reset, by die code. -/
  chanAt : SMap Nat
  /-- Telemetry samples of each controller, by die code: time, and the words of its page; and the time of the last sample (R271). -/
  telem : SMap (List (Nat × SMap W32))
  telemAt : SMap Nat
  /-- When the patrol's pass in progress began, by die code (R270). -/
  scrubAt : SMap Nat
  ledger : Ledger
  /-- The inspection port's error bit (R59, R255). -/
  inspErr : Bool
  /-- Streams, by die code · 2^14 + index. -/
  streams : SMap Stream
  /-- Engines, by die code · 128 + number. -/
  engines : SMap Engine
  place : Place
  /-- Difference streams by update unit 0 to 15. -/
  ds : SMap DsUnit
  /-- Queue pairs, by 0 for N0 or 1 for N1 · 2^14 + index. -/
  qps : SMap Qp
  /-- Registered memory regions, by 0 or 1 · 2^16 + index. -/
  mrs : SMap Unit
  /-- Messages sent to the network, newest first. -/
  netOut : List Frames
  /-- Frames that wait on a port for the end of a pause, oldest first (R344). -/
  netWait : List Frames
  /-- Priorities that a logical port's link partner has paused, by logical port · 8 + priority: until when (R344). -/
  paused : SMap Nat
  /-- IEEE 1588 on the logical ports (R359). -/
  ptp : SMap Ptp
  /-- When the 1PPS output last rose (R361). -/
  ppsAt : Option Nat
  /-- What the exchange engines run, by 0 or 1 · 2 + 1 for a reduction. -/
  xch : SMap Xch
  /-- Gather windows, by 0 or 1 · 64 + number. -/
  wins : SMap Window
  /-- Coherent lines, by physical address / 64. -/
  lines : SMap Line
  /-- Range invalidations, by die code of their page. -/
  invs : SMap Inv
  /-- What the walkers' caches hold (R443, R447). -/
  walkers : List WalkEntry
  /-- Route entries that the MSI router has cached: source number to entry. -/
  routes : SMap Nat
  /-- Pending identities of the interrupt files, 32 to a word, by (hart · 128 + file) · 64 + word. -/
  imsic : SMap W32
  /-- MSI-X vectors signalled to the host, newest first. -/
  msix : List Nat
  /-- Coordination contexts 0 to 3. -/
  convs : SMap Conv
  /-- Link ends, by die code · 4 + instance; flits sent by them, newest first; messages in the routers of each die, oldest first;
  messages arrived at their destination, newest first; and messages given back by a link that went down, until they arrive. -/
  links : SMap Link
  flitOut : List (Nat × Bytes)
  routers : SMap (List Transit)
  arrived : List Msg
  reissue : List Msg
  /-- Compartment table: the command under way with the time at which it began, and those that wait behind it (R498). -/
  cptOp : Option (CptReq × Nat)
  cptQueue : List CptReq
  /-- The keys of the compartments that are not FREE (R502). -/
  keys : SMap Keys
  /-- The sealed compartment that holds a slot position of R505, by position. -/
  sealPos : SMap Nat
  /-- Targeted self-tests, transient errors of the last 24 hours by die code, structure and time, and islands under full BIST by die
  code and number (R624 to R631). -/
  tests : List SelfTest
  transients : List (Nat × Struct × Nat)
  bists : List (Nat × Nat)
  /-- Spare rows and entries taken, by what they belong to (R625), and structures marked unusable. -/
  spared : List (Nat × Struct)
  /-- In limited service, the usable depot channels of the package sets in use, ascending; none in full service (R607). -/
  depotChans : List Nat
  unusable : List (Nat × Struct)
  /-- Dies in a die recovery reset, with its cause (R610). -/
  recovering : List (Nat × Nat)
  /-- When the freeze in progress began, as the always-on island counts (R640). -/
  frozenAt : Nat
  /-- A die has reached LIMIT or SHUTDOWN during the freeze in progress (R646). -/
  thawBarred : Bool
  /-- INSPECT_EN is high and the fuse intact (R638). -/
  inspectOn : Bool
  clocks : Clocks
  /-- Budget rounds by die code. -/
  budgets : SMap Budget
  /-- Since when Tj of a die has been below its lower threshold, by die code (R564). -/
  coolAt : SMap Nat
  swing : Swing
  /-- Ends of the locate and of the wait for the sounder's next retry, as the always-on island counts (R670). -/
  locateEnd : Nat
  soundAt : Nat
  /-- When PTP last set or checked the calendar clock (R659). -/
  ptpAt : Option Nat
  /-- When the calendar clock was last set (R659). -/
  rtcSetAt : Option Nat
  /-- The supercapacitor has run down (R660). -/
  rtcLost : Bool
  panel : Panel
  conn : Conn
  /-- The MSI-X table and pending-bit array of BAR4 (R587). -/
  bar4 : Memory
  /-- The flash of each network die (R661, R673). -/
  whc : SMap Flash
  /-- Slots of the table registry, by table · 2 + slot. -/
  tables : SMap TblSlot
  tblLoad : Option TblLoad
  /-- Hot slots that are not free. -/
  hot : List HotSlot
  /-- Time of each table's last sweep. -/
  sweptAt : SMap Nat
  /-- Sweeps in progress, by lookup engine: table, slot of the registry, and the next row (R338, R341). -/
  sweeps : SMap (Nat × Nat × Nat)
  /-- The last milestone that a LOOKUP_GRAD applied to each table (R338). -/
  tblM : SMap Nat
  /-- The counter that free values are drawn by (the model's own field, notes/assumptions/4.md). -/
  free : Nat
  deriving DecidableEq, Repr

/-- Fuses of the module: the grade JZ3072 of R4 with engines 96 to 99 of every tensor die fused off, no spare used, no
signature, every image good (DESIGN CHOICE, notes/assumptions/7.md). -/
def Fuses.init : Fuses where
  grade := 3072
  fusedEngines := [0, 1, 2, 3, 4, 5, 6, 7].flatMap fun d => [d * 128 + 96, d * 128 + 97, d * 128 + 98, d * 128 + 99]
  arrayMask := []
  spareMap := []
  bistRef := []
  bufSpares := 0
  dbgDisable := false
  ctlImageOk := true
  hostImageOk := true

/-- Placement at reset: every map entry reads 0x0000_0003 (R602). -/
def Place.init : Place := ⟨[], [], [], [], [], [], [], [], [], [], [], [], [], [], [], []⟩

/-- The module at power-on (R522, R602): every register at its reset value, nothing fetched, nothing stored. -/
def State.reset : State where
  pending := []
  base := 0
  aon := 0
  modT := 0
  fuses := Fuses.init
  mem := []
  file := []
  regs := []
  tvB := []
  tvC := []
  heldLo := []
  latchHi := []
  msiq := []
  log := []
  events := []
  answers := []
  bad := []
  owners := []
  tallies := []
  tallyOps := []
  polls := []
  talwLo := []
  harts := []
  chans := []
  chanAt := []
  telem := []
  telemAt := []
  scrubAt := []
  ledger := Ledger.init
  inspErr := false
  streams := []
  engines := []
  place := Place.init
  ds := []
  qps := []
  mrs := []
  netOut := []
  netWait := []
  paused := []
  ptp := []
  ppsAt := none
  xch := []
  wins := []
  lines := []
  invs := []
  walkers := []
  routes := []
  imsic := []
  msix := []
  convs := []
  links := []
  flitOut := []
  routers := []
  arrived := []
  reissue := []
  cptOp := none
  cptQueue := []
  keys := []
  sealPos := []
  tests := []
  transients := []
  bists := []
  spared := []
  depotChans := []
  unusable := []
  recovering := []
  frozenAt := 0
  thawBarred := false
  inspectOn := false
  clocks := ⟨none, none, [], []⟩
  budgets := []
  coolAt := []
  swing := ⟨255, false⟩
  locateEnd := 0
  soundAt := 0
  ptpAt := none
  rtcSetAt := none
  rtcLost := false
  panel := ⟨0, 0, false, none, 0, false, none⟩
  conn := ⟨none, 0, 0, 0, true, false, false, none, none⟩
  bar4 := []
  whc := []
  tables := []
  tblLoad := none
  hot := []
  sweptAt := []
  sweeps := []
  tblM := []
  free := 0

end Sys2Proof.Machine
end

