-- ==== Sys2Proof/Machine/Pages.lean ====
section
/-! DEFINITION. Register pages (R517 to R540): page numbers, the map of each page, reset values, and the one home of every
register word, with the reads and writes of fields that every block uses. -/

namespace Sys2Proof.Machine

/-- The die codes of R16. -/
def dieCode : Die → Nat
  | .T0 => 0 | .T1 => 1 | .T2 => 2 | .T3 => 3 | .T4 => 4 | .T5 => 5 | .T6 => 6 | .T7 => 7
  | .H0 => 8 | .H1 => 9 | .N0 => 10 | .N1 => 11 | .C0 => 12 | .C1 => 13 | .C2 => 14 | .C3 => 15

/-- All sixteen dies in the order of their codes. -/
def allDies : List Die := [.T0, .T1, .T2, .T3, .T4, .T5, .T6, .T7, .H0, .H1, .N0, .N1, .C0, .C1, .C2, .C3]

/-- The eight spine dies in the order of the spine ring (R23). -/
def spineRing : List Die := [.C0, .N0, .H0, .C1, .C2, .H1, .N1, .C3]

/-- The die of a code below 16. -/
def dieOf (c : Nat) : Die := allDies.getD c .T0

def isTensor (d : Die) : Bool := decide (dieCode d < 8)
def isHost (d : Die) : Bool := d == .H0 || d == .H1
def isNet (d : Die) : Bool := d == .N0 || d == .N1
def isCap (d : Die) : Bool := decide (12 ≤ dieCode d)

/-- The block type codes of R539. -/
def blkCode : Blk → Nat
  | .eng => 0x01 | .tfab => 0x02 | .hbmc => 0x03 | .depc => 0x04 | .whc => 0x05 | .upd => 0x06 | .lkp => 0x07
  | .xch => 0x08 | .net => 0x09 | .pcie => 0x0A | .prep => 0x0B | .xlt => 0x0C | .plc => 0x0D | .pool => 0x0E
  | .tal => 0x0F | .cpt => 0x10 | .coh => 0x11 | .d2d => 0x12 | .clk => 0x13 | .pwr => 0x14 | .thm => 0x15
  | .bist => 0x16 | .frz => 0x17 | .ledg => 0x18 | .svc => 0x19 | .mgmt => 0x1A | .conv => 0x1B

/-- The block types of R539. -/
def allBlks : List Blk := [.eng, .tfab, .hbmc, .depc, .whc, .upd, .lkp, .xch, .net, .pcie, .prep, .xlt, .plc, .pool, .tal,
  .cpt, .coh, .d2d, .clk, .pwr, .thm, .bist, .frz, .ledg, .svc, .mgmt, .conv]

/-- The compartment that reaches a page alone, where there is one (R495). -/
def pageCpt (pg : Page) : Option Nat :=
  match pg.blk with
  | .eng => if 0xC0 ≤ pg.inst then some (pg.inst - 0xC0) else none
  | .pool => some pg.inst
  | .cpt => if 0x40 ≤ pg.inst then some (pg.inst - 0x40) else none
  | _ => none

/-- The page number of R518, which is its MSI source number (R459). -/
def pageNo (pg : Page) : Nat := dieCode pg.die <<< 15 + blkCode pg.blk <<< 8 + pg.inst

/-- The parts of a register key. -/
def keyPage (k : Nat) : Nat := k / 2 ^ 34
def keyOff (k : Nat) : Nat := k / 2 ^ 24 % 1024 * 4
def keyBank (k : Nat) : Nat := k % 2 ^ 24

/-- The directory of R539: the pages that exist. -/
def pageExists (pg : Page) : Bool :=
  let d := pg.die
  let i := pg.inst
  match pg.blk with
  | .eng => isTensor d && (decide (i < 100) || i == 0x80 || (decide (0xC0 ≤ i) && decide (i < 0x100)))
  | .hbmc => isTensor d && i == 0
  | .depc => isCap d && i == 0
  | .plc => isCap d && i == 0
  | .whc => isNet d && i == 0
  | .xch => isNet d && i == 0
  | .upd => (isTensor d && i == 0) || (isCap d && decide (i < 2))
  | .lkp => (isCap d && decide (i < 4)) || (d == .C0 && i == 0x10)
  | .net => (isNet d && (decide (i < 4) || i == 8)) || (d == .N0 && i == 0x10)
  | .prep => isNet d && decide (i < 2)
  | .xlt => !isHost d && i == 0
  | .pool => d == .C0 && decide (i < 64)
  | .tal => decide (8 ≤ dieCode d) && i == 0
  | .cpt => d == .N0 && (i == 0 || (decide (0x40 ≤ i) && decide (i < 0x80)))
  | .coh => isHost d && i == 0
  | .d2d => decide (i < 3)
  | .tfab | .clk | .pwr | .thm | .bist => i == 0
  | .pcie | .frz | .ledg | .svc | .mgmt => d == .N0 && i == 0
  | .conv => d == .N0 && decide (i < 4)

/-- The page at page number `n`, where the directory lists one (R518, R519). -/
def pageAt (n : Nat) : Option Page :=
  match allBlks.find? (fun b => blkCode b == (n >>> 8) % 128) with
  | none => none
  | some b =>
    let pg : Page := ⟨dieOf (n >>> 15), b, n % 256⟩
    if n < 0x80000 && pageExists pg then some pg else none

/-- The map of a page's block registers (R539). -/
def pageRows (pg : Page) : List RegRow :=
  match pg.blk with
  | .eng => if pg.inst < 100 then RegMap.engine else if pg.inst == 0x80 then RegMap.frontEnd else RegMap.doorbell
  | .tfab => RegMap.tfab | .hbmc => RegMap.hbmc | .depc => RegMap.depc | .whc => RegMap.whc | .upd => RegMap.upd
  | .lkp => if pg.inst == 0x10 then RegMap.lkpRegistry else RegMap.lkpEngine
  | .xch => RegMap.xch
  | .net => if pg.inst == 8 then RegMap.netRdma else if pg.inst == 0x10 then RegMap.netTime else RegMap.netPort
  | .pcie => RegMap.pcie | .prep => RegMap.prep | .xlt => RegMap.xlt | .plc => RegMap.plc | .pool => RegMap.pool
  | .tal => RegMap.tal
  | .cpt => if pg.inst == 0 then RegMap.cptAdmin else RegMap.cptOwn
  | .coh => RegMap.coh | .d2d => RegMap.d2d | .clk => RegMap.clk | .pwr => RegMap.pwr | .thm => RegMap.thm
  | .bist => RegMap.bist | .frz => RegMap.frz | .ledg => RegMap.ledg | .svc => RegMap.svc | .mgmt => RegMap.mgmt
  | .conv => RegMap.conv

/-- The row of a page's word at byte offset `off`: of the common header below 0x040, of the block from there on. -/
def rowAt (pg : Page) (off : Nat) : Option RegRow :=
  (if off < 0x40 then RegMap.header else pageRows pg).find? fun r => r.off == off

/-- Bits [w+lo-1:lo] of `v`. -/
def bitsOf (v lo w : Nat) : Nat := (v >>> lo) % 2 ^ w

/-- `v` with bits [w+lo-1:lo] replaced by `x`. -/
def putBits (v lo w x : Nat) : Nat := v - (bitsOf v lo w) <<< lo + (x % 2 ^ w) <<< lo

/-- The PAGE_IRQ_STAT bits each block defines (R409, R438, R447, R491, R516, R569, R601, R620, R652, R675, and the rules
of the chapters on streams and lookup), for PAGE_CAP.IRQ_USED. -/
def irqUsed (pg : Page) : Nat :=
  match pg.blk with
  | .eng => if pg.inst == 0x80 then 1 else 0
  | .lkp => if pg.inst == 0x10 then 2 else 0
  | .conv | .pcie => 15
  | .prep | .clk | .pwr | .ledg => 3
  | .cpt => if pg.inst == 0 then 3 else 0
  | .xlt | .tfab | .svc => 1
  | .tal | .mgmt | .bist | .frz | .d2d | .thm | .whc => 7
  | .hbmc | .depc | .upd | .xch | .net | .plc | .pool | .coh => 0

/-- PAGE_CAP of R678. -/
def pageCap (pg : Page) : Nat :=
  let wmark := pg.blk == .plc
  let tv := pg.blk == .clk || pg.blk == .pwr || pg.blk == .thm
  let live := pg.blk == .d2d || pg.blk == .bist
  let auto := pg.blk == .net && pg.inst == 0x10
  let rdfx := (pg.blk == .eng && decide (pg.inst < 100)) || pg.blk == .hbmc || pg.blk == .depc || pg.blk == .upd
    || (pg.blk == .lkp && pg.inst == 0x10) || auto || pg.blk == .prep || pg.blk == .xlt || pg.blk == .pool
    || pg.blk == .tal || pg.blk == .coh || pg.blk == .bist || pg.blk == .ledg || pg.blk == .conv
  auto.toNat * 2 + wmark.toNat * 4 + tv.toNat * 8 + live.toNat * 16 + rdfx.toNat * 32
    + (if auto then 6 else 0) <<< 8 + irqUsed pg <<< 16

/-- Islands on a die (R545). -/
def islandCount (d : Die) : Nat :=
  if isTensor d then 130 else if isHost d then 59 else if d == .N0 then 25 else if d == .N1 then 22 else 24

/-- Nominal and lowest frequency of a variable island, in 25 MHz units; none for a fixed island (R545, R546). The flash
controller's island is taken as die fabric (notes/assumptions/11.md). -/
def islandRange (d : Die) (i : Nat) : Option (Nat × Nat) :=
  let fabric := some (64, 16)
  if isTensor d then
    if i < 121 then fabric else if i == 123 then some (40, 16) else none
  else if isHost d then
    if i < 48 then some (120, 32) else if i < 52 then some (80, 24) else if i == 52 then fabric else none
  else if isNet d then
    if i == 8 || i == 9 || i == 12 || i == 13 || i == 14 || i == 21 || i == 23 then fabric
    else if i == 10 || i == 11 then some (48, 16) else none
  else
    if 9 ≤ i && i < 15 then some (40, 16) else if 15 ≤ i && i < 18 then fabric else none

/-- Floor and ceiling of a die in units of 0.1 W (R558). -/
def powerLimits (d : Die) : Nat × Nat :=
  if isTensor d then (1000, 2800) else if isHost d then (600, 1200) else if isNet d then (500, 700) else (300, 400)

/-- The number of set bits among the low `n` of `v`. -/
def popCount (v : Nat) : Nat → Nat
  | 0 => 0
  | n + 1 => (v.testBit n).toNat + popCount v n

/-- An engine is fused off (R3). -/
def engineFused (fz : Fuses) (d : Die) (e : Nat) : Bool := fz.fusedEngines.contains (dieCode d * 128 + e)

/-- The page is a fused-off engine's (R526). -/
def pageFused (fz : Fuses) (pg : Page) : Bool := pg.blk == .eng && decide (pg.inst < 100) && engineFused fz pg.die pg.inst

/-- The value a register word holds at reset, for the item `bank` of a selected register (R522, R526, and the reset
columns of the maps). -/
def resetWord (fz : Fuses) (pg : Page) (off bank : Nat) : Nat :=
  if off == 0 then blkCode pg.blk <<< 16 + pg.inst <<< 8 + dieCode pg.die
  else if pageFused fz pg then 0
  else if off == 8 then pageCap pg
  else
    let row := ((rowAt pg off).map RegRow.reset).getD 0
    match pg.blk with
    | .eng =>
      if pg.inst < 100 && off == 0x40 then
        let m := SMap.getD fz.arrayMask (dieCode pg.die * 128 + pg.inst) 15
        row + m + popCount m 4 <<< 4 + 1 <<< 7
      else row
    | .clk =>
      if off == 0x54 then
        match islandRange pg.die bank with
        | some (nom, low) => low + nom <<< 8 + low <<< 16 + nom <<< 24
        | none => 0xFFFFFFFF
      else if off == 0x60 then islandCount pg.die else row
    | .pwr =>
      if off == 0x44 then (powerLimits pg.die).1
      else if off == 0x50 then (powerLimits pg.die).1 + (powerLimits pg.die).2 <<< 16 else row
    | .bist =>
      if off == 0x54 then SMap.getD fz.bistRef (dieCode pg.die * 256 + bank) 0 % 2 ^ 32
      else if off == 0x58 then SMap.getD fz.bistRef (dieCode pg.die * 256 + bank) 0 >>> 32
      else row
    | .tfab => if off == 0x44 then fz.bufSpares else row
    | .d2d => if off == 0x48 then SMap.getD fz.spareMap ((dieCode pg.die * 4 + pg.inst) * 4 + bank) 0 else row
    | _ => row

/-- The key of a register word: page, word in the page, and the item of a selected register. -/
def regKey (pg : Page) (off bank : Nat) : Nat := (pageNo pg * 1024 + off / 4) * 2 ^ 24 + bank

/-- The page of a host die's homes and interrupt routes (R465). -/
def cohPg (d : Die) : Page := ⟨d, .coh, 0⟩

namespace State

/-- The stored word of a register: its reset value until it has changed. -/
def word (s : State) (pg : Page) (off : Nat) (bank : Nat := 0) : Nat :=
  match SMap.find s.regs (regKey pg off bank) with
  | some v => v.toNat
  | none => resetWord s.fuses pg off bank

/-- `s` with the register word set to `v`. -/
def setWord (s : State) (pg : Page) (off v : Nat) (bank : Nat := 0) : State :=
  { s with regs := SMap.put s.regs (regKey pg off bank) (BitVec.ofNat 32 v) }

/-- A field of a register. -/
def getF (s : State) (pg : Page) (f : Fld) (bank : Nat := 0) : Nat := bitsOf (s.word pg f.off bank) f.lo f.w

/-- `s` with a field of a register set to `v`. -/
def setF (s : State) (pg : Page) (f : Fld) (v : Nat) (bank : Nat := 0) : State :=
  s.setWord pg f.off (putBits (s.word pg f.off bank) f.lo f.w v) bank

/-- `s` with a counter field raised by `n`, saturating at its largest value. -/
def bump (s : State) (pg : Page) (f : Fld) (n : Nat := 1) (bank : Nat := 0) : State :=
  s.setF pg f (min (s.getF pg f bank + n) (2 ^ f.w - 1)) bank

/-- `s` with a maximum field raised to at least `n`, saturating. -/
def raiseMax (s : State) (pg : Page) (f : Fld) (n : Nat) (bank : Nat := 0) : State :=
  s.setF pg f (min (max (s.getF pg f bank) n) (2 ^ f.w - 1)) bank

/-- `s` with a PLDM event sent (R584). -/
def pldm (s : State) (e : String) : State := { s with events := e :: s.events }

/-- `s` with an answer given. -/
def answer (s : State) (r : Requester) (k : AnsKind) (data : Bytes := []) : State :=
  { s with answers := ⟨r, k, data⟩ :: s.answers }

/-- The module is frozen, freezing or thawing: only the parts of R640 run. -/
def frozen (s : State) : Bool := s.getF ⟨.N0, .frz, 0⟩ Reg.FRZ_STAT_STATE != 0

/-- Nothing runs outside the always-on island: frozen, without main power, or in standby (R582, R615, R640). -/
def stopped (s : State) : Bool :=
  s.frozen || s.getF ⟨.N0, .pcie, 0⟩ Reg.PCIE_HSW_MAIN_ON != 1 || decide (2 ≤ s.getF ⟨.N0, .mgmt, 0⟩ Reg.MGMT_STANDBY_STATE)

/-- A die's islands are stopped: in thermal LIMIT or SHUTDOWN, or in a die recovery reset (R564, R610). -/
def dieDown (s : State) (d : Die) : Bool :=
  decide (3 ≤ s.getF ⟨d, .thm, 0⟩ Reg.THM_STATE) || s.recovering.any fun r => r.1 == dieCode d

/-- The block of a page is power-gated while its die is parked (R616). -/
def gated (s : State) (pg : Page) : Bool :=
  s.getF ⟨.N0, .mgmt, 0⟩ Reg.MGMT_DIES_PARKED >>> dieCode pg.die % 2 == 1 &&
    (match pg.blk with
     | .eng => true
     | .net => pg.die == .N1
     | .xch | .prep => pg.die == .N1
     | .lkp => pg.inst != 0x10
     | _ => false)

/-- A targeted self-test isolates the block of a page (R624). -/
def underTest (s : State) (pg : Page) : Bool :=
  s.tests.any fun t => t.die == dieCode pg.die &&
    match t.st with
    | .upd i => pg.blk == .upd && pg.inst == i
    | .lkp i => pg.blk == .lkp && pg.inst == i
    | .prep i => pg.blk == .prep && pg.inst == i
    | .xch => pg.blk == .xch
    | .rdma => pg.blk == .net && pg.inst == 8
    | .plc => pg.blk == .plc
    | .pool => pg.blk == .pool
    | .tal => pg.blk == .tal
    | _ => false

/-- The block of a page starts new work: enabled, not resetting, usable, powered (R524, R526). -/
def runs (s : State) (pg : Page) : Bool :=
  s.getF pg Reg.PAGE_CTRL_ENABLE == 1 && s.getF pg Reg.PAGE_STAT_RESETTING == 0
    && s.getF pg Reg.PAGE_STAT_UNUSABLE == 0 && !s.underTest pg && !pageFused s.fuses pg && !s.gated pg && !s.dieDown pg.die

/-- A fresh number for a free value, and the state with the counter advanced. -/
def drawFree (s : State) : Nat × State := (s.free, { s with free := s.free + 1 })

end State

/-- The outcome of a command of a part that a freeze, standby or the loss of main power stops: nothing comes about while the
module is so (R640, R641). -/
def act (s : State) (f : State → State) : Host.Outcome State Fault Refusal := .next (if s.stopped then s else f s)

/-- The same for a part of die `d`, which the die's own stop holds too (R564, R610). -/
def actD (d : Die) (s : State) (f : State → State) : Host.Outcome State Fault Refusal :=
  .next (if s.stopped || s.dieDown d then s else f s)

end Sys2Proof.Machine
end

