-- ==== Sys2Proof/Machine/Flags.lean ====
section
/-! DEFINITION. The flags of a register page: status bits and their interrupts (R522, R533), error bits (R522, R535) and watermarks
(R534). -/

namespace Sys2Proof.Machine.State

/-- `s` with one MSI of source number `src` on its way to the router (R459, R533). -/
def sendMsi (s : State) (src : Nat) : State := { s with msiq := s.msiq ++ [src] }

/-- `s` with the PAGE_IRQ_STAT bits of mask `m` set; one MSI when an enabled bit goes from 0 to 1 (R533). -/
def raiseMask (s : State) (pg : Page) (m : Nat) : State :=
  let old := s.word pg 0x20
  let s1 := s.setWord pg 0x20 (old ||| m)
  if (m &&& s.word pg 0x24) &&& old != m &&& s.word pg 0x24 then s1.sendMsi (pageNo pg) else s1

/-- `s` with PAGE_IRQ_STAT bit `n` of a page raised (R533). -/
def raise (s : State) (pg : Page) (n : Nat) : State := s.raiseMask pg (1 <<< n)

/-- `s` after an event that sets PAGE_ERR bit `n`: the bit, PAGE_ERRCNT and, when the bit was 0, PAGE_IRQ_STAT.ERR
(R522, R535). -/
def pageErr (s : State) (pg : Page) (n : Nat := 0) : State :=
  let old := s.word pg 0x30
  let s1 := (s.setWord pg 0x30 (old ||| 1 <<< n)).bump pg Reg.PAGE_ERRCNT
  if old.testBit n then s1 else s1.raise pg 15

/-- `s` after a level crossed to `above` its mark in the watermark register at `off` (R534). -/
def watermark (s : State) (pg : Page) (off : Nat) (above : Bool) : State :=
  let w := s.word pg off
  if bitsOf w 1 1 == above.toNat then s
  else
    let cnt := min (bitsOf w 16 16 + 1) 0xFFFF
    let s1 := s.setWord pg off (1 + above.toNat * 2 + cnt <<< 16)
    if w.testBit 0 then s1 else s1.raise pg 14

end Sys2Proof.Machine.State
end

