-- ==== Sys2Proof/Machine/Ops.lean ====
section
/-! DEFINITION. The named operations on memory: the address map (R55 to R58), who owns what (R209, R492, R495), lots
(R204, R207), reads and writes of bytes, uncorrectable codewords (R148, R255), and error records (R622). -/

namespace Sys2Proof.Machine

/-- What an address reaches (R56, R57, R463, R489, R517). -/
inductive Where where
  | depot | near
  | cistern (die e off : Nat)
  | page (pg : Page) (off : Nat)
  | imsic (h file off : Nat)
  | tally (t off : Nat)
  | unified (lot : Nat)
  | undecoded
  deriving DecidableEq, Repr

/-- Base addresses of R56, R57, R463 and R489. -/
def nearBase : Nat := 0x020000000000
def cisternBase : Nat := 0x030000000000
def pageBase : Nat := 0x0F0000000000
def imsicBase : Nat := 0x0F0080000000
def tallyBase : Nat := 0x0F00C0000000
def unifiedBase : Nat := 0x100000000000
/-- Bytes of a cistern (R57). -/
def cisternBytes : Nat := 0x300000
/-- The pages that hold module-wide registers. -/
def frzPg : Page := ⟨.N0, .frz, 0⟩
def mgmtPg : Page := ⟨.N0, .mgmt, 0⟩
def cptPg : Page := ⟨.N0, .cpt, 0⟩
def ledgPg : Page := ⟨.N0, .ledg, 0⟩
def pciePg : Page := ⟨.N0, .pcie, 0⟩
def svcPg : Page := ⟨.N0, .svc, 0⟩
def timePg : Page := ⟨.N0, .net, 0x10⟩
def lkpRegPg : Page := ⟨.C0, .lkp, 0x10⟩
/-- The page of lookup engine `k` (R539). -/
def lkpPg (k : Nat) : Page := ⟨dieOf (12 + k / 4 % 4), .lkp, k % 4⟩
/-- The page of an engine, of a die's front end, of a compartment's doorbells. -/
def engPg (d : Die) (e : Nat) : Page := ⟨d, .eng, e⟩
def fePg (d : Die) : Page := ⟨d, .eng, 0x80⟩
def dbPg (d : Die) (c : Nat) : Page := ⟨d, .eng, 0xC0 + c⟩
def bistPg (d : Die) : Page := ⟨d, .bist, 0⟩

/-- The hash of a lot's number (R204). -/
def bucketHash (l : Nat) : Nat := l ^^^ (l >>> 14)

/-- XOR of the low `w` bits of the `n` successive groups of `w` bits of `v`. -/
def foldXor (v w : Nat) : Nat → Nat
  | 0 => 0
  | n + 1 => (v % 2 ^ w) ^^^ foldXor (v >>> w) w n

/-- A codeword's place: its die, its channel on that die, and its number in the channel. -/
structure Cw where
  die : Die
  ch : Nat
  n : Nat
  deriving DecidableEq, Repr

/-- The codeword of a near-store offset, `l` GiB of each stack being die-local (R257, R258). -/
def nearCw (l off : Nat) : Cw :=
  let wide := (384 - 8 * l) * 2 ^ 30
  let sector := (off >>> 6) % 4
  if off < wide then
    let g := off >>> 8
    let c := foldXor g 8 4
    ⟨dieOf (c >>> 5), c % 32, (g >>> 8) * 4 + sector⟩
  else
    let st := (off - wide) / (l * 2 ^ 30)
    let g := ((off - wide) % (l * 2 ^ 30)) >>> 8
    let share := (48 - l) * 2 ^ 30 / 32 / 256
    ⟨dieOf (st % 8), foldXor g 5 6, (share + g >>> 5) * 4 + sector⟩

/-- The codeword of a depot address (R259). In limited service `chans` lists the usable channels of `n` package sets; the granules
that share a channel follow each other in it (R607; DEDUCED, notes/assumptions/55.md). -/
def depotCw (chans : List Nat) (pa : Nat) : Cw :=
  let g := pa >>> 8
  let c := foldXor g 7 5
  let k := chans.length
  if k == 0 then ⟨dieOf (12 + c >>> 5), c % 32, (g >>> 7) * 4 + (pa >>> 6) % 4⟩
  else
    let r := chans.getD (c % k) 0
    ⟨dieOf (12 + r >>> 5), r % 32, ((g >>> 7) * (128 / k) + c / k) * 4 + (pa >>> 6) % 4⟩

/-- The near-store offset of a codeword: the inverse of `nearCw`. -/
def nearOff (l : Nat) (w : Cw) : Nat :=
  let gl := w.n / 4
  let share := (48 - l) * 2 ^ 30 / 32 / 256
  if gl < share then
    let c := dieCode w.die * 32 + w.ch
    (gl <<< 8 + (c ^^^ foldXor gl 8 3)) * 256 + w.n % 4 * 64
  else
    let g := gl - share
    (384 - 8 * l + dieCode w.die * l) * 2 ^ 30 + (g <<< 5 + (w.ch ^^^ foldXor g 5 5)) * 256 + w.n % 4 * 64

/-- The depot address of a codeword. -/
def depotOff (chans : List Nat) (w : Cw) : Nat :=
  let ch := (dieCode w.die - 12) * 32 + w.ch
  let k := chans.length
  let gl := if k == 0 then w.n / 4 else w.n / 4 / (128 / k)
  let c := if k == 0 then ch else chans.idxOf ch + k * (w.n / 4 % (128 / k))
  (gl <<< 7 + (c ^^^ foldXor gl 7 4)) * 256 + w.n % 4 * 64

/-- The page of a die's memory controller. -/
def memPg (d : Die) : Page := if isTensor d then ⟨d, .hbmc, 0⟩ else ⟨d, .depc, 0⟩

/-- The row that a codeword lies in (R246, R247). -/
def rowOf (w : Cw) : Nat := if isTensor w.die then w.n / 16 else w.n / 30

/-- The check sector of a depot codeword (R247). -/
def checkSector (w : Cw) : Nat := w.n / 30 * 2 + (decide (16 ≤ w.n % 30)).toNat

namespace State

/-- The engine is enabled and not retired (R151). -/
def engineLive (s : State) (d : Die) (e : Nat) : Bool :=
  decide (e < 100) && !engineFused s.fuses d e && s.getF (engPg d e) Reg.ENG_CAP_ENABLED == 1

/-- Package sets in use: 16 but in limited service (R607). -/
def depotSets (s : State) : Nat :=
  if s.getF mgmtPg Reg.MGMT_LIMITED_ACTIVE == 1 then s.getF mgmtPg Reg.MGMT_LIMITED_DEPOT_SETS else 16
/-- The end of the depot direct range: 120 GiB for each package set (R56, R607). -/
def depotEnd (s : State) : Nat := s.depotSets * 0x1E00000000
/-- A stack is lost, and with it the near-store tier (R607). -/
def nearLost (s : State) : Bool :=
  s.getF mgmtPg Reg.MGMT_LIMITED_ACTIVE == 1 && s.getF mgmtPg Reg.MGMT_LIMITED_NS_STACKS != 0xFF

/-- What the byte at `a` belongs to (R56 to R58); in limited service the depot ends earlier, or the near store is absent (R607). -/
def locate (s : State) (a : Nat) : Where :=
  if a < 0x01E000000000 then (if a < s.depotEnd then .depot else .undecoded)
  else if a < nearBase then .undecoded
  else if a < 0x026000000000 then (if s.nearLost then .undecoded else .near)
  else if a < cisternBase then .undecoded
  else if a < 0x030800000000 then
    let d := (a - cisternBase) >>> 32
    let e := ((a - cisternBase) >>> 22) % 1024
    let off := a % 0x400000
    if s.engineLive (dieOf d) e && off < cisternBytes then .cistern d e off else .undecoded
  else if a < pageBase then .undecoded
  else if a < imsicBase then
    match pageAt ((a - pageBase) >>> 12) with
    | some pg => .page pg (a % 4096)
    | none => .undecoded
  else if a < 0x0F0083000000 then
    let f := ((a - imsicBase) >>> 12) % 128
    if f < 65 && (a - imsicBase) >>> 19 < 96 then .imsic ((a - imsicBase) >>> 19) f (a % 4096) else .undecoded
  else if a < tallyBase then .undecoded
  else if a < 0x0F00C4000000 then .tally ((a - tallyBase) >>> 12) (a % 4096)
  else if a < unifiedBase then .undecoded
  else if a < 0x200000000000 then .unified ((a - unifiedBase) >>> 16)
  else .undecoded

/-! ### Lots -/

/-- The map entry of a lot (R207). -/
def entry (s : State) (l : Nat) : Nat := SMap.getD s.place.map l 3
def lotTier (s : State) (l : Nat) : Nat := bitsOf (s.entry l) 0 2
def lotDirty (s : State) (l : Nat) : Bool := (s.entry l).testBit 2
def lotAge (s : State) (l : Nat) : Nat := bitsOf (s.entry l) 3 8
def lotOwner (s : State) (l : Nat) : Nat := bitsOf (s.entry l) 11 6
def lotGen (s : State) (l : Nat) : Nat := bitsOf (s.entry l) 17 2
def lotWay (s : State) (l : Nat) : Nat := bitsOf (s.entry l) 19 13

/-- `s` with a lot's map entry set. -/
def setEntry (s : State) (l v : Nat) : State := { s with place := { s.place with map := SMap.putD s.place.map 3 l v } }

/-! ### Frames (R202 to R208, R257 to R259) -/

/-- Buckets of a tier: 768 in the near store, 240 for each package set in the depot (R203, R607). -/
def buckets (s : State) (tier : Nat) : Nat := if tier == 0 then 768 else 240 * s.depotSets

/-- The bucket a lot may occupy in a tier (R204). -/
def bucketOf (s : State) (tier l : Nat) : Nat := bucketHash l % s.buckets tier

/-- Address of the frame in a way of a bucket (R202, R203). -/
def frameAddr (s : State) (tier bucket way : Nat) : Nat :=
  (if tier == 0 then nearBase else 0) + (way * s.buckets tier + bucket) * 0x10000

/-- L of R257. -/
def localGib (s : State) : Nat := s.getF ⟨.T0, .hbmc, 0⟩ Reg.HBMC_CFG_LOCAL_GIB

/-- The direct address where a byte stands: a lot's byte in its frame (R208). -/
def frameByte (s : State) (a : Nat) : Option Nat :=
  match s.locate a with
  | .depot | .near => some a
  | .unified l =>
    let t := s.lotTier l
    if t < 2 then some (s.frameAddr t (s.bucketOf t l) (s.lotWay l) + a % 0x10000) else none
  | _ => none

/-- The codeword that holds a byte of the near store or the depot. -/
def cwOf (s : State) (a : Nat) : Option Cw :=
  (s.frameByte a).map fun p => if nearBase ≤ p then nearCw s.localGib (p - nearBase) else depotCw s.depotChans p

/-- A byte of the near store or the depot lies on a channel that has been fenced (R625). -/
def fenced (s : State) (a : Nat) : Bool :=
  match s.cwOf a with
  | some w => s.unusable.contains (dieCode w.die, .memLogic w.ch)
  | none => false

/-- Some codeword of a range lies on a fenced channel. -/
def fencedIn (s : State) (a n : Nat) : Bool :=
  (s.unusable.any fun u => match u.2 with | .memLogic _ => true | _ => false)
    && (List.range (n / 64 + 2)).any fun k => decide (a / 64 * 64 + 64 * k < a + n) && s.fenced (a / 64 * 64 + 64 * k)

/-! ### Owners -/

/-- The owner record of a unit: a compartment, 0x7E for one that can never be granted, 0x7F for none (R492). -/
def owner (s : State) (kind i : Nat) : Nat :=
  if kind == 0 && !(s.engineLive (dieOf (i / 100)) (i % 100)) then 0x7E
  else if kind == 5 && s.depotEnd ≤ i * 0x200000 + 0x49000000 then 0x7E
  else SMap.getD s.owners (kind * 2 ^ 21 + i) 0x7F

/-- `s` with the owner record of a unit set. -/
def setOwner (s : State) (kind i c : Nat) : State :=
  { s with owners := SMap.putD s.owners 0x7F (kind * 2 ^ 21 + i) c }

/-- The compartment of the memory at an address: the granule's, the engine's or the lot's owner; none where there is
none (R209, R492). -/
def memOwner (s : State) (a : Nat) : Option Nat :=
  let own (k i : Nat) : Option Nat := if s.owner k i < 64 then some (s.owner k i) else none
  match s.locate a with
  | .depot => own 5 (a >>> 21)
  | .near => own 4 ((a - nearBase) >>> 21)
  | .cistern d e _ => own 0 (d * 100 + e)
  | .unified l => if s.lotTier l == 3 then none else some (s.lotOwner l)
  | _ => none

/-- The compartment a hart belongs to (R495). -/
def hartCpt (s : State) (h : Nat) : Option Nat := if s.owner 3 h < 64 then some (s.owner 3 h) else none

/-! ### Bytes -/

/-- The `n` bytes at an address. -/
def rdBytes (s : State) (a n : Nat) : Bytes := Memory.readBytes s.mem a n
/-- The little-endian number in the `n` bytes at an address (R14). -/
def rdNat (s : State) (a n : Nat) : Nat := leNat (s.rdBytes a n)

/-- The codeword `b` overlaps the `n` bytes at `a`. -/
def cwHit (a n : Nat) (b : Nat × Nat) : Bool := decide (b.1 < a + n) && decide (a < b.1 + b.2)
/-- The `n` bytes at `a` cover the codeword `b`. -/
def cwWhole (a n : Nat) (b : Nat × Nat) : Bool := decide (a ≤ b.1) && decide (b.1 + b.2 ≤ a + n)

/-- Some codeword of the range reads uncorrectable, or lies on a fenced channel (R148, R255, R625). -/
def badIn (s : State) (a n : Nat) : Bool := s.bad.any (cwHit a n) || s.fencedIn a n

/-- Marks the lots of a range touched, and dirty after a write (R207, R217, R221). -/
def touchLot (s : State) (l : Nat) (write : Bool) : State :=
  let t := if s.place.touched.contains l then s.place.touched else l :: s.place.touched
  let s1 := { s with place := { s.place with touched := t } }
  if write then
    let s2 := s1.setEntry l (putBits (s1.entry l) 2 1 1)
    if s.place.writebacks.contains l then
      { s2.setEntry l (putBits (s2.entry l) 3 8 0) with
        place := { (s2.setEntry l (putBits (s2.entry l) 3 8 0)).place with writebacks := s.place.writebacks.filter (· != l) } }
    else s2
  else s1

/-- The lots a byte range of the unified range touches, lowest first. -/
def lotsOf (a n : Nat) : List Nat :=
  if a < unifiedBase || n == 0 then []
  else
    let l0 := (a - unifiedBase) >>> 16
    let l1 := (a + n - 1 - unifiedBase) >>> 16
    (List.range (l1 - l0 + 1)).map (· + l0)

/-- A read of `n` bytes as a touch. -/
def touchRead (s : State) (a n : Nat) : State := (lotsOf a n).foldl (fun t l => t.touchLot l false) s

/-- The 64-byte codewords of a range that lie on a fenced channel. -/
def fencedCws (s : State) (a n : Nat) : List (Nat × Nat) :=
  if s.fencedIn a n then
    ((List.range (n / 64 + 2)).map fun k => (a / 64 * 64 + 64 * k, 64)).filter fun b => decide (b.1 < a + n) && s.fenced b.1
  else []

/-- The interval of the guaranteed scrub bursts of a channel in ns: 2^20 data slots, each the time of 64 bytes (R246, R270). -/
def scrubEvery (d : Die) : Nat := if isTensor d then 1747626 else 3932160

/-- A channel; one that has done nothing since its die left reset has its first refresh, calibration and guaranteed scrub one interval
after that. -/
def chan (s : State) (d : Die) (ch : Nat) : Chan :=
  let t := SMap.getD s.chanAt (dieCode d) 0
  SMap.getD s.chans (dieCode d * 32 + ch) { Chan.init with
    refAt := t + (if isTensor d then 3900 else Config.depotTrefi 0), calAt := t + 64000000, scrubDue := t + scrubEvery d }
def setChan (s : State) (d : Die) (ch : Nat) (x : Chan) : State :=
  { s with chans := SMap.put s.chans (dieCode d * 32 + ch) x }

/-- The counters and the address register of an uncorrectable codeword of a controller (R255, R272, R273). -/
def noteUe (s : State) (w : Cw) (pa : Nat) : State :=
  let pg := memPg w.die
  let f := if isTensor w.die then (Reg.HBMC_UNCORR, Reg.HBMC_UE_ADDR_LO_PA, Reg.HBMC_UE_ADDR_HI_PA)
    else (Reg.DEPC_UNCORR, Reg.DEPC_UE_ADDR_LO_PA, Reg.DEPC_UE_ADDR_HI_PA)
  (((s.bump pg f.1 1 w.ch).setF pg f.2.1 (pa >>> 6)).setF pg f.2.2 (pa >>> 32))

/-- A whole-sector write of the depot updates its check sector in the check cache; of 64 entries the oldest is written back
(R253; which one the spec leaves open, notes/assumptions/23.md). -/
def checkCache (s : State) (w : Cw) : State :=
  if !isCap w.die then s
  else
    let c := s.chan w.die w.ch
    let k := checkSector w
    if c.chk.contains k then s.bump (memPg w.die) Reg.DEPC_CHK_HITS 1 w.ch
    else
      let kept := if 64 ≤ c.chk.length then c.chk.drop 1 else c.chk
      (s.bump (memPg w.die) Reg.DEPC_CHK_MISSES 1 w.ch).setChan w.die w.ch { c with chk := kept ++ [k] }

/-- The sectors that `n` bytes at `a` touch: sector address, and whether the bytes cover it whole. -/
def sectorsOf (a n : Nat) : List (Nat × Bool) :=
  if n == 0 then []
  else (List.range ((a + n - 1) / 64 - a / 64 + 1)).map fun k =>
    let x := (a / 64 + k) * 64
    (x, decide (a ≤ x) && decide (x + 64 ≤ a + n))

/-- The controller's account of a write of one sector (R253, R255): a read-modify-write where it covers only a part, a refusal of a part
of an uncorrectable codeword, and the check cache. -/
def noteWrite (s : State) (x : Nat × Bool) : State :=
  match s.cwOf x.1 with
  | some w =>
    let s1 := if !x.2 && isCap w.die then s.bump (memPg w.die) Reg.DEPC_RMW 1 w.ch else s
    if s.fenced x.1 || (!x.2 && s.bad.contains (x.1, 64)) then s1.noteUe w x.1 else s1.checkCache w
  | none => s

/-- Narrow reads that came before a write of their sector return what it held (R261). -/
def settleNarrow (s : State) (a n : Nat) : State :=
  { s with chans := s.chans.map fun e =>
      if e.2.narrow.any fun x => x.got.isNone && decide (a < x.pa + x.ask.len) && decide (x.pa < a + n) then
        (e.1, { e.2 with narrow := e.2.narrow.map fun x =>
          if x.got.isNone && decide (a < x.pa + x.ask.len) && decide (x.pa < a + n) then { x with got := some (s.rdBytes x.pa x.ask.len) } else x })
      else e }

/-- The channels' account of a write of `n` bytes at `a`. -/
def noteWrites (s : State) (a n : Nat) : State :=
  match s.locate a with
  | .depot | .near | .unified _ => (sectorsOf a n).foldl noteWrite (s.settleNarrow a n)
  | _ => s

/-- A write of bytes: an uncorrectable codeword that it covers whole becomes good, one that it covers in part is not
written and stays uncorrectable, and nothing is written on a fenced channel (R148, R253, R255, R625). -/
def wrBytes (s : State) (a : Nat) (bs : Bytes) : State :=
  let n := bs.length
  let left := s.bad.filter fun b => !cwWhole a n b
  let m := Memory.writeBytes s.mem a bs
  let m' := (left.filter (cwHit a n) ++ s.fencedCws a n).foldl
    (fun acc b => Memory.writeBytes acc b.1 (Memory.readBytes s.mem b.1 b.2)) m
  (lotsOf a n).foldl (fun t l => t.touchLot l true) { s.noteWrites a n with mem := m', bad := left }

/-- A write of `n` little-endian bytes. -/
def wrNat (s : State) (a v n : Nat) : State := s.wrBytes a (leBytes v n)

/-- A write of the range would cover part of an uncorrectable codeword, or reach a fenced channel (R255, R625). -/
def partialBad (s : State) (a n : Nat) : Bool := (s.bad.any fun b => cwHit a n b && !cwWhole a n b) || s.fencedIn a n

/-! ### Coherent lines (R450 to R453) -/

end State

/-- The value of a line that is newer than memory: an M copy's, or that of a writeback not yet written. -/
def Line.latest (x : Line) : Option Bytes :=
  match x.copies.find? fun c => c.st == 2 with
  | some c => some c.data
  | none => (x.bufs.find? fun b => b.st != 2).map (·.data)

namespace State

/-- `n` zero bytes at an address, as the zeroing of R210 and R492 writes them: every codeword becomes good, and no cache nor
writeback buffer keeps an earlier value of a line. -/
def zeroBytes (s : State) (a n : Nat) : State :=
  let hit (l : Nat) : Bool := decide (a < 64 * l + 64) && decide (64 * l < a + n)
  { s with
    mem := Memory.clear s.mem a n
    bad := s.bad.filter fun b => !cwWhole a n b
    lines := s.lines.map fun e =>
      if hit e.1 then (e.1, { e.2 with copies := [], bufs := e.2.bufs.map fun b => { b with st := 2 }
                                       trans := e.2.trans.map fun t => { t with taken := none } }) else e
    harts := s.harts.map fun e => if e.2.resv.any hit then (e.1, { e.2 with resv := none }) else e }

def lineAt (s : State) (l : Nat) : Line := SMap.getD s.lines l Line.init
def setLine (s : State) (l : Nat) (x : Line) : State := { s with lines := SMap.putD s.lines Line.init l x }

/-- A byte as a coherent read returns it (R453). -/
def cohByte (s : State) (a : Nat) : Byte :=
  match (s.lineAt (a / 64)).latest with
  | some d => d.getD (a % 64) 0
  | none => Memory.read s.mem a

/-- The `n` bytes at an address by coherent reads. -/
def cohRead (s : State) (a n : Nat) : Bytes :=
  if s.lines.any fun e => decide (a < 64 * e.1 + 64) && decide (64 * e.1 < a + n) then
    (List.range n).map fun i => s.cohByte (a + i)
  else s.rdBytes a n
def cohNat (s : State) (a n : Nat) : Nat := leNat (s.cohRead a n)

/-- The lines of a range leave every cache, what was newer than memory written back first: the end of an SNP_INV (R452). -/
def cohInv (s : State) (a n : Nat) : State :=
  (s.lines.filter fun e => decide (a < 64 * e.1 + 64) && decide (64 * e.1 < a + n)).foldl (fun t e =>
    let t1 := match e.2.latest with | some d => t.wrBytes (64 * e.1) d | none => t
    t1.setLine e.1 { e.2 with copies := [], bufs := e.2.bufs.map fun b => { b with st := 2 } }) s


/-! ### Register words as software writes them (R527) -/

/-- A write of the RW bits of a word. -/
def rwWrite (s : State) (pg : Page) (off v : Nat) (bank : Nat := 0) : State :=
  let m := ((rowAt pg off).map RegRow.rw).getD 0
  let old := s.word pg off bank
  s.setWord pg off ((old ^^^ (old &&& m)) ||| (v &&& m)) bank

/-- The W1C bits of a word that are written 1 cleared. -/
def w1cWrite (s : State) (pg : Page) (off v : Nat) (bank : Nat := 0) : State :=
  let m := v &&& ((rowAt pg off).map RegRow.w1c).getD 0
  if m == 0 then s else
  let old := s.word pg off bank
  s.setWord pg off (old ^^^ (old &&& m)) bank

/-- A write of an _LO word is held for its _HI word. -/
def holdLo (s : State) (pg : Page) (off v : Nat) : State :=
  { s with heldLo := SMap.put s.heldLo (regKey pg off 0) (BitVec.ofNat 32 v) }

/-- What is held of an _LO word takes effect, with the write of its _HI word, whose latched value is dropped. -/
def takeLo (s : State) (pg : Page) (off : Nat) : State :=
  let k := regKey pg off 0
  let s1 : State := { s with heldLo := SMap.del s.heldLo k, latchHi := SMap.del s.latchHi (regKey pg (off + 4) 0) }
  match SMap.find s.heldLo k with
  | some w => s1.rwWrite pg off w.toNat
  | none => s1

/-- Reservations on the lines of a range end (R485). -/
def dropResv (s : State) (a n : Nat) : State :=
  { s with harts := s.harts.map fun e =>
      if e.2.resv.any fun l => decide (a < 64 * l + 64) && decide (64 * l < a + n) then (e.1, { e.2 with resv := none }) else e }

/-- The home of a line (R450). -/
def homeDie (s : State) (l : Nat) : Die :=
  let lost (d : Die) : Bool := s.getF mgmtPg Reg.MGMT_DIES_UNUSABLE >>> dieCode d % 2 == 1
  if l.testBit 2 then (if lost .H1 then .H0 else .H1) else if lost .H0 then .H1 else .H0

/-- The requests that a coherent access of a device makes, one a line, counted at the lines' homes with the two snoops of each (R452,
R465). -/
def countCoh (s : State) (a n : Nat) (f : Fld) : State :=
  if n == 0 then s
  else
    let ls := (List.range ((a + n - 1) / 64 - a / 64 + 1)).map fun k => a / 64 + k
    [Die.H0, Die.H1].foldl (fun t d =>
      let k := (ls.filter fun l => s.homeDie l == d).length
      if k == 0 then t else (t.bump (cohPg d) f k).bump (cohPg d) Reg.COH_SNOOPS (2 * k)) s

/-- Bytes written by a coherent device write, which also ends the reservations on their lines (R452, R453, R485). -/
def cohWrite (s : State) (a : Nat) (bs : Bytes) : State :=
  (((s.cohInv a bs.length).dropResv a bs.length).countCoh a bs.length Reg.COH_DEV_WR).wrBytes a bs

/-! ### Flash -/

/-- The WHC page of network die `nd`. -/
def whcPg (nd : Nat) : Page := ⟨if nd % 2 == 1 then .N1 else .N0, .whc, 0⟩

/-- The flash of network die `nd`. -/
def flash (s : State) (nd : Nat) : Flash := SMap.getD s.whc nd Flash.init

/-- `s` with the flash of network die `nd`; the registers follow (R673). -/
def setFlash (s : State) (nd : Nat) (x : Flash) : State :=
  let pg := whcPg nd
  ((State.setF { s with whc := SMap.put s.whc nd x } pg Reg.WHC_PROGRAMMED_GIB (x.prog >>> 30)).setF pg Reg.WHC_HOST_GIB
    (x.host >>> 30)).setF pg Reg.WHC_CREDIT_GIB (x.credit >>> 30)

/-- Bytes programmed and host bytes of network die `nd`'s flash grow, and its credit falls (R661). -/
def whcProgram (s : State) (nd bytes host : Nat) : State :=
  let x := s.flash nd
  s.setFlash nd { x with prog := x.prog + bytes, host := x.host + host, credit := x.credit - bytes }

/-! ### Error records -/

/-- Module time in ns (R360, R622): the state keeps it in units of 2^-16 ppb of a nanosecond. -/
def timeNs (s : State) : Nat := s.modT / (10 ^ 9 * 2 ^ 16)

/-- An error record appended to the module event log; when the log is full the oldest is discarded (R622, R665). -/
def logRec (s : State) (r : ErrRec) : State :=
  let r' := { r with time := s.timeNs }
  if s.log.length < 65536 then { s with log := s.log ++ [r'] }
  else (({ s with log := s.log.drop 1 ++ [r'] }).bump ledgPg Reg.LEDG_LOG_LOST).raise ledgPg 0

/-- An event record written to the ledger: the oldest is overwritten when the area is full, and a page of four records is
taken from those erased ahead (R653, R655, R657). -/
def ledg (s : State) (kind : LedgKind) (about : List Nat) (err : Option ErrRec := none) : State :=
  let cal := s.getF ledgPg Reg.LEDG_RTC_LO + s.getF ledgPg Reg.LEDG_RTC_HI_SEC <<< 32
  let ev : LedgEvent := ⟨kind, about, s.timeNs, if s.getF ledgPg Reg.LEDG_RTC_HI_VALID == 1 then cal else 0,
    s.getF ledgPg Reg.LEDG_POH, err⟩
  let l := s.ledger
  let s1 := { s with ledger := { l with events := (ev :: l.events).take 131072, written := l.written + 1 } }
  if l.written % 4 == 0 then s1.setF ledgPg Reg.LEDG_FREE_PAGES (s.getF ledgPg Reg.LEDG_FREE_PAGES - 1) else s1

/-- The summary changed: a copy with the next sequence number is current (R653, R654). -/
def summary (s : State) (f : Ledger → Ledger) : State :=
  { s with ledger := { f s.ledger with seq := (s.ledger.seq + 1) % 2 ^ 32 } }

/-- Debug access is open: the debug network, or a hart in debug mode (R512, R638). -/
def debugOpen (s : State) : Bool := s.inspectOn || s.harts.any fun e => e.2.debug

/-- The promise of R511 holds (R512). -/
def promise (s : State) : Bool :=
  s.getF cptPg Reg.CPT_CFG_FW_SIGNED == 1 && s.getF cptPg Reg.CPT_CFG_LOCKED == 1 && !s.debugOpen

/-- `t`, after `s`: a change of CPT_CFG.PROMISE raises bit 1 of the administration page (R516). -/
def notePromise (s t : State) : State := if s.promise == t.promise then t else t.raise cptPg 1

/-- A write that a hart or a PCIe requester issued is lost: its record (R621 to R623). DIE, BLOCK and ISLAND are those of
the die that carried it (DEDUCED, notes/assumptions/22.md). -/
def writeLostRec (s : State) (r : Requester) (cpt pa : Nat) : State :=
  let pg : Page := match r with
    | .hart h => ⟨if h < 48 then .H0 else .H1, .bist, 0⟩
    | _ => ⟨.N0, .pcie, 0⟩
  let k : Nat × Nat := match r with | .hart h => (h, 1) | _ => (0, 2)
  s.logRec ⟨0, .writeLost, dieCode pg.die, blkCode pg.blk, 0, 0, 0, false, pa, k.1, dieCode pg.die, k.2, cpt, 0⟩

end State

/-- A link timeout while the module is frozen: cause 0 PCIe, 1 Ethernet, 2 D2D lock, 3 limit (R644, R652). -/
def State.linkTimeout (s : State) (cause : Nat) : State :=
  if s.getF frzPg Reg.FRZ_STAT_STATE == 0 then s
  else
    (((s.setF frzPg Reg.FRZ_STAT_TIMEOUTS 1).setF frzPg Reg.FRZ_TIMEOUT_CAUSE (s.getF frzPg Reg.FRZ_TIMEOUT_CAUSE ||| 1 <<< cause)).raise
      frzPg 1).pldm "link timeout during a freeze"

/-- The requester fields of a record (R622): id, die, kind. -/
def reqFields (r : Requester) : Nat × Nat × Nat :=
  match r with
  | .stream d n => (n, dieCode d, 0)
  | .qp d i => (i, dieCode d, 0)
  | .hart h => (h, if h < 48 then 8 else 9, 1)
  | .pcie => (0, 10, 2)
  | _ => (0, 0, 3)

/-- A record about a page's block, without requester. -/
def blockRec (pg : Page) (cls : ErrClass) (island : Nat) : ErrRec :=
  ⟨0, cls, dieCode pg.die, blkCode pg.blk, pg.inst, island, 0, false, 0, 0, 0, 3, 0, 0⟩

end Sys2Proof.Machine
end

