-- ==== Sys2Proof/Machine/Xlate.lean ====
section
/-! DEFINITION. Translation for the device (R441 to R445, R496): the Sv57 walk, the check of a translated page against its
requester's compartment (R162, R195, R209, R226), and accesses through pinned translations (R163). -/

namespace Sys2Proof.Machine

/-- What a walk ends in: a physical address with its PBMT, a failure with the CAUSE of R464, an uncorrectable entry, or
an entry in a lot that is not resident. -/
inductive Tr where
  | ok (pa pbmt : Nat)
  | fail (cause : Nat)
  | uncorr (pa : Nat)
  | absent (lot : Nat)
  deriving DecidableEq, Repr

/-- CAUSE of a leaf that does not translate; 0 when it does (R442, R464). -/
def leafCause (pte level : Nat) (rd wr : Bool) : Nat :=
  let r := pte.testBit 1
  let w := pte.testBit 2
  if w && !r then 4
  else if !pte.testBit 4 then 2
  else if (rd && !r) || (wr && !w) then 2
  else if !pte.testBit 6 || (wr && !pte.testBit 7) then 3
  else if bitsOf pte 54 7 != 0 || bitsOf pte 61 2 == 3 then 4
  else if pte.testBit 63 && !(level == 0 && bitsOf pte 10 4 == 8) then 4
  else if bitsOf pte 10 (9 * level) != 0 then 5
  else 0

/-- The physical address that a leaf gives (R442): a superpage keeps the low bits of the address, a 64 KiB NAPOT page
its low 16. -/
def leafPa (pte level va : Nat) : Nat :=
  if pte.testBit 63 then (bitsOf pte 14 40) <<< 16 + va % 2 ^ 16
  else (bitsOf pte (10 + 9 * level) (44 - 9 * level)) <<< (12 + 9 * level) + va % 2 ^ (12 + 9 * level)

namespace State

/-- A read of one page-table entry for a requester of compartment `c` (R442, R496). -/
def readPte (s : State) (c a : Nat) : Tr :=
  if s.memOwner a != some c then .fail 6
  else
    match s.locate a with
    | .cistern _ _ _ => .fail 6
    | .unified l => if s.lotTier l == 2 then .absent l else if s.badIn a 8 then .uncorr a else .ok (s.cohNat a 8) 0
    | _ => if s.badIn a 8 then .uncorr a else .ok (s.cohNat a 8) 0

/-- What a leaf gives an access (R442). -/
def leafTr (pte level va : Nat) (rd wr : Bool) : Tr :=
  let k := leafCause pte level rd wr
  if k == 0 then .ok (leafPa pte level va) (bitsOf pte 61 2) else .fail k

/-- The walk from the table at page `ppn`, `level` + 1 levels above the end. -/
def walkFrom (s : State) (c ppn va : Nat) (rd wr : Bool) (level : Nat) : Tr :=
  match s.readPte c (ppn * 4096 + bitsOf va (12 + 9 * level) 9 * 8) with
  | .ok pte _ =>
    if !pte.testBit 0 then .fail 1
    else if bitsOf pte 1 3 != 0 then leafTr pte level va rd wr
    else if bitsOf pte 54 10 != 0 then .fail 4
    else
      match level with
      | 0 => .fail 1
      | k + 1 => walkFrom s c (bitsOf pte 10 44) va rd wr k
  | t => t

/-- The entries that a walk reads, from the table at page `ppn` on: level, address and entry. -/
def walkReads (s : State) (c ppn va : Nat) (level : Nat) : List (Nat × Nat × Nat) :=
  let a := ppn * 4096 + bitsOf va (12 + 9 * level) 9 * 8
  match s.readPte c a, level with
  | .ok pte _, k + 1 =>
    if pte.testBit 0 && bitsOf pte 1 3 == 0 && bitsOf pte 54 10 == 0 then (level, a, pte) :: walkReads s c (bitsOf pte 10 44) va k
    else [(level, a, pte)]
  | .ok pte _, 0 => [(0, a, pte)]
  | _, _ => []

/-- The entries for an address that the walker of die `d` finds in its cache and that differ from the tables, whose entries on the way are
`reads`; which of them it still holds is open (R443; DESIGN CHOICE, notes/assumptions/12.md). An entry that agrees is read anew. -/
def walkHeld (s : State) (d : Die) (c root va : Nat) (reads : List (Nat × Nat × Nat)) : List WalkEntry × State :=
  let es := s.walkers.filter fun e =>
    e.die == dieCode d && e.cpt == c && e.root == root && e.va == va >>> (12 + 9 * e.level)
      && !reads.any fun p => p.1 == e.level && p.2.2 == e.pte
  if es.isEmpty then ([], s) else (es.filter fun e => (Config.keepsWalk s.free).testBit e.level, s.drawFree.2)

/-- A one-stage Sv57 walk on die `d` for a requester of compartment `c`, from a root whose ASID stands above its 44 bits (R441): a leaf that
the walker's cache holds of an earlier table translates at once, else the walk goes on from the lowest such entry. What it reads touches the lots of
its tables, coherently (R217, R442, R453), and is cached where the walk ends in a translation (R443). -/
def walk (s : State) (d : Die) (c root va : Nat) (rd wr : Bool) : Tr × State :=
  let h := s.walkHeld d c root va (s.walkReads c (root % 2 ^ 44) va 4)
  match h.1.find? fun e => bitsOf e.pte 1 3 != 0 with
  | some e => (leafTr e.pte e.level va rd wr, h.2)
  | none =>
    let e := h.1.foldl (fun (b : Nat × Nat) e => if e.level < b.2 then (e.pte, e.level) else b) ((root % 2 ^ 44) <<< 10, 5)
    let r := h.2.walkFrom c (bitsOf e.1 10 44) va rd wr (e.2 - 1)
    let reads := h.2.walkReads c (bitsOf e.1 10 44) va (e.2 - 1)
    let s1 := reads.foldl (fun t p => (t.touchRead p.2.1 8).countCoh p.2.1 8 Reg.COH_DEV_RD) h.2
    match r with
    | .ok _ _ =>
      let fresh := reads.map fun p => (⟨dieCode d, c, root, p.1, va >>> (12 + 9 * p.1), p.2.2⟩ : WalkEntry)
      let old (e : WalkEntry) : Bool :=
        fresh.any fun f => f.die == e.die && f.cpt == e.cpt && f.root == e.root && f.level == e.level && f.va == e.va
      (r, { s1 with walkers := fresh ++ s1.walkers.filter fun e => !old e })
    | _ => (r, s1)

/-- The XLT page that counts the walks of a die; host dies have none. -/
def xltPg (d : Die) : Page := ⟨d, .xlt, 0⟩

/-- `s` after a walk on die `d` was counted, a failed one with its address and cause (R464). -/
def countWalk (s : State) (d : Die) (va cause : Nat) : State :=
  let s1 := s.bump (xltPg d) Reg.XLT_WALKS
  if cause == 0 then s1
  else
    (((s1.bump (xltPg d) Reg.XLT_WALK_FAULTS).setF (xltPg d) Reg.XLT_FAULT_VA_LO_VA (va >>> 12)).setF
      (xltPg d) Reg.XLT_FAULT_VA_LO_CAUSE cause).setF (xltPg d) Reg.XLT_FAULT_VA_HI_VA (va >>> 32)

/-- The compartment's entry says it is sealed; with floors of 0 in both tiers (R226). -/
def cptSealed (s : State) (c : Nat) : Bool := s.getF cptPg Reg.CPT_ENT_STAT_STATE c != 0 && s.getF cptPg Reg.CPT_ENT_CFG_SEALED c == 1
def nsFloor (s : State) (c : Nat) : Nat := s.getF cptPg Reg.CPT_ENT_CFG_NS_FLOOR c
def dpFloor (s : State) (c : Nat) : Nat := s.getF cptPg Reg.CPT_ENT_CFG_DP_FLOOR c
def noFloors (s : State) (c : Nat) : Bool := s.cptSealed c && s.nsFloor c == 0 && s.dpFloor c == 0

/-- Bytes of a cistern that belong to FOREGROUND streams (R195). -/
def cistFg (s : State) (d e : Nat) : Nat :=
  cisternBytes - min 48 (s.getF (engPg (dieOf d) e) Reg.ENG_FILL_CIST_FILL_UNITS) * 0x10000

/-- The page at `pa` may be reached by a descriptor of compartment `c` of a stream bound to engine `e` of die `d`,
`fill` for a FILL stream (R162, R195, R209, R226, R463, R489, R520). -/
def pageReach (s : State) (c d e : Nat) (fill : Bool) (pa : Nat) : Bool :=
  match s.locate pa with
  | .depot | .near => s.memOwner pa == some c
  | .cistern cd ce off =>
    if s.cistFg cd ce ≤ off then fill && cd == d && ce == e
    else !fill && s.memOwner pa == some c
  | .unified _ => s.memOwner pa == some c && !s.noFloors c
  | _ => false

/-- The page at `pa` may be reached by a unit or queue pair of compartment `c` (R495). -/
def unitReach (s : State) (c pa : Nat) : Bool :=
  match s.locate pa with
  | .depot | .near => s.memOwner pa == some c
  | .cistern cd ce off => decide (off < s.cistFg cd ce) && s.memOwner pa == some c
  | .unified _ => s.memOwner pa == some c && !s.noFloors c
  | _ => false

end State

/-! ### Footprints -/

/-- A virtual byte range and whether it is written. -/
structure VRange where
  va : Nat
  len : Nat
  wr : Bool
  deriving DecidableEq, Repr

/-- The 4 KiB pages of a range, lowest first. -/
def VRange.pages (r : VRange) : List Nat :=
  if r.len == 0 then [] else (List.range ((r.va + r.len - 1) / 4096 - r.va / 4096 + 1)).map (· + r.va / 4096)

/-- A page of a footprint with its kinds of access: reads, writes. -/
abbrev PageUse := Nat × Bool × Bool

/-- The pages of a footprint in ascending order, each once, with the accesses it needs (R161). -/
def footPages (rs : List VRange) : SMap (Bool × Bool) :=
  rs.foldl (fun m r => r.pages.foldl
    (fun m p => SMap.modify m (false, false) p fun u => (u.1 || !r.wr, u.2 || r.wr)) m) []

/-- How the translation of a footprint ends (R162). -/
inductive FootRes where
  | ok (pins : SMap Nat)
  | fault (page : Nat)
  | uncorr (page pa : Nat)
  | absent (lot : Nat)
  deriving DecidableEq, Repr

/-- Translates the pages of a footprint in ascending order; the lowest failing page decides (R160, R162). `reach` is the
check of the translated page. -/
def xlatePages (d : Die) (c root : Nat) (reach : State → Nat → Bool) :
    List (Nat × Bool × Bool) → SMap Nat → State → FootRes × State
  | [], pins, s => (.ok pins, s)
  | (p, rd, wr) :: t, pins, s0 =>
    let w := s0.walk d c root (p * 4096) rd wr
    let s := w.2
    match w.1 with
    | .ok pa pbmt =>
      if reach s pa then xlatePages d c root reach t (SMap.put pins p (pa / 4096 + if pbmt == 0 then 2 ^ 45 else 0)) (s.countWalk d (p * 4096) 0)
      else (.fault p, s.countWalk d (p * 4096) 6)
    | .fail k => (.fault p, s.countWalk d (p * 4096) k)
    | .uncorr a => (.uncorr p a, s.countWalk d (p * 4096) 0)
    | .absent l => (.absent l, s)

/-- The physical page of a pinned translation, whose bit 45 says that its leaf has PBMT 0 (R444). -/
def pinPage (p : Nat) : Nat := p % 2 ^ 45
/-- The physical address of a virtual one under pinned translations; addresses outside them map past the address map. -/
def pinned (pins : SMap Nat) (va : Nat) : Nat := pinPage (SMap.getD pins (va / 4096) (2 ^ 40)) * 4096 + va % 4096
/-- Accesses through the translation of a virtual address are host-shared (R444). -/
def shared (pins : SMap Nat) (va : Nat) : Bool := (SMap.getD pins (va / 4096) 0).testBit 45

/-- The pieces of a virtual range that lie in one page each: virtual address and length, by the number of pages. -/
def pageParts (va n : Nat) : Nat → List (Nat × Nat)
  | 0 => []
  | k + 1 =>
    if n == 0 then []
    else
      let m := min n (4096 - va % 4096)
      (va, m) :: pageParts (va + m) (n - m) k

/-- The pieces of a whole range. -/
def partsOf (va n : Nat) : List (Nat × Nat) := pageParts va n (n / 4096 + 2)

/-- The physical ranges of a virtual range under pinned translations. -/
def physOf (pins : SMap Nat) (va n : Nat) : List (Nat × Nat) := (partsOf va n).map fun p => (pinned pins p.1, p.2)

namespace State

/-- Bytes read through pinned translations: coherent reads where the page is host-shared (R444, R453). -/
def rdV (s : State) (pins : SMap Nat) (va n : Nat) : Bytes :=
  (partsOf va n).flatMap fun p => if shared pins p.1 then s.cohRead (pinned pins p.1) p.2 else s.rdBytes (pinned pins p.1) p.2

/-- A little-endian number read through pinned translations. -/
def rdVNat (s : State) (pins : SMap Nat) (va n : Nat) : Nat := leNat (s.rdV pins va n)

/-- Some codeword of a virtual range reads uncorrectable. -/
def badV (s : State) (pins : SMap Nat) (va n : Nat) : Bool := (physOf pins va n).any fun p => s.badIn p.1 p.2

/-- A write of the range would cover part of an uncorrectable codeword. -/
def partialBadV (s : State) (pins : SMap Nat) (va n : Nat) : Bool := (physOf pins va n).any fun p => s.partialBad p.1 p.2

/-- Bytes written through pinned translations, piece by piece: coherent writes where the page is host-shared. -/
def wrParts (s : State) (pins : SMap Nat) (bs : Bytes) : List (Nat × Nat) → State
  | [] => s
  | (va, n) :: t =>
    let s1 := if shared pins va then s.cohWrite (pinned pins va) (bs.take n) else s.wrBytes (pinned pins va) (bs.take n)
    wrParts s1 pins (bs.drop n) t

def wrV (s : State) (pins : SMap Nat) (va : Nat) (bs : Bytes) : State := s.wrParts pins bs (partsOf va bs.length)

/-- The lots that a virtual range reaches through pinned translations. -/
def lotsV (pins : SMap Nat) (va n : Nat) : List Nat := (physOf pins va n).flatMap fun p => lotsOf p.1 p.2

/-- A virtual range read as a touch of its lots (R217), counted where it is host-shared (R465). -/
def touchV (s : State) (pins : SMap Nat) (va n : Nat) : State :=
  (partsOf va n).foldl (fun t p => if shared pins p.1 then t.countCoh (pinned pins p.1) p.2 Reg.COH_DEV_RD else t)
    ((lotsV pins va n).foldl (fun t l => t.touchLot l false) s)

end State

end Sys2Proof.Machine
end

