-- ==== Sys2Proof/Machine/Descs.lean ====
section
/-! DEFINITION. Streams and their fetched descriptors (R152, R156, R160 to R165, R167): contexts, fields, phases. -/

namespace Sys2Proof.Machine

/-- Status codes of R186. -/
def stOk : Nat := 0x00
def stEmpty : Nat := 0x01
def stDescFault : Nat := 0x10
def stXlateFault : Nat := 0x11
def stIndexFault : Nat := 0x12
def stNotOwner : Nat := 0x13
def stStale : Nat := 0x14
def stBusy : Nat := 0x15
def stWindow : Nat := 0x16
def stUncorr : Nat := 0x20
def stRetired : Nat := 0x21
def stAborted : Nat := 0x22
def stGap : Nat := 0x23
def stSkipNonfinite : Nat := 0x30
def stSkipNorm : Nat := 0x31
def stAbandoned : Nat := 0x40
/-- POSITION and OPERAND when there is none (R185). -/
def posNone : Nat := 0xFFFFFFFFFFFF
def opNone : Nat := 0xF

namespace State

/-- Key of a stream: die code and index. -/
def streamKey (d : Die) (n : Nat) : Nat := dieCode d * 2 ^ 14 + n

/-- The front end's data of a stream. -/
def stream (s : State) (d : Die) (n : Nat) : Stream := SMap.getD s.streams (streamKey d n) Stream.init

/-- `s` with the front end's data of a stream set. -/
def setStream (s : State) (d : Die) (n : Nat) (x : Stream) : State :=
  { s with streams := SMap.put s.streams (streamKey d n) x }

/-- The fetched descriptor of a stream whose slot is `q`. -/
def desc? (s : State) (d : Die) (n q : Nat) : Option Desc := (s.stream d n).fetched.find? fun x => x.slot == q

/-- `s` with the fetched descriptor in slot `q` changed. -/
def updDesc (s : State) (d : Die) (n q : Nat) (f : Desc → Desc) : State :=
  let x := s.stream d n
  s.setStream d n { x with fetched := x.fetched.map fun e => if e.slot == q then f e else e }

/-- Word `k` of a stream's context (R152). -/
def ctxWord (s : State) (d : Die) (n k : Nat) : Nat := s.word (fePg d) (0x100 + 4 * k) n

/-- `s` with a context word set. -/
def setCtxWord (s : State) (d : Die) (n k v : Nat) : State := s.setWord (fePg d) (0x100 + 4 * k) v n

/-- A field of a context: byte offset, lowest bit, width up to 64 (R152). -/
def ctx (s : State) (d : Die) (n byte lo w : Nat) : Nat :=
  bitsOf (s.ctxWord d n (byte / 4) + s.ctxWord d n (byte / 4 + 1) <<< 32) (lo + 8 * (byte % 4)) w

def ctxManifest (s : State) (d : Die) (n : Nat) : Nat := s.ctx d n 0 0 57
def ctxCompletion (s : State) (d : Die) (n : Nat) : Nat := s.ctx d n 8 0 57
def ctxRoot (s : State) (d : Die) (n : Nat) : Nat := s.ctx d n 16 0 60
def ctxAsid (s : State) (d : Die) (n : Nat) : Nat := s.ctx d n 16 44 16
def ctxMode (s : State) (d : Die) (n : Nat) : Nat := s.ctx d n 20 28 4
def ctxLog2 (s : State) (d : Die) (n : Nat) : Nat := s.ctx d n 24 0 5
def ctxFill (s : State) (d : Die) (n : Nat) : Bool := s.ctx d n 25 0 1 == 1
def ctxPrio (s : State) (d : Die) (n : Nat) : Nat := s.ctx d n 25 1 3
def ctxCpt (s : State) (d : Die) (n : Nat) : Nat := s.ctx d n 26 0 6
def ctxEngine (s : State) (d : Die) (n : Nat) : Nat := s.ctx d n 27 0 7
def ctxHead (s : State) (d : Die) (n : Nat) : Nat := s.ctx d n 28 0 16
def ctxTail (s : State) (d : Die) (n : Nat) : Nat := s.ctx d n 30 0 16
def ctxNextSeq (s : State) (d : Die) (n : Nat) : Nat := s.ctx d n 32 0 32
def ctxSeed (s : State) (d : Die) (n : Nat) : Nat := s.ctx d n 40 0 64
def ctxMilestone (s : State) (d : Die) (n : Nat) : Nat := s.ctx d n 48 0 64
def ctxSlots (s : State) (d : Die) (n : Nat) : Nat := 2 ^ s.ctxLog2 d n

def setHead (s : State) (d : Die) (n v : Nat) : State := s.setCtxWord d n 7 (putBits (s.ctxWord d n 7) 0 16 v)
def setTail (s : State) (d : Die) (n v : Nat) : State := s.setCtxWord d n 7 (putBits (s.ctxWord d n 7) 16 16 v)
def setNextSeq (s : State) (d : Die) (n v : Nat) : State := s.setCtxWord d n 8 (v % 2 ^ 32)
def setDoneSeq (s : State) (d : Die) (n v : Nat) : State := s.setCtxWord d n 9 v

/-- The states of R153: 0 DISABLED, 1 ENABLED, 2 DRAINING, 3 HALTED. -/
def streamState (s : State) (d : Die) (n : Nat) : Nat := s.getF (fePg d) Reg.FE_CTX_STATE_STATE n

/-- `s` with a stream's state set, FE_ACTIVE following it (R198). -/
def setStreamState (s : State) (d : Die) (n v : Nat) : State :=
  let was := s.streamState d n
  let act (x : Nat) : Bool := x == 1 || x == 2
  let s1 := s.setF (fePg d) Reg.FE_CTX_STATE_STATE v n
  let c := s.getF (fePg d) Reg.FE_ACTIVE
  if act v && !act was then s1.setF (fePg d) Reg.FE_ACTIVE (c + 1)
  else if !act v && act was then s1.setF (fePg d) Reg.FE_ACTIVE (c - 1)
  else s1

/-- OLDEST of R156: the slot of the oldest descriptor without a record. -/
def oldest (s : State) (d : Die) (n : Nat) : Nat :=
  match (s.stream d n).fetched with
  | [] => s.ctxHead d n
  | x :: _ => x.slot

/-- An engine's scheduler. -/
def engine (s : State) (d : Die) (e : Nat) : Engine := SMap.getD s.engines (dieCode d * 128 + e) Engine.init

/-- `s` with an engine's scheduler set. -/
def setEngine (s : State) (d : Die) (e : Nat) (x : Engine) : State :=
  { s with engines := SMap.put s.engines (dieCode d * 128 + e) x }

/-- `s` with one array changed. -/
def updArr (s : State) (d : Die) (e a : Nat) (f : Arr → Arr) : State :=
  let x := s.engine d e
  s.setEngine d e { x with arrays := x.arrays.zipIdx.map fun p => if p.2 == a then f p.1 else p.1 }

/-- The live mask of an engine (R136). -/
def liveMask (s : State) (d : Die) (e : Nat) : Nat := s.getF (engPg d e) Reg.ENG_CAP_LIVE_MASK

/-- The live mask and count of an engine set (R136). -/
def setLive (s : State) (d : Die) (e m : Nat) : State :=
  (s.setF (engPg d e) Reg.ENG_CAP_LIVE_MASK m).setF (engPg d e) Reg.ENG_CAP_LIVE_COUNT (popCount m 4)

end State

namespace Desc

/-- A field of the 64 bytes: byte offset, lowest bit, width. -/
def f (x : Desc) (byte lo w : Nat) : Nat := bitsOf x.raw (8 * byte + lo) w
/-- A field of the layout record (R173). -/
def lay (x : Desc) (byte w : Nat) : Nat := bitsOf x.layout (8 * byte) w
def op (x : Desc) : Nat := x.f 0 0 8
def irq (x : Desc) : Bool := x.f 1 0 1 == 1
def sigAny (x : Desc) : Bool := x.f 1 1 1 == 1
def rel (x : Desc) : Bool := x.f 1 2 1 == 1
def fmt (x : Desc) (k : Nat) : Nat := x.f 2 (4 * k) 4
def waitTally (x : Desc) : Nat := x.f 8 0 14
def waitMode (x : Desc) : Nat := x.f 8 14 2
def sigTally (x : Desc) : Nat := x.f 10 0 14
def sigMode (x : Desc) : Nat := x.f 10 14 2
def value (x : Desc) : Nat := x.f 12 0 32
/-- An address field. -/
def addr (x : Desc) (byte : Nat) : Nat := x.f byte 0 57

end Desc

namespace State

/-- A FOREGROUND descriptor stopped running or being ready: the idle count of its engine starts again (R191). -/
def noteIdle (s : State) (d : Die) (n : Nat) : State :=
  if s.ctxFill d n then s
  else s.setEngine d (s.ctxEngine d n) { s.engine d (s.ctxEngine d n) with idleSince := s.base }

/-- `s` with a descriptor ended: its status, and POSITION with OPERAND where the status gives one (R185). -/
def endDesc (s : State) (d : Die) (n q st : Nat) (pos : Nat := posNone) (operand : Nat := opNone) : State :=
  s.updDesc d n q fun x => { x with phase := .ended, status := st, position := pos, operand := operand }

/-- A targeted self-test pauses the stream (R624). -/
def streamPaused (s : State) (d : Die) (n : Nat) : Bool := s.tests.any fun t => t.paused.contains (streamKey d n)

/-- Every earlier fetched descriptor of the stream has ended. -/
def earlierEnded (s : State) (d : Die) (n q : Nat) : Bool :=
  ((s.stream d n).fetched.takeWhile fun x => x.slot != q).all fun x => x.phase == .ended

end State

end Sys2Proof.Machine
end

