-- ==== Sys2Proof/Machine/Tallies.lean ====
section
/-! DEFINITION. Tallies, waits and locks (R466 to R471, R476 to R486, R489): the operations that the commands of several
families share. -/

namespace Sys2Proof.Machine

/-- The page of the spine die that holds a tally (R466). -/
def talPg (t : Nat) : Page := ⟨spineRing.getD (t >>> 11) .C0, .tal, 0⟩
def talSlot (t : Nat) : Nat := t % 2048

/-- a precedes b among sequence numbers (R158). -/
def precedes (a b : Nat) : Bool :=
  let x := (b + 2 ^ 32 - a % 2 ^ 32) % 2 ^ 32
  decide (0 < x) && decide (x < 2 ^ 31)

/-- A value meets a wait (R469); a lock's queue is met by a grant only. -/
def WaitFor.met (w : WaitFor) (v : Nat) : Bool :=
  match w with
  | .hdrGe x => !precedes (v % 2 ^ 32) x
  | .hdrEq x => v % 2 ^ 32 == x
  | .ge x => decide (x ≤ v)
  | .eq x => v == x
  | .lock _ => false

def WaitFor.isLock (w : WaitFor) : Bool := match w with | .lock _ => true | _ => false

namespace State

def tally (s : State) (t : Nat) : Tally := SMap.getD s.tallies t Tally.init
def setTally (s : State) (t : Nat) (x : Tally) : State := { s with tallies := SMap.put s.tallies t x }

/-- The tally's owner; none under owner record 0x7F (R467). -/
def tallyOwner (s : State) (t : Nat) : Option Nat := if s.owner 2 t < 64 then some (s.owner 2 t) else none

/-- Waiter entries in use on the die of a tally (R470). -/
def waitEntries (s : State) (t : Nat) : Nat :=
  ((s.tallies.filter fun e => e.1 >>> 11 == t >>> 11).map fun e => e.2.waiters.length).foldl (· + ·) 0

/-- The descriptor of a waiter goes on: a header wait is met, a TALLY_WAIT completes (R469, R478). -/
def wakeWaiter (s : State) (w : Waiter) (st : Nat) : State :=
  let d := dieOf w.die
  let x := s.stream d w.n
  State.noteIdle (d := d) (n := w.n) <| s.setStream d w.n { x with fetched := x.fetched.map fun e =>
    if e.seq == w.seq then
      match w.what with
      | .hdrGe _ | .hdrEq _ => { e with waitMet := true }
      | _ => if e.phase == .running then { e with phase := .ended, status := st, position := posNone, operand := opNone } else e
    else e }

/-- Tests every waiter of a tally against its value; the met ones leave in order (R469). -/
def testWaiters (s : State) (t : Nat) : State :=
  let x := s.tally t
  let met := x.waiters.filter fun w => w.what.met x.value
  met.foldl (fun a w => a.wakeWaiter w stOk) (s.setTally t { x with waiters := x.waiters.filter fun w => !w.what.met x.value })

/-- One operation applied to a tally, atomically (R468): an add modulo 2^64 or a set. -/
def tallyApply (s : State) (o : TallyOp) : State :=
  let x := s.tally o.t
  ((s.setTally o.t { x with value := if o.set then o.v % 2 ^ 64 else (x.value + o.v) % 2 ^ 64 }).bump
    (talPg o.t) Reg.TAL_OPS).testWaiters o.t

/-- A wait that finds no free entry polls from then on; each such wait is counted once (R470, R491). -/
def startPoll (s : State) (t : Nat) (w : Waiter) : State :=
  (({ s with polls := s.polls ++ [(t, w)] }).bump (talPg t) Reg.TAL_WAITER_FULL).raise (talPg t) 0

/-- A wait registered at its tally: met at once, entered, or polled (R469, R470). -/
def registerWait (s : State) (t : Nat) (w : Waiter) : State :=
  let x := s.tally t
  if w.what.met x.value then s.wakeWaiter w stOk
  else if s.waitEntries t < 4096 then s.setTally t { x with waiters := x.waiters ++ [w] }
  else s.startPoll t w

/-- A grant of a lock to a holder for a lease in µs (R480). -/
def grantLock (s : State) (t : Nat) (h : Holder) (cpt leaseUs : Nat) : State :=
  s.setTally t { s.tally t with holder := some h, holderCpt := cpt, leaseEnd := s.base + leaseUs * 1000, paused := none }

/-- The status or code of a grant: LOCK_ABANDONED while ABANDONED is 1 (R480). -/
def grantStatus (s : State) (t : Nat) : Nat := if (s.tally t).abandoned then stAbandoned else stOk

/-- The lock freed, or granted to the oldest queued stream (R480). -/
def freeLock (s : State) (t : Nat) : State :=
  let x := s.tally t
  match x.waiters.find? fun w => w.what.isLock with
  | none => s.setTally t { x with holder := none, holderCpt := 0, leaseEnd := 0, paused := none }
  | some w =>
    let lease := match w.what with | .lock l => l | _ => 1
    let s1 := s.setTally t { x with waiters := x.waiters.filter fun v => !(v == w) }
    (s1.grantLock t (.stream w.die w.n) (s.ctxCpt (dieOf w.die) w.n) lease).wakeWaiter w (s.grantStatus t)

/-- A reset holder loses its lock: ABANDONED is set and counted, and the queue goes on (R480, R482, R491). -/
def abandonLock (s : State) (t : Nat) : State :=
  let s1 := s.setTally t { s.tally t with abandoned := true }
  let s2 := ((s1.bump (talPg t) Reg.TAL_ABANDONS).setF (talPg t) Reg.TAL_LAST_ABANDON_SLOT (talSlot t)).raise (talPg t) 1
  s2.freeLock t

/-- Every lock whose holder satisfies `p` is abandoned (R482). -/
def abandonWhere (s : State) (p : Holder → Bool) : State :=
  (s.tallies.filter fun e => match e.2.holder with | some h => p h | none => false).foldl (fun a e => a.abandonLock e.1) s

/-- The waits of a stream leave every tally and every poll. -/
def dropWaits (s : State) (d : Die) (n : Nat) : State :=
  let mine (w : Waiter) : Bool := w.die == dieCode d && w.n == n
  { s with
    tallies := s.tallies.map fun e => (e.1, { e.2 with waiters := e.2.waiters.filter fun w => !mine w })
    polls := s.polls.filter fun p => !mine p.2 }

/-- A read of TALW_TRY by a hart: its code, and the grant it takes (R480, R489). -/
def lockTry (s : State) (h t : Nat) : Nat × State :=
  let x := s.tally t
  let lease := s.getF (talPg t) Reg.TAL_CORE_LEASE_US (talSlot t)
  let c := (s.hartCpt h).getD 0
  let code := if x.abandoned then 2 else 1
  if x.mode != 2 then (3, s)
  else
    match x.holder with
    | none => (code, s.grantLock t (.hart h) c lease)
    -- the holding hart: the lease restarts, and the code is that of a grant (R480)
    | some k => if k == .hart h then (code, s.grantLock t (.hart h) c lease) else (0, s)

end State

end Sys2Proof.Machine
end

