-- ==== Sys2Proof/Machine/Checks.lean ====
section
/-! DEFINITION. What a front end checks at fetch (R12, R125 to R127, R160 to R162, R167 to R184, R677), and the footprint of
each opcode (R161). -/

namespace Sys2Proof.Machine

/-- The opcodes of R172. -/
def opcodes : List Nat := [0x01, 0x02, 0x08, 0x09, 0x10, 0x11, 0x12, 0x18, 0x19, 0x20, 0x21, 0x28, 0x29, 0x2A, 0x2B, 0x30,
  0x38, 0x39, 0x3A, 0x3B, 0x3C, 0x3F]

/-- The bits [lo+w-1:lo] as a mask, `lo` counted from byte `byte`. -/
def fieldMask (byte lo w : Nat) : Nat := (2 ^ w - 1) <<< (8 * byte + lo)

/-- Address fields at the given bytes. -/
def addrMask (bytes : List Nat) : Nat := bytes.foldl (fun m b => m ||| fieldMask b 0 57) 0

/-- The bits of a descriptor's body that the map of its opcode lists (R173 to R184). -/
def bodyMask (x : Desc) : Nat :=
  match x.op with
  | 0x01 | 0x02 => addrMask [16, 24, 32, 40] ||| fieldMask 48 0 117
  | 0x08 =>
    addrMask [16, 24, 32, 40] ||| (if x.f 60 0 3 == 4 then fieldMask 24 0 64 else 0) ||| fieldMask 48 0 56 |||
      fieldMask 55 0 40 ||| fieldMask 60 0 4
  | 0x09 => addrMask [16, 24, 32, 40] ||| fieldMask 48 0 64 ||| fieldMask 56 0 13 ||| fieldMask 58 0 16
  | 0x10 => addrMask [16, 24] ||| fieldMask 32 0 128 ||| fieldMask 48 0 1 ||| fieldMask 56 0 64
  | 0x11 => addrMask [16] ||| fieldMask 24 0 13 ||| fieldMask 26 0 2
  | 0x12 => addrMask [16, 24] ||| fieldMask 32 0 96
  | 0x18 | 0x19 => addrMask [16, 24, 32, 40] ||| fieldMask 48 0 64 ||| fieldMask 56 0 5
  | 0x20 => addrMask [16, 24, 32, 40] ||| fieldMask 48 0 96 ||| fieldMask 60 0 7
  | 0x21 => addrMask [16, 24] ||| fieldMask 32 0 128
  | 0x28 => addrMask [16, 24, 32, 40] ||| fieldMask 48 0 48 ||| fieldMask 54 0 2
  | 0x29 => addrMask [16, 24, 32, 40] ||| fieldMask 48 0 32 ||| fieldMask 52 0 13 ||| fieldMask 54 0 2
  | 0x2A | 0x2B => addrMask [16] ||| fieldMask 24 0 59 ||| fieldMask 32 0 128
  | 0x30 => addrMask [16, 24] ||| fieldMask 32 0 128
  | 0x38 => fieldMask 16 0 2
  | 0x39 | 0x3A => fieldMask 16 0 17 ||| fieldMask 24 0 64
  | 0x3B => fieldMask 16 0 14 ||| fieldMask 20 0 32
  | 0x3C => fieldMask 16 0 14
  | _ => 0

/-- The format nibbles that the map of an opcode uses (R172). -/
def fmtUsed (op k : Nat) : Bool :=
  match op with
  | 0x01 | 0x08 | 0x20 => true
  | 0x02 | 0x09 => decide (k < 3)
  | 0x12 | 0x18 | 0x19 | 0x28 | 0x29 | 0x30 => k == 0
  | _ => false

/-- The byte of the lowest set bit of `m`, among the 64 bytes from byte `b` on. -/
def lowByte (m b : Nat) : Nat → Option Nat
  | 0 => none
  | n + 1 => if bitsOf m (8 * b) 8 != 0 then some b else lowByte m (b + 1) n

/-- A rule with the byte offset of its field; the rules that are broken give their offsets. -/
def broken (l : List (Bool × Nat)) : List Nat := l.filterMap fun p => if p.1 then none else some p.2

/-- The least of a list of positions. -/
def leastPos (l : List Nat) : Option Nat :=
  match l with
  | [] => none
  | p :: t => some (t.foldl min p)

/-! ### MATMUL (R125 to R127, R173 to R175) -/

namespace Desc

def mm (x : Desc) (lo w : Nat) : Nat := x.f 48 lo w
def mmM (x : Desc) : Nat := x.mm 0 25
def mmN (x : Desc) : Nat := x.mm 25 25
def mmK (x : Desc) : Nat := x.mm 50 21
def mmK0 (x : Desc) : Nat := x.mm 71 21
def mmKC (x : Desc) : Nat := x.mm 92 21
def mmRnd (x : Desc) : Nat := x.mm 113 3
def mmSplit (x : Desc) : Bool := x.mm 116 1 == 1
def mmAcc (x : Desc) : Bool := x.op == 0x02
def biasAddr (x : Desc) : Nat := x.lay 0 57
def aScale (x : Desc) : Nat := x.lay 8 57
def bScale (x : Desc) : Nat := x.lay 16 57
def outScale (x : Desc) : Nat := x.lay 24 57
def aStride (x : Desc) : Nat := x.lay 32 32
def bStride (x : Desc) : Nat := x.lay 36 32
def outStride (x : Desc) : Nat := x.lay 40 32
def biasStride (x : Desc) : Nat := x.lay 44 32
def aScaleStride (x : Desc) : Nat := x.lay 48 16
def bScaleStride (x : Desc) : Nat := x.lay 50 16
def outScaleStride (x : Desc) : Nat := x.lay 52 32
def srBase (x : Desc) : Nat := x.lay 56 48
def srSite (x : Desc) : Nat := x.lay 62 16

/-- Bytes of a row of `n` elements of a format. -/
def rowBytes (c n : Nat) : Nat := ceilDiv (n * fmtBits c) 8

/-- Bytes of one output row: elements, or partial records of 32 bytes (R128). -/
def outRow (x : Desc) : Nat := if x.mmSplit then 32 * x.mmN else rowBytes (x.fmt 2) x.mmN

/-- The output is in an MX format with a scale plane. -/
def outMx (x : Desc) : Bool := isMx (x.fmt 2) && !x.mmSplit

end Desc

/-- The add range of a split-K descriptor fits its mode (R127). -/
def splitRangeOk (k : MatKind) (kk k0 kc : Nat) : Bool :=
  match k with
  | .paired =>
    let m := ceilDiv kc 2048
    let l := clog2 m
    let c := k0 / 2048
    k0 % 2048 == 0 && c % 2 ^ l == 0 && (k0 + kc == kk || kc == 2048 * 2 ^ l)
  | _ => k0 % 32 == 0 && (kc % 32 == 0 || k0 + kc == kk)

/-- The rules of a MATMUL body that need no layout record. -/
def matmulRules (x : Desc) : List (Bool × Nat) :=
  let kind := matKind (x.fmt 0) (x.fmt 1)
  let kmax := if kind == some .paired then 262144 else 1048576
  [(kind.isSome, 2),
   (x.mmSplit || (match kind with | some k => matOutOk k (x.fmt 2) | none => true), 3),
   (!x.mmSplit || x.fmt 2 == 0, 3),
   (x.fmt 3 == 0 || (!x.mmAcc && decide (7 ≤ x.fmt 3) && decide (x.fmt 3 ≤ 10)), 3),
   (x.addr 16 % 64 == 0, 16), (x.addr 24 % 64 == 0, 24), (x.addr 40 % 64 == 0, 40),
   (decide (x.mmM ≤ 2 ^ 24), 48), (decide (x.mmN ≤ 2 ^ 24), 51), (decide (x.mmK ≤ kmax), 54),
   (x.mmSplit || x.mmK0 == 0, 56), (x.mmSplit || x.mmKC == 0, 59),
   (!x.mmSplit || (decide (1 ≤ x.mmKC) && decide (x.mmK0 + x.mmKC ≤ x.mmK)), 59),
   (!x.mmSplit || (match kind with | some k => splitRangeOk k x.mmK x.mmK0 x.mmKC | none => true), 56),
   (decide (x.mmRnd < 5), 62), (!(x.mmSplit && x.mmAcc), 62)]

/-- The last byte of `rows` rows, computed in 64-bit arithmetic, lies below 2^45 (R126). -/
def lastOk (base rows stride len : Nat) : Bool :=
  rows == 0 || len == 0 || decide ((base + (rows - 1) * stride + len - 1) % 2 ^ 64 < 2 ^ 45)

/-- The rules of a MATMUL that its layout record decides (R126, R173): a fault in the record counts at byte 40. R126 does not say whether
a scale plane or the FP32 tensor scale of an INT8 operand is an operand whose last byte counts: here the planes of MX operands do and
the tensor scales do not (DESIGN CHOICE, notes/assumptions/71.md). -/
def layoutRules (x : Desc) : List (Bool × Nat) :=
  let fa := x.fmt 0
  let fb := x.fmt 1
  let bias := !x.mmAcc && x.biasAddr != 0
  let top (byte : Nat) : Bool := x.lay (byte + 7) 8 < 2
  let nb := ceilDiv x.mmK 32
  [(top 0 && top 8 && top 16 && top 24, 40),
   (!(x.mmAcc && x.biasAddr != 0), 40),
   (isMx fa || fa == 6 || x.aScale == 0, 40), (isMx fb || fb == 6 || x.bScale == 0, 40), (x.outMx || x.outScale == 0, 40),
   (if bias then decide (7 ≤ x.fmt 3) && decide (x.fmt 3 ≤ 10) else x.fmt 3 == 0, 3),
   (decide (Desc.rowBytes fa x.mmK ≤ x.aStride), 40), (decide (Desc.rowBytes fb x.mmN ≤ x.bStride), 40),
   (decide (x.outRow ≤ x.outStride), 40), (!bias || decide (Desc.rowBytes (x.fmt 3) x.mmN ≤ x.biasStride), 40),
   (!isMx fa || decide (nb ≤ x.aScaleStride), 40), (!isMx fb || decide (nb ≤ x.bScaleStride), 40),
   (!x.outMx || decide (ceilDiv x.mmN 32 ≤ x.outScaleStride), 40),
   (lastOk (x.addr 16) x.mmM x.aStride (Desc.rowBytes fa x.mmK), 16),
   (lastOk (x.addr 24) x.mmK x.bStride (Desc.rowBytes fb x.mmN), 24),
   (lastOk (x.addr 32) x.mmM x.outStride x.outRow, 32),
   (!bias || lastOk x.biasAddr x.mmM x.biasStride (Desc.rowBytes (x.fmt 3) x.mmN), 40),
   (!isMx fa || lastOk x.aScale x.mmM x.aScaleStride nb, 40), (!isMx fb || lastOk x.bScale x.mmN x.bScaleStride nb, 40),
   (!x.outMx || lastOk x.outScale x.mmM x.outScaleStride (ceilDiv x.mmN 32), 40)]

/-! ### VECTOR and REDUCE_LOCAL (R176 to R179) -/

namespace Desc
def vop (x : Desc) : Nat := x.f 55 0 8
def vRnd (x : Desc) : Nat := x.f 60 0 3
def vImm (x : Desc) : Bool := x.f 60 3 1 == 1
def vRowLen (x : Desc) : Nat := x.f 48 0 32
def vRows (x : Desc) : Nat := x.f 52 0 24
end Desc

/-- The VOPs of R177: two sources, three sources, functions, reductions. -/
def vopBinary (v : Nat) : Bool := v == 1 || v == 2 || v == 3 || v == 5 || v == 7 || v == 8 || v == 0x32
def vopUses1 (v : Nat) : Bool := vopBinary v || v == 4
def vopFunction (v : Nat) : Bool := decide (0x10 ≤ v) && decide (v ≤ 0x16)
def vopReduces (v : Nat) : Bool := decide (0x30 ≤ v) && decide (v ≤ 0x33)
def vopKnown (v : Nat) : Bool :=
  (decide (1 ≤ v) && decide (v ≤ 8)) || vopFunction v || v == 0x20 || vopReduces v

/-- BF16, FP16 or FP32. -/
def isVec (c : Nat) : Bool := c == 7 || c == 8 || c == 9

/-- The rules of a VECTOR body (R87, R176 to R178). -/
def vectorRules (x : Desc) : List (Bool × Nat) :=
  let v := x.vop
  let cvt := v == 0x20
  [(isVec (x.fmt 0) || (cvt && x.fmt 0 == 10), 2),
   (!vopUses1 v || x.vImm || isVec (x.fmt 1), 2),
   (v != 4 || isVec (x.fmt 2), 3),
   (isVec (x.fmt 3) || (cvt && (isMx (x.fmt 3) || x.fmt 3 == 10)), 3),
   (!x.vImm || x.f 24 0 64 == 0, 24),
   (v == 4 || (cvt && isMx (x.fmt 3)) || x.addr 32 == 0, 32),
   (vopKnown v, 55),
   (decide (x.vRnd < 4) || (x.vRnd == 4 && cvt), 60),
   (!vopFunction v || x.vRnd == 0, 60)]

namespace Desc
def rStride (x : Desc) : Nat := x.f 48 0 32
def rCount (x : Desc) : Nat := x.f 52 0 32
def rContrib (x : Desc) : Nat := x.f 56 0 13
def rKind (x : Desc) : Nat := x.f 58 0 2
def rRnd (x : Desc) : Nat := x.f 58 2 3
def rInit (x : Desc) : Nat := x.f 58 5 2
def rFinal (x : Desc) : Bool := x.f 58 7 1 == 1
def rChunks (x : Desc) : Nat := x.f 59 0 8
/-- KIND 0 with FINAL. -/
def rFin0 (x : Desc) : Bool := x.rKind == 0 && x.rFinal
end Desc

/-- The rules of a REDUCE_LOCAL body (R100, R179). A final merge of MX records takes no MX output format, for which REDUCE_LOCAL names no
scale plane and the spec states no refusal: DESC_FAULT at byte 2 (DESIGN CHOICE, notes/assumptions/71.md). -/
def reduceRules (x : Desc) : List (Bool × Nat) :=
  let k := x.rKind
  let biased := x.rFin0 && x.rInit == 1
  [(!(k == 1 || k == 2) || (decide (11 ≤ x.fmt 0) && decide (x.fmt 0 ≤ 13)), 2),
   (!x.rFin0 || isVec (x.fmt 1), 2),
   (if biased then decide (7 ≤ x.fmt 2) && decide (x.fmt 2 ≤ 10) else x.fmt 2 == 0, 3),
   (biased || k == 1 || x.addr 32 == 0, 32), (k == 1 || x.addr 40 == 0, 40),
   (decide (x.rContrib ≤ 4096), 56),
   (decide (x.rRnd < 4), 58), (!x.rFin0 || x.rInit != 3, 58),
   (k == 0 || x.rChunks == 0, 59), (decide (x.rChunks ≤ 128), 59)]

/-! ### The other bodies -/

/-- The rules of the bodies of the system opcodes and of those whose chapters add none that the body decides alone. -/
def systemRules (x : Desc) : List (Bool × Nat) :=
  match x.op with
  | 0x11 => [(decide (x.f 24 0 13 ≤ 4096), 24), (x.f 26 0 2 != 3, 26)]
  | 0x18 | 0x19 =>
    let pool := x.f 56 0 2
    [(isVec (x.fmt 0), 2), (x.addr 16 % 64 == 0, 16), (pool == 3 || (pool == 0) == (x.addr 32 == 0), 32),
     (decide (x.f 48 0 32 ≤ 1048576), 48),
     (if pool == 3 then true else if pool == 0 then x.f 52 0 32 == x.f 48 0 32 else decide (1 ≤ x.f 52 0 32) && decide (x.f 52 0 32 ≤ 1048576), 52),
     (pool != 3, 56), (if x.op == 0x18 then decide (x.f 56 2 3 < 4) else x.f 56 2 3 == 0 || x.f 56 2 3 == 4, 56)]
  | 0x20 =>
    [(x.fmt 0 == 10, 2), (decide (11 ≤ x.fmt 1) && decide (x.fmt 1 ≤ 13), 2), (x.fmt 2 == 7 || x.fmt 2 == 9, 3),
     (decide (x.fmt 3 ≤ 5) || isVec (x.fmt 3), 3), (x.addr 16 % 65536 == 0, 16),
     (x.addr 32 % 64 == 0, 32), (x.f 56 0 32 != 0 && x.f 56 0 32 % 65536 == 0, 56),
     (decide (x.f 60 0 4 ≤ 8), 60), (x.f 60 4 3 == 0 || x.f 60 4 3 == 4, 60)]
  | 0x21 =>
    [(x.addr 16 % 65536 == 0, 16), (x.f 40 0 32 != 0 && x.f 40 0 32 % 65536 == 0, 40), (decide (10 ≤ x.f 44 0 32), 44)]
  | 0x29 => [(x.addr 40 % 64 == 0, 40), (decide (x.f 52 0 13 ≤ 4096), 52)]
  | 0x28 => [(x.addr 32 % 64 == 0, 32)]
  | 0x2A => [(x.f 31 0 2 != 3, 31), (x.f 28 14 9 == 0, 28)]
  | 0x30 => [(x.addr 16 % 64 == 0, 16)]
  | 0x2B => [(decide (16 ≤ x.f 24 0 32), 24), (x.f 28 14 9 == 0, 28), (x.f 31 0 2 == 0, 31), (x.f 32 0 64 == 0, 32), (x.f 40 0 32 == 0, 40)]
  | 0x39 => [(x.f 16 14 2 == 1 || x.f 16 14 2 == 2, 17)]
  | 0x3A => [(decide (x.f 16 14 2 < 2), 17)]
  | 0x3B => [(x.f 20 0 32 != 0, 20)]
  | _ => []

/-- The rules of the header (R12, R168, R170, R171, R172). -/
def headerRules (s : State) (cpt : Nat) (x : Desc) : List (Bool × Nat) :=
  let fmtOk (k : Nat) : Bool := if fmtUsed x.op k then decide (x.fmt k < 14) else x.fmt k == 0
  let tallyOk (t : Nat) : Bool := s.tallyOwner t == some cpt && (s.tally t).mode != 2
  [(opcodes.contains x.op, 0), (x.f 1 4 4 == 0, 1),
   (fmtOk 0 && fmtOk 1, 2), (fmtOk 2 && fmtOk 3, 3),
   (x.waitMode == 0 || x.waitMode == 3 || tallyOk x.waitTally, 8), (x.waitMode != 3, 9),
   (x.sigMode == 0 || x.sigMode == 3 || tallyOk x.sigTally, 10), (x.sigMode != 3, 11),
   (!(x.waitMode != 0 && x.sigMode == 2), 11)]

/-- The rules of a body by opcode. -/
def bodyRules (x : Desc) : List (Bool × Nat) :=
  match x.op with
  | 0x01 | 0x02 => matmulRules x
  | 0x08 => vectorRules x
  | 0x09 => reduceRules x
  | _ => systemRules x

/-! ### Footprints -/

/-- `rows` rows of `len` bytes, `stride` apart. -/
def rowsOf (base rows stride len : Nat) (wr : Bool) : List VRange :=
  if len == 0 then [] else (List.range rows).map fun i => ⟨base + i * stride, len, wr⟩

/-- The first rows of a MATMUL's A, B and output, which lie in its footprint whatever its layout record says. -/
def matmulFirst (x : Desc) : List VRange :=
  if x.mmM == 0 || x.mmN == 0 || x.mmSplit then []
  else
    rowsOf (x.addr 16) 1 0 (Desc.rowBytes (x.fmt 0) x.mmK) false
      ++ (if x.mmK == 0 then [] else rowsOf (x.addr 24) 1 0 (Desc.rowBytes (x.fmt 1) x.mmN) false)
      ++ rowsOf (x.addr 32) 1 0 x.outRow true

/-- The footprint of a MATMUL whose layout record is known: of A and B what the add range reads, of their scale planes all that the
pre-pass reads (R127, R161). -/
def matmulFoot (x : Desc) : List VRange :=
  let fa := x.fmt 0
  let fb := x.fmt 1
  let lay : List VRange := [⟨x.addr 40, 64, false⟩]
  if x.mmM == 0 || x.mmN == 0 then lay
  else
    let nb := ceilDiv x.mmK 32
    let k0 := if x.mmSplit then x.mmK0 else 0
    let kc := if x.mmSplit then x.mmKC else x.mmK
    let lo := fmtBits fa * k0 / 8
    lay ++ rowsOf (x.addr 16 + lo) x.mmM x.aStride (Desc.rowBytes fa (k0 + kc) - lo) false
      ++ rowsOf (x.addr 24 + k0 * x.bStride) kc x.bStride (Desc.rowBytes fb x.mmN) false
      ++ rowsOf (x.addr 32) x.mmM x.outStride x.outRow true
      ++ (if x.mmAcc then rowsOf (x.addr 32) x.mmM x.outStride x.outRow false else [])
      ++ (if !x.mmAcc && x.biasAddr != 0 then rowsOf x.biasAddr x.mmM x.biasStride (Desc.rowBytes (x.fmt 3) x.mmN) false else [])
      ++ (if isMx fa then rowsOf x.aScale x.mmM x.aScaleStride nb false else if fa == 6 && x.mmK != 0 then [⟨x.aScale, 4, false⟩] else [])
      ++ (if isMx fb then rowsOf x.bScale x.mmN x.bScaleStride nb false else if fb == 6 && x.mmK != 0 then [⟨x.bScale, 4, false⟩] else [])
      ++ (if x.outMx then rowsOf x.outScale x.mmM x.outScaleStride (ceilDiv x.mmN 32) true else [])
      -- MATMUL_ACC reads the existing output element in the output format, an MX one with its scale (R123)
      ++ (if x.mmAcc && x.outMx then rowsOf x.outScale x.mmM x.outScaleStride (ceilDiv x.mmN 32) false else [])

/-- Results per VECTOR descriptor: one per element, or one per row. -/
def vecOut (x : Desc) : Nat := if vopReduces x.vop then x.vRows else x.vRows * x.vRowLen

def vectorFoot (x : Desc) : List VRange :=
  let n := x.vRows * x.vRowLen
  if n == 0 then []
  else
    [⟨x.addr 16, Desc.rowBytes (x.fmt 0) n, false⟩, ⟨x.addr 40, Desc.rowBytes (x.fmt 3) (vecOut x), true⟩]
      ++ (if vopUses1 x.vop && !x.vImm then [⟨x.addr 24, Desc.rowBytes (x.fmt 1) n, false⟩] else [])
      ++ (if x.vop == 4 then [⟨x.addr 32, Desc.rowBytes (x.fmt 2) n, false⟩] else [])
      ++ (if x.vop == 0x20 && isMx (x.fmt 3) then [⟨x.addr 32, x.vRows * ceilDiv x.vRowLen 32, true⟩] else [])

/-- Bytes of one contributor of a REDUCE_LOCAL, and of its result. -/
def reduceLen (x : Desc) : Nat × Nat :=
  match x.rKind with
  | 0 => (32 * x.rCount, if x.rFinal then Desc.rowBytes (x.fmt 1) x.rCount else 32 * x.rCount)
  | 1 => (4 * fmtBits (x.fmt 0) * x.rCount, 4 * fmtBits (x.fmt 0) * x.rCount)
  | 2 => (x.rCount, x.rCount)
  | _ => (32 * x.rCount, 32 * x.rCount)

def reduceFoot (x : Desc) : List VRange :=
  if x.rContrib == 0 || x.rCount == 0 then []
  else
    rowsOf (x.addr 16) x.rContrib x.rStride (reduceLen x).1 false ++ [⟨x.addr 24, (reduceLen x).2, true⟩]
      ++ (if x.rFin0 && x.rInit == 2 then [⟨x.addr 24, (reduceLen x).2, false⟩] else [])
      ++ (if x.rFin0 && x.rInit == 1 then [⟨x.addr 32, Desc.rowBytes (x.fmt 2) x.rCount, false⟩] else [])
      ++ (if x.rKind == 1 then [⟨x.addr 32, x.rCount, false⟩, ⟨x.addr 40, x.rCount, true⟩] else [])

/-- The rows of a MOVE's source and destination. -/
def moveFoot (x : Desc) : List VRange :=
  (if x.f 48 0 1 == 1 then [] else rowsOf (x.addr 16) (x.f 36 0 32) (x.f 40 0 32) (x.f 32 0 32) false)
    ++ rowsOf (x.addr 24) (x.f 36 0 32) (x.f 44 0 32) (x.f 32 0 32) true

/-- ORF value bytes of a block of 32 elements (R97). -/
def orfBlockBytes (c : Nat) : Nat := 4 * fmtBits c

/-! ### UPDATE (R276 to R284, R292): its parameter block, kept as the descriptor's layout record once it has been read -/

namespace Desc

def uAlgo (x : Desc) : Nat := x.lay 0 8
def uNesterov (x : Desc) : Bool := x.layout.testBit 8
def uDsEn (x : Desc) : Bool := x.layout.testBit 9
def uPass (x : Desc) : Nat := x.lay 2 3
def uPasses (x : Desc) : Nat := x.lay 3 4
def uRowLen (x : Desc) : Nat := x.lay 4 14
def uSite (x : Desc) : Nat := x.lay 6 16
def uCols (x : Desc) : Nat := x.lay 152 25
def uStride (x : Desc) : Nat := x.lay 156 32
def uScaleStride (x : Desc) : Nat := x.lay 160 32
def uTensor (x : Desc) : Nat := x.lay 164 32
def uLogical (x : Desc) : Nat := x.lay 168 48
def uM1 (x : Desc) : Nat := x.lay 96 57
def uM2 (x : Desc) : Nat := x.lay 104 57
def uWc (x : Desc) : Nat := x.lay 112 57
def uWcScale (x : Desc) : Nat := x.lay 120 57
def uAnchors (x : Desc) : Nat := x.lay 128 57
def uAcc (x : Desc) : Nat := x.lay 136 57
def uColSq (x : Desc) : Nat := x.lay 144 57
def uMilestone (x : Desc) : Nat := x.f 48 0 64
def uDelay (x : Desc) : Nat := x.f 60 0 4
def uRnd (x : Desc) : Nat := x.f 60 4 3
def uLast (x : Desc) : Bool := x.uPass + 1 == x.uPasses
/-- ALGO 0x05 or 0x06: factors by rows. -/
def uRows (x : Desc) : Bool := x.uAlgo == 5 || x.uAlgo == 6
/-- The master lots of the region, of an UPDATE and of a SNAPSHOT. -/
def uLots (x : Desc) : Nat := (if x.op == 0x20 then x.f 56 0 32 else x.f 40 0 32) / 65536
/-- P_L of R277. -/
def uPL (x : Desc) : Nat := if x.uRows then 10912 / x.uRowLen * x.uRowLen else 10912
/-- The step applies the algorithm at this milestone (R291, R292). -/
def uApplies (x : Desc) : Bool := x.uDelay == 0 || x.uMilestone % x.uDelay == 0
/-- Bytes of a moment. -/
def uMom (x : Desc) : Nat := if x.fmt 2 == 7 then 2 else 4

end Desc

/-- A range that is read and written. -/
def rwRange (va len : Nat) : List VRange := [⟨va, len, true⟩, ⟨va, len, false⟩]

/-- The working copy of the region: rows of 32 to a row of blocks, and the scale lines of an MX copy (R278). -/
def copyFoot (x : Desc) (blocks : Nat) : List VRange :=
  let n := x.uCols
  let fb := fmtBits (x.fmt 3)
  (List.range (ceilDiv blocks n)).flatMap (fun q =>
    let len := ceilDiv (min n (blocks - q * n) * fb) 8
    (List.range 32).flatMap fun i =>
      if fb % 8 == 0 then [⟨x.uWc + (32 * q + i) * x.uStride, len, true⟩]
      else rwRange (x.uWc + (32 * q + i) * x.uStride) len)
    ++ (if isMx (x.fmt 3) then
      (List.range (min n blocks)).map fun c => ⟨x.uWcScale + c * x.uScaleStride, ceilDiv (blocks - c) n, true⟩
    else [])

/-- The arrays that a parameter block names, for the whole region (R278, R284, R292). -/
def updateArrays (x : Desc) : List VRange :=
  let params := x.uLots * x.uPL
  let blocks := params / 32
  [⟨x.addr 24, orfBlockBytes (x.fmt 1) * blocks, false⟩, ⟨x.uAnchors, blocks, false⟩]
    ++ (if x.uDelay == 0 then [] else rwRange x.uAcc (264 * blocks))
    ++ (if x.uApplies then
      rwRange x.uM1 (if x.uRows then 4 * (params / x.uRowLen) else x.uMom * params)
        ++ (if x.uAlgo == 2 || x.uAlgo == 3 then rwRange x.uM2 (x.uMom * params) else [])
        ++ (if x.uAlgo == 6 then rwRange x.uM2 (8 * x.uRowLen) ++ [⟨x.uColSq, 4 * x.uRowLen, false⟩] else [])
        ++ (if x.uWc == 0 then [] else copyFoot x blocks)
    else [])

/-- The footprint of an UPDATE: its region, block and norm record, and the arrays once the block has been read. -/
def updateFoot (x : Desc) : List VRange :=
  rwRange (x.addr 16) (x.f 56 0 32) ++ [⟨x.addr 32, 192, false⟩, ⟨x.addr 40, 32, false⟩]
    ++ (if x.layout == 0 then [] else updateArrays x)

/-! ### LOOKUP and LOOKUP_GRAD (R182, R313, R317): once the version has been latched, the layout record holds the table
record, from byte 64 on DIM, the slot of the registry plus 1, the lookup engine and the descriptor's turn, and from byte 128 on the parameter block of a
LOOKUP_GRAD -/

namespace Desc

def lkPool (x : Desc) : Nat := x.f 56 0 2
def lkRnd (x : Desc) : Nat := x.f 56 2 3
def lkCount (x : Desc) : Nat := x.f 48 0 32
def lkBags (x : Desc) : Nat := x.f 52 0 32
def lkTable (x : Desc) : Nat := x.lay 0 10
def lkParams (x : Desc) : Nat := x.lay 8 57
def lkNorm (x : Desc) : Nat := x.lay 16 57
def lkDim (x : Desc) : Nat := x.lay 64 11
def lkEngine (x : Desc) : Nat := x.lay 68 4
/-- The descriptor's place among those given to the lookup engines, in the order in which they came (R311). -/
def lkTicket (x : Desc) : Nat := x.lay 72 64
/-- The slot of the registry that the descriptor latched: table · 2 + slot (R317). -/
def lkSlot? (x : Desc) : Option Nat :=
  if (x.op == 0x18 || x.op == 0x19) && x.lay 66 12 != 0 then some (x.lay 66 12 - 1) else none

end Desc

def lookupFoot (x : Desc) : List VRange :=
  [⟨x.addr 16, 64, false⟩, ⟨x.addr 24, 8 * x.lkCount, false⟩]
    ++ (if x.addr 32 == 0 then [] else [⟨x.addr 32, 4 * (x.lkBags + 1), false⟩])
    ++ (if x.layout == 0 then []
        else
          ⟨x.addr 40, x.lkBags * x.lkDim * fmtBits (x.fmt 0) / 8, x.op == 0x18⟩ ::
            (if x.op == 0x19 then [⟨x.lkParams, 192, false⟩, ⟨x.lkNorm, 32, false⟩] else []))

/-! ### EXCHANGE_TOKENS and REDUCE_NET (R363 to R370): once the plan has been read it is the layout record, with bit 512 set -/

namespace Desc

def plGroup (x : Desc) : Nat := x.lay 0 13
def plRank (x : Desc) : Nat := x.lay 2 12
def plEpm (x : Desc) : Nat := x.lay 4 11
def plTopK (x : Desc) : Nat := x.lay 6 4
def plCands (x : Desc) : Nat := x.lay 7 4
def plSlots (x : Desc) : Nat := x.lay 8 16
def plNdie (x : Desc) : Nat := x.lay 10 1
def plRing (x : Desc) : Bool := x.lay 11 1 == 1
def plFanin (x : Desc) : Nat := x.lay 11 5 / 2
def plPeer (x : Desc) : Nat := x.lay 16 57
def plSlotmap (x : Desc) : Nat := x.lay 24 57
def plCount (x : Desc) : Nat := x.lay 32 57
def plReturn (x : Desc) : Nat := x.lay 40 57
def plStage (x : Desc) : Nat := x.lay 48 57
def xTokens (x : Desc) : Nat := x.f 48 0 32
def xBytes (x : Desc) : Nat := x.f 52 0 16
def xCombine (x : Desc) : Bool := x.f 54 0 1 == 1
def xOverflow (x : Desc) : Bool := x.f 54 1 1 == 1
def rnPhase (x : Desc) : Nat := x.f 54 0 2
def rnBlocks (x : Desc) : Nat := x.f 48 0 32

end Desc

/-- The ranges of an EXCHANGE_TOKENS that its body gives (R365, R369). -/
def exchangeBody (x : Desc) : List VRange :=
  ⟨x.addr 24, 64 * x.xTokens, false⟩ ::
    (if x.xCombine then [⟨x.addr 40, x.xTokens * x.xBytes, true⟩] else [⟨x.addr 16, x.xTokens * x.xBytes, false⟩])

/-- The ranges of an EXCHANGE_TOKENS whose plan is known (R365, R367, R369). -/
def exchangeFoot (x : Desc) : List VRange :=
  let slots := x.plEpm * x.plGroup * x.plSlots * x.xBytes
  let picks := x.xTokens * x.plTopK
  let w := !x.xCombine
  exchangeBody x ++
    [⟨x.plPeer, 32 * x.plGroup, false⟩, ⟨x.plSlotmap, 8 * picks, w⟩, ⟨x.plCount, 4 * x.plEpm * x.plGroup, w⟩]
    ++ (if x.xCombine then ⟨x.addr 16, slots, false⟩ :: rwRange x.plReturn (picks * x.xBytes) else [⟨x.addr 40, slots, true⟩])

/-- The ranges of a REDUCE_NET: those of its body, and once its plan is known its peers and its staging area (R363, R370). -/
def reduceNetFoot (x : Desc) : List VRange :=
  let n := x.rnBlocks
  let bb := orfBlockBytes (x.fmt 0) * n
  ⟨x.addr 40, 64, false⟩ ::
    (match x.rnPhase with
      | 1 => rwRange (x.addr 24) n
      | 2 => [⟨x.addr 16, bb, false⟩, ⟨x.addr 24, n, false⟩, ⟨x.addr 32, bb, true⟩]
      | 3 => [⟨x.addr 16, 32, false⟩, ⟨x.addr 32, 32, true⟩]
      | _ => [⟨x.addr 16, bb, false⟩, ⟨x.addr 32, bb, true⟩] ++ rwRange (x.addr 24) n)
    ++ (if x.layout == 0 then [] else ⟨x.plPeer, 32 * x.plGroup, false⟩ :: rwRange x.plStage 0x200000)

/-! ### PREP_BATCH (R413 to R415): the job record is the layout record -/

namespace Desc

def pjSource (x : Desc) : Nat := x.lay 0 2
def pjOrder (x : Desc) : Nat := x.lay 0 4 / 4
def pjCodec (x : Desc) : Nat := x.lay 0 7 / 16
def pjEn (x : Desc) (k : Nat) : Bool := x.layout.testBit (8 + k)
def pjFlip (x : Desc) : Bool := x.pjEn 0
def pjLens (x : Desc) : Bool := x.pjEn 1
def pjMesh (x : Desc) : Bool := x.pjEn 2
def pjCache (x : Desc) : Bool := x.pjEn 3
def pjJitter (x : Desc) : Bool := x.pjEn 4
def pjMatrix (x : Desc) : Nat := x.lay 2 2
def pjScale (x : Desc) : Nat := x.lay 2 4 / 4
def pjDataset (x : Desc) : Nat := x.lay 4 32
def pjSeed (x : Desc) : Nat := x.lay 8 64
def pjRecords (x : Desc) : Nat := x.lay 16 57
def pjCount (x : Desc) : Nat := x.lay 24 48
def pjBlock (x : Desc) : Nat := x.lay 32 48
def pjW (x : Desc) : Nat := x.lay 40 13
def pjH (x : Desc) : Nat := x.lay 42 13
def pjOutStride (x : Desc) : Nat := x.lay 44 32
def pjSampleStride (x : Desc) : Nat := x.lay 48 32
def pjScaleStride (x : Desc) : Nat := x.lay 52 32
def pjScaleAddr (x : Desc) : Nat := x.lay 56 57
def pjInfo (x : Desc) : Nat := x.lay 64 57
def pjCacheAddr (x : Desc) : Nat := x.lay 72 57
def pjCacheSlots (x : Desc) : Nat := x.lay 80 32
def pjSlotBytes (x : Desc) : Nat := x.lay 84 32
/-- An FP32 field at a byte. -/
def pjF (x : Desc) (byte : Nat) : Num := decodeElem 9 (x.lay byte 32)
def pjMeshAddr (x : Desc) : Nat := x.lay 168 57
def pjMeshX (x : Desc) : Nat := x.lay 176 8
def pjMeshY (x : Desc) : Nat := x.lay 177 8
def pjStale (x : Desc) : Nat := x.lay 180 64
def pjLiveSlots (x : Desc) : Nat := x.lay 188 16
def pjLiveBytes (x : Desc) : Nat := x.lay 192 32
def pbSamples (x : Desc) : Nat := x.f 32 0 32
def pbFirst (x : Desc) : Nat := x.f 36 0 64
def pbEpoch (x : Desc) : Nat := x.f 44 0 32

end Desc

/-- The bits of a job record that R413 lists. -/
def jobMask : Nat :=
  let m := fieldMask
  m 0 0 7 ||| m 1 0 5 ||| m 2 0 4 ||| m 4 0 32 ||| m 8 0 64 ||| m 24 0 48 ||| m 32 0 48 ||| m 40 0 13 ||| m 42 0 13 ||| m 44 0 96
    ||| addrMask [16, 56, 64, 72, 168] ||| m 80 0 704 ||| m 176 0 16 ||| m 180 0 64 ||| m 188 0 16 ||| m 192 0 32

/-- A job record obeys R413 and R414 with its descriptor. -/
def jobOk (x : Desc) : Bool :=
  let c := x.fmt 0
  let live := x.pjSource == 1
  let one := Num.fin false 1 0
  let zero := Num.fin false 0 0
  let le (a b : Num) : Bool := !Num.lt b a
  let unit (b : Nat) : Bool := le zero ((x.pjF b).abs) && le (x.pjF b) one && (!(x.pjF b).neg || (x.pjF b).isZero)
  let eb := fmtBits c
  x.layout &&& (2 ^ 2048 - 1 - jobMask) == 0
    && (c == 3 || c == 4 || c == 7) && decide (x.pjSource < 2) && decide (x.pjOrder < 3) && decide (x.pjCodec < 5)
    && decide (x.pjMatrix < 3) && (x.pjCodec == 0 || x.pjScale == 0)
    && decide (1 ≤ x.pjCount) && (!live || decide (x.pjCount ≤ 1024))
    && (x.pjOrder != 2 || (decide (2 ≤ x.pjBlock) && decide (x.pjBlock ≤ x.pjCount)))
    && decide (1 ≤ x.pjW) && decide (x.pjW ≤ 4096) && decide (1 ≤ x.pjH) && decide (x.pjH ≤ 4096)
    && (isMx c || x.pjScaleAddr == 0)
    && (if x.pjCache then decide (1 ≤ x.pjCacheSlots) && decide (x.pjCacheSlots ≤ 2 ^ 24) && x.pjSlotBytes != 0
          && x.pjSlotBytes % 65536 == 0
        else x.pjCacheAddr == 0)
    && ((List.range 20).all fun k => (x.pjF (88 + 4 * k)).isFin)
    && Num.lt zero (x.pjF 88) && !(x.pjF 88).isZero && le (x.pjF 88) (x.pjF 92) && le (x.pjF 92) one
    && unit 96 && unit 100 && unit 104
    && (if x.pjMesh then decide (2 ≤ x.pjMeshX) && decide (x.pjMeshX ≤ 129) && decide (2 ≤ x.pjMeshY) && decide (x.pjMeshY ≤ 129)
        else x.pjMeshAddr == 0)
    && (!live || (decide (1 ≤ x.pjStale) && decide (2 ≤ x.pjLiveSlots) && decide (x.pjLiveSlots ≤ 256)
          && decide (128 ≤ x.pjLiveBytes) && x.pjLiveBytes % 64 == 0 && x.pjOrder == 0 && x.pjCodec == 0))
    && decide (x.pbFirst + x.pbSamples ≤ x.pjCount)
    && decide (x.pjW * 3 * eb ≤ 8 * x.pjOutStride) && decide (x.pjH * x.pjOutStride ≤ x.pjSampleStride)

/-- The footprint of a PREP_BATCH whose job record is known (R415, R430). -/
def prepFoot (x : Desc) : List VRange :=
  (List.range x.pbSamples).flatMap (fun t =>
      rowsOf (x.addr 24 + t * x.pjSampleStride) x.pjH x.pjOutStride (Desc.rowBytes (x.fmt 0) (3 * x.pjW)) true)
    ++ (if isMx (x.fmt 0) then rowsOf x.pjScaleAddr (x.pbSamples * x.pjH) x.pjScaleStride (ceilDiv (3 * x.pjW) 32) true else [])
    ++ [⟨x.pjInfo, 16 * x.pbSamples, true⟩]

/-- The footprint of each opcode by what is known of its record (R161). What a unit reaches beyond it, it translates at the access
(R415, R441). -/
def footOf (x : Desc) : List VRange :=
  match x.op with
  | 0x01 | 0x02 => matmulFoot x
  | 0x08 => vectorFoot x
  | 0x09 => reduceFoot x
  | 0x10 => moveFoot x
  | 0x11 => [⟨x.addr 16, 4 * x.f 24 0 13, false⟩]
  | 0x12 => [⟨x.addr 16, x.f 32 0 32, true⟩, ⟨x.addr 24, 32 * x.f 36 0 16, false⟩]
  | 0x18 | 0x19 => lookupFoot x
  | 0x20 => updateFoot x
  | 0x21 => [⟨x.addr 16, x.f 40 0 32, false⟩, ⟨x.addr 24, 64, false⟩]
  | 0x28 => ⟨x.addr 32, 64, false⟩ :: (if x.layout == 0 then exchangeBody x else exchangeFoot x)
  | 0x29 => reduceNetFoot x
  | 0x2A | 0x2B => [⟨x.addr 16, x.f 24 0 32, x.op == 0x2B || x.f 31 0 2 == 2⟩]
  | 0x30 => ⟨x.addr 16, 256, false⟩ :: (if x.layout == 0 then [] else prepFoot x)
  | _ => []

/-- The footprint of a descriptor: its record as the unit has read it, or else as the front end read it at fetch. -/
def footprint (x : Desc) : List VRange := footOf (if x.layout == 0 then { x with layout := x.peek } else x)

/-- The bytes of the pages of a footprint exceed 64 MiB (R161). -/
def footTooBig (rs : List VRange) : Bool :=
  rs.any (fun r => decide (2 ^ 26 < r.len)) || decide (2 ^ 26 < 4096 * (footPages rs).length)

/-- A source row and a destination row of a MOVE overlap (R181). -/
def moveOverlap (x : Desc) : Bool :=
  x.op == 0x10 && (moveFoot x).any fun r => !r.wr && (moveFoot x).any fun u =>
    u.wr && decide (r.va < u.va + u.len) && decide (u.va < r.va + r.len)

/-- The byte offsets of the faulty fields of a descriptor, as far as its 64 bytes show them (R160, R181, R677). -/
def descFaults (s : State) (cpt : Nat) (x : Desc) : List Nat :=
  let res := (x.raw >>> 128) <<< 128 &&& (2 ^ 512 - 1 - bodyMask x)
  broken (headerRules s cpt x) ++ (if opcodes.contains x.op then
    broken (bodyRules x) ++ (lowByte res 16 48).toList ++ (if moveOverlap x then [16] else []) else [])

/-- The byte offset of the lowest of them (R677). -/
def descFault (s : State) (cpt : Nat) (x : Desc) : Option Nat := leastPos (descFaults s cpt x)

/-- Two physical footprints conflict at 64-byte granularity: one writes where the other reads or writes (R164). -/
def conflicts (x y : Desc) : Bool :=
  let sect (d : Desc) (r : VRange) : List (Nat × Nat) := (physOf d.pins r.va r.len).map fun p => (p.1 / 64, (p.1 + p.2 - 1) / 64)
  (footprint x).any fun r => (footprint y).any fun u =>
    (r.wr || u.wr) && (sect x r).any fun a => (sect y u).any fun b => decide (a.1 ≤ b.2) && decide (b.1 ≤ a.2)

/-- The descriptor has no work: M or N of 0, or a count of 0 (R125, R178 to R180, R186). -/
def isEmpty (x : Desc) : Bool :=
  match x.op with
  | 0x01 | 0x02 => x.mmM == 0 || x.mmN == 0
  | 0x08 => x.vRows == 0 || x.vRowLen == 0
  | 0x09 => x.rContrib == 0 || x.rCount == 0
  | 0x10 => x.f 32 0 32 == 0 || x.f 36 0 32 == 0
  | 0x11 => x.f 24 0 13 == 0
  | 0x12 => x.f 36 0 16 == 0
  | 0x18 | 0x19 => x.f 48 0 32 == 0
  | 0x28 => x.f 48 0 32 == 0
  | 0x29 => x.f 54 0 2 != 3 && x.f 48 0 32 == 0
  | 0x30 => x.f 32 0 32 == 0
  | _ => false

end Sys2Proof.Machine
end

