-- ==== Sys2Proof/Machine/PlaceOps.lean ====
section
/-! DEFINITION. Placement operations that several families share (R203 to R230): buckets, frames, held lots, targets,
page-ins. -/

namespace Sys2Proof.Machine

/-- The page of the placement unit instance that owns a bucket (R205). -/
def plcPgOf (bucket : Nat) : Page := ⟨dieOf (12 + bucket % 4), .plc, 0⟩

/-- The instance that owns a lot (R205): both tiers give the same number modulo 4. -/
def plcPg (l : Nat) : Page := plcPgOf (bucketHash l)

namespace State

/-- A lot is held by a fetched descriptor whose record is not written (R218). -/
def lotHeld (s : State) (l : Nat) : Bool :=
  s.streams.any fun e => e.2.fetched.any fun x => x.phase != .ended &&
    (footprint x).any fun r => (lotsV x.pins r.va r.len).contains l

/-- The resident lots of a tier's bucket: lot and way. -/
def bucketLots (s : State) (tier b : Nat) : List (Nat × Nat) :=
  (s.place.map.filter fun e => bitsOf e.2 0 2 == tier && s.bucketOf tier e.1 == b).map fun e => (e.1, bitsOf e.2 19 13)

/-- The frame of a way is DIRECT: its granule is owned, it lies in a die-local part, or in the placement reserve
(R202, R260). -/
def frameDirect (s : State) (tier b w : Nat) : Bool :=
  let a := s.frameAddr tier b w
  if tier == 0 then
    s.owner 4 ((a - nearBase) >>> 21) != 0x7F
      || decide ((384 - 8 * s.getF ⟨.T0, .hbmc, 0⟩ Reg.HBMC_CFG_LOCAL_GIB) * 2 ^ 30 ≤ a - nearBase)
  else s.owner 5 (a >>> 21) != 0x7F

/-- The frame lies in a granule whose GRANT waits for its lots to leave (R493). -/
def frameGranting (s : State) (tier b w : Nat) : Bool :=
  match s.cptOp with
  | some (r, _) =>
    r.cmd == 3 && r.kind == 4 + tier
      && (if tier == 0 then s.frameAddr tier b w - nearBase else s.frameAddr tier b w) >>> 21 == r.index
  | none => false

/-- The frame is DIRECT or about to be. -/
def frameTaken (s : State) (tier b w : Nat) : Bool := s.frameDirect tier b w || s.frameGranting tier b w

/-- The way of a bucket is a free POOL frame: not DIRECT nor about to be, holding no lot and not the goal of a move. -/
def wayFree (s : State) (tier b w : Nat) : Bool :=
  decide (w < 8192) && !s.frameTaken tier b w && !(s.bucketLots tier b).any (fun e => e.2 == w)
    && !s.place.moves.any fun m => m.tier == tier && s.bucketOf tier m.lot == b && m.way == w

/-- The live buffer of compartment `c` that holds address `a`. -/
def bufAt (s : State) (c a : Nat) : Option Buf :=
  (s.place.bufs.find? fun e => e.1 >>> 18 == c && decide (e.2.base ≤ a) && decide (a < e.2.base + e.2.bytes)).map (·.2)

end State

/-- Effective tier and age on arrival of a TARGET and a HINT (R213); the warehouse gives 2. -/
def effective (target hint : Nat) : Nat × Nat :=
  match target, hint with
  | 1, _ => (0, 0) | 2, _ => (1, 0) | 3, _ => (2, 0) | 4, _ => (0, 0xFF)
  | _, 1 => (0, 0) | _, 3 => (2, 0) | _, 4 => (0, 0xFF) | _, _ => (1, 0)

namespace State

/-- Tier and age a page-in of a lot aims at (R213, R215, R226). -/
def lotTarget (s : State) (l : Nat) : Nat × Nat :=
  let c := s.lotOwner l
  let e := match s.bufAt c (unifiedBase + l * 0x10000) with
    | some b => effective b.target b.hint
    | none => (1, 0)
  let e1 := if e.1 == 2 || s.nearLost then (1, e.2) else e
  if s.cptSealed c && e1.1 == 0 && s.nsFloor c == 0 then (1, 0)
  else if s.cptSealed c && e1.1 == 1 && s.dpFloor c == 0 then (0, e1.2)
  else e1

/-- A lot's buffer is pinned: its effective age is 0xFF (R213, R231). -/
def pinnedBuf (s : State) (l : Nat) : Bool :=
  match s.bufAt (s.lotOwner l) (unifiedBase + l * 0x10000) with
  | some b => (effective b.target b.hint).2 == 0xFF
  | none => false

/-- The age of a lot that a caravan moves (R231). -/
def caravanAge (s : State) (l : Nat) : Nat := if s.pinnedBuf l then 0xFF else 0

/-- Tier and age with which a page-in would arrive now: the depot where R222 has turned it, a caravan's TARGET, else the effective
target of the moment (R215, R222, R231, R242). -/
def pageAim (s : State) (p : PageIn) : Nat × Nat :=
  if p.turned then (1, 0) else match p.goal with | some t => (t, s.caravanAge p.lot) | none => s.lotTarget p.lot

/-- A page-in of a lot started, or joined to the one in progress (R228, R229): for a caravan to tier `goal`, or for an access. -/
def startPageInAt (s : State) (l : Nat) (goal : Option Nat) : State :=
  if s.place.pageins.any fun p => p.lot == l then
    { s with place := { s.place with pageins := s.place.pageins.map fun p =>
        if p.lot == l then { p with asked := p.asked || goal.isNone } else p } }
  else
    let p : PageIn := ⟨l, goal, goal.isNone, false, false⟩
    State.bump { s with place := { s.place with pageins := s.place.pageins ++ [p] } } (plcPg l) Reg.PLC_PAGEINS

/-- A page-in that an access starts: the lot goes to its effective target (R215). A lot that is resident needs none. -/
def startPageIn (s : State) (l : Nat) : State := if s.lotTier l == 2 then s.startPageInAt l none else s

/-- A lot moves between two frames (R234). -/
def lotMoving (s : State) (l : Nat) : Bool := s.place.moves.any fun m => m.lot == l

/-- Some lot of a range moves, so that a write of the range stalls (R234). -/
def movingIn (s : State) (a n : Nat) : Bool := !s.place.moves.isEmpty && (lotsOf a n).any s.lotMoving

/-- Some lot of a virtual range moves. -/
def movingV (s : State) (pins : SMap Nat) (va n : Nat) : Bool := !s.place.moves.isEmpty && (lotsV pins va n).any s.lotMoving

/-- The descriptor writes to a lot that moves: its unit stalls until the move commits (R234). -/
def writesMoving (s : State) (x : Desc) : Bool := !s.place.moves.isEmpty && (footprint x).any fun r => r.wr && s.movingV x.pins r.va r.len

/-- Runs `f` on a running descriptor of the opcode, its stream not paused and no lot it writes moving; any other command changes
nothing (notes/assumptions/4.md). -/
def withRunning (s : State) (d : Die) (n q op : Nat) (f : Desc → State) : State :=
  match s.desc? d n q with
  | some x => if x.phase == .running && x.op == op && !s.streamPaused d n && !s.writesMoving x then f x else s
  | none => s

/-- The lots of a list for which a write waits: those that are away and those that move (R228, R234). -/
def blockedLots (s : State) (ls : List Nat) : List Nat := ls.filter fun l => s.lotTier l == 2 || s.lotMoving l

/-- An access waits, behind those that came before it. -/
def stall (s : State) (w : Stalled) : State := { s with place := { s.place with stalls := s.place.stalls ++ [w] } }

/-- The lots of a list that are held only in the warehouse. -/
def absentLots (s : State) (ls : List Nat) : List Nat := ls.filter fun l => s.lotTier l == 2

/-- Page-ins started for every lot of a list that is not resident (R228). -/
def pageInAll (s : State) (ls : List Nat) : State := (s.absentLots ls).foldl (fun a l => a.startPageIn l) s

/-- The lots of a descriptor's footprint. -/
def descLots (x : Desc) : List Nat := (footprint x).flatMap fun r => lotsV x.pins r.va r.len

end State

end Sys2Proof.Machine
end

