-- ==== Sys2Proof/Machine/Dram.lean ====
section
/-! DEFINITION. Where the bytes of the near store and the depot lie (R246, R247, R257 to R259), and what an uncorrectable
codeword leaves behind (R148, R255, R621, R622). -/

namespace Sys2Proof.Machine

namespace State

/-- The address under which the state keeps a direct byte: the lot's where a lot stands in the frame (notes/assumptions/8.md). -/
def homeByte (s : State) (a : Nat) : Nat :=
  let near := decide (nearBase ≤ a)
  let t := if near then 0 else 1
  let f := (if near then a - nearBase else a) >>> 16
  match s.place.map.find? fun e => bitsOf e.2 0 2 == t && s.bucketOf t e.1 == f % s.buckets t && bitsOf e.2 19 13 == f / s.buckets t with
  | some e => unifiedBase + e.1 * 0x10000 + a % 0x10000
  | none => a

/-- The first byte of the placement map, and of the reverse table (R206, R607). -/
def reserveBase (s : State) : Nat := s.depotEnd - 0x49000000
def reverseBase (s : State) : Nat := s.depotEnd - 0x9000000

/-- The address lies in the placement reserve. -/
def inReserve (s : State) (a : Nat) : Bool := decide (s.reserveBase ≤ a) && decide (a < s.depotEnd)

/-- The lot number in the reverse table for the POOL-capable frame `f`, the near store's frames first; what stands there for a frame
that holds no lot is open (notes/assumptions/74.md). -/
def reverseEntry (s : State) (f : Nat) : Nat :=
  let t := if f < 6291456 then 0 else 1
  let g := if t == 0 then f else f - 6291456
  match s.place.map.find? fun e => bitsOf e.2 0 2 == t && s.bucketOf t e.1 == g % s.buckets t && bitsOf e.2 19 13 == g / s.buckets t with
  | some e => e.1
  | none => (Config.reverseFree f).toNat

/-- A byte of the placement reserve (R206, R207): the map's entries, then the reverse table. -/
def reserveByte (s : State) (a : Nat) : Byte :=
  let w := if a < s.reverseBase then s.entry ((a - s.reserveBase) / 4) else s.reverseEntry ((a - s.reverseBase) / 4)
  BitVec.ofNat 8 (w >>> (8 * (a % 4)))

/-- A range lies in one frame. -/
def oneFrame (_ : State) (a n : Nat) : Bool := a % 0x10000 + n ≤ 0x10000

/-- Bytes as they are read at an address of the map: through the map of the reserve, and of the lots in their frames (R60, R206). -/
def devRead (s : State) (a n : Nat) : Bytes :=
  (List.range n).map fun i => if s.inReserve (a + i) then s.reserveByte (a + i)
    else s.cohByte (if a + i < unifiedBase then s.homeByte (a + i) else a + i)

/-- Bytes written at an address of the map, within one frame: a word of the placement map changes the lot's entry; the reverse table
follows the map alone (notes/assumptions/74.md). -/
def devWrite (s : State) (a : Nat) (bs : Bytes) : State :=
  if s.inReserve a then
    bs.zipIdx.foldl (fun t b =>
      if a + b.2 < s.reverseBase then
        let l := (a + b.2 - s.reserveBase) / 4
        t.setEntry l (putBits (t.entry l) (8 * ((a + b.2) % 4)) 8 b.1.toNat)
      else t) s
  else s.cohWrite (if a < unifiedBase then s.homeByte a else a) bs

/-- The address under which the state keeps a codeword's bytes. -/
def cwAddr (s : State) (w : Cw) : Nat :=
  s.homeByte (if isTensor w.die then nearBase + nearOff s.localGib w else depotOff s.depotChans w)

/-- The compartment tag of a requester (R495). -/
def cptOf (s : State) (r : Requester) : Nat :=
  match r with
  | .stream d n => s.ctxCpt d n
  | .hart h => (s.hartCpt h).getD 0
  | .pcie => s.getF cptPg Reg.CPT_CFG_PCIE
  | _ => 0

/-- An uncorrectable codeword met by a requester: the controller's registers and a DATA record that names the memory
(R255, R621, R622). -/
def reportUncorr (s : State) (r : Requester) (pa seq : Nat) : State :=
  let q := reqFields r
  let fill (x : ErrRec) : ErrRec :=
    { x with status := stUncorr, addr := pa, reqId := q.1, reqDie := q.2.1, reqKind := q.2.2, reqCpt := s.cptOf r, seq := seq }
  match s.locate pa with
  | .cistern d e _ => s.logRec (fill (blockRec (engPg (dieOf d) e) .data e))
  | _ =>
    match s.cwOf pa with
    | some w => (s.noteUe w pa).logRec (fill (blockRec (memPg w.die) .data (if isTensor w.die then 121 else 0)))
    | none => s

/-- The first uncorrectable codeword that a descriptor's footprint touches. -/
def footBad (s : State) (x : Desc) : Option Nat :=
  let rs := (footprint x).flatMap fun r => physOf x.pins r.va r.len
  match (s.bad.find? fun b => rs.any fun r => cwHit r.1 r.2 b).map (·.1) with
  | some a => some a
  | none => (rs.find? fun r => s.fencedIn r.1 r.2).map fun r => r.1 / 64 * 64

end State

end Sys2Proof.Machine
end

