-- ==== Sys2Proof/Machine/Tables.lean ====
section
/-! DEFINITION. What the end of a descriptor settles: the table registry's slots (R314, R316, R317) and the gather windows
(R373). -/

namespace Sys2Proof.Machine.State

/-- A slot of the registry: table · 2 + slot. -/
def tblSlot (s : State) (key : Nat) : TblSlot := SMap.getD s.tables key TblSlot.init
def setTblSlot (s : State) (key : Nat) (x : TblSlot) : State := { s with tables := SMap.put s.tables key x }

/-- The descriptors that have latched a slot and whose records are not written, by stream key and sequence number. -/
def latched (s : State) (key : Nat) : List (Nat × Nat) :=
  s.streams.flatMap fun e => (e.2.fetched.filter fun x => x.lkSlot? == some key).map fun x => (e.1, x.seq)

/-- DRAINING slots that no descriptor uses any more become FREE (R316). -/
def tablesSettle (s : State) : State :=
  (s.tables.filter fun e => e.2.st == 3 && (s.latched e.1).isEmpty).foldl
    (fun a e => ((a.setTblSlot e.1 TblSlot.init).setF lkpRegPg Reg.LKP_TBL_STATE_RELEASED 1 (e.1 / 2)).raise lkpRegPg 1) s

/-- The live windows of compartment `c` that a starting descriptor's footprint overlaps (R373). -/
def windowsOver (s : State) (c : Nat) (x : Desc) : List Nat :=
  (s.wins.filter fun e => e.2.st == 2 && e.2.cpt == c &&
    (descLots x).any fun l => decide (e.2.lot ≤ l) && decide (l < e.2.lot + e.2.lots)).map (·.1)

/-- The record of a descriptor over windows is written: their counts fall, and at 0 they are to be released (R373). -/
def windowsDone (s : State) (ws : List Nat) : State :=
  { s with wins := s.wins.map fun e =>
      if ws.contains e.1 && e.2.st == 2 && e.2.refs != 0 then
        (e.1, { e.2 with refs := e.2.refs - 1, st := if e.2.refs == 1 then 3 else 2 })
      else e }

/-- The record of a GATHER_WINDOW that failed is written: its window, which never became live, is free again (R372). -/
def fillDone (s : State) (x : Desc) : State :=
  if x.op == 0x12 && x.status != stOk && !x.aux.isEmpty then
    match SMap.find s.wins (x.aux.getLastD 0) with
    | some v => if v.st == 1 then { s with wins := SMap.del s.wins (x.aux.getLastD 0) } else s
    | none => s
  else s

end Sys2Proof.Machine.State
end

