-- ==== Sys2Proof/Machine/Records.lean ====
section
/-! DEFINITION. The records that a descriptor's footprint follows from beside its layout record: parameter blocks (R282, R283), plans
(R363) and the DIM of a table's version (R313, R314). The front end reads them at fetch to find the footprint (R160, R161). -/

namespace Sys2Proof.Machine

/-- The bits of a parameter block that R282 lists. -/
def blockMask : Nat :=
  let m (byte lo w : Nat) : Nat := fieldMask byte lo w
  m 0 0 8 ||| m 1 0 2 ||| m 2 0 3 ||| m 3 0 4 ||| m 4 0 14 ||| m 6 0 16 ||| m 8 0 704 ||| addrMask [96, 104, 112, 120, 128, 136, 144]
    ||| m 152 0 25 ||| m 156 0 32 ||| m 160 0 32 ||| m 164 0 32 ||| m 168 0 48

/-- The rules that a parameter block obeys with its descriptor (R282, R283): a format at its nibble's byte, the block at
the byte of PARAMS_ADDR (R677). -/
def blockRules (x : Desc) : List (Bool × Nat) :=
  let a := x.uAlgo
  [(!x.uRows || x.fmt 2 == 9, 3), (x.uWc != 0 || x.fmt 3 == 0, 3),
   (x.layout &&& (2 ^ 1536 - 1 - blockMask) == 0, 32),
   (decide (1 ≤ a) && decide (a ≤ 6), 32), (a == 1 || !x.uNesterov, 32),
   (decide (1 ≤ x.uPasses) && decide (x.uPasses ≤ 8) && decide (x.uPass < x.uPasses), 32),
   (if x.uRows then x.uRowLen % 32 == 0 && decide (32 ≤ x.uRowLen) && decide (x.uRowLen ≤ 8192) else x.uRowLen == 0, 32),
   (a == 2 || a == 3 || a == 6 || x.uM2 == 0, 32), (a == 6 || x.uColSq == 0, 32),
   (x.uDelay == 0 || x.uAcc != 0, 32), (x.uWc == 0 || (decide (1 ≤ x.uCols) && decide (x.uCols ≤ 2 ^ 24)), 32),
   (!(a == 6 || x.uDelay != 0) || x.uPasses == 1, 32), (a != 6 || x.uDelay == 0, 32)]

/-- The bits of a plan that R363 names for an opcode, and the flag of the model. -/
def planMask (op : Nat) : Nat :=
  let m := fieldMask
  m 0 0 13 ||| m 2 0 12 ||| m 10 0 1 ||| m 16 0 57 ||| m 64 0 1
    ||| (if op == 0x28 then m 4 0 11 ||| m 6 0 4 ||| m 7 0 4 ||| m 8 0 16 ||| addrMask [24, 32, 40] else m 11 0 5 ||| m 48 0 57)

/-- The rules of a plan, and those of the descriptor that its exchange engine checks (R363, R365, R371). -/
def planRules (x : Desc) : List (Bool × Nat) :=
  let p := if x.op == 0x28 then 32 else 40
  let c := x.fmt 0
  [(x.layout &&& (2 ^ 513 - 1 - planMask x.op) == 0, p), (decide (1 ≤ x.plGroup) && decide (x.plGroup ≤ 4096), p),
   (decide (x.plRank < x.plGroup), p)]
    ++ (if x.op == 0x28 then
        [(decide (1 ≤ x.plEpm) && decide (x.plEpm ≤ 1024), p), (decide (1 ≤ x.plTopK) && decide (x.plTopK ≤ 8), p),
         (decide (x.plTopK ≤ x.plCands) && decide (x.plCands ≤ 8), p), (x.plSlots != 0, p),
         (if x.xCombine then c == 7 || c == 8 || c == 9 else true, 2),
         (if x.xCombine then x.xBytes != 0 && x.xBytes % (fmtBits c / 8) == 0
          else x.xBytes % 64 == 0 && decide (64 ≤ x.xBytes) && decide (x.xBytes ≤ 65472), 52)]
      else
        [(x.plRing || (decide (2 ≤ x.plFanin) && decide (x.plFanin ≤ 8)), p), (x.f 52 0 13 == x.plGroup, 52),
         (if x.rnPhase == 3 then c == 0 else decide (11 ≤ c) && decide (c ≤ 13), 2), (x.rnPhase != 3 || x.rnBlocks == 1, 48)])

/-- A field of a version record. -/
def verF (v byte lo w : Nat) : Nat := bitsOf v (8 * byte + lo) w
def verDim (v : Nat) : Nat := verF v 8 0 11

/-- The record of a descriptor that its footprint follows from: virtual address and bytes. -/
def recordOf (x : Desc) : Option (Nat × Nat) :=
  if isEmpty x then none
  else
    match x.op with
    | 0x18 | 0x19 => some (x.addr 16, 64)
    | 0x20 => some (x.addr 32, 192)
    | 0x28 => some (x.addr 32, 64)
    | 0x29 => some (x.addr 40, 64)
    | _ => none

namespace State

/-- The CURRENT slot of a table. -/
def currentSlot (s : State) (t : Nat) : Option Nat :=
  if (s.tblSlot (2 * t)).st == 2 then some (2 * t) else if (s.tblSlot (2 * t + 1)).st == 2 then some (2 * t + 1) else none

/-- What the front end keeps of such a record with the bytes `v`, in the form that the unit will keep it; 0 of one that breaks a rule,
whose fault the unit reports when it reads it (R284, R317, R363). -/
def peekOf (s : State) (x : Desc) (v : Nat) : Nat :=
  match x.op with
  | 0x18 | 0x19 =>
    match s.currentSlot (bitsOf v 0 10) with
    | some key => v + verDim (s.tblSlot key).ver <<< 512
    | none => 0
  | 0x20 => if (broken (blockRules { x with layout := v })).isEmpty then v else 0
  | _ => if (broken (planRules { x with layout := v + 2 ^ 512 })).isEmpty then v + 2 ^ 512 else 0

end State

end Sys2Proof.Machine
end

