-- ==== Sys2Proof/Machine/Streams.lean ====
section
/-! DEFINITION. Streams and the scheduler (R152 to R166, R185 to R199, R510): context commands, doorbells, fetch, start,
completion records and FILL work. -/

namespace Sys2Proof.Machine

/-- The slot after `q` in a ring of a stream. -/
def slotAfter (slots q : Nat) : Nat := (q + 1) % slots

namespace State

/-- The stream that FE_CTX_SEL selects. -/
def selStream (s : State) (d : Die) : Nat := s.getF (fePg d) Reg.FE_CTX_SEL_INDEX

/-- A context is valid (R152); a base off a 4 KiB boundary makes it invalid (DEDUCED, notes/assumptions/21.md). -/
def ctxValid (s : State) (d : Die) (n : Nat) : Bool :=
  s.ctxMode d n == 10 && decide (6 ≤ s.ctxLog2 d n) && decide (s.ctxLog2 d n ≤ 16) && s.engineLive d (s.ctxEngine d n)
    && decide (s.ctxHead d n < s.ctxSlots d n) && decide (s.ctxTail d n < s.ctxSlots d n)
    && s.ctx d n 7 1 7 == 0 && s.ctx d n 15 1 7 == 0 && s.ctx d n 24 5 3 == 0 && s.ctx d n 25 4 4 == 0
    && s.ctx d n 26 6 2 == 0 && s.ctx d n 27 7 1 == 0 && s.ctxWord d n 14 == 0 && s.ctxWord d n 15 == 0
    && s.ctxManifest d n % 4096 == 0 && s.ctxCompletion d n % 4096 == 0

/-- A stream is ENABLED or DRAINING. -/
def streamActive (s : State) (d : Die) (n : Nat) : Bool := s.streamState d n == 1 || s.streamState d n == 2

/-- The streams of a die that a state lists, bound to engine `e`. -/
def boundStreams (s : State) (d : Die) (e : Nat) : List Nat :=
  (s.streams.filter fun x => x.1 >>> 14 == dieCode d && s.ctxEngine d (x.1 % 2 ^ 14) == e).map fun x => x.1 % 2 ^ 14

/-- An active FILL stream of a compartment other than `f` and `o` is bound to engine `e` (R510). -/
def thirdFill (s : State) (d : Die) (e o f : Nat) : Bool :=
  (s.boundStreams d e).any fun n =>
    s.streamActive d n && s.ctxFill d n && s.ctxCpt d n != o && s.ctxCpt d n != f

/-- ENABLE finds the stream group and the engine owned as R492, R494 and R510 ask. -/
def bindOk (s : State) (d : Die) (n : Nat) : Bool :=
  let c := s.ctxCpt d n
  let e := s.ctxEngine d n
  let o := s.owner 0 (dieCode d * 100 + e)
  s.owner 1 (dieCode d * 256 + n >>> 6) == c
    && (if s.ctxFill d n then
      decide (o < 64) && !s.thirdFill d e o c
        && (o == c || (s.getF cptPg Reg.CPT_ENT_CFG_ACCEPT_FILL o == 1 && !s.cptSealed o && !s.cptSealed c))
    else o == c)

/-- `s` with FE_CTX_CMD.REJECTED set. -/
def ctxReject (s : State) (d : Die) : State := s.setF (fePg d) Reg.FE_CTX_CMD_REJECTED 1

/-- FE_CTX_CMD.BUSY of a stream: its DRAIN or ABORT is still in progress. -/
def ctxBusy (s : State) (d : Die) (n : Nat) : Bool :=
  s.streamState d n == 2 || (s.streamState d n == 0 && !(s.stream d n).fetched.isEmpty)

/-- A stream halts with a cause (R153, R187); for a page or codeword of its rings the front end reports it (R188). -/
def haltStream (s : State) (d : Die) (n cause : Nat) (irq : Bool) : State :=
  let s1 := (s.setStreamState d n 3).setF (fePg d) Reg.FE_CTX_STATE_HALT_CAUSE cause n
  if irq then s1.raise (fePg d) 0 else s1

/-- The translation of a manifest or completion-ring address: memory of the stream's compartment only; a lot that is away, or for a write
one that moves, is waited for (R188, R228, R234, R496). -/
def ringXlate (s : State) (d : Die) (n va : Nat) (wr : Bool) : Tr × State :=
  let c := s.ctxCpt d n
  let w := s.walk d c (s.ctxRoot d n) va (!wr) wr
  let s := w.2
  match w.1 with
  | .ok pa b =>
    let lot := match s.locate pa with | .unified l => some l | _ => none
    if s.memOwner pa != some c || (lot.isSome && s.noFloors c) then (.fail 6, s.countWalk d va 6)
    else
      match lot with
      | some l => if s.lotTier l == 2 || wr && s.lotMoving l then (.absent l, s.countWalk d va 0) else (.ok pa b, s.countWalk d va 0)
      | none => (.ok pa b, s.countWalk d va 0)
  | .fail k => (.fail k, s.countWalk d va k)
  | .uncorr a => (.uncorr a, s.reportUncorr (.stream d n) a 0)
  | .absent l => (.absent l, s)

/-! ### Completion records -/

/-- The 16 bytes of a record (R185). -/
def recordBytes (x : Desc) (cycles : Nat) : Bytes :=
  leBytes (x.seq + x.status <<< 32 + (x.operand % 16) <<< 40 + (x.position % 2 ^ 48) <<< 48
    + (min cycles 0xFFFFFFFF) <<< 96) 16

/-- A header signal is issued on this status without SIG_ANY (R186). -/
def signals (st : Nat) : Bool :=
  st == stOk || st == stEmpty || st == stWindow || st == stSkipNonfinite || st == stSkipNorm || st == stAbandoned

/-- The header signal of a descriptor sent to its tally's block (R165, R167, R168). -/
def headerSignal (s : State) (d : Die) (n : Nat) (x : Desc) : State :=
  if (x.sigMode == 1 || x.sigMode == 2) && (x.sigAny || signals x.status)
      && s.tallyOwner x.sigTally == some (s.ctxCpt d n) then
    { s with tallyOps := s.tallyOps ++ [⟨x.sigTally, x.sigMode == 2, if x.waitMode == 0 then x.value else 1, (dieCode d, n)⟩] }
  else s

/-- What the front end reports when a record is written (R189): bit 0 on an error status, one MSI on the IRQ flag. -/
def recordIrq (s : State) (d : Die) (n : Nat) (x : Desc) : State :=
  let s1 := if decide (0x10 ≤ x.status) && !(signals x.status) then s.raise (fePg d) 0 else s
  if x.irq then s1.sendMsi (0x80000 + dieCode d * 2 ^ 14 + n) else s1

/-- The stream without its oldest descriptor; a drained stream becomes DISABLED (R153). -/
def dropOldest (s : State) (d : Die) (n : Nat) : State :=
  let x := s.stream d n
  let s1 := ((s.setStream d n { x with fetched := x.fetched.drop 1 }).tablesSettle).windowsDone (x.fetched.head?.elim [] (·.wins))
  let s1 := match x.fetched with | y :: _ => s1.fillDone y | [] => s1
  if s.streamState d n == 2 && decide (x.fetched.length ≤ 1) then s1.setStreamState d n 0 else s1

/-- Records wait for a repaired completion ring, and the stream is HALTED (R188). R153 gives that row for an ENABLED or DRAINING stream only;
an aborted one that still writes its records halts too (DESIGN CHOICE, notes/assumptions/18.md). -/
def holdRecords (s : State) (d : Die) (n cause : Nat) : State :=
  (s.setStream d n { s.stream d n with held := true }).haltStream d n cause true

/-- The record of the ended descriptor `x`, the oldest of its stream, written; the flag says that it was (R165, R185 to
R189). -/
def writeRecord (s : State) (d : Die) (n : Nat) (x : Desc) : Bool × State :=
  let va := s.ctxCompletion d n + 16 * x.slot
  match s.ringXlate d n va true with
  | (.ok pa pbmt, s1) =>
    if s1.partialBad pa 16 then (false, (s1.reportUncorr (.stream d n) (pa / 64 * 64) x.seq).holdRecords d n stUncorr)
    else
      let cyc := x.cycles.getD (Config.freeCycles s1.free).toNat
      let s2 := if x.cycles.isSome then s1 else s1.drawFree.2
      let s3 := if pbmt == 0 then s2.cohWrite pa (recordBytes x cyc) else s2.wrBytes pa (recordBytes x cyc)
      (true, ((((s3.setDoneSeq d n x.seq).headerSignal d n x).recordIrq d n x).dropOldest d n))
  | (.fail _, s1) => (false, s1.holdRecords d n stXlateFault)
  | (.uncorr _, s1) => (false, s1.holdRecords d n stUncorr)
  | (.absent l, s1) => (false, s1.startPageIn l)

/-- No record is held any more once the oldest descriptor of the stream has not ended (R188). -/
def settleHeld (s : State) (d : Die) (n : Nat) : State :=
  let x := s.stream d n
  if x.held && !(x.fetched.head?.any fun y => y.phase == .ended) then s.setStream d n { x with held := false } else s

/-- The held records of a stream written in order, up to `k` of them; a page that fails again halts it again, and one that is not resident
leaves the rest held until it is (R188, R228). -/
def flushHeld (d : Die) (n : Nat) : Nat → State → State
  | 0, s => s
  | k + 1, s =>
    match (s.stream d n).fetched with
    | x :: _ =>
      if x.phase == .ended then
        match s.writeRecord d n x with
        | (true, s1) => flushHeld d n k s1
        | (false, s1) => s1
      else s
    | [] => s

/-! ### Ends of descriptors -/

/-- A descriptor of a stream ends (R185); an uncorrectable codeword is reported (R255). -/
def finish (s : State) (d : Die) (n q st : Nat) (pos : Nat := posNone) (operand : Nat := opNone) : State :=
  let s1 := (s.endDesc d n q st pos operand).noteIdle d n
  if st == stUncorr then
    match s.desc? d n q with
    | some x => match s.footBad x with | some a => s1.reportUncorr (.stream d n) a x.seq | none => s1
    | none => s1
  else s1

/-- The first affected element of an operand and the operand (R185, R186). -/
structure BadOp where
  operand : Nat
  position : Nat
  deriving DecidableEq, Repr

/-- A descriptor that has written all its results, but for the words that a partial write leaves as they are, ends with
MEM_UNCORRECTABLE where there is such a word (R148, R186, R255). -/
def partEnd (s : State) (d : Die) (n q : Nat) (b : Option BadOp) : State :=
  match b, s.desc? d n q with
  | some b, some x =>
    if x.phase == .ended && (x.status == stOk || x.status == stWindow) then s.finish d n q stUncorr b.position b.operand else s
  | _, _ => s

/-- The descriptor has a tile in an array of the engine. -/
def inArrays (s : State) (d : Die) (e n seq : Nat) : Bool :=
  (s.engine d e).arrays.any fun a => [a.run, a.next].any fun r => r.any fun t => t.n == n && t.seq == seq

/-- ABORT of a stream, or a reset of it (R153, R482): what has not completed ends with ABORTED_BY_RESET, a MATMUL at the
end of its tiles in progress; locks are abandoned and waits leave. -/
def abortStream (s : State) (d : Die) (n : Nat) : State :=
  let e := s.ctxEngine d n
  let x := s.stream d n
  let stop (y : Desc) : Desc :=
    if y.phase == .ended then y
    else if s.inArrays d e n y.seq then { y with aborting := true }
    else { y with phase := .ended, status := stAborted, position := posNone, operand := opNone }
  let s1 := (s.setStream d n { x with fetched := x.fetched.map stop }).noteIdle d n
  ((s1.dropWaits d n).abandonWhere fun h => h == .stream (dieCode d) n).setStreamState d n 0

/-- The bound engine is retired (R153): the running descriptors end with ENGINE_RETIRED, all from the first that has not started on are
returned unfetched, and the stream halts. -/
def retireStream (s : State) (d : Die) (n : Nat) : State :=
  let x := s.stream d n
  let back := x.fetched.find? fun y => y.phase == .fetched
  let keep := (x.fetched.takeWhile fun y => y.phase != .fetched).map fun y =>
    if y.phase == .running then { y with phase := .ended, status := stRetired, position := posNone, operand := opNone } else y
  let s1 := (s.setStream d n { x with fetched := keep }).dropWaits d n
  let s2 := match back with | some y => (s1.setHead d n y.slot).setNextSeq d n y.seq | none => s1
  if s.streamActive d n then s2.haltStream d n stRetired false else s2

/-! ### Fetch -/

/-- A descriptor as it stands after its fetch. -/
def newDesc (slot seq raw : Nat) : Desc :=
  ⟨slot, seq, raw, 0, 0, [], .fetched, 0, opNone, posNone, none, true, false, 0, 0, [], [], []⟩

/-- A fetched descriptor that ended at its fetch. -/
def failedDesc (x : Desc) (st pos : Nat) : Desc := { x with phase := .ended, status := st, position := pos }

/-- The stream with one more fetched descriptor. -/
def pushDesc (s : State) (d : Die) (n : Nat) (x : Desc) : State :=
  s.setStream d n { s.stream d n with fetched := (s.stream d n).fetched ++ [x] }

/-- HEAD and NEXT_SEQ after a slot was consumed (R152, R157). -/
def consume (s : State) (d : Die) (n : Nat) : State :=
  (s.setHead d n (slotAfter (s.ctxSlots d n) (s.ctxHead d n))).setNextSeq d n (s.ctxNextSeq d n + 1)

/-- The check of a translated page for a descriptor of a stream (R162). -/
def streamReach (s : State) (d : Die) (n : Nat) (t : State) (pa : Nat) : Bool :=
  t.pageReach (s.ctxCpt d n) (dieCode d) (s.ctxEngine d n) (s.ctxFill d n) pa

/-- The pages of ranges translated for a descriptor of a stream (R160, R162). -/
def xlateFor (s : State) (d : Die) (n : Nat) (rs : List VRange) : FootRes × State :=
  xlatePages d (s.ctxCpt d n) (s.ctxRoot d n) (s.streamReach d n) (footPages rs) [] s

/-- A descriptor ends at its fetch with a status and a position. -/
def failFetch (s : State) (d : Die) (n : Nat) (x : Desc) (st pos : Nat) : State :=
  (s.pushDesc d n (failedDesc x st pos)).consume d n

/-- The byte that a footprint over 64 MiB names: the field that its size follows from (DEDUCED, notes/assumptions/17.md). -/
def footPos (x : Desc) : Nat := match x.op with | 0x20 => 56 | 0x18 | 0x19 => 40 | 0x28 => 32 | 0x29 => 40 | _ => 16

/-- A footprint that does not translate ends its descriptor, or its fetch waits for a page-in (R162, R228). -/
def failFoot (s : State) (d : Die) (n : Nat) (x : Desc) (r : FootRes) : State :=
  match r with
  | .fault p => s.failFetch d n x stXlateFault p
  | .uncorr p a => (s.reportUncorr (.stream d n) a x.seq).failFetch d n x stUncorr p
  | .absent l => s.startPageIn l
  | .ok _ => s

/-- The footprint of a checked descriptor translated, and what follows: the fault it ends with, or its pins with the
page-ins and the header wait under way (R161 to R163, R169, R228). -/
def fetchPages (s : State) (d : Die) (n : Nat) (x : Desc) : State :=
  if footTooBig (footprint x) then s.failFetch d n x stDescFault (footPos x)
  else
    match s.xlateFor d n (footprint x) with
    | (.ok pins, s1) =>
      let y := { x with pins := pins }
      if y.waitMode == 0 then ((s1.pushDesc d n y).consume d n).pageInAll (descLots y)
      else
        let w := if y.waitMode == 1 then WaitFor.hdrGe y.value else WaitFor.hdrEq y.value
        (((s1.pushDesc d n { y with waitMet := false }).consume d n).pageInAll (descLots y)).registerWait
          y.waitTally ⟨dieCode d, n, y.seq, w⟩
    | (r, s1) => s1.failFoot d n x r

/-- What a record that the front end reads at fetch ends in: the bytes, a failure, or an uncorrectable codeword. -/
inductive RecordRes where
  | ok (v : Nat) (s : State)
  | fail (r : FootRes) (s : State)
  | bad (pa : Nat)
  deriving DecidableEq, Repr

/-- A record read at fetch through the stream's table (R160). -/
def readRecord (s : State) (d : Die) (n va len : Nat) : RecordRes :=
  match s.xlateFor d n [⟨va, len, false⟩] with
  | (.ok pins, _) =>
    match s.absentLots (lotsV pins va len) with
    | l :: _ => .fail (.absent l) s
    | [] =>
      match (physOf pins va len).find? fun p => s.badIn p.1 p.2 with
      | some p => .bad p.1
      | none => .ok (s.rdVNat pins va len) (s.touchV pins va len)
  | (r, s1) => .fail r s1

/-- The record that a footprint follows from is read first, where there is one; what is wrong with it the unit reports (R160, R161, R228;
DEDUCED, notes/assumptions/26.md). -/
def fetchFoot (s : State) (d : Die) (n : Nat) (x : Desc) : State :=
  match recordOf x with
  | none => s.fetchPages d n x
  | some r =>
    match s.readRecord d n r.1 r.2 with
    | .ok v s1 => s1.fetchPages d n { x with peek := s1.peekOf x v }
    | .fail (.absent l) s1 => s1.startPageIn l
    | .fail _ _ | .bad _ => s.fetchPages d n x

/-- The layout record of a MATMUL, or the job record of a PREP_BATCH, read and checked beside the faults `fs` of the body, then the
footprint (R126, R160, R162, R414, R677). A layout page that fails is one of the pages of the footprint, of which the lowest failing one
decides (R162). A MATMUL without a fault on an engine without a live array ends with ENGINE_RETIRED (R142). -/
def fetchLayout (s : State) (d : Die) (n : Nat) (x : Desc) (fs : List Nat) : State :=
  let va := if x.op == 0x30 then x.addr 16 else x.addr 40
  let len := if x.op == 0x30 then 256 else 64
  match s.readRecord d n va len, leastPos fs with
  | .ok v s1, _ =>
    let y := { x with layout := v }
    let bad := if x.op == 0x30 then (if jobOk y then [] else [16]) else broken (layoutRules y)
    match leastPos (fs ++ bad) with
    | some p => s1.failFetch d n y stDescFault p
    | none =>
      if x.op != 0x30 && s1.liveMask d (s1.ctxEngine d n) == 0 then s1.failFetch d n y stRetired posNone
      else s1.fetchFoot d n y
  | .fail (.absent l) s1, _ => s1.startPageIn l
  | _, some p => s.failFetch d n x stDescFault p
  | .fail _ _, none =>
    let r := s.xlateFor d n (⟨va, len, false⟩ :: (if x.op == 0x30 then [] else matmulFirst x))
    r.2.failFoot d n x r.1
  | .bad a, none => (s.reportUncorr (.stream d n) a x.seq).failFetch d n x stUncorr (va / 4096)

/-- The descriptor in the 64 bytes of the manifest slot at HEAD (R157, R160, R162, R187, R677). A sequence mismatch is not consumed: its
record, with its own header, is owed under NEXT_SEQ, and the stream halts. -/
def fetchDesc (s : State) (d : Die) (n raw : Nat) : State :=
  let x := newDesc (s.ctxHead d n) (bitsOf raw 32 32) raw
  if x.seq != s.ctxNextSeq d n then
    (s.pushDesc d n (failedDesc { x with seq := s.ctxNextSeq d n } stDescFault 4)).haltStream d n stDescFault false
  else
    let fs := descFaults s (s.ctxCpt d n) x
    let record := x.op == 0x01 || x.op == 0x02 || x.op == 0x30
    let at0 := if x.op == 0x30 then 16 else 40
    match leastPos fs with
    | some p => if record && !fs.contains at0 && decide (at0 < p) then s.fetchLayout d n x fs else s.failFetch d n x stDescFault p
    | none => if record then s.fetchLayout d n x [] else s.fetchFoot d n x

/-- The front end may fetch for a stream: not while records are held (R153, R156, R160, R188). -/
def mayFetch (s : State) (d : Die) (n : Nat) : Bool :=
  s.runs (fePg d) && s.streamState d n == 1 && !(s.stream d n).held && s.ctxHead d n != s.ctxTail d n
    && decide ((s.stream d n).fetched.length < 9) && (s.desc? d n (s.ctxHead d n)).isNone

/-! ### Start -/

/-- A descriptor whose opcode is not one of those that hold back the descriptors after them (R472, R479, R480). -/
def holdsBack (x : Desc) : Bool := x.phase != .ended && (x.op == 0x38 || x.op == 0x39 || x.op == 0x3B)

/-- A fetched descriptor could start but for the other streams of its engine (R164, R169, R228, R472). -/
def startable (s : State) (d : Die) (n q : Nat) : Bool :=
  match s.desc? d n q with
  | none => false
  | some x =>
    let before := (s.stream d n).fetched.takeWhile fun y => y.slot != q
    x.phase == .fetched && x.waitMet && !s.streamPaused d n && before.all (fun y => y.phase != .fetched && !holdsBack y)
      && before.all (fun y => y.phase == .ended || !conflicts y x) && (s.absentLots (descLots x)).isEmpty

/-- A stream has a descriptor that could start. -/
def readyStream (s : State) (d : Die) (n : Nat) : Bool :=
  (s.stream d n).fetched.any fun x => x.phase == .fetched && s.startable d n x.slot

/-- A stream has a descriptor running. -/
def runningStream (s : State) (d : Die) (n : Nat) : Bool := (s.stream d n).fetched.any fun x => x.phase == .running

/-- The streams of an engine that take turns with stream `n`: those of its class and priority (R190). -/
def turnKey (s : State) (d : Die) (n : Nat) : Nat := (s.ctxFill d n).toNat * 8 + s.ctxPrio d n

/-- Stream `n` has started a descriptor or a tile on its engine: the next turn is that of the stream after it (R190). -/
def noteTurn (s : State) (d : Die) (e n : Nat) : State :=
  let x := s.engine d e
  s.setEngine d e { x with turns := SMap.put x.turns (s.turnKey d n) n }

/-- The order of R190 among the streams of an engine: FOREGROUND first, then priority, then the stream whose turn comes
first. -/
def rank (s : State) (d : Die) (e n : Nat) : Nat :=
  (s.ctxFill d n).toNat * 2 ^ 20 + (7 - s.ctxPrio d n) * 2 ^ 16
    + (n + 2 ^ 14 - SMap.getD (s.engine d e).turns (s.turnKey d n) (2 ^ 14 - 1) - 1) % 2 ^ 14

/-- No other ready stream of the engine comes before stream `n` (R190). -/
def firstInTurn (s : State) (d : Die) (e n : Nat) : Bool :=
  (s.boundStreams d e).all fun m => m == n || !s.readyStream d m || decide (s.rank d e n < s.rank d e m)

/-- A FOREGROUND stream of the engine has a descriptor running or ready (R191). -/
def foreground (s : State) (d : Die) (e : Nat) : Bool :=
  (s.boundStreams d e).any fun n => !s.ctxFill d n && (s.runningStream d n || s.readyStream d n)

/-- The FILL part of an engine's cistern passes to compartment `c`: zeroed when another compartment had it (R510). -/
def fillPart (s : State) (d : Die) (e c : Nat) : State :=
  let x := s.engine d e
  if x.fillCpt == some c then s
  else
    (s.setEngine d e { x with fillCpt := some c }).zeroBytes
      (cisternBase + dieCode d <<< 32 + e <<< 22 + s.cistFg (dieCode d) e) (cisternBytes - s.cistFg (dieCode d) e)

/-- Nanoseconds of `n` cycles of an island, rounded up (R544, R566). -/
def cyclesNs (s : State) (d : Die) (isl n : Nat) : Nat :=
  ceilDiv (n * 1000) (25 * max 1 (s.getF ⟨d, .clk, 0⟩ Reg.CLK_ISL_CUR isl))

/-- The engine has been without FOREGROUND work for ENG_FILL_IDLE cycles (R191). -/
def idleLong (s : State) (d : Die) (e : Nat) : Bool :=
  !s.foreground d e && decide ((s.engine d e).idleSince
    + s.cyclesNs d e (s.getF (engPg d e) Reg.ENG_FILL_IDLE_IDLE) ≤ s.base)

/-- The class of stream `n` may run on its engine: FILL work only between FILL_START or FILL_RESUME and the next FOREGROUND work, and after
the engine has been idle long enough (R191, R192, R194). -/
def classRuns (s : State) (d : Die) (n : Nat) : Bool :=
  !s.ctxFill d n || ((s.engine d (s.ctxEngine d n)).filling && s.idleLong d (s.ctxEngine d n))

/-- An opcode that runs on the engine itself: its arrays, its vector unit or its move unit (R145, R172, R192). -/
def onEngine (op : Nat) : Bool := op == 0x01 || op == 0x02 || op == 0x08 || op == 0x09 || op == 0x10

/-- A FILL descriptor that the engine itself runs has not finished: it is preempted, or would be (R192, R194). -/
def fillWaits (s : State) (d : Die) (e : Nat) : Bool :=
  (s.boundStreams d e).any fun n => s.ctxFill d n && (s.stream d n).fetched.any fun x => x.phase == .running && onEngine x.op

end State

/-! ### Commands -/

/-- FE_CTX_ENABLE: the selected stream is enabled from DISABLED or HALTED with a valid context; held records go first, and nothing is
fetched before they are written (R153, R188, R510). -/
def execFeCtxEnable (d : Die) (s : State) : Host.Outcome State Fault Refusal :=
  actD d s fun s =>
    let n := s.selStream d
    if (s.streamState d n == 0 || s.streamState d n == 3) && s.ctxValid d n && s.bindOk d n then
      let s1 := (s.setStreamState d n 1).setF (fePg d) Reg.FE_CTX_STATE_HALT_CAUSE 0 n
      if (s1.stream d n).held then (s1.flushHeld d n 16).settleHeld d n else s1
    else s.ctxReject d

/-- FE_CTX_DRAIN (R153). -/
def execFeCtxDrain (d : Die) (s : State) : Host.Outcome State Fault Refusal :=
  actD d s fun s =>
    let n := s.selStream d
    if s.streamState d n == 1 then s.setStreamState d n (if (s.stream d n).fetched.isEmpty then 0 else 2)
    else s.ctxReject d

/-- FE_CTX_ABORT (R153). -/
def execFeCtxAbort (d : Die) (s : State) : Host.Outcome State Fault Refusal :=
  actD d s fun s =>
    let n := s.selStream d
    if s.streamActive d n then s.abortStream d n else s.ctxReject d

/-- FE_CTX_DATA_WRITE: word `w` of the selected context; words 16 to 31 belong to the hardware (R152, R154). -/
def execFeCtxDataWrite (d : Die) (w : Nat) (v : W32) (s : State) : Host.Outcome State Fault Refusal :=
  actD d s fun s =>
    let n := s.selStream d
    if s.streamState d n == 0 || s.streamState d n == 3 then
      if w < 16 then s.setCtxWord d n w v.toNat else s
    else s.ctxReject d

namespace State

/-- The doorbell's test (R153, R156, R199). R153 has no row for a doorbell to a DRAINING stream; it is accepted as R156 accepts it (DESIGN
CHOICE, notes/assumptions/18.md). -/
def doorbellOk (s : State) (d : Die) (c n t : Nat) : Bool :=
  let m := s.ctxSlots d n
  s.ctxCpt d n == c && s.streamActive d n && decide (t < m)
    && decide ((t + m - s.ctxTail d n) % m ≤ (s.oldest d n + 2 * m - s.ctxTail d n - 1) % m)

end State

/-- DB_RING on the doorbell page of compartment `c` (R155, R156, R199). -/
def execDbRing (d : Die) (c : Nat) (v : W32) (s : State) : Host.Outcome State Fault Refusal :=
  actD d s fun s =>
    let n := bitsOf v.toNat 0 14
    let t := bitsOf v.toNat 14 16
    if s.doorbellOk d c n t then (s.setTail d n t).setWord (dbPg d c) 0x40 (v.toNat % 2 ^ 30)
    else (s.bump (fePg d) Reg.FE_DB_REJECTS).bump (dbPg d c) Reg.DB_REJECTS

/-- DESCRIPTOR_FETCH: the slot at HEAD of an enabled stream (R157, R160, R188). -/
def execDescriptorFetch (d : Die) (n : Nat) (s : State) : Host.Outcome State Fault Refusal :=
  actD d s fun s =>
    if s.mayFetch d n then
      match s.ringXlate d n (s.ctxManifest d n + 64 * s.ctxHead d n) false with
      | (.ok pa pbmt, s1) =>
        if s1.badIn pa 64 then (s1.reportUncorr (.stream d n) pa (s1.ctxNextSeq d n)).haltStream d n stUncorr true
        else (s1.touchRead pa 64).fetchDesc d n (if pbmt == 0 then s1.cohNat pa 64 else s1.rdNat pa 64)
      | (.fail _, s1) => s1.haltStream d n stXlateFault true
      | (.uncorr _, s1) => s1.haltStream d n stUncorr true
      | (.absent l, s1) => s1.startPageIn l
    else s

/-- DESCRIPTOR_START: a descriptor whose turn it is starts, or ends at once where it has no work (R164, R186, R190 to
R192). An empty MATMUL takes 6 cycles (R125). -/
def execDescriptorStart (d : Die) (n q : Nat) (s : State) : Host.Outcome State Fault Refusal :=
  actD d s fun s =>
    let e := s.ctxEngine d n
    if s.startable d n q && s.firstInTurn d e n && s.classRuns d n then
      let s1 := if s.ctxFill d n then s.fillPart d e (s.ctxCpt d n) else s
      let s2 := s1.noteTurn d e n
      match s2.desc? d n q with
      | some x =>
        if isEmpty x then
          (s2.updDesc d n q fun y =>
            { y with cycles := if y.op == 1 || y.op == 2 then some 6 else none, wins := s2.windowsOver (s.ctxCpt d n) x }).finish d n q stEmpty
        else s2.updDesc d n q fun y => { y with phase := .running, wins := s2.windowsOver (s.ctxCpt d n) x }
      | none => s2
    else s

/-- COMPLETION_RECORD_WRITE: the record of the oldest descriptor of a stream, once it has ended (R165, R185 to R189). -/
def execCompletionRecordWrite (d : Die) (n : Nat) (s : State) : Host.Outcome State Fault Refusal :=
  actD d s fun s =>
    match (s.stream d n).fetched with
    | x :: _ =>
      if x.phase == .ended && (!(s.stream d n).held || s.streamState d n == 1) then (s.writeRecord d n x).2.settleHeld d n else s
    | [] => s

/-- FILL_START: an engine idle long enough takes FILL work (R191). -/
def execFillStart (d : Die) (e : Nat) (s : State) : Host.Outcome State Fault Refusal :=
  actD d s fun s =>
    if s.idleLong d e && !s.fillWaits d e then s.setEngine d e { s.engine d e with filling := true } else s

/-- FILL_PREEMPT: a FOREGROUND descriptor is ready while FILL work runs; no new FILL tile or unit starts. It counts where a descriptor is
preempted: one that the arrays, the vector unit or the move unit of the engine run (R192, R197). -/
def execFillPreempt (d : Die) (e : Nat) (s : State) : Host.Outcome State Fault Refusal :=
  actD d s fun s =>
    if s.foreground d e && (s.engine d e).filling then
      let s1 := s.setEngine d e { s.engine d e with filling := false }
      if s.fillWaits d e then s1.bump (engPg d e) Reg.ENG_PREEMPTS else s1
    else s

/-- FILL_RESUME: a preempted FILL descriptor goes on after the engine was idle again (R194). -/
def execFillResume (d : Die) (e : Nat) (s : State) : Host.Outcome State Fault Refusal :=
  actD d s fun s =>
    if s.idleLong d e && s.fillWaits d e then s.setEngine d e { s.engine d e with filling := true } else s

/-- ENG_FILL_CIST_WRITE: ignored with PAGE_ERR bit 0 while a FILL stream of the engine is active; above 48 it holds 48
(R197). -/
def execEngFillCistWrite (d : Die) (e : Nat) (v : W32) (s : State) : Host.Outcome State Fault Refusal :=
  actD d s fun s =>
    if (s.boundStreams d e).any fun n => s.ctxFill d n && s.streamActive d n then s.pageErr (engPg d e)
    else s.setF (engPg d e) Reg.ENG_FILL_CIST_FILL_UNITS (min 48 (v.toNat % 64))

/-- NOP: it waits and signals as any descriptor, and ends with OK (R184). -/
def execNop (d : Die) (n q : Nat) (s : State) : Host.Outcome State Fault Refusal :=
  actD d s fun s => s.withRunning d n q 0x3F fun _ => s.finish d n q stOk

end Sys2Proof.Machine
end

