-- ==== Sys2Proof/Machine/Arrays.lean ====
section
/-! DEFINITION. The matrix arrays at work (R107 to R134, R173 to R175): tiles, their results, preloads and clearings. -/

namespace Sys2Proof.Machine

/-- `n` element codes of `b` bits from element `k` of a row's bit string on (R64). -/
def codesAt (v b k n : Nat) : List Nat := (List.range n).map fun t => bitsOf v (b * (k + t)) b

/-- The bit string of element codes of `b` bits (R64). -/
def packCodes (b : Nat) (cs : List Nat) : Nat := cs.foldr (fun c acc => c % 2 ^ b + acc <<< b) 0

namespace State

/-- Element codes written into a row from element `j` on; the other bits of its bytes stay. -/
def putElems (s : State) (pins : SMap Nat) (row b j : Nat) (cs : List Nat) : State :=
  let lo := b * j / 8
  let n := ceilDiv (b * (j + cs.length)) 8 - lo
  let old := s.rdVNat pins (row + lo) n
  s.wrV pins (row + lo) (leBytes (putBits old (b * j - 8 * lo) (b * cs.length) (packCodes b cs)) n)

/-- The first element of the rows of an operand, in row-major order, that lies in an uncorrectable codeword: rows `rows`,
`stride` apart, elements `k` to `k + n` of each; its row and element. -/
def badElem (s : State) (pins : SMap Nat) (base stride b k n : Nat) : List Nat → Option (Nat × Nat)
  | [] => none
  | i :: t =>
    let lo := b * k / 8
    let len := ceilDiv (b * (k + n)) 8 - lo
    if n != 0 && s.badV pins (base + i * stride + lo) len then
      some (i, ((List.range n).find? fun j =>
        s.badV pins (base + i * stride + b * (k + j) / 8) (ceilDiv (b * (k + j + 1)) 8 - b * (k + j) / 8)).getD 0 + k)
    else badElem s pins base stride b k n t

end State

namespace Desc

/-- The accumulation mode of a MATMUL. -/
def kind (x : Desc) : MatKind := (matKind (x.fmt 0) (x.fmt 1)).getD .mx
/-- The K range it adds: its start and length. -/
def kLo (x : Desc) : Nat := if x.mmSplit then x.mmK0 else 0
def kLen (x : Desc) : Nat := if x.mmSplit then x.mmKC else x.mmK
/-- Rows and columns of a tile (R116, R193). -/
def tileRows (fill : Bool) : Nat := if fill then 32 else 128
def tileCols (x : Desc) : Nat := if x.kind == .paired then 16 else 32
/-- Tiles of a descriptor, numbered along the rows of tiles. -/
def tilesWide (x : Desc) : Nat := ceilDiv x.mmN x.tileCols
def tiles (x : Desc) (fill : Bool) : Nat := ceilDiv x.mmM (tileRows fill) * x.tilesWide
/-- The rows and columns of tile `t`: first and count. -/
def tileRowSpan (x : Desc) (fill : Bool) (t : Nat) : Nat × Nat :=
  let r := t / x.tilesWide * tileRows fill
  (r, min (tileRows fill) (x.mmM - r))
def tileColSpan (x : Desc) (t : Nat) : Nat × Nat :=
  let c := t % x.tilesWide * x.tileCols
  (c, min x.tileCols (x.mmN - c))
/-- Both operands of 6 bits or fewer: dual mode (R108). -/
def dual (x : Desc) : Bool := decide (x.fmt 0 < 3) && decide (x.fmt 1 < 3)
/-- Weight tiles along K (R119). For a split-K descriptor the rule does not say which K it takes; here it is the add range, whose
weights alone are loaded (DESIGN CHOICE, notes/assumptions/71.md). -/
def weightTiles (x : Desc) : Nat := ceilDiv x.kLen (if x.dual then 64 else 32)

/-- Cycles of a single tile of `mt` rows (R118, R119). -/
def tileCycles (x : Desc) (mt : Nat) : Nat :=
  let p := if x.kind == .mx then ceilDiv mt 32 * ceilDiv x.mmK 32 else 0
  max 32 p + (x.weightTiles - 1) * max mt 32 + mt + 73

/-- Cycles between two tiles of `mt` rows that run back to back on one array (R120). -/
def tileInterval (x : Desc) (mt : Nat) : Nat := x.weightTiles * max mt 32

/-- A MATMUL that runs has a tile that no array has taken (R116, R138, R153). -/
def untaken (x : Desc) (fill : Bool) : Bool :=
  x.phase == .running && (x.op == 0x01 || x.op == 0x02) && !x.aborting && x.mmK != 0
    && (decide (x.next < x.tiles fill) || !x.rerun.isEmpty)

end Desc

/-- The parity bit of a cell row of a weight plane (R107). -/
def parityBit (v : Nat) : Bool :=
  let h (v k : Nat) : Nat := v ^^^ v >>> k
  (h (h (h (h (h (h (h (h (h v 256) 128) 64) 32) 16) 8) 4) 2) 1).testBit 0

/-- The operands of a tile's dot products: rows of A and columns of B, as element codes over the K range with the scale
bytes of all of K. -/
structure TileOps where
  as : List (List Nat × List Nat)
  bs : List (List Nat × List Nat)
  deriving DecidableEq, Repr

namespace State

/-- The codes of the rows of A and the columns of B of tile `t`. -/
def tileOps (s : State) (x : Desc) (fill : Bool) (t : Nat) : TileOps :=
  let r := x.tileRowSpan fill t
  let c := x.tileColSpan t
  let ba := fmtBits (x.fmt 0)
  let bb := fmtBits (x.fmt 1)
  let nb := ceilDiv x.mmK 32
  let brows := (List.range x.kLen).map fun k =>
    s.rdVNat x.pins (x.addr 24 + (x.kLo + k) * x.bStride) (Desc.rowBytes (x.fmt 1) x.mmN)
  ⟨(List.range r.2).map fun i =>
      (codesAt (s.rdVNat x.pins (x.addr 16 + (r.1 + i) * x.aStride) (Desc.rowBytes (x.fmt 0) x.mmK)) ba x.kLo x.kLen,
       if isMx (x.fmt 0) then codesAt (s.rdVNat x.pins (x.aScale + (r.1 + i) * x.aScaleStride) nb) 8 0 nb else []),
   (List.range c.2).map fun j =>
      (brows.map fun v => bitsOf v (bb * (c.1 + j)) bb,
       if isMx (x.fmt 1) then codesAt (s.rdVNat x.pins (x.bScale + (c.1 + j) * x.bScaleStride) nb) 8 0 nb else [])⟩

/-- The accumulator of one output element (R67 to R79, R127). -/
def elemAcc (x : Desc) (a b : List Nat × List Nat) : Acc :=
  match x.kind with
  | .mx =>
    mxAcc (x.fmt 0) (x.fmt 1) (mxAnchor a.2 b.2) a.1 b.1 (a.2.drop (x.kLo / 32)) (b.2.drop (x.kLo / 32))
  | .int8 => int8Acc a.1 b.1
  | .paired => pairedAcc (x.fmt 0) (x.fmt 1) a.1 b.1

/-- The accumulators of a tile, by its rows (R69, R75, R76). -/
def tileAccs (x : Desc) (ops : TileOps) : List (List Acc) := ops.as.map fun a => ops.bs.map fun b => elemAcc x a b

/-- The anchors that the pre-pass forms for a tile, in row-major order (R68, R107). -/
def tileAnchors (x : Desc) (ops : TileOps) : List Int :=
  if x.kind == .mx then ops.as.flatMap fun a => ops.bs.map fun b => mxAnchor a.2 b.2 else []

/-- Weight tile `k` along K of the columns `c` of B, as a plane holds it: cell row r has the weights of K position r, in dual mode of
positions 2r and 2r + 1 (R107, R108). -/
def planeOf (s : State) (x : Desc) (c : Nat × Nat) (k : Nat) : Plane :=
  let b := fmtBits (x.fmt 1)
  let per := if x.dual then 2 else 1
  let lo := b * c.1 / 8
  let row (p : Nat) : Nat := s.rdVNat x.pins (x.addr 24 + (x.kLo + p) * x.bStride + lo) (ceilDiv (b * (c.1 + c.2)) 8 - lo)
  let rows := (List.range 32).map fun r =>
    packCodes b ((List.range per).flatMap fun i =>
      let p := 32 * per * k + per * r + i
      let v := if p < x.kLen then row p else 0
      (List.range c.2).map fun j => bitsOf v (b * (c.1 + j) - 8 * lo) b)
  let scales := if isMx (x.fmt 1) then
      (List.range per).flatMap fun i => (List.range c.2).map fun j =>
        s.rdVNat x.pins (x.bScale + (c.1 + j) * x.bScaleStride + x.kLo / 32 + per * k + i) 1
    else []
  ⟨rows, rows.map parityBit, scales⟩

/-- The initial value of output element (i, j) (R123). -/
def initial (s : State) (x : Desc) (i j : Nat) : Num :=
  if x.mmAcc then
    let c := x.fmt 2
    let b := fmtBits c
    let v := bitsOf (s.rdVNat x.pins (x.addr 32 + i * x.outStride) x.outRow) (b * j) b
    if x.outMx then scaledElem c v (s.rdVNat x.pins (x.outScale + i * x.outScaleStride + j / 32) 1) else decodeElem c v
  else if x.biasAddr == 0 then .fin false 0 0
  else
    let b := fmtBits (x.fmt 3)
    decodeElem (x.fmt 3) (bitsOf (s.rdVNat x.pins (x.biasAddr + i * x.biasStride) (Desc.rowBytes (x.fmt 3) x.mmN)) (b * j) b)

/-- The product of the tensor scales of an INT8 MATMUL; one in the other modes and for K = 0 (R75, R125). -/
def tensorScale (s : State) (x : Desc) : Num :=
  if x.kind == .int8 && x.mmK != 0 then
    scaleProduct (decodeElem 9 (s.rdVNat x.pins x.aScale 4)) (decodeElem 9 (s.rdVNat x.pins x.bScale 4))
  else .fin false 1 0

/-- The rounding mode of output element (i, j) (R87, R89, R174). -/
def elemMode (s : State) (d : Die) (n : Nat) (x : Desc) (i j : Nat) : RMode :=
  rmode x.mmRnd (srWord (s.ctxSeed d n) (s.ctxMilestone d n) ((x.srBase + i * x.mmN + j) % 2 ^ 48) x.srSite)

/-- The results of one row of a tile written: the row, its first column, its accumulators. The flag list says which
elements report WINDOW_EXCEEDED (R72, R86, R124), which the error of the paired mode never sets (R80). -/
def writeRow (s : State) (d : Die) (n : Nat) (x : Desc) (i j0 : Nat) (accs : List Acc) : State × List Nat :=
  let fa := x.fmt 0
  let fb := x.fmt 1
  let fc := x.fmt 2
  let row := x.addr 32 + i * x.outStride
  if x.mmSplit then
    let c := if x.kind == .paired then x.mmK0 / 2048 else 0
    let l := if x.kind == .paired then raiseLevel (ceilDiv x.mmK 2048) c (clog2 (ceilDiv x.mmKC 2048)) 8 else 0
    (s.wrV x.pins (row + 32 * j0) (accs.flatMap fun a => accBytes a fa fb c l), [])
  else
    let sp := s.tensorScale x
    let outs := accs.zipIdx.map fun p =>
      let m := s.elemMode d n x i (j0 + p.2)
      (finalNum x.kind fa fb p.1 sp (s.initial x i (j0 + p.2)) (x.mmRnd == 3) (x.mmRnd == 4), m)
    if isMx fc then
      let g := mxGroup fc outs
      let hit := (accs.zip (outs.zip g.2)).zipIdx.filterMap fun p =>
        if p.1.1.sticky && x.kind != .paired && g.1 != 255 && (decodeElem fc p.1.2.2).isFin then some (i * x.mmN + j0 + p.2) else none
      ((s.putElems x.pins row (fmtBits fc) j0 g.2).wrV x.pins (x.outScale + i * x.outScaleStride + j0 / 32) (leBytes g.1 1), hit)
    else
      let es := outs.map fun o => roundElem fc o.2 o.1
      let hit := (accs.zip es).zipIdx.filterMap fun p =>
        if p.1.1.sticky && p.1.2.2 then some (i * x.mmN + j0 + p.2) else none
      (s.putElems x.pins row (fmtBits fc) j0 (es.map (·.1)), hit)

/-- The first affected element of what the tiles over rows `r` and columns `c` read, first and count (R148, R186). -/
def readBad (s : State) (x : Desc) (r c : Nat × Nat) : Option BadOp :=
  let rows := (List.range r.2).map (· + r.1)
  let nb := ceilDiv x.mmK 32
  let blk (p : Nat × Nat) : Nat := p.2 * 32
  let a := (s.badElem x.pins (x.addr 16) x.aStride (fmtBits (x.fmt 0)) x.kLo x.kLen rows).map fun p => p.1 * x.mmK + p.2
  let as := if isMx (x.fmt 0) then (s.badElem x.pins x.aScale x.aScaleStride 8 0 nb rows).map fun p => p.1 * x.mmK + blk p
    else if x.fmt 0 == 6 && x.mmK != 0 && s.badV x.pins x.aScale 4 then some 0 else none
  let ks := (List.range x.kLen).map (· + x.kLo)
  let b := (s.badElem x.pins (x.addr 24) x.bStride (fmtBits (x.fmt 1)) c.1 c.2 ks).map fun p => p.1 * x.mmN + p.2
  let bs := if isMx (x.fmt 1) then
      (s.badElem x.pins x.bScale x.bScaleStride 8 0 nb ((List.range c.2).map (· + c.1))).map fun p => blk p * x.mmN + p.1
    else if x.fmt 1 == 6 && x.mmK != 0 && s.badV x.pins x.bScale 4 then some 0 else none
  let o := if x.mmAcc then
      (s.badElem x.pins (x.addr 32) x.outStride (fmtBits (x.fmt 2)) c.1 c.2 rows).map fun p => p.1 * x.mmN + p.2
    else none
  let os := if x.mmAcc && x.outMx then
      (s.badElem x.pins x.outScale x.outScaleStride 8 (c.1 / 32) (ceilDiv (c.1 + c.2) 32 - c.1 / 32) rows).map fun p => p.1 * x.mmN + blk p
    else none
  let i := if x.mmAcc || x.biasAddr == 0 then none
    else (s.badElem x.pins x.biasAddr x.biasStride (fmtBits (x.fmt 3)) c.1 c.2 rows).map fun p => p.1 * x.mmN + p.2
  let least (u v : Option Nat) : Option Nat := match u, v with | some p, some q => some (min p q) | some p, none => some p | none, w => w
  ([(0, least a as), (1, least b bs), (2, least o os), (3, i)].findSome? fun p => p.2.map fun q => ⟨p.1, q⟩)

/-- The first element, in row-major order, that the tiles over rows `r` and columns `c` write in a word that a partial write leaves as it
is (R148, R186, R255). -/
def writeBad (s : State) (x : Desc) (r c : Nat × Nat) : Option BadOp :=
  let b := if x.mmSplit then 256 else fmtBits (x.fmt 2)
  let lo := b * c.1 / 8
  ((List.range r.2).map (· + r.1)).findSome? fun i =>
    let row := x.addr 32 + i * x.outStride
    let direct := s.partialBadV x.pins (row + lo) (ceilDiv (b * (c.1 + c.2)) 8 - lo)
    let hit (j : Nat) : Bool :=
      (direct && s.badV x.pins (row + b * j / 8) (ceilDiv (b * (j + 1)) 8 - b * j / 8))
        || (x.outMx && s.partialBadV x.pins (x.outScale + i * x.outScaleStride + j / 32) 1)
    (((List.range c.2).map (· + c.1)).find? hit).map fun j => ⟨2, i * x.mmN + j⟩

/-- The whole output of a descriptor as rows and columns. -/
def allRows (x : Desc) : Nat × Nat := (0, x.mmM)
def allCols (x : Desc) : Nat × Nat := (0, x.mmN)

/-- The results of tile `t` written, with the elements that report WINDOW_EXCEEDED. -/
def writeTile (s : State) (d : Die) (n : Nat) (x : Desc) (fill : Bool) (t : Nat) : State × List Nat :=
  (tileAccs x (s.tileOps x fill t)).zipIdx.foldl
    (fun acc p =>
      let w := acc.1.writeRow d n x ((x.tileRowSpan fill t).1 + p.2) (x.tileColSpan t).1 p.1
      (w.1, acc.2 ++ w.2))
    (s, [])

/-- The descriptor keeps the first element that reports WINDOW_EXCEEDED. -/
def noteWindow (x : Desc) (hits : List Nat) : Desc :=
  match leastPos (x.aux ++ hits) with
  | some p => { x with aux := [p] }
  | none => x

/-- A MATMUL whose tiles are all written ends: OK, or WINDOW_EXCEEDED at its first element (R72). -/
def endMatmul (s : State) (d : Die) (n q : Nat) : State :=
  match s.desc? d n q with
  | some x =>
    match x.aux with
    | p :: _ => s.finish d n q stWindow p 2
    | [] => s.finish d n q stOk
  | none => s

/-- The array without the tiles that `f` names; what streams after a tile that leaves takes its place (R117). -/
def arrWithout (r : Arr) (f : TileRun → Bool) : Arr :=
  let r1 := match r.next with | some t => if f t then { r with next := none } else r | none => r
  match r1.run with
  | some t => if f t then { r1 with run := r1.next, next := none, half := 1 - r1.half } else r1
  | none => r1

/-- The tiles of a descriptor leave the arrays of its engine. -/
def dropTiles (s : State) (d : Die) (e n seq : Nat) : State :=
  let x := s.engine d e
  s.setEngine d e { x with arrays := x.arrays.map fun a => arrWithout a fun t => t.n == n && t.seq == seq }

/-- A stream has a MATMUL running with a tile that no array has taken (R190). -/
def wantsTile (s : State) (d : Die) (n : Nat) : Bool :=
  !s.streamPaused d n && (s.stream d n).fetched.any fun x => x.untaken (s.ctxFill d n)

/-- Stream `n` may start the next tile of its engine (R190 to R192). -/
def tileTurn (s : State) (d : Die) (e n : Nat) : Bool :=
  s.classRuns d n
    && (s.boundStreams d e).all fun m => m == n || !(s.wantsTile d m || s.readyStream d m) || decide (s.rank d e n < s.rank d e m)

/-- The tag of R134: compartment and class. -/
def classTag (s : State) (d : Die) (n : Nat) : Nat := s.ctxCpt d n * 2 + (s.ctxFill d n).toNat

/-- The cycle of its descriptor in which a tile that array `r` takes now completes, where the spec gives it: the first tiles, which the
arrays of the engine take at once (R119), and those that run back to back with one of the same rows (R120). -/
def tileDone (s : State) (d : Die) (e n : Nat) (x : Desc) (r : Arr) (t : Nat) : Option Nat :=
  let fill := s.ctxFill d n
  let mt := (x.tileRowSpan fill t).2
  let mine (u : TileRun) : Bool := u.n == n && u.seq == x.seq
  match r.run with
  | some u =>
    if mine u && (x.tileRowSpan fill u.tile).2 == mt then u.done.map (· + x.tileInterval mt) else none
  | none =>
    if x.finished == 0 && x.rerun.isEmpty && r.preload != some (n, x.seq)
        && (s.engine d e).arrays.all fun a => a.run.all fun u => !mine u || u.since == s.base then
      some (x.tileCycles mt)
    else none

/-- CYCLES so far of a descriptor whose next tile completes in cycle `c` (R10, R119, R120). -/
def cyclesWith (x : Desc) (c : Option Nat) : Option Nat :=
  if x.next == 0 && x.rerun.isEmpty then c
  else match x.cycles, c with | some a, some b => some (max a b) | _, _ => none

/-- Array `a` takes the next tile of a running MATMUL, or is cleared first when another compartment or class used it. A tile that finds
one in the array uses the other half of the accumulator bank and streams while that one drains (R116, R117, R134, R138). -/
def takeTile (s : State) (d : Die) (e a n q : Nat) : State :=
  match s.desc? d n q, (s.engine d e).arrays[a]? with
  | some x, some r =>
    let fill := s.ctxFill d n
    let tag := s.classTag d n
    if (s.liveMask d e).testBit a && r.next.isNone && !r.isolated && !r.clearing && !s.streamPaused d n && x.untaken fill
        && s.tileTurn d e n then
      if r.last.isSome && r.last != some tag then
        if r.run.isNone then
          (s.updArr d e a fun y => { y with clearing := true, last := some tag, preload := none }).bump (engPg d e) Reg.ENG_SWITCHES
        else s
      else
        let t := x.rerun.headD x.next
        let c := s.tileDone d e n x r t
        let run : TileRun := ⟨n, x.seq, t, s.base, c⟩
        let first := s.planeOf x (x.tileColSpan t) 0
        let s1 := s.updArr d e a fun y =>
          if y.run.isNone then { y with run := some run, active := first, preload := none, last := some tag, reloaded := none }
          else { y with next := some run, shadow := first, preload := none, last := some tag, reloaded := none }
        (s1.noteTurn d e n).updDesc d n q fun y =>
          { y with rerun := y.rerun.drop 1, next := if y.rerun.isEmpty then y.next + 1 else y.next, cycles := cyclesWith y c }
    else s
  | _, _ => s

/-- The work of a running MATMUL: without a K it writes its initial values at once; else the idle arrays of its engine take tiles, or,
when none is idle, those whose other bank half is free (R116, R117, R125, R142). -/
def runMatmul (s : State) (d : Die) (n q : Nat) (x : Desc) : State :=
  let e := s.ctxEngine d n
  let fill := s.ctxFill d n
  if x.aborting then s
  else if s.liveMask d e == 0 then s.finish d n q stRetired
  else if x.mmK == 0 then
    match s.readBad x (allRows x) (allCols x) with
    | some b => s.finish d n q stUncorr b.position b.operand
    | none =>
      let w := (List.range (x.tiles fill)).foldl
        (fun acc t => let r := acc.1.writeTile d n x fill t; (r.1, acc.2 ++ r.2)) (s, [])
      ((w.1.updDesc d n q fun y => { y with cycles := some 6 }).finish d n q stOk).partEnd d n q (s.writeBad x (allRows x) (allCols x))
  else
    let idle := (s.engine d e).arrays.zipIdx.any fun p => (s.liveMask d e).testBit p.2 && p.1.run.isNone && !p.1.isolated
    if idle then
      (List.range 4).foldl (fun t a => if ((s.engine d e).arrays[a]?).any (·.run.isNone) then t.takeTile d e a n q else t) s
    else (List.range 4).foldl (fun t a => t.takeTile d e a n q) s

/-- ENG_BUSY after an array was active for a number of cycles that the spec does not give (R197). -/
def busyFor (s : State) (d : Die) (e : Nat) : State :=
  let v := (s.word (engPg d e) 0x60 + s.word (engPg d e) 0x64 <<< 32 + (Config.freeBusy s.free).toNat) % 2 ^ 64
  (((s.setWord (engPg d e) 0x60 (v % 2 ^ 32)).setWord (engPg d e) 0x64 (v >>> 32)).drawFree).2

end State

/-! ### Commands -/

/-- MATMUL (R116, R125, R173). -/
def execMatmul (d : Die) (n q : Nat) (s : State) : Host.Outcome State Fault Refusal :=
  actD d s fun s => s.withRunning d n q 0x01 fun x => s.runMatmul d n q x

/-- MATMUL_ACC: its initial values are the output's own elements (R123). -/
def execMatmulAcc (d : Die) (n q : Nat) (s : State) : Host.Outcome State Fault Refusal :=
  actD d s fun s => s.withRunning d n q 0x02 fun x => s.runMatmul d n q x

namespace State

/-- The first weight tile of a MATMUL as ranges of B (R108, R113). -/
def firstWeights (x : Desc) : List (Nat × Nat) :=
  let cols := min x.tileCols x.mmN
  (List.range (min (if x.dual then 64 else 32) x.kLen)).flatMap fun k =>
    physOf x.pins (x.addr 24 + (x.kLo + k) * x.bStride) (Desc.rowBytes (x.fmt 1) cols)

/-- The ranges that a descriptor writes. -/
def writesOf (x : Desc) : List (Nat × Nat) :=
  (footprint x).flatMap fun r => if r.wr then physOf x.pins r.va r.len else []

end State

/-- WEIGHT_PRELOAD: while a descriptor runs on an array, the first weight tile of the next descriptor of its stream is
loaded into the shadow plane, unless it lies in an output range of the running one, or a second tile in the array needs the plane
(R113). -/
def execWeightPreload (d : Die) (e a : Nat) (s : State) : Host.Outcome State Fault Refusal :=
  actD d s fun s =>
    match (s.engine d e).arrays[a]? with
    | some r =>
      match r.run, r.next with
      | some t, none =>
        let fs := (s.stream d t.n).fetched
        match fs.find? (fun x => x.seq == t.seq), (fs.dropWhile fun x => x.seq != t.seq)[1]? with
        | some x, some y =>
          if y.phase == .fetched && (y.op == 0x01 || y.op == 0x02) && y.mmK != 0
              && (State.firstWeights y).all (fun w => (State.writesOf x).all fun v =>
                decide (w.1 + w.2 ≤ v.1) || decide (v.1 + v.2 ≤ w.1)) then
            s.updArr d e a fun z => { z with preload := some (t.n, y.seq), shadow := s.planeOf y (y.tileColSpan 0) 0, reloaded := none }
          else s
        | _, _ => s
      | _, _ => s
    | none => s

namespace State

/-- The array after its older tile has drained: what it computed stands in the planes, the pre-pass state and its half of the bank, and
the tile in the other half comes next (R107, R111, R117). -/
def arrDrained (r : Arr) (last : Plane) (anchors : List Int) (accs : List (List Acc)) : Arr :=
  let b := accs.flatten
  { r with run := r.next, next := none, half := 1 - r.half, prepass := anchors
           active := if r.next.isSome then r.shadow else last
           bank0 := if r.half == 0 then b else r.bank0
           bank1 := if r.half == 0 then r.bank1 else b }

end State

/-- TILE_COMPLETE: the older tile in an array is rounded and written; the descriptor ends with its last tile, at an uncorrectable
operand, after a write that meets an uncorrectable word in part, or, once aborted, when none of its tiles is left in an array (R116,
R117, R148, R153, R186). -/
def execTileComplete (d : Die) (e a : Nat) (s : State) : Host.Outcome State Fault Refusal :=
  actD d s fun s =>
    match (s.engine d e).arrays[a]? with
    | some r =>
      match r.run with
      | some t =>
        if r.isolated then s
        else
          match (s.stream d t.n).fetched.find? fun x => x.seq == t.seq && x.phase == .running with
          | some x =>
            if s.writesMoving x then s else
            let fill := s.ctxFill d t.n
            let ops := s.tileOps x fill t.tile
            let s0 := (s.updArr d e a fun z => State.arrDrained z (s.planeOf x (x.tileColSpan t.tile) (x.weightTiles - 1))
              (State.tileAnchors x ops) (State.tileAccs x ops)).busyFor d e
            match s.readBad x (x.tileRowSpan fill t.tile) (x.tileColSpan t.tile) with
            | some _ =>
              match s.readBad x (State.allRows x) (State.allCols x) with
              | some b => (s0.dropTiles d e t.n t.seq).finish d t.n x.slot stUncorr b.position b.operand
              | none => s0
            | none =>
              let w := s0.writeTile d t.n x fill t.tile
              match s.writeBad x (x.tileRowSpan fill t.tile) (x.tileColSpan t.tile) with
              | some b => (w.1.dropTiles d e t.n t.seq).finish d t.n x.slot stUncorr b.position b.operand
              | none =>
                let s1 := w.1.updDesc d t.n x.slot fun y => State.noteWindow { y with finished := y.finished + 1 } w.2
                if x.aborting then
                  if s1.inArrays d e t.n t.seq then s1 else s1.finish d t.n x.slot stAborted
                else if x.finished + 1 == x.tiles fill then s1.endMatmul d t.n x.slot
                else s1
          | none => (s.updArr d e a fun z => { z with run := z.next, next := none, half := 1 - z.half }).busyFor d e
      | none => s
    | none => s

end Sys2Proof.Machine
end

