-- ==== Sys2Proof/Machine/Vector.lean ====
section
/-! DEFINITION. The vector unit (R91 to R96, R176 to R178): element operations, functions, conversions and reductions. -/

namespace Sys2Proof.Machine

/-- The exact sum of a row's terms in the long accumulator (R81, R83, R94). -/
def sumNum (down : Bool) (ts : List Num) : Num :=
  if ts.any Num.isNan then .nan
  else
    let infs := ts.filter Num.isInf
    if !infs.isEmpty then
      (if infs.all Num.neg then .inf true else if infs.all fun x => !x.neg then .inf false else .nan)
    else
      match ts.foldl (Num.add false) (.fin true 0 0) with
      | .fin neg m e =>
        if m == 0 then .fin (ts.all (fun x => x.neg && x.isZero) || (down && ts.any fun x => !x.isZero)) 0 0 else .fin neg m e
      | x => x

/-- The exact quotient, as far as one rounding needs it (R91). Division by zero and by or of an infinity, which neither R91 nor R93 gives,
is that of IEEE 754 (PRESUMED, notes/assumptions/71.md). -/
def divNum (x y : Num) : Num :=
  match x, y with
  | .nan, _ => .nan
  | _, .nan => .nan
  | .inf _, .inf _ => .nan
  | .inf a, .fin b _ _ => .inf (a != b)
  | .fin a _ _, .inf b => .fin (a != b) 0 0
  | .fin a m e, .fin b k f =>
    if k == 0 then (if m == 0 then .nan else .inf (a != b))
    else if m == 0 then .fin (a != b) 0 0
    else
      let q := quotient m k 64
      .fin (a != b) q.1 (q.2 + e - f)

/-- The greater of two numbers; a NaN gives a NaN, and +0 is greater than −0 (R177). -/
def maxNum (x y : Num) : Num := if x.isNan || y.isNan then .nan else if Num.lt x y then y else x
/-- The lesser of two numbers (R177). -/
def minNum (x y : Num) : Num := if x.isNan || y.isNan then .nan else if Num.lt y x then y else x

/-- The exact result of an element operation (R91, R93, R177). -/
def vecElem (vop : Nat) (down : Bool) (a b c : Num) : Num :=
  match vop with
  | 0x01 => Num.add down a b
  | 0x02 => Num.add down a b.negate
  | 0x03 => Num.mul a b
  | 0x04 => Num.add down (Num.mul a b) c
  | 0x05 => divNum a b
  | 0x06 => Fn.vsqrt a
  | 0x07 => maxNum a b
  | 0x08 => minNum a b
  | 0x10 => Fn.vexp a
  | 0x11 => Fn.vlog a
  | 0x12 => Fn.vrecip a
  | 0x13 => Fn.vrsqrt a
  | 0x14 => Fn.vtanh a
  | 0x15 => Fn.vsigmoid a
  | 0x16 => Fn.verf a
  | _ => a

/-- The exact result of a reduction of a row (R94, R177). -/
def vecRow (vop : Nat) (down : Bool) (as bs : List Num) : Num :=
  match vop with
  | 0x30 => sumNum down as
  | 0x31 => sumNum down (as.map fun x => Num.mul x x)
  | 0x32 => sumNum down ((as.zip bs).map fun p => Num.mul p.1 p.2)
  | _ => match as with | [] => .nan | x :: t => t.foldl maxNum x

namespace State

/-- The elements of a dense operand. -/
def dense (s : State) (pins : SMap Nat) (base c n : Nat) : List Num :=
  (codesAt (s.rdVNat pins base (Desc.rowBytes c n)) (fmtBits c) 0 n).map (decodeElem c)

/-- The first affected element of a VECTOR's sources (R148, R186). -/
def vecBad (s : State) (x : Desc) : Option BadOp :=
  let n := x.vRows * x.vRowLen
  let rd (base c : Nat) : Option Nat := (s.badElem x.pins base 0 (fmtBits c) 0 n [0]).map (·.2)
  [(0, rd (x.addr 16) (x.fmt 0)), (1, if vopUses1 x.vop && !x.vImm then rd (x.addr 24) (x.fmt 1) else none),
   (2, if x.vop == 4 then rd (x.addr 32) (x.fmt 2) else none)].findSome? fun p => p.2.map fun q => ⟨p.1, q⟩

/-- The first elements of the groups of an MX destination, in the order of their scales (R86, R178). -/
def groupStarts (x : Desc) : List Nat :=
  (List.range x.vRows).flatMap fun i => (List.range (ceilDiv x.vRowLen 32)).map fun b => i * x.vRowLen + 32 * b

/-- The first element of a VECTOR's results, among the `n` from `lo` on, in a word that a partial write leaves as it is, its own or that of
its group's scale (R148, R186, R255). -/
def vecWriteBad (s : State) (x : Desc) (lo n : Nat) : Option BadOp :=
  let b := fmtBits (x.fmt 3)
  let at0 := x.addr 40 + b * lo / 8
  let direct := s.partialBadV x.pins at0 (ceilDiv (b * (lo + n)) 8 - b * lo / 8)
  let e := if direct then
      ((List.range n).map (· + lo)).find? fun j => s.badV x.pins (x.addr 40 + b * j / 8) (ceilDiv (b * (j + 1)) 8 - b * j / 8)
    else none
  let g := if isMx (x.fmt 3) then
      ((groupStarts x).zipIdx.find? fun p => decide (lo ≤ p.1) && decide (p.1 < lo + n) && s.partialBadV x.pins (x.addr 32 + p.2) 1).map (·.1)
    else none
  (leastPos (e.toList ++ g.toList)).map fun p => ⟨3, p⟩

/-- The exact results of a VECTOR with their rounding modes, in row-major order (R89, R174, R176 to R178). -/
def vecResults (s : State) (d : Die) (n : Nat) (x : Desc) : List (Num × RMode) :=
  let m := x.vRows * x.vRowLen
  let down := x.vRnd == 3
  let as := s.dense x.pins (x.addr 16) (x.fmt 0) m
  let bs := if x.vImm then List.replicate m (decodeElem 9 (x.f 56 0 32))
    else if vopUses1 x.vop then s.dense x.pins (x.addr 24) (x.fmt 1) m else []
  let cs := if x.vop == 4 then s.dense x.pins (x.addr 32) (x.fmt 2) m else []
  let outs :=
    if vopReduces x.vop then
      (List.range x.vRows).map fun i =>
        vecRow x.vop down ((as.drop (i * x.vRowLen)).take x.vRowLen) ((bs.drop (i * x.vRowLen)).take x.vRowLen)
    else as.zipIdx.map fun p => vecElem x.vop down p.1 (bs.getD p.2 .nan) (cs.getD p.2 .nan)
  outs.zipIdx.map fun p =>
    (p.1, rmode x.vRnd (srWord (s.ctxSeed d n) (s.ctxMilestone d n) ((x.f 24 0 48 + p.2) % 2 ^ 48) (x.f 30 0 16)))

/-- The codes of the results, and the scales of an MX destination (R86, R92, R176, R178). -/
def vecCodes (x : Desc) (outs : List (Num × RMode)) : List Nat × List Nat :=
  let c := x.fmt 3
  if isMx c then
    let lines := (List.range x.vRows).flatMap fun i =>
      let row := (outs.drop (i * x.vRowLen)).take x.vRowLen
      (pieces 32 row (ceilDiv x.vRowLen 32)).map (mxGroup c)
    (lines.flatMap (·.2), lines.map (·.1))
  else (outs.map fun o => (roundElem c o.2 o.1).1, [])

/-- The results `lo` to `lo + n` written, with the scales of the groups that begin there. -/
def vecPut (s : State) (x : Desc) (codes scales : List Nat) (lo n : Nat) : State :=
  let s1 := s.putElems x.pins (x.addr 40) (fmtBits (x.fmt 3)) lo ((codes.drop lo).take n)
  match ((groupStarts x).zip scales).zipIdx.filter fun p => decide (lo ≤ p.1.1) && decide (p.1.1 < lo + n) with
  | [] => s1
  | p :: t => s1.wrV x.pins (x.addr 32 + p.2) ((p :: t).flatMap fun u => leBytes u.1.2 1)

/-- All the results of a VECTOR written. -/
def vecWrite (s : State) (x : Desc) (outs : List (Num × RMode)) : State :=
  let c := vecCodes x outs
  s.vecPut x c.1 c.2 0 (vecOut x)

/-- The vector unit passes to the stream's compartment and class: when another had it, its lane registers and its long accumulator are
zeroed (R195). -/
def vecTaken (s : State) (d : Die) (n : Nat) : State :=
  let e := s.ctxEngine d n
  let x := s.engine d e
  let tag := s.classTag d n
  s.setEngine d e
    (if x.vecLast == some tag then x else { x with vecLast := some tag, lanes := [], longAcc := .fin false 0 0 })

/-- What a VECTOR leaves in the lane registers, its last results, and in the long accumulator, the sum of its last row (R91, R94, R195). -/
def vecLeaves (s : State) (d : Die) (n : Nat) (x : Desc) (outs : List (Num × RMode)) : State :=
  let e := s.ctxEngine d n
  let rs := outs.map (·.1)
  let u := s.engine d e
  s.setEngine d e { u with
    lanes := rs.drop (rs.length - 256)
    longAcc := if 0x30 ≤ x.vop && x.vop ≤ 0x32 then rs.getLastD u.longAcc else u.longAcc }

/-- Elements in 4 KiB of a VECTOR's output, in whole groups of 32 (R192; DEDUCED, notes/assumptions/73.md). -/
def vecUnit (x : Desc) : Nat := 32768 / fmtBits (x.fmt 3) / 32 * 32

/-- The next unit of 4 KiB of a FILL stream's VECTOR written; the first reads the sources for all, and the last ends it (R192, R194). -/
def vecFill (s : State) (d : Die) (n q : Nat) (x : Desc) : State :=
  let m := vecOut x
  let lo := x.next * vecUnit x
  let k := min (vecUnit x) (m - lo)
  let c := if x.next == 0 then vecCodes x (s.vecResults d n x) else (x.aux.take m, x.aux.drop m)
  let s1 := if x.next == 0 then s.vecLeaves d n x (s.vecResults d n x) else s
  let bad := s.vecWriteBad x lo k
  let s2 := (s1.vecPut x c.1 c.2 lo k).updDesc d n q fun y => { y with next := y.next + 1, aux := c.1 ++ c.2 }
  if bad.isSome || m ≤ lo + k then (s2.finish d n q stOk).partEnd d n q bad else s2

/-- A running VECTOR whose operation is `vop`, its class running: one of a FOREGROUND stream computes, writes and ends with OK; one of a FILL
stream goes on by a unit of 4 KiB of output. The vector unit passes to the stream's compartment and class (R192, R195). -/
def runVector (s : State) (d : Die) (n q vop : Nat) : State :=
  s.withRunning d n q 0x08 fun x =>
    if x.vop != vop || !s.classRuns d n then s
    else
      let s1 := s.vecTaken d n
      match if x.next == 0 then s1.vecBad x else none with
      | some b => s1.finish d n q stUncorr b.position b.operand
      | none =>
        if s.ctxFill d n then s1.vecFill d n q x
        else
          let outs := s1.vecResults d n x
          (((s1.vecWrite x outs).vecLeaves d n x outs).finish d n q stOk).partEnd d n q (s1.vecWriteBad x 0 (vecOut x))

end State

/-! ### Commands: one for each VOP of R177 -/

/-- ADD. -/
def execAdd (d : Die) (n q : Nat) (s : State) : Host.Outcome State Fault Refusal := actD d s fun s => s.runVector d n q 0x01
/-- SUB. -/
def execSub (d : Die) (n q : Nat) (s : State) : Host.Outcome State Fault Refusal := actD d s fun s => s.runVector d n q 0x02
/-- MUL. -/
def execMul (d : Die) (n q : Nat) (s : State) : Host.Outcome State Fault Refusal := actD d s fun s => s.runVector d n q 0x03
/-- FMA: a·b + c, rounded once. -/
def execFma (d : Die) (n q : Nat) (s : State) : Host.Outcome State Fault Refusal := actD d s fun s => s.runVector d n q 0x04
/-- DIV. -/
def execDiv (d : Die) (n q : Nat) (s : State) : Host.Outcome State Fault Refusal := actD d s fun s => s.runVector d n q 0x05
/-- SQRT. -/
def execSqrt (d : Die) (n q : Nat) (s : State) : Host.Outcome State Fault Refusal := actD d s fun s => s.runVector d n q 0x06
/-- MAX. -/
def execMax (d : Die) (n q : Nat) (s : State) : Host.Outcome State Fault Refusal := actD d s fun s => s.runVector d n q 0x07
/-- MIN. -/
def execMin (d : Die) (n q : Nat) (s : State) : Host.Outcome State Fault Refusal := actD d s fun s => s.runVector d n q 0x08
/-- EXP. -/
def execExp (d : Die) (n q : Nat) (s : State) : Host.Outcome State Fault Refusal := actD d s fun s => s.runVector d n q 0x10
/-- LOG. -/
def execLog (d : Die) (n q : Nat) (s : State) : Host.Outcome State Fault Refusal := actD d s fun s => s.runVector d n q 0x11
/-- RECIP. -/
def execRecip (d : Die) (n q : Nat) (s : State) : Host.Outcome State Fault Refusal := actD d s fun s => s.runVector d n q 0x12
/-- RSQRT. -/
def execRsqrt (d : Die) (n q : Nat) (s : State) : Host.Outcome State Fault Refusal := actD d s fun s => s.runVector d n q 0x13
/-- TANH. -/
def execTanh (d : Die) (n q : Nat) (s : State) : Host.Outcome State Fault Refusal := actD d s fun s => s.runVector d n q 0x14
/-- SIGMOID. -/
def execSigmoid (d : Die) (n q : Nat) (s : State) : Host.Outcome State Fault Refusal := actD d s fun s => s.runVector d n q 0x15
/-- ERF. -/
def execErf (d : Die) (n q : Nat) (s : State) : Host.Outcome State Fault Refusal := actD d s fun s => s.runVector d n q 0x16
/-- CONVERT. -/
def execConvert (d : Die) (n q : Nat) (s : State) : Host.Outcome State Fault Refusal := actD d s fun s => s.runVector d n q 0x20
/-- SUM. -/
def execSum (d : Die) (n q : Nat) (s : State) : Host.Outcome State Fault Refusal := actD d s fun s => s.runVector d n q 0x30
/-- SUMSQ. -/
def execSumsq (d : Die) (n q : Nat) (s : State) : Host.Outcome State Fault Refusal := actD d s fun s => s.runVector d n q 0x31
/-- DOT. -/
def execDot (d : Die) (n q : Nat) (s : State) : Host.Outcome State Fault Refusal := actD d s fun s => s.runVector d n q 0x32
/-- RMAX. -/
def execRmax (d : Die) (n q : Nat) (s : State) : Host.Outcome State Fault Refusal := actD d s fun s => s.runVector d n q 0x33

end Sys2Proof.Machine
end

