-- ==== Sys2Proof/Machine/Reduce.lean ====
section
/-! DEFINITION. REDUCE_LOCAL (R99, R100, R103, R104, R128 to R133, R179): merges of partial records, ORF value sums, anchor
maxima and NRM128 sums. -/

namespace Sys2Proof.Machine

/-- A record of another mode than the first, or one that R132 does not allow; the offsets of the faulty fields. -/
def recFaults (n : Nat) (contrib : Nat) (rs : List PRec) : List Nat :=
  match rs with
  | [] => []
  | r :: _ =>
    let paired := isHalf r.ca && isHalf r.cb
    let bad := rs.any fun x =>
      x.reserved || x.ca != r.ca || x.cb != r.cb || (matKind x.ca x.cb).isNone
        || (!paired && (x.chunk != 0 || x.level != 0)) || (isMx r.ca && x.acc.anchor != r.acc.anchor)
        || (paired && (decide (n ≤ x.chunk) || x.chunk % 2 ^ x.level != 0 || decide (clog2 n < x.level)))
    let sib := !paired || (match rs with
      | [x, y] =>
        let c := min x.chunk y.chunk
        x.level == y.level && max x.chunk y.chunk == c + 2 ^ x.level && c % 2 ^ (x.level + 1) == 0
      | _ => false)
    (if bad || !sib then [16] else []) ++ (if paired && contrib != 2 then [56] else [])
      ++ (if paired && n == 0 || !paired && n != 0 then [59] else [])

/-- Records of one element merged: MX and INT8 registers added, paired windows joined (R78, R130, R131); none when the
sum overflows the 208-bit register (R132). -/
def mergeRecs (n : Nat) (rs : List PRec) : Option PRec :=
  match rs with
  | [] => none
  | r :: t =>
    if isHalf r.ca then
      match t with
      | [y] =>
        let l := if r.chunk ≤ y.chunk then r else y
        let h := if r.chunk ≤ y.chunk then y else r
        some { l with acc := mergePaired l.acc h.acc, level := raiseLevel n l.chunk (l.level + 1) 8 }
      | _ => none
    else
      let a := t.foldl (fun acc x => { acc.joinFlags x.acc with reg := acc.reg + x.acc.reg }) r.acc
      if ofSigned a.reg 208 < 2 ^ 208 && toSigned (ofSigned a.reg 208) 208 == a.reg then some { r with acc := a } else none

namespace State

/-- The records of element `i`, one of each contributor. -/
def recsAt (s : State) (x : Desc) (i : Nat) : List PRec :=
  (List.range x.rContrib).map fun c => readRec (s.rdV x.pins (x.addr 16 + c * x.rStride + 32 * i) 32)

/-- A contributor's block `b` of ORF values (R97). -/
def orfBlock (s : State) (x : Desc) (c b : Nat) : List Int :=
  let w := fmtBits (x.fmt 0)
  (codesAt (s.rdVNat x.pins (x.addr 16 + c * x.rStride + 4 * w * b) (4 * w)) w 0 32).map fun v => toSigned v w

/-- Bits of an element of a REDUCE_LOCAL's source, and of its result; elements of each. -/
def redBits (x : Desc) : Nat × Nat :=
  let b := match x.rKind with | 1 => fmtBits (x.fmt 0) | 2 => 8 | _ => 256
  (b, if x.rFin0 then fmtBits (x.fmt 1) else b)
def redElems (x : Desc) : Nat := if x.rKind == 1 then 32 * x.rCount else x.rCount

/-- The first affected element of what a REDUCE_LOCAL reads: of the source, counted over its contributors in turn, of the existing result,
of the auxiliary plane (R185, R186). -/
def redBad (s : State) (x : Desc) : Option BadOp :=
  let per := redElems x
  let src := (s.badElem x.pins (x.addr 16) x.rStride (redBits x).1 0 per (List.range x.rContrib)).map fun p => p.1 * per + p.2
  let rd := if x.rFin0 && x.rInit == 2 then (s.badElem x.pins (x.addr 24) 0 (redBits x).2 0 x.rCount [0]).map (·.2) else none
  let aux := if x.rFin0 && x.rInit == 1 then (s.badElem x.pins (x.addr 32) 0 (fmtBits (x.fmt 2)) 0 x.rCount [0]).map (·.2)
    else if x.rKind == 1 then (s.badElem x.pins (x.addr 32) 0 8 0 x.rCount [0]).map (·.2) else none
  [(0, src), (1, rd), (2, aux)].findSome? fun p => p.2.map fun q => ⟨p.1, q⟩

/-- The first element of its result, then of the anchor plane it copies, in a word that a partial write leaves as it is (R148, R186,
R255). -/
def redWriteBad (s : State) (x : Desc) : Option BadOp :=
  let b := (redBits x).2
  let wr := if s.partialBadV x.pins (x.addr 24) (reduceLen x).2 then
      (List.range (redElems x)).find? fun j => s.badV x.pins (x.addr 24 + b * j / 8) (ceilDiv (b * (j + 1)) 8 - b * j / 8)
    else none
  let wa := if x.rKind == 1 && s.partialBadV x.pins (x.addr 40) x.rCount then
      (List.range x.rCount).find? fun j => s.badV x.pins (x.addr 40 + j) 1
    else none
  [(1, wr), (3, wa)].findSome? fun p => p.2.map fun q => ⟨p.1, q⟩

/-- A REDUCE_LOCAL of a kind that is running, with the operands that its unit may read; FILL work only while it may run. -/
def withReduce (s : State) (d : Die) (n q kind : Nat) (f : Desc → State → State) : State :=
  s.withRunning d n q 0x09 fun x =>
    if x.rKind != kind || !s.classRuns d n then s
    else
      let s1 := s.vecTaken d n
      match s1.redBad x with
      | some b => s1.finish d n q stUncorr b.position b.operand
      | none => (f x s1).partEnd d n q (s1.redWriteBad x)

/-- The initial value of element `i` of a final merge (R123, R179). -/
def redInit (s : State) (x : Desc) (i : Nat) : Num :=
  match x.rInit with
  | 1 =>
    let b := fmtBits (x.fmt 2)
    decodeElem (x.fmt 2) (bitsOf (s.rdVNat x.pins (x.addr 32) (Desc.rowBytes (x.fmt 2) x.rCount)) (b * i) b)
  | 2 =>
    let b := fmtBits (x.fmt 1)
    decodeElem (x.fmt 1) (bitsOf (s.rdVNat x.pins (x.addr 24) (Desc.rowBytes (x.fmt 1) x.rCount)) (b * i) b)
  | _ => .fin false 0 0

/-- The product of the tensor scales of INT8 records: the descriptor names none, so both are open, one pair for a descriptor and its
records (R8; notes/assumptions/15.md). -/
def freeScales (x : Desc) (ms : List PRec) : Num :=
  let p := Config.reduceScales x.raw (ms.flatMap fun r => accBytes r.acc r.ca r.cb r.chunk r.level)
  scaleProduct (decodeElem 9 p.1.toNat) (decodeElem 9 p.2.toNat)

/-- The merged records written, or rounded into FMT1 (R130, R131, R133). -/
def mergeWrite (s : State) (d : Die) (n q : Nat) (x : Desc) (ms : List PRec) : State :=
  if x.rFinal then
    match ms with
    | [] => s.finish d n q stOk
    | m :: _ =>
      let kind := (matKind m.ca m.cb).getD .mx
      if kind == .paired && ms.any (fun r => r.chunk != 0 || r.level != clog2 x.rChunks) then s.finish d n q stDescFault 16
      else
        let sp := if kind == .int8 then freeScales x ms else .fin false 1 0
        let es := ms.zipIdx.map fun p =>
          roundElem (x.fmt 1) (rmode x.rRnd 0) (finalNum kind p.1.ca p.1.cb p.1.acc sp (s.redInit x p.2) (x.rRnd == 3) false)
        -- the error of a paired window never sets WINDOW_EXCEEDED (R80)
        let hit := (ms.zip es).zipIdx.filterMap fun p => if kind != .paired && p.1.1.acc.sticky && p.1.2.2 then some p.2 else none
        let s1 := s.putElems x.pins (x.addr 24) (fmtBits (x.fmt 1)) 0 (es.map (·.1))
        match hit with
        | [] => s1.finish d n q stOk
        | p :: _ => s1.finish d n q stWindow p 1
  else
    (s.wrV x.pins (x.addr 24) (ms.flatMap fun r => accBytes r.acc r.ca r.cb r.chunk r.level)).finish d n q stOk

/-- The faults of all elements' records (R132): the types agree over the whole merge. -/
def mergeFaults (x : Desc) (all : List (List PRec)) : List Nat :=
  let rs := all.flatten
  (if rs.any fun r => some (r.ca, r.cb) != rs.head?.map fun r => (r.ca, r.cb) then [16] else [])
    ++ all.flatMap fun rs => recFaults x.rChunks x.rContrib rs ++ (if (mergeRecs x.rChunks rs).isNone then [16] else [])

end State

/-! ### Commands -/

/-- PARTIAL_RECORD_MERGE (R130 to R133, R179). -/
def execPartialRecordMerge (d : Die) (n q : Nat) (s : State) : Host.Outcome State Fault Refusal :=
  actD d s fun s => s.withReduce d n q 0 fun x s =>
    let all := (List.range x.rCount).map (s.recsAt x)
    match leastPos (State.mergeFaults x all) with
    | some p => s.finish d n q stDescFault p
    | none => s.mergeWrite d n q x (all.filterMap (mergeRecs x.rChunks))

/-- ORF_VALUE_SUM: integer sums, modulo the element width, under a copy of the anchor plane (R97, R99, R179). -/
def execOrfValueSum (d : Die) (n q : Nat) (s : State) : Host.Outcome State Fault Refusal :=
  actD d s fun s => s.withReduce d n q 1 fun x s =>
    let w := fmtBits (x.fmt 0)
    let block (b : Nat) : Bytes :=
      let sums := (List.range x.rContrib).foldl (fun acc c => (acc.zip (s.orfBlock x c b)).map fun p => p.1 + p.2)
        (List.replicate 32 (0 : Int))
      leBytes (packCodes w (sums.map fun i => ofSigned i w)) (4 * w)
    let anchors := s.rdV x.pins (x.addr 32) x.rCount
    ((s.wrV x.pins (x.addr 24) ((List.range x.rCount).flatMap block)).wrV x.pins (x.addr 40) anchors).finish d n q stOk

/-- ANCHOR_MAXIMUM (R98, R179). -/
def execAnchorMaximum (d : Die) (n q : Nat) (s : State) : Host.Outcome State Fault Refusal :=
  actD d s fun s => s.withReduce d n q 2 fun x s =>
    let rows := (List.range x.rContrib).map fun c => s.rdV x.pins (x.addr 16 + c * x.rStride) x.rCount
    let out := rows.foldl (fun acc r => (acc.zip r).map fun p => if p.1.toNat < p.2.toNat then p.2 else p.1)
      (List.replicate x.rCount 0)
    (s.wrV x.pins (x.addr 24) out).finish d n q stOk

/-- A reserved bit of an NRM128 record is set (R103). -/
def nrmReserved (bs : Bytes) : Bool := bitsOf (leNat bs) 137 119 != 0

/-- NRM128 records added: N is their integer sum modulo 2^128, NONFINITE joined (R103, R104). G of records that differ in it the spec
does not state: one open value for the records (notes/assumptions/72.md). -/
def nrmSum (rs : List Bytes) : Bytes :=
  let g := (rs.headD []).getD 16 0
  let nf := rs.any fun r => (r.getD 17 0).toNat % 2 == 1
  leBytes ((rs.map fun r => leNat (r.take 16)).foldl (· + ·) 0 % 2 ^ 128) 16
    ++ (if rs.all fun r => r.getD 16 0 == g then g else Config.nrmG rs) :: leBytes nf.toNat 15

/-- NRM128_SUM (R103, R104, R179). -/
def execNrm128Sum (d : Die) (n q : Nat) (s : State) : Host.Outcome State Fault Refusal :=
  actD d s fun s => s.withReduce d n q 3 fun x s =>
    let recs (i : Nat) : List Bytes := (List.range x.rContrib).map fun c => s.rdV x.pins (x.addr 16 + c * x.rStride + 32 * i) 32
    let all := (List.range x.rCount).map recs
    if all.any fun rs => rs.any nrmReserved then s.finish d n q stDescFault 16
    else
      (s.wrV x.pins (x.addr 24) (all.flatMap nrmSum)).finish d n q stOk

end Sys2Proof.Machine
end

