-- ==== Sys2Proof/Machine/Move.lean ====
section
/-! DEFINITION. MOVE (R180, R181). -/

namespace Sys2Proof.Machine

namespace State

/-- The fields of a MOVE body. -/
def mvRowBytes (x : Desc) : Nat := x.f 32 0 32
def mvRows (x : Desc) : Nat := x.f 36 0 32
def mvSrcStride (x : Desc) : Nat := x.f 40 0 32
def mvDstStride (x : Desc) : Nat := x.f 44 0 32

/-- Bytes that a MOVE writes. -/
def mvBytes (x : Desc) : Nat := mvRows x * mvRowBytes x

/-- The first affected byte of a MOVE's source (R186). -/
def moveBad (s : State) (x : Desc) : Option BadOp :=
  if x.f 48 0 1 == 1 then none
  else (s.badElem x.pins (x.addr 16) (mvSrcStride x) 8 0 (mvRowBytes x) (List.range (mvRows x))).map fun p => ⟨0, p.1 * mvRowBytes x + p.2⟩

/-- The pieces of rows that bytes `lo` to `lo + n` of a MOVE's output, in row-major order, are: row, first byte of it, bytes. -/
def mvPieces (x : Desc) (lo n : Nat) : List (Nat × Nat × Nat) :=
  let r := mvRowBytes x
  ((List.range (n / r + 2)).map (· + lo / r)).filterMap fun i =>
    let a := max lo (i * r) - i * r
    let b := min (lo + n) ((i + 1) * r) - i * r
    if i < mvRows x && a < b then some (i, a, b - a) else none

/-- The first of these bytes in a word that a partial write leaves as it is (R148, R186, R255). -/
def moveWriteBad (s : State) (x : Desc) (lo n : Nat) : Option BadOp :=
  (mvPieces x lo n).findSome? fun p =>
    let at0 := x.addr 24 + p.1 * mvDstStride x + p.2.1
    if s.partialBadV x.pins at0 p.2.2 then
      ((List.range p.2.2).find? fun j => s.badV x.pins (at0 + j) 1).map fun j => ⟨1, p.1 * mvRowBytes x + p.2.1 + j⟩
    else none

/-- The rows of a MOVE, `row` giving their bytes, written as far as bytes `lo` to `lo + n` of the output go. -/
def movePut (s : State) (x : Desc) (row : Nat → Bytes) (lo n : Nat) : State :=
  (mvPieces x lo n).foldl (fun t p => t.wrV x.pins (x.addr 24 + p.1 * mvDstStride x + p.2.1) (((row p.1).drop p.2.1).take p.2.2)) s

/-- A running MOVE of a mode, its class running: one of a FOREGROUND stream is done whole, one of a FILL stream goes on by a unit of 4 KiB
of output (R192, R194). -/
def withMove (s : State) (d : Die) (n q mode : Nat) (row : Desc → State → Nat → Bytes) : State :=
  s.withRunning d n q 0x10 fun x =>
    if x.f 48 0 1 != mode || !s.classRuns d n then s
    else
      let lo := if s.ctxFill d n then 4096 * x.next else 0
      let k := if s.ctxFill d n then min 4096 (mvBytes x - lo) else mvBytes x
      match (s.moveBad x).filter fun b => decide (b.position < lo + k) with
      | some b => s.finish d n q stUncorr b.position b.operand
      | none =>
        let bad := s.moveWriteBad x lo k
        let s1 := s.movePut x (row x s) lo k
        if bad.isSome || mvBytes x ≤ lo + k then (s1.finish d n q stOk).partEnd d n q bad
        else s1.updDesc d n q fun y => { y with next := y.next + 1 }

end State

/-! ### Commands -/

/-- MOVE_COPY: rows copied unchanged. -/
def execMoveCopy (d : Die) (n q : Nat) (s : State) : Host.Outcome State Fault Refusal :=
  actD d s fun s => s.withMove d n q 0 fun x t i => t.rdV x.pins (x.addr 16 + i * State.mvSrcStride x) (State.mvRowBytes x)

/-- MOVE_FILL: every row holds PATTERN repeated from its byte 0. -/
def execMoveFill (d : Die) (n q : Nat) (s : State) : Host.Outcome State Fault Refusal :=
  actD d s fun s => s.withMove d n q 1 fun x _ _ =>
    (List.range (State.mvRowBytes x)).map fun j => BitVec.ofNat 8 (x.f (56 + j % 8) 0 8)

end Sys2Proof.Machine
end

