-- ==== Sys2Proof/Machine/Placement.lean ====
section
/-! DEFINITION. The placement unit (R200 to R235, R243, R244): frames, ages, evictions, page-ins, caravans and its queries. -/

namespace Sys2Proof.Machine

namespace State

/-- The die of instance k of the placement unit. -/
def plcDie (k : Nat) : Page := ⟨dieOf (12 + k % 4), .plc, 0⟩

/-- The instance that owns a lot (R205). -/
def plcOf (l : Nat) : Nat := bucketHash l % 4

/-- A compartment's floor in a tier; floors of one that is not sealed are ignored (R224). -/
def floorOf (s : State) (c tier : Nat) : Nat :=
  if s.cptSealed c then (if tier == 0 then s.nsFloor c else s.dpFloor c) else 0

/-- Lots of a compartment among the resident lots of a bucket. -/
def lotsOfCpt (s : State) (tier b c : Nat) : Nat := ((s.bucketLots tier b).filter fun e => s.lotOwner e.1 == c).length

/-- Ways of a bucket that no frame holds that is DIRECT or about to be (R493). -/
def poolWays (s : State) (tier b : Nat) : Nat := ((List.range 8192).filter fun w => !s.frameTaken tier b w).length

/-- The sum of the sealed compartments' floors in a tier (R225). -/
def sealedWays (s : State) (tier : Nat) : Nat := ((List.range 64).map fun c => s.floorOf c tier).foldl (· + ·) 0

/-- Lots that move into a bucket from the other tier. -/
def inbound (s : State) (tier b : Nat) (p : Nat → Bool) : Nat :=
  (s.place.moves.filter fun m => m.tier == tier && s.lotTier m.lot != tier && s.bucketOf tier m.lot == b && p (s.lotOwner m.lot)).length

/-- Lots of a bucket that stand outside every sealed floor. -/
def openLots (s : State) (tier b : Nat) : Nat :=
  ((s.bucketLots tier b).filter fun e => s.floorOf (s.lotOwner e.1) tier == 0).length

/-- Frames of a bucket that a new lot of compartment `c` may take now (R225): its reserved ways, or what the DIRECT frames
and every floor leave. -/
def freeFor (s : State) (tier b c : Nat) : Nat :=
  if s.floorOf c tier != 0 then s.floorOf c tier - s.lotsOfCpt tier b c - s.inbound tier b (· == c)
  else s.poolWays tier b - s.sealedWays tier - s.openLots tier b - s.inbound tier b fun o => s.floorOf o tier == 0

/-- Lots outside every floor hold ways that a floor set since reserves, or that a granule being granted takes: they must leave (R225). -/
def overfull (s : State) (tier b : Nat) : Bool := decide (s.poolWays tier b < s.sealedWays tier + s.openLots tier b)

/-- A lot that eviction may choose for a need of compartment `c` (R218, R219, R224, R225): one of its own where it has a
floor, else one outside every floor; not pinned, held, moving or being written back. -/
def evictable (s : State) (tier c l : Nat) : Bool :=
  (if s.floorOf c tier != 0 then s.lotOwner l == c else s.floorOf (s.lotOwner l) tier == 0)
    && s.lotAge l != 0xFF && !s.lotHeld l && !s.lotMoving l && !s.place.writebacks.contains l

/-- A lot of a bucket is on its way out: written back, or moving to the other tier. -/
def leaving (s : State) (tier b : Nat) : Bool :=
  (s.bucketLots tier b).any fun e => s.place.writebacks.contains e.1 || s.place.moves.any fun m => m.lot == e.1 && m.tier != tier

/-- The lot that an eviction chooses: the highest age, then the lowest way (R219). -/
def victim (s : State) (tier b c : Nat) : Option Nat :=
  (((s.bucketLots tier b).filter fun e => s.evictable tier c e.1).foldl
    (fun (best : Option (Nat × Nat)) e =>
      match best with
      | none => some e
      | some k =>
        if s.lotAge k.1 < s.lotAge e.1 || (s.lotAge k.1 == s.lotAge e.1 && decide (e.2 < k.2)) then some e else some k)
    none).map (·.1)

/-- The lowest free way of a bucket. -/
def lowWay (s : State) (tier b : Nat) : Option Nat := (List.range 8192).find? fun w => s.wayFree tier b w

/-- Occupied POOL frames of an instance in a tier (R243, R244). -/
def plcUsed (s : State) (k tier : Nat) : Nat :=
  (s.place.map.filter fun e => bitsOf e.2 0 2 == tier && s.bucketOf tier e.1 % 4 == k).length

/-- The watermarks of an instance after its levels may have changed (R243, R534). -/
def plcMarks (s : State) (k : Nat) : State :=
  let pg := plcDie k
  let s1 := s.watermark pg 0x2C (decide (s.getF pg Reg.PLC_NS_MARK_MARK < s.plcUsed k 0))
  s1.watermark pg 0x54 (decide (s.getF pg Reg.PLC_DP_MARK_MARK < s.plcUsed k 1))

/-- A lot's entry with new TIER, DIRTY, AGE and LOCATION; OWNER and GEN stay. -/
def place1 (s : State) (l tier : Nat) (dirty : Bool) (age way : Nat) : State :=
  s.setEntry l (tier + dirty.toNat * 4 + age <<< 3 + s.lotOwner l <<< 11 + s.lotGen l <<< 17 + way <<< 19)

/-- The uncorrectable codewords of a lot. -/
def lotBadCws (s : State) (l : Nat) : List (Nat × Nat) := s.bad.filter (cwHit (unifiedBase + l * 0x10000) 0x10000)

/-- The controllers note the uncorrectable codewords that a move or a write-back of a lot reads (R255). -/
def noteLotUe (s : State) (l : Nat) : State :=
  (s.lotBadCws l).foldl (fun t b => match t.cwOf b.1 with | some w => t.noteUe w b.1 | none => t) s

/-- The home of a lot as the frame has it, the codewords that are uncorrectable among them (R226, R255). -/
def homeNow (s : State) (l : Nat) : State :=
  { s with place := { s.place with
    homed := if s.place.homed.contains l then s.place.homed else l :: s.place.homed
    homeBad := s.place.homeBad.filter (fun b => !cwHit (unifiedBase + l * 0x10000) 0x10000 b) ++ s.lotBadCws l } }

/-- A lot's home is trimmed (R210). -/
def trimHome (s : State) (l : Nat) : State :=
  { s with place := { s.place with
    homed := s.place.homed.filter (· != l)
    homeBad := s.place.homeBad.filter fun b => !cwHit (unifiedBase + l * 0x10000) 0x10000 b } }

/-- A lot leaves its frame for the warehouse, its home current (R219): what decodes as uncorrectable in the home stays so (R255), and
other codewords are good when the lot returns. -/
def toWarehouse (s : State) (l : Nat) : State :=
  let s1 := s.place1 l 2 false (s.lotAge l) 0
  let mine (b : Nat × Nat) : Bool := cwHit (unifiedBase + l * 0x10000) 0x10000 b
  ({ s1 with bad := s1.bad.filter (fun b => !mine b) ++ s1.place.homeBad.filter mine }).plcMarks (plcOf l)

/-- A write-back of a lot to its home begins (R219, R226). -/
def startWriteback (s : State) (l : Nat) : State :=
  { s with place := { s.place with writebacks := s.place.writebacks ++ [l] } }

/-- A move of a lot between two frames begins (R231, R234); a wait that was counted is over. -/
def startMove (s : State) (l tier way : Nat) (caravan : Bool) : State :=
  { s with place := { s.place with moves := s.place.moves ++ [⟨l, tier, way, caravan⟩], waits := s.place.waits.filter (· != l) } }

/-- A lot waits for a frame of a full depot bucket; the wait is counted once (R222). -/
def countWait (s : State) (l : Nat) : State :=
  if s.place.waits.contains l then s
  else (State.bump { s with place := { s.place with waits := l :: s.place.waits } } (plcPg l) Reg.PLC_NOFRAME)

/-- An eviction of a depot lot: dropped when clean, else written back (R219). -/
def evictDepot (s : State) (l : Nat) : State :=
  if s.lotDirty l then s.startWriteback l else (s.bump (plcPg l) Reg.PLC_DROPS).toWarehouse l

/-- An eviction of a near-store lot; a dirty one is copied to depot way `way`, for which the depot evicts in turn where it
must; where it can evict none, the copy waits and is counted (R219, R222, R226). -/
def evictNear (s : State) (l way : Nat) : State :=
  let c := s.lotOwner l
  let b := s.bucketOf 1 l
  if !s.lotDirty l then (s.bump (plcPg l) Reg.PLC_DROPS).toWarehouse l
  else if s.cptSealed c && s.dpFloor c == 0 then s.startWriteback l
  else if 0 < s.freeFor 1 b c then (if s.wayFree 1 b way then s.startMove l 1 way false else s)
  else match s.victim 1 b c with | some v => s.evictDepot v | none => if s.leaving 1 b then s else s.countWait l

/-- An eviction of lot `l` from a tier (R219). -/
def evict (s : State) (tier l way : Nat) : State := if tier == 1 then s.evictDepot l else s.evictNear l way

/-! ### Caravans: entries and order -/

/-- An entry of a caravan's list as the unit keeps it: lot, GEN when the list was read, and 0 pending, 1 under way,
2 done. -/
def mkEntry (l gen st : Nat) : Nat := l + gen <<< 28 + st <<< 30
def entLot (e : Nat) : Nat := bitsOf e 0 28
def entGen (e : Nat) : Nat := bitsOf e 28 2
def entSt (e : Nat) : Nat := bitsOf e 30 2

/-- The descriptor of a caravan that runs. -/
def caravanDesc (s : State) (v : Nat × Nat × Nat) : Option Desc :=
  (s.desc? (dieOf (v.1 >>> 14)) (v.1 % 2 ^ 14) v.2.1).filter fun x =>
    x.seq == v.2.2 && x.phase == .running && x.op == 0x11 && !x.aux.isEmpty

/-- The pending lots that the instances have come to: of each instance the first one of the oldest caravan that has any (R235), with the
caravan's TARGET. -/
def caravanTurn (s : State) : List (Nat × Nat) :=
  let todo := s.place.caravans.flatMap fun v =>
    match s.caravanDesc v with
    | some x => (x.aux.filter fun e => entSt e == 0).map fun e => (entLot e, x.f 26 0 2)
    | none => []
  (List.range 4).filterMap fun k => todo.find? fun e => plcOf e.1 == k

/-- Compartments whose lots wait for a frame of a bucket (R219): page-ins, and lots that a caravan moves there from the other tier. -/
def waitingFor (s : State) (tier b : Nat) : List Nat :=
  ((s.place.pageins.filter fun p => (s.pageAim p).1 == tier && s.bucketOf tier p.lot == b).map fun p => s.lotOwner p.lot)
    ++ (s.caravanTurn.filter fun e => e.2 == tier && s.lotTier e.1 == 1 - tier && s.bucketOf tier e.1 == b).map fun e => s.lotOwner e.1

/-! ### Page-ins -/

/-- The pinned lots of a near-store bucket (R223). -/
def pinnedIn (s : State) (b : Nat) : Nat := ((s.bucketLots 0 b).filter fun e => s.lotAge e.1 == 0xFF).length

/-- The page-in of a lot leaves the list. -/
def dropPageIn (s : State) (l : Nat) : State :=
  { s with place := { s.place with pageins := s.place.pageins.filter fun p => p.lot != l } }

/-- The page-in of a lot changed. -/
def updPageIn (s : State) (l : Nat) (f : PageIn → PageIn) : State :=
  { s with place := { s.place with pageins := s.place.pageins.map fun p => if p.lot == l then f p else p } }

/-- A lot takes a frame of a tier: pinned where its age says so and the bucket may hold one more pinned lot (R223). -/
def takeFrame (s : State) (l tier age : Nat) (dirty : Bool) (way : Nat) : State :=
  let excess := tier == 0 && age == 0xFF && !(s.lotTier l == 0 && s.lotAge l == 0xFF) && decide (4096 ≤ s.pinnedIn (s.bucketOf 0 l))
  let s1 := if excess then s.bump (plcPg l) Reg.PLC_PIN_REFUSED else s
  (s1.place1 l tier dirty (if excess then 0 else age) way).plcMarks (plcOf l)

/-- A lot comes into a frame from its home, or zero-filled where the home is trimmed (R207, R210, R215, R229). -/
def arrive (s : State) (p : PageIn) (way : Nat) : State :=
  let aim := s.pageAim p
  let s1 := if s.place.homed.contains p.lot then s else s.zeroBytes (unifiedBase + p.lot * 0x10000) 0x10000
  (s1.dropPageIn p.lot).takeFrame p.lot aim.1 aim.2 false way

/-! ### Caravans -/

/-- A skipped lot is counted (R232). -/
def skipLot (s : State) (l : Nat) : State := s.bump (plcPg l) Reg.PLC_MIG_SKIPPED

/-- The lot is on its way: moving, paged in or written back. -/
def underWay (s : State) (l : Nat) : Bool :=
  s.lotMoving l || (s.place.pageins.any fun p => p.lot == l) || s.place.writebacks.contains l

/-- What a caravan to tier `t` does with one pending lot: the state of the entry afterwards (R231 to R233). A lot already on its way
elsewhere waits until that is over. -/
def moveLot (s : State) (t l gen : Nat) : State × Nat :=
  let tier := s.lotTier l
  let c := s.lotOwner l
  let barred := (t == 0 && s.nearLost) || s.cptSealed c && ((t == 0 && s.nsFloor c == 0) || (t == 1 && s.dpFloor c == 0))
  if s.lotGen l != gen || tier == 3 then (s.skipLot l, 2)
  else if s.underWay l then (s, 0)
  else if tier == t then
    (if s.lotAge l == 0xFF then s else s.place1 l tier (s.lotDirty l) 0 (s.lotWay l), 2)
  else if s.lotAge l == 0xFF && tier != 2 && decide (tier < t) then (s.skipLot l, 2)
  else if barred then (s.skipLot l, 2)
  else if tier == 2 then (s.startPageInAt l (some t), 1)
  else if t == 2 then
    if s.lotHeld l then (s, 0)
    else if s.lotDirty l then (s.startWriteback l, 1)
    else ((s.bump (plcPg l) Reg.PLC_DROPS).toWarehouse l, 2)
  else
    let b := s.bucketOf t l
    match (if 0 < s.freeFor t b c then s.lowWay t b else none) with
    | some w => (s.startMove l t w true, 1)
    | none =>
      if (s.victim t b c).isSome || s.leaving t b then (s, 0)
      else if t == 0 then ((s.bump (plcPg l) Reg.PLC_NOFRAME).skipLot l, 2)
      else (s.countWait l, 0)

/-- One entry of a caravan to tier `t` taken further (R231, R232): a lot that ends its way elsewhere than at `t` found no frame, or a
write cancelled its write-back. -/
def stepEntry (s : State) (t e : Nat) : State × Nat :=
  let l := entLot e
  match entSt e with
  | 0 =>
    let r := s.moveLot t l (entGen e)
    (r.1, mkEntry l (entGen e) r.2)
  | 1 =>
    if s.underWay l then (s, e)
    else if s.lotTier l == t then (s, mkEntry l (entGen e) 2)
    else (s.skipLot l, mkEntry l (entGen e) 2)
  | _ => (s, e)

/-- The 4-byte entries of a caravan's list (R180). -/
def lotList (s : State) (x : Desc) : List Nat :=
  codesAt (s.rdVNat x.pins (x.addr 16) (4 * x.f 24 0 13)) 32 0 (x.f 24 0 13)

/-- A caravan joins those that have reached the unit (R235). -/
def joinCaravans (s : State) (v : Nat × Nat × Nat) : State :=
  { s with place := { s.place with caravans := (s.place.caravans.filter fun u => u != v && (s.caravanDesc u).isSome) ++ [v] } }

/-- The instances at which a caravan before this one still has a lot to take (R235). -/
def busyBefore (s : State) (v : Nat × Nat × Nat) : List Nat :=
  (s.place.caravans.takeWhile (· != v)).flatMap fun u =>
    match s.caravanDesc u with
    | some x => (x.aux.filter fun e => entSt e == 0).map fun e => plcOf (entLot e)
    | none => []

/-- The entries of a caravan taken further: an instance goes on to its next lot once it has taken the one before, and to a caravan's
lots once it has taken those of the caravans that came before (R235). -/
def stepCaravan (s : State) (v : Nat × Nat × Nat) (x : Desc) : State × List Nat :=
  let r := x.aux.foldl
    (fun (acc : State × List Nat × List Nat) e =>
      let k := plcOf (entLot e)
      if entSt e == 2 || !s.runs (plcDie k) || (entSt e == 0 && acc.2.2.contains k) then
        (acc.1, acc.2.1 ++ [e], if entSt e == 0 then k :: acc.2.2 else acc.2.2)
      else
        let w := acc.1.stepEntry (x.f 26 0 2) e
        (w.1, acc.2.1 ++ [w.2], if entSt w.2 == 0 then k :: acc.2.2 else acc.2.2))
    (s, [], s.busyBefore v)
  (r.1, r.2.1)

/-- The first entry at fault under R230: its list index. The conditions are taken in the order of the rule. -/
def badEntry (s : State) (c : Nat) (es : List Nat) : Option Nat :=
  let at? (p : Nat → Bool) : Option Nat := es.findIdx? p
  match at? fun e => bitsOf e 28 4 != 0 with
  | some i => some i
  | none =>
    match at? fun e => s.lotTier (bitsOf e 0 28) == 3 with
    | some i => some i
    | none => at? fun e => s.lotOwner (bitsOf e 0 28) != c

end State

/-! ### Commands -/

/-- MIGRATE: a caravan reads its list, then each instance takes its lots further in list order; it ends when every lot has been moved or
skipped (R230 to R235). -/
def execMigrate (d : Die) (n q : Nat) (s : State) : Host.Outcome State Fault Refusal :=
  actD d s fun s => s.withRunning d n q 0x11 fun x =>
    let c := s.ctxCpt d n
    if !s.runs (State.plcDie 0) && !s.runs (State.plcDie 1) && !s.runs (State.plcDie 2) && !s.runs (State.plcDie 3) then s
    else if x.aux.isEmpty then
      if s.badV x.pins (x.addr 16) (4 * x.f 24 0 13) then s.finish d n q stUncorr
      else
        let es := s.lotList x
        match s.badEntry c es with
        | some i =>
          ((s.setF (plcPg (bitsOf (es.getD i 0) 0 28)) Reg.PLC_MIG_BADIDX_INDEX i).finish d n q stDescFault 16)
        | none => ((s.touchV x.pins (x.addr 16) (4 * x.f 24 0 13)).joinCaravans (State.streamKey d n, q, x.seq)).updDesc d n q fun y =>
            { y with aux := es.map fun e => State.mkEntry e (s.lotGen e) 0 }
    else
      let r := s.stepCaravan (State.streamKey d n, q, x.seq) x
      let s1 := r.1.updDesc d n q fun y => { y with aux := r.2 }
      if r.2.all fun e => State.entSt e == 2 then s1.finish d n q stOk else s1

/-- AGE_STEP of instance `k`, every millisecond: touched lots go to 0, other lots rise by 1 up to 0xFE, pinned ones stay
(R217). -/
def execAgeStep (k : Nat) (s : State) : Host.Outcome State Fault Refusal :=
  act s fun s =>
    if k < 4 && s.runs (State.plcDie k) && decide (SMap.getD s.place.ageAt k 0 + 1000000 ≤ s.base) then
      let mine (l : Nat) : Bool := State.plcOf l == k
      let age (e : Nat × Nat) : Nat :=
        let a := bitsOf e.2 3 8
        if bitsOf e.2 0 2 < 2 && mine e.1 && a != 0xFF then
          putBits e.2 3 8 (if s.place.touched.contains e.1 then 0 else min 0xFE (a + 1))
        else e.2
      { s with place := { s.place with
          map := s.place.map.map fun e => (e.1, age e)
          touched := s.place.touched.filter fun l => !mine l
          ageAt := SMap.put s.place.ageAt k s.base } }
    else s

/-- A foreground request waits on a channel of the tier: eviction ahead of demand yields to it (R220, R267). -/
def State.foregroundWaits (s : State) (tier : Nat) : Bool :=
  s.chans.any fun e => decide (e.1 < 8 * 32) == (tier == 0) && !e.2.fg.isEmpty

/-- EVICT_AHEAD: a bucket below PLC_LOW free frames, one that a lot waits for, or one whose open lots a new floor crowds out gives up the lot that R219 chooses; a
dirty near-store lot goes to depot way `way` (R219, R220, R222). -/
def execEvictAhead (near : Bool) (bucket way : Nat) (s : State) : Host.Outcome State Fault Refusal :=
  act s fun s =>
    let tier := if near then 0 else 1
    let pg := plcPgOf bucket
    if bucket < s.buckets tier && s.runs pg then
      let need := (s.waitingFor tier bucket).filter fun c => s.freeFor tier bucket c == 0
      -- a free compartment number stands for a need of no sealed compartment
      match need.head? with
      | some c => match s.victim tier bucket c with | some l => s.evict tier l way | none => s
      | none =>
        let ahead := decide (s.freeFor tier bucket 64 < s.getF pg Reg.PLC_LOW_FRAMES) && !s.foregroundWaits tier
        if s.overfull tier bucket || ahead then
          match s.victim tier bucket 64 with | some l => s.evict tier l way | none => s
        else s
    else s

/-- WRITEBACK_COMPLETE: the lot's home is current and its frame is free. A lot that is held by now keeps its frame until it is held no
longer (R218, R219, R226, R233). -/
def execWritebackComplete (lot : Nat) (s : State) : Host.Outcome State Fault Refusal :=
  act s fun s =>
    if s.place.writebacks.contains lot && !s.lotHeld lot then
      let s1 := { s with place := { s.place with writebacks := s.place.writebacks.filter (· != lot) } }
      let s2 := (s1.noteLotUe lot).homeNow lot
      ((s2.bump (plcPg lot) Reg.PLC_WRITEBACKS).toWarehouse lot).whcProgram (Config.homeOnN1 lot).toNat 0x10000 0x10000
    else s

/-- PLC_QUERY_LOT of instance `k`; PLC_QUERY_ENTRY then shows the lot's entry (R244). -/
def execPlcQueryLot (k : Nat) (v : W32) (s : State) : Host.Outcome State Fault Refusal :=
  act s fun s => if k < 4 then s.setF (State.plcDie k) Reg.PLC_QUERY_LOT_LOT v.toNat else s

end Sys2Proof.Machine
end

