-- ==== Sys2Proof/Machine/Pool.lean ====
section
/-! DEFINITION. The pool manager (R236 to R242, R245): its queues, ALLOC, FREE and SET_PLACEMENT. -/

namespace Sys2Proof.Machine

/-- The POOL page of compartment `c`. -/
def poolPg (c : Nat) : Page := ⟨.C0, .pool, c⟩

namespace State

/-- The ring of a pool queue: base, slots, head, tail (R245). -/
def poolBase (s : State) (c : Nat) : Nat :=
  s.getF (poolPg c) Reg.POOL_Q_BASE_LO_ADDR <<< 12 + s.getF (poolPg c) Reg.POOL_Q_BASE_HI_ADDR <<< 32
def poolSlots (s : State) (c : Nat) : Nat := 2 ^ s.getF (poolPg c) Reg.POOL_Q_CFG_LOG2_SLOTS
def poolHead (s : State) (c : Nat) : Nat := s.getF (poolPg c) Reg.POOL_Q_HEAD_HEAD
def poolTail (s : State) (c : Nat) : Nat := s.getF (poolPg c) Reg.POOL_Q_TAIL_TAIL
def poolNext (s : State) (c : Nat) : Nat := s.getF (poolPg c) Reg.POOL_Q_NEXT_SEQ
def poolOn (s : State) (c : Nat) : Bool := s.getF (poolPg c) Reg.POOL_Q_CFG_ENABLE == 1

/-- The request in hand: the slot it came from and its 64 bytes; the model keeps both in one number. -/
def poolReq (s : State) (c : Nat) : Option (Nat × Nat) :=
  (SMap.find s.place.poolq c).map fun v => (v >>> 512, v % 2 ^ 512)

/-- The granule that holds a byte of DIRECT memory, as owner kind and index (R492). -/
def granuleOf (a : Nat) : Nat × Nat := if nearBase ≤ a then (4, (a - nearBase) >>> 21) else (5, a >>> 21)

/-- Every granule of a range belongs to compartment `c`, and the range lies in one tier's direct range. -/
def ownsRange (s : State) (c a n : Nat) : Bool :=
  let g0 := granuleOf a
  let g1 := granuleOf (a + n - 1)
  decide (0 < n) && g0.1 == g1.1 && (decide (nearBase ≤ a && a + n ≤ 0x026000000000) || decide (a + n ≤ s.depotEnd))
    && (List.range (g1.2 - g0.2 + 1)).all fun k => s.owner g0.1 (g0.2 + k) == c

/-- A range touches a granule whose RETURN has reached the owner record and is under way (R498). -/
def rangeReturning (s : State) (a n : Nat) : Bool :=
  match s.cptOp with
  | some (r, _) =>
    let b := (if r.kind == 4 then nearBase else 0) + r.index <<< 21
    let len := if r.kind == 4 && decide ((384 - 8 * s.getF ⟨.T0, .hbmc, 0⟩ Reg.HBMC_CFG_LOCAL_GIB) * 2 ^ 30 ≤ r.index <<< 21) then 2 ^ 30
      else 2 ^ 21
    r.cmd == 4 && (r.kind == 4 || r.kind == 5) && decide (a < b + len) && decide (b < a + n)
  | none => false

/-- The rings of a queue lie wholly in granules of its compartment, none of them returning (R245, R498). -/
def poolRingsOk (s : State) (c l : Nat) : Bool :=
  s.ownsRange c (s.poolBase c) (80 * 2 ^ l) && !s.rangeReturning (s.poolBase c) (80 * 2 ^ l)

/-- The queue halts with a cause (R237). -/
def poolHalt (s : State) (c cause : Nat) : State :=
  ((s.setF (poolPg c) Reg.POOL_Q_CFG_ENABLE 0).setF (poolPg c) Reg.POOL_Q_CFG_HALTED 1).setF
    (poolPg c) Reg.POOL_Q_CFG_HALT_CAUSE cause

/-- A record in a completion slot of a queue (R185, R237); one that cannot be written halts the queue. -/
def poolRecord (s : State) (c slot seq st pos : Nat) : State :=
  let a := s.poolBase c + 64 * s.poolSlots c + 16 * slot
  if s.partialBad a 16 then (s.poolHalt c stUncorr).setF (poolPg c) Reg.POOL_Q_CFG_RECORD_LOST 1
  else
    let x := { newDesc slot seq 0 with status := st, position := pos }
    ((s.wrBytes a (recordBytes x (Config.freeCycles s.free).toNat)).drawFree).2

/-- The request in hand is done: its record is written. -/
def poolDone (s : State) (c st : Nat) (pos : Nat := posNone) : State :=
  match s.poolReq c with
  | some r =>
    State.poolRecord { s with place := { s.place with
      poolq := SMap.del s.place.poolq c, freeing := SMap.del s.place.freeing c } } c r.1 (bitsOf r.2 32 32) st pos
  | none => s

end State

/-- A field of a pool request (R237). -/
def reqF (raw byte lo w : Nat) : Nat := bitsOf raw (8 * byte + lo) w

/-- The bits of a request that its operation uses, with the output fields (R237). -/
def poolMask (raw : Nat) : Nat :=
  let out := fieldMask 32 0 32 ||| fieldMask 40 0 64 ||| fieldMask 0 0 8 ||| fieldMask 4 0 32
  match reqF raw 0 0 8 with
  | 1 => out ||| fieldMask 12 0 2 ||| fieldMask 13 0 3 ||| fieldMask 14 0 3 ||| fieldMask 16 0 45
      ||| (if reqF raw 12 0 2 == 1 then fieldMask 24 0 12 else 0)
  | 2 => out ||| fieldMask 8 0 32
  | _ => out ||| fieldMask 8 0 32 ||| fieldMask 13 0 3 ||| fieldMask 14 0 3

/-- Bytes of an ALLOC, rounded up to 64 KiB (R237). -/
def allocBytes (raw : Nat) : Nat := ceilDiv (reqF raw 16 0 45) 0x10000 * 0x10000

/-- A TILED stride obeys R211. -/
def strideOk (k : Nat) : Bool := [32, 64, 128, 256, 512, 1024, 2048].contains k

/-- The byte offset of the lowest faulty field of a request (R237, R677). -/
def poolFault (raw : Nat) : Option Nat :=
  let op := reqF raw 0 0 8
  let kind := reqF raw 12 0 2
  leastPos (broken [(op == 1 || op == 2 || op == 3, 0), (op == 2 || decide (reqF raw 13 0 3 ≤ 4), 13),
      (op == 2 || decide (reqF raw 14 0 3 ≤ 4), 14), (!(op == 1 && decide (2 ≤ kind)) || reqF raw 14 0 3 == 0, 14),
      (op != 1 || (decide (0x10000 ≤ allocBytes raw) && decide (allocBytes raw ≤ 2 ^ 44)), 16)]
    ++ (if op == 1 || op == 2 || op == 3 then (lowByte (raw &&& (2 ^ 512 - 1 - poolMask raw)) 0 64).toList else []))

namespace State

/-! ### ALLOC -/

/-- The live buffers of a compartment. -/
def liveBufs (s : State) (c : Nat) : List (Nat × Buf) :=
  (s.place.bufs.filter fun e => e.1 >>> 18 == c).map fun e => (e.1 % 2 ^ 18, e.2)

/-- A range is free for a buffer: aligned to frames or lots, in its own space, touching no live buffer, and for a DIRECT
buffer within granules of the named tier that the compartment owns and does not return (R238, R498). -/
def rangeFree (s : State) (c kind base n : Nat) : Bool :=
  base % 0x10000 == 0
    && (if kind < 2 then decide (unifiedBase ≤ base) && decide (base + n ≤ 0x200000000000)
        else (if kind == 2 then decide (nearBase ≤ base) else decide (base < nearBase)) && s.ownsRange c base n && !s.rangeReturning base n)
    && s.place.bufs.all fun e => decide (e.2.base + e.2.bytes ≤ base) || decide (base + n ≤ e.2.base)

/-- The bases at which a free range could begin: the start of the space or of a granule, and the ends of live buffers. -/
def candidates (s : State) (c kind : Nat) : List Nat :=
  (if kind < 2 then [unifiedBase]
    else if kind == 2 then
      (s.owners.filter fun e => e.1 >>> 21 == 4 && e.2 == c).map fun e => nearBase + (e.1 % 2 ^ 21) <<< 21
    else (s.owners.filter fun e => e.1 >>> 21 == 5 && e.2 == c).map fun e => (e.1 % 2 ^ 21) <<< 21)
    ++ s.place.bufs.map fun e => e.2.base + e.2.bytes

/-- The index an ALLOC may take: the one freed longest ago, else one never used (R236). -/
def indexOk (s : State) (c idx : Nat) : Bool :=
  match s.place.freed.find? fun k => k >>> 18 == c with
  | some k => k % 2 ^ 18 == idx
  | none => decide (idx < 2 ^ 18) && (SMap.find s.place.bufs (c * 2 ^ 18 + idx)).isNone
      && (SMap.find s.place.gens (c * 2 ^ 18 + idx)).isNone

/-- The lots of a range. -/
def rangeLots (base n : Nat) : List Nat := (List.range (n / 0x10000)).map fun k => (base - unifiedBase) / 0x10000 + k

/-- A buffer comes to life: its lots in the warehouse with trimmed homes, its DIRECT frames zeroed (R210, R214, R238). -/
def makeBuffer (s : State) (c idx : Nat) (b : Buf) : State :=
  let key := c * 2 ^ 18 + idx
  let p := { s.place with bufs := SMap.put s.place.bufs key b, freed := s.place.freed.filter (· != key) }
  let s1 := { s with place := p }
  if 2 ≤ b.kind then s1.zeroBytes b.base b.bytes
  else (rangeLots b.base b.bytes).foldl
    (fun t l => t.setEntry l (2 + c <<< 11 + t.lotGen l <<< 17))
    { s1 with place := { s1.place with homed := s1.place.homed.filter fun l => !(rangeLots b.base b.bytes).contains l } }

/-- The handle of a buffer (R236). -/
def handle (c idx gen : Nat) : Nat := idx + c <<< 18 + gen <<< 24

/-! ### FREE and SET_PLACEMENT -/

/-- The status of the checks of R239; 0 when both pass. -/
def handleCheck (s : State) (c h : Nat) : Nat :=
  if bitsOf h 18 6 != c then stNotOwner
  else
    match SMap.find s.place.bufs (c * 2 ^ 18 + bitsOf h 0 18) with
    | some b => if b.gen == bitsOf h 24 8 then stOk else stStale
    | none => stStale

/-- A refused handle: counted, logged and answered (R239, R621). -/
def refuseHandle (s : State) (c st seq : Nat) : State :=
  let pg := poolPg c
  let s1 := s.bump pg (if st == stNotOwner then Reg.POOL_FREE_NOT_OWNER else Reg.POOL_FREE_STALE)
  (s1.logRec { blockRec pg .refusal 15 with status := st, reqCpt := c, seq := seq }).poolDone c st

/-- A fetched descriptor of any stream holds the buffer (R218, R240). -/
def bufHeld (s : State) (b : Buf) : Bool :=
  s.streams.any fun e => e.2.fetched.any fun x => x.phase != .ended &&
    if b.kind < 2 then (descLots x).any fun l =>
      decide (b.base ≤ unifiedBase + l * 0x10000) && decide (unifiedBase + l * 0x10000 < b.base + b.bytes)
    else x.pins.any fun p => decide (b.base ≤ pinPage p.2 * 4096) && decide (pinPage p.2 * 4096 < b.base + b.bytes)

/-- A lot unallocated: TIER 3, GEN risen, its home trimmed, whatever was under way for it dropped (R207, R240). -/
def freeLot (s : State) (l : Nat) : State :=
  let p := s.place
  let s1 := { s with place := { p with
    pageins := p.pageins.filter fun x => x.lot != l
    moves := p.moves.filter fun m => m.lot != l
    writebacks := p.writebacks.filter (· != l)
    touched := p.touched.filter (· != l)
    waits := p.waits.filter (· != l) } }
  (((s1.trimHome l).setEntry l (3 + ((s.lotGen l + 1) % 4) <<< 17)).zeroBytes (unifiedBase + l * 0x10000) 0x10000).plcMarks (plcOf l)

/-- A buffer freed: its lots or frames return, its index joins the freed ones, its generation rises (R236, R240). -/
def freeBuffer (s : State) (c idx : Nat) (b : Buf) : State :=
  let key := c * 2 ^ 18 + idx
  let s1 := { s with place := { s.place with
    bufs := SMap.del s.place.bufs key
    gens := SMap.put s.place.gens key ((b.gen + 1) % 256)
    freed := s.place.freed ++ [key] } }
  if b.kind < 2 then (rangeLots b.base b.bytes).foldl freeLot s1 else s1

/-- The request in hand of a queue that runs and whose operation is `op`. -/
def withReq (s : State) (c op : Nat) (f : Nat → State) : State :=
  match s.poolReq c with
  | some r => if reqF r.2 0 0 8 == op && s.runs (poolPg c) && (SMap.find s.place.freeing c).isNone then f r.2 else s
  | none => s

end State

/-! ### Commands -/

/-- POOL_Q_TAIL: the doorbell of a pool queue (R156, R245). -/
def execPoolQTail (c : Nat) (v : W32) (s : State) : Host.Outcome State Fault Refusal :=
  actD .C0 s fun s =>
    let m := s.poolSlots c
    let t := bitsOf v.toNat 0 12
    let old := match s.poolReq c with | some r => r.1 | none => s.poolHead c
    if s.poolOn c && t < m && (t + m - s.poolTail c) % m ≤ (old + 2 * m - s.poolTail c - 1) % m then
      s.setF (poolPg c) Reg.POOL_Q_TAIL_TAIL t
    else s.bump (poolPg c) Reg.POOL_DB_REJECTS

/-- POOL_Q_ENABLE: a write of POOL_Q_CFG (R237, R245). ENABLE = 1 with a bad size or with rings not owned changes nothing on a queue that
is enabled, and leaves another disabled. -/
def execPoolQEnable (c : Nat) (v : W32) (s : State) : Host.Outcome State Fault Refusal :=
  actD .C0 s fun s =>
    let l := bitsOf v.toNat 1 4
    let s1 := s.setF (poolPg c) Reg.POOL_Q_CFG_LOG2_SLOTS l
    if bitsOf v.toNat 0 1 == 0 then s1.setF (poolPg c) Reg.POOL_Q_CFG_ENABLE 0
    else if 4 ≤ l && l ≤ 12 && s.poolRingsOk c l then
      (((s1.setF (poolPg c) Reg.POOL_Q_CFG_ENABLE 1).setF (poolPg c) Reg.POOL_Q_CFG_HALTED 0).setF
        (poolPg c) Reg.POOL_Q_CFG_HALT_CAUSE 0).setF (poolPg c) Reg.POOL_Q_CFG_RECORD_LOST 0
    else (if s.poolOn c then s else s1).pageErr (poolPg c)

/-- POOL_REQUEST_FETCH: the request at the head of an enabled queue with none in hand (R237). -/
def execPoolRequestFetch (c : Nat) (s : State) : Host.Outcome State Fault Refusal :=
  actD .C0 s fun s =>
    let h := s.poolHead c
    let a := s.poolBase c + 64 * h
    if s.runs (poolPg c) && s.poolOn c && h != s.poolTail c && (s.poolReq c).isNone then
      if s.badIn a 64 then (s.poolRecord c h (s.poolNext c) stUncorr posNone).poolHalt c stUncorr
      else
        let raw := s.rdNat a 64
        if bitsOf raw 32 32 != s.poolNext c then (s.poolRecord c h (s.poolNext c) stDescFault 4).poolHalt c stDescFault
        else
          let s1 := (s.setF (poolPg c) Reg.POOL_Q_HEAD_HEAD ((h + 1) % s.poolSlots c)).setF
            (poolPg c) Reg.POOL_Q_NEXT_SEQ (s.poolNext c + 1)
          let s2 := { s1 with place := { s1.place with poolq := SMap.put s1.place.poolq c (raw + h <<< 512) } }
          match poolFault raw with
          | some p => s2.poolDone c stDescFault p
          | none => s2
    else s

/-- ALLOC: the pool manager takes the range at `base` and the index `idx`, both of its choosing (R210, R236 to R238). -/
def execAlloc (c base idx : Nat) (s : State) : Host.Outcome State Fault Refusal :=
  actD .C0 s fun s => s.withReq c 1 fun raw =>
    let kind := reqF raw 12 0 2
    let n := allocBytes raw
    if (kind == 1 && !strideOk (reqF raw 24 0 12)) || decide (262144 ≤ (s.liveBufs c).length)
        || !(s.candidates c kind).any fun a => s.rangeFree c kind a n then s.poolDone c stDescFault 16
    else if s.rangeFree c kind base n && s.indexOk c idx then
      let gen := SMap.getD s.place.gens (c * 2 ^ 18 + idx) 0
      match s.poolReq c with
      | some r =>
        let a := s.poolBase c + 64 * r.1
        if s.badIn a 64 then s.poolDone c stUncorr
        else
          let s1 := (s.wrNat (a + 32) (State.handle c idx gen) 4).wrNat (a + 40) base 8
          (s1.makeBuffer c idx ⟨base, n, kind, reqF raw 14 0 3, reqF raw 13 0 3, gen⟩).poolDone c stOk
      | none => s
    else s

/-- FREE: its handle is checked; one that passes waits for the buffer's holders (R239, R240). -/
def execFree (c : Nat) (s : State) : Host.Outcome State Fault Refusal :=
  actD .C0 s fun s => s.withReq c 2 fun raw =>
    let h := reqF raw 8 0 32
    let st := s.handleCheck c h
    if st == stOk then { s with place := { s.place with freeing := SMap.put s.place.freeing c h } }
    else s.refuseHandle c st (bitsOf raw 32 32)

/-- SET_PLACEMENT: TARGET and HINT of a live buffer (R242); TARGET stays 0 for a DIRECT one (R237). -/
def execSetPlacement (c : Nat) (s : State) : Host.Outcome State Fault Refusal :=
  actD .C0 s fun s => s.withReq c 3 fun raw =>
    let h := reqF raw 8 0 32
    let st := s.handleCheck c h
    let key := c * 2 ^ 18 + bitsOf h 0 18
    if st != stOk then s.refuseHandle c st (bitsOf raw 32 32)
    else
      match SMap.find s.place.bufs key with
      | none => s
      | some b =>
        if 2 ≤ b.kind && reqF raw 14 0 3 != 0 then s.poolDone c stDescFault 14
        else
          let b' := { b with target := reqF raw 14 0 3, hint := reqF raw 13 0 3 }
          State.poolDone { s with place := { s.place with bufs := SMap.put s.place.bufs key b' } } c stOk

end Sys2Proof.Machine
end

