-- ==== Sys2Proof/Machine/Channels.lean ====
section
/-! DEFINITION. The memory channels (R246 to R273): codewords, marks, narrow reads, refresh, calibration, scrubs and telemetry. -/

namespace Sys2Proof.Machine

/-- The fields of a controller's registers: those of an HBMC or of a DEPC (R272, R273). -/
def corrF (d : Die) : Fld := if isTensor d then Reg.HBMC_CORR else Reg.DEPC_CORR
def uncorrF (d : Die) : Fld := if isTensor d then Reg.HBMC_UNCORR else Reg.DEPC_UNCORR
def scrubPosF (d : Die) : Fld := if isTensor d then Reg.HBMC_SCRUB_POS else Reg.DEPC_SCRUB_POS
def scrubLastF (d : Die) : Fld := if isTensor d then Reg.HBMC_SCRUB_LAST else Reg.DEPC_SCRUB_LAST
def telemDropsF (d : Die) : Fld := if isTensor d then Reg.HBMC_TELEM_DROPS else Reg.DEPC_TELEM_DROPS
/-- DEPC_REF and DEPC_CAL have the layout of the HBMC's words at the same offsets (R273). -/
def debtF : Fld := Reg.HBMC_REF_DEBT
def debtMaxF : Fld := Reg.HBMC_REF_DEBT_MAX
def forcedF : Fld := Reg.HBMC_REF_FORCED
def calForcedF : Fld := Reg.HBMC_CAL_FORCED
def stallF : Fld := Reg.HBMC_CAL_STALL_MAX_NS

/-- The die has a memory controller. -/
def hasMem (d : Die) : Bool := isTensor d || isCap d

/-- The DQ pair of a near-store symbol; the four check symbols lie in the stack's ECC storage (R251). -/
def pairOf (sym : Nat) : Option Nat := if sym < 32 then some (sym % 16) else none

/-- The decoder corrects a codeword with these erroneous symbols (R251, R252): of the near store two, or one outside the
marked pair; of the depot one. -/
def correctable (d : Die) (marked : Option Nat) (errs : List Nat) : Bool :=
  let es := errs.eraseDups
  if isTensor d then
    match marked with
    | none => decide (es.length ≤ 2)
    | some p => decide ((es.filter fun e => pairOf e != some p).length ≤ 1)
  else decide (es.length ≤ 1)

/-- Every pattern of these erroneous symbols is reported (R252): two of a depot codeword. -/
def detected (d : Die) (errs : List Nat) : Bool := isCap d && decide (errs.eraseDups.length ≤ 2)

/-- Codewords of a channel that the patrol covers (R246, R247, R270). -/
def chanCws (d : Die) : Nat := if isTensor d then 25165824 else 8388608 * 30

/-- Codewords of one scrub burst (R270). -/
def burstCws (d : Die) : Nat := if isTensor d then 16 else 30

namespace State

/-- A correction counted, with its DQ pairs (R254). -/
def noteCorr (s : State) (w : Cw) (errs : List Nat) : State :=
  let s1 := s.bump (memPg w.die) (corrF w.die) 1 w.ch
  if isTensor w.die then
    let c := s1.chan w.die w.ch
    let recent := c.corr.filter fun p => decide (s.base < p.2 + 10 ^ 9)
    s1.setChan w.die w.ch { c with corr := recent ++ ((errs.filterMap pairOf).eraseDups.map fun p => (p, s.base)) }
  else s1

/-- A codeword that decodes as uncorrectable stays so until it is written whole (R255). -/
def markBad (s : State) (a : Nat) : State :=
  if s.bad.contains (a, 64) then s else { s with bad := s.bad ++ [(a, 64)] }

/-- What a requester is told of an uncorrectable codeword it reads (R255). -/
def tellUncorr (s : State) (r : Requester) (n : Nat) : State :=
  match r with
  | .hart _ => s.answer r .accessFault
  | .pcie => s.answer r .poisoned (List.replicate n 0)
  | .inspect => State.answer { s with inspErr := true } r .done (List.replicate n 0)
  | _ => s.answer r .hardwareError

/-- The row of a codeword is opened, unless it is open, with what its tag shows; every read from it under this activation shares a
mismatch. While a compartment is sealed rows are closed after each access (R247, R252, R505). -/
def activate (s : State) (w : Cw) (tagBad : Bool) : Bool × State :=
  let c := s.chan w.die w.ch
  let t := tagBad || c.row == some (rowOf w, true)
  (t, s.setChan w.die w.ch { c with row := if s.sealPos.isEmpty then some (rowOf w, t) else none })

/-- A codeword read with erroneous symbols `errs`: the 64 bytes that the decoder delivers, or none where it is uncorrectable. A word
beyond what the code corrects is reported, or comes out as another codeword (R251, R252). -/
def readCw (s0 : State) (w : Cw) (a : Nat) (errs : List Nat) (tagBad : Bool) : Option Bytes × State :=
  let act := s0.activate w tagBad
  let s := act.2
  if act.1 && isCap w.die then (none, s.bump (memPg w.die) Reg.DEPC_TAG_ERR 1 w.ch)
  else if s.bad.contains (a, 64) || s.fenced a then (none, s)
  else if errs.isEmpty then (some (s.rdBytes a 64), s)
  else if correctable w.die (s.chan w.die w.ch).marked errs then (some (s.rdBytes a 64), s.noteCorr w errs)
  else if detected w.die errs then (none, s.markBad a)
  else
    let d := s.drawFree
    match Config.miscorrected d.1 with
    | some b => (some (leBytes b.toNat 64), d.2.noteCorr w errs)
    | none => (none, d.2.markBad a)

/-- The signed refresh debt of a channel (R268, R272). -/
def debt (s : State) (d : Die) (ch : Nat) : Int := toSigned (s.getF (memPg d) debtF ch) 5
def setDebt (s : State) (d : Die) (ch : Nat) (v : Int) : State :=
  (s.setF (memPg d) debtF (ofSigned v 5) ch).raiseMax (memPg d) debtMaxF v.toNat ch

/-- A forced calibration stalls the channel, for at most 2 µs (R269). -/
def calStalls (s : State) (d : Die) (ch : Nat) : Bool :=
  match (s.chan d ch).calRun with
  | some t => decide (s.base < t + 2000)
  | none => false

/-- A class of lower rank than `rank` has an eligible request, or the channel is stalled: `rank` gets no slot (R267). -/
def noSlot (s : State) (d : Die) (ch rank : Nat) : Bool :=
  let c := s.chan d ch
  let debt := toSigned (s.getF (memPg d) debtF ch) 5
  let open' := s.sealPos.isEmpty
  s.calStalls d ch
    || (decide (1 < rank) && debt == 8)
    || (decide (2 < rank) && c.calDue && c.calRun.isNone && (!open' || decide (c.calAt + 1000000 ≤ s.base)))
    || (decide (3 < rank) && decide (c.scrubDue ≤ s.base))
    || (decide (4 < rank) && !c.fg.isEmpty)
    || (decide (5 < rank) && (decide (0 < debt) || (open' && decide (-8 < debt))))
    || (decide (6 < rank) && c.calDue)

/-- One tREFI of refresh forced at the limit of 8 (R267, R268). -/
def forceRefresh (s : State) (d : Die) (ch : Nat) : State :=
  if s.debt d ch == 8 then (s.setDebt d ch 7).bump (memPg d) forcedF 1 ch else s

/-- tREFI of a channel, in ns: of a stack by its temperature, of a depot channel by its MR4 field (R248, R249). -/
def trefi (s : State) (d : Die) (ch : Nat) : Nat :=
  if isTensor d then (if s.getF (memPg d) Reg.HBMC_TEMP_HOT == 1 then 1950 else 3900)
  else Config.depotTrefi (s.getF (memPg d) Reg.DEPC_MR4_REF_RATE ch)

/-- The refreshes that fell due in a stall issue at its end, whatever the debt (R269). -/
def issueOwed (s : State) (d : Die) (ch : Nat) : State :=
  let c := s.chan d ch
  let full := s.debt d ch + c.late
  let forced := min c.owed (full - 7).toNat
  if c.owed == 0 then s
  else (((s.setChan d ch { c with owed := 0, late := 0 }).setDebt d ch (full - c.owed)).bump (memPg d) forcedF forced ch)

/-- One codeword of a scrub burst: corrected and written back, or left unchanged and logged (R254 to R256). -/
def scrubCw (s : State) (d : Die) (ch n : Nat) (errs : List Nat) (tagBad : Bool) : State :=
  let w : Cw := ⟨d, ch, n⟩
  let a := s.cwAddr w
  match s.readCw w a errs tagBad with
  | (some b, s1) => if b == s1.rdBytes a 64 then s1 else { s1 with mem := Memory.writeBytes s1.mem a b }
  | (none, s1) => s1.reportUncorr (.unit (memPg d)) a 0

/-- A scrub burst of a channel at the patrol's position reads every codeword of it (R270): `errs` names the erroneous symbols by codeword
of the burst, and entry 31 of a depot row, its check sector with the row tag, says that the tag does not match. -/
def scrubBurst (s : State) (d : Die) (ch : Nat) (errs : List (Nat × List Nat)) : State :=
  let pg := memPg d
  let pos := s.getF pg (scrubPosF d) ch
  let of (i : Nat) : List Nat := (errs.filter fun e => e.1 == i).flatMap (·.2)
  let s1 := (List.range (burstCws d)).foldl (fun t i => t.scrubCw d ch (pos + i) (of i) (errs.any fun e => e.1 == 31)) s
  let next := pos + burstCws d
  if next < chanCws d then s1.setF pg (scrubPosF d) next ch
  else
    let c := s1.chan d ch
    let s2 := (s1.setF pg (scrubPosF d) 0 ch).setChan d ch { c with passes := c.passes + 1 }
    if (List.range 32).all fun k => c.passes + 1 ≤ (s2.chan d k).passes then
      State.setF { s2 with scrubAt := SMap.put s2.scrubAt (dieCode d) s.base } pg (scrubLastF d)
        ((s.base - SMap.getD s.scrubAt (dieCode d) 0) / 10 ^ 9)
    else s2

/-- A DQ pair of a pseudo-channel is marked, in the register, the record and the ledger (R254, R621). -/
def markPair (s : State) (d : Die) (ch pair : Nat) : State :=
  let c := s.chan d ch
  let pg := memPg d
  let s1 := (s.setChan d ch { c with marked := some pair }).bump pg Reg.HBMC_LANES_MARKED
  ((s1.logRec (blockRec pg .corrected 121)).summary fun l => { l with marks := [dieCode d, ch, pair] :: l.marks }).ledg
    .mark [dieCode d, ch, pair]

/-- A marked pair repaired with a redundant lane, if the stack has one left (R254). -/
def repairPair (s : State) (d : Die) (ch : Nat) : State :=
  let c := s.chan d ch
  let pg := memPg d
  match c.marked with
  | some p =>
    if isTensor d && s.getF pg Reg.HBMC_LANES_REPAIRED < (Config.spareLanes (dieCode d)).toNat then
      let s1 := (s.setChan d ch { c with marked := none, corr := [] }).bump pg Reg.HBMC_LANES_REPAIRED
      ((s1.setF pg Reg.HBMC_LANES_MARKED (s.getF pg Reg.HBMC_LANES_MARKED - 1)).summary
        fun l => { l with repairs := [dieCode d, ch, p] :: l.repairs }).ledg .repair [dieCode d, ch, p]
    else s
  | none => s

/-- Some compartment is sealed: refresh and calibration come exactly when due (R507). -/
def anySealed (s : State) : Bool := !s.sealPos.isEmpty

/-- The length of the coalescing wait of a controller, in ns (R265, R272, R273). -/
def narrowWait (s : State) (d : Die) : Nat :=
  10 * s.getF (memPg d) (if isTensor d then Reg.HBMC_CFG_NARROW_WAIT else Reg.DEPC_CFG_NARROW_WAIT)

/-! ### Requests (R261 to R265) -/

/-- The die from which a requester's non-coherent traffic comes (R30); a hart's is coherent (R451). -/
def fabricDie (r : Requester) : Option Die :=
  match r with
  | .stream d _ | .qp d _ => some d
  | .pcie => some .N0
  | .unit pg => some pg.die
  | _ => none

/-- A message of class `cls` about an address with its data, in chunks of 16 bytes (R30, R31). -/
def message (src dst : Die) (cls : MsgCls) (pa : Nat) (data : Bytes) : Msg :=
  let n := (data.length + 15) / 16
  ⟨src, dst, cls, some pa,
    leBytes (Config.msgChunk (dieCode src) (dieCode dst) ([MsgCls.req, .snp, .rsp, .dat, .wb].idxOf cls) n pa).toNat 16
      :: (List.range n).map fun k => (data.drop (16 * k)).take 16⟩

/-- A request of another die has come to the die of its controller: as REQ, and its write data as DAT (R30). -/
def requestIn (s : State) (r : Requester) (d : Die) (pa : Nat) (data : Bytes) : State :=
  match (fabricDie r).filter (· != d) with
  | some x =>
    let ms := message x d .req pa [] :: if data.isEmpty then [] else [message x d .dat pa data]
    { s with arrived := ms.reverse ++ s.arrived }
  | none => s

/-- A controller's reply to another die stands in the routers of its own: read data as DAT, a completion as RSP (R30, R264). -/
def replyOut (s : State) (r : Requester) (d : Die) (pa : Nat) (data : Bytes) : State :=
  match (fabricDie r).filter (· != d) with
  | some x =>
    let m := message d x (if data.isEmpty then .rsp else .dat) pa data
    { s with routers := SMap.modify s.routers [] (dieCode d) (· ++ [⟨m, none, 0, false, false, false⟩]) }
  | none => s

/-- Narrow reads of one codeword, served by one fetch: the whole codeword is checked, and each reply carries the bytes asked for (R264,
R265). -/
def serveNarrow (s : State) (xs : List Narrow) : State :=
  match xs with
  | [] => s
  | x :: _ =>
    let a := x.pa / 64 * 64
    match s.cwOf a with
    | none => s
    | some w =>
      let (b, s1) := s.readCw w a (xs.flatMap fun y => y.ask.errs) (xs.any fun y => y.ask.tagBad)
      xs.foldl (fun t y =>
        let r := Requester.unit (lkpPg y.engine)
        match b with
        | some cw =>
          let d := y.got.getD ((cw.drop (y.pa % 64)).take y.ask.len)
          ((t.touchRead y.pa y.ask.len).replyOut r w.die y.pa d).answer r .done d
        | none => ((t.reportUncorr r a 0).replyOut r w.die y.pa []).tellUncorr r y.ask.len) s1

/-- The sectors that a fetch reads: one, or the four of the granule (R247). -/
def fetchSectors (pa : Nat) (x : Fetch) : List Nat :=
  if x.granule then (List.range 4).map fun k => pa / 256 * 256 + 64 * k else [pa / 64 * 64]

/-- Sectors read one after the other, each checked in its own row: the bytes so far, or the first that is uncorrectable. -/
def readSectors (w0 : Cw) (x : Fetch) (tagBad : Bool) : List (Nat × Nat) → Except Nat Bytes → State → Except Nat Bytes × State
  | [], r, s => (r, s)
  | (a, i) :: t, r, s =>
    match s.cwOf a with
    | none => readSectors w0 x tagBad t r s
    | some w =>
      let (b, s1) := s.readCw w a ((x.errs.filter fun e => e.1 == i).flatMap (·.2)) (if rowOf w == rowOf w0 then tagBad else x.tag2)
      let r1 := match r, b with
        | .ok d, some c => .ok (d ++ c)
        | .ok _, none => .error a
        | .error e, _ => .error e
      readSectors w0 x tagBad t r1 s1

/-- A read served: the codeword, or the granule whole once its pieces pass (R247, R251, R252, R254, R255). -/
def serveRead (s : State) (r : Requester) (pa : Nat) (x : Fetch) (tagBad : Bool) : State :=
  let as := fetchSectors pa x
  match s.cwOf (as.getD 0 0) with
  | none => s
  | some w =>
    match readSectors w x tagBad as.zipIdx (.ok []) s with
    | (.ok d, s1) => ((s1.touchRead (as.getD 0 0) (64 * as.length)).replyOut r w.die (as.getD 0 0) d).answer r .done d
    | (.error a, s1) => ((s1.reportUncorr r a 0).replyOut r w.die a []).tellUncorr r (64 * as.length)

/-- The codeword that a partial write must read first; what the decoder delivers of it stands there before the write (R253, R254). -/
def readModify (s : State) (x : MemStore) (y : (Nat × Bool) × Nat) : State :=
  if y.1.2 then s
  else
    match s.cwOf y.1.1 with
    | none => s
    | some w =>
      match s.readCw w y.1.1 ((x.errs.filter fun e => e.1 == y.2).flatMap (·.2)) x.tagBad with
      | (some b, s1) => if b == s1.rdBytes y.1.1 64 then s1 else { s1 with mem := Memory.writeBytes s1.mem y.1.1 b }
      | (none, s1) => s1.markBad y.1.1

/-- A write served: whole sectors directly, others by read-modify-write; a part of an uncorrectable codeword is not written and the writer
is told (R253, R255, R623). -/
def serveWrite (s : State) (r : Requester) (pa : Nat) (x : MemStore) : State :=
  let n := x.data.length
  let s0 := (sectorsOf pa n).zipIdx.foldl (fun t y => t.readModify x y) s
  let s1 := match s.cwOf (pa / 64 * 64) with | some w => s0.replyOut r w.die pa [] | none => s0
  if s1.partialBad pa n then
    let s2 := s1.wrBytes pa x.data
    match r with
    | .hart _ => s2.answer r .accessFault
    | .pcie => (s2.writeLostRec r (s2.cptOf r) pa).bump pciePg Reg.PCIE_AER_UNCORR
    | _ => s2.answer r .hardwareError
  else (s1.wrBytes pa x.data).answer r .done

end State

/-- The request writes. -/
def MemReq.writes (q : MemReq) : Bool := match q.op with | .write _ => true | _ => false

/-- The 64-byte sectors of a request. -/
def MemReq.sectors (q : MemReq) : List Nat :=
  match q.op with
  | .read x _ => State.fetchSectors q.pa x
  | .write x => (State.sectorsOf q.pa x.data.length).map (·.1)
  | .narrow x => [x.pa / 64 * 64]

namespace State

/-- A request served. -/
def serve (s : State) (q : MemReq) : State :=
  match q.op with
  | .read x t => s.serveRead q.src q.pa x t
  | .write x => s.serveWrite q.src q.pa x
  | .narrow x => s.serveNarrow [x]

/-- The request whose turn it is among those that `may` take the slot, as an index of the queue (R261, R262): none before an older one of
its sector; one that has waited 2 µs before every younger one; reads before writes, until 48 writes are queued, which then drain to 16; row
hits before misses; the older before the younger. -/
def pickAmong (s : State) (d : Die) (ch : Nat) (may : MemReq → Bool) : Option Nat :=
  let c := s.chan d ch
  let q := c.fg
  let idle : MemReq := ⟨.mgmt, 0, .read ⟨false, [], false⟩ false, 0⟩
  let at' (i : Nat) : MemReq := q.getD i idle
  let idx := (List.range q.length).filter fun i =>
    may (at' i) && (List.range i).all fun j => (at' i).sectors.all fun a => !(at' j).sectors.contains a
  let writes := (q.filter MemReq.writes).length
  let drain := decide (48 ≤ writes) || (c.draining && decide (16 < writes))
  let first := idx.filter fun i => (at' i).writes == drain
  let set := if first.isEmpty then idx else first
  let hit (i : Nat) : Bool := match s.cwOf ((at' i).sectors.getD 0 0) with | some w => c.row.map (·.1) == some (rowOf w) | none => false
  match idx.find? fun i => decide ((at' i).since + 2000 ≤ s.base) with
  | some i => some i
  | none => match set.find? hit with | some i => some i | none => set.head?

/-- The request that takes the slot at position `pos`: while a compartment is sealed, one of the slot's holder, or of no sealed compartment
where none holds it (R262, R505). -/
def pick (s : State) (d : Die) (ch pos : Nat) : Option Nat :=
  if s.sealPos.isEmpty then s.pickAmong d ch fun _ => true
  else
    match SMap.find s.sealPos (pos % 16) with
    | some c => s.pickAmong d ch fun q => s.cptOf q.src == c
    | none => s.pickAmong d ch fun q => !(s.sealPos.any fun e => e.2 == s.cptOf q.src)

/-- Request `i` of a channel's queue leaves it and is served; narrow reads of one codeword go together (R265). -/
def issue (s : State) (d : Die) (ch i : Nat) : State :=
  let c := s.chan d ch
  match c.fg[i]? with
  | none => s
  | some q =>
    let rest := c.fg.eraseIdx i
    let drain (l : List MemReq) : Bool :=
      let n := (l.filter MemReq.writes).length
      decide (48 ≤ n) || (c.draining && decide (16 < n))
    match q.op with
    | .narrow x =>
      let mate (y : MemReq) : Bool := match y.op with | .narrow z => z.pa / 64 == x.pa / 64 | _ => false
      let left := rest.filter fun y => !mate y
      (s.setChan d ch { c with fg := left, draining := drain left }).serveNarrow
        (x :: (rest.filter mate).filterMap fun y => match y.op with | .narrow z => some z | _ => none)
    | _ => (s.setChan d ch { c with fg := rest, draining := drain c.fg }).serve q

/-- The slots from position `pos` on given to the requests that wait, until none waits (R262, R505). -/
def drainFg (d : Die) (ch : Nat) : Nat → Nat → State → State
  | 0, _, s => s
  | k + 1, pos, s =>
    match s.pick d ch pos with
    | some i => drainFg d ch k (pos + 1) (s.issue d ch i)
    | none => if (s.chan d ch).fg.isEmpty then s else drainFg d ch k (pos + 1) s

/-- A channel that is not stalled serves what waits. -/
def runChan (s : State) (d : Die) (ch : Nat) : State :=
  if s.calStalls d ch || (s.chan d ch).fg.isEmpty then s
  else drainFg d ch (16 * ((s.chan d ch).fg.length + 1)) 0 s

/-- A request reaches its channel: it is served at once, or waits while the channel is stalled, behind those that wait (R262, R269). -/
def request (s : State) (d : Die) (ch : Nat) (q : MemReq) : State :=
  if s.calStalls d ch || !(s.chan d ch).fg.isEmpty then
    (s.setChan d ch { s.chan d ch with fg := (s.chan d ch).fg ++ [q] }).runChan d ch
  else s.serve q

/-- The narrow reads of a channel that `p` names become foreground requests (R265). -/
def ripen (s : State) (d : Die) (ch : Nat) (p : Narrow → Bool) : State :=
  let c := s.chan d ch
  s.setChan d ch { c with
    narrow := c.narrow.filter fun y => !p y
    fg := c.fg ++ (c.narrow.filter p).map fun y => ⟨.unit (lkpPg y.engine), y.pa, .narrow y, s.base⟩ }

/-- The row of a byte, for narrow reads of one channel. -/
def dramRow (s : State) (a : Nat) : Option Nat := (s.cwOf a).map rowOf

/-- Narrow reads whose wait is over issue before anything else of their channel (R265). -/
def ripeNarrow (s : State) (d : Die) (ch : Nat) : State :=
  let due (x : Narrow) : Bool := decide (x.since + s.narrowWait d ≤ s.base)
  let rows := ((s.chan d ch).narrow.filter due).map fun x => s.dramRow x.pa
  if rows.isEmpty then s else s.ripen d ch fun y => rows.contains (s.dramRow y.pa)

/-- A narrow read enters its channel's queue, unless that is full (R263). -/
def askNarrow (s : State) (k pa : Nat) (x : NarrowAsk) : State :=
  match s.cwOf pa with
  | some w =>
    let c := s.chan w.die w.ch
    if (x.len == 16 || x.len == 32) && pa % x.len == 0 && c.narrow.length < 256 then
      (s.requestIn (.unit (lkpPg k)) w.die pa []).setChan w.die w.ch { c with narrow := c.narrow ++ [⟨k, pa, x, s.base, none⟩] }
    else s
  | none => s

/-- A write of memory at the channel of each of its granules. -/
def requestWrite (s : State) (r : Requester) (pa : Nat) (x : MemStore) : State :=
  match s.cwOf (pa / 64 * 64) with
  | none => s
  | some w =>
    -- narrow reads of the sectors came first (R261)
    let t := s.ripeNarrow w.die w.ch
    let rows := ((t.chan w.die w.ch).narrow.filter fun y => decide (pa < y.pa + y.ask.len) && decide (y.pa < pa + x.data.length)).map
      fun y => t.dramRow y.pa
    let u := if rows.isEmpty then t else t.ripen w.die w.ch fun y => rows.contains (t.dramRow y.pa)
    ((u.runChan w.die w.ch).requestIn r w.die pa x.data).request w.die w.ch ⟨r, pa, .write x, s.base⟩

/-- The pieces of a write by 256-byte granules, each with its share of the erroneous symbols. -/
def granulePieces (pa : Nat) (x : MemStore) : List (Nat × MemStore) :=
  (List.range ((pa + x.data.length + 255) / 256 - pa / 256)).map fun k =>
    let b := max pa ((pa / 256 + k) * 256)
    (b, { x with
      data := (x.data.drop (b - pa)).take ((pa / 256 + k + 1) * 256 - b)
      errs := (x.errs.filter fun e => decide (b / 64 - pa / 64 ≤ e.1)).map fun e => (e.1 - (b / 64 - pa / 64), e.2) })

/-- A write taken at every channel that it reaches; one to a lot that moves waits (R234, R253). -/
def memWrite (s : State) (r : Requester) (pa : Nat) (x : MemStore) : State :=
  let n := x.data.length
  if !((sectorsOf pa n).all fun y => (s.cwOf y.1).any fun w => !s.dieDown w.die) then s
  else if s.movingIn pa n then s.stall (.memWrite r pa x)
  else (granulePieces pa x).foldl (fun t p => t.requestWrite r p.1 p.2) s

/-! ### Training (R248, R254, R611) -/

/-- The marks and repairs that the ledger holds applied to the controller of a die as it trains, and redundant lanes assigned to pairs
that are marked (R248, R254, R657). -/
def trainLanes (s : State) (k : Nat) : State :=
  let d := dieOf k
  let mine (l : List (List Nat)) : List (List Nat) := l.filter fun e => e.getD 0 0 == k
  let open' := (mine s.ledger.marks).filter fun m => !s.ledger.repairs.contains m
  let s1 := (s.setF (memPg d) Reg.HBMC_LANES_REPAIRED (mine s.ledger.repairs).length).setF (memPg d) Reg.HBMC_LANES_MARKED open'.length
  open'.foldl (fun t m =>
    (t.setChan d (m.getD 1 0) { t.chan d (m.getD 1 0) with marked := some (m.getD 2 0) }).repairPair d (m.getD 1 0)) s1

/-- The memory of a die trains after its recovery reset: the marks of a stack's pairs and their repairs (R248, R249, R254, R611). -/
def trainMemory (s : State) (d : Die) : State := if isTensor d then s.trainLanes (dieCode d) else s

/-- Every stack trains. -/
def applyLanes (s : State) : State := (List.range 8).foldl trainLanes s

/-- All-bank refresh of every channel, before self refresh and at start-up: rows are closed, no refresh is owed, and the intervals start
again (R248). -/
def allBankRefresh (s : State) : State :=
  let one (e : Nat × Chan) : Nat × Chan :=
    let d := dieOf (e.1 / 32)
    (e.1, { e.2 with refAt := s.base + s.trefi d (e.1 % 32), calAt := s.base + 64000000, calDue := false, calRun := none, row := none
                     scrubDue := s.base + scrubEvery d, owed := 0, late := 0 })
  let s1 : State := { s with chans := s.chans.map one, chanAt := (List.range 16).map fun k => (k, s.base) }
  (((List.range 16).filter fun k => hasMem (dieOf k)).flatMap fun k => (List.range 32).map fun ch => (dieOf k, ch)).foldl
    (fun t x => if t.getF (memPg x.1) debtF x.2 == 0 then t else t.setF (memPg x.1) debtF 0 x.2) s1

end State

/-! ### Commands -/

/-- MEM_READ: a codeword, or its granule, read for a requester, with the symbols that arrive wrong and whether a depot row's tag fails to
match (R30, R247, R251, R252, R254, R255, R261, R262). -/
def execMemRead (r : Requester) (pa : Nat) (x : Fetch) (tagBad : Bool) (s : State) : Host.Outcome State Fault Refusal :=
  act s fun s =>
    match s.cwOf ((State.fetchSectors pa x).getD 0 0) with
    | some w =>
      if s.dieDown w.die then s
      else (((s.ripeNarrow w.die w.ch).runChan w.die w.ch).requestIn r w.die pa []).request w.die w.ch ⟨r, pa, .read x tagBad, s.base⟩
    | none => s

/-- MEM_WRITE: bytes written for a requester; a part of an uncorrectable codeword is not written and the writer is told
(R253, R255, R261, R262, R623). -/
def execMemWrite (r : Requester) (pa : Nat) (x : MemStore) (s : State) : Host.Outcome State Fault Refusal :=
  act s fun s => s.memWrite r pa x

/-- NARROW_READ: lookup engine `k` reads 16 or 32 bytes, aligned to their size, through a channel's narrow queue (R263). -/
def execNarrowRead (k pa : Nat) (x : NarrowAsk) (s : State) : Host.Outcome State Fault Refusal :=
  act s fun s => s.askNarrow k pa x

/-- NARROW_WAIT_EXPIRY: the oldest narrow read of a channel has waited its time; it issues with every read of its row, those of a codeword
by one fetch (R262, R264, R265). -/
def execNarrowWaitExpiry (d : Die) (ch : Nat) (s : State) : Host.Outcome State Fault Refusal :=
  actD d s fun s => (s.ripeNarrow d ch).runChan d ch

/-- REFRESH_DUE: a tREFI has passed on a channel; its refresh is postponed, and at the limit one is forced, after a
calibration stall where one runs; while a compartment is sealed it issues at once (R248, R249, R268, R269, R507). -/
def execRefreshDue (d : Die) (ch : Nat) (s : State) : Host.Outcome State Fault Refusal :=
  actD d s fun s =>
    let c := s.chan d ch
    if hasMem d && decide (ch < 32) && decide (c.refAt ≤ s.base) then
      let c0 := { c with refAt := c.refAt + s.trefi d ch }
      if c.calRun.isSome then
        let full := decide (s.debt d ch == 8)
        (s.setChan d ch { c0 with owed := c.owed + 1, late := c.late + full.toNat }).setDebt d ch (min 8 (s.debt d ch + 1))
      else if s.anySealed then s.setChan d ch c0
      else ((s.setChan d ch c0).setDebt d ch (min 8 (s.debt d ch + 1))).forceRefresh d ch
    else s

/-- REFRESH_PULL_IN: a slot that foreground leaves free takes a postponed refresh, or one ahead, down to −8, but none ahead while a
compartment is sealed (R267, R268, R507). -/
def execRefreshPullIn (d : Die) (ch : Nat) (s : State) : Host.Outcome State Fault Refusal :=
  actD d s fun s =>
    if hasMem d && decide (ch < 32) && !s.noSlot d ch 5 && decide (-8 < s.debt d ch)
        && (!s.anySealed || decide (0 < s.debt d ch)) then
      s.setDebt d ch (s.debt d ch - 1)
    else s

/-- CALIBRATION_DUE: 64 ms after the last, periodic calibration falls due (R248, R249). -/
def execCalibrationDue (d : Die) (ch : Nat) (s : State) : Host.Outcome State Fault Refusal :=
  actD d s fun s =>
    let c := s.chan d ch
    if hasMem d && decide (ch < 32) && !c.calDue && decide (c.calAt ≤ s.base) then s.setChan d ch { c with calDue := true } else s

/-- FORCED_CALIBRATION: 1 ms overdue, or at once while a compartment is sealed, it stalls its channel (R267, R269, R507). -/
def execForcedCalibration (d : Die) (ch : Nat) (s : State) : Host.Outcome State Fault Refusal :=
  actD d s fun s =>
    let c := s.chan d ch
    if c.calDue && c.calRun.isNone && (s.anySealed || decide (c.calAt + 1000000 ≤ s.base)) then
      (s.setChan d ch { c with calRun := some s.base }).bump (memPg d) calForcedF
    else s

/-- CALIBRATION_END: a forced calibration, or one in a free slot, is done; the next falls due 64 ms later; a marked pair is repaired,
refresh that fell due during a stall issues, and the requests that waited go on (R254, R262, R267, R269). -/
def execCalibrationEnd (d : Die) (ch : Nat) (s : State) : Host.Outcome State Fault Refusal :=
  actD d s fun s =>
    let c := s.chan d ch
    if c.calDue && (c.calRun.isSome || !s.noSlot d ch 6) then
      let s1 := s.setChan d ch { c with calDue := false, calRun := none, calAt := s.base + 64000000 }
      let s2 := match c.calRun with
        | some t => (s1.issueOwed d ch).raiseMax (memPg d) stallF (min 2000 (s.base - t))
        | none => s1
      (s2.repairPair d ch).runChan d ch
    else s

/-- GUARANTEED_SCRUB: the burst that comes once in 2^20 data slots whatever SCRUB_EN says (R267, R270). -/
def execGuaranteedScrub (d : Die) (ch : Nat) (errs : List (Nat × List Nat)) (s : State) : Host.Outcome State Fault Refusal :=
  actD d s fun s =>
    let c := s.chan d ch
    if hasMem d && decide (ch < 32) && decide (c.scrubDue ≤ s.base) && !s.noSlot d ch 3 then
      (s.setChan d ch { c with scrubDue := c.scrubDue + State.scrubEvery d }).scrubBurst d ch errs
    else s

/-- PATROL_SCRUB: a burst in a slot no other class takes, while SCRUB_EN is 1 (R267, R270). -/
def execPatrolScrub (d : Die) (ch : Nat) (errs : List (Nat × List Nat)) (s : State) : Host.Outcome State Fault Refusal :=
  actD d s fun s =>
    let en := s.getF (memPg d) (if isTensor d then Reg.HBMC_CFG_SCRUB_EN else Reg.DEPC_CFG_SCRUB_EN)
    if hasMem d && decide (ch < 32) && en == 1 && !s.noSlot d ch 8 then s.scrubBurst d ch errs else s

/-- DQ_PAIR_MARK: a pair with 16 corrections within 1 s is marked (R254). -/
def execDqPairMark (d : Die) (ch pair : Nat) (s : State) : Host.Outcome State Fault Refusal :=
  actD d s fun s =>
    let c := s.chan d ch
    let k := (c.corr.filter fun p => p.1 == pair && decide (s.base < p.2 + 10 ^ 9)).length
    if isTensor d && ch < 32 && pair < 16 && c.marked.isNone && 16 ≤ k then s.markPair d ch pair else s

/-- TELEMETRY_SAMPLE: every 10 µs a controller's counters go into its buffer of 1,024 samples, which the management controller may have
drained since the last; a full one drops the sample (R271). -/
def execTelemetrySample (d : Die) (s : State) : Host.Outcome State Fault Refusal :=
  actD d s fun s =>
    let pg := memPg d
    let k := dieCode d
    if !hasMem d || decide (s.base < SMap.getD s.telemAt k 0 + 10000) then s
    else
      let b := if Config.telemDrained s.drawFree.1 then [] else SMap.getD s.telem k []
      let s1 : State := { s.drawFree.2 with telemAt := SMap.put s.telemAt k s.base }
      if b.length < 1024 then
        { s1 with telem := SMap.put s.telem k (b ++ [(s.base, s.regs.filter fun e => keyPage e.1 == pageNo pg)]) }
      else ({ s1 with telem := SMap.put s.telem k b } : State).bump pg (telemDropsF d)

/-- STACK_TEMPERATURE_SAMPLE: the reading, and the shorter tREFI above 85 °C (R248). -/
def execStackTemperatureSample (d : Die) (temp : Nat) (s : State) : Host.Outcome State Fault Refusal :=
  actD d s fun s =>
    if isTensor d then
      (s.setF (memPg d) Reg.HBMC_TEMP_TEMP_C (min temp 255)).setF (memPg d) Reg.HBMC_TEMP_HOT (decide (85 < temp)).toNat
    else s

/-- MR4_READ: the refresh-rate field of a depot channel (R249). -/
def execMr4Read (d : Die) (ch rate : Nat) (s : State) : Host.Outcome State Fault Refusal :=
  actD d s fun s => if isCap d && ch < 32 then s.setF (memPg d) Reg.DEPC_MR4_REF_RATE rate ch else s

/-- LOCAL_GIB_WRITE: L of R257, at most 16, until the placement unit opens the pool (R260). -/
def execLocalGibWrite (v : W32) (s : State) : Host.Outcome State Fault Refusal :=
  act s fun s =>
    let pg : Page := ⟨.T0, .hbmc, 0⟩
    if s.getF pg Reg.HBMC_CFG_LOCKED == 1 then s else s.setF pg Reg.HBMC_CFG_LOCAL_GIB (min 16 (v.toNat % 32))

end Sys2Proof.Machine
end

