-- ==== Sys2Proof/Machine/Update.lean ====
section
/-! DEFINITION. The update units (R274 to R302, R309): parameter blocks, order, the gate, the algorithms, delay accumulators,
trailers and difference streams. -/

namespace Sys2Proof.Machine

/-! ### FP64 arithmetic (R287): one binary64 operation each, rounded under RNE -/

def r64 (x : Num) : Num := roundNum (fspec 16) .rne x
def fadd (x y : Num) : Num := r64 (Num.add false x y)
def fsub (x y : Num) : Num := r64 (Num.add false x y.negate)
def fmul (x y : Num) : Num := r64 (Num.mul x y)
def fdiv (x y : Num) : Num := r64 (divNum x y)
def ffma (x y z : Num) : Num := r64 (Num.add false (Num.mul x y) z)
def fsqrt (x : Num) : Num := r64 (Fn.vsqrt x)
/-- An integer as a number. -/
def numOf (i : Int) : Num := .fin (decide (i < 0)) i.natAbs 0
/-- sign(x), with sign(±0) = 0 (R287). -/
def fsign (x : Num) : Num := if x.isNan then .nan else if x.isZero then numOf 0 else .fin x.neg 1 0

/-! ### CRC-32C (R42, R301): polynomial 0x1EDC_6F41, reflected, all ones at the start and the end -/

/-- Eight bits of the check. -/
def crcBits : Nat → Nat → Nat
  | 0, c => c
  | k + 1, c => crcBits k (if c % 2 == 1 then (c >>> 1) ^^^ 0x82F63B78 else c >>> 1)

/-- The check value of bytes (PRESUMED, the form of RFC 3720, notes/assumptions/31.md). -/
def crc32c (bs : Bytes) : Nat := bs.foldl (fun c b => crcBits 8 (c ^^^ b.toNat)) 0xFFFFFFFF ^^^ 0xFFFFFFFF

/-! ### Units, lots, trailers -/

/-- The page of update unit `u` (R274). -/
def updPg (u : Nat) : Page := if u < 8 then ⟨dieOf u, .upd, 0⟩ else ⟨dieOf (12 + (u - 8) / 2), .upd, u % 2⟩

/-- The fields of a trailer (R279). -/
structure Trailer where
  m : Nat
  pass : Nat
  last : Bool
  skipped : Bool
  any : Bool
  torn : Bool
  reserved : Bool
  count : Nat
  deriving DecidableEq, Repr

/-- The trailer in 64 bytes. -/
def readTrailer (v : Nat) : Trailer :=
  ⟨v % 2 ^ 64, bitsOf v 64 3, v.testBit 67, v.testBit 68, v.testBit 69, v.testBit 70,
    v.testBit 71 || bitsOf v 72 24 != 0 || v >>> 128 != 0, bitsOf v 96 32⟩

/-- The 64 bytes of a trailer. -/
def trailerBytes (t : Trailer) : Bytes :=
  leBytes (t.m % 2 ^ 64 + (t.pass % 8 + t.last.toNat * 8 + t.skipped.toNat * 16 + t.any.toNat * 32 + t.torn.toNat * 64) <<< 64
    + (t.count % 2 ^ 32) <<< 96) 64

/-- The classes of R293. -/
inductive UpdClass where
  | inOrder | already | waits
  deriving DecidableEq, Repr

/-- The class of request (M, P) against a trailer (R293). -/
def updClass (t : Trailer) (m p : Nat) : UpdClass :=
  if !t.any then (if p == 0 then .inOrder else .waits)
  else if t.last then
    if m ≤ t.m then .already else if p == 0 then .inOrder else .waits
  else if m < t.m || (m == t.m && decide (p ≤ t.pass)) then .already
  else if m == t.m && p == t.pass + 1 then .inOrder
  else .waits

/-- Virtual address of master lot `l`, and of its trailer (R276, R277). -/
def lotVa (x : Desc) (l : Nat) : Nat := x.addr 16 + l * 65536
def trailerVa (x : Desc) (l : Nat) : Nat := lotVa x l + 65472
/-- Physical address of master lot `l`. -/
def lotPa (x : Desc) (l : Nat) : Nat := pinned x.pins (lotVa x l)

/-- What an UPDATE or SNAPSHOT keeps beside its descriptor: 1 waiting or 2 admitted, the time since when it waits, the
status of the gate and the FP64 bits of c, and then one number for each lot: of an UPDATE 0 to be done, 1 done, 2 already
applied; of a SNAPSHOT its state 0 PENDING, 1 SHIPPING, 2 SHIPPED, and 4 · (1 + start of its delay). -/
def uPhase (x : Desc) : Nat := x.aux.getD 0 0
def uSince (x : Desc) : Nat := x.aux.getD 1 0
def uStatus (x : Desc) : Nat := x.aux.getD 2 0
def uClip (x : Desc) : Num := decodeElem 16 (x.aux.getD 3 0)
def uLotSt (x : Desc) (l : Nat) : Nat := x.aux.getD (4 + l) 0
def setLotSt (x : Desc) (l v : Nat) : Desc := { x with aux := x.aux.set (4 + l) v }

namespace State

/-- The unit that stands in for `u`: itself, or, while units are marked unusable, the one that R628 names. -/
def standIn (s : State) (u : Nat) : Nat :=
  let lost (v : Nat) : Bool := s.getF (updPg v) Reg.PAGE_STAT_UNUSABLE == 1
  if u < 8 then ((List.range 8).map fun k => (u + k) % 8).find? (fun v => !lost v) |>.getD u
  else
    let of (v : Nat) : List Nat := [v, if v % 2 == 0 then v + 1 else v - 1]
    ((List.range 4).flatMap fun k => of (8 + (u - 8 + 2 * k) % 8)).find? (fun v => !lost v) |>.getD u

/-- The unit that applies the master lot at a physical address (R280, R628). -/
def updUnit (s : State) (pa : Nat) : Option Nat :=
  Option.map s.standIn <|
  let spread (h : Nat) : Nat := 8 + 2 * (h % 4) + (h >>> 2) % 2
  match s.locate pa with
  | .unified l => some (spread (l ^^^ (l >>> 14)))
  | .depot => some (spread (pa >>> 16))
  | .near =>
    let off := pa - nearBase
    let part := (384 - 8 * s.localGib) * 2 ^ 30
    some (if part ≤ off then (off - part) / (s.localGib * 2 ^ 30) else (off >>> 16) % 8)
  | _ => none

/-- The page of the unit of a master lot. -/
def lotPg (s : State) (x : Desc) (l : Nat) : Page := updPg ((s.updUnit (lotPa x l)).getD 0)

/-- The sixteen pages of a master lot map one aligned 64 KiB range of memory that holds lots (R276). -/
def lotWhole (s : State) (x : Desc) (l : Nat) : Bool :=
  lotPa x l % 65536 == 0 && (s.updUnit (lotPa x l)).isSome
    && (List.range 16).all fun k => pinned x.pins (lotVa x l + 4096 * k) == lotPa x l + 4096 * k

/-- The requests for master lots that have been queued: die, stream, descriptor. -/
def lotReqs (s : State) : List (Nat × Nat × Desc) :=
  s.streams.flatMap fun e => (e.2.fetched.filter fun x =>
    x.phase == .running && (x.op == 0x19 || x.op == 0x20 || x.op == 0x21) && !x.aux.isEmpty).map
      fun x => (e.1 >>> 14, e.1 % 2 ^ 14, x)

end State

/-- The master lots that a request names, by physical address: an UPDATE's or SNAPSHOT's region, the lots of the rows of a
LOOKUP_GRAD (R333). -/
def reqLots (x : Desc) : List Nat :=
  if x.op == 0x19 then ((x.aux.drop 5).take (x.aux.getD 4 0)).map (· / 4) else (List.range x.uLots).map (lotPa x)

/-- A request names the master lot at a physical address. -/
def namesLot (x : Desc) (pa : Nat) : Bool := (reqLots x).contains pa

/-- A request holds the master lot at a physical address: an admitted update until it ends, an admitted SNAPSHOT until the
lot is shipped (R294, R308). -/
def holdsLot (x : Desc) (pa : Nat) : Bool :=
  uPhase x == 2 && (if x.op == 0x21 then (List.range x.uLots).any fun l => lotPa x l == pa && decide (uLotSt x l % 4 < 2)
    else namesLot x pa)

namespace State

/-- Another request than stream `n`'s slot `q` holds one of the lots `ls` (R294, R308): any update does, a SNAPSHOT only
against a SNAPSHOT. -/
def lotsHeld (s : State) (d : Die) (n q op : Nat) (ls : List Nat) : Bool :=
  s.lotReqs.any fun r => !(r.1 == dieCode d && r.2.1 == n && r.2.2.slot == q)
    && (r.2.2.op != 0x21 || op == 0x21) && ls.any (holdsLot r.2.2)

/-- Requests that wait for the lot at a physical address (R295). -/
def waitersOf (s : State) (pa : Nat) : Nat := (s.lotReqs.filter fun r => uPhase r.2.2 == 1 && namesLot r.2.2 pa).length

/-- The key of a request for master lots (R293, R306): a SNAPSHOT comes after the last pass of its milestone. -/
def reqKey (s : State) (r : Nat × Nat × Desc) : Nat × Nat :=
  if r.2.2.op == 0x21 then (r.2.2.f 32 0 64, 8)
  else if r.2.2.op == 0x19 then (s.ctxMilestone (dieOf r.1) r.2.1, bitsOf r.2.2.layout 1040 3)
  else (r.2.2.uMilestone, r.2.2.uPass)

/-- A waiting request still has its turn to come at the master lot at a physical address (R293, R306). -/
def stillDue (s : State) (r : Nat × Nat × Desc) (pa : Nat) : Bool :=
  let t := readTrailer (s.rdNat (pa + 65472) 64)
  let k := s.reqKey r
  uPhase r.2.2 == 1 && namesLot r.2.2 pa && (if r.2.2.op == 0x21 then decide (t.m ≤ k.1) else updClass t k.1 k.2 != .already)

/-- A request that waits for one of the lots `ls` has a smaller key than `key`: it is applied first (R293, R306). -/
def comesAfter (s : State) (d : Die) (n q : Nat) (key : Nat × Nat) (ls : List Nat) : Bool :=
  s.lotReqs.any fun r => !(r.1 == dieCode d && r.2.1 == n && r.2.2.slot == q)
    && (decide ((s.reqKey r).1 < key.1) || ((s.reqKey r).1 == key.1 && decide ((s.reqKey r).2 < key.2))) && ls.any (s.stillDue r)

/-- UPD_WAITING of a unit: requests that wait on its lots (R309). -/
def updWaiting (s : State) (u : Nat) : Nat :=
  (s.lotReqs.filter fun r => uPhase r.2.2 == 1 && (reqLots r.2.2).any fun a => s.updUnit a == some u).length

/-- The trailer of a lot. -/
def trailer (s : State) (x : Desc) (l : Nat) : Trailer := readTrailer (s.rdVNat x.pins (trailerVa x l) 64)

/-- What the trailers say of a request before its order is asked (R279, R298): the status it ends with and its POSITION. -/
def trailerFault (s : State) (x : Desc) : Option (Nat × Nat × Nat) :=
  let ls := List.range x.uLots
  match ls.find? fun l => s.badV x.pins (trailerVa x l) 64 with
  | some l => some (stUncorr, l * x.uPL, 0)
  | none =>
    if ls.any fun l => (s.trailer x l).reserved then some (stDescFault, 16, opNone)
    else (ls.find? fun l => (s.trailer x l).torn).map fun l => (stUncorr, l * x.uPL, 0)

/-- `s` with the torn lots of a request counted (R298). -/
def countTorn (s : State) (x : Desc) : State :=
  (List.range x.uLots).foldl (fun a l => if (s.trailer x l).torn then a.bump (s.lotPg x l) Reg.UPD_TORN else a) s

/-- The registers of a lookup engine that finished a descriptor (R341). -/
def lkpDone (s : State) (x : Desc) (st : Nat) : State :=
  let pg := lkpPg x.lkEngine
  let s1 := s.bump pg Reg.LKP_DONE
  if st == 0x12 then s1.bump pg Reg.LKP_INDEX_FAULTS else s1

/-- A LOOKUP or LOOKUP_GRAD ends. -/
def lkpFinish (s : State) (d : Die) (n : Nat) (x : Desc) (st : Nat) (pos : Nat := posNone) (operand : Nat := opNone) : State :=
  (s.finish d n x.slot st pos operand).lkpDone x st

/-- A request for master lots ends: an UPDATE, a SNAPSHOT, or a LOOKUP_GRAD, which its engine counts (R341). -/
def reqFinish (s : State) (d : Die) (n q st : Nat) (pos : Nat := posNone) (operand : Nat := opNone) : State :=
  match s.desc? d n q with
  | some x => if x.op == 0x19 then s.lkpFinish d n x st pos operand else s.finish d n q st pos operand
  | none => s

/-! ### The gate (R285) -/

/-- The decision of the gate: the status and, where the step applies, c; or the fault with POSITION and OPERAND. -/
inductive Gate where
  | step (status : Nat) (c : Num)
  | fault (status pos operand : Nat)
  deriving DecidableEq, Repr

/-- The norm S of a NRM128 record, rounded once to FP64 (R103, R285). -/
def normValue (raw : Nat) : Num :=
  let i := toSigned raw 128
  r64 (.fin (decide (i < 0)) i.natAbs (2 * ((bitsOf raw 128 8 : Int) - 126) - 56))

/-- The gate on a norm record and the condition that skips for a non-finite gradient. -/
def gateOf (raw : Nat) (nonfinite : Bool) (clip stop : Num) : Gate :=
  let n := fsqrt (normValue raw)
  let zero := numOf 0
  if (toSigned raw 128 < 0) || bitsOf raw 137 7 != 0 || bitsOf raw 144 112 != 0 then .fault stDescFault 40 opNone
  else if raw.testBit 136 || nonfinite then .step stSkipNonfinite zero
  else if Num.lt zero stop && !stop.isZero && Num.lt stop n then .step stSkipNorm zero
  else if Num.lt zero clip && !clip.isZero && Num.lt clip n then .step stOk (fdiv clip n)
  else .step stOk (numOf 1)

/-- The gate of an UPDATE: its norm record and the region's anchor plane (R285). -/
def updGate (s : State) (x : Desc) : Gate :=
  let blocks := x.uLots * x.uPL / 32
  if s.badV x.pins (x.addr 40) 32 then .fault stUncorr posNone opNone
  else if s.badV x.pins x.uAnchors blocks then
    .fault stUncorr (((List.range blocks).find? fun b => s.badV x.pins (x.uAnchors + b) 1).getD 0 * 32) 1
  else
    gateOf (s.rdVNat x.pins (x.addr 40) 32) ((s.rdV x.pins x.uAnchors blocks).any fun b => b.toNat == 255)
      (decodeElem 16 (x.lay 80 64)) (decodeElem 16 (x.lay 88 64))

/-! ### Admission (R293 to R296, R300) -/

/-- The difference stream of a unit is on: MODE 1 or 2, a size in range, an aligned ring in granules of its compartment
(R300, R309). -/
def dsOn (s : State) (u : Nat) : Bool :=
  let pg := updPg u
  let l := s.getF pg Reg.UPD_DS_CFG_LOG2_SIZE
  let base := s.getF pg Reg.UPD_DS_BASE_LO_PA <<< 6 + s.getF pg Reg.UPD_DS_BASE_HI_PA <<< 32
  let m := s.getF pg Reg.UPD_DS_CFG_MODE
  (m == 1 || m == 2) && decide (16 ≤ l) && decide (l ≤ 30) && base % 2 ^ l == 0
    && s.ownsRange (s.getF pg Reg.UPD_DS_CFG_COMPARTMENT) base (2 ^ l)

def dsBase (s : State) (u : Nat) : Nat :=
  s.getF (updPg u) Reg.UPD_DS_BASE_LO_PA <<< 6 + s.getF (updPg u) Reg.UPD_DS_BASE_HI_PA <<< 32

/-- A request for the lots `ls`, with DS_EN = 1 and of another compartment, counted at each unit whose stream is on (R300). -/
def countForeign (s : State) (c : Nat) (dsEn : Bool) (ls : List Nat) : State :=
  if dsEn then
    (List.range 16).foldl (fun a u =>
      if s.dsOn u && s.getF (updPg u) Reg.UPD_DS_CFG_COMPARTMENT != c
          && ls.any (fun pa => s.updUnit pa == some u) then a.bump (updPg u) Reg.UPD_DS_FOREIGN
      else a) s
  else s

/-- Every lot of an admitted UPDATE is handled: it ends with the status of its gate (R281, R294). -/
def updSettle (s : State) (d : Die) (n q : Nat) : State :=
  match s.desc? d n q with
  | some x => if (List.range x.uLots).all fun l => uLotSt x l != 0 then s.finish d n q (uStatus x) else s
  | none => s

/-- An UPDATE whose lots are all in order or already applied is admitted: its gate is decided, its already-applied lots
are counted (R285, R294). -/
def admitUpdate (s : State) (d : Die) (n q : Nat) (x : Desc) (cs : List UpdClass) : State :=
  match s.updGate x with
  | .fault st pos operand => s.finish d n q st pos operand
  | .step st c =>
    let s1 := s.updDesc d n q fun y =>
      { y with aux := [2, uSince x, st, encodeFloat 16 c] ++ cs.map fun k => if k == .already then 2 else 0 }
    let s2 := cs.zipIdx.foldl (fun a k =>
      if k.1 == .already then a.bump (s.lotPg x k.2) Reg.UPD_IDEMP_SKIPS else a) s1
    let s3 := ((s2.touchV x.pins (x.addr 40) 32).touchV x.pins x.uAnchors (x.uLots * x.uPL / 32))
    (s3.countForeign (s.ctxCpt d n) x.uDsEn (reqLots x)).updSettle d n q

/-- An UPDATE classified: it ends with a fault of a trailer, is admitted, or waits; the ninth waiter of a lot ends with
BUSY (R293 to R295). -/
def classify (s : State) (d : Die) (n q : Nat) (x : Desc) : State :=
  match s.trailerFault x with
  | some f => (s.countTorn x).finish d n q f.1 f.2.1 f.2.2
  | none =>
    let cs := (List.range x.uLots).map fun l => updClass (s.trailer x l) x.uMilestone x.uPass
    if cs.all (· != .waits) && !s.lotsHeld d n q 0x20 (reqLots x) && !s.comesAfter d n q (x.uMilestone, x.uPass) (reqLots x) then
      s.admitUpdate d n q x cs
    else if uPhase x == 1 then s
    else
      match (List.range x.uLots).find? fun l => 8 ≤ s.waitersOf (lotPa x l) with
      | some l => (s.bump (s.lotPg x l) Reg.UPD_BUSY).finish d n q stBusy
      | none => s.updDesc d n q fun y => { y with aux := [1, s.base, 0, 0] }

/-- The record of a descriptor has been read by its unit. Its footprint is the one translated at fetch, or, where the record has changed
since, the pages that it names now are translated and pinned with the others, and the descriptor waits while it conflicts with an
earlier one (R161 to R164, R284; DEDUCED, notes/assumptions/26.md). The flag says that the request goes on. -/
def pinArrays (s : State) (d : Die) (n q : Nat) (y : Desc) (rs : List VRange) (pos : Nat) : Bool × State :=
  if footprint y == footprint { y with layout := 0 } then (true, s.updDesc d n q fun w => { w with layout := y.layout })
  else if footTooBig (footprint y) then (false, s.finish d n q stDescFault pos)
  else
    match s.xlateFor d n rs with
    | (.fault p, s1) => (false, s1.finish d n q stXlateFault p)
    | (.uncorr p a, s1) => (false, ((s1.reportUncorr (.stream d n) a y.seq).endDesc d n q stUncorr p).noteIdle d n)
    | (.absent l, s1) => (false, s1.startPageIn l)
    | (.ok pins, s1) =>
      let z := { y with pins := y.pins.foldl (fun m e => SMap.put m e.1 e.2) pins }
      let before := (s.stream d n).fetched.takeWhile fun w => w.slot != q
      if before.all fun w => w.phase == .ended || !conflicts w z then
        (true, s1.updDesc d n q fun w => { w with layout := z.layout, pins := z.pins })
      else (false, s)

/-- Once every lot of the footprint is resident, `f` goes on with the descriptor; else the page-ins start (R228). -/
def whenResident (s : State) (d : Die) (n q : Nat) (f : Desc → State) : State :=
  match s.desc? d n q with
  | none => s
  | some x => if (s.absentLots (descLots x)).isEmpty then f x else s.pageInAll (descLots x)

end State

/-- UPDATE: the unit reads the parameter block once, checks it, has the arrays translated, and classifies the request
(R276, R282 to R284, R293 to R295). -/
def execUpdate (d : Die) (n q : Nat) (s : State) : Host.Outcome State Fault Refusal :=
  actD d s fun s => s.withRunning d n q 0x20 fun x =>
    if !s.runs (s.lotPg x 0) || !x.aux.isEmpty then s
    else if x.layout == 0 then
      match (List.range x.uLots).find? fun l => !s.lotWhole x l with
      | some l => s.finish d n q stXlateFault (lotVa x l / 4096)
      | none =>
        if s.badV x.pins (x.addr 32) 192 then s.finish d n q stUncorr
        else
          let y := { x with layout := s.rdVNat x.pins (x.addr 32) 192 }
          match leastPos (broken (blockRules y)) with
          | some p => s.finish d n q stDescFault p
          | none =>
            match (s.touchV x.pins (x.addr 32) 192).pinArrays d n q y (updateArrays y) 56 with
            | (true, s1) => s1.whenResident d n q fun z => s1.classify d n q z
            | (false, s1) => s1
    else s.whenResident d n q fun z => s.classify d n q z

/-- UPDATE_ADMIT: a waiting UPDATE is classified again (R294). -/
def execUpdateAdmit (d : Die) (n q : Nat) (s : State) : Host.Outcome State Fault Refusal :=
  actD d s fun s => s.withRunning d n q 0x20 fun x => if uPhase x == 1 then s.classify d n q x else s

/-! ### One lot (R286 to R292, R297) -/

/-- Integers of a value plane's block (R97): elements of `w` bits. -/
def orfInts (c v : Nat) : List Int := (codesAt v (fmtBits c) 0 32).map fun k => toSigned k (fmtBits c)

/-- The numbers of a step's parameters: learning rate and the others, FP64. -/
structure Hyper where
  lr : Num
  b1 : Num
  omb1 : Num
  b2 : Num
  omb2 : Num
  eps : Num
  wd : Num
  bc1 : Num
  bc2 : Num
  deriving DecidableEq, Repr

def Desc.hyper (x : Desc) : Hyper :=
  let f (b : Nat) : Num := decodeElem 16 (x.lay b 64)
  ⟨f 8, f 16, f 24, f 32, f 40, f 48, f 56, f 64, f 72⟩

/-- The element-wise algorithms 0x01 to 0x04 of R287: gradient, master, moments; new master and moments. -/
def stepElem (a : Nat) (nest : Bool) (h : Hyper) (g w m v : Num) : Num × Num × Num :=
  match a with
  | 1 =>
    let g' := ffma h.wd w g
    let b' := ffma h.b1 m g'
    let t := if nest then ffma h.b1 b' g' else b'
    (fsub w (fmul h.lr t), b', v)
  | 2 =>
    let g' := ffma h.wd w g
    let m' := ffma h.omb1 g' (fmul h.b1 m)
    let v' := ffma h.omb2 (fmul g' g') (fmul h.b2 v)
    let t := fdiv (fdiv m' h.bc1) (fadd (fsqrt (fdiv v' h.bc2)) h.eps)
    (fsub w (fmul h.lr t), m', v')
  | 3 =>
    let m' := ffma h.omb1 g (fmul h.b1 m)
    let v' := ffma h.omb2 (fmul g g) (fmul h.b2 v)
    let t := fdiv (fdiv m' h.bc1) (fadd (fsqrt (fdiv v' h.bc2)) h.eps)
    (fsub w (fmul h.lr (ffma h.wd w t)), m', v')
  | _ =>
    let u := fsign (ffma h.omb1 g (fmul h.b1 m))
    (fsub w (fmul h.lr (ffma h.wd w u)), ffma h.omb2 g (fmul h.b2 m), v)

/-- The mean of the squares of a row (R287): an exact sum, rounded once, divided. -/
def meanSq (gs : List Num) (len : Nat) : Num :=
  fdiv (r64 (sumNum false (gs.map fun g => Num.mul g g))) (numOf len)

/-- One row under algorithm 0x05: new masters and row factor. -/
def stepRow5 (h : Hyper) (len : Nat) (gs ws : List Num) (r : Num) : List Num × Num :=
  let r' := fadd r (meanSq gs len)
  let den := fadd (fsqrt r') h.eps
  ((gs.zip ws).map fun p => fsub p.2 (fdiv (fmul h.lr p.1) den), r')

/-- One row under algorithm 0x06, with the new column factors C' and their mean μ. -/
def stepRow6 (h : Hyper) (len : Nat) (cs : List Num) (mu : Num) (gs ws : List Num) (r : Num) : List Num × Num :=
  let r' := ffma h.omb2 (meanSq gs len) (fmul h.b2 r)
  ((gs.zip (ws.zip cs)).map fun p =>
    let u := fdiv p.1 (fadd (fsqrt (fdiv (fmul r' p.2.2) mu)) h.eps)
    fsub p.2.1 (fmul h.lr (ffma h.wd p.2.1 u)), r')

/-- What the application of a lot writes: virtual address and bytes, with the numbers of outputs that rounded to an
infinity; new masters for the working copy; and D of R301. -/
structure LotOut where
  writes : List (Nat × Bytes)
  masters : List Num
  excess : Nat
  diff : Bytes
  deriving DecidableEq, Repr

/-- Bytewise XOR. -/
def xorBytes (a b : Bytes) : Bytes := (a.zip b).map fun p => p.1 ^^^ p.2

/-- Results rounded into a format, each in its mode, where `on` says so, else the old code: the codes, and how many finite
results became infinite (R290). -/
def roundAll (c : Nat) (on : Nat → Bool) (old : List Nat) (xs : List (Num × RMode)) : List Nat × Nat :=
  let rs := xs.zipIdx.map fun x =>
    if on x.2 then (roundElem c x.1.2 x.1.1, x.1.1.isFin) else ((old.getD x.2 0, true), true)
  (rs.map fun r => r.1.1, (rs.filter fun r => r.2 && !r.1.2).length)

namespace State

/-- The gradient elements of a lot, exact (R278, R287). -/
def lotGrad (s : State) (x : Desc) (l : Nat) : List Num :=
  let c := x.fmt 1
  let b0 := l * x.uPL / 32
  (List.range (x.uPL / 32)).flatMap fun i =>
    let g := (s.rdVNat x.pins (x.uAnchors + b0 + i) 1)
    (orfInts c (s.rdVNat x.pins (x.addr 24 + orfBlockBytes c * (b0 + i)) (orfBlockBytes c))).map (orfValue c g)

/-- The accumulator record of block `b` of the region: lanes and anchor (R291). -/
def accRec (s : State) (x : Desc) (b : Nat) : List Int × Nat :=
  let v := s.rdVNat x.pins (x.uAcc + 264 * b) 264
  ((codesAt v 64 0 32).map fun k => toSigned k 64, bitsOf v 2048 8)

/-- The records of a lot's accumulator. -/
def lotAcc (s : State) (x : Desc) (l : Nat) : List (List Int × Nat) :=
  (List.range (x.uPL / 32)).map fun i => s.accRec x (l * x.uPL / 32 + i)

/-- Step 1 of R291: the value of each lane, exact. -/
def accValues (rs : List (List Int × Nat)) : List Num :=
  rs.flatMap fun r => r.1.map fun i => .fin (decide (i < 0)) i.natAbs ((r.2 : Int) - 161)

/-- Step 2 of R291 on one record: the lanes shifted under the greater anchor, x·c added with one rounding. -/
def accAdd (r : List Int × Nat) (g : Nat) (xs : List Num) (c : Num) : List Int × Nat :=
  let a := max r.2 g
  ((r.1.zip xs).map fun p =>
    p.1 / ((2 ^ (a - r.2) : Nat) : Int) +
      (match Num.mul p.2 c with
       | .fin neg m e => signed neg (roundAt .rne neg m (e + (161 - (a : Int))) 0)
       | _ => 0), a)

/-- The 264 bytes of a record. -/
def accBytesOf (r : List Int × Nat) : Bytes := (r.1.flatMap fun i => leBytes (ofSigned i 64) 8) ++ leBytes r.2 8

/-- The stochastic or nearest mode of a site of parameter `t` of a lot (R89, R288). -/
def updMode (s : State) (d : Die) (n : Nat) (x : Desc) (l t site : Nat) : RMode :=
  rmode x.uRnd (srWord (s.ctxSeed d n) x.uMilestone ((x.uLogical + l * x.uPL + t) % 2 ^ 48) ((x.uSite + site) % 2 ^ 16))

/-- The old element codes of an array. -/
def codesOf (s : State) (x : Desc) (va bits k : Nat) : List Nat := codesAt (s.rdVNat x.pins va (ceilDiv (bits * k) 8)) bits 0 k

/-- The algorithm of R287 on the parameters of lot `l` that `on` names, with gradients `gs` (R334: a LOOKUP_GRAD changes
those of its rows alone); `cnt` is the lot's APPLY_COUNT. -/
def stepLot (s : State) (d : Die) (n : Nat) (x : Desc) (l cnt : Nat) (on : Nat → Bool) (gs : List Num) : LotOut :=
  let h := x.hyper
  let pl := x.uPL
  let e := x.uMom
  let oldW := s.codesOf x (lotVa x l) 48 pl
  let ws := oldW.map (decodeElem 10)
  let masters (outs : List Num) : List Nat × Nat := roundAll 10 on oldW (outs.zipIdx.map fun p => (p.1, s.updMode d n x l p.2 0))
  let wBytes (cs : List Nat) : Bytes := leBytes (packCodes 48 cs) (6 * pl)
  if !x.uRows then
    let m1 := x.uM1 + e * pl * l
    let m2 := x.uM2 + e * pl * l
    let two := x.uAlgo == 2 || x.uAlgo == 3
    let o1 := s.codesOf x m1 (8 * e) pl
    let o2 := if two then s.codesOf x m2 (8 * e) pl else []
    let outs := (List.range pl).map fun t =>
      stepElem x.uAlgo x.uNesterov h (gs.getD t .nan) (ws.getD t .nan) (decodeElem (x.fmt 2) (o1.getD t 0))
        (decodeElem (x.fmt 2) (o2.getD t 0))
    let w := masters (outs.map (·.1))
    let n1 := roundAll (x.fmt 2) on o1 ((outs.map (·.2.1)).zipIdx.map fun p => (p.1, s.updMode d n x l p.2 1))
    let n2 := if two then roundAll (x.fmt 2) on o2 ((outs.map (·.2.2)).zipIdx.map fun p => (p.1, s.updMode d n x l p.2 2)) else ([], 0)
    let b1 := leBytes (packCodes (8 * e) n1.1) (e * pl)
    let b2 := leBytes (packCodes (8 * e) n2.1) (if two then e * pl else 0)
    ⟨[(lotVa x l, wBytes w.1), (m1, b1)] ++ (if two then [(m2, b2)] else []), w.1.map (decodeElem 10), w.2 + n1.2 + n2.2,
      xorBytes (s.rdV x.pins (lotVa x l) (6 * pl)) (wBytes w.1) ++ xorBytes (s.rdV x.pins m1 (e * pl)) b1
        ++ (if two then xorBytes (s.rdV x.pins m2 (e * pl)) b2 else [])⟩
  else
    let len := x.uRowLen
    let rows := pl / len
    let r1 := x.uM1 + 4 * (rows * l)
    let o1 := s.codesOf x r1 32 rows
    let old := o1.map (decodeElem 9)
    let row (xs : List Num) (i : Nat) : List Num := (xs.drop (i * len)).take len
    let bank := x.uM2 + 4 * (cnt % 2 * len)
    let cs := if x.uAlgo == 6 then
        (((s.codesOf x bank 32 len).map (decodeElem 9)).zip ((s.codesOf x x.uColSq 32 len).map (decodeElem 9))).map
          fun p => ffma h.omb2 p.2 (fmul h.b2 p.1)
      else []
    let mu := fdiv (r64 (sumNum false cs)) (numOf len)
    let outs := (List.range rows).map fun i =>
      if x.uAlgo == 5 then stepRow5 h len (row gs i) (row ws i) (old.getD i .nan)
      else stepRow6 h len cs mu (row gs i) (row ws i) (old.getD i .nan)
    let w := masters (outs.flatMap (·.1))
    let f := roundAll 9 (fun i => on (i * len)) o1 (outs.map fun o => (o.2, .rne))
    let fb := leBytes (packCodes 32 f.1) (4 * rows)
    let c := roundAll 9 (fun _ => true) [] (cs.map fun v => (v, .rne))
    let cb := leBytes (packCodes 32 c.1) (4 * len)
    let dst := x.uM2 + 4 * ((cnt + 1) % 2 * len)
    let cols := x.uAlgo == 6 && l == 0
    ⟨[(lotVa x l, wBytes w.1), (r1, fb)] ++ (if cols then [(dst, cb)] else []), w.1.map (decodeElem 10), w.2 + f.2,
      xorBytes (s.rdV x.pins (lotVa x l) (6 * pl)) (wBytes w.1) ++ xorBytes (s.rdV x.pins r1 (4 * rows)) fb
        ++ (if cols then xorBytes (s.rdV x.pins dst (4 * len)) cb else [])⟩

/-- The working copy of a lot from its new masters (R278, R288). -/
def writeCopy (s : State) (x : Desc) (l : Nat) (ws : List Num) : State :=
  if x.uWc == 0 then s
  else
    let c := x.fmt 3
    let b0 := l * x.uPL / 32
    (List.range (x.uPL / 32)).foldl (fun a i =>
      let b := b0 + i
      let vals := ((ws.drop (32 * i)).take 32).map fun w => (w, RMode.rne)
      let g : Nat × List Nat := if isMx c then mxGroup c vals else (0, vals.map fun v => (roundElem c v.2 v.1).1)
      let a1 := g.2.zipIdx.foldl (fun t p =>
        t.putElems x.pins (x.uWc + (32 * (b / x.uCols) + p.2) * x.uStride) (fmtBits c) (b % x.uCols) [p.1]) a
      if isMx c then a1.wrV x.pins (x.uWcScale + b % x.uCols * x.uScaleStride + b / x.uCols) (leBytes g.1 1) else a1) s

/-- What the application of lot `l` reads: base, bytes to a unit, parameters to a unit, units, operand. -/
def lotOps (x : Desc) (l : Nat) : List (Nat × Nat × Nat × Nat × Nat) :=
  let pl := x.uPL
  let b0 := l * pl / 32
  let bb := orfBlockBytes (x.fmt 1)
  let grad := [(x.addr 24 + bb * b0, bb / 32, 1, pl, 1), (x.uAnchors + b0, 1, 32, pl / 32, 1)]
  let acc := if x.uDelay == 0 then [] else [(x.uAcc + 264 * b0, 264, 32, pl / 32, opNone)]
  let st := if x.uApplies then
      (lotVa x l, 6, 1, pl, 0) ::
        (if x.uRows then [(x.uM1 + 4 * (pl / x.uRowLen * l), 4, x.uRowLen, pl / x.uRowLen, 2)]
          else [(x.uM1 + x.uMom * pl * l, x.uMom, 1, pl, 2)]
            ++ (if x.uAlgo == 2 || x.uAlgo == 3 then [(x.uM2 + x.uMom * pl * l, x.uMom, 1, pl, 2)] else []))
        ++ (if x.uAlgo == 6 then [(x.uM2, 8 * x.uRowLen, 1, 1, 2), (x.uColSq, 4 * x.uRowLen, 1, 1, 2)] else [])
    else []
  grad ++ acc ++ st ++ [(trailerVa x l, 64, pl, 1, 0)]

/-- The first parameter of lot `l` whose state reads uncorrectable, and its operand (R298). -/
def lotBad (s : State) (x : Desc) (l : Nat) : Option (Nat × Nat) :=
  let one (a : Nat × Nat × Nat × Nat × Nat) : Option (Nat × Nat) :=
    if s.badV x.pins a.1 (a.2.1 * a.2.2.2.1) then
      ((List.range a.2.2.2.1).find? fun i => s.badV x.pins (a.1 + a.2.1 * i) a.2.1).map fun i =>
        (l * x.uPL + i * a.2.2.1, a.2.2.2.2)
    else none
  ((lotOps x l).filterMap one).foldl
    (fun best p => match best with | none => some p | some b => if p.1 < b.1 then some p else some b) none

/-- The reads of a lot as touches (R217). -/
def touchLotOps (s : State) (x : Desc) (l : Nat) : State :=
  (lotOps x l).foldl (fun t a => t.touchV x.pins a.1 (a.2.1 * a.2.2.2.1)) s

/-- The first parameter of lot `l` whose place in the working copy, or whose block's scale, lies in an uncorrectable codeword, which a
write of it covers in part (R255, R298). -/
def copyBad (s : State) (x : Desc) (l : Nat) : Option Nat :=
  let c := x.fmt 3
  let at' (j : Nat) : Bool :=
    let b := l * x.uPL / 32 + j / 32
    let bit := b % x.uCols * fmtBits c
    s.badV x.pins (x.uWc + (32 * (b / x.uCols) + j % 32) * x.uStride + bit / 8) (ceilDiv (bit % 8 + fmtBits c) 8)
      || (isMx c && s.badV x.pins (x.uWcScale + b % x.uCols * x.uScaleStride + b / x.uCols) 1)
  if x.uApplies && x.uWc != 0 then ((List.range x.uPL).find? at').map (l * x.uPL + ·) else none

/-! ### Difference streams (R300 to R302) -/

/-- The tokens of a payload: the cutting of Config where it is one of D within the size that literal tokens alone would
take and one token more for each run of 32,767 bytes; else literal tokens only. -/
def dsCuts (dif : Bytes) : List (Nat × Bool) :=
  let cuts := Config.dsTokens dif
  let ok (acc : Bytes × Bool) (c : Nat × Bool) : Bytes × Bool :=
    (acc.1.drop c.1, acc.2 && decide (1 ≤ c.1) && decide (c.1 ≤ 32767) && decide (c.1 ≤ acc.1.length)
      && (!c.2 || (acc.1.take c.1).all fun b => b == 0))
  let r := cuts.foldl ok (dif, true)
  let size := (cuts.map fun c => if c.2 then 2 else 2 + c.1).foldl (· + ·) 0
  let k := ceilDiv dif.length 32767
  if r.2 && r.1.isEmpty && decide (size ≤ dif.length + 2 * k) then cuts
  else (List.range k).map fun i => (min 32767 (dif.length - 32767 * i), false)

/-- The payload that encodes D (R301). -/
def dsPayload (dif : Bytes) : Bytes :=
  ((dsCuts dif).foldl (fun acc c =>
    (acc.1.drop c.1, acc.2 ++ (if c.2 then leBytes (c.1 + 32768) 2 else leBytes c.1 2 ++ acc.1.take c.1))) (dif, [])).2

/-- A record: header, payload, zeros up to a multiple of 64 bytes, and its CRC (R301). -/
def dsRecord (u flags tensor m first pass params : Nat) (payload : Bytes) (units : Nat) : Bytes :=
  let head := leBytes (units + (u % 16) <<< 16 + (flags % 8) <<< 24 + tensor <<< 32 + (m % 2 ^ 64) <<< 64 + first <<< 128
    + pass <<< 176 + params <<< 192) 28
  let rest := payload ++ List.replicate (64 * units - 32 - payload.length) 0
  head ++ leBytes (crc32c (head ++ leBytes 0 4 ++ rest)) 4 ++ rest

/-- The record of a lot (R301). -/
def lotRecord (x : Desc) (u l : Nat) (skipped gap : Bool) (dif : Bytes) : Bytes :=
  let p := if skipped then [] else dsPayload dif
  dsRecord u (skipped.toNat + gap.toNat * 2) x.uTensor x.uMilestone ((x.uLogical + l * x.uPL) % 2 ^ 48) x.uPass x.uPL p
    (ceilDiv (32 + p.length) 64)

def dsUnit (s : State) (u : Nat) : DsUnit := SMap.getD s.ds u ⟨none, false⟩
def setDs (s : State) (u : Nat) (x : DsUnit) : State := { s with ds := SMap.put s.ds u x }

/-- Bytes that a record takes in a ring: itself, and the PAD record before it where it does not fit before the end
(R302). -/
def dsNeed (size head len : Nat) : Nat := if size < head + len then size - head + len else len

/-- A unit's ring has space for a record; the ring is never filled whole, for HEAD = TAIL says that it is empty (DEDUCED,
notes/assumptions/32.md). -/
def dsFits (s : State) (u len : Nat) : Bool :=
  let size := 2 ^ s.getF (updPg u) Reg.UPD_DS_CFG_LOG2_SIZE
  let h := s.getF (updPg u) Reg.UPD_DS_HEAD % size
  let used := (h + size - s.getF (updPg u) Reg.UPD_DS_TAIL % size) % size
  decide (dsNeed size h len + used < size)

/-- The record that a lot's handling emits; none where nothing is emitted (R300). -/
def emits (s : State) (d : Die) (n : Nat) (x : Desc) (u : Nat) : Bool :=
  x.uDsEn && s.dsOn u && s.getF (updPg u) Reg.UPD_DS_CFG_COMPARTMENT == s.ctxCpt d n

/-- A record accepted for the ring, or dropped under MODE 2 (R302). -/
def putRecord (s : State) (u : Nat) (bytes : Bytes) : State :=
  if s.dsFits u bytes.length then
    s.setDs u ⟨some ⟨s.dsBase u, s.getF (updPg u) Reg.UPD_DS_CFG_LOG2_SIZE, bytes⟩, false⟩
  else (s.bump (updPg u) Reg.UPD_DS_DROPS).setDs u { s.dsUnit u with gap := true }

/-- The handling of a lot waits for its record: one is in progress, or there is no space under MODE 1 (R302). -/
def dsWaits (s : State) (u : Nat) (bytes : Bytes) : Bool :=
  (s.dsUnit u).out.isSome || (s.getF (updPg u) Reg.UPD_DS_CFG_MODE == 1 && !s.dsFits u bytes.length)

/-! ### Snapshots that hold a lot (R307, R308) -/

/-- An admitted SNAPSHOT has the lot at a physical address PENDING or SHIPPING. -/
def snapHolds (s : State) (pa : Nat) : Bool := s.lotReqs.any fun r => r.2.2.op == 0x21 && holdsLot r.2.2 pa

/-- A held update reached the lot: the lot's delay runs from now on (R307). -/
def snapReached (s : State) (pa : Nat) : State :=
  let mark (x : Desc) : Desc :=
    if x.phase == .running && x.op == 0x21 && holdsLot x pa then
      { x with aux := x.aux.zipIdx.map fun p =>
          if decide (4 ≤ p.2) && lotPa x (p.2 - 4) == pa && decide (p.1 < 2) then p.1 + 4 * (1 + s.base) else p.1 }
    else x
  { s with streams := s.streams.map fun e => (e.1, { e.2 with fetched := e.2.fetched.map mark }) }

/-- Lot `l` of an UPDATE is handled. -/
def lotDone (s : State) (d : Die) (n q l : Nat) : State :=
  (s.updDesc d n q fun y => setLotSt y l 1).updSettle d n q

/-- A lot of a skipped step: only its trailer is written (R286). `x` describes the update; `settle` follows. -/
def skipUpdLot (s : State) (d : Die) (n q l u : Nat) (x : Desc) (settle : State → State) : State :=
  let t := s.trailer x l
  let bytes := lotRecord x u l true (s.dsUnit u).gap []
  if s.badV x.pins (trailerVa x l) 64 then s.reqFinish d n q stUncorr (l * x.uPL) 0
  else if s.emits d n x u && s.dsWaits u bytes then s
  else
    let t' : Trailer := ⟨x.uMilestone, x.uPass, x.uLast, true, true, false, false, t.count⟩
    let s1 := (s.wrV x.pins (trailerVa x l) (trailerBytes t')).bump (updPg u) Reg.UPD_SKIPPED
    settle (if s.emits d n x u then s1.putRecord u bytes else s1)

/-- The gradients that the algorithm of a lot takes: the step's own, clipped, or the values of the accumulator (R287, R291). -/
def lotGrads (s : State) (x : Desc) (l : Nat) (xs : List Num) (c : Num) : List Num :=
  if x.uDelay == 0 then xs.map fun v => fmul v c else accValues (s.lotAcc x l)

/-- What the application of a lot writes (R287 to R292): nothing but the accumulator where the milestone only accumulates. -/
def lotOut (s : State) (d : Die) (n : Nat) (x : Desc) (l : Nat) (on : Nat → Bool) (xs : List Num) (c : Num) : LotOut :=
  if x.uApplies then s.stepLot d n x l (s.trailer x l).count on (s.lotGrads x l xs c)
  else ⟨[], [], 0, List.replicate
    (6 * x.uPL + (if x.uRows then 4 * (x.uPL / x.uRowLen) else x.uMom * x.uPL * (if x.uAlgo == 2 || x.uAlgo == 3 then 2 else 1))) 0⟩

/-- The trailer of a lot while its writes are under way (R297). -/
def tearTrailer (s : State) (x : Desc) (l : Nat) : State :=
  s.wrV x.pins (trailerVa x l) (trailerBytes { s.trailer x l with torn := true })

/-- A lot of a step that passed the gate (R287 to R292, R297): the parameters that `on` names, with the exact gradient
elements `xs`, the anchors of their blocks and the factor `c`. `x` describes the update; `settle` follows. -/
def applyUpdLot (s : State) (d : Die) (n q l u : Nat) (x : Desc) (on : Nat → Bool) (xs : List Num) (anchors : List Nat)
    (c : Num) (settle : State → State) : State :=
  match s.lotBad x l with
  | some b => s.reqFinish d n q stUncorr b.1 b.2
  | none =>
    match s.copyBad x l with
    | some j => s.reqFinish d n q stUncorr j 3
    | none =>
      let o := s.lotOut d n x l on xs c
      let bytes := lotRecord x u l false (s.dsUnit u).gap o.diff
      if s.emits d n x u && s.dsWaits u bytes then s
      else
        let recs := s.lotAcc x l
        let start := if x.uApplies then recs.map fun _ => (List.replicate 32 (0 : Int), 0) else recs
        let b0 := l * x.uPL / 32
        let added := start.zipIdx.map fun r => accAdd r.1 (anchors.getD r.2 0) ((xs.drop (32 * r.2)).take 32) c
        let s1 := o.writes.foldl (fun a w => a.wrV x.pins w.1 w.2) ((s.touchLotOps x l).tearTrailer x l)
        let s2 := if x.uApplies then s1.writeCopy x l o.masters else s1
        let s3 := if x.uDelay == 0 then s2 else s2.wrV x.pins (x.uAcc + 264 * b0) (added.flatMap accBytesOf)
        let t' : Trailer := ⟨x.uMilestone, x.uPass, x.uLast, false, true, false, false, (s.trailer x l).count + x.uLast.toNat⟩
        let s4 := (s3.wrV x.pins (trailerVa x l) (trailerBytes t')).bump (updPg u) Reg.UPD_APPLIED
        let s5 := if Num.lt c (numOf 1) then s4.bump (updPg u) Reg.UPD_CLIPPED else s4
        let s6 := s5.bump (updPg u) Reg.UPD_NONFINITE_OUT o.excess
        settle (if s.emits d n x u then s6.putRecord u bytes else s6)

/-- The anchor bytes of a lot's gradient. -/
def lotAnchors (s : State) (x : Desc) (l : Nat) : List Nat :=
  (List.range (x.uPL / 32)).map fun i => s.rdVNat x.pins (x.uAnchors + l * x.uPL / 32 + i) 1

end State

/-- DS_RECORD_WRITE: the record in progress of a unit goes into its ring, after a PAD record where it does not fit before
the end; then the producer offset advances (R302). -/
def execDsRecordWrite (u : Nat) (s : State) : Host.Outcome State Fault Refusal :=
  act s fun s =>
    let k := u % 16
    match (s.dsUnit k).out with
    | none => s
    | some r =>
      let size := 2 ^ r.log2
      let h := s.getF (updPg k) Reg.UPD_DS_HEAD % size
      let pad := decide (size < h + r.bytes.length)
      let s1 := if pad then s.wrBytes (r.base + h) (State.dsRecord k 4 0 0 0 0 0 [] ((size - h) / 64)) else s
      let h1 := if pad then 0 else h
      ((s1.wrBytes (r.base + h1) r.bytes).setF (updPg k) Reg.UPD_DS_HEAD ((h1 + r.bytes.length) % size)).setDs k
        { s.dsUnit k with out := none }

/-- UPD_DS_TAIL: software's consumer offset (R302, R309). -/
def execUpdDsTail (u : Nat) (v : W32) (s : State) : Host.Outcome State Fault Refusal :=
  act s fun s => s.setF (updPg (u % 16)) Reg.UPD_DS_TAIL v.toNat

/-- UPD_DS_CFG_WRITE: UPD_DS_CFG or a word of UPD_DS_BASE. While MODE is not 0 it is ignored and reported, but for the
write that sets MODE to 0 (R309; DEDUCED, notes/assumptions/33.md). -/
def execUpdDsCfgWrite (u off : Nat) (v : W32) (s : State) : Host.Outcome State Fault Refusal :=
  act s fun s =>
    let pg := updPg (u % 16)
    if off != 0x44 && off != 0x48 && off != 0x4C then s
    else if s.getF pg Reg.UPD_DS_CFG_MODE != 0 && (off != 0x44 || v.toNat % 4 != 0) then s.pageErr pg
    else if off == 0x48 then s.holdLo pg off v.toNat
    else if off == 0x4C then (s.takeLo pg 0x48).rwWrite pg off v.toNat
    else s.rwWrite pg off v.toNat

/-- ORDER_GAP_TIMEOUT: a request for master lots has waited UPD_GAP_TIMEOUT of the unit of its first lot (R296; DEDUCED,
notes/assumptions/34.md). -/
def execOrderGapTimeout (d : Die) (n q : Nat) (s : State) : Host.Outcome State Fault Refusal :=
  actD d s fun s =>
    match s.desc? d n q with
    | some x =>
      let pg := updPg ((((reqLots x).head?).bind s.updUnit).getD 0)
      if x.phase == .running && (x.op == 0x19 || x.op == 0x20 || x.op == 0x21) && uPhase x == 1
          && decide (uSince x + s.getF pg Reg.UPD_GAP_TIMEOUT_US * 1000 ≤ s.base) then
        (s.bump pg Reg.UPD_GAP_TIMEOUTS).reqFinish d n q stGap
      else s
    | none => s

end Sys2Proof.Machine
end

