-- ==== Sys2Proof/Machine/Lookup.lean ====
section
/-! DEFINITION. The embedding lookup engines (R310 to R342): the registry, LOOKUP, LOOKUP_GRAD, row updates and the sweeper. -/

namespace Sys2Proof.Machine

/-! ### Version records (R314, R315) -/

def verRows (v : Nat) : Nat := verF v 4 0 32
def verMask (v : Nat) : Nat := verF v 10 0 4
def verDelay (v : Nat) : Nat := verF v 10 4 4
def verOwner (v : Nat) : Nat := verF v 11 0 6
def verHalf (v : Nat) : Nat := verF v 12 0 16
def verHotT (v : Nat) : Nat := verF v 14 0 16
/-- The threshold of a width code; code 3 has threshold 0 (R335). -/
def verT (v w : Nat) : Nat := if w < 3 then verF v (16 + 2 * w) 0 16 else 0
def verDir (v : Nat) : Nat := verF v 24 0 45
def verCold (v w : Nat) : Nat := verF v (32 + 8 * w) 0 45
def verHot (v w : Nat) : Nat := verF v (64 + 8 * w) 0 45
def verSlots (v w : Nat) : Nat := verF v (96 + 4 * w) 0 32
def verMaster (v : Nat) : Nat := verF v 112 0 45
def verM1 (v : Nat) : Nat := verF v 120 0 45
def verM2 (v : Nat) : Nat := verF v 128 0 45
def verAcc (v : Nat) : Nat := verF v 136 0 45
def verMap (v : Nat) : Nat := verF v 144 0 45
def verAllows (v w : Nat) : Bool := (verMask v).testBit w

/-- The format of a width code (R319). -/
def widthFmt (w : Nat) : Nat := [9, 7, 3, 0].getD w 9
/-- Bytes of a row's elements and scales, and its slot size RB (R319). -/
def rawBytes (w dim : Nat) : Nat :=
  dim * fmtBits (widthFmt w) / 8 + (if isMx (widthFmt w) then dim / 32 else 0)
def slotBytes (w dim : Nat) : Nat :=
  let r := rawBytes w dim
  if r ≤ 16 then 16 else if r ≤ 32 then 32 else ceilDiv r 64 * 64

/-- The bits of a version record that R314 lists. -/
def verMaskBits : Nat :=
  let m (byte w : Nat) : Nat := fieldMask byte 0 w
  m 0 64 ||| m 8 11 ||| m 10 8 ||| m 11 6 ||| m 12 80 ||| ([24, 32, 40, 48, 56, 64, 72, 80, 88, 112, 120, 128, 136, 144].foldl
    (fun a b => a ||| m b 45) 0) ||| m 96 128

/-- The rules of R314 that a record states by itself. -/
def verOk (v : Nat) : Bool :=
  let dim := verDim v
  v &&& (2 ^ 1536 - 1 - verMaskBits) == 0 && verRows v != 0 && dim % 8 == 0 && decide (8 ≤ dim) && decide (dim ≤ 1024)
    && verMask v != 0 && (decide (verMask v < 4) || dim % 32 == 0) && decide (verDelay v ≤ 8) && verHalf v != 0
    && decide (verT v 1 ≤ verT v 0) && decide (verT v 2 ≤ verT v 1)
    && (List.range 4).all (fun w => verAllows v w || verCold v w == 0)
    && verMaster v % 65536 == 0 && (verDelay v != 0 || (verAcc v == 0 && verMap v == 0))

/-- Master lots of the version under `pl` parameters to a lot. -/
def verLots (v pl : Nat) : Nat := ceilDiv (verRows v * verDim v) pl

namespace State

/-- From `a` on, up to `e`, every byte lies in a live buffer of compartment `c` or in a granule of it, in at most so many pieces. -/
def covered (s : State) (c : Nat) : Nat → Nat → Nat → Bool
  | 0, a, e => decide (e ≤ a)
  | k + 1, a, e =>
    if e ≤ a then true
    else
      match s.place.bufs.find? fun b => b.1 >>> 18 == c && decide (b.2.base ≤ a) && decide (a < b.2.base + b.2.bytes) with
      | some b => covered s c k (b.2.base + b.2.bytes) e
      | none => s.ownsRange c a 1 && covered s c k ((a / 2 ^ 21 + 1) * 2 ^ 21) e

/-- A range lies in live buffers of a compartment, or in DIRECT memory of it (R315). -/
def inOwned (s : State) (c a n : Nat) : Bool := n == 0 || s.covered c (s.place.bufs.length + n / 2 ^ 21 + 2) a (a + n)

/-- The ranges that a record implies lie in memory of its owner (R315). The record states neither the algorithm nor the moment format, so
that the regions that depend on them count with the size that every algorithm of R330 needs; a LOOKUP_GRAD checks what it uses
(notes/assumptions/37.md). -/
def verInOwned (s : State) (v : Nat) : Bool :=
  let c := verOwner v
  let dim := verDim v
  let lots := verLots v 10912
  let own (a n : Nat) : Bool := s.inOwned c a n
  own (verDir v) (16 * verRows v)
    && (List.range 4).all (fun w => !verAllows v w || own (verCold v w) (verRows v * slotBytes w dim))
    && (List.range 4).all (fun w => verHot v w == 0 || own (verHot v w) (verSlots v w * slotBytes w dim))
    && own (verMaster v) (65536 * lots)
    && (verM1 v == 0 || own (verM1 v) (if dim % 32 == 0 then 4 * verRows v else 2 * 10912 * lots))
    && (verM2 v == 0 || own (verM2 v) (2 * 10912 * lots))
    && (verDelay v == 0 || (own (verAcc v) (264 * ceilDiv (verRows v * dim) 32) && own (verMap v) (ceilDiv lots 8)))

/-- `s` with LKP_TBL_CMD.REJECTED set. -/
def tblReject (s : State) : State := s.setF lkpRegPg Reg.LKP_TBL_CMD_REJECTED 1

/-- The version record of a LOAD read and taken, once its lot is resident (R315). -/
def loadTake (s : State) (key pa : Nat) : State :=
  let lots := s.absentLots (lotsOf pa 192)
  if !lots.isEmpty then { s.pageInAll lots with tblLoad := some ⟨key, pa, false⟩ }
  else
    let v := s.rdNat pa 192
    let other := s.tblSlot (key ^^^ 1)
    if (List.range 3).all (fun k => s.memOwner (pa + 64 * k) == some (verOwner v)) && !s.badIn pa 192 && verOk v && s.verInOwned v
        && (other.st == 0 || verOwner other.ver == verOwner v) then
      { (s.touchRead pa 192).setTblSlot key ⟨1, v⟩ with tblLoad := some ⟨key, pa, true⟩ }
    else { s.tblReject with tblLoad := none }

/-- The slot of the registry that a write of LKP_TBL_CMD names, after its W1C bit has acted. -/
def tblCmd (s : State) (v : W32) : Nat × State :=
  let s1 := if v.toNat.testBit 4 then s.setF lkpRegPg Reg.LKP_TBL_CMD_REJECTED 0 else s
  (s.getF lkpRegPg Reg.LKP_TBL_SEL_TABLE * 2 + bitsOf v.toNat 2 1, s1.setF lkpRegPg Reg.LKP_TBL_CMD_SLOT (bitsOf v.toNat 2 1))

/-- Rows of a version whose entries have HOT set (R315, R320). -/
def hotRows (s : State) (v : Nat) : List Nat :=
  (s.mem.filter fun e => decide (verDir v ≤ e.1) && decide (e.1 < verDir v + 16 * verRows v) && (e.1 - verDir v) % 16 == 0
    && e.2.toNat.testBit 2).map fun e => (e.1 - verDir v) / 16

/-- The entry of row `r`, and its fields (R320). -/
def rowEntry (s : State) (v r : Nat) : Nat := s.rdNat (verDir v + 16 * r) 16

end State

def entWidth (e : Nat) : Nat := bitsOf e 0 2
def entHot (e : Nat) : Bool := e.testBit 2
def entTomb (e : Nat) : Bool := e.testBit 3
def entPop (e : Nat) : Nat := bitsOf e 16 16
def entSlot (e : Nat) : Nat := bitsOf e 32 32
def entLast (e : Nat) : Nat := bitsOf e 64 64

/-- Where a row of entry `e` is read: its hot slot, or its cold one (R320, R321). -/
def rowAddr (v r e : Nat) : Nat :=
  let w := entWidth e
  let rb := slotBytes w (verDim v)
  if entHot e then verHot v w + entSlot e * rb else verCold v w + r * rb

/-! ### Registry commands -/

/-- LOAD (R315, R342). -/
def execLoad (v : W32) (s : State) : Host.Outcome State Fault Refusal :=
  act s fun s =>
    let c := s.tblCmd v
    if s.tblLoad.isSome || (s.tblSlot c.1).st != 0 then c.2.tblReject
    else c.2.loadTake c.1 (s.getF lkpRegPg Reg.LKP_TBL_REC_LO_PA <<< 6 + s.getF lkpRegPg Reg.LKP_TBL_REC_HI_PA <<< 32)

/-- LOAD_COMPLETE: HOT is cleared in every directory entry, and LKP_TBL_CMD.BUSY reads 0 (R315). -/
def execLoadComplete (s : State) : Host.Outcome State Fault Refusal :=
  act s fun s =>
    match s.tblLoad with
    | none => s
    | some l =>
      if !l.taken then s.loadTake l.key l.pa
      else
        let v := (s.tblSlot l.key).ver
        let rows := s.hotRows v
        let lots := s.blockedLots (rows.flatMap fun r => State.lotsOf (verDir v + 16 * r) 16)
        if !lots.isEmpty then s.pageInAll lots
        else
          let s1 := rows.foldl (fun a r => a.wrNat (verDir v + 16 * r) (putBits (a.rdNat (verDir v + 16 * r) 1) 2 1 0) 1) s
          { s1 with tblLoad := none, hot := s1.hot.filter fun h => h.key != l.key }

/-- UNLOAD (R316). -/
def execUnload (v : W32) (s : State) : Host.Outcome State Fault Refusal :=
  act s fun s =>
    let c := s.tblCmd v
    if (s.tblSlot c.1).st == 1 then { c.2.setTblSlot c.1 TblSlot.init with hot := s.hot.filter fun h => h.key != c.1 }
    else c.2.tblReject

/-- SWITCH: a write of LKP_TBL_SWITCH (R316, R317). -/
def execSwitch (v : W32) (s : State) : Host.Outcome State Fault Refusal :=
  act s fun s =>
    let key := bitsOf v.toNat 0 10 * 2 + bitsOf v.toNat 10 1
    let other := key ^^^ 1
    let taken := s.setWord lkpRegPg 0x50 (v.toNat % 2 ^ 11)
    match (s.tblSlot key).st with
    | 1 =>
      let s1 := taken.setTblSlot key { s.tblSlot key with st := 2 }
      if (s.tblSlot other).st == 2 then
        if (s.latched other).isEmpty then s1.setTblSlot other TblSlot.init
        else s1.setTblSlot other { s.tblSlot other with st := 3 }
      else s1
    | 2 => taken
    | _ => s.tblReject

namespace State

/-- TOMB of the row in LKP_ROW set to `b`, through a write of LKP_ROW_CMD; it waits where the entry's lot is not resident
(R321, R342). -/
def rowCommand (s : State) (v : W32) (b : Nat) : State :=
  let t := bitsOf v.toNat 0 10
  let s1 := (if v.toNat.testBit 12 then s.setF lkpRegPg Reg.LKP_ROW_CMD_REJECTED 0 else s).setF lkpRegPg Reg.LKP_ROW_CMD_TABLE t
  let r := s.getF lkpRegPg Reg.LKP_ROW
  match s.currentSlot t with
  | none => s1.setF lkpRegPg Reg.LKP_ROW_CMD_REJECTED 1
  | some key =>
    let ver := (s.tblSlot key).ver
    let a := verDir ver + 16 * r
    if verRows ver ≤ r then s1.setF lkpRegPg Reg.LKP_ROW_CMD_REJECTED 1
    else if !(s.blockedLots (lotsOf a 16)).isEmpty then
      (s1.setF lkpRegPg Reg.LKP_ROW_CMD_CMD (2 - b)).pageInAll (lotsOf a 16)
    else (s1.setF lkpRegPg Reg.LKP_ROW_CMD_CMD 0).wrNat a (putBits (s1.rdNat a 1) 3 1 b) 1

end State

/-- TOMBSTONE: the row's entry gets TOMB = 1 (R321, R342). -/
def execTombstone (v : W32) (s : State) : Host.Outcome State Fault Refusal := act s fun s => s.rowCommand v 1

/-- REVIVE: the row's entry gets TOMB = 0 (R321, R342). -/
def execRevive (v : W32) (s : State) : Host.Outcome State Fault Refusal := act s fun s => s.rowCommand v 0

/-! ### The start of a LOOKUP or LOOKUP_GRAD (R311, R313, R317, R318, R330) -/

/-- The rules of a LOOKUP_GRAD's parameter block with its version (R330, R337). -/
def gradBlockOk (b v : Nat) : Bool :=
  let f (byte w : Nat) : Nat := bitsOf b (8 * byte) w
  let a := f 0 8
  b &&& (2 ^ 1536 - 1 - blockMask) == 0 && decide (1 ≤ a) && decide (a ≤ 5) && (a == 1 || !b.testBit 8)
    && decide (1 ≤ f 3 4) && decide (f 3 4 ≤ 8) && decide (f 2 3 < f 3 4)
    && f 4 14 == (if a == 5 then verDim v else 0) && (a != 5 || verDim v % 32 == 0)
    && bitsOf b 768 448 == 0 && (verDelay v == 0 || f 3 4 == 1)

namespace State

/-- The descriptors given to lookup engine `k`, with their streams (R311). -/
def lkpQueue (s : State) (k : Nat) : List (Nat × Desc) :=
  s.streams.flatMap fun e => (e.2.fetched.filter fun x => x.phase == .running && x.lkSlot?.isSome && x.lkEngine == k).map fun x => (e.1, x)

/-- An engine has a descriptor. -/
def lkpBusy (s : State) (k : Nat) : Bool := !(s.lkpQueue k).isEmpty

/-- The descriptor is the one that its engine runs: it came first of those given to it (R310). -/
def lkpTurn (s : State) (x : Desc) : Bool := (s.lkpQueue x.lkEngine).all fun e => decide (x.lkTicket ≤ e.2.lkTicket)

/-- Lookup engine `k` belongs to a sealed compartment (R506). -/
def lkpSealed (s : State) (k : Nat) : Bool := decide (s.owner 6 k < 64) && s.cptSealed (s.owner 6 k)

/-- Lookup engine `k` serves descriptors of compartment `c`: of a sealed one those that it owns, of another those that no sealed one owns
(R506). -/
def lkpServes (s : State) (c k : Nat) : Bool := if s.cptSealed c then s.owner 6 k == c else !s.lkpSealed k

/-- The engine to which the front end gives a descriptor of compartment `c`: of those that serve it and run the one with the fewest
descriptors, on a tie the lowest (R311, R506). -/
def lkpPick (s : State) (c : Nat) : Option Nat :=
  ((List.range 16).filter fun k => s.lkpServes c k && s.runs (lkpPg k)).foldl
    (fun best k => match best with
      | none => some k
      | some b => if (s.lkpQueue k).length < (s.lkpQueue b).length then some k else some b) none

/-- One more than the turn of every descriptor given to a lookup engine. -/
def lkpNext (s : State) : Nat :=
  ((List.range 16).flatMap fun k => (s.lkpQueue k).map fun e => e.2.lkTicket + 1).foldl max 1

/-- The start: an engine is given the descriptor, the table record is read, the CURRENT slot latched, and the arrays that follow from it
are translated and pinned (R311, R317, R318). A sealed compartment without an engine gets DESC_FAULT (R506), whose POSITION is that of
the operation code (DEDUCED, notes/assumptions/27.md). -/
def lkpLatch (s : State) (d : Die) (n q : Nat) (x : Desc) : State :=
  if s.cptSealed (s.ctxCpt d n) && !(List.range 16).any fun k => s.owner 6 k == s.ctxCpt d n then s.finish d n q stDescFault 0
  else
    match s.lkpPick (s.ctxCpt d n) with
    | none => s
    | some k =>
      let stop (t : State) (st pos : Nat) : State := (t.finish d n q st pos).bump (lkpPg k) Reg.LKP_DONE
      if s.badV x.pins (x.addr 16) 64 then stop s stUncorr posNone
      else
        let tr := s.rdVNat x.pins (x.addr 16) 64
        let t := s.touchV x.pins (x.addr 16) 64
        let grad := x.op == 0x19
        let mask := fieldMask 0 0 10 ||| (if grad then fieldMask 8 0 57 ||| fieldMask 16 0 57 else 0)
        match s.currentSlot (bitsOf tr 0 10) with
        | none => stop t stDescFault 16
        | some key =>
          let v := (s.tblSlot key).ver
          if tr &&& (2 ^ 512 - 1 - mask) != 0 || verOwner v != s.ctxCpt d n then stop t stDescFault 16
          else
            let y := { x with layout := tr + verDim v <<< 512 + (key + 1) <<< 528 + k <<< 544 + s.lkpNext <<< 576 }
            match t.pinArrays d n q y ((lookupFoot y).drop (if x.addr 32 == 0 then 2 else 3)) 40 with
            | (true, s1) => s1.pageInAll ((s1.desc? d n q).elim [] descLots)
            | (false, s1) =>
              if (s1.desc? d n q).any fun w => w.phase == .ended then s1.bump (lkpPg k) Reg.LKP_DONE else s1

/-! ### The batch (R323 to R325) -/

/-- The indices of a batch. -/
def lkIndices (s : State) (x : Desc) : List Nat := codesAt (s.rdVNat x.pins (x.addr 24) (8 * x.lkCount)) 64 0 x.lkCount

/-- The offsets of its bags. -/
def lkOffsets (s : State) (x : Desc) : List Nat :=
  codesAt (s.rdVNat x.pins (x.addr 32) (4 * (x.lkBags + 1))) 32 0 (x.lkBags + 1)

/-- The bags: first position and count. -/
def lkBagSpans (s : State) (x : Desc) : List (Nat × Nat) :=
  if x.lkPool == 0 then (List.range x.lkCount).map fun i => (i, 1)
  else let o := s.lkOffsets x; (o.zip (o.drop 1)).map fun p => (p.1, p.2 - p.1)

/-- The offsets obey R323. -/
def offsetsOk (s : State) (x : Desc) : Bool :=
  x.lkPool == 0 ||
    (let o := s.lkOffsets x
     o.head? == some 0 && (o.zip (o.drop 1)).all (fun p => decide (p.1 ≤ p.2)) && o.getLast? == some x.lkCount)

/-- The version that a descriptor latched. -/
def lkVer (s : State) (x : Desc) : Nat := (s.tblSlot (x.lkSlot?.getD 0)).ver

/-- The state of a batch after its sort phase: what ended it, or its indices. -/
inductive Batch where
  | stop (status pos operand : Nat)
  | absent (lots : List Nat)
  | rows (idx : List Nat)
  deriving DecidableEq, Repr

/-- The arrays read and the entries checked (R323, R325, R328). -/
def lkSort (s : State) (x : Desc) : Batch :=
  let v := s.lkVer x
  let n := x.lkCount
  let badAt (a size k : Nat) : Option Nat := if s.badV x.pins a (size * k) then
    (List.range k).find? fun i => s.badV x.pins (a + size * i) size else none
  match badAt (x.addr 24) 8 n, (if x.lkPool == 0 then none else badAt (x.addr 32) 4 (x.lkBags + 1)) with
  | some p, _ => .stop stUncorr p 1
  | none, some p => .stop stUncorr p 2
  | none, none =>
    if !s.offsetsOk x then .stop stDescFault 32 opNone
    else
      let idx := s.lkIndices x
      let ent (i : Nat) : Nat := verDir v + 16 * i
      match idx.findIdx? fun i => decide (verRows v ≤ i) with
      | some p =>
        -- a tombstoned row may stand at a lower position
        let low := (idx.take p).findIdx? fun i => entTomb (s.rowEntry v i)
        .stop 0x12 (low.getD p) 1
      | none =>
        let lots := s.absentLots (idx.eraseDups.flatMap fun i => lotsOf (ent i) 16)
        if !lots.isEmpty then .absent lots
        else
          match idx.findIdx? fun i => s.badIn (ent i) 16, idx.findIdx? fun i => entTomb (s.rowEntry v i) with
          | some p, t => if (t.getD n) < p then .stop 0x12 (t.getD n) 1 else .stop stUncorr p 1
          | none, some p => .stop 0x12 p 1
          | none, none => .rows idx

/-- The arrays of a batch, and the entries of the rows `rows`, read as touches (R217). -/
def touchBatch (s : State) (x : Desc) (rows : List Nat) : State :=
  let s1 := s.touchV x.pins (x.addr 24) (8 * x.lkCount)
  let s2 := if x.lkPool == 0 then s1 else s1.touchV x.pins (x.addr 32) (4 * (x.lkBags + 1))
  rows.eraseDups.foldl (fun t i => t.touchRead (verDir (s.lkVer x) + 16 * i) 16) s2

/-! ### LOOKUP (R326 to R328) -/

/-- The elements of a row, decoded exactly (R319, R327). -/
def rowValues (s : State) (v r : Nat) : List Num :=
  let e := s.rowEntry v r
  let w := entWidth e
  let c := widthFmt w
  let dim := verDim v
  let raw := s.rdNat (rowAddr v r e) (slotBytes w dim)
  (codesAt raw (fmtBits c) 0 dim).zipIdx.map fun p =>
    if isMx c then scaledElem c p.1 (bitsOf raw (dim * fmtBits c + 8 * (p.2 / 32)) 8) else decodeElem c p.1

/-- Row fetches of a batch, and how many of them are repeats: each unique row once where the rows fit the stage, else once
in each window of bags (R326). -/
def lkFetches (s : State) (x : Desc) (idx : List Nat) : Nat × Nat :=
  let v := s.lkVer x
  let u := idx.eraseDups
  let bytes := (u.map fun r => slotBytes (entWidth (s.rowEntry v r)) (verDim v)).foldl (· + ·) 0
  if bytes ≤ s.getF (lkpPg x.lkEngine) Reg.LKP_STAGE_BYTES then (u.length, 0)
  else
    let per := max 1 (49152 / verDim v)
    let bags := s.lkBagSpans x
    let total := ((List.range (ceilDiv bags.length per)).map fun w =>
      (((bags.drop (w * per)).take per).flatMap fun b => (idx.drop b.1).take b.2).eraseDups.length).foldl (· + ·) 0
    (total, total - u.length)

/-- One output row: the exact sums, or quotients, rounded once (R327). -/
def lkBagOut (s : State) (x : Desc) (v : Nat) (rows : List Nat) : List Nat :=
  let c := x.fmt 0
  let mode := rmode x.lkRnd 0
  let vals := rows.map (s.rowValues v)
  (List.range (verDim v)).map fun e =>
    let xs := vals.map fun r => r.getD e .nan
    if xs.isEmpty then 0
    else
      let t := if x.lkPool == 0 then xs.headD .nan else sumNum (x.lkRnd == 3) xs
      (roundElem c mode (if x.lkPool == 2 then divNum t (numOf xs.length) else t)).1

/-- The accumulate phase: rows pooled and the output written (R324, R326 to R328); where a codeword of the output stays uncorrectable, the
other words are written all the same (R148). -/
def lkPool (s : State) (d : Die) (n : Nat) (x : Desc) (idx : List Nat) (addrs : List (Nat × Nat)) : State :=
  let v := s.lkVer x
  let size := fmtBits (x.fmt 0) / 8
  let k := x.lkBags * verDim v
  let pg := lkpPg x.lkEngine
  let out := (s.lkBagSpans x).map fun b => s.lkBagOut x v ((idx.drop b.1).take b.2)
  let f := s.lkFetches x idx
  let s1 := addrs.eraseDups.foldl (fun a p => a.touchRead p.1 p.2) s
  let s2 := (s1.bump pg Reg.LKP_ROWS_FETCHED f.1).bump pg Reg.LKP_REFETCHED f.2
  let s3 := s2.wrV x.pins (x.addr 40) (leBytes (packCodes (8 * size) out.flatten) (k * size))
  if s2.partialBadV x.pins (x.addr 40) (k * size) then
    s3.lkpFinish d n x stUncorr (((List.range k).find? fun i => s3.badV x.pins (x.addr 40 + i * size) size).getD 0) 3
  else s3.lkpFinish d n x stOk

/-- Narrow reads of engine `k` that stand in some channel (R263). -/
def narrowWaits (s : State) (k : Nat) : Bool :=
  s.chans.any fun e => e.2.narrow.any (fun y => y.engine == k)
    || e.2.fg.any fun r => match r.op with | .narrow y => y.engine == k | _ => false

/-- The narrow reads of an engine put into the queues of their channels as far as these have room: those that have none yet (R263). -/
def askRows (s : State) (k : Nat) (rows : List (Nat × Nat)) : State × List (Nat × Nat) :=
  rows.foldl (fun acc p =>
    match acc.1.cwOf p.1 with
    | some w => if (acc.1.chan w.die w.ch).narrow.length < 256 then (acc.1.askNarrow k p.1 ⟨p.2, [], false⟩, acc.2) else (acc.1, acc.2 ++ [p])
    | none => acc) (s, [])

/-- The fetch and accumulate phases (R324, R326 to R328). Rows of at most 32 bytes are asked of the channels' narrow queues, and the
descriptor goes on once their reads have been served: its aux is then 1 and the rows that found no room, each as address · 64 + bytes. -/
def lkRun (s : State) (d : Die) (n : Nat) (x : Desc) (idx : List Nat) : State :=
  let v := s.lkVer x
  let dim := verDim v
  let addrs := idx.map fun r => (rowAddr v r (s.rowEntry v r), slotBytes (entWidth (s.rowEntry v r)) dim)
  let lots := s.absentLots (addrs.eraseDups.flatMap fun a => lotsOf a.1 a.2)
  if !lots.isEmpty then s.pageInAll lots
  else
    match addrs.findIdx? fun a => s.badIn a.1 a.2 with
    | some p =>
      match addrs[p]? with
      | some a => (s.reportUncorr (.stream d n) a.1 x.seq).lkpFinish d n x stUncorr p 1
      | none => s
    | none =>
      let due := if x.aux.isEmpty then addrs.eraseDups.filter fun a => decide (a.2 ≤ 32) else (x.aux.drop 1).map fun a => (a / 64, a % 64)
      let r := s.askRows x.lkEngine due
      if r.2.isEmpty && !r.1.narrowWaits x.lkEngine then r.1.lkPool d n x idx addrs
      else r.1.updDesc d n x.slot fun y => { y with aux := 1 :: r.2.map fun a => a.1 * 64 + a.2 }

end State

/-- LOOKUP: an engine takes it and latches the table's version; when its turn comes the batch is sorted, its rows fetched and pooled
(R310, R311, R317, R318, R322 to R328). -/
def execLookup (d : Die) (n q : Nat) (s : State) : Host.Outcome State Fault Refusal :=
  actD d s fun s => s.withRunning d n q 0x18 fun x0 =>
    let s1 := if x0.layout == 0 then s.lkpLatch d n q x0 else s
    s1.withRunning d n q 0x18 fun x =>
      if x.layout == 0 || !s1.lkpTurn x || !s1.runs (lkpPg x.lkEngine) then s1
      else s1.whenResident d n q fun x =>
        match s1.lkSort x with
        | .stop st pos operand => (s1.touchBatch x []).lkpFinish d n x st pos operand
        | .absent lots => s1.pageInAll lots
        | .rows idx => ((s1.touchBatch x idx).setF (lkpPg x.lkEngine) Reg.LKP_UNIQUE_LAST idx.eraseDups.length).lkRun d n x idx

/-! ### LOOKUP_GRAD (R330 to R337) -/

/-- Identity pins for physical ranges. -/
def idPins (rs : List (Nat × Nat)) : SMap Nat :=
  rs.foldl (fun m r => (VRange.pages ⟨r.1, r.2, false⟩).foldl (fun m p => SMap.put m p p) m) []

/-- The parameter block of a LOOKUP_GRAD, and with the version's arrays in its address fields (R330). -/
def gradBlock (x : Desc) (v : Nat) : Nat :=
  bitsOf x.layout 1024 1536 + verM1 v <<< 768 + verM2 v <<< 832 + verAcc v <<< 1088

/-- Parameters in a master lot of a LOOKUP_GRAD's table (R277). -/
def gradPL (x : Desc) (v : Nat) : Nat :=
  if bitsOf x.layout 1024 8 == 5 then 10912 / verDim v * verDim v else 10912

/-- The moments' format (R330): FP32 for the row factors, else as Config leaves it open. -/
def gradMom (x : Desc) : Nat := if bitsOf x.layout 1024 8 == 5 then 9 else if Config.rowMomentsBf16 then 7 else 9

/-- The physical arrays of master lot `l` of a version (R331). -/
def gradRanges (x : Desc) (v l : Nat) : List (Nat × Nat) :=
  let a := bitsOf x.layout 1024 8
  let pl := gradPL x v
  let e := if gradMom x == 7 then 2 else 4
  (verMaster v + 65536 * l, 65536) ::
    (if a == 5 then [(verM1 v + 4 * (pl / verDim v * l), 4 * (pl / verDim v))] else [(verM1 v + e * pl * l, e * pl)])
    ++ (if a == 2 || a == 3 then [(verM2 v + e * pl * l, e * pl)] else [])
    ++ (if verDelay v == 0 then [] else [(verAcc v + 264 * (l * pl / 32), 264 * (pl / 32))])

/-- The update that a LOOKUP_GRAD asks of master lot `l` (R330, R331, R333), described as an UPDATE over physical addresses. -/
def State.gradUpdate (s : State) (d : Die) (n : Nat) (x : Desc) (l : Nat) : Desc :=
  let v := s.lkVer x
  { x with
    raw := 0x20 + 0xA <<< 16 + gradMom x <<< 24 + verMaster v <<< 128 + s.ctxMilestone d n <<< 384 + 65536 <<< 448
      + verDelay v <<< 480 + x.lkRnd <<< 484
    layout := gradBlock x v
    pins := idPins (gradRanges x v l) }

/-- Numbers of a LOOKUP_GRAD's request beyond those of every request: its lots, each as address · 4 + state, and its rows,
each as row + count · 2^40 + done · 2^72. -/
def gradLots (x : Desc) : List Nat := (x.aux.drop 5).take (x.aux.getD 4 0)
def gradRows (x : Desc) : List Nat := x.aux.drop (5 + x.aux.getD 4 0)
def gRow (e : Nat) : Nat := e % 2 ^ 40
def gCount (e : Nat) : Nat := bitsOf e 40 32
def gDone (e : Nat) : Bool := e.testBit 72

/-- The master lots, by number, that hold row `r`. -/
def lotsOfRow (x : Desc) (v r : Nat) : List Nat :=
  let pl := gradPL x v
  let a := r * verDim v / pl
  (List.range ((r * verDim v + verDim v - 1) / pl - a + 1)).map (· + a)

namespace State

/-- The occurrences of a batch in ascending position order: row, bag, occurrences in the bag (R332). -/
def lkOccur (s : State) (x : Desc) (idx : List Nat) : List (Nat × Nat × Nat) :=
  (s.lkBagSpans x).zipIdx.flatMap fun b => ((idx.drop b.1.1).take b.1.2).map fun r => (r, b.2, b.1.2)

/-- The merged gradient of row `r` (R332). -/
def merged (s : State) (x : Desc) (occ : List (Nat × Nat × Nat)) (r : Nat) : List Num :=
  let dim := x.lkDim
  let c := x.fmt 0
  let size := fmtBits c / 8
  (occ.filter fun o => o.1 == r).foldl
    (fun acc o =>
      let g := (codesAt (s.rdVNat x.pins (x.addr 40 + o.2.1 * dim * size) (dim * size)) (8 * size) 0 dim).map (decodeElem c)
      acc.zipIdx.map fun a =>
        let t := g.getD a.2 .nan
        fadd a.1 (if x.lkPool == 2 then fdiv t (numOf o.2.2) else t))
    (List.replicate dim (.fin false 0 0))

/-- The bit of a master lot in the version's bitmap (R337). -/
def bitmapBit (s : State) (v l : Nat) : Bool := (s.rdNat (verMap v + l / 8) 1).testBit (l % 8)
def setBitmap (s : State) (v l : Nat) (b : Bool) : State :=
  s.wrNat (verMap v + l / 8) (putBits (s.rdNat (verMap v + l / 8) 1) (l % 8) 1 b.toNat) 1

/-- The step of a LOOKUP_GRAD's milestone applies (R291, R337). -/
def gradApplies (s : State) (d : Die) (n v : Nat) : Bool := verDelay v == 0 || s.ctxMilestone d n % verDelay v == 0

/-- The master lots, by number, and rows with counts of a LOOKUP_GRAD's request, whose step its gate has `passed` or not (R333, R334,
R337). -/
def gradWork (s : State) (d : Die) (n : Nat) (x : Desc) (occ : List (Nat × Nat × Nat)) (passed : Bool) : List Nat × List (Nat × Nat) :=
  let v := s.lkVer x
  let mine := (occ.map (·.1)).eraseDups
  let mineLots := mine.flatMap (lotsOfRow x v)
  if !passed then (mineLots.eraseDups, [])
  else if verDelay v == 0 then (mineLots.eraseDups, mine.map fun r => (r, (occ.filter fun o => o.1 == r).length))
  else if s.gradApplies d n v then
    let pl := gradPL x v
    let set := (List.range (verLots v pl)).filter (s.bitmapBit v)
    let nonzero (r : Nat) : Bool := (List.range (verDim v)).any fun e =>
      let j := r * verDim v + e
      s.rdNat (verAcc v + 264 * (j / 32) + 8 * (j % 32)) 8 != 0
    let rows := (set.flatMap fun l => (List.range (pl / verDim v + 2)).map fun k => l * pl / verDim v + k).eraseDups.filter
      fun r => decide (r < verRows v) && (lotsOfRow x v r).any set.contains && nonzero r
    ((mineLots ++ set ++ rows.flatMap (lotsOfRow x v)).eraseDups, rows.map fun r => (r, 0))
  else (mineLots.eraseDups, [])

/-- The gate of a LOOKUP_GRAD (R333). -/
def gradGate (s : State) (x : Desc) (nonfinite : Bool) : Gate :=
  if s.badV x.pins x.lkNorm 32 then .fault stUncorr posNone opNone
  else
    match gateOf (s.rdVNat x.pins x.lkNorm 32) nonfinite (decodeElem 16 (bitsOf x.layout 1664 64)) (decodeElem 16 (bitsOf x.layout 1728 64)) with
    -- the table record names the norm record (R318, R677)
    | .fault st _ operand => .fault st 16 operand
    | g => g

/-- Every lot and every row of an admitted LOOKUP_GRAD is handled: it ends with the status of its gate (R281, R335), and a step that applied
lots is the table's last (R338). -/
def gradSettle (s : State) (d : Die) (n q : Nat) : State :=
  match s.desc? d n q with
  | some x =>
    if (gradLots x).all (fun e => e % 4 != 0) && (uStatus x != stOk || (gradRows x).all gDone) then
      let s1 := s.lkpFinish d n x (uStatus x)
      match x.lkSlot? with
      | some key =>
        if uStatus x == stOk && (gradLots x).any fun e => e % 4 == 1 then
          { s1 with tblM := SMap.put s1.tblM (key / 2) (s.ctxMilestone d n) }
        else s1
      | none => s1
    else s
  | none => s

/-- The gate of a LOOKUP_GRAD's step, decided before any request is sent (R333), and kept while the descriptor waits. -/
def gradDecision (s : State) (x : Desc) (occ : List (Nat × Nat × Nat)) : Gate :=
  if uPhase x == 1 then .step (uStatus x) (uClip x)
  else s.gradGate x ((occ.map (·.1)).eraseDups.any fun r => (s.merged x occ r).any fun g => !g.isFin)

/-- The requests of a LOOKUP_GRAD for the lots and rows `w` classified and, where every lot is in order or already applied, admitted
(R294, R295, R300, R333). -/
def gradAdmit (s : State) (d : Die) (n q : Nat) (x : Desc) (st : Nat) (c : Num) (w : List Nat × List (Nat × Nat)) : State :=
  let v := s.lkVer x
  let m := s.ctxMilestone d n
  let pass := bitsOf x.layout 1040 3
  let up (l : Nat) : Desc := s.gradUpdate d n x l
  let addr (l : Nat) : Nat := verMaster v + 65536 * l
  let unit (l : Nat) : Page := updPg ((s.updUnit (addr l)).getD 0)
  let aux (ph since : Nat) (ls : List Nat) : List Nat := [ph, since, st, encodeFloat 16 c, w.1.length] ++ ls
  match w.1.find? fun l => s.badV (up l).pins (trailerVa (up l) l) 64 with
  | some l => s.lkpFinish d n x stUncorr (l * gradPL x v) 0
  | none =>
    if w.1.any fun l => (s.trailer (up l) l).reserved then s.lkpFinish d n x stDescFault 16
    else
      match w.1.find? fun l => (s.trailer (up l) l).torn with
      | some l =>
        (w.1.foldl (fun a k => if (s.trailer (up k) k).torn then a.bump (unit k) Reg.UPD_TORN else a) s).lkpFinish d n x stUncorr
          (l * gradPL x v) 0
      | none =>
        let cs := w.1.map fun l => updClass (s.trailer (up l) l) m pass
        if cs.all (· != .waits) && !s.lotsHeld d n q 0x19 (w.1.map addr) && !s.comesAfter d n q (m, pass) (w.1.map addr) then
          let s1 := s.updDesc d n q fun y =>
            { y with aux := aux 2 (uSince x) (((w.1.zip cs).map fun p => addr p.1 * 4 + (if p.2 == .already then 2 else 0))
                ++ (w.2.map fun r => r.1 + r.2 <<< 40)) }
          let s2 := (w.1.zip cs).foldl (fun a p => if p.2 == .already then a.bump (unit p.1) Reg.UPD_IDEMP_SKIPS else a) s1
          (s2.countForeign (s.ctxCpt d n) (up 0).uDsEn (w.1.map addr)).gradSettle d n q
        else if uPhase x == 1 then s
        else
          match w.1.find? fun l => 8 ≤ s.waitersOf (addr l) with
          | some l => (s.bump (unit l) Reg.UPD_BUSY).lkpFinish d n x stBusy
          | none => s.updDesc d n q fun y => { y with aux := aux 1 s.base (w.1.map fun l => addr l * 4) }

/-- A LOOKUP_GRAD whose batch is sorted: the gate is decided, the memory of its master lots checked and paged in, and its requests are
classified (R294, R295, R333, R334, R337). -/
def gradClassify (s : State) (d : Die) (n q : Nat) (x : Desc) (idx : List Nat) : State :=
  let v := s.lkVer x
  let occ := s.lkOccur x idx
  match s.gradDecision x occ with
  | .fault st pos operand => s.lkpFinish d n x st pos operand
  | .step st c =>
    let w := s.gradWork d n x occ (st == stOk)
    let map := if verDelay v == 0 || st != stOk then [] else [(verMap v, ceilDiv (verLots v (gradPL x v)) 8)]
    let ranges := map ++ w.1.flatMap (gradRanges x v)
    let lots := s.blockedLots (ranges.flatMap fun r => State.lotsOf r.1 r.2)
    if ranges.any fun r => (VRange.pages ⟨r.1, r.2, false⟩).any fun p => !s.unitReach (verOwner v) (p * 4096) then
      s.lkpFinish d n x stDescFault 16
    else if !lots.isEmpty then s.pageInAll lots
    else s.gradAdmit d n q x st c w

/-- The parameter block of a LOOKUP_GRAD read once and checked (R284, R330); the flag says that the request goes on. -/
def gradParams (s : State) (d : Die) (n q : Nat) (x : Desc) : Bool × State :=
  if x.layout >>> 1024 != 0 then (true, s)
  else if x.lkParams % 64 != 0 then (false, s.lkpFinish d n x stDescFault 16)
  else if s.badV x.pins x.lkParams 192 then (false, s.lkpFinish d n x stUncorr)
  else
    let b := s.rdVNat x.pins x.lkParams 192
    if gradBlockOk b (s.lkVer x) then (true, s.updDesc d n q fun y => { y with layout := y.layout + b <<< 1024 })
    else (false, s.lkpFinish d n x stDescFault 16)

end State

/-- LOOKUP_GRAD: an engine takes it and latches the version; when its turn comes the batch is sorted and its gradients merged, the gate
decided, and the requests for the master lots are classified (R310, R311, R330 to R334, R337). -/
def execLookupGrad (d : Die) (n q : Nat) (s : State) : Host.Outcome State Fault Refusal :=
  actD d s fun s => s.withRunning d n q 0x19 fun x0 =>
    let s1 := if x0.layout == 0 then s.lkpLatch d n q x0 else s
    s1.withRunning d n q 0x19 fun x =>
      if x.layout == 0 || uPhase x == 2 || !s1.lkpTurn x || !s1.runs (lkpPg x.lkEngine) then s1
      else s1.whenResident d n q fun x =>
        match s1.gradParams d n q x with
        | (false, s2) => s2
        | (true, s2) =>
          s2.withRunning d n q 0x19 fun x =>
            let size := fmtBits (x.fmt 0) / 8
            match s2.lkSort x with
            | .stop st pos operand => (s2.touchBatch x []).lkpFinish d n x st pos operand
            | .absent lots => s2.pageInAll lots
            | .rows idx =>
              let s3 := (s2.touchBatch x idx).setF (lkpPg x.lkEngine) Reg.LKP_UNIQUE_LAST idx.eraseDups.length
              if s3.badV x.pins (x.addr 40) (x.lkBags * x.lkDim * size) then
                let p := (List.range (x.lkBags * x.lkDim)).find? fun i => s3.badV x.pins (x.addr 40 + i * size) size
                s3.lkpFinish d n x stUncorr (p.getD 0) 3
              else (s3.touchV x.pins (x.addr 40) (x.lkBags * x.lkDim * size)).gradClassify d n q x idx

/-- What an update asks of one master lot: the update as an UPDATE, the parameters that change, the exact gradients, the anchors of
their blocks, and the factor. -/
structure LotStep where
  x : Desc
  on : Nat → Bool
  grads : List Num
  anchors : List Nat
  c : Num

namespace State

/-- What an admitted LOOKUP_GRAD asks of master lot `l` (R332, R333, R337). -/
def gradStep (s : State) (d : Die) (n l : Nat) (x : Desc) : LotStep :=
  let v := s.lkVer x
  let y := s.gradUpdate d n x l
  let occ := s.lkOccur x (s.lkIndices x)
  let rows := (gradRows x).map gRow
  let touched := (occ.map (·.1)).eraseDups
  let dim := verDim v
  let row (t : Nat) : Nat := (l * y.uPL + t) / dim
  let vals := touched.map fun r => (r, s.merged x occ r)
  let xs := (List.range y.uPL).map fun t =>
    match vals.find? fun p => p.1 == row t with
    | some p => p.2.getD ((l * y.uPL + t) % dim) (.fin false 0 0)
    | none => .fin false 0 0
  ⟨y, fun t => rows.contains (row t), xs, (List.range (y.uPL / 32)).map fun i => min 254 (orfCandidate ((xs.drop (32 * i)).take 32)),
    uClip x⟩

/-- What an admitted UPDATE asks of master lot `l`. -/
def updStep (s : State) (x : Desc) (l : Nat) : LotStep := ⟨x, fun _ => true, s.lotGrad x l, s.lotAnchors x l, uClip x⟩

/-- One master lot of an admitted LOOKUP_GRAD handled by its unit (R333, R334, R337), once its memory is resident. -/
def gradLotApply (s : State) (d : Die) (n q l : Nat) (x : Desc) : State :=
  let v := s.lkVer x
  let pa := verMaster v + 65536 * l
  match s.updUnit pa, (gradLots x).find? fun e => e / 4 == pa with
  | some u, some e =>
    let map := if verDelay v == 0 then [] else [(verMap v + l / 8, 1)]
    let lots := s.blockedLots ((gradRanges x v l ++ map).flatMap fun r => State.lotsOf r.1 r.2)
    if e % 4 != 0 || !s.runs (updPg u) then s
    else if s.snapHolds pa then s.snapReached pa
    else if !lots.isEmpty then s.pageInAll lots
    else
      let settle (t : State) : State :=
        (t.updDesc d n q fun w => { w with aux := w.aux.map fun k => if k == e then e + 1 else k }).gradSettle d n q
      let y := s.gradUpdate d n x l
      if uStatus x != stOk then s.skipUpdLot d n q l u y settle
      else
        let z := s.gradStep d n l x
        let mine := ((s.lkOccur x (s.lkIndices x)).map (·.1)).eraseDups.any fun r => (lotsOfRow x v r).contains l
        s.applyUpdLot d n q l u y z.on z.grads z.anchors z.c fun t =>
          settle (if verDelay v == 0 then t
            else if mine then t.setBitmap v l true else if s.gradApplies d n v then t.setBitmap v l false else t)
  | _, _ => s

/-- The popularity of an entry decayed to a milestone (R335 step 1, R338). -/
def decayed (v e m : Nat) : Nat := entPop e >>> min 16 ((m - entLast e) / verHalf v)

/-- The new width of a row (R335 step 2). -/
def newWidth (v pop : Nat) : Nat :=
  match (List.range 4).find? fun w => verAllows v w && decide (verT v w ≤ pop) with
  | some w => w
  | none => (([3, 2, 1, 0] : List Nat).find? (verAllows v)).getD 0

/-- The bytes of a row in a width, from its masters (R319, R335 step 3). -/
def rowBytesOf (w dim : Nat) (ms : List Num) : Bytes :=
  let c := widthFmt w
  let body := if isMx c then
      let gs := (pieces 32 (ms.map fun m => (m, RMode.rne)) (ceilDiv dim 32)).map (mxGroup c)
      leBytes (packCodes (fmtBits c) (gs.flatMap (·.2))) (dim * fmtBits c / 8) ++ gs.flatMap fun g => leBytes g.1 1
    else leBytes (packCodes (fmtBits c) (ms.map fun m => (roundElem c .rne m).1)) (dim * fmtBits c / 8)
  body ++ List.replicate (slotBytes w dim - body.length) 0

/-- The physical address of parameter `j` in the master region. -/
def paramAddr (v pl j : Nat) : Nat := verMaster v + 65536 * (j / pl) + 6 * (j % pl)

/-- A hot slot left by its row waits for the descriptors that latched the version (R339). -/
def leaveHot (s : State) (key w hot : Nat) : State :=
  { s with hot := s.hot.map fun h =>
      if h.key == key && h.w == w && h.hot == hot && h.left.isNone then { h with left := some (s.latched key) } else h }

/-- Steps 1 to 5 of R335 for a row at milestone `m` with `h` occurrences. -/
def updateRow (s : State) (x : Desc) (key v r m h : Nat) : State :=
  let e := s.rowEntry v r
  let dim := verDim v
  let pl := gradPL x v
  let pop := min 65535 (decayed v e m + h)
  let w := newWidth v pop
  let ms := (List.range dim).map fun k => decodeElem 10 (s.rdNat (paramAddr v pl (r * dim + k)) 6)
  let bytes := rowBytesOf w dim ms
  let same := w == entWidth e
  let s1 := s.wrBytes (verCold v w + r * slotBytes w dim) bytes
  let s2 := if same && entHot e then s1.wrBytes (verHot v w + entSlot e * slotBytes w dim) bytes else s1
  let e' := putBits (putBits (putBits (putBits e 0 2 w) 16 16 pop) 64 64 m) 2 1 (same && entHot e).toNat
  let s3 := s2.wrNat (verDir v + 16 * r) e' 16
  if same then s3
  else
    let s4 := s3.bump (lkpPg x.lkEngine) Reg.LKP_WIDTH_CHANGES
    if entHot e then s4.leaveHot key (entWidth e) (entSlot e) else s4

end State

/-- LOOKUP_ROW_UPDATE: the engine completes a row whose masters have been applied; a row of lots found already applied
whose LAST_M is the milestone, or a later one, is left alone (R335, R336). -/
def execLookupRowUpdate (d : Die) (n q row : Nat) (s : State) : Host.Outcome State Fault Refusal :=
  actD d s fun s => s.withRunning d n q 0x19 fun x =>
    match x.lkSlot?, (gradRows x).find? fun e => gRow e == row && !gDone e with
    | some key, some e =>
      let v := s.lkVer x
      let m := s.ctxMilestone d n
      let dim := verDim v
      let sts := (lotsOfRow x v row).map fun l => (((gradLots x).find? fun k => k / 4 == verMaster v + 65536 * l).getD 0) % 4
      let done (t : State) : State :=
        (t.updDesc d n q fun y => { y with aux := y.aux.map fun k => if k == e then e + 2 ^ 72 else k }).gradSettle d n q
      if uPhase x != 2 || uStatus x != stOk || sts.any (· == 0) then s
      else
        let ent := s.rowEntry v row
        let pop := min 65535 (State.decayed v ent m + gCount e)
        let w := State.newWidth v pop
        let ranges := [(verDir v + 16 * row, 16), (verCold v w + row * slotBytes w dim, slotBytes w dim)]
          ++ ((lotsOfRow x v row).map fun l => (verMaster v + 65536 * l, 65536))
          ++ (if entHot ent then [(rowAddr v row ent, slotBytes (entWidth ent) dim)] else [])
        let lots := s.blockedLots (ranges.flatMap fun r => State.lotsOf r.1 r.2)
        if !lots.isEmpty then s.pageInAll lots
        else if s.badIn (verDir v + 16 * row) 16 || (List.range dim).any (fun k => s.badIn (paramAddr v row dim k x) 6) then
          s.lkpFinish d n x stUncorr posNone opNone
        else if sts.all (· == 2) && decide (m ≤ entLast ent) then done s
        else done (s.updateRow x key v row m (gCount e))
    | _, _ => s
where
  /-- The address of element `k` of a row's masters. -/
  paramAddr (v row dim k : Nat) (x : Desc) : Nat := State.paramAddr v (gradPL x v) (row * dim + k)

/-- UPDATE_LOT_APPLY: the unit of master lot `l` of an admitted UPDATE, or of an admitted LOOKUP_GRAD, handles it, unless an
admitted SNAPSHOT still has to ship the lot (R281, R286 to R292, R297, R298, R307, R333). -/
def execUpdateLotApply (d : Die) (n q l : Nat) (s : State) : Host.Outcome State Fault Refusal :=
  actD d s fun s =>
    match s.desc? d n q with
    | none => s
    | some x =>
      if x.phase != .running || uPhase x != 2 then s
      else if x.op == 0x19 then s.gradLotApply d n q l x
      else if x.op != 0x20 then s
      else
        match s.updUnit (lotPa x l) with
        | none => s
        | some u =>
          let settle (t : State) : State := t.lotDone d n q l
          if !(decide (l < x.uLots) && uLotSt x l == 0) || !s.runs (updPg u) || s.writesMoving x then s
          else if s.snapHolds (lotPa x l) then s.snapReached (lotPa x l)
          else if uStatus x == stOk then
            s.applyUpdLot d n q l u x (fun _ => true) (s.lotGrad x l) (s.lotAnchors x l) (uClip x) settle
          else s.skipUpdLot d n q l u x settle

/-! ### The sweeper (R338, R339) -/

namespace State

/-- Hot slots of a width that are free. -/
def freeHot (s : State) (key v w : Nat) : List Nat :=
  if verHot v w == 0 then []
  else (List.range (verSlots v w)).filter fun i => !s.hot.any fun h => h.key == key && h.w == w && h.hot == i

/-- The sweeper's judgement of one row (R338). -/
def sweepRow (s : State) (k key v m r : Nat) : State :=
  let a := verDir v + 16 * r
  let e := s.rowEntry v r
  let w := entWidth e
  let rb := slotBytes w (verDim v)
  let pop := decayed v e m
  let pg := lkpPg k
  if s.badIn a 16 then s
  else if !entHot e && decide (verHotT v ≤ pop) then
    let free := s.freeHot key v w
    if free.isEmpty || s.badIn (verCold v w + r * rb) rb then s
    else
      let pick := free.getD (Config.hotPick s.free % free.length) 0
      let bytes := s.rdBytes (verCold v w + r * rb) rb
      let s1 := ((s.drawFree.2.wrBytes (verHot v w + pick * rb) bytes).wrNat a (putBits (putBits e 2 1 1) 32 32 pick) 16).bump
        pg Reg.LKP_RELOCATIONS
      { s1 with hot := ⟨key, w, pick, none⟩ :: s1.hot }
  else if entHot e && decide (2 * pop < verHotT v) then
    ((s.wrNat a (putBits e 2 1 0) 16).leaveHot key w (entSlot e)).bump pg Reg.LKP_RELOCATIONS
  else s

/-- A LOOKUP_GRAD that latched a slot is admitted or waiting. -/
def gradOn (s : State) (key : Nat) : Bool :=
  s.streams.any fun e => e.2.fetched.any fun x => x.phase == .running && x.op == 0x19 && x.lkSlot? == some key

end State

namespace State

/-- The engine that sweeps a table (R338, R506): the table's number modulo 16, unless a sealed compartment owns that engine; of a sealed
compartment's table the lowest engine that it owns. -/
def sweepEngine (s : State) (tbl c : Nat) : Option Nat :=
  if s.cptSealed c then (List.range 16).find? fun k => s.owner 6 k == c
  else if s.lkpSealed (tbl % 16) then none else some (tbl % 16)

/-- The lots of a row's entry and slots. -/
def sweepLots (s : State) (v r : Nat) : List Nat :=
  let e := s.rowEntry v r
  let w := entWidth e
  let rb := slotBytes w (verDim v)
  lotsOf (verDir v + 16 * r) 16 ++ lotsOf (verCold v w + r * rb) rb
    ++ (if verHot v w == 0 then [] else lotsOf (verHot v w) (verSlots v w * rb))

/-- The rows of a table judged one after the other; a row whose lots are not resident stops the sweep there, and they are paged in. -/
def sweepRows (k key v m : Nat) : List Nat → State → State × Option Nat
  | [], s => (s, none)
  | r :: t, s =>
    let lots := s.blockedLots (s.sweepLots v r)
    if lots.isEmpty then sweepRows k key v m t ((s.touchRead (verDir v + 16 * r) 16).sweepRow k key v m r) else (s.pageInAll lots, some r)

/-- The row at which a sweep of a table by engine `k` starts: where one stands still, there; else, once the period has passed and no other
table's sweep is in progress, at row 0. -/
def sweepStart (s : State) (k tbl key : Nat) : Option Nat :=
  match SMap.find s.sweeps k with
  | some w =>
    if w.1 == tbl && w.2.1 == key then some w.2.2
    else if s.currentSlot w.1 == some w.2.1 then none else some 0
  | none =>
    if SMap.getD s.sweptAt tbl 0 + s.getF (lkpPg k) Reg.LKP_SWEEP_CFG_PERIOD_MS * 1000000 ≤ s.base then some 0 else none

end State

/-- SWEEP of a table: the rows of its CURRENT version are judged when the period has passed and the engine has no descriptor (R338, R506).
A sweep that meets a row that is not resident stands still, and goes on from there with the next command (R341). -/
def execSweep (tbl : Nat) (s : State) : Host.Outcome State Fault Refusal :=
  act s fun s =>
    let tb := tbl % 1024
    match s.currentSlot tb with
    | none => s
    | some key =>
      let v := (s.tblSlot key).ver
      match s.sweepEngine tb (verOwner v) with
      | none => s
      | some k =>
        if !s.runs (lkpPg k) || s.getF (lkpPg k) Reg.LKP_SWEEP_CFG_EN != 1 || s.lkpBusy k || s.gradOn key then s
        else
          match s.sweepStart k tb key with
          | none => s
          | some r0 =>
            let x := State.sweepRows k key v (SMap.getD s.tblM tb 0) ((List.range (verRows v)).drop r0) s
            match x.2 with
            | some r => { x.1 with sweeps := SMap.put x.1.sweeps k (tb, key, r) }
            | none => { x.1 with sweeps := SMap.del x.1.sweeps k, sweptAt := SMap.put x.1.sweptAt tb s.base }

namespace State

/-- The master lots of a request, by number, that are to be done, and the update of each. -/
def lotsToDo (s : State) (r : Nat × Nat × Desc) : List (Nat × Nat) :=
  let x := r.2.2
  if x.op == 0x19 then
    ((gradLots x).filter fun e => e % 4 == 0).map fun e => ((e / 4 - verMaster (s.lkVer x)) / 65536, e / 4)
  else ((List.range x.uLots).filter fun l => uLotSt x l == 0).map fun l => (l, lotPa x l)

/-- A reset finds unit `u` at work on the next lot of an admitted request, or between two lots (R298): the lot in progress keeps its TORN
trailer and the writes made so far. -/
def tearLot (s : State) (u : Nat) : Option State :=
  let next (r : Nat × Nat × Desc) : Option (Nat × Nat) :=
    if uPhase r.2.2 == 2 && r.2.2.op != 0x21 && uStatus r.2.2 == stOk then
      (s.lotsToDo r).find? fun e => s.updUnit e.2 == some u && !s.snapHolds e.2
    else none
  match s.lotReqs.findSome? fun r => (next r).map fun e => (r, e.1) with
  | none => none
  | some (r, l) =>
    match Config.lotInProgress s.free with
    | none => none
    | some k =>
      let d := dieOf r.1
      let z := if r.2.2.op == 0x19 then s.gradStep d r.2.1 l r.2.2 else s.updStep r.2.2 l
      let o := s.lotOut d r.2.1 z.x l z.on z.grads z.c
      some ((o.writes.take k).foldl (fun a w => a.wrV z.x.pins w.1 w.2) (s.drawFree.2.tearTrailer z.x l))

/-- The update units whose pages `p` names are reset: what becomes of their lots, and the units that left one torn (R298). -/
def tearLots (s : State) (p : Page → Bool) : State × List Nat :=
  ((List.range 16).filter fun u => p (updPg u)).foldl
    (fun acc u => match acc.1.tearLot u with | some t => (t, acc.2 ++ [u]) | none => acc) (s, [])

/-- Lots left torn counted (R298, R309), after the registers of their units have been reset. -/
def countTears (s : State) (us : List Nat) : State := us.foldl (fun t u => t.bump (updPg u) Reg.UPD_TORN) s

end State

/-- HOT_SLOT_FREE: a hot slot that a row left is free once the descriptors that latched the version before have completed
(R339). -/
def execHotSlotFree (tbl sl w hot : Nat) (s : State) : Host.Outcome State Fault Refusal :=
  act s fun s =>
    let key := tbl * 2 + sl
    let gone (h : HotSlot) : Bool :=
      h.key == key && h.w == w && h.hot == hot &&
        (match h.left with | some l => l.all fun p => !(s.latched key).contains p | none => false)
    { s with hot := s.hot.filter fun h => !gone h }

end Sys2Proof.Machine
end

