-- ==== Sys2Proof/Machine/Ports.lean ====
section
/-! DEFINITION. The Ethernet ports (R343, R344, R359, R360): frames, flow control, time stamps and PTP messages. -/

namespace Sys2Proof.Machine

/-- 0 for N0, 1 for N1. -/
def netNo (d : Die) : Nat := if d == .N1 then 1 else 0
def netDie (k : Nat) : Die := if k % 2 == 1 then .N1 else .N0
/-- The page of port 0 to 7, and of a logical port (port · 2 + sub-port). -/
def portPg (p : Nat) : Page := ⟨netDie (p / 4), .net, p % 4⟩
def logicalPg (lp : Nat) : Page := portPg (lp / 2)

namespace State

/-- The live logical ports of a die, lowest first. -/
def livePorts (s : State) (nd : Nat) : List Nat :=
  (List.range 4).flatMap fun k =>
    let p := 4 * nd + k
    let link := s.getF (portPg p) Reg.NET_PORT_STAT_LINK
    match s.getF (portPg p) Reg.NET_PORT_CFG_MODE with
    | 1 => if link.testBit 0 then [2 * p] else []
    | 2 => (if link.testBit 0 then [2 * p] else []) ++ (if link.testBit 1 then [2 * p + 1] else [])
    | _ => []

/-- The logical port that a command's port operand names: port in [1:0], sub-port under MODE 2 in [2] (notes/assumptions/75.md). -/
def logicalPort (s : State) (d : Die) (p : Nat) : Nat :=
  let k := 4 * netNo d + p % 4
  2 * k + (if s.getF (portPg k) Reg.NET_PORT_CFG_MODE == 2 then p / 4 % 2 else 0)

/-- Line rate of a logical port in Mb/s (R343). -/
def lineRate (s : State) (lp : Nat) : Nat := if s.getF (logicalPg lp) Reg.NET_PORT_CFG_MODE == 1 then 800000 else 400000

/-- A time stamp of the module time, in 2^-16 ns (R360). -/
def stampNow (s : State) : Nat := s.modT / 10 ^ 9

/-- The link partner has paused a priority of a logical port (R344). -/
def pausedOn (s : State) (lp prio : Nat) : Bool :=
  s.getF (logicalPg lp) Reg.NET_PORT_CFG_PFC_MASK >>> prio % 2 == 1 && decide (s.base < SMap.getD s.paused (lp * 8 + prio) 0)

/-- Frames are held back by a pause. -/
def held (s : State) (f : Frames) : Bool :=
  match f.port, f.pcp with
  | some lp, some prio => s.pausedOn lp prio
  | _, _ => false

/-- Frames leave their port, which stamps and counts them (R360, R378). -/
def sendNow (s : State) (f : Frames) : State :=
  let s1 := { s with netOut := { f with stamp := s.stampNow } :: s.netOut }
  match f.port with
  | some lp => s1.bump (logicalPg lp) Reg.NET_TX_FRAMES f.count
  | none => s1

/-- Frames handed to a port: they leave, or wait behind a pause of their priority (R344). -/
def sendFrames (s : State) (f : Frames) : State :=
  if s.held f then { s with netWait := s.netWait ++ [f] } else s.sendNow f

/-- The frames whose pause is over leave, oldest first. -/
def drainFrames (s : State) : State :=
  if s.netWait.isEmpty then s
  else
    let s1 := { s with netWait := s.netWait.filter fun f => s.held f }
    (s.netWait.filter fun f => !s.held f).foldl (fun a f => a.sendNow f) s1

/-! ### IEEE 1588 (R359; the messages' arithmetic PRESUMED, notes/assumptions/75.md) -/

def ptpOf (s : State) (lp : Nat) : Ptp := SMap.getD s.ptp lp Ptp.init
def setPtp (s : State) (lp : Nat) (x : Ptp) : State := { s with ptp := SMap.put s.ptp lp x }

/-- A PTP message leaves on a logical port, untagged. -/
def sendPtp (s : State) (lp : Nat) (m : PtpMsg) : State := s.sendNow ⟨some lp, none, 1, 0, .ptp m⟩

/-- A port asks for the delay: of its peer, or of the master. -/
def ptpAsk (s : State) (lp : Nat) : State :=
  let x := s.ptpOf lp
  (s.setPtp lp { x with seq := (x.seq + 1) % 2 ^ 16, asked := some (x.seq, s.stampNow) }).sendPtp lp
    ⟨x.seq, if Config.ptpPeer lp then .pdelayReq else .delayReq⟩

/-- The master's time of a Sync is known: with the path delay it gives the offset, and the port measures the delay again. -/
def ptpSynced (s : State) (lp : Nat) (origin : Int) (receipt : Nat) : State :=
  let x := s.ptpOf lp
  (s.setPtp lp { x with waiting := none, master := some (origin, receipt), offset := x.delay.map fun d => receipt - origin - d }).ptpAsk lp

/-- The path delay is known. -/
def ptpDelay (s : State) (lp : Nat) (d : Int) : State :=
  let x := s.ptpOf lp
  s.setPtp lp { x with asked := none, turn := none, delay := some d, offset := x.master.map fun m => m.2 - m.1 - d }

/-- A PTP message arrives on a logical port and is stamped; Delay_Req of a master and Pdelay_Req are answered, in one step or two. -/
def ptpIn (s : State) (lp : Nat) (m : PtpMsg) : State :=
  let x := s.ptpOf lp
  let now := s.stampNow
  match m.body with
  | .sync false origin corr => s.ptpSynced lp (origin + corr) now
  | .sync true _ corr => s.setPtp lp { x with waiting := some (m.seq, now, corr) }
  | .followUp origin corr =>
    match x.waiting with
    | some (q, t, c) => if q == m.seq then s.ptpSynced lp (origin + corr + c) t else s
    | none => s
  | .delayReq => if Config.ptpMaster lp s.base then s.sendPtp lp ⟨m.seq, .delayResp now 0⟩ else s
  | .delayResp receipt corr =>
    match x.asked, x.master with
    | some (q, t3), some (t1, t2) =>
      if q == m.seq then s.ptpDelay lp (((t2 - t1) + (receipt - corr - t3)) / 2) else s
    | _, _ => s
  | .pdelayReq =>
    if Config.ptpTwoStep lp then (s.sendPtp lp ⟨m.seq, .pdelayResp true now 0⟩).sendPtp lp ⟨m.seq, .pdelayFollowUp s.stampNow 0⟩
    else s.sendPtp lp ⟨m.seq, .pdelayResp false 0 (s.stampNow - now)⟩
  | .pdelayResp false _ corr =>
    match x.asked with
    | some (q, t1) => if q == m.seq then s.ptpDelay lp ((now - t1 - corr) / 2) else s
    | none => s
  | .pdelayResp true receipt corr => s.setPtp lp { x with turn := some (m.seq, receipt, now, corr) }
  | .pdelayFollowUp origin corr =>
    match x.asked, x.turn with
    | some (q, t1), some (r, t2, t4, c) =>
      if q == m.seq && r == m.seq then s.ptpDelay lp (((t4 - t1) - (origin - t2) - c - corr) / 2) else s
    | _, _ => s

/-- A port in the master role sends a Sync, whose time is in it or in its follow-up. -/
def ptpSync (s : State) (lp : Nat) : State :=
  let x := s.ptpOf lp
  if !Config.ptpMaster lp s.base then s
  else
    let s1 := s.setPtp lp { x with seq := (x.seq + 1) % 2 ^ 16 }
    if Config.ptpTwoStep lp then (s1.sendPtp lp ⟨x.seq, .sync true 0 0⟩).sendPtp lp ⟨x.seq, .followUp s.stampNow 0⟩
    else s1.sendPtp lp ⟨x.seq, .sync false s.stampNow 0⟩

end State

end Sys2Proof.Machine
end

