-- ==== Sys2Proof/Machine/NetOps.lean ====
section
/-! DEFINITION. Queue pairs, ports and memory regions (R343 to R355, R374 to R379): the operations that the commands of the
network families share. -/

namespace Sys2Proof.Machine

/-- The key of queue pair `i` of a die, and the RDMA page and index of a key. -/
def qpKey (d : Die) (i : Nat) : Nat := netNo d * 2 ^ 14 + i % 2 ^ 14
def rdmaPg (key : Nat) : Page := ⟨netDie (key >>> 14), .net, 8⟩
/-- The key that a QPN names (R347). -/
def qpnKey (q : Nat) : Nat := (q >>> 23) * 2 ^ 14 + q % 2 ^ 14
/-- The page of a coordination context (R383). -/
def convPg (k : Nat) : Page := ⟨.N0, .conv, k % 4⟩

/-- PSN distance from `a` to `b` (R346). -/
def psnDist (a b : Nat) : Nat := (b + 2 ^ 24 - a % 2 ^ 24) % 2 ^ 24

namespace State

def qp (s : State) (key : Nat) : Qp := SMap.getD s.qps key Qp.init
def setQp (s : State) (key : Nat) (x : Qp) : State := { s with qps := SMap.put s.qps key x }
/-- A field of a queue pair's context (R348): byte offset, lowest bit, width up to 64. -/
def qpF (s : State) (key byte lo w : Nat) : Nat :=
  let rd (k : Nat) : Nat := s.word (rdmaPg key) (0x100 + 4 * k) (key % 2 ^ 14)
  bitsOf (rd (byte / 4) + rd (byte / 4 + 1) <<< 32) (lo + 8 * (byte % 4)) w
def qpKind (s : State) (key : Nat) : Nat := s.qpF key 0 0 2
def qpCpt (s : State) (key : Nat) : Nat := s.qpF key 1 0 6
def qpPrio (s : State) (key : Nat) : Nat := s.qpF key 2 0 3
/-- Bytes of a path MTU. -/
def qpMtu (s : State) (key : Nat) : Nat := 128 <<< s.qpF key 2 4 3
def qpRetry (s : State) (key : Nat) : Nat := s.qpF key 4 0 3
def qpRnr (s : State) (key : Nat) : Nat := s.qpF key 4 3 3
def qpDepth (s : State) (key : Nat) : Nat := 2 ^ s.qpF key 11 0 4
/-- The root of a queue pair's table, its ASID above the page number. -/
def qpRoot (s : State) (key : Nat) : Nat := s.qpF key 40 0 60
def qpSt (s : State) (key : Nat) : Nat := s.getF (rdmaPg key) Reg.NET_QP_STATE_STATE (key % 2 ^ 14)
def setQpSt (s : State) (key v : Nat) : State := s.setF (rdmaPg key) Reg.NET_QP_STATE_STATE v (key % 2 ^ 14)

/-- A queue pair's current port changed; its register follows. -/
def setQpPort (s : State) (key : Nat) (p : Option Nat) : State :=
  (s.setQp key { s.qp key with port := p }).setF (rdmaPg key) Reg.NET_QP_STATE_PORT (p.getD 0) (key % 2 ^ 14)

/-! ### Ports (R343, R374 to R376) -/

/-- Queue pairs on a logical port. -/
def portLoad (s : State) (lp : Nat) : Nat := (s.qps.filter fun e => e.2.port == some lp).length

/-- The port of least load among some, the lowest of equals (R376). -/
def leastPort (s : State) (ps : List Nat) : Option Nat :=
  ps.foldl (fun best p =>
    match best with
    | none => some p
    | some b => if s.portLoad p < s.portLoad b then some p else some b) none

/-- The RDMA engine of a queue pair's die is marked unusable (R628). -/
def rdmaLost (s : State) (key : Nat) : Bool := s.getF (rdmaPg key) Reg.PAGE_STAT_UNUSABLE == 1

/-- The engine that runs a queue pair starts work: its die's, or the other die's once that is marked unusable (R628). -/
def rdmaRuns (s : State) (key : Nat) : Bool := s.runs (rdmaPg (if s.rdmaLost key then key ^^^ 2 ^ 14 else key))

/-- The port that a queue pair takes: on the die that runs it, else on the other (R375, R376, R628). -/
def homePort (s : State) (key : Nat) : Option Nat :=
  let nd := (if s.rdmaLost key then key ^^^ 2 ^ 14 else key) >>> 14
  match s.leastPort (s.livePorts nd) with
  | some p => some p
  | none => s.leastPort (s.livePorts (1 - nd))

/-- A message goes out on a queue pair's port with its priority as code point (R344); without a port none goes out. -/
def sendNet (s : State) (key frames : Nat) (m : NetMsg) : State :=
  match (s.qp key).port with
  | some lp => s.sendFrames ⟨some lp, some (s.qpPrio key), frames, 0, m⟩
  | none => s

/-- A queue pair has no port, or the link partner has paused its priority there (R344). -/
def qpPaused (s : State) (key : Nat) : Bool :=
  match (s.qp key).port with
  | some lp => s.pausedOn lp (s.qpPrio key)
  | none => true

/-- The packets of a work element from PSN `psn` on: a read is one request. -/
def sendWork (s : State) (key : Nat) (w : Work) (psn : Nat) : State :=
  s.sendNet key (if w.verb == 2 then 1 else w.packets - psnDist w.first psn) (.request key w psn)

/-- A queue pair sends again from its oldest unacknowledged PSN (R346, R375). -/
def resend (s : State) (key : Nat) : State :=
  let x := s.qp key
  let again := x.sent.map fun w => (w, if psnDist w.first x.una < w.packets then x.una else w.first)
  let count := (again.map fun p => if p.1.verb == 2 then 1 else p.1.packets - psnDist p.1.first p.2).sum
  again.foldl (fun a p => a.sendWork key p.1 p.2)
    ((s.bump (rdmaPg key) Reg.NET_RETRANSMITS count).setQp key { x with since := s.base })

/-- The queue pairs of logical port `lp`, which is down, moved in ascending order; the frames that waited on it are lost (R375). -/
def steer (s0 : State) (lp : Nat) : State :=
  let s := { s0 with netWait := s0.netWait.filter fun f => f.port != some lp }
  let keys := (s.qps.filter fun e => e.2.port == some lp).map (·.1)
  if keys.isEmpty then s
  else
    let s1 := keys.foldl (fun a k => (a.setQpPort k (a.homePort k)).resend k) s
    let pg := logicalPg lp
    (((s1.drawFree.2.setF pg Reg.NET_PORT_STAT_STEERED_AWAY 1).bump pg Reg.NET_FAILOVERS)).raiseMax pg Reg.NET_FAILOVER_US_MAX
      (Config.failoverUs s1.free % 41)

/-! ### Work elements (R350 to R352) -/

/-- Packets of a message (R346). -/
def packetsOf (s : State) (key len : Nat) : Nat := max 1 (ceilDiv len (s.qpMtu key))

/-- A work element of `k` packets put behind those sent, and its packets sent. -/
def postN (s : State) (key : Nat) (src : WorkSrc) (verb remote rkey : Nat) (imm : Option Nat) (data : Bytes) (len k : Nat) : State :=
  let x := s.qp key
  let w : Work := ⟨src, verb, x.psn, k, remote, rkey, imm, data, len, 0⟩
  let y := { x with psn := (x.psn + k) % 2 ^ 24, sent := x.sent ++ [w], since := if x.sent.isEmpty then s.base else x.since }
  (s.setQp key y).sendWork key w x.psn

/-- A work element of the packets that its length takes. -/
def post (s : State) (key : Nat) (src : WorkSrc) (verb remote rkey : Nat) (imm : Option Nat) (data : Bytes) (len : Nat) : State :=
  s.postN key src verb remote rkey imm data len (s.packetsOf key len)

/-- The descriptors outstanding on a queue pair (R346): die code, stream, slot, sequence number. -/
def outstanding (s : State) (key : Nat) : List (Nat × Nat × Nat × Nat) :=
  ((s.qp key).sent.filterMap fun w =>
    match w.src with
    | .desc d n q sq | .lot d n q sq _ | .shard d n q sq _ | .exchange d n q sq _ _ => some (d, n, q, sq)
    | _ => none).eraseDups ++ (s.qp key).recvs

/-- A queue pair has room for descriptor `e`, one more than the 4,096 outstanding (R346). -/
def qpRoom (s : State) (key : Nat) (e : Nat × Nat × Nat × Nat) : Bool :=
  (s.outstanding key).contains e || decide ((s.outstanding key).length < 4096)

/-- The window of 2^23 PSNs has room for a message of `len` bytes (R346). -/
def psnRoom (s : State) (key len : Nat) : Bool :=
  decide (psnDist (s.qp key).una (s.qp key).psn + s.packetsOf key len ≤ 2 ^ 23)

/-- A queue pair takes a work element of a descriptor: its engine runs, its port is not paused, the limits of R346 leave room, and of reads
no more than OUT_READS are outstanding (R348). -/
def qpReady (s : State) (key : Nat) (e : Nat × Nat × Nat × Nat) (verb len : Nat) : Bool :=
  s.rdmaRuns key && !s.qpPaused key && s.qpRoom key e && s.psnRoom key len
    && (verb != 2 || decide (((s.qp key).sent.filter fun w => w.verb == 2).length < s.qpF key 5 0 7))

/-- The running descriptor that a source names, if it still runs. -/
def srcDesc (s : State) (src : WorkSrc) : Option (Die × Nat × Desc) :=
  match src with
  | .desc d n q sq | .lot d n q sq _ | .shard d n q sq _ | .exchange d n q sq _ _ =>
    match s.desc? (dieOf d) n q with
    | some x => if x.seq == sq && x.phase == .running then some (dieOf d, n, x) else none
    | none => none
  | _ => none

/-- A work element ends with a status: its descriptor ends, except that a lot, a shard or a message of the exchange that succeeded only
reports. -/
def endWork (s : State) (w : Work) (st : Nat) (pos : Nat := posNone) : State :=
  match s.srcDesc w.src with
  | none => s
  | some (d, n, x) =>
    match w.src with
    | .desc _ _ _ _ => s.finish d n x.slot st pos
    | .shard _ _ _ _ _ =>
      -- the last number the descriptor keeps is its window's key (R372)
      let key := x.aux.getLastD 0
      match SMap.find s.wins key with
      | none => s
      | some v =>
        if st != stOk then { s.finish d n x.slot st pos with wins := SMap.del s.wins key }
        else if v.left == 1 then { s.finish d n x.slot stOk with wins := SMap.put s.wins key { v with left := 0, st := 2 } }
        else { s with wins := SMap.put s.wins key { v with left := v.left - 1 } }
    | _ => if st == stOk then s else s.finish d n x.slot st pos

/-- A posted RECV ends. -/
def endRecv (s : State) (r : Nat × Nat × Nat × Nat) (st : Nat) (pos : Nat := posNone) : State :=
  match s.desc? (dieOf r.1) r.2.1 r.2.2.1 with
  | some x => if x.seq == r.2.2.2 && x.phase == .running then s.finish (dieOf r.1) r.2.1 x.slot st pos else s
  | none => s

/-- What the exchange engine of a key runs, if its descriptor still runs. -/
def xchRun (s : State) (key : Nat) : Option (Xch × Desc) :=
  match SMap.find s.xch key with
  | none => none
  | some v =>
    match s.desc? (dieOf v.die) v.n v.slot with
    | some x => if x.seq == v.seq && x.phase == .running then some (v, x) else none
    | none => none

/-- The exchanges whose plans name a queue pair that leaves RTS end with ABORTED_BY_RESET, as every descriptor outstanding on it (R349,
R364). -/
def endExchanges (s : State) (key : Nat) : State :=
  s.xch.foldl (fun t e =>
    match t.xchRun e.1 with
    | some (v, x) =>
      if (List.range (min x.plGroup 4096)).any fun r => r != x.plRank && qpnKey (t.rdVNat x.pins (x.plPeer + 32 * r) 3) == key then
        t.finish (dieOf v.die) v.n v.slot stAborted
      else t
    | none => t) s

/-- A queue pair enters ERROR: the work element at fault ends with `st`, every other descriptor outstanding on it with
ABORTED_BY_RESET (R349, R351). -/
def qpError (s : State) (key st : Nat) : State :=
  let x := s.qp key
  let s1 := ((s.bump (rdmaPg key) Reg.NET_QP_ERRORS).setQpSt key 2).setQp key { x with sent := [], recvs := [], una := x.psn }
  let s2 := match x.sent with | [] => s1 | w :: t => t.foldl (fun a v => a.endWork v stAborted) (s1.endWork w st)
  (x.recvs.foldl (fun a r => a.endRecv r stAborted) s2).endExchanges key

/-- The queue pair whose access waits. -/
def stalledQp : Stalled → Option Nat
  | .rdmaWrite k _ | .rdmaRead k _ | .rdmaSend k _ | .nvmeDone k _ _ _ _ | .nvmePump k | .cqe k _ _ _ => some k
  | _ => none

/-- RESET of a queue pair: its outstanding descriptors end with ABORTED_BY_RESET, and nothing of it waits for lots (R349). -/
def qpReset (s : State) (key : Nat) : State :=
  let x := s.qp key
  let s1 := (({ s with
    qps := SMap.del s.qps key
    place := { s.place with stalls := s.place.stalls.filter fun w => stalledQp w != some key } }).setQpSt key 0).setF (rdmaPg key) Reg.NET_QP_STATE_PORT 0 (key % 2 ^ 14)
  let s2 := x.sent.foldl (fun a v => a.endWork v stAborted) s1
  (x.recvs.foldl (fun a r => a.endRecv r stAborted) s2).endExchanges key

/-! ### Queue pairs of the coordination contexts (R385) -/

/-- The address of a context's member table, of the entry of rank `r`. -/
def memberPa (s : State) (k r : Nat) : Nat :=
  s.getF (convPg k) Reg.CONV_MEMBERS_LO_PA <<< 10 + s.getF (convPg k) Reg.CONV_MEMBERS_HI_PA <<< 32 + 8 * r
/-- Entry `r` of a member table: [23:0] QPN, [24] PRESENT, [25] LOST. -/
def member (s : State) (k r : Nat) : Nat := s.rdNat (s.memberPa k r) 8
def fedCtx (s : State) (k : Nat) : Bool := s.getF (convPg k) Reg.CONV_CFG_FED == 1

/-- The queue pairs that a context names: of the present members other than itself, and of the federation. -/
def convQpns (s : State) (k : Nat) : List Nat :=
  ((List.range 128).filter fun r => r != s.getF (convPg k) Reg.CONV_CFG_RANK && (s.member k r).testBit 24).map
      (fun r => bitsOf (s.member k r) 0 24)
    ++ (if s.fedCtx k then [s.getF (convPg k) Reg.CONV_TOP_QP_QPN] else [])

/-- A queue pair carries the messages of a context that is not in IDLE. -/
def controlQp (s : State) (qpn : Nat) : Bool :=
  (List.range 4).any fun k => s.getF (convPg k) Reg.CONV_STAT_STATE != 0 && (s.convQpns k).contains qpn

/-! ### Memory regions (R353, R354) -/

def mrPg (nd : Nat) : Page := ⟨netDie nd, .net, 8⟩
/-- A field of a memory region entry. -/
def mrF (s : State) (nd i byte lo w : Nat) : Nat :=
  let rd (k : Nat) : Nat := s.word (mrPg nd) (0x140 + 4 * k) i
  bitsOf (rd (byte / 4) + rd (byte / 4 + 1) <<< 32) (lo + 8 * (byte % 4)) w

/-- How an inbound request fares: performed on physical ranges, refused, or stalled by lots that are not resident or, for
a write, move (R228, R234). -/
inductive Inbound where
  | ok (pins : SMap Nat)
  | refused
  | absent (lots : List Nat)
  deriving DecidableEq, Repr

/-- The pages of a range of compartment `c` translated through a table for a unit (R354, R495). -/
def xlateRange (s : State) (d : Die) (c root va len : Nat) (wr : Bool) : Inbound × State :=
  match xlatePages d c root (fun t pa => t.unitReach c pa) (footPages [⟨va, len, wr⟩]) [] s with
  | (.ok pins, s1) =>
    let lots := if wr then s1.blockedLots (lotsV pins va len) else s1.absentLots (lotsV pins va len)
    if lots.isEmpty then (.ok pins, s1) else (.absent lots, s1)
  | (.absent l, s1) => (.absent [l], s1)
  | (_, s1) => (.refused, s1)

/-- The checks of R354 on an inbound request at a queue pair. -/
def mrCheck (s : State) (key rkey va len : Nat) (wr : Bool) : Inbound × State :=
  let nd := key >>> 14
  let i := rkey % 2 ^ 16
  let ok := (SMap.find s.mrs (nd * 2 ^ 16 + i)).isSome && s.mrF nd i 26 0 16 == rkey >>> 16
    && decide (s.mrF nd i 0 0 57 ≤ va) && decide (va + len ≤ s.mrF nd i 0 0 57 + s.mrF nd i 8 0 57)
    && s.mrF nd i 25 (if wr then 1 else 0) 1 == 1 && s.mrF nd i 24 0 6 == s.qpCpt key
  if ok then s.xlateRange (netDie nd) (s.qpCpt key) (s.mrF nd i 16 0 60) va len wr else (.refused, s)

end State

end Sys2Proof.Machine
end

