-- ==== Sys2Proof/Machine/Time.lean ====
section
/-! DEFINITION. The passing of time (R360, R544, R641). -/

namespace Sys2Proof.Machine.State

/-- What module time gains in a nanosecond, in units of 2^-16 ppb of a nanosecond: NET_PTP_ADJ is signed (R360). -/
def timeGain (s : State) : Nat :=
  (10 ^ 9 * 2 ^ 16 + toSigned (s.getF timePg Reg.NET_PTP_ADJ) 32).toNat

/-- The calendar clock in seconds: 48 bits (R659). -/
def rtc (s : State) : Nat := s.getF ledgPg Reg.LEDG_RTC_LO + s.getF ledgPg Reg.LEDG_RTC_HI_SEC <<< 32

/-- `s` with the calendar clock at `v` seconds. -/
def setRtc (s : State) (v : Nat) : State :=
  (s.setF ledgPg Reg.LEDG_RTC_LO v).setF ledgPg Reg.LEDG_RTC_HI_SEC (v >>> 32)

/-- The calendar clock counts a second, unless its supercapacitor has run down (R659, R660). -/
def rtcSecond (s : State) : State := if s.rtcLost then s else s.setRtc (s.rtc + 1)

/-- A second in the units of module time. -/
def secUnits : Nat := 10 ^ 18 * 2 ^ 16

/-- Module time has just reached a whole second. -/
def wholeSecond (s : State) : Bool := decide (s.modT % secUnits < s.timeGain)

/-- The ports as time passes: frames whose pause is over leave, and at a whole second of module time a master sends its Sync (R344, R359). -/
def portsTick (s : State) : State :=
  let s1 := s.drainFrames
  if s1.wholeSecond then (s1.livePorts 0 ++ s1.livePorts 1).foldl ptpSync s1 else s1

/-- One nanosecond passes; the islands' clocks and module time stand still while the module is frozen (R640, R641). The calendar
clock counts at every whole second of the always-on island (R659, DESIGN CHOICE, notes/assumptions/2.md), and the ports go on. -/
def tick (s : State) : State :=
  let s1 := { s with aon := s.aon + 1 }
  let s2 := if s1.aon % 10 ^ 9 == 0 then s1.rtcSecond else s1
  if s.frozen then s2 else State.portsTick { s2 with base := s2.base + 1, modT := s2.modT + s2.timeGain }

end Sys2Proof.Machine.State
end

