-- ==== Sys2Proof/Machine/Network.lean ====
section
/-! DEFINITION. The network ports and the RDMA engine (R343 to R355, R374 to R379): ports, queue pairs, SEND and RECV, what comes
in, congestion, and the time page (R360, R361, R380). -/

namespace Sys2Proof.Machine

/-! ### Ports -/

/-- NET_PORT_MODE_WRITE: a write of NET_PORT_CFG. A change of MODE first steers the port's connections away, then the port
goes down; it is not applied while a connection finds no other port (R345). -/
def execNetPortModeWrite (d : Die) (p : Nat) (v : W32) (s : State) : Host.Outcome State Fault Refusal :=
  actD d s fun s =>
    let k := 4 * netNo d + p % 4
    let pg := portPg k
    let mode := v.toNat % 4
    let rest := (s.setF pg Reg.NET_PORT_CFG_AN_EN (bitsOf v.toNat 2 1)).setF pg Reg.NET_PORT_CFG_PFC_MASK (bitsOf v.toNat 3 8)
    if !isNet d || mode == s.getF pg Reg.NET_PORT_CFG_MODE then rest
    else
      let down := (rest.setF pg Reg.NET_PORT_STAT_LINK 0).setF pg Reg.NET_PORT_STAT_LOCK 0
      let moved := (down.steer (2 * k)).steer (2 * k + 1)
      let carried := s.portLoad (2 * k) + s.portLoad (2 * k + 1) != 0
      let other := !(down.livePorts 0).isEmpty || !(down.livePorts 1).isEmpty
      if carried && !other then rest else moved.setF pg Reg.NET_PORT_CFG_MODE mode

/-- PORT_LINK_UP: the port, or sub-port `sub` under MODE 2, has trained on the crystal's reference (R343, R344, R541, R554). Queue pairs that no port carried take
it. -/
def execPortLinkUp (d : Die) (p sub : Nat) (s : State) : Host.Outcome State Fault Refusal :=
  actD d s fun s =>
    let pg := portPg (4 * netNo d + p % 4)
    let mode := s.getF pg Reg.NET_PORT_CFG_MODE
    let link := s.getF pg Reg.NET_PORT_STAT_LINK
    let lock := s.getF pg Reg.NET_PORT_STAT_LOCK
    let up (t : State) : State :=
      (t.qps.filter fun e => e.2.port.isNone && t.qpKind e.1 != 3).foldl (fun a e => (a.setQpPort e.1 (a.homePort e.1)).resend e.1) t
    if !isNet d || !s.runs pg || s.getF ⟨.N0, .clk, 0⟩ Reg.CLK_SRC_XTAL_OK == 0 then s
    else if mode == 1 then up ((s.setF pg Reg.NET_PORT_STAT_LINK 1).setF pg Reg.NET_PORT_STAT_LOCK 15)
    else if mode == 2 then
      if sub % 2 == 0 then up ((s.setF pg Reg.NET_PORT_STAT_LINK (link ||| 1)).setF pg Reg.NET_PORT_STAT_LOCK (lock ||| 3))
      else up ((s.setF pg Reg.NET_PORT_STAT_LINK (link ||| 2)).setF pg Reg.NET_PORT_STAT_LOCK (lock ||| 12))
    else s

/-- ETH_LANE_LOCK_LOSS: the logical port that owns the lane goes down and its queue pairs move (R374, R375, R378). The PHYs and PCS run
on through a freeze, in which the port that goes down is a link timeout (R640, R644). -/
def execEthLaneLockLoss (d : Die) (p lane : Nat) (s : State) : Host.Outcome State Fault Refusal :=
  let run (f : State → State) : Host.Outcome State Fault Refusal :=
    if s.frozen && s.getF pciePg Reg.PCIE_HSW_MAIN_ON == 1 then .next (f s) else actD d s f
  run fun s =>
    let k := 4 * netNo d + p % 4
    let pg := portPg k
    let l := lane % 4
    let lock := s.getF pg Reg.NET_PORT_STAT_LOCK
    if !isNet d || !lock.testBit l then s
    else
      let f := if l < 2 then Reg.NET_LANE_ERR01 else Reg.NET_LANE_ERR23
      let s1 := s.bump pg ⟨f.off, 16 * (l % 2), 16⟩
      let s2 := s1.setF pg Reg.NET_PORT_STAT_LOCK (putBits lock l 1 0)
      let sub := if s.getF pg Reg.NET_PORT_CFG_MODE == 2 then l / 2 else 0
      let link := s.getF pg Reg.NET_PORT_STAT_LINK
      let s3 := s2.setF pg Reg.NET_PORT_STAT_LINK (putBits link sub 1 0)
      if s.frozen then (if link.testBit sub then s3.linkTimeout 1 else s3) else s3.steer (2 * k + sub)

/-- PFC_PAUSE_FRAME_RECEIVE: the priorities under flow control pause on the logical port for the quanta given, of 512 bit times each; 0 ends a
pause, and what waited leaves (R344, R378). -/
def execPfcPauseFrameReceive (d : Die) (p : Nat) (prio : BitVec 8) (quanta : Nat) (s : State) : Host.Outcome State Fault Refusal :=
  actD d s fun s =>
    let lp := s.logicalPort d p
    let pg := logicalPg lp
    if !isNet d || !(s.getF pg Reg.NET_PORT_STAT_LINK).testBit (lp % 2) then s
    else
      let s1 := (s.bump pg Reg.NET_PFC_RX).bump pg Reg.NET_RX_FRAMES
      let ns := ceilDiv (quanta * 512 * 1000) (s.lineRate lp)
      State.drainFrames ((List.range 8).foldl (fun a i =>
        if prio.toNat.testBit i && (s.getF pg Reg.NET_PORT_CFG_PFC_MASK).testBit i then
          { a with paused := SMap.put a.paused (lp * 8 + i) (s.base + ns) }
        else a) s1)

/-! ### Queue pairs -/

namespace State

/-- A queue pair's context is valid (R348, R358). -/
def qpValid (s : State) (key : Nat) : Bool :=
  let kind := s.qpKind key
  let ring := s.qpF key 11 0 4
  let zero (byte lo w : Nat) : Bool := s.qpF key byte lo w == 0
  zero 0 2 6 && zero 1 6 2 && zero 2 3 1 && zero 2 7 1 && zero 3 5 3 && zero 4 6 2 && zero 5 7 1 && zero 11 4 4
    && zero 12 0 32 && zero 35 0 8 && zero 39 0 8 && zero 48 57 7 && zero 56 57 7
    && s.qpF key 40 60 4 == 10
    && decide (3 ≤ s.qpF key 2 4 3) && decide (s.qpF key 2 4 3 ≤ 5)
    && decide (1 ≤ s.qpF key 5 0 7) && decide (s.qpF key 5 0 7 ≤ 64)
    && (if kind == 0 then ring == 0 else decide (4 ≤ ring) && decide (ring ≤ 10))
    && (kind != 3 || (zero 8 0 24 && zero 16 0 64 && zero 24 0 64 && zero 32 0 24 && zero 36 0 24))

/-- `s` with NET_QP_CMD.REJECTED, or NET_MR_CMD.REJECTED, set. -/
def qpReject (s : State) (d : Die) : State := s.setF (rdmaPg (qpKey d 0)) Reg.NET_QP_CMD_REJECTED 1
def mrReject (s : State) (d : Die) : State := s.setF (rdmaPg (qpKey d 0)) Reg.NET_MR_CMD_REJECTED 1

end State

/-- QP_ENABLE: the selected queue pair goes from RESET to RTS with a valid context and takes its home port (R349, R376). -/
def execQpEnable (d : Die) (s : State) : Host.Outcome State Fault Refusal :=
  actD d s fun s =>
    let key := qpKey d (s.getF (rdmaPg (qpKey d 0)) Reg.NET_QP_SEL_INDEX)
    if !isNet d then s
    else if s.qpSt key == 0 && s.qpValid key then
      let x := { Qp.init with psn := s.qpF key 32 0 24, una := s.qpF key 32 0 24, rq := s.qpF key 36 0 24, since := s.base }
      let s1 := (s.setQp key x).setQpSt key 1
      if s.qpKind key == 3 then s1
      else
        let p := s1.homePort key
        let s2 := s1.setQpPort key p
        s2.setQp key { s2.qp key with rate := (s.lineRate (p.getD 0), 0) }
    else s.qpReject d

/-- QP_RESET: the selected queue pair goes from RTS or ERROR to RESET (R349). -/
def execQpReset (d : Die) (s : State) : Host.Outcome State Fault Refusal :=
  actD d s fun s =>
    let key := qpKey d (s.getF (rdmaPg (qpKey d 0)) Reg.NET_QP_SEL_INDEX)
    if !isNet d then s else if s.qpSt key == 0 then s.qpReject d else s.qpReset key

/-- REGISTER: the selected memory region entry becomes valid (R353, R379). Its compartment must be ACTIVE (DEDUCED,
notes/assumptions/42.md). -/
def execRegister (d : Die) (s : State) : Host.Outcome State Fault Refusal :=
  actD d s fun s =>
    let nd := netNo d
    let i := s.getF (rdmaPg (qpKey d 0)) Reg.NET_MR_SEL_INDEX
    let len := s.mrF nd i 8 0 57
    let ok := s.mrF nd i 0 57 7 == 0 && s.mrF nd i 8 57 7 == 0 && decide (1 ≤ len) && decide (len ≤ 2 ^ 45)
      && s.mrF nd i 16 60 4 == 10 && s.mrF nd i 24 6 2 == 0 && s.mrF nd i 25 2 6 == 0 && s.mrF nd i 28 0 32 == 0
      && s.getF cptPg Reg.CPT_ENT_STAT_STATE (s.mrF nd i 24 0 6) == 1
    if !isNet d then s
    else if ok && (SMap.find s.mrs (nd * 2 ^ 16 + i)).isNone then { s with mrs := SMap.put s.mrs (nd * 2 ^ 16 + i) () }
    else s.mrReject d

/-- DEREGISTER: the selected memory region entry is no longer valid (R353, R379). -/
def execDeregister (d : Die) (s : State) : Host.Outcome State Fault Refusal :=
  actD d s fun s =>
    let nd := netNo d
    let i := s.getF (rdmaPg (qpKey d 0)) Reg.NET_MR_SEL_INDEX
    if !isNet d then s
    else if (SMap.find s.mrs (nd * 2 ^ 16 + i)).isSome then { s with mrs := SMap.del s.mrs (nd * 2 ^ 16 + i) }
    else s.mrReject d

/-! ### SEND and RECV descriptors (R347, R350, R352) -/

namespace Desc
def qpn (x : Desc) : Nat := x.f 28 0 24
def bytes (x : Desc) : Nat := x.f 24 0 32
def verb (x : Desc) : Nat := x.f 31 0 2
def immData (x : Desc) : Option Nat := if x.f 31 2 1 == 1 then some (x.f 44 0 32) else none
end Desc

namespace State

/-- The queue pair serves the descriptor (R347, R385). -/
def qpnOk (s : State) (d : Die) (n : Nat) (x : Desc) : Bool :=
  let k := qpnKey x.qpn
  bitsOf x.qpn 14 9 == 0 && s.qpSt k == 1 && s.qpKind k == 0 && s.qpCpt k == s.ctxCpt d n
    && !s.controlQp x.qpn

/-- An earlier descriptor of the stream on the same queue pair and in the same direction has not been taken yet (R352). -/
def earlierOnQp (s : State) (d : Die) (n : Nat) (x : Desc) : Bool :=
  ((s.stream d n).fetched.takeWhile fun y => y.slot != x.slot).any fun y =>
    y.op == x.op && y.qpn == x.qpn && y.phase != .ended && y.aux.isEmpty

/-- A SEND descriptor of a verb goes onto its queue pair; it waits behind earlier ones, for a port, for a pause to end, and
for room under the limits of R346 and OUT_READS. -/
def postSend (s : State) (d : Die) (n q verb : Nat) : State :=
  s.withRunning d n q 0x2A fun x =>
    let key := qpnKey x.qpn
    if x.verb != verb || !x.aux.isEmpty then s
    else if !s.qpnOk d n x then s.finish d n q stDescFault 28
    else if s.earlierOnQp d n x || !s.qpReady key (dieCode d, n, q, x.seq) verb x.bytes then s
    else if verb != 2 && s.badV x.pins (x.addr 16) x.bytes then
      s.finish d n q stUncorr (((List.range x.bytes).find? fun i => s.badV x.pins (x.addr 16 + i) 1).getD 0) 0
    else
      ((s.touchV x.pins (x.addr 16) x.bytes).updDesc d n q fun y => { y with aux := [1] }).post key
        (.desc (dieCode d) n q x.seq) verb (x.f 32 0 64) (x.f 40 0 32) x.immData
        (if verb == 2 then [] else s.rdV x.pins (x.addr 16) x.bytes) x.bytes

end State

/-- SEND: VERB 0 (R350). -/
def execSend (d : Die) (n q : Nat) (s : State) : Host.Outcome State Fault Refusal := actD d s fun s => s.postSend d n q 0

/-- RDMA_WRITE: VERB 1 (R350). -/
def execRdmaWrite (d : Die) (n q : Nat) (s : State) : Host.Outcome State Fault Refusal := actD d s fun s => s.postSend d n q 1

/-- RDMA_READ: VERB 2 (R350). -/
def execRdmaRead (d : Die) (n q : Nat) (s : State) : Host.Outcome State Fault Refusal := actD d s fun s => s.postSend d n q 2

/-- RECV: the buffer is posted on its queue pair (R350). -/
def execRecv (d : Die) (n q : Nat) (s : State) : Host.Outcome State Fault Refusal :=
  actD d s fun s => s.withRunning d n q 0x2B fun x =>
    let key := qpnKey x.qpn
    if !x.aux.isEmpty then s
    else if !s.qpnOk d n x then s.finish d n q stDescFault 28
    else if !s.rdmaRuns key || s.earlierOnQp d n x || !s.qpRoom key (dieCode d, n, q, x.seq) then s
    else
      (s.updDesc d n q fun y => { y with aux := [1] }).setQp key
        { s.qp key with recvs := (s.qp key).recvs ++ [(dieCode d, n, q, x.seq)] }

/-! ### What comes in (R350 to R355) -/

namespace State

/-- A packet came in on a port; an ECN mark is answered with a notification where the gap allows one (R355, R378). -/
def packetIn (s : State) (key port : Nat) (ce : Bool) : State :=
  let pg : Page := ⟨netDie (key >>> 14), .net, port % 4⟩
  let s1 := s.bump pg Reg.NET_RX_FRAMES
  if ce then
    let s2 := s1.bump pg Reg.NET_ECN_CE
    let gap := s.getF (rdmaPg key) Reg.NET_DCQCN_CFG_CNP_GAP_US * 1000
    let ok := match (s.qp key).cnpAt with | some t => decide (t + gap ≤ s.base) | none => true
    if ok then
      ((s2.setQp key { s2.qp key with cnpAt := some s.base }).sendNet key 1 (.cnp key)).bump pg Reg.NET_CNP_TX
    else s2
  else s1

/-- The queue pair takes packets of the network: RTS, KIND 0, its engine running. -/
def qpTakes (s : State) (key : Nat) : Bool := s.qpSt key == 1 && s.qpKind key == 0 && s.rdmaRuns key

/-- A packet in PSN order is handed to `f`; a later one is discarded and NAKed, an earlier one acknowledged again (R352). -/
def inOrder (s : State) (key psn : Nat) (f : State → State) : State :=
  let x := s.qp key
  if psn % 2 ^ 24 == x.rq then f s
  else if psnDist x.rq psn < 2 ^ 23 then s.sendNet key 1 (.nak key x.rq .sequence)
  else s.sendNet key 1 (.ack key ((x.rq + 2 ^ 24 - 1) % 2 ^ 24))

/-- A packet performed: the expected PSN moves on and the packet is acknowledged. -/
def accept (s : State) (key psn count : Nat) : State :=
  (s.setQp key { s.qp key with rq := (psn + count) % 2 ^ 24 }).sendNet key 1 (.ack key ((psn + count + 2 ^ 24 - 1) % 2 ^ 24))

/-- A refused inbound request (R354). -/
def nakAccess (s : State) (key psn : Nat) : State :=
  (s.bump (rdmaPg key) Reg.NET_ACCESS_NAKS).sendNet key 1 (.nak key psn .access)

/-- The descriptor of a posted RECV. -/
def recvDesc (s : State) (r : Nat × Nat × Nat × Nat) : Option Desc :=
  match s.desc? (dieOf r.1) r.2.1 r.2.2.1 with
  | some x => if x.seq == r.2.2.2 && x.phase == .running then some x else none
  | none => none

/-- Posted RECVs whose descriptors have ended leave the queue. -/
def liveRecvs (s : State) (key : Nat) : List (Nat × Nat × Nat × Nat) :=
  (s.qp key).recvs.filter fun r => (s.recvDesc r).isSome

/-- The note in the last 16 bytes of a RECV's buffer (R350). -/
def recvNote (len : Nat) (imm : Option W32) : Bytes :=
  leBytes (len + (imm.elim 0 fun v => v.toNat <<< 32 + 1 <<< 64)) 16

/-- The oldest RECV takes a message: the note is written and the descriptor ends (R350). -/
def takeRecv (s : State) (key len : Nat) (imm : Option W32) (r : Nat × Nat × Nat × Nat) (x : Desc) : State :=
  let s1 := (s.wrV x.pins (x.addr 16 + x.bytes - 16) (recvNote len imm)).setQp key
    { s.qp key with recvs := (s.liveRecvs key).drop 1, inLen := 0 }
  s1.endRecv r stOk

end State

namespace State

/-- A port whose packets wait may pause its link partner on the queue pair's priority (R344); notes/assumptions/75.md. -/
def pauseSender (s : State) (key : Nat) : State :=
  match (s.qp key).port with
  | some lp =>
    let prio := s.qpPrio key
    if (s.getF (logicalPg lp) Reg.NET_PORT_CFG_PFC_MASK).testBit prio then
      let s1 := s.drawFree.2
      let quanta := Config.pfcQuanta s.free % 2 ^ 16
      if quanta == 0 then s1 else s1.sendNow ⟨some lp, none, 1, 0, .pause (2 ^ prio) quanta⟩
    else s
  | none => s

/-- A packet of the queue pair waits for lots (R228, R234). -/
def qpStalled (s : State) (key : Nat) : Bool :=
  s.place.stalls.any fun w =>
    match w with
    | .rdmaWrite k _ | .rdmaRead k _ | .rdmaSend k _ => k == key
    | _ => false

/-- A packet that the queue pair takes is handed to `f` in PSN order; behind one that waits, it waits as `w` (R228, R352). An atomic or a SEND with
invalidate is an invalid request (R346). -/
def takePacket (s : State) (key : Nat) (pk : Packet) (w : Stalled) (f : State → State) : State :=
  if !s.qpTakes key then s
  else if s.qpStalled key then (s.stall w).pauseSender key
  else s.inOrder key pk.psn fun t => if pk.op == .verb then f t else t.sendNet key 1 (.nak key pk.psn .invalid)

/-- One packet of a write, under the checks of R354; the last packet of a write with immediate takes a RECV (R350, R352). A write that
would cover part of an uncorrectable codeword is a remote operational error. -/
def rdmaWriteIn (s : State) (key : Nat) (pk : Packet) : State :=
  let n := pk.payload.length
  s.takePacket key pk (.rdmaWrite key pk) fun s =>
    let rs := s.liveRecvs key
    if pk.last && pk.imm.isSome && rs.isEmpty then s.sendNet key 1 (.nak key pk.psn .rnr)
    else
      match s.mrCheck key pk.rkey pk.va n true with
      | (.refused, s1) => s1.nakAccess key pk.psn
      | (.absent lots, s1) => (s1.pageInAll lots).stall (.rdmaWrite key pk)
      | (.ok pins, s1) =>
        if s1.partialBadV pins pk.va n then s1.sendNet key 1 (.nak key pk.psn .operational)
        else
          let total := (if pk.first then 0 else (s.qp key).inLen) + n
          let s2 := ((s1.wrV pins pk.va pk.payload).accept key pk.psn 1)
          let s3 := s2.setQp key { s2.qp key with inLen := if pk.last then 0 else total }
          if pk.last && pk.imm.isSome then
            match rs with
            | r :: _ => match s3.recvDesc r with | some x => s3.takeRecv key total pk.imm r x | none => s3
            | [] => s3
          else s3

/-- A read request: the bytes named are sent back, under the checks of R354. -/
def rdmaReadIn (s : State) (key : Nat) (pk : Packet) : State :=
  s.takePacket key pk (.rdmaRead key pk) fun s =>
    match s.mrCheck key pk.rkey pk.va pk.len false with
    | (.refused, s1) => s1.nakAccess key pk.psn
    | (.absent lots, s1) => (s1.pageInAll lots).stall (.rdmaRead key pk)
    | (.ok pins, s1) =>
      if s1.badV pins pk.va pk.len then
        match (physOf pins pk.va pk.len).find? fun p => s1.badIn p.1 p.2 with
        | some p => (s1.reportUncorr (.qp (netDie (key >>> 14)) (key % 2 ^ 14)) p.1 0).sendNet key 1 (.nak key pk.psn .operational)
        | none => s1
      else
        let k := s1.packetsOf key pk.len
        ((s1.touchV pins pk.va pk.len).setQp key { s1.qp key with rq := (pk.psn + k) % 2 ^ 24 }).sendNet key k
          (.response key pk.psn (s1.rdV pins pk.va pk.len))

/-- One packet of a SEND lands in the oldest RECV's buffer; a message too long for it is NAKed and ends the RECV (R350). -/
def rdmaSendIn (s : State) (key : Nat) (pk : Packet) : State :=
  let n := pk.payload.length
  s.takePacket key pk (.rdmaSend key pk) fun s =>
    -- a context takes its messages itself; each is a command of its own (R385)
    if s.controlQp ((key >>> 14) <<< 23 + key % 2 ^ 14) then s.accept key pk.psn 1
    else match s.liveRecvs key with
    | [] => s.sendNet key 1 (.nak key pk.psn .rnr)
    | r :: t =>
      match s.recvDesc r with
      | none => s
      | some x =>
        let off := if pk.first then 0 else (s.qp key).inLen
        let room := x.bytes - 16
        if room < off + n then
          ((s.sendNet key 1 (.nak key pk.psn .invalid)).setQp key { s.qp key with recvs := t, inLen := 0 }).endRecv r stDescFault 24
        else if s.movingV x.pins (x.addr 16 + off) n || (pk.last && s.movingV x.pins (x.addr 16 + room) 16) then
          s.stall (.rdmaSend key pk)
        else if s.partialBadV x.pins (x.addr 16 + off) n then
          ((s.sendNet key 1 (.nak key pk.psn .operational)).setQp key { s.qp key with recvs := t, inLen := 0 }).endRecv r stUncorr off
        else
          let s1 := (s.wrV x.pins (x.addr 16 + off) pk.payload).accept key pk.psn 1
          if pk.last then s1.takeRecv key (off + n) pk.imm r x
          else s1.setQp key { s1.qp key with inLen := off + n }

end State

/-- An inbound frame of 64 to 9,216 bytes on a live port (R344): a PTP message goes to the port (R359), and a packet that the queue pair
takes to `f`. -/
def State.frameIn (s : State) (d : Die) (i : Nat) (pk : Packet) (f : State → Nat → State) : State :=
  let key := qpKey d i
  if !isNet d || pk.size < 64 || 9216 < pk.size then s
  else
    match pk.op with
    | .ptp m =>
      let lp := s.logicalPort d pk.port
      if (s.getF (logicalPg lp) Reg.NET_PORT_STAT_LINK).testBit (lp % 2) then
        (s.bump (logicalPg lp) Reg.NET_RX_FRAMES).ptpIn lp m
      else s
    | _ => if s.qpTakes key then f (s.packetIn key pk.port pk.ce) key else s

/-- INBOUND_RDMA_WRITE: one packet of a write arrives (R350, R352, R354). -/
def execInboundRdmaWrite (d : Die) (i : Nat) (pk : Packet) (s : State) : Host.Outcome State Fault Refusal :=
  actD d s fun s => s.frameIn d i pk fun t key => t.rdmaWriteIn key pk

/-- INBOUND_RDMA_READ: the request of a read arrives (R352, R354). -/
def execInboundRdmaRead (d : Die) (i : Nat) (pk : Packet) (s : State) : Host.Outcome State Fault Refusal :=
  actD d s fun s => s.frameIn d i pk fun t key => t.rdmaReadIn key pk

/-- INBOUND_SEND: one packet of a SEND arrives (R350, R352), or a PTP message at a port (R359). -/
def execInboundSend (d : Die) (i : Nat) (pk : Packet) (s : State) : Host.Outcome State Fault Refusal :=
  actD d s fun s => s.frameIn d i pk fun t key => t.rdmaSendIn key pk

namespace State

/-- The last PSN of a work element. -/
def lastPsn (w : Work) : Nat := (w.first + w.packets - 1) % 2 ^ 24

/-- Everything up to PSN `psn` is acknowledged: the sends and writes that it covers end, up to the first read whose bytes
have not come (R350, R352). -/
def ackUpTo (s : State) (key psn : Nat) : State :=
  let x := s.qp key
  if x.sent.isEmpty || psnDist x.una x.psn ≤ psnDist x.una psn then s
  else
    let got := x.sent.takeWhile fun w => w.verb != 2 && decide (psnDist x.una (lastPsn w) ≤ psnDist x.una psn)
    let rest := x.sent.drop got.length
    let una := match rest with
      | w :: _ => if w.verb == 2 || psnDist x.una psn < psnDist x.una w.first then w.first else (psn + 1) % 2 ^ 24
      | [] => x.psn
    let s1 := s.setQp key { x with sent := rest, una := una, tries := 0, rnrTries := 0, since := s.base }
    got.foldl (fun a w => a.endWork w stOk) s1

/-- A retry of a queue pair, or its end in ERROR when RETRY is exhausted (R349, R351). -/
def retry (s : State) (key : Nat) : State :=
  let x := s.qp key
  if s.qpRetry key ≤ x.tries then s.qpError key stAborted
  else (s.setQp key { x with tries := x.tries + 1 }).resend key

end State

/-- RDMA_ACK (R350). -/
def execRdmaAck (d : Die) (i psn : Nat) (s : State) : Host.Outcome State Fault Refusal :=
  actD d s fun s => if isNet d && s.qpSt (qpKey d i) == 1 then s.ackUpTo (qpKey d i) (psn % 2 ^ 24) else s

/-- RDMA_NAK: a sequence error or receiver-not-ready is retried; the others end the work element and the queue pair enters
ERROR (R349, R351). -/
def execRdmaNak (d : Die) (i psn : Nat) (kind : NakKind) (s : State) : Host.Outcome State Fault Refusal :=
  actD d s fun s =>
    let key := qpKey d i
    if !isNet d || s.qpSt key != 1 || (s.qp key).sent.isEmpty then s
    else
      let s1 := if psn % 2 ^ 24 == (s.qp key).una then s else s.ackUpTo key ((psn + 2 ^ 24 - 1) % 2 ^ 24)
      match kind with
      | .sequence => s1.retry key
      | .rnr =>
        let x := s1.qp key
        if s1.qpRnr key == 7 then s1.resend key
        else if s1.qpRnr key ≤ x.rnrTries then s1.qpError key stBusy
        else (s1.setQp key { x with rnrTries := x.rnrTries + 1 }).resend key
      | .access => s1.qpError key stXlateFault
      | .invalid => s1.qpError key stXlateFault
      | .operational => s1.qpError key stUncorr

/-- RDMA_READ_RESPONSE: bytes of the oldest outstanding read, in PSN order; the read ends when the last byte is written
(R350, R352, R372). -/
def execRdmaReadResponse (d : Die) (i : Nat) (pk : Packet) (s : State) : Host.Outcome State Fault Refusal :=
  actD d s fun s =>
    let key := qpKey d i
    let x := s.qp key
    if !isNet d || s.qpSt key != 1 || pk.size < 64 || 9216 < pk.size then s
    else
      let s0 := s.packetIn key pk.port pk.ce
      -- a response also acknowledges what was sent before the read
      let s1 := if pk.psn % 2 ^ 24 == x.una then s0 else s0.ackUpTo key ((pk.psn + 2 ^ 24 - 1) % 2 ^ 24)
      let y := s1.qp key
      match y.sent with
      | w :: t =>
        if w.verb != 2 || pk.psn % 2 ^ 24 != y.una then s1
        else
          match s1.srcDesc w.src with
          | none => s1.setQp key { y with sent := t, una := (w.first + w.packets) % 2 ^ 24, since := s.base }
          | some (sd, n, e) =>
            let va := match w.src with
              | .shard _ _ _ _ k => e.addr 16 + e.aux.getD k 0 + w.got
              | _ => e.addr 16 + w.got
            let bs := pk.payload.take (w.len - w.got)
            if s1.partialBadV e.pins va bs.length then
              (s1.setQp key { y with sent := t, una := (w.first + w.packets) % 2 ^ 24 }).finish sd n e.slot stUncorr w.got 0
            else
              let got := w.got + bs.length
              let s2 := s1.wrV e.pins va bs
              if w.len ≤ got then
                ((s2.setQp key { y with
                    sent := t, una := (w.first + w.packets) % 2 ^ 24, tries := 0, rnrTries := 0, since := s.base }).endWork w stOk)
              else s2.setQp key { y with sent := { w with got := got } :: t, una := (pk.psn + 1) % 2 ^ 24, since := s.base }
      | [] => s1

/-- ACK_TIMEOUT: 4.096 µs × 2^TIMEOUT have passed without an acknowledgement (R346, R351). -/
def execAckTimeout (d : Die) (i : Nat) (s : State) : Host.Outcome State Fault Refusal :=
  actD d s fun s =>
    let key := qpKey d i
    if isNet d && s.qpSt key == 1 && !(s.qp key).sent.isEmpty
        && decide ((s.qp key).since + 4096 * 2 ^ s.qpF key 3 0 5 ≤ s.base) then s.retry key else s

/-! ### Congestion (R355; PRESUMED, the equations of DCQCN, notes/assumptions/43.md) -/

/-- CNP_RECEIVE: the rate falls by half the congestion fraction, which then moves toward 1 by the gain. -/
def execCnpReceive (d : Die) (i : Nat) (s : State) : Host.Outcome State Fault Refusal :=
  actD d s fun s =>
    let key := qpKey d i
    if !isNet d || s.qpSt key != 1 || s.qpKind key == 3 then s
    else
      let x := s.qp key
      let g := s.getF (rdmaPg key) Reg.NET_DCQCN_CFG_G_LOG2
      let a := x.alpha
      let y := { x with
        rate := (x.rate.1 * (2 ^ (a.2 + 1) - a.1), x.rate.2 + a.2 + 1)
        alpha := (a.1 * (2 ^ g - 1) + 2 ^ a.2, a.2 + g) }
      let s1 := s.setQp key y
      match x.port with
      | some lp => (s1.bump (logicalPg lp) Reg.NET_CNP_RX).bump (logicalPg lp) Reg.NET_RX_FRAMES
      | none => s1

/-- DCQCN_RATE_INCREASE: the rate rises by AI_10MBPS × 10 Mb/s, up to the port's, and the fraction decays by the gain. -/
def execDcqcnRateIncrease (d : Die) (i : Nat) (s : State) : Host.Outcome State Fault Refusal :=
  actD d s fun s =>
    let key := qpKey d i
    if !isNet d || s.qpSt key != 1 || s.qpKind key == 3 then s
    else
      let x := s.qp key
      let g := s.getF (rdmaPg key) Reg.NET_DCQCN_CFG_G_LOG2
      let top := s.lineRate (x.port.getD 0) * 2 ^ x.rate.2
      s.setQp key { x with
        rate := (min top (x.rate.1 + s.getF (rdmaPg key) Reg.NET_DCQCN_CFG_AI_10MBPS * 10 * 2 ^ x.rate.2), x.rate.2)
        alpha := (x.alpha.1 * (2 ^ g - 1), x.alpha.2 + g) }

/-! ### Time (R360, R361, R380, R531) -/

/-- NET_PTP_ADJ: the frequency adjustment, limited to ±1,000,000 ppb; 32 bits hold no more than ±32,768 ppb (R360). -/
def execNetPtpAdj (v : W32) (s : State) : Host.Outcome State Fault Refusal :=
  act s fun s => s.setF timePg Reg.NET_PTP_ADJ v.toNat

/-- NET_PTP_STEP: the step is buffered until the next whole second (R380, R531). -/
def execNetPtpStep (v : W32) (s : State) : Host.Outcome State Fault Refusal :=
  act s fun s => s.setF timePg Reg.NET_PTP_STEP v.toNat

/-- APPLY_AT_SECOND: at a whole second of module time the buffered step is applied once, and the field reads 0 again
(R360, R528, R531). -/
def execApplyAtSecond (s : State) : Host.Outcome State Fault Refusal :=
  act s fun s =>
    let step := toSigned (s.getF timePg Reg.NET_PTP_STEP) 32
    if !s.wholeSecond then s
    else (State.setF { s with modT := ((s.modT : Int) + step * (10 ^ 9 * 2 ^ 16)).toNat } timePg Reg.NET_PTP_STEP 0)

/-- PPS_OUT_EDGE: the 1PPS output rises at a whole second of the module time, where it is enabled (R361). -/
def execPpsOutEdge (s : State) : Host.Outcome State Fault Refusal :=
  act s fun s => if s.wholeSecond && s.getF timePg Reg.NET_PPS_CFG_OUT_EN == 1 then { s with ppsAt := some s.base } else s

/-- PPS_IN_EDGE: a rising edge of the 1PPS input is timestamped (R361). -/
def execPpsInEdge (s : State) : Host.Outcome State Fault Refusal :=
  act s fun s =>
    if s.getF timePg Reg.NET_PPS_CFG_IN_EN == 1 then
      (s.setF timePg Reg.NET_PPS_IN_SEC (s.timeNs / 10 ^ 9 % 2 ^ 32)).setF timePg Reg.NET_PPS_IN_NS (s.timeNs % 10 ^ 9)
    else s

end Sys2Proof.Machine
end

