-- ==== Sys2Proof/Machine/Files.lean ====
section
/-! DEFINITION. NVMe over Fabrics and the warehouse file queues (R356 to R358): rings, submission entries, completion entries. The
fields of the entries and the status codes are those of the NVM Express Base Specification 2.0, which R356 names (PRESUMED,
notes/assumptions/45.md). -/

namespace Sys2Proof.Machine

/-- Status codes of the NVM Express Base Specification that R357 and R358 name. -/
def nvOk : Nat := 0x00
def nvBadOpcode : Nat := 0x01
def nvBadField : Nat := 0x02
def nvTransfer : Nat := 0x04
def nvBadSpace : Nat := 0x0B
def nvSglLength : Nat := 0x0F
def nvSglType : Nat := 0x11
def nvRange : Nat := 0x80

/-- Fields of a submission entry: opcode, command identifier, namespace, data pointer, and the command's own words. -/
def sqeF (v byte w : Nat) : Nat := bitsOf v (8 * byte) w
def sqeOp (v : Nat) : Nat := sqeF v 0 8
def sqeCid (v : Nat) : Nat := sqeF v 2 16
def sqeNs (v : Nat) : Nat := sqeF v 4 32
def sqeVa (v : Nat) : Nat := sqeF v 24 64
def sqeLen (v : Nat) : Nat := sqeF v 32 32
/-- SGL type and subtype: 0 is a data block. -/
def sqeType (v : Nat) : Nat := sqeF v 39 8
def sqeLba (v : Nat) : Nat := sqeF v 40 64
def sqeBlocks (v : Nat) : Nat := sqeF v 48 16 + 1
/-- Direction of the data: bits [1:0] of the opcode, or of the fabrics command type; 1 to the controller, 2 from it. -/
def sqeDir (v : Nat) : Nat := if sqeOp v == 0x7F then sqeF v 4 2 else sqeOp v % 4

namespace State

/-- The submissions of an NVMe queue wait for lots (R228). -/
def stallPump (s : State) (key : Nat) : State :=
  if s.qpKind key == 3 || s.place.stalls.contains (.nvmePump key) then s else s.stall (.nvmePump key)

/-- The submission entry at the head of a queue, once its page is reached. -/
def headSqe (s : State) (key : Nat) : Option Nat × State :=
  let x := s.qp key
  if x.sqHead == x.sqTail then (none, s)
  else
    let va := s.qpF key 48 0 57 + 64 * x.sqHead
    match s.xlateRange (netDie (key >>> 14)) (s.qpCpt key) (s.qpRoot key) va 64 false with
    | (.ok pins, s1) => if s1.badV pins va 64 then (none, s1) else (some (s1.rdVNat pins va 64), s1.touchV pins va 64)
    | (.absent lots, s1) => (none, (s1.pageInAll lots).stallPump key)
    | (.refused, s1) => (none, s1)

/-- The head of a submission ring moves on. -/
def popSqe (s : State) (key : Nat) : State :=
  s.setQp key { s.qp key with sqHead := ((s.qp key).sqHead + 1) % s.qpDepth key }

/-- A completion entry with its phase tag, and the queue's MSI (R357, R459); for a lot of the ring that is away or moves it waits, and
later entries behind it. -/
def postCqe (s : State) (key cid result status : Nat) : State :=
  let x := s.qp key
  let behind := s.place.stalls.any fun w => match w with | .cqe k _ _ _ => k == key | _ => false
  if behind then s.stall (.cqe key cid result status) else
  let va := s.qpF key 56 0 57 + 16 * x.cqTail
  match s.xlateRange (netDie (key >>> 14)) (s.qpCpt key) (s.qpRoot key) va 16 true with
  | (.ok pins, s1) =>
    let v := result % 2 ^ 32 + x.sqHead <<< 64 + (Config.sqId key).toNat <<< 80 + cid <<< 96 + x.phase.toNat <<< 112
      + (status % 2 ^ 15) <<< 113
    let t := (x.cqTail + 1) % s.qpDepth key
    ((s1.wrV pins va (leBytes v 16)).setQp key
      { s1.qp key with cqTail := t, phase := if t == 0 then !x.phase else x.phase }).sendMsi (0xA0000 + key)
  | (.absent lots, s1) => (s1.pageInAll lots).stall (.cqe key cid result status)
  | (.refused, s1) => s1

/-! ### NVMe over Fabrics (R357) -/

/-- A submission entry posted as a capsule, a SEND under the queue pair's retries (R346, R349, R357): the 64-byte entry, and the data that goes to
the controller, of which up to 8,192 bytes of a Write travel in the capsule (R356) and more is fetched by the controller. -/
def postCapsule (s : State) (key v : Nat) (data : Bytes) : State :=
  s.postN key (.capsule (sqeCid v)) 0 0 0 none (leBytes v 64 ++ data) (64 + data.length)
    (s.packetsOf key (64 + if data.length ≤ 8192 then data.length else 0))

/-- One submission entry goes out as a capsule with its data under a key of the engine's own; a transfer page that fails
translation completes the command at once and moves no data. -/
def sendCapsule (s : State) (key v : Nat) : State :=
  let dir := sqeDir v
  let len := if dir == 1 || dir == 2 then sqeLen v else 0
  let s0 := s.popSqe key
  if len == 0 then
    (s0.setQp key { s0.qp key with cmds := (s0.qp key).cmds ++ [⟨sqeCid v, false, 0, 0⟩] }).postCapsule key v []
  else if 2 * 2 ^ 20 < len then s0.postCqe key (sqeCid v) 0 nvTransfer
  else
    match s0.xlateRange (netDie (key >>> 14)) (s.qpCpt key) (s.qpRoot key) (sqeVa v) len (dir == 2) with
    | (.refused, s1) => s1.postCqe key (sqeCid v) 0 nvTransfer
    | (.absent lots, s1) => ((s1.pageInAll lots).setQp key (s.qp key)).stallPump key
    | (.ok pins, s1) =>
      if dir == 1 && s1.badV pins (sqeVa v) len then s1.postCqe key (sqeCid v) 0 nvTransfer
      else
        (s1.setQp key { s1.qp key with cmds := (s1.qp key).cmds ++ [⟨sqeCid v, dir == 2, sqeVa v, len⟩] }).postCapsule key v
          (if dir == 1 then s1.rdV pins (sqeVa v) len else [])

/-- The submission entries of an NVMe queue sent in order, until one cannot be reached. -/
def pumpNvme (key : Nat) : Nat → State → State
  | 0, s => s
  | k + 1, s =>
    match s.headSqe key with
    | (some v, s1) =>
      let s2 := if s1.psnRoom key (64 + 8192) then s1.sendCapsule key v else s1
      if (s2.qp key).sqHead == (s.qp key).sqHead then s2 else pumpNvme key k s2
    | (none, s1) => s1

end State

/-- NET_QP_DB: the new submission tail of an NVMe or file queue (R357, R379). -/
def execNetQpDb (d : Die) (v : W32) (s : State) : Host.Outcome State Fault Refusal :=
  actD d s fun s =>
    let key := qpKey d (bitsOf v.toNat 0 14)
    let tail := bitsOf v.toNat 14 10
    let s1 := s.setWord (rdmaPg (qpKey d 0)) 0x4C (v.toNat % 2 ^ 24)
    if !isNet d || s.qpKind key == 0 || s.qpSt key != 1 || s.qpDepth key ≤ tail then s1
    else
      let s2 := s1.setQp key { s1.qp key with sqTail := tail }
      if s.qpKind key == 3 || !s.rdmaRuns key then s2 else s2.pumpNvme key 1024

/-- The controller completes a command: data that comes in lands through the queue's table, and the completion entry is written
(R357). -/
def State.nvmeDone (s : State) (key cid status : Nat) (result : W32) (data : Bytes) : State :=
  let x := s.qp key
  match x.cmds.find? fun c => c.cid == cid with
  | none => s
  | some c =>
    if s.qpSt key != 1 || !s.rdmaRuns key then s
    else
      let s1 := s.setQp key { x with cmds := x.cmds.filter fun k => k.cid != cid }
      let done (t : State) (st : Nat) : State := (t.postCqe key cid result.toNat st).pumpNvme key 1024
      if c.inward && status == nvOk then
        match s1.xlateRange (netDie (key >>> 14)) (s.qpCpt key) (s.qpRoot key) c.va c.len true with
        | (.ok pins, s2) =>
          if s2.partialBadV pins c.va c.len then done (s2.wrV pins c.va (data.take c.len)) nvTransfer
          else done (s2.wrV pins c.va (data.take c.len)) status
        | (.absent lots, s2) => ((s2.pageInAll lots).setQp key x).stall (.nvmeDone key cid status result data)
        | (.refused, s2) => done s2 nvTransfer
      else done s1 status

/-- NVME_COMPLETION: the controller completes a command (R357); its data waits for lots that are away or move (R228, R234). -/
def execNvmeCompletion (d : Die) (i cid status : Nat) (result : W32) (data : Bytes) (s : State) :
    Host.Outcome State Fault Refusal :=
  act s fun s => s.nvmeDone (qpKey d i) cid status result data

/-! ### Warehouse file queues (R358) -/

namespace State

/-- The file extents of a compartment, ascending. -/
def extentsOf (s : State) (c : Nat) : List Nat :=
  ((s.owners.filter fun e => e.1 >>> 21 == 7 && e.2 == c).map fun e => e.1 % 2 ^ 21)

/-- The file-area offset of an LBA of a compartment. -/
def lbaOffset (s : State) (c lba : Nat) : Option Nat :=
  ((s.extentsOf c)[lba / 262144]?).map fun e => e * 2 ^ 30 + lba % 262144 * 4096

/-- The offsets of `n` blocks from an LBA on; none when one lies beyond the last owned LBA. -/
def lbaBlocks (s : State) (c lba n : Nat) : Option (List Nat) :=
  let l := (List.range n).filterMap fun k => s.lbaOffset c (lba + k)
  if l.length == n then some l else none

/-- The network die whose flash holds a file-area offset (R358). -/
def fileDie (off : Nat) : Nat := if off >>> 30 < 20480 then 0 else 1

/-- What a command of a file queue is checked for before it moves data; a status, or its blocks (R358). -/
def fileCheck (s : State) (key v : Nat) (data : Bool) : Nat × List Nat :=
  let n := sqeBlocks v
  if sqeNs v != 1 then (nvBadSpace, [])
  else if data && sqeType v != 0 then (nvSglType, [])
  else if 512 < n then (nvBadField, [])
  else if data && sqeLen v < n * 4096 then (nvSglLength, [])
  else
    match s.lbaBlocks (s.qpCpt key) (sqeLba v) n with
    | some l => (nvOk, l)
    | none => (nvRange, [])

/-- The command at the head of a file queue, when it is one of opcode `op`; a command of no opcode of R358 completes with
Invalid Command Opcode, whichever command of the queue is taken. -/
def withFile (s : State) (d : Die) (i op : Nat) (f : Nat → State → State) : State :=
  let key := qpKey d i
  if !isNet d || s.qpKind key != 3 || s.qpSt key != 1 || !s.rdmaRuns key then s
  else
    match s.headSqe key with
    | (none, s1) => s1
    | (some v, s1) =>
      if !([0, 1, 2, 8, 9].contains (sqeOp v)) then (s1.popSqe key).postCqe key (sqeCid v) 0 nvBadOpcode
      else if sqeOp v == op then f v s1 else s

/-- Data of a command reached through the queue's table; a page that fails completes it with Data Transfer Error. -/
def withData (s : State) (key v len : Nat) (wr : Bool) (f : SMap Nat → State → State) : State :=
  match s.xlateRange (netDie (key >>> 14)) (s.qpCpt key) (s.qpRoot key) (sqeVa v) len wr with
  | (.ok pins, s1) =>
    if (if wr then s1.partialBadV pins (sqeVa v) len else s1.badV pins (sqeVa v) len) then
      (s1.popSqe key).postCqe key (sqeCid v) 0 nvTransfer
    else f pins s1
  | (.absent lots, s1) => s1.pageInAll lots
  | (.refused, s1) => (s1.popSqe key).postCqe key (sqeCid v) 0 nvTransfer

/-- Blocks of the file area set by `g`. -/
def setBlocks (s : State) (parts : List (Nat × Bytes)) : State :=
  { s with file := parts.foldl (fun m p => Memory.writeBytes m p.1 p.2) s.file }

end State

/-- FILE_QUEUE_READ: blocks of the compartment's extents land in its memory (R358). -/
def execFileQueueRead (d : Die) (i : Nat) (s : State) : Host.Outcome State Fault Refusal :=
  actD d s fun s => s.withFile d i 2 fun v s =>
    let key := qpKey d i
    let c := s.fileCheck key v true
    if c.1 != nvOk then (s.popSqe key).postCqe key (sqeCid v) 0 c.1
    else s.withData key v (c.2.length * 4096) true fun pins s =>
      ((s.wrV pins (sqeVa v) (c.2.flatMap fun o => Memory.readBytes s.file o 4096)).popSqe key).postCqe key (sqeCid v) 0 nvOk

/-- FILE_QUEUE_WRITE: the data is taken and its programming begins; FILE_QUEUE_WRITE_DONE completes it (R358). -/
def execFileQueueWrite (d : Die) (i : Nat) (s : State) : Host.Outcome State Fault Refusal :=
  actD d s fun s => s.withFile d i 1 fun v s =>
    let key := qpKey d i
    let c := s.fileCheck key v true
    if c.1 != nvOk then (s.popSqe key).postCqe key (sqeCid v) 0 c.1
    else s.withData key v (c.2.length * 4096) false fun pins s =>
      let bs := s.rdV pins (sqeVa v) (c.2.length * 4096)
      let parts := c.2.zipIdx.map fun p => (p.1, (bs.drop (4096 * p.2)).take 4096)
      let s1 := (s.touchV pins (sqeVa v) (c.2.length * 4096)).popSqe key
      s1.setQp key { s1.qp key with writes := (s1.qp key).writes ++ [⟨sqeCid v, parts⟩] }

/-- FILE_QUEUE_WRITE_DONE: the oldest write of a file queue is programmed and completes (R358, R661). -/
def execFileQueueWriteDone (d : Die) (i : Nat) (s : State) : Host.Outcome State Fault Refusal :=
  actD d s fun s =>
    let key := qpKey d i
    match (s.qp key).writes with
    | [] => s
    | w :: t =>
      let s1 := s.setQp key { s.qp key with writes := t }
      let s2 := w.parts.foldl (fun a p => a.whcProgram (State.fileDie p.1) p.2.length p.2.length) s1
      (s2.setBlocks w.parts).postCqe key w.cid 0 nvOk

/-- FILE_QUEUE_FLUSH: a Flush completes at once (R358). -/
def execFileQueueFlush (d : Die) (i : Nat) (s : State) : Host.Outcome State Fault Refusal :=
  actD d s fun s => s.withFile d i 0 fun v s =>
    let key := qpKey d i
    (s.popSqe key).postCqe key (sqeCid v) 0 (if sqeNs v == 1 || sqeNs v == 0xFFFFFFFF then nvOk else nvBadSpace)

/-- FILE_QUEUE_WRITE_ZEROES: the blocks read as zeros (R358). -/
def execFileQueueWriteZeroes (d : Die) (i : Nat) (s : State) : Host.Outcome State Fault Refusal :=
  actD d s fun s => s.withFile d i 8 fun v s =>
    let key := qpKey d i
    let c := s.fileCheck key v false
    let s1 := { s with file := c.2.foldl (fun m o => Memory.clear m o 4096) s.file }
    (s1.popSqe key).postCqe key (sqeCid v) 0 c.1

/-- FILE_QUEUE_DEALLOCATE: the blocks of the command's ranges are deallocated; what they read as is left open (R358; log
entry 46). -/
def execFileQueueDeallocate (d : Die) (i : Nat) (s : State) : Host.Outcome State Fault Refusal :=
  actD d s fun s => s.withFile d i 9 fun v s =>
    let key := qpKey d i
    let n := sqeF v 40 8 + 1
    let deallocate := sqeF v 44 32 >>> 2 % 2 == 1
    if sqeNs v != 1 then (s.popSqe key).postCqe key (sqeCid v) 0 nvBadSpace
    else if sqeType v != 0 then (s.popSqe key).postCqe key (sqeCid v) 0 nvSglType
    else if sqeLen v < 16 * n then (s.popSqe key).postCqe key (sqeCid v) 0 nvSglLength
    else s.withData key v (16 * n) false fun pins s =>
      let raw := s.rdVNat pins (sqeVa v) (16 * n)
      let ranges := (List.range n).map fun k => (bitsOf raw (128 * k + 64) 64, bitsOf raw (128 * k + 32) 32)
      let blocks := ranges.map fun r => s.lbaBlocks (s.qpCpt key) r.1 r.2
      if blocks.any Option.isNone then (s.popSqe key).postCqe key (sqeCid v) 0 nvRange
      else
        let offs := if deallocate then blocks.flatMap fun b => b.getD [] else []
        let parts := offs.zipIdx.map fun p =>
          (p.1, (List.range 4096).map fun k => Config.freeByte (s.free + 4096 * p.2 + k))
        let s1 := { s.setBlocks parts with free := s.free + 4096 * offs.length }
        (s1.popSqe key).postCqe key (sqeCid v) 0 nvOk

end Sys2Proof.Machine
end

