-- ==== Sys2Proof/Machine/Cipher.lean ====
section
/-! DEFINITION. AES-256 (FIPS 197) and its XTS mode (IEEE 1619), which R502 names (PRESUMED, notes/assumptions/77.md): the encryption of a 64-byte
sector under a key of two AES-256 keys and a tweak. Bytes are numbers below 256; a block is 16 of them. -/

namespace Sys2Proof.Machine

/-- The product of two bytes modulo x^8 + x^4 + x^3 + x + 1. -/
def gfMul (a b : Nat) : Nat :=
  ((List.range 8).foldl (fun (p : Nat × Nat) k =>
    let dbl := if p.2 < 128 then p.2 * 2 else (p.2 * 2) ^^^ 0x11B
    (if b.testBit k then p.1 ^^^ p.2 else p.1, dbl)) (0, a)).1

/-- The inverse of a byte, 0 for 0: its 254th power. -/
def gfInv (a : Nat) : Nat :=
  let sq (x : Nat) : Nat := gfMul x x
  let a2 := sq a
  let a4 := sq a2
  let a8 := sq a4
  let a16 := sq a8
  let a32 := sq a16
  let a64 := sq a32
  [a4, a8, a16, a32, a64, sq a64].foldl gfMul a2

/-- A byte rotated left by `n` bits. -/
def rotByte (a n : Nat) : Nat := (a <<< n ||| a >>> (8 - n)) % 256

/-- The substitution of a byte, and its inverse. -/
def aesSub (a : Nat) : Nat :=
  let b := gfInv a
  b ^^^ rotByte b 1 ^^^ rotByte b 2 ^^^ rotByte b 3 ^^^ rotByte b 4 ^^^ 0x63
def aesUnsub (a : Nat) : Nat := gfInv (rotByte a 1 ^^^ rotByte a 3 ^^^ rotByte a 6 ^^^ 0x05)

/-- Two blocks, byte by byte. -/
def xorBlock (a b : List Nat) : List Nat := List.zipWith (· ^^^ ·) a b

/-- Rows shifted left by their number, and back; a block holds its columns one after another. -/
def aesShift (b : List Nat) : List Nat := (List.range 16).map fun i => b.getD ((i + 4 * (i % 4)) % 16) 0
def aesUnshift (b : List Nat) : List Nat := (List.range 16).map fun i => b.getD ((i + 12 * (i % 4)) % 16) 0

/-- Columns mixed by a circulant matrix whose first row is given. -/
def aesMix (row : List Nat) (b : List Nat) : List Nat :=
  (List.range 16).map fun i => (List.range 4).foldl (fun a k => a ^^^ gfMul (row.getD ((k + 4 - i % 4) % 4) 0) (b.getD (i / 4 * 4 + k) 0)) 0

/-- One word more of the key schedule: `i` is its number. -/
def aesNextWord (ws : List (List Nat)) (i rcon : Nat) : List Nat :=
  let t := ws.getD (i - 1) []
  let u := if i % 8 == 0 then xorBlock ((t.drop 1 ++ t.take 1).map aesSub) [rcon, 0, 0, 0]
    else if i % 8 == 4 then t.map aesSub else t
  xorBlock (ws.getD (i - 8) []) u

/-- The fifteen round keys of a 32-byte key. -/
def aesKeys (key : List Nat) : List (List Nat) :=
  let first := (List.range 8).map fun k => (key.drop (4 * k)).take 4
  let words := ((List.range 52).foldl (fun (p : List (List Nat) × Nat) k =>
    let i := k + 8
    (p.1 ++ [aesNextWord p.1 i p.2], if i % 8 == 0 then gfMul p.2 2 else p.2)) (first, 1)).1
  (List.range 15).map fun r => ((words.drop (4 * r)).take 4).flatten

/-- A block encrypted and decrypted under round keys, the first to the last. -/
def aesEncrypt (ks : List (List Nat)) (b : List Nat) : List Nat :=
  let k (r : Nat) : List Nat := ks.getD r []
  let mid := (List.range 13).foldl (fun x r => xorBlock (aesMix [2, 3, 1, 1] (aesShift (x.map aesSub))) (k (r + 1))) (xorBlock b (k 0))
  xorBlock (aesShift (mid.map aesSub)) (k 14)
def aesDecrypt (ks : List (List Nat)) (b : List Nat) : List Nat :=
  let k (r : Nat) : List Nat := ks.getD r []
  let start := (aesUnshift (xorBlock b (k 14))).map aesUnsub
  let mid := (List.range 13).foldl (fun x r => (aesUnshift (aesMix [14, 11, 13, 9] (xorBlock x (k (13 - r))))).map aesUnsub) start
  xorBlock mid (k 0)

/-- The tweak of the next block of a unit: times x modulo x^128 + x^7 + x^2 + x + 1, lowest byte first. -/
def xtsNext (t : Nat) : Nat := if t < 2 ^ 127 then t * 2 else (t * 2 - 2 ^ 128) ^^^ 0x87

/-- The bytes of a number, lowest first, as numbers; and back. -/
def octets (v n : Nat) : List Nat := (List.range n).map fun k => v >>> (8 * k) % 256
def ofOctets (l : List Nat) : Nat := l.foldr (fun b a => b + 256 * a) 0

/-- A sector of blocks under XTS: `f` works on one block with the first key's round keys, the second key encrypts the tweak. -/
def xtsSector (f : List (List Nat) → List Nat → List Nat) (key : BitVec 512) (tweak : Nat) (sector : List Nat) : List Nat :=
  let k1 := aesKeys (octets (key.toNat % 2 ^ 256) 32)
  let k2 := aesKeys (octets (key.toNat >>> 256) 32)
  let t0 := ofOctets (aesEncrypt k2 (octets tweak 16))
  ((List.range (sector.length / 16)).foldl (fun (p : List Nat × Nat) j =>
    let t := octets p.2 16
    (p.1 ++ xorBlock (f k1 (xorBlock ((sector.drop (16 * j)).take 16) t)) t, xtsNext p.2)) ([], t0)).1

/-- A sector encrypted, and decrypted, under an AES-256-XTS key and a tweak (R502, R503). -/
def xtsEncrypt (key : BitVec 512) (tweak : Nat) (sector : Bytes) : Bytes :=
  (xtsSector aesEncrypt key tweak (sector.map BitVec.toNat)).map (BitVec.ofNat 8)
def xtsDecrypt (key : BitVec 512) (tweak : Nat) (sector : Bytes) : Bytes :=
  (xtsSector aesDecrypt key tweak (sector.map BitVec.toNat)).map (BitVec.ofNat 8)

end Sys2Proof.Machine
end

