-- ==== Sys2Proof/Machine/Keys.lean ====
section
/-! DEFINITION. The compartments' keys and what memory stores under them (R358, R502, R503). State.mem and State.file hold what a controller
decrypts; the sectors as they are stored follow from it and the keys (notes/assumptions/77.md). -/

namespace Sys2Proof.Machine.State

/-- A CREATE draws three keys (R502). -/
def drawKeys (s : State) (c : Nat) : State :=
  { s with
    free := s.free + 3
    keys := SMap.put s.keys c ⟨Config.randomKey s.free, Config.randomKey (s.free + 1), Config.randomKey (s.free + 2)⟩ }

/-- The end of a RELEASE destroys them (R498). -/
def dropKeys (s : State) (c : Nat) : State := { s with keys := SMap.del s.keys c }

/-- The key and the tweak of the sector at an address under owner `c`: by its unified address for a lot, whose warehouse home is sealed with
the depot's key, else by its physical address (R503). -/
def keyOf (s : State) (c a : Nat) : Option (BitVec 512 × Nat) :=
  (SMap.find s.keys c).bind fun k =>
    match s.locate a with
    | .near => some (k.near, a)
    | .depot => some (k.depot, a)
    | .unified l => some (if s.lotTier l == 0 then k.near else k.depot, a)
    | _ => none

/-- The owner of the sector at an address (R503). -/
def sectorOwner (s : State) (a : Nat) : Option Nat :=
  match s.locate a with
  | .unified l => if s.lotTier l == 3 then none else some (s.lotOwner l)
  | _ => s.memOwner a

/-- The 64 bytes that memory stores for the sector at `a`: of a frame that holds a lot, the lot's sector. A sector without an owner is stored as it
is. -/
def storedSector (s : State) (a : Nat) : Bytes :=
  let p := s.homeByte (a / 64 * 64)
  let bs := s.rdBytes p 64
  match (s.sectorOwner p).bind fun c => s.keyOf c p with
  | some (k, t) => xtsEncrypt k t bs
  | none => bs

/-- The 64 bytes that the warehouse stores at a file-area offset, under the extent owner's key and the offset as tweak (R358, R503). -/
def storedFile (s : State) (off : Nat) : Bytes :=
  let o := off / 64 * 64
  let bs := Memory.readBytes s.file o 64
  match SMap.find s.keys (s.owner 7 (o >>> 30)) with
  | some k => xtsEncrypt k.warehouse o bs
  | none => bs

/-- What a sector stored under one key reads as under another. -/
def rekeyed (k1 k2 : Option (BitVec 512 × Nat)) (bs : Bytes) : Bytes :=
  let stored := match k1 with | some (k, t) => xtsEncrypt k t bs | none => bs
  match k2 with | some (k, t) => xtsDecrypt k t stored | none => stored

/-- The `n` sectors from `a` on pass unscrubbed from one owner to another, under whose key they now read (R498, R501, R503). -/
def rekeyMem (s : State) (c1 c2 a n : Nat) : State :=
  { s with mem := (List.range n).foldl (fun m k =>
      let p := a + 64 * k
      Memory.writeBytes m p (rekeyed (s.keyOf c1 p) (s.keyOf c2 p) (Memory.readBytes m p 64))) s.mem }

/-- The same for a file extent (R358, R498). -/
def rekeyFile (s : State) (c1 c2 a n : Nat) : State :=
  let key (c p : Nat) : Option (BitVec 512 × Nat) := (SMap.find s.keys c).map fun k => (k.warehouse, p)
  { s with file := (List.range n).foldl (fun m k =>
      let p := a + 64 * k
      Memory.writeBytes m p (rekeyed (key c1 p) (key c2 p) (Memory.readBytes m p 64))) s.file }

end Sys2Proof.Machine.State
end

