-- ==== Sys2Proof/Machine/Snapshot.lean ====
section
/-! DEFINITION. SNAPSHOT (R305 to R308): admission, the lots shipped one at a time to each unit, the delay of the updates that a
snapshot holds up. -/

namespace Sys2Proof.Machine

/-- The target record of a SNAPSHOT (R305), kept as the descriptor's layout record with bit 512 set once it has been read. -/
def tgtKind (x : Desc) : Nat := x.lay 0 1
def tgtDest (x : Desc) : Nat := x.lay 8 64
def tgtHandle (x : Desc) : Nat := x.lay 16 32
def tgtQpn (x : Desc) : Nat := x.lay 20 24

/-- The bits of a target record that R305 names, and the flag of the model. -/
def tgtMask : Nat := fieldMask 0 0 1 ||| fieldMask 8 0 120 ||| fieldMask 64 0 1

/-- Bytes of the region of a SNAPSHOT. -/
def snapBytes (x : Desc) : Nat := x.f 40 0 32

/-- Time base at which the delay of lot `l` began (R307). -/
def snapDelay? (x : Desc) (l : Nat) : Option Nat := if uLotSt x l < 4 then none else some (uLotSt x l / 4 - 1)

namespace State

/-- A buffer handle is opened to compartment `c`, it is live, and the range lies in its buffer (R305, R504). -/
def openedTo (s : State) (c h a n : Nat) : Bool :=
  let o := bitsOf h 18 6
  let pg : Page := ⟨.N0, .cpt, 0x40 + o⟩
  (List.range 16).any (fun e => s.getF pg Reg.CPT_OPEN_TO_VALID e == 1 && s.getF pg Reg.CPT_OPEN_TO_COMPARTMENT e == c
      && s.getF pg Reg.CPT_OPEN_HANDLE e == h)
    && match SMap.find s.place.bufs (o * 2 ^ 18 + bitsOf h 0 18) with
      | some b => b.gen == bitsOf h 24 8 && decide (b.base ≤ a) && decide (a + n ≤ b.base + b.bytes)
      | none => false

/-- The target of a SNAPSHOT can be written; else the status it ends with and its POSITION (R305, R347). -/
def targetFault (s : State) (d : Die) (n : Nat) (x : Desc) : Option (Nat × Nat) :=
  if tgtKind x == 0 then
    if s.openedTo (s.ctxCpt d n) (tgtHandle x) (tgtDest x) (snapBytes x) then none else some (stXlateFault, posNone)
  else
    let k := qpnKey (tgtQpn x)
    if bitsOf (tgtQpn x) 14 9 == 0 && s.qpSt k == 1 && s.qpKind k == 0 && s.qpCpt k == s.ctxCpt d n then none
    else some (stDescFault, 24)

/-- A SNAPSHOT classified: it ends with a fault of a trailer, is admitted, or waits; the ninth waiter of a lot ends with
BUSY (R295, R306, R308). -/
def snapClassify (s : State) (d : Die) (n q : Nat) (x : Desc) : State :=
  match s.trailerFault x with
  | some f => (s.countTorn x).finish d n q f.1 f.2.1 f.2.2
  | none =>
    let ls := List.range x.uLots
    let m := x.f 32 0 64
    if ls.any fun l => (s.trailer x l).any && decide (m < (s.trailer x l).m) then s.finish d n q stDescFault 32
    else if ls.all (fun l => (s.trailer x l).any && (s.trailer x l).m == m && (s.trailer x l).last)
        && !s.lotsHeld d n q 0x21 (reqLots x) && !s.comesAfter d n q (m, 8) (reqLots x) then
      s.updDesc d n q fun y => { y with aux := [2, uSince x, 0, 0] ++ ls.map fun _ => 0 }
    else if uPhase x == 1 then s
    else
      match ls.find? fun l => 8 ≤ s.waitersOf (lotPa x l) with
      | some l => (s.bump (s.lotPg x l) Reg.UPD_BUSY).finish d n q stBusy
      | none => s.updDesc d n q fun y => { y with aux := [1, s.base, 0, 0] }

/-- An admitted update holds lot `l` of a SNAPSHOT (R307). -/
def updateHolds (s : State) (x : Desc) (l : Nat) : Bool :=
  s.lotReqs.any fun r => r.2.2.op != 0x21 && uPhase r.2.2 == 2 && namesLot r.2.2 (lotPa x l)

/-- A lot of the unit of lot `l` is in flight, of any SNAPSHOT. -/
def unitShips (s : State) (x : Desc) (l : Nat) : Bool :=
  let u := s.updUnit (lotPa x l)
  s.lotReqs.any fun r => r.2.2.op == 0x21 && uPhase r.2.2 == 2 &&
    (List.range r.2.2.uLots).any fun k => uLotSt r.2.2 k % 4 == 1 && s.updUnit (lotPa r.2.2 k) == u

/-- Lot `l` is the next of its unit: PENDING lots that an admitted update holds come first, then ascending address (R307). -/
def shipTurn (s : State) (x : Desc) (l : Nat) : Bool :=
  let u := s.updUnit (lotPa x l)
  let hl := s.updateHolds x l
  uLotSt x l % 4 == 0 && !s.unitShips x l && !(List.range x.uLots).any fun k =>
    uLotSt x k % 4 == 0 && s.updUnit (lotPa x k) == u &&
      (if s.updateHolds x k == hl then decide (k < l) else !hl)

/-- The state of lot `l` becomes `v`, the start of its delay kept. -/
def setShip (s : State) (d : Die) (n q l v : Nat) : State :=
  s.updDesc d n q fun y => setLotSt y l (uLotSt y l / 4 * 4 + v)

/-- The parameter of lot `l` at its byte `b`; the trailer's bytes count as the lot's first (R186, R277). -/
def snapPos (x : Desc) (l b : Nat) : Nat := l * x.uPL + (if b < 65472 then b / 6 else 0)

end State

/-- SNAPSHOT: the target record is read once and checked, then the request is classified; a request that waits is classified
again (R305, R306). -/
def execSnapshot (d : Die) (n q : Nat) (s : State) : Host.Outcome State Fault Refusal :=
  actD d s fun s => s.withRunning d n q 0x21 fun x =>
    if !s.runs (s.lotPg x 0) || 2 ≤ uPhase x then s
    else if x.layout == 0 then
      match (List.range x.uLots).find? fun l => !s.lotWhole x l with
      | some l => s.finish d n q stXlateFault (lotVa x l / 4096)
      | none =>
        if s.badV x.pins (x.addr 24) 64 then s.finish d n q stUncorr
        else
          let y := { x with layout := s.rdVNat x.pins (x.addr 24) 64 + 2 ^ 512 }
          if y.layout &&& (2 ^ 513 - 1 - tgtMask) != 0 then s.finish d n q stDescFault 24
          else
            match s.targetFault d n y with
            | some f => s.finish d n q f.1 f.2
            | none =>
              let s1 := s.updDesc d n q fun w => { w with layout := y.layout }
              s1.whenResident d n q fun z => s1.snapClassify d n q z
    else s.whenResident d n q fun z => s.snapClassify d n q z

/-- SNAPSHOT_LOT_SHIP: the next lot of a unit is read and sent to the target (R305, R307). -/
def execSnapshotLotShip (d : Die) (n q l : Nat) (s : State) : Host.Outcome State Fault Refusal :=
  actD d s fun s => s.withRunning d n q 0x21 fun x =>
    if uPhase x != 2 || decide (x.uLots ≤ l) || !s.shipTurn x l || !s.runs (s.lotPg x l) then s
    else if !(s.absentLots (State.lotsV x.pins (lotVa x l) 65536)).isEmpty then s.pageInAll (State.lotsV x.pins (lotVa x l) 65536)
    else if s.badV x.pins (lotVa x l) 65536 then
      s.finish d n q stUncorr (State.snapPos x l (((List.range 65536).find? fun i => s.badV x.pins (lotVa x l + i) 1).getD 0)) 0
    else
      match s.targetFault d n x with
      | some f => s.finish d n q f.1 f.2
      | none =>
        let bytes := s.rdV x.pins (lotVa x l) 65536
        let dest := tgtDest x + 65536 * l
        let s1 := s.touchV x.pins (lotVa x l) 65536
        if tgtKind x == 0 then
          if !(s.blockedLots (State.lotsOf dest 65536)).isEmpty then s.pageInAll (State.lotsOf dest 65536)
          else if s.partialBad dest 65536 then s.finish d n q stUncorr
          else (s1.wrBytes dest bytes).setShip d n q l 1
        else
          let key := qpnKey (tgtQpn x)
          if !s.qpReady key (dieCode d, n, q, x.seq) 1 65536 then s
          else (s1.setShip d n q l 1).post key (.lot (dieCode d) n q x.seq l) 1 dest (tgtHandle x) none bytes 65536

/-- SNAPSHOT_ACK: the target has acknowledged a lot, which is shipped; the last one ends the SNAPSHOT (R307). A remote target
acknowledges by the queue pair's ACK (R351). -/
def execSnapshotAck (d : Die) (n q l : Nat) (s : State) : Host.Outcome State Fault Refusal :=
  actD d s fun s => s.withRunning d n q 0x21 fun x =>
    let sent := tgtKind x == 1 && (s.qp (qpnKey (tgtQpn x))).sent.any fun w => w.src == .lot (dieCode d) n q x.seq l
    if uPhase x != 2 || decide (x.uLots ≤ l) || uLotSt x l % 4 != 1 || sent then s
    else
      let s1 := match snapDelay? x l with
        | some t => s.raiseMax (s.lotPg x l) Reg.UPD_SNAP_DELAY_MAX (s.base - t)
        | none => s
      let s2 := s1.setShip d n q l 2
      if (List.range x.uLots).all fun k => k == l || uLotSt x k % 4 == 2 then s2.finish d n q stOk else s2

/-- SNAPSHOT_DELAY_LIMIT: a lot's delay reached DELAY_LIMIT_US; the snapshot is abandoned and all its lots are released
(R307). -/
def execSnapshotDelayLimit (d : Die) (n q l : Nat) (s : State) : Host.Outcome State Fault Refusal :=
  actD d s fun s => s.withRunning d n q 0x21 fun x =>
    match snapDelay? x l with
    | some t =>
      if uPhase x == 2 && decide (l < x.uLots) && decide (uLotSt x l % 4 < 2) && decide (t + x.f 44 0 32 * 1000 ≤ s.base) then
        (s.bump (s.lotPg x l) Reg.UPD_BUSY).finish d n q stBusy
      else s
    | none => s

end Sys2Proof.Machine
end

