-- ==== Sys2Proof/Machine/Exchange.lean ====
section
/-! DEFINITION. The exchange engines (R362 to R373, R381): plans, expert token exchange, order-free reductions over the network,
gather windows. -/

namespace Sys2Proof.Machine

/-- The page of an exchange engine, 0 of N0 and 1 of N1. -/
def xchPg (nd : Nat) : Page := ⟨netDie nd, .xch, 0⟩

/-- An expert field that names none, and the mark of a dropped choice (R365, R367). -/
def expertNone : Nat := 0xFFFFFFFF
def expertDropped : Nat := 0xFFFFFFFE

namespace State

def setXch (s : State) (key : Nat) (v : Xch) : State := { s with xch := SMap.put s.xch key v }

/-- What a message of the exchange is on its queue pair: a write of tokens, rows, counts or partial results to where the peer entry says, or
a SEND (R364, R367, R369); its verb, remote address and bytes. -/
def xWork (s : State) (x : Desc) (r : Nat) (m : XMsg) : Nat × Nat × Bytes :=
  let base := s.rdVNat x.pins (x.plPeer + 32 * r + 8) 8
  match m with
  | .token src e i data => (1, base + ((e % x.plEpm * x.plGroup + src) * x.plSlots + i) * x.xBytes, data)
  | .row _ _ _ data | .part _ _ data | .result _ _ data => (1, base, data)
  | .counts _ _ cs => (1, s.rdVNat x.pins (x.plPeer + 32 * r + 16) 8, cs.flatMap fun c => leBytes c 4)
  | _ => (0, 0, [])

/-- A message of a descriptor to participant `r`, on the queue pair of its peer entry with its remote key (R364). -/
def sendX (s : State) (dn : Nat × Nat) (x : Desc) (r : Nat) (m : XMsg) : State :=
  let v := s.rdVNat x.pins (x.plPeer + 32 * r) 8
  let key := qpnKey (bitsOf v 0 24)
  let w := s.xWork x r m
  if s.qpSt key == 1 then
    s.post key (.exchange dn.1 dn.2 x.slot x.seq r m) w.1 w.2.1 (if w.1 == 0 then 0 else bitsOf v 32 32) none w.2.2 w.2.2.length
  else s

/-- The other participants of a plan. -/
def peersOf (x : Desc) : List Nat := (List.range (min x.plGroup 4096)).filter (· != x.plRank)

/-- The exchange engine that carries what names die N(`nd`): its own, or the other die's once that is marked unusable (R362, R628). -/
def xchNd (s : State) (nd : Nat) : Nat := if s.getF (xchPg nd) Reg.PAGE_STAT_UNUSABLE == 1 then 1 - nd % 2 else nd % 2

/-- Peer entry `r` names a queue pair of KIND 0 and of the stream's compartment, which can send (R347, R364). -/
def peerOk (s : State) (c : Nat) (x : Desc) (r : Nat) : Bool :=
  let v := s.rdVNat x.pins (x.plPeer + 32 * r) 3
  let k := qpnKey v
  bitsOf v 14 9 == 0 && s.qpSt k == 1 && s.qpKind k == 0 && s.qpCpt k == c

/-- Zero counts with a fault mark to every peer that the peer table reaches (R364, R368). -/
def faultMarks (s : State) (d : Die) (n : Nat) (x : Desc) : State :=
  match s.xlateFor d n [⟨x.plPeer, 32 * min x.plGroup 4096, false⟩] with
  | (.ok pins, s1) =>
    let y := { x with pins := pins }
    ((peersOf y).filter (s1.peerOk (s1.ctxCpt d n) y)).foldl (fun a r => a.sendX (dieCode d, n) y r (.counts x.plRank true [])) s1
  | _ => s

/-- A running EXCHANGE_TOKENS or REDUCE_NET that no engine has taken yet: its plan is read once and checked, what the plan
names is translated and pinned, and then `f` takes it onto the engine of its plan when that is free (R362, R363). -/
def withPlan (s : State) (d : Die) (n q op : Nat) (ok : Desc → Bool) (f : State → Nat → Desc → State) : State :=
  s.withRunning d n q op fun x =>
    let at0 := if op == 0x28 then 32 else 40
    let go (t : State) (y : Desc) : State :=
      let nd := t.xchNd y.plNdie
      let key := nd * 2 + (decide (op == 0x29)).toNat
      if !t.runs (xchPg nd) || (t.xchRun key).isSome then t
      else if t.badV y.pins y.plPeer (32 * y.plGroup) then t.finish d n q stUncorr
      else if !(peersOf y).all (t.peerOk (t.ctxCpt d n) y) then
        (if op == 0x28 then t.faultMarks d n y else t).finish d n q stDescFault at0
      else f (t.updDesc d n q fun w => { w with aux := [1] }) key y
    if !ok x || !x.aux.isEmpty then s
    else if x.layout == 0 then
      if s.badV x.pins (x.addr at0) 64 then s.finish d n q stUncorr
      else
        let y := { x with layout := s.rdVNat x.pins (x.addr at0) 64 + 2 ^ 512 }
        match leastPos (broken (planRules y)) with
        | some p => (if op == 0x28 then s.faultMarks d n y else s).finish d n q stDescFault p
        | none =>
          match s.pinArrays d n q y (footprint y) at0 with
          | (true, s1) => s1.whenResident d n q fun z => go s1 z
          | (false, s1) => s1
    else s.whenResident d n q fun z => go s z

/-! ### Expert token exchange (R365 to R369) -/

/-- The candidates of token `t`: experts, in rank order. -/
def routeOf (s : State) (x : Desc) (t : Nat) : List Nat :=
  (List.range x.plCands).map fun c => s.rdVNat x.pins (x.addr 24 + 64 * t + 8 * c) 4

/-- An expert at or above GROUP · EPM (R365). -/
def routeBad (s : State) (x : Desc) : Bool :=
  (List.range x.xTokens).any fun t => (s.routeOf x t).any fun e => e != expertNone && decide (x.plGroup * x.plEpm ≤ e)

end State

/-- The running values of R366: the experts chosen for the token, the next spare, the slots used by expert; the choices made,
each as expert, slot and candidate rank; and the numbers given, dropped and redirected. -/
structure Pick where
  chosen : List Nat
  spare : Nat
  used : SMap Nat
  out : List (Nat × Nat × Nat)
  given : Nat
  dropped : Nat
  redirected : Nat
  deriving DecidableEq, Repr

/-- Choice `k` of a token whose candidates are `row` (R366). -/
def pickOne (x : Desc) (row : List Nat) (a : Pick) (k : Nat) : Pick :=
  let e0 := row.getD k expertNone
  let full (e : Nat) : Bool := SMap.getD a.used e 0 == x.plSlots
  if e0 == expertNone || a.chosen.contains e0 then { a with out := a.out ++ [(expertNone, 0, 0)] }
  else
    let spares := if x.xOverflow then
        ((List.range x.plCands).filter (a.spare ≤ ·)).find? fun c =>
          row.getD c expertNone != expertNone && !a.chosen.contains (row.getD c expertNone) && !full (row.getD c expertNone)
      else none
    let c? := if full e0 then spares else some k
    let spare := if full e0 && x.xOverflow then (match spares with | some c => c + 1 | none => x.plCands) else a.spare
    match c? with
    | none => { a with spare := spare, out := a.out ++ [(expertDropped, 0, 0)], dropped := a.dropped + 1 }
    | some c =>
      let e := row.getD c expertNone
      let u := SMap.getD a.used e 0
      { a with
        chosen := e :: a.chosen, spare := spare, used := SMap.put a.used e (u + 1), out := a.out ++ [(e, u, c)]
        given := a.given + 1, redirected := a.redirected + (decide (x.plTopK ≤ c)).toNat }

/-- The assignment of all tokens, in order (R366). -/
def assignSlots (x : Desc) (rows : List (List Nat)) : Pick :=
  rows.foldl (fun a row => (List.range x.plTopK).foldl (pickOne x row) { a with chosen := [], spare := x.plTopK })
    ⟨[], 0, [], [], 0, 0, 0⟩

/-- Slot `i` of local expert `k` from source `src` in an expert buffer at `base` (R367). -/
def slotVa (x : Desc) (base k src i : Nat) : Nat := base + ((k * x.plGroup + src) * x.plSlots + i) * x.xBytes

/-- The bytes of a slot-map entry (R367). -/
def slotEntry (p : Nat × Nat × Nat) : Bytes := leBytes (p.1 + p.2.1 <<< 32 + p.2.2 <<< 48) 8

namespace State

/-- Both ends of an EXCHANGE_TOKENS are met: every participant has acknowledged, and has sent its counts (R368). -/
def groupMet (v : Xch) (x : Desc) : Bool :=
  (List.range x.plGroup).all fun r => v.acked.contains r && v.came.contains r

/-- The choices of a slot map that were given a slot: index t · TOP_K + k, expert, slot, candidate rank. -/
def admitted (s : State) (x : Desc) : List (Nat × Nat × Nat × Nat) :=
  (List.range (x.xTokens * x.plTopK)).filterMap fun i =>
    let v := s.rdVNat x.pins (x.plSlotmap + 8 * i) 8
    if bitsOf v 0 32 == expertNone || bitsOf v 0 32 == expertDropped then none
    else some (i, bitsOf v 0 32, bitsOf v 32 16, bitsOf v 48 3)

/-- Output row `t` of a combine: the exact sum of weight times element over the admitted choices, rounded once (R369). -/
def combineRow (s : State) (x : Desc) (adm : List (Nat × Nat × Nat × Nat)) (t : Nat) : Bytes :=
  let b := fmtBits (x.fmt 0)
  let mine := adm.filter fun a => a.1 / x.plTopK == t
  let row (a : Nat × Nat × Nat × Nat) : List Num :=
    (codesAt (s.rdVNat x.pins (x.plReturn + a.1 * x.xBytes) x.xBytes) b 0 (8 * x.xBytes / b)).map (decodeElem (x.fmt 0))
  let terms := mine.map fun a =>
    let w := decodeElem 9 (s.rdVNat x.pins (x.addr 24 + 64 * t + 8 * a.2.2.2 + 4) 4)
    (row a).map fun v => Num.mul w v
  let codes := (List.range (8 * x.xBytes / b)).map fun j =>
    if mine.isEmpty then 0 else (roundElem (x.fmt 0) .rne (sumNum false (terms.map fun r => r.getD j .nan))).1
  leBytes (packCodes b codes) x.xBytes

/-- An EXCHANGE_TOKENS ends once its ends are met; a combine writes its output rows when every admitted row has come back
(R368, R369). -/
def exchangeSettle (s : State) (key : Nat) : State :=
  match s.xchRun key with
  | none => s
  | some (v, x) =>
    if !groupMet v x then s
    else if !x.xCombine then { s.finish (dieOf v.die) v.n v.slot stOk with xch := SMap.del s.xch key }
    else
      let adm := s.admitted x
      if !adm.all (fun a => v.acc.contains (a.1 : Int)) then s
      else if adm.any fun a => s.badV x.pins (x.plReturn + a.1 * x.xBytes) x.xBytes then s.finish (dieOf v.die) v.n v.slot stUncorr
      else
        let rows := (List.range x.xTokens).flatMap (s.combineRow x adm)
        State.finish { s.wrV x.pins (x.addr 40) rows with xch := SMap.del s.xch key } (dieOf v.die) v.n v.slot stOk

/-- The row of a slot of expert `e` comes back: it is kept at the place of the token and choice that the slot map records
(R369). -/
def takeRow (s : State) (key e i : Nat) (data : Bytes) : State :=
  match s.xchRun key with
  | none => s
  | some (v, x) =>
    match (s.admitted x).find? fun a => a.2.1 == e && a.2.2.1 == i with
    | some a => (s.wrV x.pins (x.plReturn + a.1 * x.xBytes) data).setXch key { v with acc := (a.1 : Int) :: v.acc }
    | none => s

/-- The slots of a combine's expert outputs that are filled: local expert, source, slot. -/
def filledSlots (s : State) (x : Desc) : List (Nat × Nat × Nat) :=
  (List.range x.plEpm).flatMap fun k => (List.range x.plGroup).flatMap fun r =>
    (List.range (s.rdVNat x.pins (x.plCount + 4 * (k * x.plGroup + r)) 4)).map fun i => (k, r, i)

/-- The first uncorrectable byte of a range, if any. -/
def badByte (s : State) (pins : SMap Nat) (va n : Nat) : Option Nat :=
  if s.badV pins va n then (List.range n).find? fun i => s.badV pins (va + i) 1 else none

end State

/-- The tokens of a dispatch given their slots and sent, with the counts (R365 to R368). -/
def State.dispatchTokens (s : State) (d : Die) (n q : Nat) (key : Nat) (x : Desc) : State :=
  match s.badByte x.pins (x.addr 16) (x.xTokens * x.xBytes), s.badByte x.pins (x.addr 24) (64 * x.xTokens) with
  | some p, _ => s.finish d n q stUncorr p 0
  | none, some p => s.finish d n q stUncorr (p / 64) 1
  | none, none =>
    if s.routeBad x then (s.faultMarks d n x).finish d n q stDescFault 24
    else
      let a := assignSlots x ((List.range x.xTokens).map (s.routeOf x))
      let me := x.plRank
      let cnt (r : Nat) : List Nat := (List.range x.plEpm).map fun k => SMap.getD a.used (r * x.plEpm + k) 0
      let s1 := s.wrV x.pins x.plSlotmap (a.out.flatMap slotEntry)
      let s2 := a.out.zipIdx.foldl (fun t p =>
        if p.1.1 == expertNone || p.1.1 == expertDropped then t
        else
          let data := s.rdV x.pins (x.addr 16 + p.2 / x.plTopK * x.xBytes) x.xBytes
          if p.1.1 / x.plEpm == me then t.wrV x.pins (slotVa x (x.addr 40) (p.1.1 % x.plEpm) me p.1.2.1) data
          else t.sendX (dieCode d, n) x (p.1.1 / x.plEpm) (.token me p.1.1 p.1.2.1 data)) s1
      let s3 := (cnt me).zipIdx.foldl (fun t c => t.wrV x.pins (x.plCount + 4 * (c.2 * x.plGroup + me)) (leBytes c.1 4)) s2
      let s4 := (State.peersOf x).foldl (fun t r => t.sendX (dieCode d, n) x r (.counts me false (cnt r))) s3
      let pg := xchPg (key / 2)
      let s5 := ((s4.bump pg Reg.XCH_DISPATCHED a.given).bump pg Reg.XCH_DROPPED a.dropped).bump pg Reg.XCH_REDIRECTED a.redirected
      (s5.setXch key ⟨dieCode d, n, q, x.seq, [me], [me], 0, []⟩).exchangeSettle key

/-- EXCHANGE_DISPATCH: slots are assigned, tokens and counts sent to the modules of their experts (R365 to R368). -/
def execExchangeDispatch (d : Die) (n q : Nat) (s : State) : Host.Outcome State Fault Refusal :=
  actD d s fun s => s.withPlan d n q 0x28 (fun x => !x.xCombine) fun s key x => State.dispatchTokens s d n q key x

/-- The filled slots of a combine sent back to their sources (R369). -/
def State.combineTokens (s : State) (d : Die) (n q : Nat) (key : Nat) (x : Desc) : State :=
  match s.badByte x.pins (x.addr 24) (64 * x.xTokens) with
  | some p => s.finish d n q stUncorr (p / 64) 1
  | none =>
    if s.routeBad x then (s.faultMarks d n x).finish d n q stDescFault 24
    else if s.badV x.pins x.plSlotmap (8 * x.xTokens * x.plTopK) || s.badV x.pins x.plCount (4 * x.plEpm * x.plGroup) then
      s.finish d n q stUncorr
    else
      let me := x.plRank
      let slots := s.filledSlots x
      match slots.find? fun p => s.badV x.pins (slotVa x (x.addr 16) p.1 p.2.1 p.2.2) x.xBytes with
      | some p => s.finish d n q stUncorr ((slotVa x 0 p.1 p.2.1 p.2.2) * 8 / fmtBits (x.fmt 0)) 0
      | none =>
        let s1 := s.setXch key ⟨dieCode d, n, q, x.seq, [me], [me], 0, []⟩
        let s2 := slots.foldl (fun t p =>
          let data := s.rdV x.pins (slotVa x (x.addr 16) p.1 p.2.1 p.2.2) x.xBytes
          let e := me * x.plEpm + p.1
          if p.2.1 == me then t.takeRow key e p.2.2 data else t.sendX (dieCode d, n) x p.2.1 (.row me e p.2.2 data)) s1
        ((State.peersOf x).foldl (fun t r => t.sendX (dieCode d, n) x r (.counts me false [])) s2).exchangeSettle key

/-- EXCHANGE_COMBINE: the filled slots of the expert outputs are sent back to their sources (R369). -/
def execExchangeCombine (d : Die) (n q : Nat) (s : State) : Host.Outcome State Fault Refusal :=
  actD d s fun s => s.withPlan d n q 0x28 (fun x => x.xCombine) fun s key x => State.combineTokens s d n q key x

/-! ### Reductions (R370, R371) -/

/-- The children of a rank in the tree of a plan, and the blocks of segment `g` of its ring. -/
def treeChildren (x : Desc) : List Nat :=
  (List.range x.plGroup).filter fun r => decide (1 ≤ r) && (r - 1) / x.plFanin == x.plRank
def segBlocks (x : Desc) (g : Nat) : Nat × Nat :=
  if x.plRing then (g * x.rnBlocks / x.plGroup, (g + 1) * x.rnBlocks / x.plGroup) else (0, x.rnBlocks)

/-- Numbers that the running values keep for a block of a phase: an anchor byte, 32 values, or N, G and NONFINITE. -/
def perBlock (phase : Nat) : Nat := if phase == 1 then 1 else if phase == 2 then 32 else 3

/-- The bytes of running values of a phase, and the numbers of bytes. -/
def rnEncode (x : Desc) (phase : Nat) (vs : List Int) : Bytes :=
  match phase with
  | 1 => vs.flatMap fun v => leBytes v.toNat 1
  | 2 => leBytes (packCodes (fmtBits (x.fmt 0)) (vs.map fun v => ofSigned v (fmtBits (x.fmt 0)))) (vs.length * fmtBits (x.fmt 0) / 8)
  | _ => leBytes (vs.getD 0 0).toNat 16 ++ leBytes (vs.getD 1 0).toNat 1 ++ leBytes (vs.getD 2 0).toNat 15
def rnDecode (x : Desc) (phase : Nat) (bs : Bytes) : List Int :=
  match phase with
  | 1 => bs.map fun b => (b.toNat : Int)
  | 2 => (codesAt (leNat bs) (fmtBits (x.fmt 0)) 0 (8 * bs.length / fmtBits (x.fmt 0))).map fun c => toSigned c (fmtBits (x.fmt 0))
  | _ => [(leNat (bs.take 16) : Int), ((bs.getD 16 0).toNat : Int), (((bs.getD 17 0).toNat % 2 : Nat) : Int)]

/-- Bytes of a segment. -/
def segBytes (x : Desc) (phase g : Nat) : Nat :=
  let k := (segBlocks x g).2 - (segBlocks x g).1
  match phase with
  | 1 => k
  | 2 => orfBlockBytes (x.fmt 0) * k
  | _ => 32 * k

/-- Two partial reductions of a phase combined: the greater anchor, the sum of the values modulo their width, the NRM128
records added (R98, R99, R104). -/
def rnMerge (x : Desc) (phase : Nat) (a b : List Int) : List Int :=
  match phase with
  | 1 => (a.zip b).map fun p => max p.1 p.2
  | 2 => (a.zip b).map fun p => toSigned (ofSigned (p.1 + p.2) (fmtBits (x.fmt 0))) (fmtBits (x.fmt 0))
  | _ => if a.isEmpty then [] else rnDecode x 3 (nrmSum [rnEncode x 3 a, rnEncode x 3 b])

namespace State

/-- The running values of a segment. -/
def segOf (x : Desc) (v : Xch) (g : Nat) : List Int :=
  let b := segBlocks x g
  let w := perBlock v.phase
  (v.acc.drop (w * b.1)).take (w * (b.2 - b.1))

/-- The running values of a segment replaced. -/
def setSeg (x : Desc) (v : Xch) (g : Nat) (vs : List Int) : Xch :=
  let b := segBlocks x g
  let w := perBlock v.phase
  { v with acc := v.acc.take (w * b.1) ++ vs ++ v.acc.drop (w * b.2) }

/-- The reduction is finished: its result is written and the descriptor ends (R370). -/
def rnFinal (s : State) (key : Nat) (v : Xch) (x : Desc) : State :=
  let dest := if v.phase == 1 then x.addr 24 else x.addr 32
  let s1 := (s.wrV x.pins dest (rnEncode x v.phase v.acc)).bump (xchPg (key / 2)) Reg.XCH_REDUCTIONS
  State.finish { s1 with xch := SMap.del s1.xch key } (dieOf v.die) v.n v.slot stOk

/-- What a participant sends when a phase begins, or once its children's sums are in: in a tree its partial sum to its
parent, or at rank 0 the result to its children, which ends the phase there; in a ring its own segment to the next rank (R371). -/
def rnKick (s : State) (key : Nat) (v : Xch) (x : Desc) (done : State → Xch → State) : State :=
  let me := x.plRank
  if x.plRing then
    if x.plGroup == 1 then done (s.setXch key v) v
    else (s.setXch key v).sendX (v.die, v.n) x ((me + 1) % x.plGroup) (.part v.phase [me] (rnEncode x v.phase (segOf x v me)))
  else if !(treeChildren x).all v.came.contains then s.setXch key v
  else if me == 0 then
    done ((treeChildren x).foldl (fun t r => t.sendX (v.die, v.n) x r (.result v.phase 0 (rnEncode x v.phase v.acc))) (s.setXch key v)) v
  else (s.setXch key v).sendX (v.die, v.n) x ((me - 1) / x.plFanin) (.part v.phase (me :: v.came.filter (· != me)) (rnEncode x v.phase v.acc))

/-- The local values of a REDUCE_NET requantised to reduced anchors (R99, R370). -/
def rnRequantise (s : State) (x : Desc) (anchors : List Int) : List Int :=
  let c := x.fmt 0
  let bb := orfBlockBytes c
  anchors.zipIdx.flatMap fun a =>
    let g := s.rdVNat x.pins (x.addr 24 + a.2) 1
    (orfInts c (s.rdVNat x.pins (x.addr 16 + bb * a.2) bb)).map fun q => orfQuantise c a.1.toNat (orfValue c g q)

/-- A phase has ended: PHASE 0 goes on from the anchors to the values (R370). -/
def rnDone (s : State) (key : Nat) (x : Desc) (v : Xch) : State :=
  if v.phase == 1 && x.rnPhase == 0 then
    let w := { v with phase := 2, came := [x.plRank], acked := [], acc := s.rnRequantise x v.acc }
    (s.wrV x.pins (x.addr 24) (rnEncode x 1 v.acc)).rnKick key w x fun t u => t.rnFinal key u x
  else s.rnFinal key v x

/-- The participants that a rank exchanges messages with (R371). -/
def rnPeers (x : Desc) : List Nat :=
  if x.plGroup == 1 then []
  else if x.plRing then [(x.plRank + 1) % x.plGroup]
  else treeChildren x ++ (if x.plRank == 0 then [] else [(x.plRank - 1) / x.plFanin])

/-- The triple of a peer comes in with its first message: another triple than the plan's ends the reduction, and the reply
tells the peer (R394). -/
def rnPlan (s : State) (key : Nat) (v : Xch) (x : Desc) (src group : Nat) (ring : Bool) (fanin : Nat) : State :=
  if group == x.plGroup && ring == x.plRing && fanin == x.plFanin then s
  else
    State.finish { s.sendX (v.die, v.n) x src (.plan x.plRank x.plGroup x.plRing x.plFanin) with xch := SMap.del s.xch key } (dieOf v.die) v.n v.slot
      stDescFault 40

/-- The inputs of a phase read, its plan told to the peers, and its first partial sums sent (R370, R371). -/
def startReduce (s : State) (d : Die) (n q phase key : Nat) (x : Desc) : State :=
  let c := x.fmt 0
  let b := x.rnBlocks
  let bb := orfBlockBytes c
  let val := if phase == 1 then none
    else if phase == 3 then (s.badByte x.pins (x.addr 16) 32).map fun _ => 0
    else (s.badByte x.pins (x.addr 16) (bb * b)).map fun p => 8 * p / fmtBits c
  let anc := if phase == 0 || phase == 1 then (s.badByte x.pins (x.addr 24) b).map (32 * ·) else none
  match val, anc with
  | some p, _ => s.finish d n q stUncorr p 0
  | none, some p => s.finish d n q stUncorr p 1
  | none, none =>
    if phase == 3 && nrmReserved (s.rdV x.pins (x.addr 16) 32) then s.finish d n q stDescFault 16
    else
      let ph := if phase == 0 then 1 else phase
      let acc := match ph with
        | 1 => rnDecode x 1 (s.rdV x.pins (x.addr 24) b)
        | 2 => rnDecode x 2 (s.rdV x.pins (x.addr 16) (bb * b))
        | _ => rnDecode x 3 (s.rdV x.pins (x.addr 16) 32)
      -- what the staging area holds from now on the spec does not state (notes/assumptions/47.md)
      let s1 := State.wrV { s with free := s.free + 0x200000 } x.pins x.plStage
        ((List.range 0x200000).map fun i => Config.freeByte (s.free + i))
      let s2 := (rnPeers x).foldl (fun t r => t.sendX (dieCode d, n) x r (.plan x.plRank x.plGroup x.plRing x.plFanin)) s1
      s2.rnKick key ⟨dieCode d, n, q, x.seq, [], [x.plRank], ph, acc⟩ x fun t u => t.rnDone key x u

/-- A REDUCE_NET of a phase starts: its inputs are read (R370). -/
def reduceNet (s : State) (d : Die) (n q phase : Nat) : State :=
  s.withPlan d n q 0x29 (fun x => x.rnPhase == phase) fun s key x => s.startReduce d n q phase key x

/-- A partial sum comes in (R371). -/
def rnPart (s : State) (key : Nat) (v : Xch) (x : Desc) (phase : Nat) (ranks : List Nat) (data : Bytes) : State :=
  let me := x.plRank
  let h := ranks.headD 0
  let g := if x.plRing then h else 0
  let prev := (me + x.plGroup - 1) % x.plGroup
  let ok := v.phase == phase && !ranks.isEmpty && data.length == segBytes x phase g && !ranks.contains me
    && (if x.plRing then ranks.getLast? == some prev && decide (ranks.length < x.plGroup) && !v.acked.contains g
        else (treeChildren x).contains h && !v.came.contains h)
  if !ok then s
  else
    let vs := rnMerge x phase (segOf x v g) (rnDecode x phase data)
    let s1 := s
    if x.plRing then
      let next := (me + 1) % x.plGroup
      if ranks.length + 1 == x.plGroup then
        let w := { setSeg x v g vs with acked := g :: v.acked }
        let s2 := (s1.setXch key w).sendX (v.die, v.n) x next (.result phase g (rnEncode x phase vs))
        if w.acked.length == x.plGroup then s2.rnDone key x w else s2
      else s1.sendX (v.die, v.n) x next (.part phase (ranks ++ [me]) (rnEncode x phase vs))
    else s1.rnKick key { setSeg x v 0 vs with came := v.came ++ ranks } x fun t u => t.rnDone key x u

/-- A finished segment comes in; it is passed on down the tree, or round the ring as far as the rank that finished it (R371). -/
def rnResult (s : State) (key : Nat) (v : Xch) (x : Desc) (phase g : Nat) (data : Bytes) : State :=
  let me := x.plRank
  let ok := v.phase == phase && data.length == segBytes x phase g
    && (if x.plRing then decide (g < x.plGroup) && !v.acked.contains g
        else g == 0 && me != 0 && (treeChildren x).all v.came.contains)
  if !ok then s
  else
    let w := { setSeg x v g (rnDecode x phase data) with acked := g :: v.acked }
    if x.plRing then
      let next := (me + 1) % x.plGroup
      let s1 := s.setXch key w
      let s2 := if next == (g + x.plGroup - 1) % x.plGroup then s1 else s1.sendX (v.die, v.n) x next (.result phase g data)
      if w.acked.length == x.plGroup then s2.rnDone key x w else s2
    else ((treeChildren x).foldl (fun t r => t.sendX (v.die, v.n) x r (.result phase 0 data)) (s.setXch key w)).rnDone key x w

end State

/-- A message of a participant at the engine of network die `nd` (R365 to R371). What no running descriptor expects changes nothing. While
a lot that the engine's descriptors write moves, the engine's messages wait (R234). -/
def State.exchangeIn (s : State) (nd : Nat) (m : XMsg) : State :=
    let moves (k : Nat) : Bool := match s.xchRun (nd * 2 + k) with | some (_, y) => s.writesMoving y | none => false
    let behind := s.place.stalls.any fun w => match w with | .exchange k _ => k == nd | _ => false
    if !s.runs (xchPg nd) then s
    else if behind || moves 0 || moves 1 then s.stall (.exchange nd m)
    else
      match m with
      | .plan src g ring f =>
        match s.xchRun (nd * 2 + 1) with | some (v, y) => s.rnPlan (nd * 2 + 1) v y src g ring f | none => s
      | .part ph rs data =>
        match s.xchRun (nd * 2 + 1) with | some (v, y) => s.rnPart (nd * 2 + 1) v y ph rs data | none => s
      | .result ph g data =>
        match s.xchRun (nd * 2 + 1) with | some (v, y) => s.rnResult (nd * 2 + 1) v y ph g data | none => s
      | .token src e i data =>
        match s.xchRun (nd * 2) with
        | some (_, y) =>
          if !y.xCombine && decide (src < y.plGroup) && e / y.plEpm == y.plRank && decide (i < y.plSlots) && data.length == y.xBytes then
            s.wrV y.pins (slotVa y (y.addr 40) (e % y.plEpm) src i) data
          else s
        | none => s
      | .row src e i data =>
        match s.xchRun (nd * 2) with
        | some (_, y) =>
          if y.xCombine && e / y.plEpm == src && data.length == y.xBytes then (s.takeRow (nd * 2) e i data).exchangeSettle (nd * 2) else s
        | none => s
      | .counts src fault cs =>
        match s.xchRun (nd * 2) with
        | some (v, y) =>
          if y.plGroup ≤ src || v.came.contains src then s
          else if fault then
            State.finish { s with xch := SMap.del s.xch (nd * 2) } (dieOf v.die) v.n v.slot stDescFault 24
          else if !y.xCombine && cs.length != y.plEpm then s
          else
            let s1 := if y.xCombine then s
              else cs.zipIdx.foldl (fun t c => t.wrV y.pins (y.plCount + 4 * (c.2 * y.plGroup + src)) (leBytes c.1 4)) s
            ((s1.sendX (v.die, v.n) y src (.acked y.plRank)).setXch (nd * 2) { v with came := src :: v.came }).exchangeSettle (nd * 2)
        | none => s
      | .abort red src =>
        match s.xchRun (nd * 2 + red.toNat) with
        | some (v, y) =>
          if y.plGroup ≤ src then s
          else State.finish { s with xch := SMap.del s.xch (nd * 2 + red.toNat) } (dieOf v.die) v.n v.slot stAborted
        | none => s
      | .acked src =>
        match s.xchRun (nd * 2) with
        | some (v, y) =>
          if y.plGroup ≤ src then s else (s.setXch (nd * 2) { v with acked := src :: v.acked }).exchangeSettle (nd * 2)
        | none => s

/-- EXCHANGE_MESSAGE: a message of a participant reaches the engine of die `x` (R365 to R371). -/
def execExchangeMessage (x : Die) (m : XMsg) (s : State) : Host.Outcome State Fault Refusal :=
  actD x s fun s => if isNet x then s.exchangeIn (netNo x) m else s

/-- REDUCE_NET_BOTH: PHASE 0 (R370). -/
def execReduceNetBoth (d : Die) (n q : Nat) (s : State) : Host.Outcome State Fault Refusal := actD d s fun s => s.reduceNet d n q 0

/-- REDUCE_NET_ANCHOR: PHASE 1 (R370). -/
def execReduceNetAnchor (d : Die) (n q : Nat) (s : State) : Host.Outcome State Fault Refusal := actD d s fun s => s.reduceNet d n q 1

/-- REDUCE_NET_VALUE: PHASE 2 (R370). -/
def execReduceNetValue (d : Die) (n q : Nat) (s : State) : Host.Outcome State Fault Refusal := actD d s fun s => s.reduceNet d n q 2

/-- REDUCE_NET_NRM128: PHASE 3 (R370). -/
def execReduceNetNrm128 (d : Die) (n q : Nat) (s : State) : Host.Outcome State Fault Refusal := actD d s fun s => s.reduceNet d n q 3

/-! ### Gather windows (R372, R373) -/

/-- Fields of a GATHER_WINDOW body. -/
def gwBytes (x : Desc) : Nat := x.f 32 0 32
def gwShards (x : Desc) : Nat := x.f 36 0 16
def gwConsumers (x : Desc) : Nat := x.f 38 0 16
def gwLayer (x : Desc) : Nat := x.f 40 0 32

/-- An entry of a shard list. -/
structure Shard where
  off : Nat
  len : Nat
  qpn : Nat
  rkey : Nat
  remote : Nat
  deriving DecidableEq, Repr

namespace State

/-- The window is a whole number of lots in one run of the unified range, in a pool buffer of TARGET 1 or 4; its first lot. -/
def windowLot (s : State) (c : Nat) (x : Desc) : Option Nat :=
  let va := x.addr 16
  let a := pinned x.pins va
  if va % 65536 == 0 && gwBytes x != 0 && gwBytes x % 65536 == 0 && a % 65536 == 0 && decide (unifiedBase ≤ a)
      && (List.range (gwBytes x / 4096)).all (fun k => pinned x.pins (va + 4096 * k) == a + 4096 * k) then
    match s.bufAt c a with
    | some b =>
      if (b.target == 1 || b.target == 4) && decide (b.kind < 2) && decide (a + gwBytes x ≤ b.base + b.bytes) then
        some ((a - unifiedBase) / 65536)
      else none
    | none => none
  else none

/-- The windows of an engine. -/
def winsOf (s : State) (nd : Nat) : List (Nat × Window) := s.wins.filter fun e => e.1 / 64 == nd

/-- Entry `k` of the shard list. -/
def shardAt (s : State) (x : Desc) (k : Nat) : Shard :=
  let v := s.rdVNat x.pins (x.addr 24 + 32 * k) 32
  ⟨bitsOf v 0 32, bitsOf v 32 32, bitsOf v 64 24, bitsOf v 96 32, bitsOf v 128 64⟩

/-- The shard list obeys R372. -/
def shardsOk (s : State) (c : Nat) (x : Desc) (l : List Shard) : Bool :=
  l.zipIdx.all fun p =>
    let h := p.1
    let k := qpnKey h.qpn
    decide (1 ≤ h.len) && decide (h.off + h.len ≤ gwBytes x) && bitsOf h.qpn 14 9 == 0 && s.qpKind k == 0 && s.qpCpt k == c
      && s.qpSt k == 1 && (l.drop (p.2 + 1)).all fun g => decide (h.off + h.len ≤ g.off) || decide (g.off + g.len ≤ h.off)

/-- RDMA READs of the shards from number `k` on, as far as their queue pairs have room; up to `m` of them. -/
def postShards (d : Die) (n q : Nat) : Nat → State → State
  | 0, s => s
  | m + 1, s =>
    match s.desc? d n q with
    | none => s
    | some x =>
      let h := s.shardAt x x.next
      let key := qpnKey h.qpn
      if gwShards x ≤ x.next || s.qpSt key != 1 || !s.qpReady key (dieCode d, n, q, x.seq) 2 h.len then s
      else
        postShards d n q m
          ((s.updDesc d n q fun y => { y with next := y.next + 1 }).post key (.shard (dieCode d) n q x.seq x.next) 2 h.remote h.rkey
            none [] h.len)

end State

/-- GATHER_WINDOW: a window entry is taken and the shards are fetched by RDMA READ, those that find no room when the command
comes again (R362, R372). -/
def execGatherWindow (d : Die) (n q : Nat) (s : State) : Host.Outcome State Fault Refusal :=
  actD d s fun s => s.withRunning d n q 0x12 fun x =>
    let nd := s.xchNd (gwLayer x)
    let c := s.ctxCpt d n
    if !s.runs (xchPg nd) then s
    else if !x.aux.isEmpty then State.postShards d n q (gwShards x) s
    else
      match s.windowLot c x with
      | none => s.finish d n q stDescFault 16
      | some l =>
        let lots := gwBytes x / 65536
        if s.wins.any fun e => decide (e.2.lot < l + lots) && decide (l < e.2.lot + e.2.lots) then s.finish d n q stDescFault 16
        else if 64 ≤ (s.winsOf nd).length then s.finish d n q stBusy
        else
          s.whenResident d n q fun x =>
            if s.badV x.pins (x.addr 24) (32 * gwShards x) then s.finish d n q stUncorr
            else
              let sh := (List.range (gwShards x)).map (s.shardAt x)
              if !s.shardsOk c x sh then s.finish d n q stDescFault 24
              else
                let key := nd * 64 + ((List.range 64).find? fun w => (SMap.find s.wins (nd * 64 + w)).isNone).getD 0
                let v : Window := ⟨1, gwConsumers x, gwLayer x, c, l, lots, gwShards x⟩
                let s1 := State.updDesc { s with wins := SMap.put s.wins key v } d n q fun y =>
                  { y with aux := sh.map (·.off) ++ [key], next := 0 }
                State.postShards d n q (gwShards x) s1

/-- WINDOW_RELEASE: the lots of a window whose count is 0 return to TIER 2 with trimmed homes once no descriptor holds them
(R373). -/
def execWindowRelease (x : Die) (w : Nat) (s : State) : Host.Outcome State Fault Refusal :=
  actD x s fun s =>
    let key := netNo x * 64 + w % 64
    match SMap.find s.wins key with
    | some v =>
      let ls := (List.range v.lots).map (v.lot + ·)
      if !isNet x || v.st != 3 || ls.any s.lotHeld then s
      else
        ls.foldl (fun (t : State) l =>
          let t1 := ((t.toWarehouse l).trimHome l).zeroBytes (unifiedBase + l * 0x10000) 0x10000
          { t1 with place := { t1.place with touched := t1.place.touched.filter (· != l) } })
          { s with wins := SMap.del s.wins key }
    | none => s

/-- XCH_WIN_RELEASE: XCH_WIN_CMD.RELEASE written with 1: the selected live window is to be released (R373, R381). -/
def execXchWinRelease (x : Die) (s : State) : Host.Outcome State Fault Refusal :=
  actD x s fun s =>
    let key := netNo x * 64 + s.getF (xchPg (netNo x)) Reg.XCH_WIN_SEL_WINDOW
    match SMap.find s.wins key with
    | some v => if isNet x && v.st == 2 then { s with wins := SMap.put s.wins key { v with st := 3 } } else s
    | none => s

end Sys2Proof.Machine
end

