-- ==== Sys2Proof/Machine/Fences.lean ====
section
/-! DEFINITION. FENCE (R472 to R475). A write of the model is performed at every scope when it is made, so a fence waits for the
ends of earlier descriptors and, at NETWORK scope, for the remote acknowledgements. -/

namespace Sys2Proof.Machine

/-- The SCOPE of a FENCE (R184). -/
def fenceScope (x : Desc) : Nat := x.f 16 0 2

/-- An earlier descriptor has ended as a FENCE of a scope asks: its last write has been issued, and at NETWORK scope what it
sent has been acknowledged (R474). -/
def endedFor (scope : Nat) (x : Desc) : Bool :=
  x.phase == .ended
    || (scope != 3 && x.phase == .running
      && ((x.op == 0x2A && decide (x.verb < 2) && !x.aux.isEmpty)
        || (x.op == 0x21 && tgtKind x == 1 && uPhase x == 2 && (List.range x.uLots).all fun l => uLotSt x l % 4 != 0)))

/-- FENCE: it waits for what stands before it in its stream; later descriptors start no more (R474). -/
def execFence (d : Die) (n q : Nat) (s : State) : Host.Outcome State Fault Refusal :=
  actD d s fun s => s.withRunning d n q 0x38 fun x => if x.aux.isEmpty then s.updDesc d n q fun y => { y with aux := [1] } else s

/-- FENCE_COMPLETE: every earlier descriptor of the stream has ended and its writes are performed at the scope (R474). -/
def execFenceComplete (d : Die) (n q : Nat) (s : State) : Host.Outcome State Fault Refusal :=
  actD d s fun s => s.withRunning d n q 0x38 fun x =>
    if !x.aux.isEmpty && ((s.stream d n).fetched.takeWhile fun y => y.slot != q).all (endedFor (fenceScope x)) then
      s.finish d n q stOk
    else s

end Sys2Proof.Machine
end

