-- ==== Sys2Proof/Machine/Convoy.lean ====
section
/-! DEFINITION. Convoys and step commit (R382 to R409): the coordination contexts of N0, their messages, heartbeats, takeover,
barriers, milestones. -/

namespace Sys2Proof.Machine

/-- The 64 bytes of a control message (R386). -/
def ctlBytes (m : Ctl) : Bytes :=
  leBytes (m.kind % 256 + (m.sender % 128) <<< 8 + (m.convoy % 32) <<< 16 + (m.group % 64) <<< 24 + (m.outcome % 4) <<< 30
    + (m.convoyId % 2 ^ 32) <<< 32 + (m.epoch % 2 ^ 32) <<< 64 + (m.barrier % 2 ^ 32) <<< 96 + (m.milestone % 2 ^ 64) <<< 128
    + (m.time % 2 ^ 64) <<< 192 + (m.committed % 2 ^ 64) <<< 256 + (m.readyM % 2 ^ 64) <<< 320) 64

namespace State

def conv (s : State) (k : Nat) : Conv := SMap.getD s.convs (k % 4) Conv.init
def setConv (s : State) (k : Nat) (c : Conv) : State := { s with convs := SMap.put s.convs (k % 4) c }
def cvRank (s : State) (k : Nat) : Nat := s.getF (convPg k) Reg.CONV_CFG_RANK
def cvConvoy (s : State) (k : Nat) : Nat := s.getF (convPg k) Reg.CONV_CFG_CONVOY
def cvCpt (s : State) (k : Nat) : Nat := s.getF (convPg k) Reg.CONV_CFG_COMPARTMENT
def cvLayer (s : State) (k : Nat) : Bool := s.getF (convPg k) Reg.CONV_CFG_LAYER_MODE == 1
def cvGroups (s : State) (k : Nat) : Nat := s.getF (convPg k) Reg.CONV_CFG_GROUPS + 1
/-- 0 IDLE, 1 RUNNING, 2 TAKEOVER, 3 HALTED. -/
def cvSt (s : State) (k : Nat) : Nat := s.getF (convPg k) Reg.CONV_STAT_STATE
def setCvSt (s : State) (k v : Nat) : State := s.setF (convPg k) Reg.CONV_STAT_STATE v
def cvMgr (s : State) (k : Nat) : Bool := s.getF (convPg k) Reg.CONV_STAT_IS_MANAGER == 1
/-- The context is the top manager of its federation: the manager of convoy 0, or of the convoy that took over from it (R382, R392). -/
def cvTop (s : State) (k : Nat) : Bool := s.fedCtx k && s.cvMgr k && s.cvConvoy k == (s.conv k).top
/-- The context manages a convoy whose top manager is another's: in the federation it stands as a worker (R392). -/
def cvUnder (s : State) (k : Nat) : Bool := s.fedCtx k && s.cvMgr k && !s.cvTop k
def cvEpoch (s : State) (k : Nat) : Nat := s.getF (convPg k) Reg.CONV_EPOCH
def bumpEpoch (s : State) (k : Nat) : State := s.setF (convPg k) Reg.CONV_EPOCH (s.cvEpoch k + 1)
def cvCommitted (s : State) (k : Nat) : Nat :=
  s.getF (convPg k) Reg.CONV_COMMITTED_LO + s.getF (convPg k) Reg.CONV_COMMITTED_HI <<< 32
def cvLmask (s : State) (k : Nat) : Nat := s.getF (convPg k) Reg.CONV_LMASK_LO + s.getF (convPg k) Reg.CONV_LMASK_HI <<< 32
def setLmask (s : State) (k v : Nat) : State :=
  (s.setF (convPg k) Reg.CONV_LMASK_LO v).setF (convPg k) Reg.CONV_LMASK_HI (v >>> 32)
/-- A heartbeat period in ns, and the periods before a loss. -/
def cvPeriod (s : State) (k : Nat) : Nat := s.getF (convPg k) Reg.CONV_HB_PERIOD_US * 1000
def cvMiss (s : State) (k : Nat) : Nat := s.getF (convPg k) Reg.CONV_HB_MISS

/-- The present members, the context's own rank among them. -/
def members (s : State) (k : Nat) : List Nat := (List.range 128).filter fun r => r == s.cvRank k || (s.member k r).testBit 24
/-- The present members other than the context itself. -/
def others (s : State) (k : Nat) : List Nat := (s.members k).filter (· != s.cvRank k)
/-- The other convoys of the federation that the context knows, as 128 and their number: those that it has heard from and the top
manager's (R392). -/
def otherConvoys (s : State) (k : Nat) : List Nat :=
  if s.fedCtx k then (((s.conv k).top :: (s.conv k).convoys).eraseDups.filter (· != s.cvConvoy k)).map (128 + ·) else []

/-- The PRESENT and LOST bits of a rank's entry set (R389, R392). -/
def setMember (s : State) (k r : Nat) (present lost : Bool) : State :=
  let v := s.member k r
  s.wrNat (s.memberPa k r) (putBits (putBits v 24 1 present.toNat) 25 1 lost.toNat) 8

/-! ### Messages (R385 to R387) -/

/-- A message of the context, its fields for all kinds. -/
def cvMsg (s : State) (k kind : Nat) : Ctl :=
  ⟨kind, s.cvRank k, s.cvConvoy k, 0, 0, s.getF (convPg k) Reg.CONV_ID, s.cvEpoch k, 0, 0, s.timeNs, s.cvCommitted k, (s.conv k).readyM⟩

/-- A message sent as a SEND on a queue pair; one that is not in RTS carries nothing. -/
def sendOn (s : State) (k qpn : Nat) (m : Ctl) : State :=
  let key := qpnKey qpn
  if s.qpSt key == 1 && s.qpKind key == 0 && bitsOf qpn 14 9 == 0 && s.rdmaRuns key then
    s.post key (.control k) 0 0 0 none (ctlBytes m) 64
  else s

/-- A message to rank `r`, or to the convoy of number `r` − 128 of the federation. -/
def sendCtl (s : State) (k r : Nat) (m : Ctl) : State :=
  s.sendOn k (if r < 128 then bitsOf (s.member k r) 0 24 else s.getF (convPg k) Reg.CONV_TOP_QP_QPN) m

def sendAll (s : State) (k : Nat) (rs : List Nat) (m : Ctl) : State := rs.foldl (fun a r => a.sendCtl k r m) s

/-- The key of a message's sender: its rank, or 128 and its convoy's number. -/
def ctlKey (s : State) (k : Nat) (m : Ctl) : Nat := if m.convoy == s.cvConvoy k then m.sender % 128 else 128 + m.convoy % 32

/-- A manager whose EPOCH has risen tells its members by a TAKEOVER, the one message by which a context adopts a higher EPOCH (R387, DEDUCED,
notes/assumptions/61.md). -/
def tellEpoch (s : State) (k : Nat) : State := s.sendAll k (s.others k) (s.cvMsg k 9)

/-- A context has heard from the convoy of a key of 128 and more (R392). -/
def noteConvoy (c : Conv) (f : Nat) : Conv :=
  if decide (128 ≤ f) && !c.convoys.contains (f - 128) then { c with convoys := (f - 128) :: c.convoys } else c

/-- A context that is not in IDLE takes a message of its job and epoch, of the kind that the command names (R387). -/
def takes (s : State) (k kind : Nat) (m : Ctl) : Bool :=
  s.runs (convPg k) && s.cvSt k != 0 && m.kind == kind && m.convoyId == s.getF (convPg k) Reg.CONV_ID && m.epoch == s.cvEpoch k

/-- A set operation on a tally of the context (R393, R395, R404). -/
def cvTally (s : State) (k t v : Nat) : State :=
  { s with tallyOps := s.tallyOps ++ [⟨t, true, v, (dieCode .N0, 2 ^ 14 + k % 4)⟩] }

/-! ### Milestone records (R399, R400) -/

def recordPa (s : State) (k m : Nat) : Nat :=
  s.getF (convPg k) Reg.CONV_MREC_LO_PA <<< 5 + s.getF (convPg k) Reg.CONV_MREC_HI_PA <<< 32
    + 32 * (m % 2 ^ s.getF (convPg k) Reg.CONV_MREC_CFG_LOG2_ENTRIES)

/-- The record of milestone `m` at its commit. -/
def openRecord (s : State) (k m : Nat) : State :=
  let c := s.conv k
  s.wrNat (s.recordPa k m) (m + (s.cvLayer k).toNat <<< 67 + (min c.tries 255) <<< 72 + (s.members k).length <<< 80
    + s.cvEpoch k <<< 96 + (s.timeNs % 2 ^ 64) <<< 128) 32

/-- COMPLETE and OUTCOME written in place, with APPLY_TIME. -/
def closeRecord (s : State) (k m outcome : Nat) : State :=
  let a := s.recordPa k m
  (s.wrNat (a + 8) (putBits (s.rdNat (a + 8) 1) 0 3 (outcome + 4)) 1).wrNat (a + 24) s.timeNs 8

/-! ### Commit, apply, abort (R395 to R401, R404 to R406) -/

/-- Milestone `m` is committed at this context (R395, R399). -/
def commitAt (s : State) (k m : Nat) : State :=
  let pg := convPg k
  let s1 := (s.setF pg Reg.CONV_COMMITTED_LO m).setF pg Reg.CONV_COMMITTED_HI (m >>> 32)
  let s2 := ((s1.cvTally k (s.getF pg Reg.CONV_TALLY_COMMIT_INDEX) m).openRecord k m).setLmask k 0
  s2.setConv k { s2.conv k with tries := 0 }

/-- A layer group of milestone `m` is committed here; with the last group the milestone is (R404). -/
def commitGroup (s : State) (k m g : Nat) : State :=
  let s1 := (s.cvTally k (s.getF (convPg k) Reg.CONV_TALLY_LAYER_BASE + g) m).setLmask k (s.cvLmask k ||| 1 <<< g)
  if (List.range (s.cvGroups k)).all fun i => (s1.cvLmask k).testBit i then s1.commitAt k m else s1

/-- The reports READY(m) of a group are in from every present member. -/
def allReady (s : State) (k m g : Nat) : Bool :=
  (s.members k).all fun r => (s.conv k).ready.any fun e => e.1 == r && e.2.2 == m && (!s.cvLayer k || e.2.1 == g)

/-- The manager commits what is ready, once the milestone before is applied (R395, R397, R404). -/
def commitSettle (s : State) (k : Nat) : State :=
  let c := s.conv k
  let m := s.cvCommitted k + 1
  let sent (a : State) (g : Nat) : State := a.sendAll k (a.others k) { a.cvMsg k 6 with milestone := m, group := g }
  let opened (a : State) : State :=
    a.setConv k { a.conv k with applying := true, atCommit := a.members k, applied := [], ready := (a.conv k).ready.filter fun e => m < e.2.2 }
  if !s.cvMgr k || s.cvSt k != 1 || c.applying then s
  else if s.cvLayer k then
    let gs := (List.range (s.cvGroups k)).filter fun g => !(s.cvLmask k).testBit g && s.allReady k m g
    let s1 := gs.foldl (fun a g => (sent a g).commitGroup k m g) s
    if s1.cvCommitted k == m then opened s1 else s1
  else if s.allReady k m 0 then opened ((sent s 0).commitAt k m)
  else s

/-- The manager closes the milestone's record once every member of its COMMIT that is still present has applied it
(R397, R399, R400). -/
def appliedSettle (s : State) (k : Nat) : State :=
  let c := s.conv k
  let due := c.atCommit.filter (s.members k).contains
  if s.cvMgr k && c.applying && due.all fun r => c.applied.any fun e => e.1 == r then
    let outs := (c.applied.filter fun e => due.contains e.1).map (·.2)
    let out := if outs.all (· == outs.headD 0) then outs.headD 0 else 3
    ((s.closeRecord k (s.cvCommitted k) out).setConv k { c with applying := false }).commitSettle k
  else s

/-- Milestone `m` is aborted here (R401). -/
def abortAt (s : State) (k m : Nat) : State :=
  let pg := convPg k
  let s1 := ((s.setF pg Reg.CONV_ABORTED_M m).bump pg Reg.CONV_RETRIES).raise pg 1
  s1.setConv k { s1.conv k with tries := (s1.conv k).tries + 1 }

/-- The manager aborts milestone `m` on every present member (R401). -/
def abortStep (s : State) (k m : Nat) : State :=
  let s1 := s.sendAll k (s.others k) { s.cvMsg k 8 with milestone := m }
  (s1.setConv k { s1.conv k with ready := [] }).abortAt k m

/-- A context enters HALTED (R390, R406, R409). -/
def cvHalt (s : State) (k : Nat) : State := (s.setCvSt k 3).raise (convPg k) 3

/-! ### Barriers (R393) -/

/-- A barrier releases once every present member has arrived at it, and in a federation every convoy. -/
def barrierSettle (s : State) (k : Nat) : State :=
  let c := s.conv k
  match SMap.find c.arrived (s.cvRank k) with
  | none => s
  | some b =>
    let here := (s.members k).all fun r => SMap.find c.arrived r == some b
    let gone (a : State) : State := a.setConv k { a.conv k with arrived := (a.conv k).arrived.filter fun e => e.2 != b, fwd := none }
    if !s.cvMgr k || !here then s
    else if s.fedCtx k && !s.cvTop k then
      if c.fwd == some b then s
      else ((s.sendCtl k 128 { s.cvMsg k 3 with barrier := b })).setConv k { c with fwd := some b }
    else if s.fedCtx k && !c.convoys.all (fun j => SMap.find c.arrived (128 + j) == some b) then s
    else
      let dest := s.others k ++ (if s.fedCtx k then c.convoys.map (128 + ·) else [])
      gone ((s.sendAll k dest { s.cvMsg k 4 with barrier := b }).cvTally k (s.getF (convPg k) Reg.CONV_TALLY_BAR_INDEX) b)

/-! ### Commands of software -/

/-- Every page of a range is memory of a compartment. -/
def cptRange (s : State) (c a n : Nat) : Bool := (List.range (n / 4096 + 2)).all fun i =>
  a + n ≤ (a / 4096 + i) * 4096 || s.memOwner (max a ((a / 4096 + i) * 4096)) == some c

/-- What a START names belongs to the context's compartment (R383, R385). -/
def startOk (s : State) (k : Nat) : Bool :=
  let pg := convPg k
  let c := s.cvCpt k
  let l := s.getF pg Reg.CONV_MREC_CFG_LOG2_ENTRIES
  let ts := [s.getF pg Reg.CONV_TALLY_BAR_INDEX, s.getF pg Reg.CONV_TALLY_COMMIT_INDEX]
    ++ (if s.cvLayer k then (List.range (s.cvGroups k)).map (s.getF pg Reg.CONV_TALLY_LAYER_BASE + ·) else [])
  s.getF pg Reg.CONV_CFG_ROLE != 0 && decide (4 ≤ l) && ts.all (fun t => s.tallyOwner t == some c)
    && s.cptRange c (s.memberPa k 0) 1024 && s.cptRange c (s.recordPa k 0) (32 * 2 ^ l)
    && (s.convQpns k).all fun q => bitsOf q 14 9 == 0 && s.qpKind (qpnKey q) == 0 && s.qpCpt (qpnKey q) == c

def convReject (s : State) (k : Nat) : State := s.setF (convPg k) Reg.CONV_CMD_REJECTED 1

end State

/-- START: a context begins, as manager where its role says so (R383, R408). -/
def execStart (k : Nat) (s : State) : Host.Outcome State Fault Refusal :=
  actD .N0 s fun s =>
    let pg := convPg k
    if !s.runs pg then s
    else if s.cvSt k == 0 && s.startOk k then
      let mgr := s.getF pg Reg.CONV_CFG_ROLE
      ((s.setCvSt k 1).setF pg Reg.CONV_STAT_IS_MANAGER (if 2 ≤ mgr then 1 else 0)).setConv k
        { Conv.init with since := s.base, mgr := if 2 ≤ mgr then s.cvRank k else 0 }
    else s.convReject k

/-- STOP: the context goes to IDLE (R408). -/
def execStop (k : Nat) (s : State) : Host.Outcome State Fault Refusal :=
  actD .N0 s fun s =>
    if !s.runs (convPg k) then s
    else if s.cvSt k == 0 then s.convReject k
    else ((s.setCvSt k 0).setF (convPg k) Reg.CONV_STAT_IS_MANAGER 0).setConv k Conv.init

/-- ADMIT: a module joins on the manager context, while no milestone is between COMMIT and its last APPLIED; in HALTED under
layer commits too (R392). -/
def execAdmitRank (k r : Nat) (s : State) : Host.Outcome State Fault Refusal :=
  actD .N0 s fun s =>
    let pg := convPg k
    let s1 := s.setF pg Reg.CONV_CMD_ADMIT_RANK (r % 128)
    if !s.runs pg then s
    else if s.cvMgr k && ((s.cvSt k == 1 && !(s.conv k).applying) || (s.cvSt k == 3 && s.cvLayer k)) then
      let s2 := (s1.setMember k (r % 128) true false).bumpEpoch k
      (s2.setConv k { s2.conv k with replied := SMap.put (s2.conv k).replied (r % 128) s.base }).tellEpoch k
    else s1.convReject k

/-- RESUME: a HALTED context runs again (R406). -/
def execResume (k : Nat) (s : State) : Host.Outcome State Fault Refusal :=
  actD .N0 s fun s => if !s.runs (convPg k) then s else if s.cvSt k == 3 then (s.setCvSt k 1).commitSettle k else s.convReject k

/-! ### Heartbeats and losses (R388 to R391) -/

/-- HEARTBEAT_SEND: one period is over; the manager sends HEARTBEAT to every present worker, and the top manager to the
managers of the other convoys (R388, R392). -/
def execHeartbeatSend (k : Nat) (s : State) : Host.Outcome State Fault Refusal :=
  actD .N0 s fun s =>
    let c := s.conv k
    let due := match c.hbAt with | some t => decide (t + s.cvPeriod k ≤ s.base) | none => true
    if s.runs (convPg k) && s.cvSt k != 0 && s.cvMgr k && due then
      (s.sendAll k (s.others k ++ (if s.cvTop k then c.convoys.map (128 + ·) else [])) (s.cvMsg k 1)).setConv k
        { c with hbAt := some s.base }
    else s

/-- HEARTBEAT: a member notes it and answers with HB_REPLY (R388). -/
def execHeartbeat (k : Nat) (m : Ctl) (s : State) : Host.Outcome State Fault Refusal :=
  actD .N0 s fun s =>
    let from' := s.ctlKey k m
    if s.takes k 1 m && (!s.cvMgr k || decide (128 ≤ from')) then
      let c := s.conv k
      (s.sendCtl k from' (s.cvMsg k 2)).setConv k (State.noteConvoy
        { c with heard := SMap.put c.heard from' s.base, mgr := if from' < 128 then from' else c.mgr, mgrLost := false } from')
    else s

/-- HB_REPLY: the manager notes it, with the round trip in whole microseconds (R389). -/
def execHbReply (k : Nat) (m : Ctl) (s : State) : Host.Outcome State Fault Refusal :=
  actD .N0 s fun s =>
    if s.takes k 2 m && s.cvMgr k then
      let c := s.conv k
      let f := s.ctlKey k m
      (s.setConv k (State.noteConvoy { c with replied := SMap.put c.replied f s.base } f)).raiseMax
        (convPg k) Reg.CONV_HB_RTT_MAX ((s.base - c.hbAt.getD s.base) / 1000)
    else s

/-- WORKER_LOST: no HB_REPLY has come from a member for MISS periods (R389); the step in progress is aborted, or goes on with
the survivors, or halts under layer commits (R401, R406); where the next step has reports already, it is in progress too; a barrier
goes on without the member (R393). A rank of 128 and more
is the convoy of that number less 128. -/
def execWorkerLost (k r : Nat) (s : State) : Host.Outcome State Fault Refusal :=
  actD .N0 s fun s =>
    let c := s.conv k
    let pg := convPg k
    let last := SMap.getD c.replied r c.since
    let known := if r < 128 then (s.others k).contains r else s.cvTop k && c.convoys.contains (r - 128)
    if s.runs pg && s.cvSt k != 0 && s.cvMgr k && known && decide (last + s.cvMiss k * s.cvPeriod k ≤ s.base) then
      let s1 := if r < 128 then s.setMember k r false true else s
      let s2 := ((s1.bumpEpoch k).setF pg Reg.CONV_LOST_RANK (r % 128)).raise pg 0
      let s3 := s2.setConv k { c with
        ready := c.ready.filter fun e => e.1 != r, arrived := SMap.del c.arrived r, replied := SMap.del c.replied r
        convoys := c.convoys.filter fun j => 128 + j != r }
      let m := s.cvCommitted k + 1
      let s4 := if 128 ≤ r then s3 else s3.tellEpoch k
      let s5 := if (c.applying && !c.ready.any fun e => e.2.2 == m) || s.cvSt k != 1 || decide (128 ≤ r) then s4
        else if s.cvLayer k && s.cvLmask k != 0 then s4.cvHalt k
        else s4.abortStep k m
      (s5.appliedSettle k).barrierSettle k
    else s

/-- MANAGER_LOST: no HEARTBEAT has come for MISS periods; the worker declares its manager lost, and the manager of a convoy its top
manager (R389, R392, R409). -/
def execManagerLost (k : Nat) (s : State) : Host.Outcome State Fault Refusal :=
  actD .N0 s fun s =>
    let c := s.conv k
    let lost := if s.cvMgr k then c.top else c.mgr
    let last := SMap.getD c.heard (if s.cvMgr k then 128 + c.top else c.mgr) c.since
    if s.runs (convPg k) && s.cvSt k != 0 && (!s.cvMgr k || s.cvUnder k) && !c.mgrLost
        && decide (last + s.cvMiss k * s.cvPeriod k ≤ s.base) then
      ((s.setF (convPg k) Reg.CONV_LOST_RANK lost).raise (convPg k) 0).setConv k { c with mgrLost := true }
    else s

namespace State

/-- The new manager has the majority it needs: STATE from more than half of the members of the previous epoch, itself
counted (R390). -/
def majority (c : Conv) : Bool := decide (c.prev < 2 * (c.states.length + 1))

/-- COMMIT of a milestone sent to some members, of each of its groups (R391, R404). -/
def sendCommit (s : State) (k m : Nat) (rs : List Nat) : State :=
  (if s.cvLayer k then List.range (s.cvGroups k) else [0]).foldl
    (fun a g => a.sendAll k rs { a.cvMsg k 6 with milestone := m, group := g }) s

/-- A milestone that others have committed is committed here, with each of its groups (R391, R404). -/
def catchUp (s : State) (k m : Nat) : State :=
  if m ≤ s.cvCommitted k then s
  else if s.cvLayer k then
    ((List.range (s.cvGroups k)).foldl (fun a g => a.cvTally k (s.getF (convPg k) Reg.CONV_TALLY_LAYER_BASE + g) m) s).commitAt k m
  else s.commitAt k m

/-- The new manager, of the convoy or at the top of the federation, goes on from the highest COMMITTED value (R391, R392). -/
def takeoverDone (s : State) (k : Nat) : State :=
  let c := s.conv k
  let top := (c.states.map (·.2)).foldl max (s.cvCommitted k)
  let behind := (c.states.filter fun e => e.2 < top).map (·.1)
  let s1 := s.sendCommit k top (behind ++ (if s.cvMgr k && s.cvCommitted k < top then s.others k else []))
  let s2 := s1.catchUp k top
  let s3 := ((s2.setCvSt k 1).setF (convPg k) Reg.CONV_STAT_IS_MANAGER 1).setConv k
    { s2.conv k with
      mgr := s.cvRank k, top := if s.cvMgr k then s.cvConvoy k else c.top, since := s.base, replied := [], ready := [], applying := false }
  (if s.cvMgr k then s3.sendAll k (s3.otherConvoys k) { s3.cvMsg k 8 with milestone := top + 1 } else s3).abortStep k (top + 1)

end State

/-- TAKEOVER_TIMER: a worker has heard no lower rank for its rank times MISS periods and takes over; in TAKEOVER, as long
again, it goes on with a majority or enters HALTED (R390). The manager of a convoy does so among the convoys, with its convoy's number for
rank (R392). -/
def execTakeoverTimer (k : Nat) (s : State) : Host.Outcome State Fault Refusal :=
  actD .N0 s fun s =>
    let c := s.conv k
    let pg := convPg k
    let up := s.cvMgr k
    let r := if up then s.cvConvoy k else s.cvRank k
    let wait := r * s.cvMiss k * s.cvPeriod k
    let last := (c.heard.filter fun e => if up then decide (128 ≤ e.1 ∧ e.1 < 128 + r) else decide (e.1 < r)).foldl
      (fun a e => max a e.2) c.since
    if !s.runs pg || (up && !s.cvUnder k) || r == 0 then s
    else if s.cvSt k == 1 && decide (last + wait ≤ s.base) then
      let all := if up then s.otherConvoys k else s.others k
      let s1 := (((s.setCvSt k 2).bumpEpoch k).raise pg 2).setConv k
        { c with states := [], prev := if up then all.length + 1 else (s.members k).length, takeAt := s.base, mgrLost := true }
      let s2 := (s1.sendAll k all (s1.cvMsg k 9)).sendAll k all (s1.cvMsg k 10)
      if up then s2.tellEpoch k else s2
    else if s.cvSt k == 2 && decide (c.takeAt + wait ≤ s.base) then (if State.majority c then s.takeoverDone k else s.cvHalt k)
    else s

/-- TAKEOVER: a member of the same job adopts a higher epoch and its new manager (R387, R390), and the manager of a convoy the new top
manager, whose epoch it tells its members (R392). Where the manager is a new one that is a takeover of R409. -/
def execTakeover (k : Nat) (m : Ctl) (s : State) : Host.Outcome State Fault Refusal :=
  actD .N0 s fun s =>
    let pg := convPg k
    if s.runs pg && s.cvSt k != 0 && m.kind == 9 && m.convoyId == s.getF pg Reg.CONV_ID && decide (s.cvEpoch k < m.epoch) then
      let f := s.ctlKey k m
      let c := s.conv k
      let s1 := (s.setF pg Reg.CONV_EPOCH m.epoch).setCvSt k (if s.cvSt k == 2 then 1 else s.cvSt k)
      let heard := SMap.put c.heard f s.base
      if f < 128 then
        let s2 := (s1.setF pg Reg.CONV_STAT_IS_MANAGER 0).setConv k { c with mgr := f, heard := heard, mgrLost := false }
        if c.mgr == f && !s.cvMgr k then s2 else s2.raise pg 2
      else if s.cvMgr k then
        let s2 := (s1.setConv k (State.noteConvoy { c with top := f - 128, heard := heard, mgrLost := false } f)).tellEpoch k
        if c.top == f - 128 then s2 else s2.raise pg 2
      else s
    else s

/-- QUERY: answered with STATE (R390). -/
def execQuery (k : Nat) (m : Ctl) (s : State) : Host.Outcome State Fault Refusal :=
  actD .N0 s fun s => if s.takes k 10 m then s.sendCtl k (s.ctlKey k m) (s.cvMsg k 11) else s

/-- STATE: the new manager collects it, and goes on when every present member has answered (R390, R391). -/
def execState (k : Nat) (m : Ctl) (s : State) : Host.Outcome State Fault Refusal :=
  actD .N0 s fun s =>
    if s.takes k 11 m && s.cvSt k == 2 then
      let c := s.conv k
      let s1 := s.setConv k { c with states := SMap.put c.states (s.ctlKey k m) m.committed }
      if (if s.cvMgr k then s1.otherConvoys k else s1.others k).all (fun r => (SMap.find (s1.conv k).states r).isSome) && State.majority (s1.conv k) then s1.takeoverDone k else s1
    else if s.takes k 11 m && s.cvMgr k && decide (m.committed < s.cvCommitted k) then
      s.sendCtl k (s.ctlKey k m) { s.cvMsg k 6 with milestone := s.cvCommitted k }
    else s

/-! ### Barriers (R393) -/

/-- CONV_BARRIER: software arrives at a barrier; a worker sends ARRIVE to its manager. -/
def execConvBarrier (k : Nat) (v : W32) (s : State) : Host.Outcome State Fault Refusal :=
  actD .N0 s fun s =>
    let s1 := s.setF (convPg k) Reg.CONV_BARRIER v.toNat
    if !s.runs (convPg k) || s.cvSt k == 0 then s1
    else if s.cvMgr k then
      (s1.setConv k { s1.conv k with arrived := SMap.put (s1.conv k).arrived (s.cvRank k) v.toNat }).barrierSettle k
    else s1.sendCtl k (s.conv k).mgr { s.cvMsg k 3 with barrier := v.toNat }

/-- ARRIVE: a member, or the manager of a convoy, has arrived. -/
def execArrive (k : Nat) (m : Ctl) (s : State) : Host.Outcome State Fault Refusal :=
  actD .N0 s fun s =>
    if s.takes k 3 m && s.cvMgr k then
      let c := s.conv k
      let f := s.ctlKey k m
      (s.setConv k (State.noteConvoy { c with arrived := SMap.put c.arrived f (m.barrier % 2 ^ 32) } f)).barrierSettle k
    else s

/-- RELEASE: the barrier tally is set; a convoy's manager releases its workers on the top manager's RELEASE. -/
def execRelease (k : Nat) (m : Ctl) (s : State) : Host.Outcome State Fault Refusal :=
  actD .N0 s fun s =>
    if s.takes k 4 m then
      let b := m.barrier % 2 ^ 32
      let c := s.conv k
      let s1 := if s.cvMgr k then (s.sendAll k (s.others k) { s.cvMsg k 4 with barrier := b }) else s
      (s1.cvTally k (s.getF (convPg k) Reg.CONV_TALLY_BAR_INDEX) b).setConv k
        { c with arrived := c.arrived.filter fun e => e.2 != b, fwd := none }
    else s

/-! ### Milestones (R395 to R406) -/

namespace State

/-- A report READY(m) of a group at the manager: the next milestone, or the one after it (R397). -/
def noteReady (s : State) (k r g m : Nat) : State :=
  let c := s.conv k
  if m == s.cvCommitted k + 1 || m == s.cvCommitted k + 2 then
    (s.setConv k { c with ready := (r, g, m) :: c.ready.filter fun e => e != (r, g, m) }).commitSettle k
  else s

/-- A report APPLIED(m) at the manager. -/
def noteApplied (s : State) (k r m out : Nat) : State :=
  let c := s.conv k
  if m == s.cvCommitted k && c.applying && !c.applied.any (fun e => e.1 == r) then
    (s.setConv k { c with applied := (r, out) :: c.applied }).appliedSettle k
  else s

end State

/-- CONV_READY: the high word of CONV_READY written; READY is sent (R395, R404, R408). -/
def execConvReady (k : Nat) (v : W32) (s : State) : Host.Outcome State Fault Refusal :=
  actD .N0 s fun s =>
    let pg := convPg k
    let s1 := s.setF pg Reg.CONV_READY_HI v.toNat
    let m := s.getF pg Reg.CONV_READY_LO + v.toNat <<< 32
    let g := if s.cvLayer k then s.getF pg Reg.CONV_READY_GROUP else 0
    if !s.runs pg || s.cvSt k == 0 then s1
    else
      let s2 := s1.setConv k { s1.conv k with readyM := m }
      if s.cvMgr k then s2.noteReady k (s.cvRank k) g m
      else s2.sendCtl k (s.conv k).mgr { s2.cvMsg k 5 with milestone := m, group := g }

/-- READY: a member is ready (R395, R397). -/
def execReady (k : Nat) (m : Ctl) (s : State) : Host.Outcome State Fault Refusal :=
  actD .N0 s fun s => if s.takes k 5 m && s.cvMgr k then s.noteReady k (m.sender % 128) (m.group % 64) m.milestone else s

/-- COMMIT: the milestone, or a layer group of it, is committed at a member (R395, R404); the manager of a convoy that a new top manager
finds behind commits it with its members (R391, R392). -/
def execCommit (k : Nat) (m : Ctl) (s : State) : Host.Outcome State Fault Refusal :=
  actD .N0 s fun s =>
    if s.takes k 6 m && s.cvUnder k && decide (128 ≤ s.ctlKey k m) && decide (s.cvCommitted k < m.milestone) then
      (s.sendCommit k m.milestone (s.others k)).catchUp k m.milestone
    else if s.takes k 6 m && !s.cvMgr k && decide (s.cvCommitted k < m.milestone) then
      if s.cvLayer k then s.commitGroup k m.milestone (m.group % 64) else s.commitAt k m.milestone
    else s

/-- CONV_APPLIED: the high word of CONV_APPLIED written; a worker sends APPLIED and closes its own record, the manager counts
its own report (R395, R399, R400). -/
def execConvApplied (k : Nat) (v : W32) (s : State) : Host.Outcome State Fault Refusal :=
  actD .N0 s fun s =>
    let pg := convPg k
    let s1 := s.setF pg Reg.CONV_APPLIED_HI v.toNat
    let m := s.getF pg Reg.CONV_APPLIED_LO + v.toNat <<< 32
    let out := s.getF pg Reg.CONV_APPLY_OUT
    if !s.runs pg || s.cvSt k == 0 then s1
    else if s.cvMgr k then s1.noteApplied k (s.cvRank k) m out
    else (s1.sendCtl k (s.conv k).mgr { s1.cvMsg k 7 with milestone := m, outcome := out }).closeRecord k m out

/-- APPLIED: a member has applied (R395, R397). -/
def execApplied (k : Nat) (m : Ctl) (s : State) : Host.Outcome State Fault Refusal :=
  actD .N0 s fun s => if s.takes k 7 m && s.cvMgr k then s.noteApplied k (m.sender % 128) m.milestone (m.outcome % 4) else s

/-- ABORT_STEP: the milestone is aborted at a member (R401), and in the convoy of a manager that a new top manager tells (R391, R392). -/
def execAbortStep (k : Nat) (m : Ctl) (s : State) : Host.Outcome State Fault Refusal :=
  actD .N0 s fun s =>
    if s.takes k 8 m && s.cvUnder k && decide (128 ≤ s.ctlKey k m) then s.abortStep k m.milestone
    else if s.takes k 8 m && !s.cvMgr k then s.abortAt k m.milestone
    else s

end Sys2Proof.Machine
end

