-- ==== Sys2Proof/Machine/Prep.lean ====
section
/-! DEFINITION. The preparation units (R410 to R438): sample order, position walk, decoded images, cache, geometry, colour,
output, live rings. A PREP_BATCH command brings the batch one slot further, a live slot in two steps: entry and delivery. -/

namespace Sys2Proof.Machine

/-! ### Numbers in FP32 (R426 to R429) -/

def f32 (x : Num) : Num := roundNum (fspec 9) .rne x
def sadd (x y : Num) : Num := f32 (Num.add false x y)
def ssub (x y : Num) : Num := f32 (Num.add false x y.negate)
def smul (x y : Num) : Num := f32 (Num.mul x y)
def sdiv (x y : Num) : Num := f32 (divNum x y)
def code32 (x : Num) : Nat := encodeFloat 9 x
/-- a/b in FP32. -/
def ratio32 (a b : Nat) : Num := sdiv (numOf a) (numOf b)
/-- floor of a finite number; 0 of a NaN, and a bound beyond every image of an infinity. -/
def floorNum : Num → Int
  | .nan => 0
  | .inf n => if n then -(2 ^ 20 : Int) else 2 ^ 20
  | .fin n m e => signed n m * (2 : Int) ^ e.toNat / (2 : Int) ^ (-e).toNat

/-! ### Order (R417 to R419) -/

/-- Word 0 of a draw of a job (R419). -/
def prepDraw (x : Desc) (a site b : Nat) : Nat :=
  (philox x.pjSeed (x.pbEpoch <<< 96 + (a % 2 ^ 48) <<< 48 + (site % 256) <<< 40 + b % 2 ^ 40)).1

/-- One pass of the network of R418 over `m` = 2h bits. -/
def prepPerm (x : Desc) (b h y : Nat) : Nat :=
  let r := (List.range 4).foldl (fun (lr : Nat × Nat) k => (lr.2, lr.1 ^^^ prepDraw x b (1 + k) lr.2 % 2 ^ h)) (y >>> h, y % 2 ^ h)
  r.1 <<< h + r.2

/-- Cycle walking: passes until the value is below `n`. -/
def prepWalk (x : Desc) (b h n : Nat) : Nat → Nat → Nat
  | 0, y => y
  | k + 1, y => if y < n then y else prepWalk x b h n k (prepPerm x b h y)

/-- π(p; n, b) of R418. -/
def prepPi (x : Desc) (p n b : Nat) : Nat :=
  let m0 := max 2 (clog2 n)
  let m := m0 + m0 % 2
  prepWalk x b (m / 2) n (2 ^ m) (prepPerm x b (m / 2) p)

/-- The dataset index at a position (R417). -/
def prepOrder (x : Desc) (p : Nat) : Nat :=
  match x.pjOrder with
  | 0 => p
  | 1 => prepPi x p x.pjCount 0
  | _ =>
    let j := p / x.pjBlock
    j * x.pjBlock + prepPi x (p - j * x.pjBlock) (min x.pjBlock (x.pjCount - j * x.pjBlock)) j

/-! ### Decoded images (R412, R425) -/

/-- A decoded image: width, height, bits of a component (8 or 16 as cached), planes in raster order. -/
structure Img where
  w : Nat
  h : Nat
  bits : Nat
  planes : List (List Nat)
  deriving DecidableEq, Repr

/-- cos(i·π/16), i up to 8, times 2^40, rounded to nearest even (R425). -/
def cosTab : List Nat :=
  [1099511627776, 1078384820155, 1015816288660, 914210506869, 777472127994, 610855931251, 420764883643, 214504077523, 0]

/-- cos(i·π/16) · 2^40 for any i. -/
def cosFix (i : Nat) : Int :=
  let j := i % 32
  let k := if 16 < j then 32 - j else j
  if k ≤ 8 then (cosTab.getD k 0 : Int) else -(cosTab.getD (16 - k) 0 : Int)

/-- The constant of coefficient `u` at sample `i` of an inverse transform of `m` = 8 / 2^s points; C(0) is cos(π/4). -/
def idctK (m u i : Nat) : Int := if u == 0 then cosFix 4 else cosFix ((2 * i + 1) * u * (8 / m))

/-- A rational rounded once to an integer, ties to even: n / 2^k. -/
def roundRne (n : Int) (k : Nat) : Int :=
  let q := n >>> k
  let r := n - q <<< k
  if (2 : Int) ^ k < 2 * r || (2 * r == (2 : Int) ^ k && q % 2 == 1) then q + 1 else q

/-- The `m` × `m` samples of a block: both passes exact, one rounding, shifted by 128 and clamped (R425). -/
def idctBlock (m : Nat) (cs : List Int) : List Nat :=
  (List.range (m * m)).map fun p =>
    let y := p / m
    let i := p % m
    let total := (List.range m).foldl (fun a v =>
      a + idctK m v y * (List.range m).foldl (fun b u => b + idctK m u i * cs.getD (8 * v + u) 0) 0) (0 : Int)
    let v := roundRne total 82 + 128
    if v < 0 then 0 else if 255 < v then 255 else v.toNat

/-- One sample of a plane brought to full size along one direction: weights 3/4 and 1/4, as the sum of the weighted samples
times 4 (R425). Sample `i` of the full size lies nearest to `i / 2`. -/
def upNear (i n : Nat) : List (Nat × Nat) :=
  let c := i / 2
  let o : Nat := if i % 2 == 0 then c - 1 else min (c + 1) (n - 1)
  [(3, min c (n - 1)), (1, o)]

/-- A subsampled plane of `cw` × `ch` at `w` × `h`, by its factors 1 or 2 (R425). -/
def upPlane (cw ch w h fx fy : Nat) (p : List Nat) : List Nat :=
  (List.range (w * h)).map fun q =>
    let xs := if fx == 2 then upNear (q % w) cw else [(1, min (q % w) (cw - 1))]
    let ys := if fy == 2 then upNear (q / w) ch else [(1, min (q / w) (ch - 1))]
    let total := (ys.flatMap fun y => xs.map fun x => y.1 * x.1 * p.getD (y.2 * cw + x.2) 0).foldl (· + ·) 0
    let k := (if fx == 2 then 2 else 0) + (if fy == 2 then 2 else 0)
    if k == 0 then total else (total + 2 ^ (k - 1)) >>> k

/-- The image of a JPEG record at SCALE_LOG2 `s`: blocks transformed, chroma brought to full size. -/
def jpegImage (s w h : Nat) (comps : List (Nat × Nat × List (List Int))) : Img :=
  let m := 8 >>> s
  let hmax := (comps.map (·.1)).foldl max 1
  let vmax := (comps.map (·.2.1)).foldl max 1
  let w' := ceilDiv w (2 ^ s)
  let h' := ceilDiv h (2 ^ s)
  let plane (c : Nat × Nat × List (List Int)) : List Nat :=
    let fx := hmax / max 1 c.1
    let fy := vmax / max 1 c.2.1
    let cw := ceilDiv w' fx
    let ch := ceilDiv h' fy
    let perRow := ceilDiv (ceilDiv w fx) 8
    let blocks := c.2.2.map (idctBlock m)
    let small := (List.range (cw * ch)).map fun q =>
      ((blocks.getD (q / cw / m * perRow + q % cw / m) []).getD (q / cw % m * m + q % cw % m) 0)
    upPlane cw ch w' h' fx fy small
  ⟨w', h', 8, comps.map plane⟩

/-- Bits that a component's values span: a video frame of more than 8 bits has 10 (R412). -/
def valueBits (x : Desc) (i : Img) : Nat := if i.bits == 8 then 8 else if 2 ≤ x.pjCodec then 10 else 16

/-- The decode of a record: an image, or the reason of a skip, which is 1 to 5 or 8 (R412, R422, R428). -/
def decodeRecord (x : Desc) (frame : Nat) (bs : Bytes) : Nat × Img :=
  let none' : Img := ⟨0, 0, 8, []⟩
  let why (r : Nat) : Nat := if r == 8 || r ≤ 5 then r else 2
  let sized (r lo hi w h : Nat) (i : Img) : Nat × Img :=
    if r != 0 then (why r, none')
    else if w < lo || hi < w || h < lo || hi < h then (4, none')
    else if i.w < 8 || i.h < 8 then (4, none')
    else if x.pjCache && decide (x.pjSlotBytes < 64 + i.w * i.h * i.planes.length * (i.bits / 8)) then (4, none')
    else (0, i)
  match x.pjCodec with
  | 0 =>
    let r := Config.jpeg bs
    let odd := !(r.2.2.2.length == 1 || r.2.2.2.length == 3) || r.2.2.2.any fun k => k.1 == 0 || 2 < k.1 || k.2.1 == 0 || 2 < k.2.1
    sized (if r.1 == 0 && odd then 3 else r.1) 8 16384 r.2.1 r.2.2.1 (jpegImage x.pjScale r.2.1 r.2.2.1 r.2.2.2)
  | 1 =>
    let r := Config.png bs
    sized r.1 8 8192 r.2.1 r.2.2.1 ⟨r.2.1, r.2.2.1, r.2.2.2.1, r.2.2.2.2⟩
  | c =>
    let r := Config.video c frame bs
    let w := r.2.1
    let h := r.2.2.1
    let up (p : List Nat) : List Nat := upPlane (ceilDiv w 2) (ceilDiv h 2) w h 2 2 p
    let ps := r.2.2.2.2
    sized r.1 64 4096 w h ⟨w, h, if r.2.2.2.1 == 8 then 8 else 16, [ps.getD 0 [], up (ps.getD 1 []), up (ps.getD 2 [])]⟩

/-! ### Geometry, colour, output (R426 to R430) -/

/-- A sample of a plane, the nearest edge pixel outside the image, in FP32. -/
def pixel (i : Img) (p : List Nat) (bits : Nat) (x y : Int) : Num :=
  let cl (v : Int) (n : Nat) : Nat := min v.toNat (n - 1)
  sdiv (numOf (p.getD (cl y i.h * i.w + cl x i.w) 0)) (numOf ((2 : Int) ^ bits - 1))

/-- Bilinear interpolation of four corners: the corner itself on a grid point, else the open function of Config. -/
def bilinear (fx fy : Num) (vs : List Num) : Num :=
  if fx.isZero && fy.isZero then vs.getD 0 .nan
  else decodeElem 9 (Config.bilinear (code32 fx) (code32 fy) (vs.map code32) % 2 ^ 32)

/-- The augmentation of a sample: crop, flip, jitter (R426). -/
structure Aug where
  cw : Nat
  ch : Nat
  x0 : Int
  y0 : Int
  flip : Bool
  beta : Num
  gamma : Num
  sigma : Num
  deriving DecidableEq, Repr

/-- The draws of dataset index `a` for an image (R419, R426). -/
def augOf (x : Desc) (a : Nat) (i : Img) : Aug :=
  let r (d : Nat) : Nat := prepDraw x a (0x10 + d) 0
  let u (d : Nat) : Num := .fin false (r d) (-32)
  let f := sadd (x.pjF 88) (smul (ssub (x.pjF 92) (x.pjF 88)) (u 0))
  let cw := max 1 (floorNum (smul (numOf i.w) f)).toNat
  let ch := max 1 (floorNum (smul (numOf i.h) f)).toNat
  let place (d n c : Nat) : Int := floorNum (smul (u d) (sadd (ssub (numOf n) (numOf c)) (numOf 1)))
  let jit (b d : Nat) : Num := sadd (numOf 1) (smul (x.pjF b) (ssub (smul (numOf 2) (u d)) (numOf 1)))
  ⟨cw, ch, place 1 i.w cw, place 2 i.h ch, x.pjFlip && decide (r 3 < 2 ^ 31), jit 96 4, jit 100 5, jit 104 6⟩

/-- The lens model (R427 step 4). -/
def lens (x : Desc) (p : Num × Num) : Num × Num :=
  let f (b : Nat) : Num := x.pjF b
  let two := numOf 2
  let a := sdiv (ssub p.1 (f 140)) (f 132)
  let b := sdiv (ssub p.2 (f 144)) (f 136)
  let a2 := smul a a
  let b2 := smul b b
  let r2 := sadd a2 b2
  let r4 := smul r2 r2
  let r6 := smul r4 r2
  let rad := sadd (sadd (sadd (numOf 1) (smul (f 148) r2)) (smul (f 152) r4)) (smul (f 156) r6)
  let xd := sadd (sadd (smul a rad) (smul (smul (smul two (f 160)) a) b)) (smul (f 164) (sadd r2 (smul two a2)))
  let yd := sadd (sadd (smul b rad) (smul (f 160) (sadd r2 (smul two b2)))) (smul (smul (smul two (f 164)) a) b)
  (sadd (smul (f 132) xd) (f 140), sadd (smul (f 136) yd) (f 144))

/-- The mesh moves a point by the offsets of the four nodes around it (R427 step 3); `node a b` holds two FP32 codes. -/
def meshMove (x : Desc) (i : Img) (node : Nat → Nat → Nat × Nat) (p : Num × Num) : Num × Num :=
  let cell (v : Num) (n size : Nat) : Nat × Num :=
    let g := sdiv (smul v (numOf ((n : Int) - 1))) (numOf size)
    let k := min (floorNum g).toNat (n - 2)
    (k, ssub g (numOf k))
  let cx := cell p.1 x.pjMeshX i.w
  let cy := cell p.2 x.pjMeshY i.h
  let ns := [node cx.1 cy.1, node (cx.1 + 1) cy.1, node cx.1 (cy.1 + 1), node (cx.1 + 1) (cy.1 + 1)]
  (sadd p.1 (bilinear cx.2 cy.2 (ns.map fun n => decodeElem 9 n.1)), sadd p.2 (bilinear cx.2 cy.2 (ns.map fun n => decodeElem 9 n.2)))

/-- The three channels of output pixel (i, j) of a sample (R427 to R429). -/
def outPixel (x : Desc) (im : Img) (g : Aug) (node : Nat → Nat → Nat × Nat) (i j : Nat) : List Num :=
  let half := Num.fin false 1 (-1)
  let u0 := sdiv (sadd (numOf j) half) (numOf x.pjW)
  let u := if g.flip then ssub (numOf 1) u0 else u0
  let v := sdiv (sadd (numOf i) half) (numOf x.pjH)
  let p0 := (sadd (numOf g.x0) (smul u (numOf g.cw)), sadd (numOf g.y0) (smul v (numOf g.ch)))
  let p1 := if x.pjMesh then meshMove x im node p0 else p0
  let p2 := if x.pjLens then lens x p1 else p1
  let px := ssub p2.1 half
  let py := ssub p2.2 half
  let fx := floorNum px
  let fy := floorNum py
  let frac (a : Num) (k : Int) : Num := if a.isFin then ssub a (numOf k) else numOf 0
  let bits := valueBits x im
  let at' (p : List Nat) : Num := bilinear (frac px fx) (frac py fy)
    [pixel im p bits fx fy, pixel im p bits (fx + 1) fy, pixel im p bits fx (fy + 1), pixel im p bits (fx + 1) (fy + 1)]
  let cs := im.planes.map at'
  let rgb := match cs with
    | [a, b, c] =>
      if x.pjCodec == 1 then [a, b, c]
      else
        let t := Config.toRgb (if x.pjCodec == 0 then 0 else x.pjMatrix) (code32 a, code32 b, code32 c)
        [t.1, t.2.1, t.2.2].map fun k => decodeElem 9 (k % 2 ^ 32)
    | a :: _ => [a, a, a]
    | [] => [.nan, .nan, .nan]
  let lit := if x.pjJitter then
      let c1 := rgb.map fun c => smul g.beta c
      let c2 := c1.map fun c => sadd (smul (ssub c half) g.gamma) half
      let y := sadd (sadd (smul (ratio32 299 1000) (c2.getD 0 .nan)) (smul (ratio32 587 1000) (c2.getD 1 .nan)))
        (smul (ratio32 114 1000) (c2.getD 2 .nan))
      c2.map fun c => sadd y (smul g.sigma (ssub c y))
    else rgb
  lit.zipIdx.map fun p => smul (ssub p.1 (x.pjF (108 + 4 * p.2))) (x.pjF (120 + 4 * p.2))

namespace State

/-! ### Units and their reads (R410, R415) -/

/-- The page of preparation unit 0 to 3: N0's two, then N1's. -/
def prepPg (u : Nat) : Page := ⟨netDie (u / 2), .prep, u % 2⟩

/-- The running PREP_BATCH descriptors that a unit has, queued or begun. -/
def prepJobs (s : State) (u : Nat) : List Desc :=
  (s.streams.flatMap fun e => e.2.fetched).filter fun x => x.phase == .running && x.op == 0x30 && x.aux.head? == some (u + 1)

/-- The unit with the fewest queued descriptors, the first of equals, among those not marked unusable (R410, R628). -/
def prepPick (s : State) : Nat :=
  match (List.range 4).filter fun u => s.getF (prepPg u) Reg.PAGE_STAT_UNUSABLE == 0 with
  | [] => 0
  | k :: ks => ks.foldl (fun b u => if (s.prepJobs u).length < (s.prepJobs b).length then u else b) k

/-- How a read of the unit outside the footprint fares. -/
inductive PRead where
  | ok (pins : SMap Nat)
  | refused
  | uncorr
  | absent (lots : List Nat)
  deriving DecidableEq, Repr

/-- Ranges outside the footprint, by address and length, translated for the stream, and readable (R415, R423). -/
def prepXlates (s : State) (d : Die) (n : Nat) (rs : List (Nat × Nat)) (wr : Bool) : PRead × State :=
  let c := s.ctxCpt d n
  match xlatePages d c (s.ctxRoot d n) (fun t pa => t.pageReach c (dieCode d) (s.ctxEngine d n) (s.ctxFill d n) pa)
      (footPages (rs.flatMap fun r => ⟨r.1, r.2, false⟩ :: (if wr then [⟨r.1, r.2, true⟩] else []))) [] s with
  | (.ok pins, s1) =>
    let lots := (rs.flatMap fun r => lotsV pins r.1 r.2).eraseDups
    let ls := if wr then s1.blockedLots lots else s1.absentLots lots
    if !ls.isEmpty then (.absent ls, s1) else if rs.any fun r => s1.badV pins r.1 r.2 then (.uncorr, s1) else (.ok pins, s1)
  | (.absent l, s1) => (.absent [l], s1)
  | (.fault _, s1) => (.refused, s1)
  | (.uncorr _ a, s1) => (.uncorr, s1.reportUncorr (.stream d n) a 0)

/-- One range of R415. -/
def prepXlate (s : State) (d : Die) (n va len : Nat) (wr : Bool) : PRead × State := s.prepXlates d n [(va, len)] wr

/-- What came of a record: an image with its capture time; a skip with its reason; an uncorrectable read; lots to wait for. -/
inductive Got where
  | image (i : Img)
  | skip (reason : Nat)
  | uncorr
  | wait (lots : List Nat)
  deriving DecidableEq, Repr

/-! ### Cache (R431 to R433) -/

/-- The key of a sample: dataset, index, and the decode word's 48 bits that are not always 0 (DESIGN CHOICE,
notes/assumptions/49.md). -/
def cacheKey (x : Desc) (idx frame : Nat) : Bytes :=
  leBytes (x.pjDataset + (idx % 2 ^ 48) <<< 32 + x.pjCodec <<< 80 + x.pjScale <<< 84
    + (if 2 ≤ x.pjCodec then frame else 0) <<< 96) 16

def cacheVa (x : Desc) (key : Bytes) : Nat := x.pjCacheAddr + crc32c key % x.pjCacheSlots * x.pjSlotBytes

/-- The payload of an image: its planes one after the other, each sample in 1 or 2 bytes. -/
def imgBytes (i : Img) : Bytes := i.planes.flatMap fun p => p.flatMap fun v => leBytes v (i.bits / 8)

/-- The slot of a key looked up: an image on a hit; the counters of the page follow. -/
def cacheGet (s : State) (d : Die) (n u : Nat) (x : Desc) (key : Bytes) : Option Img × State :=
  let pg := prepPg u
  let va := cacheVa x key
  let miss (t : State) : Option Img × State := (none, t.bump pg Reg.PREP_CACHE_MISSES)
  match s.prepXlate d n va 64 false with
  | (.ok pins, s1) =>
    let h := s1.rdVNat pins va 64
    if leBytes h 16 != key then miss s1
    else
      let w := bitsOf h 128 16
      let hh := bitsOf h 144 16
      let np := bitsOf h 160 4
      let bits := if bitsOf h 164 4 == 8 then 8 else 16
      let len := bitsOf h 192 32
      match s1.prepXlate d n (va + 64) len false with
      | (.ok p2, s2) =>
        let bs := s2.rdV p2 (va + 64) len
        if crc32c bs != bitsOf h 224 32 || len != w * hh * np * (bits / 8) then miss (s2.bump pg Reg.PREP_CACHE_BADCRC)
        else
          let cs := codesAt (leNat bs) bits 0 (w * hh * np)
          (some ⟨w, hh, bits, (List.range np).map fun k => (cs.drop (k * w * hh)).take (w * hh)⟩, s2.bump pg Reg.PREP_CACHE_HITS)
      | (_, s2) => miss (s2.bump pg Reg.PREP_CACHE_BADCRC)
  | (.uncorr, s1) => miss (s1.bump pg Reg.PREP_CACHE_BADCRC)
  | (_, s1) => miss s1

/-- The slot of a key written after a miss: payload and header (R431). -/
def cachePut (s : State) (d : Die) (n : Nat) (x : Desc) (key : Bytes) (i : Img) : State :=
  let va := cacheVa x key
  let body := imgBytes i
  let head := key ++ leBytes (i.w + i.h <<< 16 + i.planes.length <<< 32 + (if i.bits == 8 then 8 else 0) <<< 36) 8
    ++ leBytes body.length 4 ++ leBytes (crc32c body) 4 ++ List.replicate 32 0
  match xlatePages d (s.ctxCpt d n) (s.ctxRoot d n)
      (fun t pa => t.pageReach (s.ctxCpt d n) (dieCode d) (s.ctxEngine d n) (s.ctxFill d n) pa)
      (footPages [⟨va, 64 + body.length, true⟩]) [] s with
  | (.ok pins, s1) => s1.wrV pins va (head ++ body)
  | (_, s1) => s1

/-- The lots of a cache slot for which its use waits (R228, R234, R433). -/
def cacheAbsent (s : State) (d : Die) (n : Nat) (x : Desc) (key : Bytes) : List Nat :=
  match s.prepXlate d n (cacheVa x key) x.pjSlotBytes true with
  | (.absent ls, _) => ls
  | _ => []

/-! ### Records (R416 to R424) -/

/-- The record at position `p` read and decoded (R416, R421, R422). -/
def prepRecord (s : State) (d : Die) (n u : Nat) (x : Desc) (p : Nat) : Got × State :=
  let idx := prepOrder x p
  match s.prepXlate d n (x.pjRecords + 16 * idx) 16 false with
  | (.absent ls, s1) => (.wait ls, s1)
  | (.uncorr, s1) => (.uncorr, s1)
  | (.refused, s1) => (.skip 6, s1)
  | (.ok pins, s1) =>
    let e := s1.rdVNat pins (x.pjRecords + 16 * idx) 16
    let va := bitsOf e 0 57
    let len := bitsOf e 64 32
    let frame := bitsOf e 96 32
    let key := cacheKey x idx frame
    if len == 0 then (.skip 1, s1)
    else
      let wait := if x.pjCache then s1.cacheAbsent d n x key else []
      if !wait.isEmpty then (.wait wait, s1)
      else
        let c := if x.pjCache then s1.cacheGet d n u x key else (none, s1)
        match c.1 with
        | some i => (.image i, c.2)
        | none =>
          match c.2.prepXlate d n va len false with
          | (.absent ls, s2) => (.wait ls, s2)
          | (.uncorr, s2) => (.uncorr, s2)
          | (.refused, s2) => (.skip 6, s2)
          | (.ok pr, s2) =>
            let r := decodeRecord x frame (s2.rdV pr va len)
            if r.1 != 0 then (.skip r.1, s2)
            else (.image r.2, if x.pjCache then s2.cachePut d n x key r.2 else s2)

/-- The position walk of R421 from the slot's own position: what it ends with, the reason of the first skip and the positions
walked. -/
def prepTry (d : Die) (n u : Nat) (x : Desc) (p0 : Nat) : Nat → Nat → Nat → State → (Got × Nat × Nat) × State
  | 0, k, first, s => ((.skip 0, first, k - 1), s)
  | m + 1, k, first, s =>
    match s.prepRecord d n u x ((p0 + k) % x.pjCount) with
    | (.skip r, s1) =>
      prepTry d n u x p0 m (k + 1) (if k == 0 then r else first)
        (s1.setF (prepPg u) ⟨0x48 + 4 * r, 0, 32⟩ (min (s1.getF (prepPg u) ⟨0x48 + 4 * r, 0, 32⟩ + 1) (2 ^ 32 - 1)))
    | (g, s1) => ((g, first, k), s1)

/-- The information entry of a slot (R424). -/
def prepInfo (s : State) (x : Desc) (slot idx reason walked capture : Nat) : State :=
  s.wrV x.pins (x.pjInfo + 16 * slot) (leBytes (idx + reason <<< 48 + walked <<< 56 + (capture % 2 ^ 64) <<< 64) 16)

/-- A row of output elements written, with its scales (R430). -/
def prepRow (s : State) (x : Desc) (slot i : Nat) (vs : List Num) : State :=
  let c := x.fmt 0
  let row := x.addr 24 + slot * x.pjSampleStride + i * x.pjOutStride
  if isMx c then
    let gs := (List.range (ceilDiv vs.length 32)).map fun k => mxGroup c (((vs.drop (32 * k)).take 32).map fun v => (v, RMode.rne))
    (s.putElems x.pins row (fmtBits c) 0 (gs.flatMap (·.2))).wrV x.pins (x.pjScaleAddr + (slot * x.pjH + i) * x.pjScaleStride)
      (gs.flatMap fun g => leBytes g.1 1)
  else s.putElems x.pins row (fmtBits c) 0 (vs.map fun v => (roundElem c .rne v).1)

/-- A slot written as +0 in every element. -/
def prepZero (s : State) (x : Desc) (slot : Nat) : State :=
  (List.range x.pjH).foldl (fun a i => a.prepRow x slot i (List.replicate (3 * x.pjW) (.fin false 0 0))) s

/-- The offsets of a mesh node. -/
def meshNode (s : State) (x : Desc) (pins : SMap Nat) (a b : Nat) : Nat × Nat :=
  let v := s.rdVNat pins (x.pjMeshAddr + 8 * (b * x.pjMeshX + a)) 8
  (bitsOf v 0 32, bitsOf v 32 32)

/-- A slot written from an image, under the augmentation of index `a`. -/
def prepImage (s : State) (x : Desc) (slot a : Nat) (i : Img) (pins : SMap Nat) : State :=
  let g := augOf x a i
  (List.range x.pjH).foldl (fun t r =>
    t.prepRow x slot r ((List.range x.pjW).flatMap fun c => outPixel x i g (s.meshNode x pins) r c)) s

/-- The unit ends its descriptor, which PREP_DONE counts (R437). -/
def prepEnd (s : State) (d : Die) (n q u st : Nat) (pos : Nat := posNone) : State :=
  (s.bump (prepPg u) Reg.PREP_DONE).finish d n q st pos

/-- A slot of the batch is done: the counters move and the next slot follows, or the descriptor ends. -/
def prepNext (s : State) (d : Die) (n q u slot : Nat) (x : Desc) : State :=
  let pg := prepPg u
  let pix := s.getF pg Reg.PREP_OUT_PIXELS_LO + s.getF pg Reg.PREP_OUT_PIXELS_HI <<< 32 + x.pjW * x.pjH
  let s1 := ((s.bump pg Reg.PREP_SAMPLES).setF pg Reg.PREP_OUT_PIXELS_LO pix).setF pg Reg.PREP_OUT_PIXELS_HI (pix >>> 32)
  if slot + 1 == x.pbSamples then s1.prepEnd d n q u stOk
  else s1.updDesc d n q fun y => { y with aux := [u + 1, 1, slot + 1, 0, 0] }

/-- The mesh translated for the batch (R415); `none` where nothing is to be read. -/
def prepMesh (s : State) (d : Die) (n : Nat) (x : Desc) : PRead × State :=
  if x.pjMesh then s.prepXlate d n x.pjMeshAddr (8 * x.pjMeshX * x.pjMeshY) false else (.ok [], s)

/-- One slot of a batch of stored records (R421 to R424). A mesh that does not translate ends the batch with
XLATE_FAULT (DEDUCED, notes/assumptions/50.md). -/
def prepStored (s : State) (d : Die) (n q u slot : Nat) (x : Desc) : State :=
  match s.prepMesh d n x with
  | (.absent ls, s1) => s1.pageInAll ls
  | (.uncorr, s1) => s1.prepEnd d n q u stUncorr slot
  | (.refused, s1) => s1.prepEnd d n q u stXlateFault (x.pjMeshAddr / 4096)
  | (.ok pins, s1) =>
    match prepTry d n u x (x.pbFirst + slot) 64 0 0 s1 with
    | ((.wait ls, _), _) => s1.pageInAll ls
    | ((.uncorr, _), s2) => s2.prepEnd d n q u stUncorr slot
    | ((.skip _, first, walked), s2) =>
      ((((s2.prepZero x slot).prepInfo x slot 0xFFFFFFFFFFFF first walked 0).bump (prepPg u) Reg.PREP_WALK_FAILS).raise
        (prepPg u) 0).prepNext d n q u slot x
    | ((.image i, first, walked), s2) =>
      let idx := prepOrder x ((x.pbFirst + slot + walked) % x.pjCount)
      ((s2.prepImage x slot idx i pins).prepInfo x slot idx first walked 0).prepNext d n q u slot x

/-! ### Live rings (R434, R435) -/

/-- The address of slot `k` of a camera. -/
def liveVa (x : Desc) (cam k : Nat) : Nat := x.pjRecords + (cam * x.pjLiveSlots + k) * x.pjLiveBytes

/-- VALID of a live slot cleared. -/
def clearValid (s : State) (x : Desc) (pins : SMap Nat) (cam k : Nat) : State :=
  let a := liveVa x cam k + 16
  s.wrV pins a (leBytes (putBits (s.rdVNat pins a 1) 0 1 0) 1)

/-- The age of a frame in ns by module time, 0 for one captured later. -/
def liveAge (s : State) (capture : Nat) : Nat := s.timeNs - capture

/-- A live slot that receives no frame: +0 in every element. -/
def liveFail (s : State) (d : Die) (n q u slot cam reason capture : Nat) (x : Desc) : State :=
  let f : Fld := ⟨0x48 + 4 * reason, 0, 32⟩
  ((((s.bump (prepPg u) f).prepZero x slot).prepInfo x slot cam reason 0 capture)).prepNext d n q u slot x

/-- The first step of a live slot: the headers of the camera's slots are read, the newest valid frame is taken, older ones are superseded,
a stale one is dropped. -/
def liveEntry (s : State) (d : Die) (n q u slot : Nat) (x : Desc) : State :=
  let cam := x.pbFirst + slot
  let pg := prepPg u
  match s.prepXlates d n ((List.range x.pjLiveSlots).map fun k => (liveVa x cam k, 64)) true with
  | (.absent ls, s1) => s1.pageInAll ls
  | (.uncorr, s1) => s1.prepEnd d n q u stUncorr slot
  | (.refused, s1) => s1.liveFail d n q u slot cam 6 0 x
  | (.ok pins, s1) =>
    let capture (k : Nat) : Nat := s1.rdVNat pins (liveVa x cam k) 8
    let valid := (List.range x.pjLiveSlots).filter fun k => (s1.rdVNat pins (liveVa x cam k + 16) 1).testBit 0
    match valid with
    | [] => s1.liveFail d n q u slot cam 1 0 x
    | k0 :: _ =>
      let best := valid.foldl (fun b k => if capture b < capture k then k else b) k0
      let s2 := (valid.filter (· != best)).foldl (fun a k => (a.clearValid x pins cam k).bump pg Reg.PREP_SUPERSEDED) s1
      if x.pjStale < s.liveAge (capture best) then
        (((s2.clearValid x pins cam best).bump pg Reg.PREP_STALE_ENTRY).raise pg 1).liveFail d n q u slot cam 7 (capture best) x
      else s2.updDesc d n q fun y => { y with aux := [u + 1, 1, slot, 1, best] }

/-- The second step: the frame is decoded and written, or dropped when it is stale by now. -/
def liveDeliver (s : State) (d : Die) (n q u slot k : Nat) (x : Desc) : State :=
  let cam := x.pbFirst + slot
  let pg := prepPg u
  match s.prepMesh d n x, s.prepXlate d n (liveVa x cam k) x.pjLiveBytes true with
  | (.absent ls, s1), _ => s1.pageInAll ls
  | (.uncorr, s1), _ => s1.prepEnd d n q u stUncorr slot
  | (.refused, s1), _ => s1.prepEnd d n q u stXlateFault (x.pjMeshAddr / 4096)
  | (.ok _, _), (.absent ls, s1) => s1.pageInAll ls
  | (.ok _, _), (.uncorr, s1) => s1.prepEnd d n q u stUncorr slot
  | (.ok _, _), (.refused, s1) => s1.liveFail d n q u slot cam 6 0 x
  | (.ok mesh, _), (.ok pins, s1) =>
    let h := s1.rdVNat pins (liveVa x cam k) 64
    let cap := bitsOf h 0 64
    let len := bitsOf h 64 32
    let s2 := s1.clearValid x pins cam k
    if x.pjLiveBytes - 64 < len || len == 0 then s2.liveFail d n q u slot cam 1 cap x
    else
      let r := decodeRecord x 0 (s1.rdV pins (liveVa x cam k + 64) len)
      if r.1 != 0 then s2.liveFail d n q u slot cam r.1 cap x
      else if x.pjStale < s.liveAge cap then
        ((s2.bump pg Reg.PREP_STALE_DELIVERY).raise pg 1).liveFail d n q u slot cam 7 cap x
      else
        (((s2.prepImage x slot (cam * 2 ^ 32 + bitsOf h 96 32) r.2 mesh).prepInfo x slot cam 0 0 cap).raiseMax pg
          Reg.PREP_LIVE_AGE_MAX (s.liveAge cap / 1000)).prepNext d n q u slot x

end State

/-- PREP_BATCH: the descriptor is given to a unit, and the unit brings it one slot further, a live slot one step (R410, R421,
R435). -/
def execPrepBatch (d : Die) (n q : Nat) (s : State) : Host.Outcome State Fault Refusal :=
  actD d s fun s => s.withRunning d n q 0x30 fun x =>
    match x.aux with
    | [] => let u := s.prepPick; if s.runs (State.prepPg u) then s.updDesc d n q fun y => { y with aux := [u + 1] } else s
    | u1 :: t =>
      let u := u1 - 1
      if !s.runs (State.prepPg u) then s
      else
        match t with
        | [] =>
          if (s.prepJobs u).any fun y => 1 < y.aux.length then s
          else s.updDesc d n q fun y => { y with aux := [u + 1, 1, 0, 0, 0] }
        | _ =>
          let slot := t.getD 1 0
          if x.pjSource == 0 then s.prepStored d n q u slot x
          else if t.getD 2 0 == 0 then s.liveEntry d n q u slot x
          else s.liveDeliver d n q u slot (t.getD 3 0) x

end Sys2Proof.Machine
end

