-- ==== Sys2Proof/Machine/Coherent.lean ====
section
/-! DEFINITION. Range invalidations (R446 to R448), the coherence of host caches (R450 to R458), and the MSI router (R459 to
R463). -/

namespace Sys2Proof.Machine

/-! ### Range invalidations -/

namespace State

/-- The page lies in the range of an invalidation. -/
def Inv.covers (v : Inv) (page : Nat) : Bool := v.pages == 0 || (decide (v.page ≤ page) && decide (page < v.page + v.pages))

/-- The fetched descriptors of a die that hold a translation of the range: streams, lowest first (R447, R448). -/
def invStreams (s : State) (v : Inv) (g : Die) : List Nat :=
  (s.streams.filter fun e => e.1 >>> 14 == dieCode g
      && (v.asid.isNone || v.asid == some (s.ctx g (e.1 % 2 ^ 14) 16 44 16))
      && e.2.fetched.any fun x => x.pins.any fun p => Inv.covers v p.1).map fun e => e.1 % 2 ^ 14

/-- The addresses of an inbound request that waits at a queue pair, with the ASID of its region's table. -/
def inboundOf (s : State) : Stalled → Option (Nat × Nat × Nat × Nat)
  | .rdmaWrite k pk => some (k, s.mrF (k >>> 14) (pk.rkey % 2 ^ 16) 16 44 16, pk.va, pk.payload.length)
  | .rdmaRead k pk => some (k, s.mrF (k >>> 14) (pk.rkey % 2 ^ 16) 16 44 16, pk.va, pk.len)
  | _ => none

/-- The queue pairs of a network die with an NVMe transfer or an inbound request of the range in flight. -/
def invQps (s : State) (v : Inv) (g : Die) : List Nat :=
  if !isNet g then []
  else
    let waits (k : Nat) : Bool := s.place.stalls.any fun w =>
      match s.inboundOf w with
      | some (q, asid, va, len) => q == k && (v.asid.isNone || v.asid == some asid) && (VRange.pages ⟨va, len, true⟩).any (Inv.covers v)
      | none => false
    (s.qps.filter fun e => e.1 >>> 14 == netNo g && (((v.asid.isNone || v.asid == some (s.qpF e.1 40 44 16))
        && e.2.cmds.any fun c => c.len != 0 && (VRange.pages ⟨c.va, c.len, true⟩).any (Inv.covers v)) || waits e.1)).map
      fun e => e.1 % 2 ^ 14

/-- What a walker's cache holds that an invalidation names: leaves of the range, and every entry above them of its ASIDs (R447). -/
def Inv.drops (v : Inv) (e : WalkEntry) : Bool :=
  (v.asid.isNone || v.asid == some (e.root >>> 44))
    && (bitsOf e.pte 1 3 == 0 || v.pages == 0
      || (decide (v.page < (e.va + 1) <<< (9 * e.level)) && decide (e.va <<< (9 * e.level) < v.page + v.pages)))

/-- XLT_INV_HOLDER of a page: the first holder of a die that has not acknowledged (R448, R464). -/
def invHolder (s : State) (d : Die) : Nat :=
  match SMap.find s.invs (dieCode d) with
  | none => 0
  | some v =>
    let one (g : Nat) : Option Nat :=
      match s.invStreams v (dieOf g), s.invQps v (dieOf g) with
      | n :: _, _ => some (n + g <<< 14 + 1 <<< 23)
      | [], i :: _ => some (i + g <<< 14 + 1 <<< 22 + 1 <<< 23)
      | [], [] => none
    (v.waiting.findSome? one).getD 0

end State

/-- The dies with translating agents (R446, R464). -/
def xltDies : List Die := allDies.filter fun d => !isHost d

/-- XLT_INV_GO: the range of a page's registers is invalidated everywhere; refused while one is outstanding (R446). -/
def execXltInvGo (d : Die) (s : State) : Host.Outcome State Fault Refusal :=
  actD d s fun s =>
    let pg := State.xltPg d
    if isHost d || !s.runs pg then s
    else if s.getF pg Reg.XLT_INV_CMD_BUSY == 1 then s.setF pg Reg.XLT_INV_CMD_REJECTED 1
    else
      let v : Inv := ⟨s.base, s.getF pg Reg.XLT_INV_VA_LO_VA + s.getF pg Reg.XLT_INV_VA_HI_VA <<< 20, s.getF pg Reg.XLT_INV_PAGES,
        if s.getF pg Reg.XLT_INV_ASID_ALL_ASID == 1 then none else some (s.getF pg Reg.XLT_INV_ASID_ASID), xltDies.map dieCode⟩
      let s1 := xltDies.foldl (fun t g => t.bump (State.xltPg g) Reg.XLT_INVALIDATIONS) s
      State.setF { s1 with invs := SMap.put s1.invs (dieCode d) v } pg Reg.XLT_INV_CMD_BUSY 1

/-- INVALIDATION_ACK: the agents of die `g` drop what their caches hold of the range of the invalidation of die `d`, and hold no translation
of it; the last acknowledgement completes it (R447). -/
def execInvalidationAck (d g : Die) (s : State) : Host.Outcome State Fault Refusal :=
  actD d s fun s0 =>
    match SMap.find s0.invs (dieCode d) with
    | none => s0
    | some v =>
      let s := { s0 with walkers := s0.walkers.filter fun e => e.die != dieCode g || !State.Inv.drops v e }
      if !v.waiting.contains (dieCode g) || !(s.invStreams v g).isEmpty || !(s.invQps v g).isEmpty then s
      else
        let rest := v.waiting.filter (· != dieCode g)
        if rest.isEmpty then
          let s1 := { s with invs := SMap.del s.invs (dieCode d) }
          ((s1.setF (State.xltPg d) Reg.XLT_INV_CMD_BUSY 0).setF (State.xltPg d) Reg.XLT_INV_TIME_US (min ((s.base - v.since) / 1000) (2 ^ 32 - 1))).raise
            (State.xltPg d) 0
        else { s with invs := SMap.put s.invs (dieCode d) { v with waiting := rest } }

/-! ### Coherence (R450 to R458) -/

/-- The die of a cache's ring. -/
def cacheDie : Cache → Die
  | .core h => if h < 48 then .H0 else .H1
  | .l3 d => d

/-- The caching agent that a request comes from; a device has none. -/
def CohReq.agent : CohReq → Option Cache
  | .rdShared x | .rdUnique x | .upgrade x => some x
  | _ => none

namespace State

/-- The line lies in memory that caches may hold (R440). -/
def cacheable (s : State) (l : Nat) : Bool :=
  match s.locate (64 * l) with
  | .depot | .near => true
  | .unified k => decide (s.lotTier k < 2)
  | _ => false

def copyOf (x : Line) (c : Cache) : Option Copy := x.copies.find? fun k => k.cache == c
def bufOf (x : Line) (c : Cache) : Option WbBuf := x.bufs.find? fun k => k.cache == c

/-- The home starts a request: it sends one snoop round each ring (R452); an UPGRADE without its S copy is a RD_UNIQUE. -/
def cohStart (s : State) (l : Nat) (r : CohReq) (came : Nat) : State :=
  let x := s.lineAt l
  let r' := match r with
    | .upgrade c => if (copyOf x c).isSome then r else .rdUnique c
    | _ => r
  ((s.setLine l { x with trans := some ⟨r', [], [], false, none, [], 0⟩ }).bump (cohPg (s.homeDie l)) Reg.COH_SNOOPS 2).raiseMax
    (cohPg (s.homeDie l)) Reg.COH_HOME_WAIT_MAX (s.base - came)

/-- A request reaches the home of its line: it starts, or waits for the transaction before it (R450, R454). A cache sends none
for a line in its writeback buffer (R457), nor a second one. -/
def cohRequest (s : State) (l : Nat) (r : CohReq) : State :=
  let x := s.lineAt l
  let busy := match r.agent with
    | none => false
    | some c => (bufOf x c).isSome || (x.trans.any fun t => t.req.agent == some c) || x.queue.any fun q => q.1.agent == some c
  if busy || !s.cacheable l || !s.runs (cohPg (s.homeDie l)) then s
  else if x.trans.isNone then s.cohStart l r s.base
  else s.setLine l { x with queue := x.queue ++ [(r, s.base)] }

/-- The transaction of a line is over; the oldest waiting request starts (R454). -/
def cohEnd (s : State) (l : Nat) : State :=
  let x := s.lineAt l
  match x.queue with
  | [] => s.setLine l { x with trans := none }
  | q :: t => (s.setLine l { x with trans := none, queue := t }).cohStart l q.1 q.2

/-- A snoop reaches an agent, which answers from its copy or its writeback buffer (R452, R457). `keep` is what becomes of a
copy. -/
def snoop (s : State) (l : Nat) (c : Cache) (ok : CohReq → Bool) (keep : Copy → Option Copy) : State :=
  let x := s.lineAt l
  match x.trans with
  | none => s
  | some t =>
    if t.phase != 0 || !ok t.req || t.req.agent == some c || t.answered.contains c then s
    else
      let cp := copyOf x c
      let bf := (bufOf x c).filter fun b => b.st != 2
      let taken := match cp, bf with
        | some k, _ => if k.st == 2 then some k.data else t.taken
        | none, some b => some b.data
        | none, none => t.taken
      let copies := x.copies.filterMap fun k => if k.cache == c then keep k else some k
      let s := match c, cp with
        | .core h, some k => if (keep k).isNone && (SMap.getD s.harts h Hart.init).resv == some l then
            { s with harts := SMap.modify s.harts Hart.init h fun y => { y with resv := none } } else s
        | _, _ => s
      s.setLine l { x with copies := copies
                           trans := some { t with answered := c :: t.answered, found := t.found || cp.isSome, taken := taken
                                                  wbp := if bf.isSome then c :: t.wbp else t.wbp } }

/-- What the home does once both rings have answered (R452, R458), with the ring cycles that the request has waited for credit (R465). -/
def cohAction (s : State) (l : Nat) (t : CohTrans) : State :=
  let x := s.lineAt l
  let gone := (x.bufs.filter fun b => b.st == 1 && t.wbp.contains b.cache).length
  let s1 := (x.bufs.filter fun b => b.st == 1 && !t.wbp.contains b.cache).foldl (fun a b => a.wrBytes (64 * l) b.data) s
  let s2 := (s1.setLine l { x with
      bufs := x.bufs.map fun b => if b.st == 1 || t.wbp.contains b.cache then { b with st := 2 } else b
      trans := some { t with phase := 1 } }).bump (cohPg (s.homeDie l)) Reg.COH_WBP gone
  let s2 := s2.drawFree.2.bump (cohPg (s.homeDie l)) Reg.COH_REQ_CREDIT_STALLS (Config.creditStalls s2.free % 2 ^ 32)
  let s2 := match t.req with | .wrLine _ | .wrPart _ _ => s2.dropResv (64 * l) 64 | _ => s2
  let put (d : Option Bytes) : State := match d with | some b => s2.wrBytes (64 * l) b | none => s2
  match t.req with
  | .rdShared _ => put t.taken
  | .rdOnce => if t.wbp.isEmpty then s2 else put t.taken
  | .wrLine d => put (some (d.take 64))
  | .wrPart off d => (put t.taken).wrBytes (64 * l + off % 64) (d.take (64 - off % 64))
  | _ => s2

/-- The agents of a ring whose answer a request needs: those that hold a copy or a writeback not yet taken. -/
def ringHolders (x : Line) (t : CohTrans) (ring : Die) : List Cache :=
  ((x.copies.map (·.cache)) ++ (x.bufs.filter (·.st != 2)).map (·.cache)).filter fun c =>
    cacheDie c == ring && t.req.agent != some c

end State

/-- A cache asks for a line of which it has no copy: one in E or S it has evicted silently by then (R451). -/
def State.cohMiss (s : State) (x : Cache) (line : Nat) (r : CohReq) : State :=
  match State.copyOf (s.lineAt line) x with
  | none => s.cohRequest line r
  | some k =>
    if k.st == 2 then s
    else (s.setLine line { s.lineAt line with copies := (s.lineAt line).copies.filter (·.cache != x) }).cohRequest line r

/-- RD_SHARED: a cache without a copy asks for a line to read. -/
def execRdShared (x : Cache) (line : Nat) (s : State) : Host.Outcome State Fault Refusal :=
  act s fun s => s.cohMiss x line (.rdShared x)

/-- RD_UNIQUE: a cache without a copy asks for a line to own. -/
def execRdUnique (x : Cache) (line : Nat) (s : State) : Host.Outcome State Fault Refusal :=
  act s fun s => s.cohMiss x line (.rdUnique x)

/-- UPGRADE: a cache asks to own a line that it holds in S. -/
def execUpgrade (x : Cache) (line : Nat) (s : State) : Host.Outcome State Fault Refusal :=
  act s fun s =>
    match State.copyOf (s.lineAt line) x with
    | some k => if k.st == 0 then s.cohRequest line (.upgrade x) else s
    | none => s

/-- RD_ONCE: a device or walker reads a host-shared line. -/
def execRdOnce (line : Nat) (s : State) : Host.Outcome State Fault Refusal := act s fun s => s.cohRequest line .rdOnce

/-- WR_LINE: a device writes a whole host-shared line. -/
def execWrLine (line : Nat) (data : Bytes) (s : State) : Host.Outcome State Fault Refusal :=
  act s fun s => if data.length == 64 then s.cohRequest line (.wrLine data) else s

/-- WR_PART: a device writes part of a host-shared line. -/
def execWrPart (line off : Nat) (data : Bytes) (s : State) : Host.Outcome State Fault Refusal :=
  act s fun s => if off + data.length ≤ 64 then s.cohRequest line (.wrPart off data) else s

/-- SNP_SHARED: M and E become S (R452). -/
def execSnpShared (x : Cache) (line : Nat) (s : State) : Host.Outcome State Fault Refusal :=
  act s fun s => s.snoop line x (fun r => match r with | .rdShared _ => true | _ => false) fun k => some { k with st := 0 }

/-- SNP_INV: every copy becomes I (R452). -/
def execSnpInv (x : Cache) (line : Nat) (s : State) : Host.Outcome State Fault Refusal :=
  act s fun s => s.snoop line x (fun r => match r with | .rdShared _ | .rdOnce => false | _ => true) fun _ => none

/-- SNP_ONCE: no state changes (R452). -/
def execSnpOnce (x : Cache) (line : Nat) (s : State) : Host.Outcome State Fault Refusal :=
  act s fun s => s.snoop line x (fun r => match r with | .rdOnce => true | _ => false) some

/-- SNP_RESP: the combined answer of a host die's ring, once every holder of the ring has answered (R452, R454). -/
def execSnpResp (ring : Die) (line : Nat) (s : State) : Host.Outcome State Fault Refusal :=
  act s fun s =>
    let x := s.lineAt line
    match x.trans with
    | none => s
    | some t =>
      -- a write to a lot that moves stalls (R234)
      if s.movingIn (64 * line) 64 then s
      else if !isHost ring || t.phase != 0 || t.rings.contains (dieCode ring)
          || !(State.ringHolders x t ring).all t.answered.contains then s
      else
        let u := { t with rings := dieCode ring :: t.rings }
        if u.rings.length == 2 then s.cohAction line u else s.setLine line { x with trans := some u }

/-- DATA: the line comes to its requester (R452). -/
def execData (line : Nat) (s : State) : Host.Outcome State Fault Refusal :=
  act s fun s =>
    let x := s.lineAt line
    match x.trans with
    | none => s
    | some t =>
      let d := t.taken.getD (s.rdBytes (64 * line) 64)
      let get (c : Cache) (st : Nat) : State :=
        s.setLine line { x with copies := x.copies.filter (·.cache != c) ++ [⟨c, st, d⟩], trans := some { t with phase := 2 } }
      if t.phase != 1 then s
      else
        match t.req with
        | .rdShared c => get c (if t.found then 0 else 1)
        | .rdUnique c => get c 2
        | .rdOnce =>
          ((s.setLine line { x with trans := some { t with phase := 2 } }).bump (cohPg (s.homeDie line)) Reg.COH_DEV_RD).answer
            (.unit (cohPg (s.homeDie line))) .done d
        | _ => s

/-- COMP: the home tells the requester of an UPGRADE or a write that it is complete (R452, R453). -/
def execComp (line : Nat) (s : State) : Host.Outcome State Fault Refusal :=
  act s fun s =>
    let x := s.lineAt line
    match x.trans with
    | none => s
    | some t =>
      if t.phase != 1 then s
      else
        match t.req with
        | .upgrade c => (s.setLine line { x with copies := x.copies.map fun k => if k.cache == c then { k with st := 2 } else k }).cohEnd line
        | .wrLine _ | .wrPart _ _ => (s.bump (cohPg (s.homeDie line)) Reg.COH_DEV_WR).cohEnd line
        | _ => s

/-- COMP_ACK: the requester has the data; the next transaction of the line may start (R454). -/
def execCompAck (line : Nat) (s : State) : Host.Outcome State Fault Refusal :=
  act s fun s =>
    match (s.lineAt line).trans with
    | some t => if t.phase == 2 then s.cohEnd line else s
    | none => s

/-- WB_DIRTY: a cache writes an M line back; at the home it is held while a snoop is outstanding, else written, once its
lot does not move (R234, R457, R458). -/
def execWbDirty (x : Cache) (line : Nat) (s : State) : Host.Outcome State Fault Refusal :=
  act s fun s =>
    let v := s.lineAt line
    match State.copyOf v x with
    | some k =>
      if k.st != 2 then s
      else
        let held := v.trans.any fun t => t.phase == 0
        if !held && s.movingIn (64 * line) 64 then s else
        let s1 := s.setLine line { v with
          copies := v.copies.filter (·.cache != x), bufs := v.bufs ++ [⟨x, k.data, if held then 1 else 2⟩] }
        if held then s1 else s1.wrBytes (64 * line) k.data
    | none => s

/-- WB_ACK: the writeback buffer is freed (R457). -/
def execWbAck (x : Cache) (line : Nat) (s : State) : Host.Outcome State Fault Refusal :=
  act s fun s =>
    let v := s.lineAt line
    s.setLine line { v with bufs := v.bufs.filter fun b => !(b.cache == x && b.st == 2) }

/-! ### MSIs (R459 to R463) -/

namespace State

/-- The address of a source's route entry. -/
def routePa (s : State) (src : Nat) : Nat :=
  s.getF (cohPg .H0) Reg.COH_MSI_BASE_LO_PA <<< 12 + s.getF (cohPg .H0) Reg.COH_MSI_BASE_HI_PA <<< 32 + 8 * src

/-- A dropped MSI, counted on both pages (R461, R465). -/
def msiDrop (s : State) (src : Nat) : State :=
  [Die.H0, .H1].foldl (fun t d => (t.bump (cohPg d) Reg.COH_MSI_DROPS).setF (cohPg d) Reg.COH_MSI_LAST_DROP src) s

/-- A route entry is valid (R461). -/
def routeOk (e : Nat) : Bool :=
  e.testBit 0 && e >>> 27 == 0
    && (if e.testBit 1 then bitsOf e 2 7 == 0 && bitsOf e 9 7 == 0
        else decide (bitsOf e 2 7 < 96) && decide (bitsOf e 9 7 ≤ 64) && bitsOf e 16 11 != 0)

/-- Identity `id` becomes pending in file `f` of hart `h`. -/
def imsicSet (s : State) (h f id : Nat) : State :=
  let k := (h * 128 + f) * 64 + id / 32
  { s with imsic := SMap.put s.imsic k (SMap.getD s.imsic k 0 ||| BitVec.ofNat 32 (1 <<< (id % 32))) }

/-- The compartment of an MSI's source (R459, R497): of a stream or a queue pair its owner, of a page the compartment that R495 reserves it
to, else the administering one. -/
def msiCpt (s : State) (src : Nat) : Nat :=
  if 0xA0000 ≤ src then s.qpCpt (src - 0xA0000)
  else if 0x80000 ≤ src then s.ctxCpt (dieOf ((src - 0x80000) >>> 14)) ((src - 0x80000) % 2 ^ 14)
  else
    ((pageAt src).bind pageCpt).getD (s.getF cptPg Reg.CPT_CFG_ADMIN)

/-- An MSI routed by its entry; one for a hart that its source's compartment does not own is dropped (R497). -/
def msiRoute (s : State) (src e : Nat) : State :=
  if !routeOk e || (!e.testBit 1 && s.hartCpt (bitsOf e 2 7) != some (s.msiCpt src)) then s.msiDrop src
  else if e.testBit 1 then { s with msix := bitsOf e 16 11 :: s.msix }
  else (s.imsicSet (bitsOf e 2 7) (bitsOf e 9 7) (bitsOf e 16 11)).bump (cohPg (if bitsOf e 2 7 < 48 then .H0 else .H1)) Reg.COH_MSI_SENT

end State

/-- MSI_DELIVERY: MSI `i` of those on their way is routed. With `keep` the router's cached entry stands, or the entry it reads is
cached; without, the entry is read from the table and none stays cached (R461, R462). -/
def execMsiDelivery (i : Nat) (keep : Bool) (s : State) : Host.Outcome State Fault Refusal :=
  act s fun s =>
    match s.msiq[i]? with
    | none => s
    | some src =>
      let s1 := { s with msiq := s.msiq.eraseIdx i }
      let pa := s1.routePa src
      let reads := match s1.locate pa with | .depot | .near => true | .unified l => decide (s1.lotTier l < 2) | _ => false
      if s1.getF (cohPg .H0) Reg.COH_MSI_CFG_EN != 1 then s1.msiDrop src
      else
        match (if keep then SMap.find s1.routes src else none) with
        | some e => s1.msiRoute src e
        | none =>
          let s2 := { s1 with routes := SMap.del s1.routes src }
          if !reads then s2.msiDrop src
          else if s2.badIn pa 8 then (s2.reportUncorr (.unit (cohPg .H0)) pa 0).msiDrop src
          else
            let e := s2.cohNat pa 8
            State.msiRoute { s2 with routes := if keep && decide (s2.routes.length < 1024) then SMap.put s2.routes src e else s2.routes }
              src e

/-- COH_MSI_FLUSH: COH_MSI_CFG.FLUSH written with 1 empties the entry cache (R462). -/
def execCohMsiFlush (s : State) : Host.Outcome State Fault Refusal :=
  act s fun s => { s with routes := [] }

end Sys2Proof.Machine
end

