-- ==== Sys2Proof/Machine/Links.lean ====
section
/-! DEFINITION. The die-to-die links (R20 to R53, R633 to R636): flits, replay, credits, routes, and the loss of lanes. -/

namespace Sys2Proof.Machine

/-! ### The shape of the fabric (R22, R23, R540) -/

/-- The tensor ring (R23). -/
def tensorRing : List Die := [.T0, .T1, .T2, .T3, .T4, .T5, .T6, .T7]
/-- The ring of a die. -/
def ringOf (d : Die) : List Die := if isTensor d then tensorRing else spineRing
/-- The position of a die on its ring. -/
def ringIdx (d : Die) : Nat := (ringOf d).idxOf d
/-- The partner of a die across its spine link (R22). -/
def partner (d : Die) : Die := (if isTensor d then spineRing else tensorRing).getD (ringIdx d) .T0
/-- The die at the other end of a link instance, and the instance there (R540). -/
def peerOf (d : Die) (p : Nat) : Die × Nat :=
  if p == 0 then ((ringOf d).getD ((ringIdx d + 7) % 8) d, 1)
  else if p == 1 then ((ringOf d).getD ((ringIdx d + 1) % 8) d, 0)
  else (partner d, 2)
/-- UCIe modules of a link (R25). -/
def linkModules (d : Die) (p : Nat) : Nat := if isTensor d || p == 2 then 4 else 2
def d2dPg (d : Die) (p : Nat) : Page := ⟨d, .d2d, p⟩
def tfabPg (d : Die) : Page := ⟨d, .tfab, 0⟩
def linkKey (d : Die) (p : Nat) : Nat := dieCode d * 4 + p
/-- The instance by which `x` reaches its neighbour `y`. -/
def instTo (x y : Die) : Option Nat := [0, 1, 2].find? fun p => (peerOf x p).1 == y

def clsNo : MsgCls → Nat
  | .req => 0 | .snp => 1 | .rsp => 2 | .dat => 3 | .wb => 4
def clsOf (n : Nat) : MsgCls := [MsgCls.req, .snp, .rsp, .dat, .wb].getD (n % 5) .req

namespace State

def link (s : State) (d : Die) (p : Nat) : Link := SMap.getD s.links (linkKey d p) Link.init
def setLink (s : State) (d : Die) (p : Nat) (x : Link) : State := { s with links := SMap.put s.links (linkKey d p) x }
/-- D2D_STAT.STATE of the receiver of die `d`: 0 down, 1 training, 2 full width, 3 half width. -/
def rxState (s : State) (d : Die) (p : Nat) : Nat := s.getF (d2dPg d p) Reg.D2D_STAT_STATE
/-- The link of die `d` is not down. -/
def linkUp (s : State) (d : Die) (p : Nat) : Bool := s.getF (tfabPg d) Reg.TFAB_LINKS_DOWN >>> p % 2 == 0

/-! ### Routes (R45 to R52) -/

/-- The dies passed from `x` to `y` on one ring, `y` included, rising or falling. -/
def ringPath (x y : Die) (rising : Bool) : List Die :=
  let n := if rising then (ringIdx y + 8 - ringIdx x) % 8 else (ringIdx x + 8 - ringIdx y) % 8
  (List.range n).map fun k => (ringOf x).getD ((if rising then ringIdx x + k + 1 else ringIdx x + 7 - k) % 8) x

/-- Every link of a path is up. -/
def pathUp (s : State) (x : Die) : List Die → Bool
  | [] => true
  | y :: t => (match instTo x y with | some p => s.linkUp x p | none => false) && s.pathUp y t

/-- The way round the ring: the shorter, on a tie the way of R46; the other where a link of it is down (R50; DESIGN CHOICE for the
spine ring, notes/assumptions/51.md). -/
def ringRoute (s : State) (x y : Die) (tie : Bool) : List Die :=
  let n := (ringIdx y + 8 - ringIdx x) % 8
  let r := ringPath x y (if n == 4 then !tie else decide (n < 4))
  if s.pathUp x r then r else ringPath x y (!(if n == 4 then !tie else decide (n < 4)))

/-- The leg over a spine link from `x` to its partner, with whether it is a fallback (R51). -/
def spineLeg (s : State) (x : Die) : List Die × Bool :=
  if s.linkUp x 2 then ([partner x], false)
  else
    let via (k : Nat) : List Die :=
      let n := (ringOf x).getD ((ringIdx x + k) % 8) x
      [n, partner n, partner x]
    -- R51 runs along the tensor ring, then down; the reverse takes the same dies backwards
    let a := via 1
    (if s.pathUp x a then a else via 7, true)

/-- A path without its loops. -/
def noLoops (x : Die) (r : List Die) : List Die :=
  match r with
  | [] => []
  | _ => (r.foldl (fun acc y => if (x :: acc).contains y then acc.take ((x :: acc).idxOf y) else acc ++ [y]) [])

/-- The route of a message from `x`, its source, to `y`, and whether it is a fallback route (R45, R47, R51). A message that R50 sends
the other way round its ring counts as no fallback message of R52: it keeps the virtual channels of R48 (DESIGN CHOICE,
notes/assumptions/51.md: R634 speaks of the fallbacks of R50 to R53, R650 names R51 alone). -/
def route (s : State) (x y : Die) (addr : Option Nat) : List Die × Bool :=
  let tie := match addr with | some a => a.testBit 8 | none => (dieCode x).testBit 0
  if x == y then ([], false)
  else if isTensor x == isTensor y then (s.ringRoute x y tie, false)
  else if isTensor x then
    let r := s.ringRoute x (partner y) tie
    let l := s.spineLeg (partner y)
    (noLoops x (r ++ l.1), l.2)
  else
    let l := s.spineLeg x
    (noLoops x (l.1 ++ s.ringRoute (partner x) y tie), l.2)

/-- The dies lie on one ring. -/
def sameRing (x y : Die) : Bool := isTensor x == isTensor y
/-- The link between two neighbours of a ring is the ring's dateline (R48). -/
def dateline (x y : Die) : Bool :=
  sameRing x y && ((ringIdx x == 7 && ringIdx y == 0) || (ringIdx x == 0 && ringIdx y == 7))

/-- The virtual channel on each link of a route: 1 after the dateline of a ring, and everywhere on a fallback (R48, R52). -/
def routeVcs (x : Die) (crossed : Bool) : List Die → List Nat
  | [] => []
  | y :: t => (if sameRing x y && crossed then 1 else 0) :: routeVcs y (sameRing x y && (crossed || dateline x y)) t

/-- Where a message that stands at die `x` goes next: the die, the virtual channel, and whether its route is a fallback. A message
that has left its route takes that from where it stands; one that has crossed the dateline of the ring it is on stays on virtual
channel 1 until it leaves that ring, whichever way it turns (R48). -/
def nextHop (s : State) (x : Die) (m : Msg) (crossed : Bool := false) : Option (Die × Nat × Bool) :=
  let go (src : Die) : Option (Die × Nat × Bool) :=
    let r := s.route src m.dst m.addr
    let ds := src :: r.1
    if !s.pathUp src r.1 || !ds.contains x then none
    else
      match ds[ds.idxOf x + 1]? with
      | some y =>
        some (y, if r.2 || (crossed && sameRing x y) then 1 else (routeVcs src false r.1).getD (ds.idxOf x) 0, r.2)
      | none => none
  match go m.src with
  | some h => some h
  | none => go x

/-- The links that a message standing at die `x` still has before it, as the die and instance that send on each. -/
def linksAhead (s : State) (m : Msg) : Nat → Die → List (Die × Nat)
  | 0, _ => []
  | k + 1, x =>
    match s.nextHop x m with
    | none => []
    | some h => match instTo x h.1 with | none => [] | some p => (x, p) :: s.linksAhead m k h.1

/-- How many links away a link lies on the way of a message that stands at die `x`, if it lies on it. -/
def linkAhead (s : State) (x : Die) (m : Msg) (d : Die) (p : Nat) : Option Nat :=
  let ls := (s.linksAhead m 24 x).takeWhile fun e => e != (d, p) && e != peerOf d p
  if ls.length < (s.linksAhead m 24 x).length then some ls.length else none

/-! ### Flits (R29, R33 to R39) -/

def flitType (f : Bytes) : Nat := bitsOf (leNat (f.take 2)) 10 2
def flitSeq (f : Bytes) : Nat := bitsOf (leNat (f.take 2)) 0 10
/-- A reserved bit of the header is set (R33). -/
def flitReserved (f : Bytes) : Bool :=
  let h := leNat (f.take 12)
  bitsOf h 12 4 != 0 || bitsOf h 27 5 != 0 || bitsOf h 72 8 != 0 || bitsOf h 95 1 != 0
/-- The flit's CRC passes (R29). -/
def flitOk (f : Bytes) : Bool :=
  f.length == 256 && crc32c (f.take 12 ++ f.drop 16) == leNat ((f.drop 12).take 4)

/-- A flit of TYPE `ty` with the ACK and the credits that the end owes, and the end without them (R29, R38). -/
def buildFlit (x : Link) (ty seq map : Nat) (chunks : List Bytes) : Bytes × Link :=
  let give := x.returns.map (min 15)
  let cr := (give.zipIdx.map fun e => e.1 <<< (4 * e.2)).foldl (· + ·) 0
  let ack := (x.expect + 1023) % 1024
  let h := seq % 1024 + ty <<< 10 + ack <<< 16 + (decide (x.accepted != 0)).toNat <<< 26 + cr <<< 32 + map <<< 80
  let body := (chunks.flatMap fun c => (c ++ List.replicate 16 0).take 16) ++ List.replicate (240 - 16 * chunks.length) 0
  let head := leBytes h 12
  (head ++ leBytes (crc32c (head ++ body)) 4 ++ body,
    { x with accepted := 0, returns := (x.returns.zip give).map fun e => e.1 - e.2 })

/-- A flit put on the wire by an end. -/
def emit (s : State) (d : Die) (p : Nat) (f : Bytes) : State := { s with flitOut := (linkKey d p, f) :: s.flitOut }

/-- A flit of TYPE `ty` without chunks sent by an end. -/
def sendPlain (s : State) (d : Die) (p ty seq : Nat) : State :=
  let b := buildFlit (s.link d p) ty seq 0 []
  (s.setLink d p b.2).emit d p b.1

/-- The ACK and CREDITS of a flit reach the transmitter beside the receiver (R34, R37). -/
def takeAck (x : Link) (f : Bytes) : Link :=
  let h := leNat (f.take 12)
  let ack := bitsOf h 16 10
  let replay :=
    if h.testBit 26 && x.replay.any fun e => e.1 == ack then (x.replay.dropWhile fun e => e.1 != ack).drop 1 else x.replay
  let live (q : Nat) : Bool := replay.any fun e => e.1 == q
  { x with replay := replay
           credits := x.credits.zipIdx.map fun e => e.1 + bitsOf h (32 + 4 * e.2) 4
           msgs := x.msgs.filter fun m => m.wait != 0 || live m.last }

/-- A retry request for the SEQ expected (R35); the eighth in a row for one SEQ takes the link into lane diagnosis (R39). -/
def askRetry (s : State) (d : Die) (p : Nat) : State :=
  let x := s.link d p
  let s1 := ((s.setLink d p { x with discarding := true, askedAt := s.base, tries := x.tries + 1 }).sendPlain d p 2 x.expect).bump
    (d2dPg d p) Reg.D2D_RETRIES
  if 8 ≤ x.tries + 1 then s1.setF (d2dPg d p) Reg.D2D_STAT_STATE 1 else s1

/-- A flit is discarded: one retry request, and another when the flit asked for has come damaged or has not come within the 120 ns
of R39 (R35; notes/assumptions/51.md). -/
def discard (s : State) (d : Die) (p : Nat) (f : Bytes) : State :=
  let x := s.link d p
  if !x.discarding || (!flitOk f && flitSeq f == x.expect) || 120 < s.base - x.askedAt then s.askRetry d p else s

/-- Retraining: neither direction sends data flits until its lanes have been tested; replay buffers stand (R33). -/
def retrain (s : State) (d : Die) (p : Nat) : State :=
  let q := peerOf d p
  let one (t : State) (d : Die) (p : Nat) : State :=
    if 2 ≤ t.rxState d p then t.setF (d2dPg d p) Reg.D2D_STAT_STATE 1 else t
  one (one s d p) q.1 q.2

/-- The virtual channel by which a message comes in on a link, and whether it goes by a fallback route: those with which the other end
sent it (R32, R48). -/
def rxVc (s : State) (d : Die) (p : Nat) (m : Msg) : Nat × Bool :=
  match (s.link (peerOf d p).1 (peerOf d p).2).msgs.find? fun e => e.msg == m with
  | some e => (e.vc, e.fb)
  | none => match s.nextHop (peerOf d p).1 m with | some h => h.2 | none => (1, false)

/-- A whole message has come to die `d`: it arrives, or it stands in the routers until it goes on (R45, R48, R53). -/
def msgIn (s : State) (d : Die) (p : Nat) (m : Msg) : State :=
  let v := s.rxVc d p m
  if m.dst == d then
    let x := s.link d p
    { s.setLink d p { x with returns := x.returns.modify (clsNo m.cls * 2 + v.1) (· + m.chunks.length) } with
      arrived := m :: s.arrived, reissue := s.reissue.erase m }
  else
    let crossed := decide (p < 2) && (v.1 == 1 || dateline (peerOf d p).1 d)
    { s with routers := SMap.modify s.routers [] (dieCode d) (· ++ [⟨m, some p, v.1, crossed, s.reissue.contains m, v.2⟩]) }

/-- Chunks of an accepted flit: START_MAP begins messages, the header tells a message's length (R29, R31). -/
def chunksIn (s : State) (d : Die) (p : Nat) (cs : List (Bool × Bytes)) : State :=
  cs.foldl (fun t c =>
    let x := t.link d p
    let part := if c.1 then [c.2] else if x.part.isEmpty then [] else x.part ++ [c.2]
    match part with
    | [] => t
    | h :: _ =>
      let r := Config.msgHeader h
      if part.length == r.2.2.2.1 % 17 + 1 then
        (t.setLink d p { x with part := [] }).msgIn d p ⟨dieOf (r.1 % 16), dieOf (r.2.1 % 16), clsOf r.2.2.1, r.2.2.2.2, part⟩
      else t.setLink d p { x with part := part }) s

/-- A data flit that is the next expected is accepted; the 32nd since the last ACK is acknowledged at once (R35, R38). -/
def acceptFlit (s : State) (d : Die) (p : Nat) (f : Bytes) : State :=
  let x := takeAck (s.link d p) f
  let y := { x with expect := (x.expect + 1) % 1024, discarding := false, tries := 0, accepted := x.accepted + 1
                    since := if x.accepted == 0 then s.base else x.since }
  let map := bitsOf (leNat (f.take 12)) 80 15
  let cs := (List.range 15).map fun k => (map.testBit k, (f.drop (16 + 16 * k)).take 16)
  let t := (s.setLink d p y).chunksIn d p cs
  if 32 ≤ (t.link d p).accepted then t.sendPlain d p 1 0 else t

/-- What every receiver does first with a flit of TYPE `ty`: one that fails its CRC is counted and `bad` follows; one with TYPE 11
or a reserved bit takes the link into retraining; one of TYPE `ty` is taken by `good` (R33, R35, R37). -/
def flitIn (s : State) (d : Die) (p ty : Nat) (f : Bytes) (bad good : State → State) : State :=
  if 3 ≤ p || s.rxState d p == 0 then s
  else if !flitOk f then bad (s.bump (d2dPg d p) Reg.D2D_CRC_ERR)
  else if flitReserved f || flitType f == 3 then s.retrain d p
  else if flitType f == ty then good s else s

/-- The transmitter of die `d` may send data flits: the receiver at the other end is trained (R633). -/
def txReady (s : State) (d : Die) (p : Nat) : Bool :=
  decide (p < 3) && decide (2 ≤ s.rxState (peerOf d p).1 (peerOf d p).2)

/-! ### Lanes (R40 to R44, R633 to R636) -/

/-- The word of D2D_MAP of a module. -/
def mapWord (s : State) (d : Die) (p m : Nat) : Nat := s.word (d2dPg d p) 0x48 m
/-- Spare `k` of a module is taken, by the fuses or by a substitution. -/
def spareUsed (w k : Nat) : Bool := (w >>> (8 * k)).testBit 6 || (w >>> (8 * k)).testBit 7
/-- SPARES_LEFT follows the maps. -/
def countSpares (s : State) (d : Die) (p : Nat) : State :=
  let left := (List.range (linkModules d p)).map fun m => ((List.range 4).filter fun k => !spareUsed (s.mapWord d p m) k).length
  s.setF (d2dPg d p) Reg.D2D_STAT_SPARES_LEFT (left.foldl (· + ·) 0)

/-- The spares of a module that work: those free, and those that stand in for a position for which no later one does. -/
def goodSpares (s : State) (d : Die) (p m : Nat) : List Nat :=
  let w := s.mapWord d p m
  let x := s.link d p
  (List.range 4).filter fun k =>
    let lane (j : Nat) : Nat := bitsOf w (8 * j) 6
    !spareUsed w k || (!(x.stuck.contains (m, lane k)) && !(x.train.any fun t => t.m == m && t.l == lane k && t.spare != k)
      && !((List.range 4).any fun j => decide (k < j) && spareUsed w j && lane j == lane k))

/-- The failed positions of a module: those that spares stand in for and those lost. -/
def failedLanes (s : State) (d : Die) (p m : Nat) : List Nat :=
  let w := s.mapWord d p m
  let mapped := ((List.range 4).filter (spareUsed w)).map fun k => bitsOf w (8 * k) 6
  (List.range 64).filter fun l => mapped.contains l || (s.link d p).lost.contains (m, l)

/-- A half of a module, 1 the upper, that its spares can make whole (R43). -/
def halfOk (s : State) (d : Die) (p m h : Nat) : Bool :=
  decide (((s.failedLanes d p m).filter fun l => l / 32 == h).length ≤ (s.goodSpares d p m).length)
/-- Every module of a receiver can make a half whole. -/
def halvesOk (s : State) (d : Die) (p : Nat) : Bool :=
  (List.range (linkModules d p)).all fun m => s.halfOk d p m 0 || s.halfOk d p m 1

/-- A module moves to half `h`: its working spares stand in for the failed positions of that half; a spare that already does
stays. -/
def halfMap (s : State) (d : Die) (p m h : Nat) : State :=
  let w := s.mapWord d p m
  let good := s.goodSpares d p m
  let need := (s.failedLanes d p m).filter fun l => l / 32 == h
  let keep := good.filter fun k => spareUsed w k && need.contains (bitsOf w (8 * k) 6)
  let rest := need.filter fun l => !(keep.any fun k => bitsOf w (8 * k) 6 == l)
  let free := good.filter fun k => !keep.contains k
  (free.zip rest).foldl (fun t e => t.setWord (d2dPg d p) 0x48 (putBits (t.mapWord d p m) (8 * e.1) 8 (e.2 + 64)) m) s

/-- The map of a module changed: the ledger records it (R42, R636, R654). -/
def mapRecord (s : State) (d : Die) (p m : Nat) : State :=
  let about := [dieCode d, p, m, s.mapWord d p m]
  (s.summary fun l => { l with laneMaps := about :: l.laneMaps.filter fun e => e.take 3 != about.take 3 }).ledg .laneMap about

/-- A receiver resumes at its width, and the transmitter at the other end replays from the SEQ expected (R633). -/
def resume (s : State) (d : Die) (p : Nat) : State :=
  let x := s.link d p
  let q := peerOf d p
  let tx := s.link q.1 q.2
  let s1 := (s.setLink d p { x with tries := 0, discarding := false }).setF (d2dPg d p) Reg.D2D_STAT_STATE (if x.half then 3 else 2)
  if tx.replay.any fun e => e.1 == x.expect then
    s1.setLink q.1 q.2 { s1.link q.1 q.2 with resend := some x.expect }
  else s1

/-- A receiver that waits for nothing more returns to service. -/
def settle (s : State) (d : Die) (p : Nat) : State :=
  let x := s.link d p
  if x.train.isEmpty && x.stuck.isEmpty && s.rxState d p == 1 then s.resume d p else s

/-- A lane is lost (R633): data flits stop, and the lowest free spare of its module begins to train; without one the lane waits for
half width. -/
def loseLane (s : State) (d : Die) (p m l : Nat) : State :=
  let x := s.link d p
  let w := s.mapWord d p m
  let taken (k : Nat) : Bool := spareUsed w k || x.train.any fun t => t.m == m && t.spare == k
  let s1 := (s.bump (d2dPg d p) Reg.D2D_LOCK_LOSS).setF (d2dPg d p) Reg.D2D_STAT_STATE 1
  let lost := if x.lost.contains (m, l) then x.lost else x.lost ++ [(m, l)]
  let rest := x.train.filter fun t => !(t.m == m && t.l == l)
  match (List.range 4).find? fun k => !taken k with
  | some k => s1.setLink d p { x with lost := lost, train := rest ++ [⟨m, l, k, s.base⟩] }
  | none => s1.setLink d p { x with lost := lost, train := rest, stuck := x.stuck ++ [(m, l)] }

/-- The messages that a transmitter still holds go back to the routers of its die, to be sent over another route (R53). -/
def giveBack (s : State) (d : Die) (p : Nat) : State :=
  let x := s.link d p
  { s.setLink d p { x with replay := [], resend := none, queue := [], msgs := [], part := [], returns := List.replicate 10 0
                           credits := List.replicate 10 64 } with
    routers := SMap.modify s.routers [] (dieCode d) ((x.msgs.map fun e => ⟨e.msg, none, 0, decide (p < 2) && e.vc == 1, true, e.fb⟩) ++ ·)
    reissue := s.reissue ++ x.msgs.map (·.msg) }

/-- A transmitter's message that its receiver has not got whole: some of it waits for a flit, or its last flit is not accepted (R35). -/
def unreceived (s : State) (d : Die) (p : Nat) (e : LinkMsg) : Bool :=
  let q := peerOf d p
  e.wait != 0 || decide ((e.last + 1024 - (s.link q.1 q.2).expect) % 1024 < 512)

/-- The messages on their way that have link `p` of die `d` before them, nearest to it first: those in the routers of other dies or of
its own ends, and those that other links carry. They turn to another route when it goes down, and later ones of their flow wait for
them as for those that the link held, so that R49 holds across the change of route. -/
def onTheWay (s : State) (d : Die) (p : Nat) : List Msg :=
  let standing := s.routers.flatMap fun r =>
    r.2.filterMap fun t => (s.linkAhead (dieOf r.1) t.msg d p).map fun k => (2 * k, t.msg)
  let carried := s.links.flatMap fun l =>
    let x := dieOf (l.1 / 4)
    let y := peerOf x (l.1 % 4)
    if (x, l.1 % 4) == (d, p) || y == (d, p) then []
    else (l.2.msgs.filter (s.unreceived x (l.1 % 4))).filterMap fun e => (s.linkAhead y.1 e.msg d p).map fun k => (2 * k + 1, e.msg)
  (List.range 64).flatMap fun k => ((standing ++ carried).filter fun e => e.1 == k).map (·.2)

/-- A link goes down at both ends (R44, R53, R650, R651). -/
def linkFall (s : State) (d : Die) (p : Nat) : State :=
  let one (t : State) (d : Die) (p : Nat) : State :=
    ((((t.setF (d2dPg d p) Reg.D2D_STAT_STATE 0).setF (tfabPg d) Reg.TFAB_LINKS_DOWN
      (t.getF (tfabPg d) Reg.TFAB_LINKS_DOWN ||| 1 <<< p)).raise (d2dPg d p) 2).linkTimeout 2).giveBack d p
  if s.linkUp d p then
    let ms := (s.onTheWay d p).filter fun m => !s.reissue.contains m
    let t := one (one s d p) (peerOf d p).1 (peerOf d p).2
    { t with
      routers := t.routers.map fun r => (r.1, r.2.map fun u => if ms.contains u.msg then { u with reissued := true } else u)
      reissue := t.reissue ++ ms }
  else s

/-- A link moves to half width at both ends (R43, R634). -/
def linkHalf (s : State) (d : Die) (p : Nat) : State :=
  let one (t : State) (d : Die) (p : Nat) : State :=
    let up (m : Nat) : Bool := !t.halfOk d p m 0
    let ms := List.range (linkModules d p)
    let upper := ((ms.filter up).map fun m => 1 <<< m).foldl (· + ·) 0
    let t1 := ms.foldl (fun a m =>
      let b := a.halfMap d p m (up m).toNat
      if b.mapWord d p m == a.mapWord d p m then b else b.mapRecord d p m) t
    let x := t1.link d p
    ((((t1.setLink d p { x with half := true, stuck := [], train := [] }).setF (d2dPg d p) Reg.D2D_STAT_HALF_UPPER upper).countSpares d
      p).raise (d2dPg d p) 1).resume d p
  one (one s d p) (peerOf d p).1 (peerOf d p).2

end State

/-- DATA_FLIT_RECEIVE: accepted only with a good CRC and the SEQ expected (R35). -/
def execDataFlitReceive (d : Die) (p : Nat) (flit : Bytes) (s : State) : Host.Outcome State Fault Refusal :=
  actD d s fun s => s.flitIn d p 0 flit (fun t => t.discard d p flit) fun t =>
    if State.flitSeq flit == (t.link d p).expect then t.acceptFlit d p flit else t.discard d p flit

/-- IDLE_FLIT_RECEIVE: only its ACK and CREDITS count (R37). -/
def execIdleFlitReceive (d : Die) (p : Nat) (flit : Bytes) (s : State) : Host.Outcome State Fault Refusal :=
  actD d s fun s => s.flitIn d p 1 flit id fun t => t.setLink d p (State.takeAck (t.link d p) flit)

/-- RETRY_REQUEST: the transmitter beside the receiver sends again from the flit named by SEQ (R36). -/
def execRetryRequest (d : Die) (p : Nat) (flit : Bytes) (s : State) : Host.Outcome State Fault Refusal :=
  actD d s fun s => s.flitIn d p 2 flit id fun t =>
    let x := State.takeAck (t.link d p) flit
    t.setLink d p { x with resend := if x.replay.any fun e => e.1 == State.flitSeq flit then some (State.flitSeq flit) else x.resend }

/-- LINK_CONTROL_FLIT: retraining (R33). -/
def execLinkControlFlit (d : Die) (p : Nat) (flit : Bytes) (s : State) : Host.Outcome State Fault Refusal :=
  actD d s fun s => s.flitIn d p 3 flit id id

/-- ACK_TIMER: an ACK after 32 flits or 64 ns (R38). -/
def execAckTimer (d : Die) (p : Nat) (s : State) : Host.Outcome State Fault Refusal :=
  actD d s fun s =>
    let x := s.link d p
    if s.txReady d p && x.accepted != 0 && (decide (32 ≤ x.accepted) || decide (x.since + 64 ≤ s.base)) then s.sendPlain d p 1 0 else s

/-- FLIT_SEND: a flit of the replay buffer that was asked for, or a new data flit, or an idle flit (R34, R36). -/
def execFlitSend (d : Die) (p : Nat) (s : State) : Host.Outcome State Fault Refusal :=
  actD d s fun s =>
    let x := s.link d p
    if !s.txReady d p then s
    else
      match x.resend with
      | some q =>
        match x.replay.dropWhile fun e => e.1 != q with
        | e :: n :: _ => (s.setLink d p { x with resend := some n.1 }).emit d p e.2
        | [e] => (s.setLink d p { x with resend := none }).emit d p e.2
        | [] => s.setLink d p { x with resend := none }
      | none =>
        if 512 ≤ x.replay.length || x.queue.isEmpty then s.sendPlain d p 1 0
        else
          let cs := x.queue.take 15
          let map := (cs.zipIdx.map fun e => e.1.1.toNat <<< e.2).foldl (· + ·) 0
          let b := State.buildFlit x 0 x.seq map (cs.map (·.2))
          let msgs := (x.msgs.foldl (fun a m =>
            let k := min a.1 m.wait
            (a.1 - k, a.2 ++ [if k == 0 then m else { m with wait := m.wait - k, last := x.seq }])) (cs.length, [])).2
          (s.setLink d p { b.2 with seq := (x.seq + 1) % 1024, replay := x.replay ++ [(x.seq, b.1)], queue := x.queue.drop 15
                                    msgs := msgs }).emit d p b.1

/-- The chunks that a message of a class has: a request, a snoop and a response are a header alone; data and a writeback carry 1 to
16 chunks of it (R30, R31, R451). -/
def chunksFit (m : Msg) : Bool :=
  match m.cls with
  | .req | .snp | .rsp => m.chunks.length == 1
  | .dat | .wb => decide (2 ≤ m.chunks.length) && decide (m.chunks.length ≤ 17)

/-- MESSAGE_SEND: message `m`, which stands at die `x`, takes credit of its class and channel and leaves on the next link of its
route; one that came by a link gives that link's buffer back (R30 to R32, R45, R49, R53). -/
def execMessageSend (x : Die) (m : Msg) (s : State) : Host.Outcome State Fault Refusal :=
  actD x s fun s =>
    let here := SMap.getD s.routers (dieCode x) []
    let flow (a b : Msg) : Bool := a.src == b.src && a.dst == b.dst && a.cls == b.cls && a.addr.map (· / 256) == b.addr.map (· / 256)
    let found := here.find? fun t => t.msg == m
    let first := match here.find? fun t => flow t.msg m with | some t => t.msg == m | none => true
    let owed := s.reissue.find? fun r => r.src == m.src && r.dst == m.dst
    let mine := match owed with | some r => r == m && found.any (·.reissued) | none => true
    match s.nextHop x m (found.any (·.crossed)) with
    | none => s
    | some (y, vc, fb) =>
      match instTo x y with
      | none => s
      | some p =>
        let l := s.link x p
        let pool := clsNo m.cls * 2 + vc
        if (found.isNone && m.src != x) || !first || !mine || !chunksFit m || !s.linkUp x p
            || l.credits.getD pool 0 < m.chunks.length then s
        else
          let cs := m.chunks.zipIdx.map fun c => (c.2 == 0, c.1)
          let s1 := s.setLink x p { l with
            credits := l.credits.modify pool (· - m.chunks.length), queue := l.queue ++ cs
            msgs := l.msgs ++ [⟨m, m.chunks.length, l.seq, vc, fb || found.any (·.fb)⟩] }
          let s2 := match found with
            | none => s1
            | some t =>
              let s3 := { s1 with routers := SMap.put s1.routers (dieCode x) (here.erase t) }
              match t.via with
              | none => s3
              | some q =>
                let lq := s3.link x q
                s3.setLink x q { lq with returns := lq.returns.modify (clsNo m.cls * 2 + t.vc) (· + m.chunks.length) }
          if fb && !found.any (·.fb) then (s2.bump (tfabPg x) Reg.TFAB_FALLBACK).raise (tfabPg x) 0
          else s2

/-- LANE_DIAGNOSIS: the lanes that fail the pattern are lost; a link whose lanes all pass returns to service and counts it (R635). -/
def execLaneDiagnosis (d : Die) (p : Nat) (bad : List (Nat × Nat)) (s : State) : Host.Outcome State Fault Refusal :=
  let lanes := bad.filter fun e => decide (e.1 < linkModules d p) && decide (e.2 < 64)
  .next
    (if 3 ≤ p || s.rxState d p != 1 || !(s.link d p).train.isEmpty || !(s.link d p).stuck.isEmpty then s
     else if lanes.isEmpty then (s.bump (d2dPg d p) Reg.D2D_RETRIES).resume d p
     else lanes.foldl (fun t e => t.loseLane d p e.1 e.2) s)

/-- LANE_LOSS: the receiver of a lane loses lock (R633); during a freeze it is a link timeout too (R644). -/
def execLaneLoss (d : Die) (p m l : Nat) (s : State) : Host.Outcome State Fault Refusal :=
  .next
    (if 3 ≤ p || linkModules d p ≤ m || 64 ≤ l || s.rxState d p == 0 || (s.link d p).stuck.contains (m, l) then s
     else (s.loseLane d p m l).linkTimeout 2)

/-- SPARE_SUBSTITUTION: the spare in training stands in for the lost position (R633, R636). -/
def execSpareSubstitution (d : Die) (p m l : Nat) (s : State) : Host.Outcome State Fault Refusal :=
  .next
    (let x := s.link d p
     match (if p < 3 then x.train.find? fun t => t.m == m && t.l == l else none) with
     | none => s
     | some t =>
       let s1 := s.setWord (d2dPg d p) 0x48 (putBits (s.mapWord d p m) (8 * t.spare) 8 (l + 64)) m
       let s2 := (s1.setLink d p { x with train := x.train.filter fun u => !(u.m == m && u.l == l) }).countSpares d p
       (((s2.raiseMax (d2dPg d p) Reg.D2D_SUBST_US_MAX ((s.base - t.since + 999) / 1000)).mapRecord d p m).raise (d2dPg d p) 0).settle d p)

/-- HALF_WIDTH_ENTRY: a lane without a spare takes the link to half width, if every module can make a half whole (R43, R634). -/
def execHalfWidthEntry (d : Die) (p : Nat) (s : State) : Host.Outcome State Fault Refusal :=
  .next
    (if 3 ≤ p || (s.link d p).stuck.isEmpty || !s.halvesOk d p || !s.halvesOk (peerOf d p).1 (peerOf d p).2 then s
     else s.linkHalf d p)

/-- LINK_DOWN: some module of the link can make neither half whole (R44, R634). -/
def execLinkDown (d : Die) (p : Nat) (s : State) : Host.Outcome State Fault Refusal :=
  .next
    (if 3 ≤ p || (s.link d p).stuck.isEmpty || (s.halvesOk d p && s.halvesOk (peerOf d p).1 (peerOf d p).2) then s
     else s.linkFall d p)

end Sys2Proof.Machine
end

