-- ==== Sys2Proof/Machine/TallyCmds.lean ====
section
/-! DEFINITION. The commands on tallies (R467 to R491): waits, signals, locks, windows and debug halts. -/

namespace Sys2Proof.Machine

namespace State

/-- The tally of a body, for the streams' opcodes on tallies (R184). -/
def bodyTally (x : Desc) : Nat := x.f 16 0 14

/-- An operation refused with DESC_FAULT at its tally, POSITION 16, and counted (R467, R480, R488). -/
def refuseTally (s : State) (d : Die) (n q t : Nat) : State :=
  (s.bump (talPg t) Reg.TAL_REFUSED).finish d n q stDescFault 16

/-- The tally is in a mode and belongs to the stream's compartment (R467). -/
def tallyIs (s : State) (d : Die) (n t mode : Nat) : Bool :=
  s.tallyOwner t == some (s.ctxCpt d n) && (s.tally t).mode == mode

/-- A signal of a descriptor on its way to its tally; with REL it waits for every earlier descriptor to end (R476, R477). -/
def signal (s : State) (d : Die) (n q : Nat) (x : Desc) (set : Bool) : State :=
  let t := bodyTally x
  if x.f 18 0 1 == 1 && !s.earlierEnded d n q then s
  else if s.tallyIs d n t 1 then
    State.finish { s with tallyOps := s.tallyOps ++ [⟨t, set, x.f 24 0 64, (dieCode d, n)⟩] } d n q stOk
  else s.refuseTally d n q t

/-- A hart's place. -/
def hart (s : State) (h : Nat) : Hart := SMap.getD s.harts h Hart.init
def setHart (s : State) (h : Nat) (x : Hart) : State := { s with harts := SMap.put s.harts h x }

/-- A hart reaches a tally window only of its own compartment, unchecked until MGMT_BOOT.OPEN; the window's access otherwise raises an
exception (R495, R604). A held hart makes no access. -/
def withWindow (s : State) (h t : Nat) (f : State → State) : State :=
  if (s.hart h).held then s
  else if t < 16384 && (s.getF mgmtPg Reg.MGMT_BOOT_OPEN == 0 || ((s.hartCpt h).isSome && s.hartCpt h == s.tallyOwner t)) then f s
  else s.answer (.hart h) .accessFault

/-- The tally that TAL_SEL of a spine die selects. -/
def selTally (s : State) (d : Die) : Nat :=
  (spineRing.findIdx? (· == d)).getD 0 * 2048 + s.getF ⟨d, .tal, 0⟩ Reg.TAL_SEL_SLOT

/-- A lock held by a hart. -/
def heldBy (s : State) (t h : Nat) : Bool := (s.tally t).holder == some (.hart h)

/-- A write of TALW_ADD: counters only (R489). -/
def windowAdd (s : State) (t v : Nat) : State :=
  if (s.tally t).mode == 1 then s.tallyApply ⟨t, false, v, (0xFF, 0)⟩ else s.bump (talPg t) Reg.TAL_REFUSED

/-- A write of TALW_SET_HI: the tally takes it with TALW_SET_LO (R489). -/
def windowSet (s : State) (t v : Nat) : State :=
  if (s.tally t).mode == 1 then
    s.tallyApply ⟨t, true, (SMap.getD s.talwLo t 0).toNat + v <<< 32, (0xFF, 0)⟩
  else s.bump (talPg t) Reg.TAL_REFUSED

/-- A write of 1 to TALW_RELEASE; `h` is the hart that writes, if one does (R480, R489). -/
def windowRelease (s : State) (t : Nat) (h : Option Nat) : State :=
  let mine := match h with | some k => s.heldBy t k | none => false
  if (s.tally t).mode == 2 && mine then s.freeLock t else s.bump (talPg t) Reg.TAL_REFUSED

/-- A write of 2 to TALW_RELEASE: ABANDONED goes to 0 while the lock is held (R480, R483). -/
def windowClear (s : State) (t : Nat) : State :=
  if (s.tally t).mode != 2 then s.bump (talPg t) Reg.TAL_REFUSED
  else if (s.tally t).holder.isSome then s.setTally t { s.tally t with abandoned := false }
  else s

/-- A write of TAL_CFG of the selected tally (R488, R492). A write of MODE 3 is ignored. -/
def tallyConfig (s : State) (d : Die) (v : Nat) : State :=
  let t := s.selTally d
  let pg : Page := ⟨d, .tal, 0⟩
  let x := s.tally t
  if x.holder.isSome || !x.waiters.isEmpty || s.tallyOwner t != some (bitsOf v 2 6) then s.pageErr pg
  else if bitsOf v 0 2 == 3 then s.pageErr pg
  else s.setTally t { Tally.init with mode := bitsOf v 0 2 }

/-- A poll that is over leaves the list. -/
def dropPoll (s : State) (i : Nat) : State := { s with polls := s.polls.eraseIdx i }

end State

/-! ### Descriptors -/

/-- TALLY_WAIT (R184, R467, R469, R478). -/
def execTallyWait (d : Die) (n q : Nat) (s : State) : Host.Outcome State Fault Refusal :=
  actD d s fun s => s.withRunning d n q 0x39 fun x =>
    let t := State.bodyTally x
    if !x.aux.isEmpty then s
    else if s.tallyIs d n t 1 then
      let w := if x.f 16 14 2 == 1 then WaitFor.ge (x.f 24 0 64) else WaitFor.eq (x.f 24 0 64)
      (s.updDesc d n q fun y => { y with aux := [1] }).registerWait t ⟨dieCode d, n, x.seq, w⟩
    else s.refuseTally d n q t

/-- TALLY_SIGNAL_ADD: a TALLY_SIGNAL with OP 00. -/
def execTallySignalAdd (d : Die) (n q : Nat) (s : State) : Host.Outcome State Fault Refusal :=
  actD d s fun s => s.withRunning d n q 0x3A fun x => if x.f 16 14 2 == 0 then s.signal d n q x false else s

/-- TALLY_SIGNAL_SET: a TALLY_SIGNAL with OP 01. -/
def execTallySignalSet (d : Die) (n q : Nat) (s : State) : Host.Outcome State Fault Refusal :=
  actD d s fun s => s.withRunning d n q 0x3A fun x => if x.f 16 14 2 == 1 then s.signal d n q x true else s

/-- TALLY_OPERATION: the operation at place `i` of those on their way reaches its tally; one stream's operations on one
tally arrive in order (R165, R468, R469). -/
def execTallyOperation (i : Nat) (s : State) : Host.Outcome State Fault Refusal :=
  act s fun s =>
    match s.tallyOps[i]? with
    | some o =>
      if (s.tallyOps.take i).any (fun p => p.t == o.t && p.src == o.src) || !s.runs (talPg o.t) then s
      else State.tallyApply { s with tallyOps := s.tallyOps.eraseIdx i } o
    | none => s

/-- WAIT_POLL: a wait without a waiter entry tests its tally and asks again for an entry (R470). -/
def execWaitPoll (i : Nat) (s : State) : Host.Outcome State Fault Refusal :=
  act s fun s =>
    match s.polls[i]? with
    | none => s
    | some (t, w) =>
      let s1 := s.dropPoll i
      match w.what with
      | .lock us =>
        if (s.tally t).holder.isNone && !((s.tally t).waiters.any fun v => v.what.isLock) then
          (s1.grantLock t (.stream w.die w.n) (s.ctxCpt (dieOf w.die) w.n) us).wakeWaiter w (s.grantStatus t)
        else if s.waitEntries t < 4096 then s1.setTally t { s.tally t with waiters := (s.tally t).waiters ++ [w] }
        else s
      | _ =>
        if w.what.met (s.tally t).value then s1.wakeWaiter w stOk
        else if s.waitEntries t < 4096 then s1.setTally t { s.tally t with waiters := (s.tally t).waiters ++ [w] }
        else s

/-- LOCK_ACQUIRE (R467, R470, R480). -/
def execLockAcquire (d : Die) (n q : Nat) (s : State) : Host.Outcome State Fault Refusal :=
  actD d s fun s => s.withRunning d n q 0x3B fun x =>
    let t := State.bodyTally x
    let us := x.f 20 0 32
    let me := Holder.stream (dieCode d) n
    let w : Waiter := ⟨dieCode d, n, x.seq, .lock us⟩
    if !x.aux.isEmpty then s
    else if !s.tallyIs d n t 2 then s.refuseTally d n q t
    else
      match (s.tally t).holder with
      | none => (s.grantLock t me (s.ctxCpt d n) us).finish d n q (s.grantStatus t)
      | some h =>
        if h == me then (s.grantLock t me (s.ctxCpt d n) us).finish d n q (s.grantStatus t)
        else
          let s1 := s.updDesc d n q fun y => { y with aux := [1] }
          if s.waitEntries t < 4096 then s1.setTally t { s.tally t with waiters := (s.tally t).waiters ++ [w] }
          else s1.startPoll t w

/-- LOCK_RELEASE: by the holding stream, once every earlier descriptor has ended (R467, R476, R480). -/
def execLockRelease (d : Die) (n q : Nat) (s : State) : Host.Outcome State Fault Refusal :=
  actD d s fun s => s.withRunning d n q 0x3C fun x =>
    let t := State.bodyTally x
    if !s.earlierEnded d n q then s
    else if s.tallyIs d n t 2 && (s.tally t).holder == some (.stream (dieCode d) n) then (s.freeLock t).finish d n q stOk
    else s.refuseTally d n q t

/-- LEASE_LAPSE: at a whole microsecond at or after its end, a lease that runs lapses (R482, R486). -/
def execLeaseLapse (t : Nat) (s : State) : Host.Outcome State Fault Refusal :=
  act s fun s =>
    let x := s.tally t
    if x.holder.isSome && x.paused.isNone && x.leaseEnd ≤ s.base / 1000 * 1000 then
      ((s.bump (talPg t) Reg.TAL_LEASE_LAPSES).raise (talPg t) 2).abandonLock t
    else s

/-! ### Windows -/

/-- TALW_ADD by hart `h`. -/
def execTalwAdd (h t : Nat) (v : W32) (s : State) : Host.Outcome State Fault Refusal :=
  act s fun s => s.withWindow h t fun s => (s.windowAdd t v.toNat).answer (.hart h) .done

/-- TALW_SET_HI by hart `h`. -/
def execTalwSetHi (h t : Nat) (v : W32) (s : State) : Host.Outcome State Fault Refusal :=
  act s fun s => s.withWindow h t fun s => (s.windowSet t v.toNat).answer (.hart h) .done

/-- TALW_TRY: a read by hart `h` (R480, R489). -/
def execTalwTry (h t : Nat) (s : State) : Host.Outcome State Fault Refusal :=
  act s fun s => s.withWindow h t fun s =>
    let r := s.lockTry h t
    r.2.answer (.hart h) .done (leBytes r.1 4)

/-- TALW_RELEASE: a write of 1 by hart `h` (R480, R489). -/
def execTalwRelease (h t : Nat) (s : State) : Host.Outcome State Fault Refusal :=
  act s fun s => s.withWindow h t fun s => (s.windowRelease t (some h)).answer (.hart h) .done

/-- TALW_CLEAR_ABANDONED: a write of 2 to TALW_RELEASE by hart `h` (R480, R483). -/
def execTalwClearAbandoned (h t : Nat) (s : State) : Host.Outcome State Fault Refusal :=
  act s fun s => s.withWindow h t fun s => (s.windowClear t).answer (.hart h) .done

/-- TAL_CFG_WRITE on the TAL page of a spine die (R488, R492). -/
def execTalCfgWrite (d : Die) (v : W32) (s : State) : Host.Outcome State Fault Refusal :=
  actD d s fun s => s.tallyConfig d v.toNat

/-! ### Debug mode -/

/-- HART_DEBUG_ENTER: leases of the hart's locks stop, its reservation is cleared, and DEBUG_OPEN reads 1 (R484, R485, R638). -/
def execHartDebugEnter (h : Nat) (s : State) : Host.Outcome State Fault Refusal :=
  act s fun s =>
    if h < 96 && !(s.hart h).debug && !(s.hart h).held then
      let pause (x : Tally) : Tally :=
        if x.holder == some (.hart h) && x.paused.isNone then { x with paused := some (x.leaseEnd - s.base) } else x
      s.notePromise (State.setHart { s with tallies := s.tallies.map fun e => (e.1, pause e.2) } h
        { s.hart h with debug := true, resv := none })
    else s

/-- HART_DEBUG_EXIT: the leases go on from their remaining time (R484). -/
def execHartDebugExit (h : Nat) (s : State) : Host.Outcome State Fault Refusal :=
  act s fun s =>
    if (s.hart h).debug then
      let resume (x : Tally) : Tally :=
        match x.holder == some (.hart h), x.paused with
        | true, some r => { x with paused := none, leaseEnd := s.base + r }
        | _, _ => x
      s.notePromise (State.setHart { s with tallies := s.tallies.map fun e => (e.1, resume e.2) } h { s.hart h with debug := false })
    else s

end Sys2Proof.Machine
end

