-- ==== Sys2Proof/Machine/Clear.lean ====
section
/-! DEFINITION. What the resets share (R538, R608 to R613, R618): which register bits survive, the ends of a block's work, the abort
of a compartment, a core's hold, and what a die loses. -/

namespace Sys2Proof.Machine

/-- The pages of the always-on island, of the PCIe controller and of the coordination block, which a die recovery reset of N0
leaves (R608). -/
def apart (pg : Page) : Bool :=
  match pg.blk with
  | .cpt | .pcie | .frz | .ledg | .svc | .mgmt | .conv => true
  | _ => false

/-- The pages of the always-on island, which a module reset leaves (R608). -/
def alwaysOn (pg : Page) : Bool :=
  match pg.blk with
  | .cpt | .frz | .ledg | .svc | .mgmt => true
  | _ => false

/-- Bits of the TV fields held in the always-on island (R566 to R568, R618). -/
def tvKept (pg : Page) (off : Nat) : Nat :=
  match pg.blk with
  | .clk => if off == 0x40 then 0x3F else if off == 0x44 then 0x1FF else 0
  | .pwr => if off == 0x40 then 0xFFF else 0
  | .thm => if off == 0x44 then 0xFFFFFFFF else 0
  | _ => 0

/-- Bits of a register word that a block reset of its page leaves: the settings that R618 keeps, what the ledger holds, and the
live status of what lies outside the block (DESIGN CHOICE, notes/assumptions/52.md). -/
def blockKept (pg : Page) (off : Nat) : Nat :=
  if off < 0x40 then 0
  else
    let all := 0xFFFFFFFF
    match pg.blk with
    | .eng => if pg.inst < 100 then (if off == 0x40 then all else 0) else if pg.inst == 0x80 && 0x100 ≤ off then all else 0
    | .hbmc => if off == 0x40 then 0x3F else if off == 0x6C || off == 0x70 then all else 0
    | .depc => if off == 0x80 then all else 0
    | .net => if pg.inst == 8 && 0x100 ≤ off then all else 0
    | .cpt => if pg.inst == 0 && (off == 0x40 || off == 0x48 || off == 0x4C) then all else 0
    | .clk => if off == 0x48 then 6 else if off == 0x54 then 0xFF else tvKept pg off
    | .pwr => if off == 0x44 || off == 0x54 then all else tvKept pg off
    | .thm => if off == 0x40 || off == 0x48 then all else tvKept pg off
    | .pcie => if off == 0x40 || off == 0x50 || 0x60 ≤ off then all else 0
    | .mgmt => if off == 0x40 || off == 0x50 || (0x58 ≤ off && off ≤ 0x64) then all else if off == 0x54 then 0x13 else 0
    | .bist => if off == 0x48 || off == 0x5C then all else 0
    | .frz => if off == 0x48 then all else 0
    | .tfab => if off == 0x44 || off == 0x4C then all else 0
    | .d2d => if off == 0x40 || off == 0x48 then all else 0
    | .ledg => if off ≤ 0x50 || off == 0x84 then all else if off == 0x88 then 1 else 0
    | .whc => if off ≤ 0x4C || off == 0x58 || off == 0x5C then all else if off == 0x50 then 2 else 0
    | _ => 0

/-- Bits of a register word that software writes: the retention registers of R618. -/
def retained (pg : Page) (off : Nat) : Nat :=
  match rowAt pg off with
  | some r => r.rw ||| r.wm ||| r.wb ||| r.tv
  | none => 0

namespace State

/-- The words of the pages that satisfy `p` back at their reset values, but for the bits that `keep` names. -/
def clearRegs (s : State) (p : Page → Bool) (keep : Page → Nat → Nat) : State :=
  let mine (k : Nat) : Option Page := (pageAt (keyPage k)).filter p
  { s with
    regs := s.regs.filterMap fun e =>
      match mine e.1 with
      | none => some e
      | some pg =>
        let m := keep pg (keyOff e.1)
        if m == 0 then none
        else some (e.1, BitVec.ofNat 32 ((e.2.toNat &&& m) ||| (resetWord s.fuses pg (keyOff e.1) (keyBank e.1) &&& (m ^^^ 0xFFFFFFFF))))
    tvB := s.tvB.filter fun e => match mine e.1 with | none => true | some pg => keep pg (keyOff e.1) != 0
    tvC := s.tvC.filter fun e => match mine e.1 with | none => true | some pg => keep pg (keyOff e.1) != 0
    heldLo := s.heldLo.filter fun e => (mine e.1).isNone
    latchHi := s.latchHi.filter fun e => (mine e.1).isNone }

/-! ### Work of a block -/

/-- The streams of the module with their dies and numbers. -/
def allStreams (s : State) : List (Die × Nat) := s.streams.map fun e => (dieOf (e.1 >>> 14), e.1 % 2 ^ 14)

/-- A running descriptor of stream `n` of die `d` is in progress on the block of a page. -/
def usesPage (s : State) (d : Die) (n : Nat) (x : Desc) (pg : Page) : Bool :=
  x.phase == .running &&
  match pg.blk with
  | .eng => pg.die == d && pg.inst == s.ctxEngine d n && [0x01, 0x02, 0x08, 0x09, 0x10].contains x.op
  | .plc => x.op == 0x11
  | .upd =>
    if x.op == 0x19 then !x.aux.isEmpty && (reqLots x).any fun a => (s.updUnit a).map updPg == some pg
    else (x.op == 0x20 || x.op == 0x21) && (List.range x.uLots).any fun l => s.lotPg x l == pg
  | .lkp => (x.op == 0x18 || x.op == 0x19) && (pg.inst == 0x10 || lkpPg x.lkEngine == pg)
  | .xch =>
    (x.op == 0x12 && (if x.aux.isEmpty then s.xchNd (gwLayer x) else x.aux.getLastD 0 / 64) == netNo pg.die)
      || s.xch.any fun e => e.1 / 2 == netNo pg.die && e.2.die == dieCode d && e.2.n == n && e.2.seq == x.seq
  | .prep => x.op == 0x30 && (x.aux.head?.any fun u => u != 0 && prepPg (u - 1) == pg)
  | _ => false

/-- What a block runs ends with ABORTED_BY_RESET (R612). -/
def endRunning (s : State) (pg : Page) : State :=
  s.allStreams.foldl (fun t e =>
    ((t.stream e.1 e.2).fetched.filter fun x => t.usesPage e.1 e.2 x pg).foldl (fun u x => u.finish e.1 e.2 x.slot stAborted) t) s

/-- The queue pairs of network die `nd`, listed. -/
def qpsOf (s : State) (nd : Nat) : List Nat := (s.qps.filter fun e => e.1 >>> 14 == nd).map (·.1)

/-- Every queue pair of a network die in RESET, its context kept, and every memory region deregistered (R618). -/
def resetRdma (s : State) (nd : Nat) : State :=
  let t := (s.qpsOf nd).foldl qpReset s
  { t with mrs := t.mrs.filter fun e => e.1 >>> 16 != nd }

/-- A coordination context stops (R408, R500). -/
def convStop (s : State) (k : Nat) : State :=
  ((s.setCvSt k 0).setF (convPg k) Reg.CONV_STAT_IS_MANAGER 0).setConv k Conv.init

/-- The streams of die `d` that are not DISABLED aborted; their records are written where their pages allow. -/
def abortDie (s : State) (d : Die) : State :=
  (s.allStreams.filter fun e => e.1 == d && (s.streamState d e.2 != 0 || !(s.stream d e.2).fetched.isEmpty)).foldl
    (fun t e => flushHeld d e.2 256 (t.abortStream d e.2)) s

/-- What the block of a page holds beside its registers, after its reset (R612, R618). -/
def clearBlock (s : State) (pg : Page) : State :=
  let s1 := s.endRunning pg
  match pg.blk with
  | .eng =>
    if pg.inst < 100 then
      let x := s1.engine pg.die pg.inst
      s1.setEngine pg.die pg.inst { Engine.init with
        arrays := x.arrays.map fun a => { Arr.init with isolated := a.isolated, clearing := a.clearing, errPending := a.errPending }
        fillCpt := x.fillCpt }
    else if pg.inst == 0x80 then
      (s1.allStreams.filter fun e => e.1 == pg.die && s1.streamState e.1 e.2 != 0).foldl (fun t e => t.abortStream e.1 e.2) s1
    else s1
  | .net =>
    if pg.inst == 8 then s1.resetRdma (netNo pg.die)
    else if pg.inst == 0x10 then { s1 with modT := 0, ppsAt := none }
    else
      let lp := (netNo pg.die * 4 + pg.inst) * 2
      let s2 : State := { s1 with
        paused := s1.paused.filter fun e => e.1 / 16 != netNo pg.die * 4 + pg.inst
        netWait := s1.netWait.filter fun f => f.port.elim true fun p => p / 2 != netNo pg.die * 4 + pg.inst
        ptp := s1.ptp.filter fun e => e.1 / 2 != netNo pg.die * 4 + pg.inst }
      ((s2.setF pg Reg.NET_PORT_STAT_LINK 0).steer lp).steer (lp + 1)
  | .xch => { s1 with xch := s1.xch.filter fun e => e.1 / 2 != netNo pg.die, wins := s1.wins.filter fun e => e.1 / 64 != netNo pg.die }
  | .lkp => if pg.inst == 0x10 then { s1 with tables := [], tblLoad := none, hot := [], sweptAt := [], sweeps := [], tblM := [] }
    else { s1 with sweeps := s1.sweeps.filter fun e => lkpPg e.1 != pg }
  | .upd => { s1 with ds := s1.ds.filter fun e => updPg e.1 != pg }
  | .xlt => { s1 with invs := SMap.del s1.invs (dieCode pg.die), walkers := s1.walkers.filter fun e => e.die != dieCode pg.die }
  | .coh => { s1 with routes := [] }
  | .conv => s1.convStop pg.inst
  | .pool => if (SMap.find s1.place.poolq pg.inst).isSome then s1.poolDone pg.inst stAborted else s1
  | .bist => { s1 with bists := s1.bists.filter fun e => e.1 != dieCode pg.die }
  | .svc => { s1 with locateEnd := 0, soundAt := 0 }
  | .clk => { s1 with clocks := { s1.clocks with waiting := s1.clocks.waiting.filter fun e => e.1 >>> 8 != dieCode pg.die } }
  | _ => s1

/-! ### Harts -/

/-- A cache's lines written back where they are newer than memory, and every copy of it dropped (R613, R618). -/
def flushCache (s : State) (k : Cache) : State :=
  let mine (c : Cache) : Bool := c == k
  (s.lines.filter fun e => e.2.copies.any (fun c => mine c.cache) || e.2.bufs.any fun b => mine b.cache).foldl (fun t e =>
    let own := (e.2.copies.find? fun c => mine c.cache && c.st == 2).map (·.data)
    let buf := (e.2.bufs.find? fun b => mine b.cache && b.st != 2).map (·.data)
    let t1 := match own with | some b => t.wrBytes (64 * e.1) b | none => match buf with | some b => t.wrBytes (64 * e.1) b | none => t
    t1.setLine e.1 { e.2 with
      copies := e.2.copies.filter fun c => !mine c.cache
      bufs := e.2.bufs.filter fun b => !mine b.cache }) s

/-- The caches of a core (R613). -/
def flushCore (s : State) (h : Nat) : State := s.flushCache (.core h)

/-- `s` with the bit of a hart in MGMT_CORE_HELD set to `v`. -/
def setHeldBit (s : State) (h v : Nat) : State :=
  let off := 0x58 + 4 * (h / 32)
  s.setWord mgmtPg off (putBits (s.word mgmtPg off) (h % 32) 1 v)

/-- A core reset's hold (R482, R485, R613): caches written back, locks abandoned, the hart held. -/
def holdHart (s : State) (h : Nat) : State :=
  ((((s.flushCore h).abandonWhere fun k => k == .hart h).setHart h ⟨true, false, none⟩).setHeldBit h 1)

/-- A hart released: it starts at the boot ROM's reset vector (R613). -/
def freeHart (s : State) (h : Nat) : State := (s.setHart h ⟨false, false, none⟩).setHeldBit h 0

/-- The harts of a compartment. -/
def hartsOf (s : State) (c : Nat) : List Nat := (List.range 96).filter fun h => s.hartCpt h == some c

/-- What a last-reset report says (R619): kind, cause, target. -/
def noteReset (s : State) (kind cause target : Nat) : State :=
  ((s.setF mgmtPg Reg.MGMT_RESET_LAST_KIND kind).setF mgmtPg Reg.MGMT_RESET_LAST_CAUSE cause).setF mgmtPg
    Reg.MGMT_RESET_LAST_TARGET target

/-! ### Compartments -/

/-- Step 1 of R500: the compartment's streams and those bound to its engines aborted, its queue pairs reset, its coordination
contexts stopped, its locks abandoned, its harts held. -/
def cptReset (s : State) (c : Nat) : State :=
  let own (e : Die × Nat) : Bool :=
    s.ctxCpt e.1 e.2 == c || s.owner 0 (dieCode e.1 * 100 + s.ctxEngine e.1 e.2) == c
  let s1 := (s.allStreams.filter fun e => own e && s.streamState e.1 e.2 != 0).foldl (fun t e => t.abortStream e.1 e.2) s
  let s2 := ((s1.qps.map (·.1)).filter fun k => s1.qpCpt k == c).foldl qpReset s1
  let s3 := ((List.range 4).filter fun k => s2.cvSt k != 0 && s2.cvCpt k == c).foldl convStop s2
  let locks := s3.tallies.filter fun e => e.2.holder.isSome && e.2.holderCpt == c
  (s3.hartsOf c).foldl holdHart (locks.foldl (fun t e => t.abandonLock e.1) s3)

/-! ### Dies -/

/-- The lines of homes on the host dies that a lost die's caches hold leave those caches without being written back (R618). -/
def loseCaches (s : State) (d : Die) : State :=
  { s with lines := s.lines.filterMap fun e =>
      let x := { e.2 with
        copies := e.2.copies.filter fun c => cacheDie c.cache != d
        bufs := e.2.bufs.filter fun b => cacheDie b.cache != d }
      if x == Line.init then none else some (e.1, x) }

/-- The cisterns of a tensor die lost (R618). -/
def loseCisterns (s : State) (d : Die) : State :=
  if isTensor d then s.zeroBytes (cisternBase + dieCode d <<< 32) (2 ^ 32) else s

/-- What a die recovery reset does to a die at its start (R610, R618): its work ends with ABORTED_BY_RESET, its registers return to
their reset values and its volatile state is lost; the tally block keeps its state. -/
def loseDie (s : State) (d : Die) : State :=
  let mine (pg : Page) : Bool := pg.die == d && !apart pg
  let pgs : List Page :=
    (List.range 2).map (⟨d, .upd, ·⟩) ++ (List.range 4).map (⟨d, .lkp, ·⟩) ++ [⟨d, .plc, 0⟩, ⟨d, .xch, 0⟩]
      ++ (List.range 2).map (⟨d, .prep, ·⟩)
  let torn := s.tearLots fun pg => pg.die == d
  let s0 : State := { torn.1 with engines := s.engines.filter fun e => e.1 >>> 7 != dieCode d }
  let s1 := pgs.foldl endRunning (s0.abortDie d)
  let s2 := if isNet d then s1.resetRdma (netNo d) else s1
  let s3 := if isHost d then (List.range 48).foldl (fun t i =>
      let h := i + (if d == .H1 then 48 else 0)
      (State.abandonWhere t fun k => k == .hart h).setHart h Hart.init |>.setHeldBit h 1) (s2.loseCaches d) else s2
  let s4 := (s3.loseCisterns d).clearRegs mine fun pg off =>
    if off == 0x14 then 8
    else if pg.blk == .net && pg.inst == 8 then blockKept pg off
    else if pg.blk == .eng && pg.inst < 100 then blockKept pg off
    else if pg.blk == .hbmc then (if off == 0x40 then 0x3F else if off == 0x70 then 0xFFFFFFFF else 0)
    else if pg.blk == .bist then blockKept pg off
    else if pg.blk == .tfab then blockKept pg off
    else if pg.blk == .whc then blockKept pg off
    else if pg.blk == .d2d then (if off == 0x40 then 0xFFFFFFFF else 0)
    else tvKept pg off
  let cap := if isCap d then { s4 with tblLoad := if d == .C0 then none else s4.tblLoad
                                       tables := if d == .C0 then [] else s4.tables
                                       hot := if d == .C0 then [] else s4.hot
                                       tblM := if d == .C0 then [] else s4.tblM
                                       sweeps := s4.sweeps.filter fun e => (lkpPg e.1).die != d } else s4
  State.countTears (us := torn.2) { cap with
    streams := cap.streams.filter fun e => e.1 >>> 14 != dieCode d
    chans := cap.chans.filter fun e => e.1 / 32 != dieCode d
    chanAt := SMap.put cap.chanAt (dieCode d) cap.base
    ds := cap.ds.filter fun e => (updPg e.1).die != d
    xch := cap.xch.filter fun e => !isNet d || e.1 / 2 != netNo d
    wins := cap.wins.filter fun e => !isNet d || e.1 / 64 != netNo d
    invs := SMap.del cap.invs (dieCode d)
    walkers := cap.walkers.filter fun e => e.die != dieCode d
    budgets := SMap.del cap.budgets (dieCode d)
    coolAt := SMap.del cap.coolAt (dieCode d)
    bists := cap.bists.filter fun e => e.1 != dieCode d
    tests := cap.tests.filter fun e => e.die != dieCode d
    links := cap.links.filter fun e => e.1 / 4 != dieCode d }

/-! ### Who reaches a register page (R495, R517, R537) -/

/-- The compartment of a requester's register accesses. -/
def reqCpt (s : State) (r : Requester) : Option Nat :=
  match r with
  | .hart h => s.hartCpt h
  | .pcie => some (s.getF cptPg Reg.CPT_CFG_PCIE)
  | _ => none

/-- A requester may access a register page; a hart's accesses are unchecked until MGMT_BOOT.OPEN (R495, R537, R604). -/
def reaches (s : State) (r : Requester) (pg : Page) : Bool :=
  match r with
  | .inspect => s.inspectOn
  | .mgmt => (pageCpt pg).isNone
  | .hart _ | .pcie =>
    (match r with | .hart _ => s.getF mgmtPg Reg.MGMT_BOOT_OPEN == 0 | _ => false)
      || s.reqCpt r == some ((pageCpt pg).getD (s.getF cptPg Reg.CPT_CFG_ADMIN))
  | _ => false

end State

end Sys2Proof.Machine
end

