-- ==== Sys2Proof/Machine/Ledger.lean ====
section
/-! DEFINITION. The event log, the ledger, the calendar clock, the wear of the warehouse, and the service panel (R653 to R675). -/

namespace Sys2Proof.Machine

/-- The code of an error class (R621). -/
def classCode : ErrClass → Nat
  | .corrected => 1 | .transient => 2 | .lasting => 3 | .data => 4 | .fatal => 5 | .writeLost => 6 | .refusal => 7

/-- The 32 bytes of an error record (R622). -/
def errBytes (e : ErrRec) : Bytes :=
  leBytes e.time 8 ++ leBytes (classCode e.cls) 1 ++ leBytes e.die 1 ++ leBytes e.block 2 ++ leBytes e.inst 1
    ++ leBytes e.island 1 ++ leBytes e.status 1 ++ leBytes e.injected.toNat 1 ++ leBytes (e.addr % 2 ^ 45) 8
    ++ leBytes (e.reqId % 2 ^ 14 + (e.reqDie % 256) <<< 14 + (e.reqKind % 4) <<< 22 + (e.reqCpt % 64) <<< 24) 4 ++ leBytes e.seq 4

/-- A command of a part that runs while the auxiliary path is on (R582, R640). -/
def auxAct (s : State) (f : State → State) : Host.Outcome State Fault Refusal :=
  .next (if s.getF pciePg Reg.PCIE_HSW_AUX_ON == 1 then f s else s)

/-- A command of the management controller, which answers from stage 2 on (R584, R602). -/
def mcAct (s : State) (f : State → State) : Host.Outcome State Fault Refusal :=
  .next (if s.getF pciePg Reg.PCIE_HSW_AUX_ON == 1 && decide (2 ≤ s.getF mgmtPg Reg.MGMT_BOOT_STAGE) then f s else s)

/-- The program budget of a network die's flash in bytes (R661). -/
def whcBudget : Nat := 32 * 2 ^ 40 * 3000 * 91 / 100
/-- The most credit that accrues: 30 days at 0.6088 GB/s (R661). -/
def whcCreditMax : Nat := 608800000 * 30 * 86400

namespace State

/-- Word `k` of the oldest unread record of the event log; 0 with none (R665). -/
def logWord (s : State) (k : Nat) : Nat :=
  match s.log with
  | e :: _ => leNat ((errBytes e).drop (4 * k) |>.take 4)
  | [] => 0

/-! ### Warehouse wear (R661 to R664) -/

/-- Host writes of a die are paced from now on (R661, R675). -/
def startPacing (s : State) (nd : Nat) : State :=
  if s.getF (whcPg nd) Reg.WHC_STAT_PACED == 1 then s
  else ((s.setFlash nd { s.flash nd with paced := some s.aon }).setF (whcPg nd) Reg.WHC_STAT_PACED 1).raise (whcPg nd) 0

/-- Pacing ends; its time is counted (R673). -/
def endPacing (s : State) (nd : Nat) : State :=
  if s.getF (whcPg nd) Reg.WHC_STAT_PACED == 0 then s
  else
    let x := s.flash nd
    let us := (s.aon - x.paced.getD s.aon) / 1000
    ((s.setFlash nd { x with paced := none }).setF (whcPg nd) Reg.WHC_STAT_PACED 0).bump (whcPg nd) Reg.WHC_PACED_US us

/-- Credit accrues at 0.6088 GB/s, which is 761 bytes in 1,250 ns, up to 30 days' worth (R661). -/
def accrue (s : State) (nd : Nat) : State :=
  let x := s.flash nd
  let k := (s.aon - x.accrued) / 1250
  let s1 := s.setFlash nd { x with credit := min (x.credit + 761 * k) whcCreditMax, accrued := x.accrued + 1250 * k }
  if (s1.flash nd).credit != 0 && s1.getF (whcPg nd) Reg.WHC_STAT_WORN == 0 then s1.endPacing nd else s1

/-! ### Service tag (R666 to R669) -/

/-- Live arrays of the module (R6). -/
def liveArrays (s : State) : Nat :=
  ((List.range 800).map fun i =>
    if engineFused s.fuses (dieOf (i / 100)) (i % 100) then 0 else popCount (s.liveMask (dieOf (i / 100)) (i % 100)) 4).foldl
    (· + ·) 0

/-- The health code (R667). -/
def health (s : State) : Nat :=
  if s.getF mgmtPg Reg.MGMT_BOOT_ERROR != 0 || s.getF mgmtPg Reg.MGMT_DIES_UNUSABLE != 0 then 2
  else if s.getF (whcPg 0) Reg.WHC_STAT_WORN == 1 || s.getF (whcPg 1) Reg.WHC_STAT_WORN == 1 then 3
  else if s.getF mgmtPg Reg.MGMT_LIMITED_ACTIVE == 1 || !s.ledger.retired.isEmpty || !s.ledger.fenced.isEmpty then 1
  else 0

/-- Die code, block type and class of the last LASTING or FATAL record that the ledger holds (R666). -/
def lastFault (s : State) : Option (Nat × Nat × Nat) :=
  (s.ledger.events.filterMap (·.err)).find? (fun e => e.cls == .lasting || e.cls == .fatal) |>.map fun e =>
    (e.die, e.block, classCode e.cls)

/-- The hot-plug state (R592, R600). -/
def hpState (s : State) : Nat := s.getF pciePg Reg.PCIE_HP_STATE_STATE

/-- What a whole image would show now (R666). -/
def panelNow (s : State) : Panel :=
  ⟨s.liveArrays, s.health, s.hpState == 5, s.lastFault, s.ledger.insertions, true, s.panel.drawnAt⟩

/-- The image shows something else than the module's state. -/
def panelStale (s : State) : Bool :=
  let p := s.panelNow
  !(p.live == s.panel.live && p.health == s.panel.health && p.safe == s.panel.safe && p.fault == s.panel.fault
    && p.insertions == s.panel.insertions)

/-- A drawing begins: refresh-pending record, band blanked, refresh (R668). -/
def drawStart (s : State) : State :=
  let s1 := ({ s with panel := { s.panelNow with band := false, drawnAt := some s.aon } }).setF svcPg Reg.SVC_TAG_STAT_DRAWING 1
  s1.ledg .refreshPending []

/-- A drawing at once, or one further drawing after that in progress (R668). -/
def drawNow (s : State) : State :=
  if s.getF svcPg Reg.SVC_TAG_STAT_DRAWING == 1 then s.setF svcPg Reg.SVC_TAG_STAT_QUEUED 1 else s.drawStart

/-- The ledger holds a refresh-pending record that no done record follows (R669). -/
def tagTorn (s : State) : Bool :=
  match s.ledger.events.find? fun e => e.kind == .refreshPending || e.kind == .refreshDone with
  | some e => e.kind == .refreshPending
  | none => false

/-- An error record of class LASTING or FATAL: log, ledger, a drawing at once (R621, R654, R668). -/
def lastingRec (s : State) (r : ErrRec) : State :=
  let s1 := s.logRec r
  (s1.ledg .error [r.die, r.block, r.inst] (some { r with time := s.timeNs })).drawNow

/-! ### Calendar clock (R659) -/

/-- A source of rank `k` sets the calendar clock to `v` seconds; in the second of a setting by a source ranked lower it does
nothing. -/
def rtcSet (s : State) (k v : Nat) : State :=
  let same := match s.rtcSetAt with | some t => t / 10 ^ 9 == s.aon / 10 ^ 9 | none => false
  if same && decide (s.getF ledgPg Reg.LEDG_RTC_HI_SRC < k) && s.getF ledgPg Reg.LEDG_RTC_HI_SRC != 0 then s
  else
    { ((s.setRtc v).setF ledgPg Reg.LEDG_RTC_HI_VALID 1).setF ledgPg Reg.LEDG_RTC_HI_SRC k with
      rtcSetAt := some s.aon, rtcLost := false }

/-- Uncorrectable codewords counted on a channel since its counter was last reset. -/
def uncorrOf (s : State) (d : Die) (ch : Nat) : Nat := s.getF (memPg d) (uncorrF d) ch

/-- The life counts of uncorrectable codewords, by stack 0 to 7 and by package 8 to 39, brought up to now; the counts last seen
stand 64 above (R654). -/
def uncorrLife (s : State) : SMap Nat :=
  (List.range 40).foldl (fun m k =>
    let d := if k < 8 then dieOf k else dieOf (12 + (k - 8) / 8)
    let now := ((List.range 32).filter fun ch => k < 8 || ch / 4 == (k - 8) % 8).foldl (fun a ch => a + s.uncorrOf d ch) 0
    let seen := SMap.getD m (64 + k) 0
    let more := if seen ≤ now then now - seen else now
    SMap.put (SMap.put m k (SMap.getD m k 0 + more)) (64 + k) now) s.ledger.uncorr

end State

/-- HOURLY_RECORD: a power-on hour is over; the hourly record and the summary are written (R653, R654, R656). `mvh` gives the voltage-time
integral that each die gained. -/
def execHourlyRecord (mvh : List (Die × Nat)) (s : State) : Host.Outcome State Fault Refusal :=
  auxAct s fun s =>
    let s1 := mvh.foldl (fun t e => t.bump ledgPg Reg.LEDG_VT e.2 (dieCode e.1)) (s.bump ledgPg Reg.LEDG_POH)
    let vt : SMap Nat := (List.range 16).map fun d => (d, s1.getF ledgPg Reg.LEDG_VT d)
    let full := decide (131072 ≤ s.ledger.hourly.length)
    let s2 := [0, 1].foldl (fun (t : State) nd =>
      let p := (State.whcPg nd)
      (t.setF p Reg.WHC_PE_MEAN ((t.flash nd).prog / (32 * 2 ^ 40))).setF p Reg.WHC_PE_MAX (Config.peMax nd t.free).toNat) s1
    let s3 := s2.drawFree.2.summary fun l => { l with
      hourly := (⟨s2.getF ledgPg Reg.LEDG_POH, vt⟩ :: l.hourly).take 131072, uncorr := s2.uncorrLife }
    if full then s3.setF ledgPg Reg.LEDG_STAT_HOURLY_WRAPPED 1 else s3

/-- ERASE_AHEAD: with fewer than 64 erased pages ahead of the event area's write pointer, a sector of 16 pages is erased (R657). -/
def execEraseAhead (s : State) : Host.Outcome State Fault Refusal :=
  auxAct s fun s =>
    if s.getF ledgPg Reg.LEDG_FREE_PAGES < 64 then s.setF ledgPg Reg.LEDG_FREE_PAGES (s.getF ledgPg Reg.LEDG_FREE_PAGES + 16) else s

/-- PAGE_PROGRAM_FAIL: a program that fails is retried once in the next page; a sector that fails its erase is skipped; both are
reported (R658). -/
def execPageProgramFail (erase : Bool) (s : State) : Host.Outcome State Fault Refusal :=
  auxAct s fun s =>
    let s1 := if erase then s else s.setF ledgPg Reg.LEDG_FREE_PAGES (s.getF ledgPg Reg.LEDG_FREE_PAGES - 1)
    (s1.setF ledgPg Reg.LEDG_STAT_WRITE_FAIL 1).raise ledgPg 1

/-- LEDG_RTC_HI: the write sets the calendar clock together with the LEDG_RTC_LO written before it (R527, R659). -/
def execLedgRtcHi (v : W32) (s : State) : Host.Outcome State Fault Refusal :=
  auxAct s fun s =>
    let key := regKey ledgPg 0x4C 0
    let lo := match SMap.find s.heldLo key with | some w => w.toNat | none => s.word ledgPg 0x4C
    State.rtcSet { s with heldLo := SMap.del s.heldLo key } 1 (lo + (v.toNat % 2 ^ 16) <<< 32)

/-- PTP_RTC_SET: at the servo's first lock, and an hour or more after the last time, module time sets a clock that differs from
it by more than 1 s (R659). -/
def execPtpRtcSet (s : State) : Host.Outcome State Fault Refusal :=
  act s fun s =>
    let due := match s.ptpAt with | none => true | some t => decide (t + 3600 * 10 ^ 9 ≤ s.aon)
    if s.getF ledgPg Reg.LEDG_RTC_CFG_PTP_EN == 1 && due then
      let sec := s.timeNs / 10 ^ 9
      let s1 : State := { s with ptpAt := some s.aon }
      if sec + 1 < s.rtc || s.rtc + 1 < sec then s1.rtcSet 2 sec else s1
    else s

/-- LEDG_LOG_DATA7: the read answers word 7 of the oldest unread record and removes it, an inspection read apart (R536, R665). -/
def execLedgLogData7 (r : Requester) (s : State) : Host.Outcome State Fault Refusal :=
  auxAct s fun s =>
    if !s.reaches r ledgPg then s.answer r (if r == .pcie then .unsupported else .accessFault)
    else
      let s1 := s.answer r .done (leBytes (s.logWord 7) 4)
      if r == .inspect || s.getF ledgPg Reg.PAGE_CTRL_INSPECT_SAFE == 1 then s1 else { s1 with log := s1.log.drop 1 }

/-- WAREHOUSE_CREDIT_EXHAUSTED: at zero credit host writes are paced (R661, R675). -/
def execWarehouseCreditExhausted (d : Die) (s : State) : Host.Outcome State Fault Refusal :=
  actD d s fun s => if isNet d && (s.flash (netNo d)).credit == 0 then s.startPacing (netNo d) else s

/-- WAREHOUSE_WORN: the bytes programmed have reached the budget (R662, R675). -/
def execWarehouseWorn (d : Die) (s : State) : Host.Outcome State Fault Refusal :=
  actD d s fun s =>
    let pg := State.whcPg (netNo d)
    if isNet d && decide (whcBudget ≤ (s.flash (netNo d)).prog) && s.getF pg Reg.WHC_STAT_WORN == 0 then
      let s1 := ((s.setF pg Reg.WHC_STAT_WORN 1).summary fun l => { l with worn := [netNo d] :: l.worn }).ledg .worn [netNo d]
      ((s1.raise pg 1).pldm "warehouse worn").startPacing (netNo d)
    else s

/-- RESERVE_LOW: the free blocks have fallen below the reserve (R663, R675). -/
def execReserveLow (d : Die) (s : State) : Host.Outcome State Fault Refusal :=
  actD d s fun s =>
    let pg := State.whcPg (netNo d)
    if isNet d && s.getF pg Reg.WHC_STAT_RESERVE_LOW == 0 then (s.setF pg Reg.WHC_STAT_RESERVE_LOW 1).raise pg 2 else s

/-- GARBAGE_COLLECTION: the controller programs `moved` bytes on credit and frees blocks, above the reserve again (R661, R663). -/
def execGarbageCollection (d : Die) (moved freed : Nat) (s : State) : Host.Outcome State Fault Refusal :=
  actD d s fun s =>
    let pg := State.whcPg (netNo d)
    if !isNet d then s
    else
      let s1 := (s.whcProgram (netNo d) moved 0).bump pg Reg.WHC_FREE_BLOCKS freed
      if freed == 0 then s1 else s1.setF pg Reg.WHC_STAT_RESERVE_LOW 0

/-- CREDIT_ACCRUAL: credit accrues while the main path is on, and pacing ends once there is some (R661). -/
def execCreditAccrual (d : Die) (s : State) : Host.Outcome State Fault Refusal :=
  actD d s fun s => if isNet d then s.accrue (netNo d) else s

/-- SERVICE_TAG_DRAW: a shown field has changed and the last drawing began 60 s ago or more (R668). -/
def execServiceTagDraw (s : State) : Host.Outcome State Fault Refusal :=
  auxAct s fun s =>
    let due := match s.panel.drawnAt with | none => true | some t => decide (t + 60 * 10 ^ 9 ≤ s.aon)
    if s.getF svcPg Reg.SVC_TAG_STAT_DRAWING == 0 && s.panelStale && due then s.drawStart else s

/-- TAG_REFRESH_DONE: 1.8 s after its start the image is whole; the latch unlocks in SAFE, and a change that came meanwhile is drawn
(R592, R668). -/
def execTagRefreshDone (s : State) : Host.Outcome State Fault Refusal :=
  auxAct s fun s =>
    if s.getF svcPg Reg.SVC_TAG_STAT_DRAWING == 1 && decide (s.panel.drawnAt.getD 0 + 1800000000 ≤ s.aon) then
      let s1 := (State.setF { s with panel := { s.panel with band := true } } svcPg Reg.SVC_TAG_STAT_DRAWING 0).bump svcPg
        Reg.SVC_TAG_DRAWS
      let s2 := s1.ledg .refreshDone []
      let s3 := if s2.panel.safe && s2.hpState == 5 then s2.setF pciePg Reg.PCIE_HP_STATE_LATCH_LOCKED 0 else s2
      if s3.getF svcPg Reg.SVC_TAG_STAT_QUEUED == 1 || s3.panelStale then (s3.setF svcPg Reg.SVC_TAG_STAT_QUEUED 0).drawStart else s3
    else s

/-- REDRAW: SVC_TAG_CMD.REDRAW starts a drawing (R668, R674). -/
def execRedraw (s : State) : Host.Outcome State Fault Refusal := auxAct s fun s => s.drawNow

/-- SVC_LOCATE: a write of SECONDS starts the locate, or stops it with 0 (R670, R674). -/
def execSvcLocate (v : W32) (s : State) : Host.Outcome State Fault Refusal :=
  auxAct s fun s =>
    let sec := v.toNat % 2 ^ 16
    State.setF { s with locateEnd := s.aon + sec * 10 ^ 9 } svcPg Reg.SVC_LOCATE_ACTIVE (if sec == 0 then 0 else 1)

/-- LOCATE_EXPIRY: the locate's time is over (R670). -/
def execLocateExpiry (s : State) : Host.Outcome State Fault Refusal :=
  auxAct s fun s => if s.locateEnd ≤ s.aon then s.setF svcPg Reg.SVC_LOCATE_ACTIVE 0 else s

/-- SOUNDER_SHORT: the sounding drive has been at its limit for 1 ms: it stops, and retries 2 s later (R670). -/
def execSounderShort (s : State) : Host.Outcome State Fault Refusal :=
  auxAct s fun s =>
    if s.getF svcPg Reg.SVC_LOCATE_ACTIVE == 1 && s.getF svcPg Reg.SVC_SND_LATCHED == 0 && s.soundAt == 0 then
      State.setF { s with soundAt := s.aon + 2 * 10 ^ 9 } svcPg Reg.SVC_SND_FAULT 1
    else s

/-- SOUNDER_RETRY: 2 s after a short the sounder is tried again; a fifth retry that finds a short latches it off (R670, R675). -/
def execSounderRetry (short : Bool) (s : State) : Host.Outcome State Fault Refusal :=
  auxAct s fun s =>
    let k := s.getF svcPg Reg.SVC_SND_RETRIES
    if s.soundAt != 0 && decide (s.soundAt ≤ s.aon) && decide (k < 5) && s.getF svcPg Reg.SVC_SND_LATCHED == 0 then
      let s1 := s.setF svcPg Reg.SVC_SND_RETRIES (k + 1)
      if !short then { s1 with soundAt := 0 }
      else if k + 1 == 5 then ((s1.setF svcPg Reg.SVC_SND_LATCHED 1).raise svcPg 0).pldm "sounder latched off"
      else { s1 with soundAt := s.aon + 2 * 10 ^ 9 }
    else s

/-- SVC_SND_CLEAR: FAULT, RETRIES and LATCHED are cleared (R670). -/
def execSvcSndClear (s : State) : Host.Outcome State Fault Refusal :=
  auxAct s fun s =>
    ((State.setF { s with soundAt := 0 } svcPg Reg.SVC_SND_FAULT 0).setF svcPg Reg.SVC_SND_RETRIES 0).setF svcPg Reg.SVC_SND_LATCHED 0

/-- SUPERCAPACITOR_RUN_DOWN: it runs down while the auxiliary path is off, so the next start finds no calendar time (R660). -/
def execSupercapacitorRunDown (s : State) : Host.Outcome State Fault Refusal :=
  .next (if s.getF pciePg Reg.PCIE_HSW_AUX_ON == 0 then { s with rtcLost := true } else s)

end Sys2Proof.Machine
end

