-- ==== Sys2Proof/Machine/Compartments.lean ====
section
/-! DEFINITION. The compartment table (R492 to R516): CREATE, RELEASE, GRANT, RETURN, scrubs, openings. -/

namespace Sys2Proof.Machine

/-- Units of each kind (R492). -/
def unitCount (kind : Nat) : Nat := [800, 2048, 16384, 96, 196608, 983040, 16, 40960].getD kind 0

/-- The order in which the positions of a round are given out (R505). -/
def slotOrder : List Nat := [0, 8, 4, 12, 2, 10, 6, 14, 1, 9, 5, 13, 3, 11, 7, 15]

/-- Granules below `n` whose 32 frames lie in bucket group `j` of `p` (R203). -/
def groupBelow (n j p : Nat) : Nat := (n + p - 1 - j) / p

/-- The page of compartment `c` (R515). -/
def ownPg (c : Nat) : Page := ⟨.N0, .cpt, 0x40 + c % 64⟩

namespace State

/-- CPT_ENT_STAT.STATE: 0 FREE, 1 ACTIVE, 2 RELEASING. -/
def cptState (s : State) (c : Nat) : Nat := s.getF cptPg Reg.CPT_ENT_STAT_STATE c
def cptSel (s : State) : Nat := s.getF cptPg Reg.CPT_SEL_COMPARTMENT
def cptReject (s : State) : State := s.setF cptPg Reg.CPT_CMD_REJECTED 1

/-- The first near-store granule of the die-local parts (R260). -/
def localGranule (s : State) : Nat := (384 - 8 * s.localGib) * 512
/-- A granule lies in a die-local part. -/
def granuleLocal (s : State) (kind i : Nat) : Bool := kind == 4 && decide (s.localGranule ≤ i)
/-- The granules that one command on unit `i` acts on: a group of 512 in a die-local part (R493). -/
def unitSet (s : State) (kind i : Nat) : List Nat := if s.granuleLocal kind i then (List.range 512).map (i + ·) else [i]

/-- DIRECT frames of each bucket of group `j` in a tier: granted granules, die-local parts, placement reserve (R227). -/
def directIn (s : State) (tier j : Nat) : Nat :=
  let p := s.buckets tier / 32
  (s.owners.filter fun e => e.1 >>> 21 == 4 + tier && decide (e.2 < 64) && e.1 % 2 ^ 21 % p == j
      && !s.granuleLocal (4 + tier) (e.1 % 2 ^ 21)).length
    + (if tier == 0 then groupBelow 196608 j p - groupBelow s.localGranule j p
       else groupBelow (s.depotEnd / 0x200000) j p - groupBelow (s.depotEnd / 0x200000 - 584) j p)

/-- R227 holds for floors of `ns` and `dp` ways beside the sealed compartments' other than `c`. -/
def floorsOk (s : State) (c ns dp : Nat) : Bool :=
  let sum (tier : Nat) : Nat := ((List.range 64).map fun k => if k == c then 0 else s.floorOf k tier).foldl (· + ·) 0
  let fits (tier f : Nat) : Bool :=
    decide (sum tier + f ≤ 4096) && (List.range (s.buckets tier / 32)).all fun j => decide (sum tier + f + s.directIn tier j ≤ 7936)
  fits 0 ns && fits 1 dp

/-- The entry of compartment `c` meets R499, R509 and R227. -/
def createOk (s : State) (c : Nat) : Bool :=
  let sealed := s.getF cptPg Reg.CPT_ENT_CFG_SEALED c == 1
  let slots := s.getF cptPg Reg.CPT_ENT_CFG_SLOTS c
  if sealed then
    decide (1 ≤ slots) && decide (s.sealPos.length + slots ≤ 15) && s.floorsOk c (s.nsFloor c) (s.dpFloor c)
  else slots == 0

/-- The positions that a new sealed compartment takes (R505). -/
def takeSlots (s : State) (c : Nat) : State :=
  if s.getF cptPg Reg.CPT_ENT_CFG_SEALED c == 1 then
    let free := slotOrder.filter fun p => (SMap.find s.sealPos p).isNone
    { s with sealPos := (free.take (s.getF cptPg Reg.CPT_ENT_CFG_SLOTS c)).foldl (fun m p => SMap.put m p c) s.sealPos }
  else s

/-! ### Lots in a granule that is to be granted (R493) -/

/-- The lots in the frames of a granule, with their tier. -/
def granuleLots (s : State) (tier i : Nat) : List Nat :=
  (s.place.map.filter fun e => bitsOf e.2 0 2 == tier
      && (s.frameAddr tier (s.bucketOf tier e.1) (bitsOf e.2 19 13) - (if tier == 0 then nearBase else 0)) >>> 21 == i).map (·.1)

/-- A lot displaced from its frame: to a free way of its bucket, within the ways that its compartment may hold (R225), after an eviction
where there is none; a near-store lot that finds neither goes to the depot, and waits for a frame there where it must (R222, R493). -/
def displace (s : State) (tier l : Nat) : State :=
  let b := s.bucketOf tier l
  let c := s.lotOwner l
  if s.lotMoving l || s.place.writebacks.contains l then s
  else
    match (if s.overfull tier b && s.floorOf c tier == 0 then none else s.lowWay tier b) with
    | some w => s.startMove l tier w false
    | none =>
      match s.victim tier b c with
      | some v => s.evict tier v ((s.lowWay 1 (s.bucketOf 1 v)).getD 8192)
      | none =>
        if s.leaving tier b then s
        else if tier == 1 || (s.cptSealed c && s.dpFloor c == 0) then s.countWait l
        else
          match (if 0 < s.freeFor 1 (s.bucketOf 1 l) c then s.lowWay 1 (s.bucketOf 1 l) else none) with
          | some w => (s.countWait l).startMove l 1 w false
          | none =>
            match s.victim 1 (s.bucketOf 1 l) c with
            | some v => s.evict 1 v 8192
            | none => s.countWait l

/-! ### Scrubs (R492) -/

/-- The rings of an enabled pool queue lie in a granule, or a DIRECT buffer does. -/
def granuleUsed (s : State) (kind i : Nat) : Bool :=
  let a := (if kind == 4 then nearBase else 0) + i * 0x200000
  let hit (b n : Nat) : Bool := decide (b < a + 0x200000) && decide (a < b + n)
  (s.place.bufs.any fun e => decide (2 ≤ e.2.kind) && hit e.2.base e.2.bytes)
    || (List.range 64).any fun c => s.poolOn c && hit (s.poolBase c) (80 * s.poolSlots c)

/-- What makes a RETURN of a unit be refused (R492). -/
def unitBusy (s : State) (kind i : Nat) : Bool :=
  let live (d : Die) (n : Nat) : Bool := s.streamState d n != 0
  match kind with
  | 0 => (s.boundStreams (dieOf (i / 100)) (i % 100)).any (live (dieOf (i / 100)))
  | 1 => (List.range 64).any fun k => live (dieOf (i / 256)) (i % 256 * 64 + k)
  | 2 => !(s.tally i).waiters.isEmpty || (s.tally i).holder.isSome
  | 3 => !(s.hart i).held
  | 4 | 5 => (s.unitSet kind i).any (s.granuleUsed kind)
  | 6 => s.lkpBusy i || (SMap.find s.sweeps i).isSome
  | 7 => s.qps.any fun e => e.2.writes.any fun w => w.parts.any fun p => p.1 >>> 30 == i
  | _ => true

/-- A stream's context zeroed (R492). -/
def zeroContext (s : State) (d : Die) (n : Nat) : State :=
  let pn := pageNo (fePg d)
  { s with
    regs := s.regs.filter fun e => !(keyPage e.1 == pn && keyBank e.1 == n && decide (0x100 ≤ keyOff e.1))
    streams := SMap.del s.streams (streamKey d n) }

/-- The scrub of a unit (R134, R492); its owner record then reads 0x7F. -/
def scrub (s : State) (kind i : Nat) : State :=
  let s1 :=
    match kind with
    | 0 =>
      let d := dieOf (i / 100)
      let x := s.engine d (i % 100)
      ((s.zeroBytes (cisternBase + (dieCode d) <<< 32 + (i % 100) <<< 22) 0x400000).setEngine d (i % 100)
        { x with
          arrays := x.arrays.map fun (a : Arr) => { Arr.init with isolated := a.isolated }
          vecLast := none, lanes := [], longAcc := .fin false 0 0
          fillCpt := none }).setF (engPg d (i % 100)) Reg.ENG_FILL_CIST_FILL_UNITS 0
    | 1 => (List.range 64).foldl (fun t k => t.zeroContext (dieOf (i / 256)) (i % 256 * 64 + k)) s
    | 2 => { s with tallies := SMap.del s.tallies i }
    | 3 => s.flushCore i
    | 4 => (s.unitSet 4 i).foldl (fun t g => t.zeroBytes (nearBase + g * 0x200000) 0x200000) s
    | 5 => s.zeroBytes (i * 0x200000) 0x200000
    | 7 => { s with file := Memory.clear s.file (i * 2 ^ 30) (2 ^ 30) }
    | _ => s
  let s2 := (s.unitSet kind i).foldl (fun t g => t.setOwner kind g 0x7F) s1
  s2.bump cptPg Reg.CPT_SCRUBS

/-! ### Openings (R504) -/

/-- Every opening that a compartment made or received closed. -/
def closeOpenings (s : State) (c : Nat) : State :=
  let shut (t : State) (o e : Nat) : State := t.setF (ownPg o) Reg.CPT_OPEN_TO_VALID 0 e
  (List.range 64).foldl (fun t o =>
    (List.range 16).foldl (fun u e =>
      if u.getF (ownPg o) Reg.CPT_OPEN_TO_VALID e == 1 && (o == c || u.getF (ownPg o) Reg.CPT_OPEN_TO_COMPARTMENT e == c) then
        shut u o e else u) t) s

/-! ### Commands of the table (R498) -/

/-- The units that a compartment owns: kind and index, one for each group of a die-local part. -/
def unitsOf (s : State) (c : Nat) : List (Nat × Nat) :=
  (s.owners.filter fun e => e.2 == c).map (fun e => (e.1 >>> 21, e.1 % 2 ^ 21)) |>.filter fun u =>
    !(s.granuleLocal u.1 u.2) || u.2 % 512 == 0

/-- A GRANT of an unassigned unit is done: its owner record changes; a granule is zeroed first (R493). -/
def grantNow (s : State) (c kind i : Nat) : State :=
  let s1 := if kind == 4 then (s.unitSet 4 i).foldl (fun t g => t.zeroBytes (nearBase + g * 0x200000) 0x200000) s
    else if kind == 5 then s.zeroBytes (i * 0x200000) 0x200000 else s
  (s.unitSet kind i).foldl (fun t g => t.setOwner kind g c) s1

/-- What the memory of a unit that changes hands unscrubbed reads as under its new owner's keys (R498, R501, R503). -/
def handOver (s : State) (o c kind i : Nat) : State :=
  match kind with
  | 4 => (s.unitSet 4 i).foldl (fun t g => t.rekeyMem o c (nearBase + g * 0x200000) 32768) s
  | 5 => s.rekeyMem o c (i * 0x200000) 32768
  | 7 => s.rekeyFile o c (i * 2 ^ 30) (2 ^ 24)
  | _ => s

/-- A GRANT of a granule would break R227. -/
def grantBreaks (s : State) (kind i : Nat) : Bool :=
  (kind == 4 || kind == 5) && !s.granuleLocal kind i
    && decide (7936 < s.sealedWays (kind - 4) + s.directIn (kind - 4) (i % (s.buckets (kind - 4) / 32)) + 1)

/-- The table applies one command (R498). -/
def cptApply (s : State) (r : CptReq) : State :=
  let c := r.cpt
  let st := s.cptState c
  let o := s.owner r.kind r.index
  let known := decide (r.index < unitCount r.kind) && (!s.granuleLocal r.kind r.index || r.index % 512 == 0)
  match r.cmd with
  | 1 =>
    if st == 0 && s.createOk c then ((s.takeSlots c).drawKeys c).setF cptPg Reg.CPT_ENT_STAT_STATE 1 c else s.cptReject
  | 2 =>
    if st == 1 then
      let s1 := (((s.cptReset c).closeOpenings c).setF cptPg Reg.CPT_ENT_STAT_STATE 2 c).noteReset 3 6 c
      { s1 with cptOp := some (r, s.base) }
    else s.cptReject
  | 3 =>
    if st != 1 || !known then s.cptReject
    else if o == 0x7F then
      if s.grantBreaks r.kind r.index then s.cptReject
      else if (r.kind == 4 || r.kind == 5) && !s.granuleLocal r.kind r.index then
        (s.granuleLots (r.kind - 4) r.index).foldl (fun t l => t.displace (r.kind - 4) l) { s with cptOp := some (r, s.base) }
      else s.grantNow c r.kind r.index
    else if decide (o < 64) && o != c && s.getF cptPg Reg.CPT_CFG_LOCKED == 0 then
      (s.unitSet r.kind r.index).foldl (fun t g => t.setOwner r.kind g c) (s.handOver o c r.kind r.index)
    else s.cptReject
  | 4 =>
    if st == 1 && known && o == c && !s.unitBusy r.kind r.index then { s with cptOp := some (r, s.base) } else s.cptReject
  | _ => s.cptReject

/-- Waiting commands applied in order until one takes time (R498). -/
def cptPump : Nat → State → State
  | 0, s => s
  | k + 1, s =>
    match s.cptOp, s.cptQueue with
    | none, r :: t => cptPump k (State.cptApply { s with cptQueue := t } r)
    | _, _ => s

/-- A command written to CPT_CMD: applied, or behind those that wait. -/
def cptCommand (s : State) (cmd : Nat) : State :=
  let r : CptReq := ⟨cmd, s.cptSel, s.getF cptPg Reg.CPT_UNIT_KIND, s.getF cptPg Reg.CPT_UNIT_INDEX⟩
  cptPump (s.cptQueue.length + 1) { s with cptQueue := s.cptQueue ++ [r] }

/-- The command under way ends; its time is reported and those behind it go on. -/
def cptEnd (s : State) (report : Bool) (since : Nat) : State :=
  let s1 : State := { s with cptOp := none }
  let s2 := if report then (s1.setF cptPg Reg.CPT_LAST_SCRUB_US (min ((s.base - since) / 1000) (2 ^ 32 - 1))).raise cptPg 0 else s1
  cptPump s2.cptQueue.length s2

/-- Nothing of a compartment in release is held any more: no descriptor of it is fetched, none on its engines. -/
def releaseQuiet (s : State) (c : Nat) : Bool :=
  s.allStreams.all fun e =>
    (s.stream e.1 e.2).fetched.isEmpty
      || (s.ctxCpt e.1 e.2 != c && s.owner 0 (dieCode e.1 * 100 + s.ctxEngine e.1 e.2) != c)

end State

/-! ### Commands -/

/-- CREATE: a FREE compartment whose entry meets R499, R509 and R227 becomes ACTIVE (R498, R505). -/
def execCreate (s : State) : Host.Outcome State Fault Refusal := auxAct s fun s => s.cptCommand 1

/-- RELEASE: the compartment is reset, its openings close, and its release begins (R498, R500). -/
def execCompartmentRelease (s : State) : Host.Outcome State Fault Refusal := auxAct s fun s => s.cptCommand 2

/-- GRANT: a unit comes to the selected compartment; a granule only after its lots have left it (R493, R498). -/
def execGrant (s : State) : Host.Outcome State Fault Refusal := auxAct s fun s => s.cptCommand 3

/-- GRANT_COMPLETE: every displaced lot has left the granule; it is zeroed and its owner record changes (R493). While one has not, it
is given its way on. -/
def execGrantComplete (s : State) : Host.Outcome State Fault Refusal :=
  act s fun s =>
    match s.cptOp with
    | some (r, since) =>
      if r.cmd != 3 then s
      else
        match s.granuleLots (r.kind - 4) r.index with
        | [] => (s.grantNow r.cpt r.kind r.index).cptEnd false since
        | ls => ls.foldl (fun t l => t.displace (r.kind - 4) l) s
    | none => s

/-- RETURN: a unit that nothing uses is to be scrubbed (R492, R498). -/
def execReturnUnit (s : State) : Host.Outcome State Fault Refusal := auxAct s fun s => s.cptCommand 4

/-- RETURN_COMPLETE: the unit is scrubbed and unassigned (R492, R516). -/
def execReturnComplete (s : State) : Host.Outcome State Fault Refusal :=
  act s fun s =>
    match s.cptOp with
    | some (r, since) => if r.cmd == 4 then (s.scrub r.kind r.index).cptEnd true since else s
    | none => s

/-- CPT_LOCK: CPT_CFG.LOCKED is set until cold power-on (R501). -/
def execCptLock (s : State) : Host.Outcome State Fault Refusal :=
  auxAct s fun s => s.notePromise (s.setF cptPg Reg.CPT_CFG_LOCKED 1)

/-- CPT_ENT_CFG_WRITE: the selected entry, while its compartment is FREE (R499, R514). -/
def execCptEntCfgWrite (v : W32) (s : State) : Host.Outcome State Fault Refusal :=
  auxAct s fun s =>
    if s.cptState s.cptSel == 0 then s.setWord cptPg 0x48 (v.toNat % 2 ^ 30) s.cptSel else s.pageErr cptPg

/-- OPEN_BUF: the handle in the selected entry of compartment `c` is opened to the compartment named there; a stale or foreign handle is
refused (R504, R515). -/
def execOpenBuf (c : Nat) (s : State) : Host.Outcome State Fault Refusal :=
  auxAct s fun s =>
    let pg := ownPg c
    let e := s.getF pg Reg.CPT_OPEN_SEL_ENTRY
    if s.handleCheck (c % 64) (s.getF pg Reg.CPT_OPEN_HANDLE e) == stOk then s.setF pg Reg.CPT_OPEN_TO_VALID 1 e
    else s.setF pg Reg.CPT_OPEN_CMD_REJECTED 1

/-- CLOSE_BUF: the selected entry is closed (R504). -/
def execCloseBuf (c : Nat) (s : State) : Host.Outcome State Fault Refusal :=
  auxAct s fun s => s.setF (ownPg c) Reg.CPT_OPEN_TO_VALID 0 (s.getF (ownPg c) Reg.CPT_OPEN_SEL_ENTRY)

end Sys2Proof.Machine
end

