-- ==== Sys2Proof/Machine/Resets.lean ====
section
/-! DEFINITION. Resets, parks and standby (R608 to R620). -/

namespace Sys2Proof.Machine

/-- Bits of a word of an always-on page, or of the PCIe page, that a module reset leaves (R608, R618; DEDUCED,
notes/assumptions/54.md). -/
def moduleKept (pg : Page) (off : Nat) : Nat :=
  let all := 0xFFFFFFFF
  match pg.blk with
  | .cpt =>
    if pg.inst == 0 then (if off == 0x40 || off == 0x48 || off == 0x4C then all else 0) else if off == 0x44 || off == 0x48 then all else 0
  | .frz => if off == 0x5C then all else 0
  | .mgmt => if off == 0x48 || off == 0x68 || off == 0x6C then all else if off == 0x50 then 0xFFFF0000 else 0
  | .ledg => blockKept pg off
  | .svc => if 0x40 ≤ off then all else 0
  | .pcie => if off == 0x50 then 0x30 else if 0x60 ≤ off then all else 0
  | .whc => blockKept pg off
  | _ => tvKept pg off

namespace State

/-- The retired arrays and engines of the ledger applied to the live masks: no reset makes them live again (R143). -/
def applyRetired (s : State) : State :=
  let s1 := s.ledger.retired.foldl (fun t r =>
    let d := dieOf (r.getD 0 0)
    let e := r.getD 1 0
    t.setLive d e (putBits (t.liveMask d e) (r.getD 2 0) 1 0)) s
  (s.ledger.unusable.filter fun u => u.getD 1 0 == blkCode .eng).foldl (fun t u =>
    let pg := engPg (dieOf (u.getD 0 0)) (u.getD 2 0)
    ((t.setF pg Reg.ENG_CAP_ENABLED 0).setF pg Reg.ENG_STATUS_RETIRED 1).setF pg Reg.PAGE_STAT_UNUSABLE 1) s1

/-- What a module reset, or the loss of main power, does to all that lies outside the always-on island (R608, R618). -/
def clearMain (s : State) : State :=
  let s1 := (s.zeroBytes cisternBase 0x800000000).clearRegs (fun _ => true) moduleKept
  let frz := s1.setF frzPg Reg.FRZ_STAT_STATE 0
  State.applyRetired { frz with
    modT := 0, msiq := [], tallies := [], tallyOps := [], polls := [], talwLo := [], harts := [], chans := [], chanAt := (List.range 16).map fun k => (k, s.base)
    telem := [], telemAt := []
    scrubAt := [], streams := [], engines := [], place := Place.init, ds := [], qps := [], mrs := [], netWait := [], paused := [], ptp := [], ppsAt := none
    xch := [], wins := [], lines := [], invs := [], walkers := [], routes := [], imsic := [], convs := [], links := [], routers := []
    reissue := [], tests := [], bists := [], unusable := [], recovering := [], clocks := { s.clocks with waiting := [], locked := [] }
    budgets := [], coolAt := [], bar4 := [], tables := [], tblLoad := none, hot := [], sweptAt := [], sweeps := [], tblM := [] }

/-- The start is under way: its rank among the resets of R614, 3 a module reset, 4 a cold power-on; 0 when none is. -/
def startRank (s : State) : Nat :=
  if 7 ≤ s.getF mgmtPg Reg.MGMT_BOOT_STAGE then 0 else if s.getF mgmtPg Reg.MGMT_RESET_LAST_KIND == 1 then 3 else 4

/-- A reset absorbed by a wider one (R614). -/
def absorb (s : State) : State := s.bump mgmtPg Reg.MGMT_RESETS_ABSORBED

/-- A module reset (R598, R608, R618): the drain is cancelled, the start runs again from stage 4, the compartment table stands. -/
def moduleReset (s : State) (cause : Nat) : State :=
  if s.startRank == 4 then s.absorb
  else
    let torn := s.tearLots fun _ => true
    let s1 := torn.1.clearMain.countTears torn.2
    let s2 := (s1.setF mgmtPg Reg.MGMT_BOOT_STAGE 3).noteReset 1 cause 0
    s2.bump mgmtPg Reg.MGMT_RESETS_MODULE

/-- The warehouse credit accrues to now, then the main path goes off, and all it feeds is lost (R596, R597, R661). The management
controller runs on, as in stage 2 (R582, R602). -/
def mainOff (s : State) : State :=
  let s1 := if s.getF pciePg Reg.PCIE_HSW_MAIN_ON == 1 then (s.accrue 0).accrue 1 else s
  let s2 := s1.clearMain
  (State.setF { s2 with mem := [], bad := [] } pciePg Reg.PCIE_HSW_MAIN_ON 0).setF mgmtPg Reg.MGMT_BOOT_STAGE 2

/-- MOD_RESET_N in SAFE: the main path comes on again, and the start begins at stage 3 (R592, R609). -/
def mainRestart (s : State) : State :=
  let s1 := (s.clearMain.setF mgmtPg Reg.MGMT_BOOT_STAGE 2).setF mgmtPg Reg.MGMT_BOOT_ERROR 0
  ((State.setF { s1 with mem := [], bad := [] } pciePg Reg.PCIE_HP_STATE_STATE 0).setF pciePg Reg.PCIE_HP_STATE_LATCH_LOCKED 1).noteReset
    6 8 0

/-- A module reset that a request other than MOD_RESET_N starts: not in POWERING_DOWN or SAFE (R598). -/
def requestedReset (s : State) (cause : Nat) : State := if 4 ≤ s.hpState then s else s.moduleReset cause

/-- A die recovery reset starts (R610, R614): a wider reset absorbs it; a parked die becomes active. -/
def dieReset (s : State) (d : Die) (cause : Nat) : State :=
  if s.startRank != 0 then s.absorb
  else if s.dieDown d && s.recovering.any fun r => r.1 == dieCode d then
    { s with recovering := s.recovering ++ [(dieCode d, cause)] }
  else
    let s1 := [0, 1, 2].foldl (fun t p => t.linkFall d p) s
    let s2 := s1.loseDie d
    let parked := s2.getF mgmtPg Reg.MGMT_DIES_PARKED
    let s3 := s2.setF mgmtPg Reg.MGMT_DIES_PARKED (putBits parked (dieCode d) 1 0)
    let s4 : State := { s3 with modT := if d == .N0 then 0 else s3.modT, recovering := s3.recovering ++ [(dieCode d, cause)] }
    (s4.noteReset 2 cause (dieCode d)).bump mgmtPg Reg.MGMT_RESETS_DIE

/-- A link trained from its fused map, at both ends (R42, R610). -/
def trainLink (s : State) (d : Die) (p : Nat) : State :=
  let one (t : State) (d : Die) (p : Nat) : State :=
    let pg := d2dPg d p
    let t1 := (List.range 4).foldl (fun u m => u.setWord pg 0x48 (resetWord u.fuses pg 0x48 m) m) (t.setLink d p Link.init)
    ((t1.setWord pg 0x40 2).setF (tfabPg d) Reg.TFAB_LINKS_DOWN (putBits (t1.getF (tfabPg d) Reg.TFAB_LINKS_DOWN) p 1 0)).countSpares d p
  one (one s d p) (peerOf d p).1 (peerOf d p).2

/-- The links of a die to dies that are not in recovery trained. -/
def trainLinks (s : State) (d : Die) : State :=
  ([0, 1, 2].filter fun p => !s.recovering.any fun r => r.1 == dieCode (peerOf d p).1).foldl (fun t p => t.trainLink d p) s

/-- The harts of a host die. -/
def dieHarts (d : Die) : List Nat := if d == .H0 then List.range 48 else if d == .H1 then (List.range 48).map (48 + ·) else []

/-- A die is marked unusable (R619). -/
def dieUnusable (s : State) (d : Die) : Bool := s.getF mgmtPg Reg.MGMT_DIES_UNUSABLE >>> dieCode d % 2 == 1
/-- A die is parked. -/
def dieParked (s : State) (d : Die) : Bool := s.getF mgmtPg Reg.MGMT_DIES_PARKED >>> dieCode d % 2 == 1

/-- A unit of a die that a park gates is running or queued (R615, R616). -/
def gatedBusy (s : State) (d : Die) : Bool :=
  if isTensor d then s.allStreams.any fun e => e.1 == d && (s.streamState d e.2 != 0 || !(s.stream d e.2).fetched.isEmpty)
  else if isHost d then (dieHarts d).any fun h => !(s.hart h).held
  else if d == .N1 then
    s.qps.any (fun e => e.1 >>> 14 == 1 && (!e.2.sent.isEmpty || !e.2.recvs.isEmpty || !e.2.cmds.isEmpty || !e.2.writes.isEmpty))
      || !(s.prepJobs 2).isEmpty || !(s.prepJobs 3).isEmpty || s.xch.any (fun e => e.1 / 2 == 1) || !(s.winsOf 1).isEmpty
  else (List.range 4).any fun i => s.lkpBusy ((dieCode d - 12) * 4 + i)

/-- R606 holds with die `d` parked: a host die with cores stays, and N0 with its ports, its RDMA engine and its flash controller. -/
def parkLeaves (s : State) (d : Die) : Bool :=
  if isHost d then (let x := if d == .H0 then Die.H1 else .H0; !s.dieUnusable x && !s.dieParked x)
  else if d == .N1 then
    !s.dieUnusable .N0 && ((List.range 9) ++ [12]).all fun i => s.getF ⟨.N0, .bist, 0⟩ Reg.BIST_RESULT_UNUSABLE i == 0
  else true

/-- Status and counters of the pages that satisfy `p` back at their reset values, settings kept (R618). -/
def dropStatus (s : State) (p : Page → Bool) : State :=
  s.clearRegs p fun pg off => (if off == 0x14 then 8 else retained pg off) ||| (if 0x40 ≤ off then blockKept pg off else 0)

/-- The page is of a part that a park of its die gates (R616). -/
def parkPage (d : Die) (pg : Page) : Bool :=
  pg.die == d &&
    match pg.blk with
    | .eng => true
    | .net | .xch | .prep => d == .N1
    | .lkp => pg.inst != 0x10
    | _ => false

/-- A die's gated parts lose power, what they hold kept or lost as R618 states. -/
def parkNow (s : State) (d : Die) : State :=
  let bit (f : Fld) (t : State) : State := t.setF mgmtPg f (putBits (t.getF mgmtPg f) (dieCode d) 1 1)
  let s1 := if d == .N1 then s.resetRdma 1 else s
  let s2 := ((s1.loseCisterns d).dropStatus (parkPage d)) |> bit Reg.MGMT_PARK_REQ |> bit Reg.MGMT_DIES_PARKED
  { s2 with engines := s2.engines.filter fun e => e.1 >>> 7 != dieCode d }

/-- The module enters standby: the dies are power-gated, memory is in self refresh, the ports are down and the PCIe link is in L2 (R615,
R618). -/
def standbyNow (s : State) : State :=
  let keep := s.getF mgmtPg Reg.MGMT_STANDBY_KEEP_H0 == 1
  let hs := (List.range 96).filter fun h => !(keep && decide (h < 48))
  let s1 := ([Die.H0, .H1].filter fun d => !(keep && d == .H0)).foldl (fun t d => t.flushCache (.l3 d))
    (hs.foldl State.holdHart s.allBankRefresh)
  let s2 := (allDies.filter fun d => isTensor d).foldl State.loseCisterns ((s1.resetRdma 0).resetRdma 1)
  let s3 := s2.dropStatus fun pg => !apart pg && !(keep && pg.die == .H0)
  let s4 := [0, 1].foldl (fun t nd => (List.range 4).foldl (fun u p => u.setF ⟨netDie nd, .net, p⟩ Reg.NET_PORT_STAT_LINK 0) t) s3
  let s5 := (s4.setF pciePg Reg.PCIE_LINK_DL_ACTIVE 0).setF mgmtPg Reg.MGMT_STANDBY_STATE 2
  { s5 with engines := [], paused := [], netWait := [] }

/-- A wake from standby begins (R615). -/
def wake (s : State) (cause : Nat) : State :=
  if s.getF mgmtPg Reg.MGMT_STANDBY_STATE == 2 then
    (s.setF mgmtPg Reg.MGMT_STANDBY_STATE 3).setF mgmtPg Reg.MGMT_STANDBY_WAKE_CAUSE cause
  else s

/-- WAKE_N is asserted: a wake is under way and the link is still in L2 (R579, R615). -/
def wakeAsserted (s : State) : Bool :=
  s.getF mgmtPg Reg.MGMT_STANDBY_STATE == 3 && s.getF pciePg Reg.PCIE_LINK_DL_ACTIVE == 0 && !s.conn.perst

def resetReject (s : State) : State := s.setF mgmtPg Reg.MGMT_RESET_CMD_REJECTED 1

end State

/-! ### Module and die resets -/

/-- MOD_RESET_N: low for 10 µs it starts a module reset; in POWERING_DOWN it is ignored, in SAFE the main path starts again (R592, R598,
R608). -/
def execModResetN (s : State) : Host.Outcome State Fault Refusal :=
  auxAct s fun s => if s.hpState == 4 then s else if s.hpState == 5 then s.mainRestart else s.moduleReset 1

/-- FUNCTION_LEVEL_RESET: it starts a module reset (R589, R608). -/
def execFunctionLevelReset (s : State) : Host.Outcome State Fault Refusal := auxAct s fun s => s.requestedReset 2

/-- PLDM_RESET: the baseboard's command starts a module reset (R608). -/
def execPldmReset (s : State) : Host.Outcome State Fault Refusal := mcAct s fun s => s.requestedReset 7

/-- RESET_CMD_MODULE: MGMT_RESET_CMD KIND 1 (R608, R619). -/
def execResetCmdModule (s : State) : Host.Outcome State Fault Refusal := auxAct s fun s => s.requestedReset 3

/-- RESET_CMD_DIE: MGMT_RESET_CMD KIND 2; a target that is no die is refused (R608, R619). -/
def execResetCmdDie (target : Nat) (s : State) : Host.Outcome State Fault Refusal :=
  auxAct s fun s =>
    let s1 := s.setF mgmtPg Reg.MGMT_RESET_CMD_TARGET target
    if 16 ≤ target then s1.resetReject else s1.dieReset (dieOf target) 3

/-- DIE_RECOVERY_COMPLETE: the links and the memory of the die are trained, and the requests that waited for it go on (R610, R620); a
recovery that came meanwhile runs next (R614). -/
def execDieRecoveryComplete (d : Die) (s : State) : Host.Outcome State Fault Refusal :=
  .next <|
    if s.getF pciePg Reg.PCIE_HSW_MAIN_ON != 1 || !s.recovering.any (fun r => r.1 == dieCode d) then s
    else
      let s1 : State := { s with recovering := s.recovering.eraseP fun r => r.1 == dieCode d }
      if s1.recovering.any fun r => r.1 == dieCode d then
        (s1.loseDie d).bump mgmtPg Reg.MGMT_RESETS_DIE
      else (State.trainMemory (s1.trainLinks d) d).raise mgmtPg 0

/-! ### Compartments and harts -/

/-- RESET_CMD_COMPARTMENT: MGMT_RESET_CMD KIND 3: step 1 of R500, the compartment's harts passing through a core reset (R608). -/
def execResetCmdCompartment (target : Nat) (s : State) : Host.Outcome State Fault Refusal :=
  auxAct s fun s =>
    let s1 := s.setF mgmtPg Reg.MGMT_RESET_CMD_TARGET target
    if 64 ≤ target then s1.resetReject
    else if s1.startRank != 0 then s1.absorb
    else
      let ran := (s1.hartsOf target).filter fun h => !(s1.hart h).held
      ran.foldl State.freeHart ((s1.cptReset target).noteReset 3 3 target)

/-- CORE_HOLD: MGMT_RESET_CMD KIND 4 holds a hart after its caches are written back (R608, R613). -/
def execCoreHold (target : Nat) (s : State) : Host.Outcome State Fault Refusal :=
  auxAct s fun s =>
    let s1 := s.setF mgmtPg Reg.MGMT_RESET_CMD_TARGET target
    if 96 ≤ target then s1.resetReject
    else if s1.startRank != 0 then s1.absorb
    else (s1.holdHart target).noteReset 4 3 target

/-- CORE_RELEASE: MGMT_RESET_CMD KIND 5 releases a held hart; one that failed its self-test, or whose die is parked or unusable,
stays held (R608, R613, R625). -/
def execCoreRelease (target : Nat) (s : State) : Host.Outcome State Fault Refusal :=
  auxAct s fun s =>
    let s1 := s.setF mgmtPg Reg.MGMT_RESET_CMD_TARGET target
    let d : Die := if target < 48 then .H0 else .H1
    if 96 ≤ target || s1.dieUnusable d || s1.dieParked d || s1.unusable.contains (dieCode d, .core target) then s1.resetReject
    else if s1.startRank != 0 then s1.absorb
    else if (s1.hart target).held then (s1.freeHart target).noteReset 5 3 target
    else s1

/-! ### Parks -/

/-- PARK: the die's gated parts lose power, what they hold kept or lost as R618 states; refused where R615 says so. -/
def execPark (d : Die) (s : State) : Host.Outcome State Fault Refusal :=
  act s fun s =>
    if s.dieParked d then s
    else if d == .N0 || s.gatedBusy d || !s.parkLeaves d then s.setF mgmtPg Reg.MGMT_PARK_REJECTED 1
    else s.parkNow d

/-- UNPARK: the die is active again, its settings restored (R615). -/
def execUnpark (d : Die) (s : State) : Host.Outcome State Fault Refusal :=
  act s fun s =>
    let bit (f : Fld) (t : State) : State := t.setF mgmtPg f (putBits (t.getF mgmtPg f) (dieCode d) 1 0)
    s |> bit Reg.MGMT_PARK_REQ |> bit Reg.MGMT_DIES_PARKED

/-! ### Standby -/

/-- STANDBY_ENTER: accepted with every stream DISABLED and every queue pair in RESET (R615). -/
def execStandbyEnter (keepH0 : Bool) (s : State) : Host.Outcome State Fault Refusal :=
  act s fun s =>
    let quiet := (s.allStreams.all fun e => s.streamState e.1 e.2 == 0 && (s.stream e.1 e.2).fetched.isEmpty)
      && s.qps.all fun e => s.qpSt e.1 == 0
    if s.getF mgmtPg Reg.MGMT_STANDBY_STATE == 0 && quiet && s.startRank == 0 && decide (s.hpState < 4) then
      (s.setF mgmtPg Reg.MGMT_STANDBY_STATE 1).setF mgmtPg Reg.MGMT_STANDBY_KEEP_H0 keepH0.toNat
    else s.setF mgmtPg Reg.MGMT_STANDBY_REJECTED 1

/-- STANDBY_ENTRY_COMPLETE: the dies are power-gated, memory is in self refresh, the ports are down and the PCIe link is in L2
(R615, R618). -/
def execStandbyEntryComplete (s : State) : Host.Outcome State Fault Refusal :=
  act s fun s =>
    if s.getF mgmtPg Reg.MGMT_STANDBY_STATE == 1 then s.standbyNow else s

/-- STANDBY_WAKE: MGMT_STANDBY.WAKE (R615). -/
def execStandbyWake (s : State) : Host.Outcome State Fault Refusal := auxAct s fun s => s.wake 1

/-- PLDM_WAKE: the baseboard's wake command (R615). -/
def execPldmWake (s : State) : Host.Outcome State Fault Refusal := mcAct s fun s => s.wake 2

/-- H0_L3_MISS: an access of a hart of H0 that misses in H0's L3 stalls and starts the wake (R615, R617). -/
def execH0L3Miss (h : Nat) (s : State) : Host.Outcome State Fault Refusal :=
  auxAct s fun s => if h < 48 && s.getF mgmtPg Reg.MGMT_STANDBY_KEEP_H0 == 1 && !(s.hart h).held then s.wake 5 else s

/-- WAKE_COMPLETE: links are trained from the fused map, memory has left self refresh, and the module is in service (R615, R620). -/
def execWakeComplete (s : State) : Host.Outcome State Fault Refusal :=
  auxAct s fun s =>
    if s.getF mgmtPg Reg.MGMT_STANDBY_STATE == 3 then
      (((allDies.foldl State.trainLinks s).allBankRefresh).setF mgmtPg Reg.MGMT_STANDBY_STATE 0).raise mgmtPg 2
    else s

end Sys2Proof.Machine
end

