-- ==== Sys2Proof/Machine/Faults.lean ====
section
/-! DEFINITION. Faults, self-tests, BIST, live test controls, freeze and debug access (R137 to R143, R621 to R652). -/

namespace Sys2Proof.Machine

/-- A variable island's key. -/
def islKey (d : Die) (i : Nat) : Nat := dieCode d * 256 + i
/-- The first of the six islands of the D2D adapters and PHYs of a die (R545). -/
def adapterIsland (d : Die) : Nat := if isTensor d then 124 else if isHost d then 53 else if isNet d then 15 else 18

/-- The page whose block a structure belongs to, and its island (R539, R545, R622). -/
def structPlace (d : Die) (st : Struct) : Page × Nat :=
  match st with
  | .array e _ | .cistRow e _ | .vector e | .lsu e | .sched e => (engPg d e, e)
  | .feRow _ => (fePg d, 120)
  | .routerBuf => (tfabPg d, if isTensor d then 100 else if isHost d then 48 else if isNet d then 13 else 16)
  | .memLogic _ => (memPg d, if isTensor d then 121 else 0)
  | .dramLane ch _ => (memPg d, if isTensor d then 122 else 1 + ch / 4)
  | .upd i => (⟨d, .upd, i⟩, if isTensor d then 123 else 9 + i)
  | .lkp i => (⟨d, .lkp, i⟩, 11 + i)
  | .xch => (⟨d, .xch, 0⟩, 9)
  | .rdma => (⟨d, .net, 8⟩, 8)
  | .prep i => (⟨d, .prep, i⟩, 10 + i)
  | .plc => (⟨d, .plc, 0⟩, 15)
  | .pool => (⟨d, .pool, 0⟩, 15)
  | .tal => (⟨d, .tal, 0⟩, if isHost d then 52 else if isNet d then 14 else 17)
  | .core h => (⟨d, .coh, 0⟩, h % 48)
  | .d2dLane p _ _ => (d2dPg d p, adapterIsland d + 3 + p)
  | .testLogic => (bistPg d, 0)
  | .crossing i => (⟨d, .clk, 0⟩, i)

/-- The die has the structure. -/
def structOn (d : Die) (st : Struct) : Bool :=
  match st with
  | .array e a => isTensor d && decide (e < 100) && decide (a < 4)
  | .cistRow e row => isTensor d && decide (e < 100) && decide (row < cisternBytes / 64)
  | .vector e | .lsu e | .sched e => isTensor d && decide (e < 100)
  | .feRow n => isTensor d && decide (n < 16384)
  | .routerBuf | .testLogic => true
  | .memLogic ch => hasMem d && decide (ch < 32)
  | .dramLane ch pair => hasMem d && decide (ch < 32) && decide (pair < 16)
  | .upd i => (isTensor d && i == 0) || (isCap d && decide (i < 2))
  | .lkp i => isCap d && decide (i < 4)
  | .xch | .rdma => isNet d
  | .prep i => isNet d && decide (i < 2)
  | .plc => isCap d
  | .pool => d == .C0
  | .tal => !isTensor d
  | .core h => (d == .H0 && decide (h < 48)) || (d == .H1 && decide (48 ≤ h) && decide (h < 96))
  | .d2dLane p m l => decide (p < 3) && decide (m < linkModules d p) && decide (l < 64)
  | .crossing _ => false

/-- Nanoseconds of 24 hours (R140, R626). -/
def dayNs : Nat := 86400 * 10 ^ 9

namespace State

/-! ### What a block has in progress -/

/-- Nothing is in progress in the block of a page: PAGE_STAT.QUIESCENT (R524). -/
def quiet (s : State) (pg : Page) : Bool :=
  let d := pg.die
  let unused := s.allStreams.all fun e => (s.stream e.1 e.2).fetched.all fun x => !(s.usesPage e.1 e.2 x pg)
  match pg.blk with
  | .eng =>
    if pg.inst < 100 then unused && (s.engine d pg.inst).arrays.all fun a => a.run.isNone && !a.clearing
    else if pg.inst == 0x80 then s.allStreams.all fun e => e.1 != d || (s.stream e.1 e.2).fetched.isEmpty
    else true
  | .tfab => (SMap.getD s.routers (dieCode d) []).isEmpty
  | .hbmc | .depc => (List.range 32).all fun ch => (s.chan d ch).narrow.isEmpty && (s.chan d ch).calRun.isNone
  | .whc => s.place.pageins.isEmpty && s.place.writebacks.isEmpty && s.qps.all fun e => e.1 >>> 14 != netNo d || e.2.writes.isEmpty
  | .upd | .lkp | .xch | .prep | .plc => unused
  | .net =>
    if pg.inst == 8 then s.qps.all fun e => e.1 >>> 14 != netNo d || (e.2.sent.isEmpty && e.2.cmds.isEmpty)
    else if pg.inst == 0x10 then true
    else s.qps.all fun e => e.2.sent.isEmpty || e.2.port.all fun lp => lp / 2 != netNo d * 4 + pg.inst
  | .xlt => (SMap.find s.invs (dieCode d)).isNone
  | .pool => (SMap.find s.place.poolq pg.inst).isNone
  | .tal => (s.tallyOps.all fun o => talPg o.t != pg) && s.polls.all fun p => talPg p.1 != pg
  | .cpt => s.cptOp.isNone
  | .coh => (s.lines.all fun e => e.2.trans.isNone) && s.msiq.isEmpty
  | .d2d => (s.link d pg.inst).queue.isEmpty && (s.link d pg.inst).replay.isEmpty
  | .bist => (s.bists.all fun e => e.1 != dieCode d) && s.tests.all fun t => t.die != dieCode d
  | .frz => !s.frozen
  | .svc => s.getF svcPg Reg.SVC_TAG_STAT_DRAWING == 0
  | .conv => s.cvSt pg.inst == 0
  | _ => true

/-- The page of an island's block, where it has one (R539, R545). -/
def islandPage (d : Die) (i : Nat) : Option Page :=
  let a := adapterIsland d
  if a ≤ i && i < a + 6 then some (d2dPg d ((i - a) % 3))
  else if isTensor d then
    if i < 100 then some (engPg d i) else if i < 120 then some (tfabPg d) else if i == 120 then some (fePg d)
    else if i < 123 then some (memPg d) else if i == 123 then some ⟨d, .upd, 0⟩ else none
  else if isHost d then
    if i < 48 then none else if i < 52 then some ⟨d, .coh, 0⟩ else if i == 52 then some ⟨d, .tal, 0⟩ else none
  else if isNet d then
    if i < 8 then some ⟨d, .net, i % 4⟩ else if i == 8 then some ⟨d, .net, 8⟩ else if i == 9 then some ⟨d, .xch, 0⟩
    else if i < 12 then some ⟨d, .prep, i - 10⟩ else if i == 12 then some ⟨d, .whc, 0⟩ else if i == 13 || i == 21 then some (tfabPg d)
    else if i == 14 then some ⟨d, .tal, 0⟩ else if i == 22 then some pciePg else if i == 23 then some ⟨d, .conv, 0⟩ else none
  else
    if i < 9 then some (memPg d) else if i < 11 then some ⟨d, .upd, i - 9⟩ else if i < 15 then some ⟨d, .lkp, i - 11⟩
    else if i == 15 then some ⟨d, .plc, 0⟩ else if i == 16 then some (tfabPg d) else if i == 17 then some ⟨d, .tal, 0⟩ else none

/-- The island holds no work (R629). -/
def islandIdle (s : State) (d : Die) (i : Nat) : Bool :=
  match islandPage d i with
  | some pg => s.quiet pg
  | none => if isHost d && i < 48 then (s.hart (if d == .H0 then i else 48 + i)).held else false

/-- The streams whose descriptors were using a structure, by stream key (R624). -/
def streamsOn (s : State) (d : Die) (st : Struct) : List Nat :=
  let pg := (structPlace d st).1
  let touches (x : Desc) : Bool := (footprint x).any fun r => (physOf x.pins r.va r.len).any fun p =>
    (List.range (p.2 / 64 + 2)).any fun k => match s.cwOf (p.1 / 64 * 64 + 64 * k) with
      | some w => w.die == d && (match st with | .memLogic ch | .dramLane ch _ => w.ch == ch | _ => false)
      | none => false
  let uses (e : Die × Nat) : Bool :=
    let fs := (s.stream e.1 e.2).fetched
    match st with
    | .array en a => e.1 == d && (match (s.engine d en).arrays[a]? with
      | some r => [r.run, r.next].any fun t => t.any fun t => t.n == e.2
      | none => false)
    | .cistRow en _ | .vector en | .lsu en | .sched en => e.1 == d && s.ctxEngine d e.2 == en && !fs.isEmpty
    | .feRow n => e.1 == d && e.2 == n && !fs.isEmpty
    | .memLogic _ | .dramLane _ _ => fs.any fun x => x.phase == .running && touches x
    | .rdma => s.qps.any fun q => q.1 >>> 14 == netNo d && q.2.sent.any fun w =>
        match w.src with
        | .desc a b _ _ | .lot a b _ _ _ | .shard a b _ _ _ => a == dieCode e.1 && b == e.2
        | _ => false
    | .tal => fs.any fun x => x.phase == .running && (x.op == 0x39 || x.op == 0x3A || x.op == 0x3B || x.op == 0x3C)
        && talPg (bodyTally x) == pg
    | .upd _ | .lkp _ | .xch | .prep _ | .plc => fs.any fun x => s.usesPage e.1 e.2 x pg
    | .routerBuf | .pool | .core _ | .d2dLane _ _ _ | .testLogic | .crossing _ => false
  (s.allStreams.filter uses).map fun e => streamKey e.1 e.2

/-! ### Freeze (R639 to R645) -/

/-- A freeze starts: kind 0 DEBUG, 1 CAPTURE; source 1 FREEZE_N, 2 FRZ_CMD, 3 PLDM, 4 a FATAL error. The first event counts (R639,
R649, R652). -/
def freezeStart (s : State) (kind source : Nat) : State :=
  if s.frozen || s.getF pciePg Reg.PCIE_HSW_MAIN_ON != 1 then s
  else
    let s1 := ((s.setF frzPg Reg.FRZ_STAT_STATE 2).setF frzPg Reg.FRZ_STAT_KIND kind).setF frzPg Reg.FRZ_STAT_SOURCE source
    ((State.bump { s1 with frozenAt := s.aon, thawBarred := false } frzPg Reg.FRZ_COUNT).raise frzPg 0).pldm "freeze entered"

/-- A THAW, accepted under the conditions of R645 and R646 (FREEZE_N is high again after its pulse, DESIGN CHOICE, notes/assumptions/56.md), or
refused. -/
def thawNow (s : State) : State :=
  if s.getF frzPg Reg.FRZ_STAT_STATE == 2 && !s.thawBarred && s.getF frzPg Reg.FRZ_STAT_KIND == 0 && s.getF frzPg Reg.FRZ_STAT_TIMEOUTS == 0
      && s.getF frzPg Reg.FRZ_STAT_MODIFIED == 0 then
    ((s.setF frzPg Reg.FRZ_STAT_STATE 0).setF frzPg Reg.FRZ_DURATION_US (min ((s.aon - s.frozenAt) / 1000) (2 ^ 32 - 1))).raise frzPg 2
  else s.setF frzPg Reg.FRZ_CMD_REJECTED 1

/-! ### Detection -/

/-- The record of an error of a structure. -/
def structRec (d : Die) (st : Struct) (cls : ErrClass) (inj : Bool) (pa : Nat) : ErrRec :=
  { blockRec (structPlace d st).1 cls (structPlace d st).2 with injected := inj, addr := pa }

/-- A FATAL error: a capture freeze with ON_FATAL, else a die recovery reset by fault handling (R621, R639). -/
def fatal (s : State) (d : Die) (r : ErrRec) : State :=
  let s1 := s.lastingRec { r with cls := .fatal }
  if s1.getF frzPg Reg.FRZ_CFG_ON_FATAL == 1 then s1.freezeStart 1 4 else s1.dieReset d 4

/-- A tile that an array has lost is to be rerun, its cycles with those of its descriptor not stated by the spec any more, or its aborted
descriptor ends with it (R138, R139, R153). -/
def rerunTile (s : State) (d : Die) (e : Nat) (t : TileRun) : State :=
  match (s.stream d t.n).fetched.find? fun x => x.seq == t.seq && x.phase == .running with
  | some x =>
    if x.aborting then (if s.inArrays d e t.n t.seq then s else s.finish d t.n x.slot stAborted)
    else s.updDesc d t.n x.slot fun y => { y with rerun := y.rerun ++ [t.tile], cycles := none }
  | none => s

/-- An array is isolated, and the tiles in it are discarded, with their halves of the bank zeroed (R138; that both tiles of R117 are
affected is DEDUCED, notes/assumptions/73.md). -/
def discardTile (s : State) (d : Die) (e a : Nat) : State :=
  match (s.engine d e).arrays[a]? with
  | some r =>
    let used (k : Nat) : Bool := (r.run.isSome && r.half == k) || (r.next.isSome && r.half != k)
    let s1 := s.updArr d e a fun (y : Arr) =>
      { y with
        isolated := true, run := none, next := none, preload := none, reloaded := none
        bank0 := if used 0 then [] else y.bank0
        bank1 := if used 1 then [] else y.bank1 }
    ([r.run, r.next].filterMap id).foldl (fun t u => t.rerunTile d e u) s1
  | none => s

/-- A detected error of a structure: it joins a test in progress, makes a full BIST fail, or isolates the structure and starts its test;
a ninth on the die, or one of the test logic, is FATAL (R624, R627). -/
def detect (s : State) (d : Die) (st : Struct) (inj : Bool) (pa : Nat) : State :=
  let isl := (structPlace d st).2
  if s.tests.any fun t => t.die == dieCode d && t.st == st then s
  else if s.bists.contains (dieCode d, isl) then s.setF (bistPg d) Reg.BIST_RESULT_RESULT 2 isl
  else if st == .testLogic || 8 ≤ (s.tests.filter fun t => t.die == dieCode d).length then s.fatal d (structRec d st .fatal inj pa)
  else
    let s1 : State := { s with tests := s.tests ++ [⟨dieCode d, st, s.base, structRec d st .transient inj pa, s.streamsOn d st⟩] }
    match st with
    | .array e a => s1.discardTile d e a
    | _ => s1

/-- A stored word that decodes as uncorrectable (R148, R255). -/
def spoil (s : State) (d : Die) (st : Struct) (pa : Nat) : State :=
  match st with
  | .cistRow _ _ => if s.bad.contains (pa / 8 * 8, 8) then s else { s with bad := s.bad ++ [(pa / 8 * 8, 8)] }
  | .memLogic _ | .dramLane _ _ => if (s.cwOf pa).any fun w => w.die == d then s.markBad (pa / 64 * 64) else s
  | _ => s

/-- A correction counted in the block's counter, where it has one (R621). -/
def countCorr (s : State) (d : Die) (st : Struct) : State :=
  match st with
  | .cistRow e _ => s.bump (engPg d e) Reg.ENG_CIST_CORR
  | .memLogic ch | .dramLane ch _ => s.bump (memPg d) (corrF d) 1 ch
  | .routerBuf => s.bump (tfabPg d) Reg.TFAB_CORR
  | _ => s

/-! ### Units marked unusable (R138, R142, R153, R625, R628) -/

/-- The MATMULs that run on an engine without a live array end with ENGINE_RETIRED (R142). -/
def endMatmuls (s : State) (d : Die) (e : Nat) : State :=
  (s.boundStreams d e).foldl (fun t n =>
    ((t.stream d n).fetched.filter fun x => x.phase == .running && (x.op == 0x01 || x.op == 0x02)).foldl
      (fun u x => u.finish d n x.slot stRetired) t) s

/-- An array out of the live mask for good, and in the ledger; a tile in it is rerun on another (R138, R140, R143, R654). -/
def retireArray (s : State) (d : Die) (e a : Nat) : State :=
  let m := s.liveMask d e
  if !m.testBit a then s
  else
    let s1 := (s.discardTile d e a).updArr d e a fun _ => Arr.init
    let s2 := (s1.setLive d e (m - 1 <<< a)).bump ledgPg Reg.LEDG_RETIRED
    let s3 := (s2.summary fun l => { l with retired := [dieCode d, e, a] :: l.retired }).ledg .retired [dieCode d, e, a]
    if m == 1 <<< a then s3.endMatmuls d e else s3

/-- An engine retired: its arrays retired, its page UNUSABLE, its bound streams halted (R153, R526, R625). -/
def retireEngine (s : State) (d : Die) (e : Nat) : State :=
  let pg := engPg d e
  let s1 := (List.range 4).foldl (fun t a => t.retireArray d e a) s
  let s2 := ((s1.setF pg Reg.ENG_CAP_ENABLED 0).setF pg Reg.ENG_STATUS_RETIRED 1).setF pg Reg.PAGE_STAT_UNUSABLE 1
  let s3 := (s2.boundStreams d e).foldl (fun t n => t.retireStream d n) s2
  (s3.summary fun l => { l with unusable := [dieCode d, blkCode pg.blk, e] :: l.unusable }).ledg .unusable [dieCode d, blkCode pg.blk, e]

/-- A unit's page UNUSABLE, and the ledger's record (R526, R654). -/
def markUnit (s : State) (pg : Page) : State :=
  let about := [dieCode pg.die, blkCode pg.blk, pg.inst]
  ((s.setF pg Reg.PAGE_STAT_UNUSABLE 1).summary fun l => { l with unusable := about :: l.unusable }).ledg .unusable about

/-- A channel fenced (R625). -/
def fenceChan (s : State) (d : Die) (ch : Nat) : State :=
  if s.unusable.contains (dieCode d, .memLogic ch) then s
  else
    (State.summary { s with unusable := s.unusable ++ [(dieCode d, .memLogic ch)] } fun l =>
      { l with fenced := [dieCode d, ch] :: l.fenced }).ledg .fence [dieCode d, ch]

/-- The exchange engine of network die `nd` lost: abort marks to every peer, its exchanges and filling windows aborted, its live windows
moved with their counts to the other engine's free numbers (R628). -/
def loseExchange (s : State) (nd : Nat) : State :=
  let s1 := [0, 1].foldl (fun (t : State) k =>
    match t.xchRun (nd * 2 + k) with
    | some (v, x) =>
      State.finish { (peersOf x).foldl (fun u r => u.sendX (v.die, v.n) x r (.abort (k == 1) x.plRank)) t with xch := SMap.del t.xch (nd * 2 + k) }
        (dieOf v.die) v.n v.slot stAborted
    | none => t) s
  let s2 := (s1.endRunning (xchPg nd)).markUnit (xchPg nd)
  (s2.winsOf nd).foldl (fun (t : State) e =>
    let free := (List.range 64).find? fun w => (SMap.find t.wins ((1 - nd) * 64 + w)).isNone
    match e.2.st == 1, free with
    | false, some w => { t with wins := SMap.put (SMap.del t.wins e.1) ((1 - nd) * 64 + w) e.2 }
    | false, none => t
    | true, _ => t) s2

/-- The queue pairs of a lost RDMA engine moved as R375 states. -/
def loseRdma (s : State) (nd : Nat) : State :=
  let s1 := s.markUnit ⟨netDie nd, .net, 8⟩
  (s1.qpsOf nd).foldl (fun t k => if (t.qp k).port.isSome then (t.setQpPort k (t.homePort k)).resend k else t) s1

/-- The admitted requests of a lost update unit end with ABORTED_BY_RESET, the lot in progress left torn; those that wait go to the unit that
stands in (R298, R628). -/
def loseUpdate (s : State) (pg : Page) : State :=
  let torn := s.tearLots (· == pg)
  let s := torn.1.countTears torn.2
  let mine := s.lotReqs.filter fun r => uPhase r.2.2 == 2 && (reqLots r.2.2).any fun a => (s.updUnit a).any fun u => updPg u == pg
  (mine.foldl (fun t r => t.finish (dieOf r.1) r.2.1 r.2.2.slot stAborted) s).markUnit pg

/-- Spare rows taken of a cistern bank, and context spares of a front end. -/
def bankSpares (s : State) (d : Die) (e bank : Nat) : Nat :=
  (s.spared.filter fun x => x.1 == dieCode d && match x.2 with | .cistRow f r => f == e && r % 32 == bank | _ => false).length
def rowSpares (s : State) (d : Die) : Nat :=
  (s.spared.filter fun x => x.1 == dieCode d && match x.2 with | .feRow _ => true | _ => false).length

/-- What the failure of a structure's test brings about (R625, R628); `r` is its record. -/
def failStruct (s : State) (d : Die) (st : Struct) (r : ErrRec) : State :=
  match st with
  | .array e a => s.retireArray d e a
  | .cistRow e row =>
    if s.bankSpares d e (row % 32) < 4 then
      State.zeroBytes { s with spared := s.spared ++ [(dieCode d, st)] } (cisternBase + dieCode d <<< 32 + e <<< 22 + row * 64) 64
    else s.retireEngine d e
  | .vector e | .lsu e | .sched e => s.retireEngine d e
  | .feRow _ =>
    if s.rowSpares d < (Config.contextSpares (dieCode d)).toNat then { s with spared := s.spared ++ [(dieCode d, st)] }
    else s.dieReset d 4
  | .routerBuf =>
    let k := s.getF (tfabPg d) Reg.TFAB_SPARES
    if k == 0 then s.fatal d r else s.setF (tfabPg d) Reg.TFAB_SPARES (k - 1)
  | .memLogic ch => s.fenceChan d ch
  | .dramLane ch pair =>
    let pg := memPg d
    if isTensor d && s.getF pg Reg.HBMC_LANES_REPAIRED < (Config.spareLanes (dieCode d)).toNat then
      ((s.bump pg Reg.HBMC_LANES_REPAIRED).summary fun l => { l with repairs := [dieCode d, ch, pair] :: l.repairs }).ledg .repair
        [dieCode d, ch, pair]
    else s.fenceChan d ch
  | .upd i => s.loseUpdate ⟨d, .upd, i⟩
  | .lkp i => (s.endRunning ⟨d, .lkp, i⟩).markUnit ⟨d, .lkp, i⟩
  | .prep i => (s.endRunning ⟨d, .prep, i⟩).markUnit ⟨d, .prep, i⟩
  | .xch => s.loseExchange (netNo d)
  | .rdma => s.loseRdma (netNo d)
  | .plc | .pool | .tal | .testLogic => s.fatal d r
  | .core h =>
    let s1 := (s.holdHart h).noteReset 4 4 h
    if s1.unusable.contains (dieCode d, st) then s1
    else (State.summary { s1 with unusable := s1.unusable ++ [(dieCode d, st)] } fun l =>
      { l with unusable := [dieCode d, blkCode .coh, h] :: l.unusable }).ledg .unusable [dieCode d, blkCode .coh, h]
  | .d2dLane p m l => s.loseLane d p m l
  | .crossing _ => s

/-- A failed test is FATAL by the table of R625. -/
def failsFatal (s : State) (d : Die) (st : Struct) : Bool :=
  match st with
  | .plc | .pool | .tal | .testLogic => true
  | .routerBuf => s.getF (tfabPg d) Reg.TFAB_SPARES == 0
  | _ => false

/-- A structure fails its targeted test: its LASTING record, the BIST page's bit 0 and PLDM event, and what follows (R138, R621, R625,
R652). -/
def failTest (s : State) (d : Die) (st : Struct) (r : ErrRec) : State :=
  let s1 := s.bump (bistPg d) Reg.BIST_TST_FAILS
  if s1.failsFatal d st then s1.failStruct d st r
  else
    let s2 := (s1.lastingRec { r with cls := .lasting }).failStruct d st r
    (s2.raise (bistPg d) 0).pldm "unit unusable"

/-- The transient errors of a structure within the last 24 hours (R140, R626). -/
def transientsOf (s : State) (d : Die) (st : Struct) : Nat :=
  (s.transients.filter fun t => t.1 == dieCode d && t.2.1 == st && decide (s.base < t.2.2 + dayNs)).length

/-- A passed test: the TRANSIENT record and count, and the structure back in service (R138, R621, R624). -/
def passTest (s : State) (d : Die) (st : Struct) (r : ErrRec) : State :=
  let recent := s.transients.filter fun t => decide (s.base < t.2.2 + dayNs)
  let s1 := State.logRec { s with transients := recent ++ [(dieCode d, st, s.base)] } { r with cls := .transient }
  match st with
  | .array e a => (s1.updArr d e a fun (y : Arr) => { y with isolated := false }).bump (engPg d e) ⟨0x58, 8 * a, 8⟩
  | _ => s1

/-- An island's live test control has armed the failure of its next targeted test (R647). -/
def armedFail (s : State) (d : Die) (isl : Nat) : Bool :=
  let pg := bistPg d
  s.getF pg Reg.INJ_ARM == 1 && s.getF pg Reg.INJ_KIND == 5 && s.getF pg Reg.INJ_TARGET == isl

/-- The end of a structure's targeted test (R624). -/
def testEnd (s : State) (t : SelfTest) (pass : Bool) : State :=
  let d := dieOf t.die
  let isl := (structPlace d t.st).2
  let armed := s.armedFail d isl
  let s1 : State := { s with tests := s.tests.filter fun u => !(u.die == t.die && u.st == t.st) }
  let s2 := ((if armed then s1.setF (bistPg d) Reg.INJ_ARM 0 else s1).bump (bistPg d) Reg.BIST_TST_RUNS).raiseMax (bistPg d)
    Reg.BIST_TST_US_MAX ((s.base - t.since + 999) / 1000)
  let r : ErrRec := { t.cause with injected := t.cause.injected || armed }
  (if pass && !armed then s2.passTest d t.st r else s2.failTest d t.st r)

end State

/-! ### Errors -/

namespace State

/-- What follows when a check of R137 has fired in a live array: the shadow plane is reloaded once for the weight tile it is being loaded
with; the rest are detected errors (R137, R138). -/
def arrayError (s : State) (d : Die) (e a : Nat) (r : Arr) (w : ArrPart) : State :=
  match w with
  | .shadowPlane k =>
    if r.reloaded != some k && !r.isolated then s.updArr d e a fun (y : Arr) => { y with reloaded := some k }
    else s.detect d (.array e a) false 0
  | _ => s.detect d (.array e a) false 0

end State

/-- ARRAY_DETECTED_ERROR: a check of R137 fires in a live array. A single-bit error of a bank is corrected and counted; an error during a
clearing is handled after it (R137, R138, R141). -/
def execArrayDetectedError (d : Die) (e a : Nat) (w : ArrPart) (s : State) : Host.Outcome State Fault Refusal :=
  actD d s fun s =>
    match (s.engine d e).arrays[a]? with
    | some r =>
      if !structOn d (.array e a) || !(s.liveMask d e).testBit a then s
      else if w == .bankSingle then s.setEngine d e { s.engine d e with bankCorr := (s.engine d e).bankCorr + 1 }
      else if r.clearing then s.updArr d e a fun (y : Arr) => { y with errPending := y.errPending.or (some w) }
      else s.arrayError d e a r w
    | none => s

/-- ARRAY_CLEAR_DONE: an array has zeroed its planes, latch, pre-pass state and banks (R134); a detected error of the
clearing is then handled as one of its part is (R137, R141). -/
def execArrayClearDone (d : Die) (e a : Nat) (s : State) : Host.Outcome State Fault Refusal :=
  actD d s fun s =>
    match (s.engine d e).arrays[a]? with
    | some r =>
      if r.clearing then
        let s1 := s.updArr d e a fun (z : Arr) => { Arr.init with last := z.last, isolated := z.isolated }
        match r.errPending with
        | some w => s1.arrayError d e a { Arr.init with isolated := r.isolated } w
        | none => s1
      else s
    | none => s

/-- TARGETED_SELF_TEST_DONE: the structure returns to service or is marked unusable, and its streams resume (R624 to R628). -/
def execTargetedSelfTestDone (d : Die) (st : Struct) (pass : Bool) (s : State) : Host.Outcome State Fault Refusal :=
  actD d s fun s =>
    match s.tests.find? fun t => t.die == dieCode d && t.st == st with
    | some t => s.testEnd t pass
    | none => s

/-- TRANSIENT_LIMIT: a structure with 16 transient errors within 24 hours is handled as one whose test failed (R140, R626). -/
def execTransientLimit (d : Die) (st : Struct) (s : State) : Host.Outcome State Fault Refusal :=
  actD d s fun s =>
    if 16 ≤ s.transientsOf d st then
      let s1 : State := { s with
        transients := s.transients.filter fun t => !(t.1 == dieCode d && t.2.1 == st)
        tests := s.tests.filter fun t => !(t.die == dieCode d && t.st == st) }
      (s1.failTest d st (State.structRec d st .lasting false 0))
    else s

/-- A word of an island's ratio-locked path arrives with bad parity: XPARITY is set and the mismatch counted (R550). A crossing in asynchronous mode
has no such path (R551). -/
def State.crossParity (s : State) (d : Die) (i : Nat) : State :=
  let pg : Page := ⟨d, .clk, 0⟩
  if s.clocks.locked.contains (islKey d i) then (s.setF pg Reg.CLK_STAT_XPARITY 1).bump pg Reg.CLK_XPAR_CNT else s

/-- ERROR_DETECTED: a parity mismatch of a crossing (R550), or an error of a class at a structure: corrected and counted, FATAL, or the start of its test, for class 4 after its
stored word became uncorrectable (R621, R624). WRITE_LOST and REFUSED have commands of their own. -/
def execErrorDetected (d : Die) (st : Struct) (cls : ErrClass) (pa : Nat) (s : State) : Host.Outcome State Fault Refusal :=
  actD d s fun s =>
    match st with
    | .crossing i => s.crossParity d i
    | _ =>
    if !structOn d st then s
    else
      match cls with
      | .corrected => s.countCorr d st
      | .transient | .lasting => s.detect d st false pa
      | .data => ((s.spoil d st pa).logRec (State.structRec d st .data false pa)).detect d st false pa
      | .fatal => s.fatal d (State.structRec d st .fatal false pa)
      | .writeLost | .refusal => s

/-- WRITE_LOST: a hart's write still in its store buffer gives a precise exception; a retired one and a posted PCIe write are recorded
(R623, R652). -/
def execWriteLost (r : Requester) (pa : Nat) (retired : Bool) (s : State) : Host.Outcome State Fault Refusal :=
  act s fun s =>
    match r with
    | .hart h =>
      if 96 ≤ h || (s.hart h).held then s
      else if retired then
        let pg := bistPg (if h < 48 then .H0 else .H1)
        ((s.writeLostRec r (s.cptOf r) pa).bump pg Reg.BIST_WRLOST).raise pg 2
      else s.answer r .accessFault
    | .pcie => (s.writeLostRec r (s.cptOf r) pa).bump pciePg Reg.PCIE_AER_UNCORR
    | _ => s

/-! ### BIST (R629 to R632) -/

namespace State

/-- BIST_SUMMARY follows the islands' results (R648). -/
def bistSummary (s : State) (d : Die) : State :=
  let pg := bistPg d
  let count (p : Nat → Bool) : Nat := ((List.range (islandCount d)).filter p).length
  let res (i : Nat) : Nat := s.getF pg Reg.BIST_RESULT_RESULT i
  ((s.setF pg Reg.BIST_SUMMARY_FAILED (count fun i => res i == 2)).setF pg Reg.BIST_SUMMARY_NOT_RUN
    (count fun i => res i == 0 && (s.getF pg Reg.BIST_RESULT_V_OUT i == 1 || s.getF pg Reg.BIST_RESULT_NO_REF i == 1))).setF pg
    Reg.BIST_SUMMARY_UNUSABLE (count fun i => s.getF pg Reg.BIST_RESULT_UNUSABLE i == 1)

/-- The structures of an island whose work R628 moves, or that R625 fences. -/
def islandStructs (d : Die) (i : Nat) : List Struct :=
  if isTensor d then
    if i < 100 then [.sched i] else if i == 121 || i == 122 then (List.range 32).map .memLogic else if i == 123 then [.upd 0] else []
  else if isHost d then (if i < 48 then [.core (if d == .H0 then i else 48 + i)] else [])
  else if isNet d then
    if i == 8 then [.rdma] else if i == 9 then [.xch] else if i == 10 || i == 11 then [.prep (i - 10)] else []
  else
    if i == 0 then (List.range 32).map .memLogic
    else if i < 9 then (List.range 4).map fun k => .memLogic ((i - 1) * 4 + k)
    else if i < 11 then [.upd (i - 9)] else if i < 15 then [.lkp (i - 11)] else []

/-- An island marked unusable: its work moves under R628, and the links of a D2D island go down (R632). -/
def loseIsland (s : State) (d : Die) (i : Nat) : State :=
  let a := adapterIsland d
  let s1 := s.setF (bistPg d) Reg.BIST_RESULT_UNUSABLE 1 i
  if a ≤ i && i < a + 6 then s1.linkFall d ((i - a) % 3)
  else (islandStructs d i).foldl (fun t st => t.failStruct d st (structRec d st .lasting false 0)) s1

/-- A PLL of a die is locked to a qualified external source (R542, R630). -/
def hasRef (s : State) (d : Die) : Bool :=
  let n0 : Page := ⟨.N0, .clk, 0⟩
  let act := s.getF n0 Reg.CLK_SRC_ACTIVE
  s.getF ⟨d, .clk, 0⟩ Reg.CLK_STAT_COASTING == 0
    && ((act == 0 && s.getF n0 Reg.CLK_SRC_XTAL_OK == 1) || (act == 1 && s.getF n0 Reg.CLK_SRC_BASE_OK == 1))

/-- The end of an island's BIST: NOT_RUN without its conditions, else PASS or FAIL by its signature (R630 to R632). -/
def bistEnd (s : State) (d : Die) (i : Nat) (sig : BitVec 64) (vOk : Bool) : State :=
  let pg := bistPg d
  let s1 : State := { s with bists := s.bists.filter fun e => e != (dieCode d, i) }
  if !vOk || !s.hasRef d then
    ((s1.setF pg Reg.BIST_RESULT_RESULT 0 i).setF pg Reg.BIST_RESULT_V_OUT (!vOk).toNat i).setF pg Reg.BIST_RESULT_NO_REF
      (!s.hasRef d).toNat i
  else
    let s2 := (s1.setWord pg 0x4C (sig.toNat % 2 ^ 32) i).setWord pg 0x50 (sig.toNat >>> 32) i
    let ok := s.getF pg Reg.BIST_RESULT_RESULT i != 2 && sig.toNat == s.word pg 0x54 i + s.word pg 0x58 i <<< 32
    let s3 := s2.setF pg Reg.BIST_RESULT_RESULT (if ok then 1 else 2) i
    let s4 := match islandPage d i with
      | some p => (s3.clearBlock p).clearRegs (· == p) fun q off => if off == 0x14 then 8 else blockKept q off
      | none => s3
    if ok then s4
    else
      let p := (islandPage d i).getD ⟨d, .coh, 0⟩
      ((((s4.lastingRec (blockRec p .lasting i)).loseIsland d i)).raise pg 0).pldm "unit unusable"

end State

/-- BIST_RUN: BIST_CMD.RUN runs full BIST on the selected island of a die, or sets REJECTED (R629). -/
def execBistRun (d : Die) (s : State) : Host.Outcome State Fault Refusal :=
  actD d s fun s =>
    let pg := bistPg d
    let i := s.getF pg Reg.BIST_SEL_ISLAND
    if islandCount d ≤ i || !s.islandIdle d i || s.bists.contains (dieCode d, i) then s.setF pg Reg.BIST_CMD_REJECTED 1
    else
      let s1 := ((s.setF pg Reg.BIST_RESULT_RESULT 3 i).setF pg Reg.BIST_RESULT_V_OUT 0 i).setF pg Reg.BIST_RESULT_NO_REF 0 i
      { s1.setF pg Reg.BIST_CMD_BUSY 1 with bists := s1.bists ++ [(dieCode d, i)] }

/-- BIST_COMPLETE: the signature of an island under full BIST is compared, and the island re-initialised (R630 to R632, R652). -/
def execBistComplete (d : Die) (isl : Nat) (sig : BitVec 64) (vOk : Bool) (s : State) : Host.Outcome State Fault Refusal :=
  actD d s fun s =>
    if s.bists.contains (dieCode d, isl) then
      let s1 := s.bistEnd d isl sig vOk
      let s2 := if s1.bists.any fun e => e.1 == dieCode d then s1 else s1.setF (bistPg d) Reg.BIST_CMD_BUSY 0
      ((s2.bistSummary d).raise (bistPg d) 1)
    else s

/-! ### Live test controls (R532, R647) -/

namespace State

/-- The structure in which an error of an island is injected. -/
def injStruct (pg : Page) (isl : Nat) : Struct :=
  let d := pg.die
  let a := adapterIsland d
  if a ≤ isl && isl < a + 6 then .d2dLane ((isl - a) % 3) 0 0
  else if isTensor d then
    if isl < 100 then .sched isl else if isl < 120 then .routerBuf else if isl == 120 then .feRow 0
    else if isl == 121 then .memLogic 0 else if isl == 122 then .dramLane 0 0 else .upd 0
  else if isHost d then
    if isl < 48 then .core (if d == .H0 then isl else 48 + isl) else if isl == 52 then .tal else .routerBuf
  else if isNet d then
    if isl == 8 then .rdma else if isl == 9 then .xch else if isl == 10 || isl == 11 then .prep (isl - 10)
    else if isl == 14 then .tal else .routerBuf
  else
    if isl == 0 then .memLogic 0 else if isl < 9 then .dramLane ((isl - 1) * 4) 0 else if isl < 11 then .upd (isl - 9)
    else if isl < 15 then .lkp (isl - 11) else if isl == 15 then .plc else if isl == 17 then .tal else .routerBuf

/-- The structure that the live test controls of a page name: a lane on D2D pages, the island's elsewhere. -/
def injTarget (s : State) (pg : Page) : Struct :=
  let t := s.getF pg Reg.INJ_TARGET
  if pg.blk == .d2d then .d2dLane pg.inst (t / 64) (t % 64) else injStruct pg t

/-- A page that has live test controls, while debug access is open. -/
def liveTest (s : State) (pg : Page) : Bool := (pg.blk == .d2d || pg.blk == .bist) && pageExists pg && s.debugOpen

end State

/-- INJ_ARM: the armed control of a page injects one error of INJ_KIND; the failure of the next targeted test stays armed until that
test (R647). -/
def execInjArm (pg : Page) (s : State) : Host.Outcome State Fault Refusal :=
  actD pg.die s fun s =>
    let st := s.injTarget pg
    let kind := s.getF pg Reg.INJ_KIND
    let done := s.setF pg Reg.INJ_ARM 0
    if !s.liveTest pg then s.pageErr pg
    else
      match kind with
      | 1 => done.countCorr pg.die st
      | 2 | 3 => if structOn pg.die st then done.detect pg.die st true 0 else done
      | 4 => match st with | .d2dLane p m l => if structOn pg.die st then done.loseLane pg.die p m l else done | _ => done
      | 5 => s.setF pg Reg.INJ_ARM 1
      | _ => done

/-- TST_RUN: the targeted test of INJ_TARGET runs and ends (R647). -/
def execTstRun (pg : Page) (pass : Bool) (s : State) : Host.Outcome State Fault Refusal :=
  actD pg.die s fun s =>
    let st := s.injTarget pg
    if !s.liveTest pg then s.pageErr pg
    else if !structOn pg.die st then s
    else
      let d := pg.die
      let armed := s.armedFail d (structPlace d st).2
      let s0 := s.setF pg Reg.TST_RUN 0
      let s1 := (if armed then s0.setF (bistPg d) Reg.INJ_ARM 0 else s0).bump (bistPg d) Reg.BIST_TST_RUNS
      if pass && !armed then s1 else s1.failTest d st (State.structRec d st .lasting armed 0)

/-! ### Freeze and debug access -/

/-- FREEZE_N: low for 100 ns (R579, R639). -/
def execFreezeN (s : State) : Host.Outcome State Fault Refusal :=
  auxAct s fun s => s.freezeStart (1 - s.getF frzPg Reg.FRZ_CFG_PIN_MODE) 1

/-- FREEZE_DEBUG (R639). -/
def execFreezeDebug (s : State) : Host.Outcome State Fault Refusal := auxAct s fun s => s.freezeStart 0 2

/-- FREEZE_CAPTURE (R639). -/
def execFreezeCapture (s : State) : Host.Outcome State Fault Refusal := auxAct s fun s => s.freezeStart 1 2

/-- THAW (R645). -/
def execThaw (s : State) : Host.Outcome State Fault Refusal := auxAct s fun s => s.thawNow

/-- THAW_LIMIT_EXPIRY: the freeze has lasted longer than FRZ_THAW_LIMIT (R644). -/
def execThawLimitExpiry (s : State) : Host.Outcome State Fault Refusal :=
  auxAct s fun s =>
    if s.frozen && decide (s.frozenAt + s.getF frzPg Reg.FRZ_THAW_LIMIT_MS * 10 ^ 6 < s.aon) then s.linkTimeout 3 else s

/-- SCAN_SHIFT: a shift that recirculates leaves the state unchanged (R642, R643). -/
def execScanShift (recirculate : Bool) (s : State) : Host.Outcome State Fault Refusal :=
  auxAct s fun s => if s.inspectOn && !recirculate then s.setF frzPg Reg.FRZ_STAT_MODIFIED 1 else s

/-- INSTRUMENT_WRITE (R643). -/
def execInstrumentWrite (s : State) : Host.Outcome State Fault Refusal :=
  auxAct s fun s => if s.inspectOn then s.setF frzPg Reg.FRZ_STAT_MODIFIED 1 else s

/-- INSPECT_EN: the debug network is open while the pin is high and the fuse DBG_DISABLE intact (R512, R638). -/
def execInspectEn (level : Bool) (s : State) : Host.Outcome State Fault Refusal :=
  auxAct s fun s => s.notePromise { s with inspectOn := level && !s.fuses.dbgDisable }

end Sys2Proof.Machine
end

