-- ==== Sys2Proof/Machine/Power.lean ====
section
/-! DEFINITION. Clocks, power and temperature (R541 to R569). -/

namespace Sys2Proof.Machine

def clkPg (d : Die) : Page := ⟨d, .clk, 0⟩
def pwrPg (d : Die) : Page := ⟨d, .pwr, 0⟩
def thmPg (d : Die) : Page := ⟨d, .thm, 0⟩
/-- The pages that hold the module's common TV fields (R566). -/
def srcPg : Page := clkPg .N0

/-- A command of the clock, power and sensor controllers, which a freeze leaves running (R640). -/
def powerAct (s : State) (f : State → State) : Host.Outcome State Fault Refusal :=
  .next (if s.getF pciePg Reg.PCIE_HSW_MAIN_ON == 1 && decide (s.getF mgmtPg Reg.MGMT_STANDBY_STATE < 2) then f s else s)


/-- The island whose clock PWR_OP reports: an engine, a core, or the die fabric (R545, R567). -/
def mainIsland (d : Die) : Nat := if isNet d then 13 else if isCap d then 16 else 0

/-- A tensor die's operating points at full load: 25 MHz steps, 0.1 W, mV, highest first (R563). -/
def tensorPoints : List (Nat × Nat × Nat) :=
  [(64, 2800, 800), (56, 2320, 760), (48, 1900, 720), (40, 1520, 680), (32, 1180, 650), (24, 900, 620), (16, 720, 600)]

/-- The point at or below a step, and the one 8 steps above it. -/
def tensorSpan (st : Nat) : (Nat × Nat × Nat) × (Nat × Nat × Nat) :=
  let lo := (tensorPoints.find? fun p => p.1 ≤ st).getD (16, 720, 600)
  (lo, (tensorPoints.find? fun p => p.1 == lo.1 + 8).getD lo)

/-- A tensor die's power at a step fits a cap: exact linear interpolation between the points (R563). -/
def tensorFits (st cap : Nat) : Bool :=
  let x := tensorSpan st
  decide (x.1.2.1 * 8 + (x.2.2.1 - x.1.2.1) * (st - x.1.1) ≤ cap * 8)

/-- A tensor die's voltage at a step in mV, rounded down (R563; notes/assumptions/57.md). -/
def tensorMv (st : Nat) : Nat :=
  let x := tensorSpan st
  x.1.2.2 + (x.2.2.2 - x.1.2.2) * (st - x.1.1) / 8

/-- The class of a die whose operating points the spec does not give. -/
def dieClass (d : Die) : Nat := if isHost d then 1 else if isNet d then 2 else 3

/-- The highest step whose power fits a cap, at full load; the lowest step where none does (R563; DESIGN CHOICE,
notes/assumptions/57.md). -/
def budgetStep (d : Die) (cap : Nat) : Nat :=
  let r := (islandRange d (mainIsland d)).getD (64, 16)
  let steps := (List.range (r.1 - r.2 + 1)).map (r.1 - ·)
  (steps.find? fun st => if isTensor d then tensorFits st cap else decide (Config.opPower (dieClass d) st ≤ cap)).getD r.2

/-- The crossings between variable islands of a die: receivers, senders, and the limits of their ratio in quarters (R545, R548). Those with a
fixed island keep their limits at every frequency of the other. -/
def crossings (d : Die) : List (List Nat × List Nat × Nat × Nat) :=
  if isTensor d then [(List.range' 100 21, List.range 100, 2, 5), ([123], List.range' 100 20, 1, 5)]
  else if isHost d then [(List.range' 48 4, List.range 48, 2, 4)]
  else if isNet d then [([10, 11], [13], 1, 5)]
  else [(List.range' 9 6, [16], 1, 5)]

/-- The islands that share a crossing with island `i` at step `c`, each with the least and the most that its limits leave it (R548). -/
def partners (d : Die) (i c : Nat) : List (Nat × Nat × Nat) :=
  (crossings d).flatMap fun x =>
    (if x.1.contains i then x.2.1.map fun j => (j, ceilDiv (4 * c) x.2.2.2, 4 * c / x.2.2.1) else [])
      ++ (if x.2.1.contains i then x.1.map fun j => (j, ceilDiv (x.2.2.1 * c) 4, x.2.2.2 * c / 4) else [])

/-- Power of a parked die in 0.1 W (R616). -/
def parkedPower (d : Die) : Nat := if isTensor d then 320 else if isHost d then 240 else if isNet d then 220 else 300

namespace State

/-- A word of TV fields written: all three copies take the value (R527). -/
def setTv (s : State) (pg : Page) (f : Fld) (v : Nat) : State :=
  let k := regKey pg f.off 0
  State.setF { s with tvB := SMap.del s.tvB k, tvC := SMap.del s.tvC k } pg f v

/-! ### Clocks -/

/-- The OK bit of an external source (R542). -/
def srcOkF (src : ClkSrc) : Fld := if src == .crystal then Reg.CLK_SRC_XTAL_OK else Reg.CLK_SRC_BASE_OK
def srcOk (s : State) (k : Nat) : Bool := s.getF srcPg (if k == 0 then Reg.CLK_SRC_XTAL_OK else Reg.CLK_SRC_BASE_OK) == 1
/-- Codes of CLK_SRC.SEL and ACTIVE. -/
def srcCode (src : ClkSrc) : Nat := match src with | .crystal => 0 | .baseboard => 1 | .oscillator => 2

/-- The source that SEL names is switched to once it is qualified and not in use (R543). -/
def seekSource (s : State) : State :=
  let sel := s.getF srcPg Reg.CLK_SRC_SEL
  let want := s.getF srcPg Reg.CLK_SRC_ACTIVE != sel && s.srcOk sel && s.clocks.lostAt.isNone
  { s with clocks := { s.clocks with target := if want then some sel else none } }

/-- The islands of a die that vary, at their lowest frequency (R553). -/
def coastDie (s : State) (d : Die) : State :=
  ((List.range (islandCount d)).foldl (fun t i =>
    match islandRange d i with
    | some r => t.setF (clkPg d) Reg.CLK_ISL_CUR r.2 i
    | none => t) s).setF (clkPg d) Reg.CLK_STAT_COASTING 1

/-- The cap of a variable island by its die's thermal state (R564). -/
def thermalCap (s : State) (d : Die) (r : Nat × Nat) : Nat :=
  match s.getF (thmPg d) Reg.THM_STATE with
  | 0 => r.1
  | 1 => r.1 * 3 / 4
  | _ => r.2

/-- The budget's bound for an island: those of the main island's class (R563). -/
def budgetCap (s : State) (d : Die) (r : Nat × Nat) : Nat :=
  if some r == islandRange d (mainIsland d) then budgetStep d (s.getF (pwrPg d) Reg.PWR_CAP) else r.1

/-- The highest frequency that an island may take: its nominal one, the budget choice, the thermal cap, CLK_ISL.MAX (R547). -/
def islandBound (s : State) (d : Die) (i : Nat) (r : Nat × Nat) : Nat :=
  max r.2 (min (min r.1 (s.budgetCap d r)) (min (s.thermalCap d r) (s.getF (clkPg d) Reg.CLK_ISL_MAX i)))

/-- The step that an island takes beside a partner that went up or down: as its ratio's limits ask, within its own bounds (R547). -/
def beside (s : State) (d : Die) (up : Bool) (x : Nat × Nat × Nat) : Nat :=
  let c := s.getF (clkPg d) Reg.CLK_ISL_CUR x.1
  match islandRange d x.1 with
  | some r => if up then max c (min x.2.1 (s.islandBound d x.1 r)) else min c (max r.2 x.2.2)
  | none => c

/-- The islands of a list have gone up or down: of those that `may` move, the ones that share a crossing with them follow, and those beside
these (R547; DEDUCED, notes/assumptions/57.md). -/
def follow (d : Die) (up : Bool) (may : Nat → Bool) : Nat → List Nat → State → State
  | 0, _, s => s
  | k + 1, l, s =>
    let r := l.foldl (fun (a : State × List Nat) i =>
      (partners d i (a.1.getF (clkPg d) Reg.CLK_ISL_CUR i)).foldl (fun (b : State × List Nat) x =>
        let c := b.1.beside d up x
        if !may x.1 || c == b.1.getF (clkPg d) Reg.CLK_ISL_CUR x.1 then b
        else (b.1.setF (clkPg d) Reg.CLK_ISL_CUR c x.1, x.1 :: b.2)) a) (s, [])
    if r.2.isEmpty then r.1 else follow d up may k r.2 r.1

/-- An island a step up or down, with those that share its crossings (R547). -/
def moveIsland (s : State) (d : Die) (i : Nat) (up : Bool) : State :=
  let c := s.getF (clkPg d) Reg.CLK_ISL_CUR i
  follow d up (· != i) 4 [i] (s.setF (clkPg d) Reg.CLK_ISL_CUR (if up then c + 1 else c - 1) i)

/-- PWR_OP reports the main island's clock and voltage (R567). -/
def noteOp (s : State) (d : Die) : State :=
  let st := s.getF (clkPg d) Reg.CLK_ISL_CUR (mainIsland d)
  (s.setF (pwrPg d) Reg.PWR_OP_STEP st).setF (pwrPg d) Reg.PWR_OP_MV
    (if isTensor d then tensorMv st else (Config.opMv (dieClass d) st).toNat)

/-- PWR_CAUSE: the lowest bound in force; `missed` after a round with a missing message (R567). -/
def noteCause (s : State) (d : Die) (missed : Bool) : State :=
  let r := (islandRange d (mainIsland d)).getD (64, 16)
  let b := s.budgetCap d r
  let t := s.thermalCap d r
  let m := s.getF (clkPg d) Reg.CLK_ISL_MAX (mainIsland d)
  let low := min b (min t m)
  s.setF (pwrPg d) Reg.PWR_CAUSE
    (if s.getF (clkPg d) Reg.CLK_STAT_COASTING == 1 then 3
     else if r.1 ≤ low then 0
     else if b == low then (if missed then 4 else 1)
     else if t == low then 2 else 5)

/-- A die's round before missed a message, as PWR_CAUSE says. -/
def wasMissed (s : State) (d : Die) : Bool := s.getF (pwrPg d) Reg.PWR_CAUSE == 4

/-- The variable islands of a die down to their bounds. -/
def clampIslands (s : State) (d : Die) : State :=
  ((List.range (islandCount d)).foldl (fun t i =>
    match islandRange d i with
    | some r =>
      let b := max r.2 (min (t.thermalCap d r) (t.getF (clkPg d) Reg.CLK_ISL_MAX i))
      if b < t.getF (clkPg d) Reg.CLK_ISL_CUR i then t.setF (clkPg d) Reg.CLK_ISL_CUR b i else t
    | none => t) s).noteOp d

/-- Every Ethernet port loses its reference and goes down (R554); during a freeze that is a link timeout, and nothing moves (R644). -/
def portsDown (s : State) : State :=
  (List.range 8).foldl (fun t k =>
    let pg := portPg k
    let up := t.getF pg Reg.NET_PORT_STAT_LINK
    let t1 := (t.setF pg Reg.NET_PORT_STAT_LINK 0).setF pg Reg.NET_PORT_STAT_LOCK 0
    if up == 0 then t1 else if t.frozen then t1.linkTimeout 1 else (t1.steer (2 * k)).steer (2 * k + 1)) s

/-- What holds the crossings of a die asynchronous (R551). -/
def asyncHeld (s : State) (d : Die) : Bool :=
  s.getF (clkPg d) Reg.CLK_MODE_ASYNC == 1 || s.clocks.lostAt.isSome || s.getF (clkPg d) Reg.CLK_STAT_COASTING == 1
    || (s.tests.any fun t => t.die == dieCode d) || (s.bists.any fun e => e.1 == dieCode d)
    || decide (s.getF mgmtPg Reg.MGMT_BOOT_STAGE < 7)

/-- A crossing of an island in ratio-locked or asynchronous mode; ASYNC_ACTIVE follows (R552). -/
def setCrossing (s : State) (d : Die) (i : Nat) (async : Bool) : State :=
  let k := islKey d i
  let rest := s.clocks.locked.filter (· != k)
  let locked := if async then rest else rest ++ [k]
  State.setF { s with clocks := { s.clocks with locked := locked } } (clkPg d) Reg.CLK_STAT_ASYNC_ACTIVE
    (locked.all fun e => e >>> 8 != dieCode d).toNat

/-- CLK_ISL.MAX of an island: below LOWEST it takes LOWEST; a fixed island ignores it (R566). -/
def setMax (s : State) (d : Die) (i v : Nat) : State :=
  match islandRange d i with
  | some r => ((s.setF (clkPg d) Reg.CLK_ISL_MAX (max r.2 v) i).clampIslands d).noteCause d (s.wasMissed d)
  | none => s

/-! ### Power -/

/-- A die takes part in the rounds (R558). -/
def active (s : State) (d : Die) : Bool := !s.dieUnusable d
/-- Floor and ceiling of an active die, its parked power while it is parked (R558, R616). -/
def limitsOf (s : State) (d : Die) : Nat × Nat := if s.dieParked d then (parkedPower d, parkedPower d) else powerLimits d

def budget (s : State) (d : Die) : Budget := SMap.getD s.budgets (dieCode d) Budget.init
def setBudget (s : State) (d : Die) (x : Budget) : State := { s with budgets := SMap.put s.budgets (dieCode d) x }

/-- The dies that take part. -/
def activeDies (s : State) : List Die := allDies.filter s.active

/-- The demand that a die sends, within its limits; its floor in LIMIT or SHUTDOWN (R559, R565). -/
def demandOf (s : State) (d : Die) (v : Nat) : Nat :=
  let l := s.limitsOf d
  if 3 ≤ s.getF (thmPg d) Reg.THM_STATE then l.1 else min l.2 (max l.1 v)

/-- The cap of die `d` by the demands of a round (R560). -/
def capOf (s : State) (got : SMap Nat) (d : Die) : Nat :=
  let ds := s.activeDies
  let floors := ds.foldl (fun a e => a + (s.limitsOf e).1) 0
  let r := (s.getF (pwrPg .N0) Reg.PWR_MODULE_BUDGET_W - 420) * 10 - floors
  let excess (e : Die) : Nat := SMap.getD got (dieCode e) 0 - (s.limitsOf e).1
  let sum := ds.foldl (fun a e => a + excess e) 0
  if sum ≤ r then SMap.getD got (dieCode d) 0 else (s.limitsOf d).1 + excess d * r / sum

/-- Every active die's message of the round has come. -/
def roundWhole (s : State) (got : SMap Nat) : Bool := s.activeDies.all fun e => (SMap.find got (dieCode e)).isSome

/-- A new cap of a die: at once where it falls, waiting where it rises (R562); a cap below demand is counted in rounds (R569). -/
def takeCap (s : State) (d : Die) (cap : Nat) (missed : Bool) : State :=
  let pg := pwrPg d
  let x := s.budget d
  let below := if cap < s.getF pg Reg.PWR_DEMAND then x.below + 1 else 0
  let up := decide (s.getF pg Reg.PWR_CAP < cap)
  let s1 := (if up then s else s.setF pg Reg.PWR_CAP cap).setBudget d { x with below := below, raised := if up then some cap else none }
  let s2 := if below == 20 then s1.raise pg 1 else s1
  s2.noteCause d missed

/-- The tick of a round for one die: the cap by the last round's messages, or its floor when one is missing, and the new demand sent
(R559 to R562). -/
def roundTick (s : State) (demands : List (Die × Nat)) (d : Die) : State :=
  let pg := pwrPg d
  let x := s.budget d
  let first := s.getF pg Reg.PWR_ROUND == 0
  let s1 := if first then s
    else if s.roundWhole x.got then s.takeCap d (s.capOf x.got d) false
    else ((s.bump pg Reg.PWR_MISSED).raise pg 0).takeCap d (s.limitsOf d).1 true
  let want := s1.demandOf d (((demands.find? fun e => e.1 == d).map (·.2)).getD 0)
  let mean := if x.meas.isEmpty then s1.getF pg Reg.PWR_MEAS else (x.meas.foldl (· + ·) 0) / x.meas.length
  let s2 := ((s1.setF pg Reg.PWR_DEMAND want).setF pg Reg.PWR_MEAS mean).setWord pg 0x64 ((s.getF pg Reg.PWR_ROUND + 1) % 2 ^ 32)
  s2.setBudget d { s2.budget d with got := [(dieCode d, want)], tickAt := s.aon, meas := [] }

/-! ### Temperature -/

/-- The module's highest Tj, and the thermal cycles of the ledger (R654). -/
def noteSwing (s : State) : State :=
  let t := (allDies.map fun d => s.getF (thmPg d) Reg.THM_TJ_TEMP_C).foldl max 0
  let x := s.swing
  if x.down then
    if t + 40 ≤ x.ext then
      (State.bump { s with swing := ⟨t, false⟩ } ledgPg Reg.LEDG_THERM_CYCLES).summary id
    else { s with swing := ⟨max x.ext t, true⟩ }
  else if x.ext + 40 ≤ t then { s with swing := ⟨t, true⟩ }
  else { s with swing := ⟨min x.ext t, false⟩ }

/-- A die's thermal state: rising raises bit 0, and bit 2 at LIMIT and SHUTDOWN, which bar a thaw; falling raises bit 1 (R564, R569,
R646). -/
def setThermal (s : State) (d : Die) (k : Nat) : State :=
  let pg := thmPg d
  let old := s.getF pg Reg.THM_STATE
  let s1 := { s.setF pg Reg.THM_STATE k with coolAt := SMap.del s.coolAt (dieCode d) }
  let s2 := if old < k then s1.raiseMask pg (if 3 ≤ k then 5 else 1) else s1.raise pg 1
  let s3 := if 3 ≤ k && old < k && s.frozen then { s2 with thawBarred := true } else s2
  (s3.clampIslands d).noteCause d (s.wasMissed d)

/-- The lower threshold of a die's thermal state (R564). -/
def coolBelow (s : State) (d : Die) : Nat :=
  match s.getF (thmPg d) Reg.THM_STATE with
  | 1 => s.getF (thmPg .N0) Reg.THM_LIMITS_STEP1 - 3
  | 2 => s.getF (thmPg .N0) Reg.THM_LIMITS_STEP2 - 3
  | 3 => 100
  | _ => 0

/-- SHUTDOWN: the die is parked, or the module put in standby for N0, and the ledger records it (R564). -/
def shutDown (s : State) (d : Die) : State :=
  let s1 := (s.setThermal d 4).ledg .thermalShutdown [dieCode d]
  if d == .N0 then s1.standbyNow else (s1.abortDie d).parkNow d

/-- The thermal state after a sample of Tj (R564). -/
def thermalRise (s : State) (d : Die) (t : Nat) : State :=
  match s.getF (thmPg d) Reg.THM_STATE with
  | 0 => if s.getF (thmPg .N0) Reg.THM_LIMITS_STEP1 ≤ t then s.setThermal d 1 else s
  | 1 => if s.getF (thmPg .N0) Reg.THM_LIMITS_STEP2 ≤ t then s.setThermal d 2 else s
  | 2 => if 105 ≤ t then s.setThermal d 3 else s
  | 3 => if 110 ≤ t then s.shutDown d else s
  | _ => s

end State

/-! ### Clocks -/

/-- SOURCE_QUALIFIED: an external source has read within 2 % for 2 ms; it is switched to when SEL names it (R542, R543). -/
def execSourceQualified (src : ClkSrc) (s : State) : Host.Outcome State Fault Refusal :=
  auxAct s fun s => if src == .oscillator then s else (s.setF srcPg (State.srcOkF src) 1).seekSource

/-- SOURCE_LOSS: the OK bit falls; of the source in use every PLL coasts, CLK_LOSS is set and counted on every die (R553, R555); the
crystal is the reference of the Ethernet ports whichever is selected (R541, R554). -/
def execSourceLoss (src : ClkSrc) (s : State) : Host.Outcome State Fault Refusal :=
  auxAct s fun s =>
    if src == .oscillator || s.getF srcPg (State.srcOkF src) == 0 then s
    else
      let s1 := s.setF srcPg (State.srcOkF src) 0
      let s2 :=
        if s.getF srcPg Reg.CLK_SRC_ACTIVE == State.srcCode src then
          allDies.foldl (fun t d =>
            (((t.coastDie d).setF (clkPg d) Reg.CLK_STAT_CLK_LOSS 1).bump (clkPg d) Reg.CLK_LOSS_CNT).raise (clkPg d) 0 |>.noteCause d false)
            { s1 with clocks := { s1.clocks with lostAt := some s.aon, target := none } }
        else s1.seekSource
      if src == .crystal then s2.portsDown else s2

/-- CLOCK_SOURCE_SWITCH: after a loss to the other external source if qualified, SEL following it, else to the internal oscillator;
without a loss to the source that SEL names. The PLLs coast until they lock (R543, R554). -/
def execClockSourceSwitch (s : State) : Host.Outcome State Fault Refusal :=
  auxAct s fun s =>
    let go (t : State) (k : Nat) : State :=
      (allDies.foldl State.coastDie { t with clocks := { t.clocks with lostAt := none, target := none } }).setF srcPg Reg.CLK_SRC_ACTIVE k
    match s.clocks.lostAt with
    | some _ =>
      let other := 1 - s.getF srcPg Reg.CLK_SRC_ACTIVE
      if s.srcOk other then go (s.setTv srcPg Reg.CLK_SRC_SEL other) other else go s 2
    | none => match s.clocks.target with | some k => go s k | none => s

/-- PLL_LOCK: coasting ends, and the CLK_ISL.MAX values written meanwhile apply (R554, R555). -/
def execPllLock (s : State) : Host.Outcome State Fault Refusal :=
  auxAct s fun s =>
    if s.clocks.lostAt.isSome || s.getF srcPg Reg.CLK_STAT_COASTING == 0 then s
    else
      let s1 := allDies.foldl (fun t d => (t.setF (clkPg d) Reg.CLK_STAT_COASTING 0).noteCause d false) s
      let s2 : State := { s1 with clocks := { s1.clocks with waiting := [] } }
      (s.clocks.waiting.foldl (fun (t : State) e => t.setMax (dieOf (e.1 >>> 8)) (e.1 % 256) e.2) s2).seekSource

/-- CLK_SRC_SEL_WRITE: SEL names the crystal or the baseboard reference; 2 and 3 are ignored (R543, R566). -/
def execClkSrcSelWrite (v : W32) (s : State) : Host.Outcome State Fault Refusal :=
  auxAct s fun s => if v.toNat % 4 < 2 then (s.setTv srcPg Reg.CLK_SRC_SEL (v.toNat % 4)).seekSource else s

/-- CLK_SSC_WRITE: spread and rate, each at most its largest (R556, R566). -/
def execClkSscWrite (v : W32) (s : State) : Host.Outcome State Fault Refusal :=
  auxAct s fun s =>
    (s.setTv srcPg Reg.CLK_SSC_SPREAD (min 10 (bitsOf v.toNat 0 4))).setTv srcPg Reg.CLK_SSC_RATE (min 30 (bitsOf v.toNat 4 5))

/-- CLK_ISL_MAX_WRITE: the cap of the selected island of die `d`, unchecked; stored while the PLLs coast (R547, R549, R555, R566). -/
def execClkIslMaxWrite (d : Die) (v : W32) (s : State) : Host.Outcome State Fault Refusal :=
  powerAct s fun s =>
    let i := s.getF (clkPg d) Reg.CLK_ISL_SEL_INDEX
    if (islandRange d i).isNone then s
    else if s.getF (clkPg d) Reg.CLK_STAT_COASTING == 1 then
      { s with clocks := { s.clocks with waiting := SMap.put s.clocks.waiting (islKey d i) (bitsOf v.toNat 8 8) } }
    else s.setMax d i (bitsOf v.toNat 8 8)

/-- FREQUENCY_STEP: one 25 MHz step of a variable island, up to the lowest of its bounds, down to its lowest frequency, with the islands
that share its crossings; none while the PLLs coast (R547, R553). -/
def execFrequencyStep (d : Die) (isl : Nat) (up : Bool) (s : State) : Host.Outcome State Fault Refusal :=
  powerAct s fun s =>
    match islandRange d isl with
    | some r =>
      let cur := s.getF (clkPg d) Reg.CLK_ISL_CUR isl
      if s.getF (clkPg d) Reg.CLK_STAT_COASTING == 1 then s
      else if up then
        if cur < s.islandBound d isl r then (s.moveIsland d isl true).noteOp d else s
      else if r.2 < cur then (s.moveIsland d isl false).noteOp d else s
    | none => s

/-- CLK_MODE_WRITE: ASYNC and GATE_OFF of a die (R551, R557, R566). -/
def execClkModeWrite (d : Die) (v : W32) (s : State) : Host.Outcome State Fault Refusal :=
  powerAct s fun s => s.setWord (clkPg d) 0x4C (v.toNat % 4)

/-- CROSSING_MODE_CHANGE: an empty crossing of an island becomes asynchronous where R551 holds it so, or ratio-locked where nothing
does (R551, R552). -/
def execCrossingModeChange (d : Die) (isl : Nat) (async : Bool) (s : State) : Host.Outcome State Fault Refusal :=
  powerAct s fun s => if isl < islandCount d && s.asyncHeld d == async then s.setCrossing d isl async else s

/-! ### Power -/

/-- POWER_ROUND: the tick of a budget round, 50 µs after the last; `demands` is what the dies predict (R559 to R562). -/
def execPowerRound (demands : List (Die × Nat)) (s : State) : Host.Outcome State Fault Refusal :=
  powerAct s fun s =>
    if s.getF (pwrPg .N0) Reg.PWR_ROUND != 0 && decide (s.aon < (s.budget .N0).tickAt + 50000) then s
    else s.activeDies.foldl (fun t d => t.roundTick demands d) s

/-- BUDGET_MESSAGE: the demand of an active die reaches another, in the round it names (R559, R560). -/
def execBudgetMessage (d src : Die) (round demand : Nat) (s : State) : Host.Outcome State Fault Refusal :=
  powerAct s fun s =>
    if s.active d && s.active src && round == s.getF (pwrPg d) Reg.PWR_ROUND then
      s.setBudget d { s.budget d with got := SMap.put (s.budget d).got (dieCode src) demand }
    else s

/-- CAP_RAISE: 5 µs after the tick a cap that rises takes effect (R562). -/
def execCapRaise (d : Die) (s : State) : Host.Outcome State Fault Refusal :=
  powerAct s fun s =>
    match (s.budget d).raised with
    | some c =>
      if (s.budget d).tickAt + 5000 ≤ s.aon then
        ((s.setF (pwrPg d) Reg.PWR_CAP c).setBudget d { s.budget d with raised := none }).noteCause d false
      else s
    | none => s

/-- POWER_MEASURE: the power of 10 µs; more than 5 % over the cap lowers the die's main clock and those of its class one step, and what
shares their crossings with them (R547, R563). -/
def execPowerMeasure (d : Die) (p : Nat) (s : State) : Host.Outcome State Fault Refusal :=
  powerAct s fun s =>
    let s1 := s.setBudget d { s.budget d with meas := (s.budget d).meas ++ [p] }
    let cur (t : State) (i : Nat) : Nat := t.getF (clkPg d) Reg.CLK_ISL_CUR i
    let slow := decide (cur s (mainIsland d) < s.getF (clkPg d) Reg.CLK_ISL_MAX (mainIsland d))
    let s2 := if slow then s1.bump (pwrPg d) Reg.PWR_THROTTLE_US 10 else s1
    let main (i : Nat) : Bool := islandRange d i == islandRange d (mainIsland d)
    let low := (List.range (islandCount d)).filter fun i =>
      match islandRange d i with
      | some r => main i && decide (r.2 < cur s i)
      | none => false
    if s.getF (pwrPg d) Reg.PWR_CAP * 105 < p * 100 then
      (State.follow d false (!main ·) 4 low (low.foldl (fun t i => t.setF (clkPg d) Reg.CLK_ISL_CUR (cur s i - 1) i) s2)).noteOp d
    else s2

/-! ### Temperature -/

/-- THERMAL_SAMPLE: the 32 or 8 sensors of a die; Tj is the highest reading (R564, R568). -/
def execThermalSample (d : Die) (readings : List Nat) (s : State) : Host.Outcome State Fault Refusal :=
  powerAct s fun s =>
    if readings.length != (if isTensor d then 32 else 8) then s
    else
      let pg := thmPg d
      let rs := readings.map fun r => min r 255
      let tj := rs.foldl max 0
      let s1 := rs.zipIdx.foldl (fun t e => t.setF pg Reg.THM_SENSOR e.1 e.2) s
      let s2 := ((s1.setF pg Reg.THM_TJ_TEMP_C tj).setF pg Reg.THM_TJ_SENSOR (rs.idxOf tj)).raiseMax pg Reg.THM_MAX_SEEN tj
      let s3 := (if s.getF pg Reg.THM_STATE == 0 then s2 else s2.bump pg Reg.THM_STEP_US 10).noteSwing
      let cool := decide (tj < s.coolBelow d)
      let since := if !cool then SMap.del s3.coolAt (dieCode d)
        else if (SMap.find s.coolAt (dieCode d)).isSome then s3.coolAt else SMap.put s3.coolAt (dieCode d) s.aon
      State.thermalRise { s3 with coolAt := since } d tj

/-- THERMAL_HYSTERESIS_TIMER: below its lower threshold for 1 ms, or 10 ms in LIMIT, a die's thermal state falls (R564). -/
def execThermalHysteresisTimer (d : Die) (s : State) : Host.Outcome State Fault Refusal :=
  powerAct s fun s =>
    let k := s.getF (thmPg d) Reg.THM_STATE
    match SMap.find s.coolAt (dieCode d) with
    | some t =>
      if (k == 1 || k == 2) && decide (t + 10 ^ 6 ≤ s.aon) then s.setThermal d (k - 1)
      else if k == 3 && decide (t + 10 ^ 7 ≤ s.aon) then s.setThermal d 2
      else s
    | none => s

end Sys2Proof.Machine
end

