-- ==== Sys2Proof/Machine/Boot.lean ====
section
/-! DEFINITION. The start (R602 to R607). -/

namespace Sys2Proof.Machine

namespace State

/-- The start's stage and error. -/
def stage (s : State) : Nat := s.getF mgmtPg Reg.MGMT_BOOT_STAGE
def bootError (s : State) : Nat := s.getF mgmtPg Reg.MGMT_BOOT_ERROR
def setStage (s : State) (k : Nat) : State := s.setF mgmtPg Reg.MGMT_BOOT_STAGE k

/-- The start has finished stage `k` without an error and goes on. -/
def atStage (s : State) (k : Nat) : Bool := s.stage == k && s.bootError == 0

/-- Register bits that the ledger holds through a cold power-on (R618, R657, R660). -/
def coldKept (pg : Page) (off : Nat) : Nat := if pg.blk == .ledg || pg.blk == .whc then blockKept pg off else 0

/-- A cold power-on begins as the auxiliary path comes on (R582, R602, R618): only fuses, ledger, warehouse file area, calendar clock, the
service tag's image and what lies outside the module remain. -/
def coldStart (s : State) (slotId : Nat) : State :=
  let kept := (s.clearRegs (fun _ => true) coldKept).regs
  let s1 : State := State.applyRetired { State.reset with
    pending := s.pending
    fuses := s.fuses
    file := s.file
    regs := kept
    events := s.events
    answers := s.answers
    ledger := s.ledger
    netOut := s.netOut
    msix := s.msix
    flitOut := s.flitOut
    arrived := s.arrived
    spared := s.spared
    rtcLost := s.rtcLost
    panel := { s.panel with drawnAt := none }
    conn := { State.reset.conn with perst := s.conn.perst, image := s.conn.image }
    whc := s.whc.map fun e => (e.1, { e.2 with accrued := 0, paced := none })
    free := s.free }
  ((s1.setF pciePg Reg.PCIE_HSW_AUX_ON 1).setF pciePg Reg.PCIE_SLOT_ID slotId).setF pciePg Reg.PCIE_HP_STATE_LEVER_CLOSED 1

/-- A lane that fails its test at a start takes a remaining spare of its module; without one the link moves to half width, or stays down
(R42, R43). -/
def startLane (s : State) (d : Die) (p m l : Nat) : State :=
  let x := s.link d p
  let w := s.mapWord d p m
  let s1 := s.setLink d p { x with lost := x.lost ++ [(m, l)] }
  match (List.range 4).find? fun k => !spareUsed w k with
  | some k => ((s1.setWord (d2dPg d p) 0x48 (putBits w (8 * k) 8 (l + 64)) m).countSpares d p).mapRecord d p m
  | none => if s1.halvesOk d p && s1.halvesOk (peerOf d p).1 (peerOf d p).2 then s1.linkHalf d p else s1.linkFall d p

/-- The largest power of two up to `n`, of 16, 8, 4, 2 and 1; 0 for none. -/
def setsTaken (n : Nat) : Nat := ([16, 8, 4, 2, 1].find? (· ≤ n)).getD 0

/-- Limited service in memory: lost stacks, and the depot's usable package sets (R607). -/
def limitMemory (s : State) (badStacks badSets : List Nat) : State :=
  let fencedOn (f : Nat → Nat → Bool) : Bool := s.ledger.fenced.any fun e => f (e.getD 0 0) (e.getD 1 0)
  let lostStack (k : Nat) : Bool := badStacks.contains k || fencedOn fun d _ => d == k
  let lostSet (k : Nat) : Bool := badSets.contains k || fencedOn fun d ch => decide (12 ≤ d) && (d - 12) * 4 + ch / 8 == k
  let mask := ((List.range 8).filter fun k => !lostStack k).foldl (fun a k => a + 1 <<< k) 0
  let sets := (List.range 16).filter fun k => !lostSet k
  let n := setsTaken sets.length
  let chans := (sets.flatMap fun k => (List.range 8).map fun c => k * 8 + c).take (8 * n)
  let s1 := ((s.setF mgmtPg Reg.MGMT_LIMITED_NS_STACKS mask).setF mgmtPg Reg.MGMT_LIMITED_DEPOT_SETS n).setF mgmtPg Reg.MGMT_LIMITED_ACTIVE
    (mask != 0xFF || n != 16).toNat
  { s1 with depotChans := if n == 16 then [] else chans }

/-- A die is out of service with these islands failed: its fabric, its front end, every core cluster of a host die (R606, R607). -/
def dieLost (failed : List (Die × Nat)) (d : Die) : Bool :=
  let bad (i : Nat) : Bool := failed.contains (d, i)
  if isTensor d then bad 120 || (List.range 20).any fun k => bad (100 + k)
  else if isHost d then (List.range 4).all fun k => bad (48 + k) || (List.range 12).all fun c => bad (12 * k + c)
  else if isNet d then bad 13 || bad 21
  else bad 16

/-- The units that R606 asks for have passed. -/
def minimumMet (s : State) (failed : List (Die × Nat)) : Bool :=
  let bad (d : Die) (i : Nat) : Bool := failed.contains (d, i)
  !bad .N0 24 && !bad .N0 22 && (!dieLost failed .H0 || !dieLost failed .H1)
    && s.getF mgmtPg Reg.MGMT_LIMITED_DEPOT_SETS != 0
    && [Die.N0, .N1].any fun d => !dieLost failed d && !bad d 8 && !bad d 12 && (List.range 8).all fun i => !bad d i

/-- The results of the full BIST of a die at a start (R629 to R632). -/
def startBist (s : State) (failed notRun : List (Die × Nat)) (d : Die) : State :=
  let pg := bistPg d
  let s1 := (List.range (islandCount d)).foldl (fun t i =>
    let r := if notRun.contains (d, i) then 0 else if failed.contains (d, i) then 2 else 1
    let t1 := t.setF pg Reg.BIST_RESULT_RESULT r i
    if r == 0 then
      let t2 := if s.hasRef d then t1.setF pg Reg.BIST_RESULT_V_OUT 1 i else t1.setF pg Reg.BIST_RESULT_NO_REF 1 i
      (t2.summary fun l => { l with notRun := [dieCode d, i] :: l.notRun }).ledg .notRun [dieCode d, i]
    else t1) s
  (((List.range (islandCount d)).filter fun i => failed.contains (d, i) && !notRun.contains (d, i)).foldl (fun t i => t.loseIsland d i)
    s1).bistSummary d

/-- The dies out of service, and what goes with them (R607). -/
def loseDies (s : State) (failed : List (Die × Nat)) : State :=
  let lost := allDies.filter (dieLost failed)
  let mask := lost.foldl (fun a d => a + 1 <<< dieCode d) 0
  let s1 := s.setF mgmtPg Reg.MGMT_DIES_UNUSABLE mask
  let s2 := if lost.isEmpty then s1 else s1.setF mgmtPg Reg.MGMT_LIMITED_ACTIVE 1
  (lost.filter isTensor).foldl (fun t d => (List.range 100).foldl (fun u e => u.setF (engPg d e) Reg.ENG_CAP_ENABLED 0) t) s2

/-- The hart that a start releases: hart 0 of the lowest-numbered usable host die, or the first usable one after it (R602). -/
def firstHart (s : State) : Option Nat :=
  (List.range 96).find? fun h =>
    let d : Die := if h < 48 then .H0 else .H1
    !s.dieUnusable d && !s.unusable.contains (dieCode d, .core h)

/-- Every island raised to its nominal frequency or its cap, and its crossings ratio-locked (R602). -/
def toService (s : State) (d : Die) : State :=
  let s1 := (List.range (islandCount d)).foldl (fun t i =>
    let t1 := match islandRange d i with
      | some r => t.setF (clkPg d) Reg.CLK_ISL_CUR (max r.2 (min r.1 (t.getF (clkPg d) Reg.CLK_ISL_MAX i))) i
      | none => t
    t1.setCrossing d i false) s
  s1.noteOp d

end State

/-- ROM: stage 1: a firmware image delivered by PLDM is taken if its signature is good; the controller's image is verified, and without
it the module stops here with ERROR 1 (R585, R602, R605). -/
def execRom (s : State) : Host.Outcome State Fault Refusal :=
  auxAct s fun s =>
    if !s.atStage 0 then s
    else
      let ok := match s.conn.image with
        | some b => s.fuses.ctlImageOk || Config.imageSigned b
        | none => s.fuses.ctlImageOk
      let s1 : State := { s with conn := { s.conn with image := none }, fuses := { s.fuses with ctlImageOk := ok } }
      let s2 := (s1.setStage 1).noteReset 6 0 0
      if ok then s2 else s2.setF mgmtPg Reg.MGMT_BOOT_ERROR 1

/-- MC: stage 2: the ledger is read, the latch locked, the insertion counted and the tag drawn in full (R599, R602, R660, R669). -/
def execMc (s : State) : Host.Outcome State Fault Refusal :=
  auxAct s fun s =>
    if !s.atStage 1 then s
    else
      let s1 := (s.setStage 2).setF pciePg Reg.PCIE_HP_STATE_LATCH_LOCKED 1
      let s2 := s1.summary fun l => { l with insertions := l.insertions + 1, couplings := l.couplings + 1 }
      let n := s2.ledger.insertions
      let c := s2.ledger.couplings
      let s3 := (s2.ledg .insertion [n]).ledg .coupling [c]
      let s4 := (s3.setF pciePg Reg.PCIE_INSERTIONS_INSERTIONS (min n 0xFFFF)).setF pciePg Reg.PCIE_INSERTIONS_COUPLINGS (min c 0xFFFF)
      let s5 := if n == 180 then s4.pldm "180 insertions" else s4
      let s6 := if c == 900 then s5.pldm "900 coupling connections" else s5
      let s7 := if s6.rtcLost then
          ((s6.setRtc 0).setF ledgPg Reg.LEDG_RTC_HI_VALID 0).setF ledgPg Reg.LEDG_RTC_HI_SRC 0 else s6
      (s7.setF ledgPg Reg.LEDG_STAT_TAG_TORN s.tagTorn.toNat).drawNow

/-- MAIN_POWER: stage 3: the main path is switched on, unless a trip has latched it off (R582, R583, R602). -/
def execMainPower (s : State) : Host.Outcome State Fault Refusal :=
  auxAct s fun s =>
    if s.atStage 2 && decide (s.hpState < 4) && !s.conn.failed && s.getF pciePg Reg.PCIE_HSW_OC_LATCHED == 0 then
      let on (t : State) (nd : Nat) : State := t.setFlash nd { t.flash nd with accrued := t.aon }
      (on (on (s.setF pciePg Reg.PCIE_HSW_MAIN_ON 1) 0) 1).setStage 3
    else s

/-- LINKS: stage 4: every link trains with its fused map, and `bad` lanes (die, instance, module, lane) fail their test (R42, R602). -/
def execLinks (bad : List (Die × Nat × Nat × Nat)) (s : State) : Host.Outcome State Fault Refusal :=
  act s fun s =>
    if !s.atStage 3 then s
    else
      let s1 := allDies.foldl State.trainLinks s
      ((bad.filter fun b => decide (b.2.1 < 3) && decide (b.2.2.1 < linkModules b.1 b.2.1) && decide (b.2.2.2 < 64)).foldl
        (fun t b => t.startLane b.1 b.2.1 b.2.2.1 b.2.2.2) s1).setStage 4

/-- MEMORY: stage 5: memory trains, but for the stacks and package sets named, and the placement reserve is written (R206, R602, R607). -/
def execMemory (badStacks badSets : List Nat) (s : State) : Host.Outcome State Fault Refusal :=
  act s fun s =>
    if !s.atStage 4 then s
    else
      let s1 := (State.limitMemory { s with place := Place.init } badStacks badSets).applyLanes.allBankRefresh
      s1.setStage 5

/-- BIST: stage 6: full BIST of every die, with the islands that fail and those that could not run; retired arrays are applied; without
the units of R606 the start stops with ERROR 3 (R143, R602, R606, R630). -/
def execBist (failed notRun : List (Die × Nat)) (s : State) : Host.Outcome State Fault Refusal :=
  act s fun s =>
    if !s.atStage 5 then s
    else
      let last := s.word mgmtPg 0x48
      let s1 := (allDies.foldl (fun t d => t.startBist failed notRun d) s).applyRetired
      let s2 := ((s1.loseDies failed).setWord mgmtPg 0x48 last).setStage 6
      if s2.minimumMet failed then s2 else s2.setF mgmtPg Reg.MGMT_BOOT_ERROR 3

/-- HOST: stage 7: the host firmware is verified, or the start stops with ERROR 2; islands go to nominal with ratio-locked crossings, and
the first hart is released (R602, R605). -/
def execHost (s : State) : Host.Outcome State Fault Refusal :=
  act s fun s =>
    if !s.atStage 6 then s
    else
      let s1 := s.setStage 7
      if !s.fuses.hostImageOk then s1.setF mgmtPg Reg.MGMT_BOOT_ERROR 2
      else
        let s2 := if s1.getF srcPg Reg.CLK_STAT_COASTING == 1 then s1 else allDies.foldl State.toService s1
        let s3 := s2.notePromise (s2.setF cptPg Reg.CPT_CFG_FW_SIGNED 1)
        match s3.firstHart with | some h => s3.freeHart h | none => s3

/-- OPEN_BOOT: MGMT_BOOT.OPEN written once: accesses are checked from now on, the placement unit opens the pool, and the module is in
service (R260, R592, R602, R604). -/
def execOpenBoot (s : State) : Host.Outcome State Fault Refusal :=
  act s fun s =>
    if !s.atStage 7 then s
    else
      let s1 := ((s.setF mgmtPg Reg.MGMT_BOOT_OPEN 1).setF ⟨.T0, .hbmc, 0⟩ Reg.HBMC_CFG_LOCKED 1).setStage 9
      if s1.hpState == 0 then s1.setF pciePg Reg.PCIE_HP_STATE_STATE 1 else s1

end Sys2Proof.Machine
end

