-- ==== Sys2Proof/Machine/Connector.lean ====
section
/-! DEFINITION. The module's connector, its input, hot-plug, the PCIe link and the management buses (R570 to R601). -/

namespace Sys2Proof.Machine

namespace State

/-- The input voltage in mV, as PCIE_IN reports it in 10 mV (R600). -/
def setVolt (s : State) (mv : Nat) : State := s.setF pciePg Reg.PCIE_IN_VOLT (min (mv / 10) 0xFFFF)

/-- The input is within 44 to 60 V, as last measured; a module that has measured nothing takes it so (R582). -/
def inputOk (s : State) : Bool :=
  let v := s.getF pciePg Reg.PCIE_IN_VOLT
  v == 0 || (decide (4400 ≤ v) && decide (v ≤ 6000))

/-- The qualification of the auxiliary path has lasted 50 ms (R582). -/
def qualified (s : State) : Bool :=
  s.getF pciePg Reg.PCIE_HP_STATE_LEVER_CLOSED == 1
    && match s.conn.qualAt with | some t => decide (t + 50 * 10 ^ 6 ≤ s.aon) | none => false

/-- The inbound requests in flight, which stall or stand in a channel's queue, are dropped before they are performed (R589). -/
def dropInbound (s : State) : State :=
  { s with
    place := { s.place with stalls := s.place.stalls.filter fun w =>
      match w with
      | .pcieRead _ _ | .pcieWrite _ _ => false
      | .memWrite r _ _ => r != .pcie
      | _ => true }
    chans := s.chans.map fun e => (e.1, { e.2 with fg := e.2.fg.filter fun q => q.src != .pcie }) }

/-- The link drops: its fields, the interrupt and the count where it was up (R600, R601), and the requests in flight (R589); during a freeze
it is a link timeout (R644). -/
def dropLink (s : State) : State :=
  if s.getF pciePg Reg.PCIE_LINK_DL_ACTIVE == 0 then s
  else (((s.dropInbound.setWord pciePg 0x40 0).bump pciePg Reg.PCIE_LINK_DOWNS).raise pciePg 2).linkTimeout 0

/-- The PCIe controller and its PHY reset (R589): the link drops, and the MSI-X table returns to its reset contents. -/
def pcieReset (s : State) : State := { s.dropLink with bar4 := [] }

/-- The power-fail sequence, once: the removal record, then the main path off (R597). Causes: 1 lever, 2 under- and 3 overvoltage,
4 main-path trip. -/
def powerFail (s : State) (cause : Nat) : State :=
  if s.conn.failed || s.getF pciePg Reg.PCIE_HSW_AUX_ON == 0 then s
  else
    let s1 := s.ledg .removal [cause, s.hpState, s.ledger.insertions]
    let s2 := s1.mainOff
    { s2 with conn := { s2.conn with failed := true } }

/-- The hot-plug state set (R600). -/
def setHp (s : State) (k : Nat) : State := s.setF pciePg Reg.PCIE_HP_STATE_STATE k
def hpReject (s : State) : State := s.setF pciePg Reg.PCIE_HP_CMD_REJECTED 1

/-- DRAINING begins (R592, R601). -/
def enterDrain (s : State) : State :=
  ((State.setHp { s with conn := { s.conn with drainAt := s.base } } 3).raise pciePg 0).pldm "drain started"

/-- POWERING_DOWN begins (R592). -/
def enterDown (s : State) : State := State.setHp { s with conn := { s.conn with downAt := s.base } } 4

/-- Streams that are ENABLED or DRAINING. -/
def liveStreams (s : State) : List (Die × Nat) := s.allStreams.filter fun e => s.streamActive e.1 e.2

/-- The file writes of a queue pair completed (R358, R595). -/
def flushWrites (s : State) (key : Nat) : State :=
  let ws := (s.qp key).writes
  ws.foldl (fun (t : State) w =>
    ((w.parts.foldl (fun (a : State) p => a.whcProgram (fileDie p.1) p.2.length p.2.length) t).setBlocks w.parts).postCqe key w.cid 0 nvOk)
    (s.setQp key { s.qp key with writes := [] })

end State

/-! ### Input and lever -/

/-- LEVER_SWITCH_CLOSE: the qualification of 50 ms begins (R582). -/
def execLeverSwitchClose (s : State) : Host.Outcome State Fault Refusal :=
  .next
    (let s1 := s.setF pciePg Reg.PCIE_HP_STATE_LEVER_CLOSED 1
     if s.getF pciePg Reg.PCIE_HP_STATE_LEVER_CLOSED == 0 && s.inputOk && !s.conn.excess then
       { s1 with conn := { s1.conn with qualAt := some s.aon } }
     else s1)

/-- AUX_PATH_ON: after 50 ms the auxiliary path comes on, SLOT_ID is sampled, and a cold power-on begins (R579, R582, R583, R602). -/
def execAuxPathOn (slotId : Nat) (s : State) : Host.Outcome State Fault Refusal :=
  .next
    (if s.qualified && (s.getF pciePg Reg.PCIE_HSW_AUX_ON == 0 || s.stage == 0 || s.conn.failed) then s.coldStart (slotId % 16) else s)

/-- LEVER_SWITCH_OPEN: outside SAFE the power-fail sequence runs (R597). -/
def execLeverSwitchOpen (s : State) : Host.Outcome State Fault Refusal :=
  .next
    (let s1 := State.setF { s with conn := { s.conn with qualAt := none } } pciePg Reg.PCIE_HP_STATE_LEVER_CLOSED 0
     if s.hpState == 5 then s1 else s1.powerFail 1)

/-- INPUT_UNDERVOLTAGE: below 42 V the power-fail sequence runs (R581, R583). -/
def execInputUndervoltage (mv : Nat) (s : State) : Host.Outcome State Fault Refusal :=
  .next
    (if 42000 ≤ mv then s else (State.setVolt { s with conn := { s.conn with qualAt := none } } mv).powerFail 2)

/-- INPUT_OVERVOLTAGE: above 62 V the power-fail sequence runs and both paths go off (R581, R583). -/
def execInputOvervoltage (mv : Nat) (s : State) : Host.Outcome State Fault Refusal :=
  .next
    (if mv ≤ 62000 then s
     else
       let s1 := (State.setVolt { s with conn := { s.conn with qualAt := none, excess := true } } mv).setF pciePg Reg.PCIE_HSW_OV 1
       (s1.powerFail 3).setF pciePg Reg.PCIE_HSW_AUX_ON 0)

/-- OVERVOLTAGE_RECOVERY: the input has stayed at 60 V or below for 50 ms: a cold power-on follows (R583, R602). -/
def execOvervoltageRecovery (slotId : Nat) (s : State) : Host.Outcome State Fault Refusal :=
  .next
    (if s.conn.excess && s.getF pciePg Reg.PCIE_HP_STATE_LEVER_CLOSED == 1 then s.coldStart (slotId % 16) else s)

/-- MAIN_OVERCURRENT: above 75 A for 1 ms, or the fast trip: the main path latches off and the power-fail sequence runs (R581, R583). -/
def execMainOvercurrent (ma : Nat) (s : State) : Host.Outcome State Fault Refusal :=
  .next
    (if ma ≤ 75000 || s.getF pciePg Reg.PCIE_HSW_MAIN_ON == 0 then s
     else ((s.setF pciePg Reg.PCIE_IN_CURR (min (ma / 10) 0xFFFF)).setF pciePg Reg.PCIE_HSW_OC_LATCHED 1).powerFail 4)

/-- UV_WARN: the input enters 42 to 48 V (R581, R601). -/
def execUvWarn (mv : Nat) (s : State) : Host.Outcome State Fault Refusal :=
  auxAct s fun s =>
    if mv < 42000 || 48000 ≤ mv then s
    else
      let s1 := s.setVolt mv
      if s.getF pciePg Reg.PCIE_HSW_UV_WARN == 1 then s1 else (s1.setF pciePg Reg.PCIE_HSW_UV_WARN 1).raise pciePg 3

/-- UNDERVOLTAGE_LOCKOUT_RELEASE: the input rises through 44 V; with the lever switch closed the qualification begins (R581, R582). -/
def execUndervoltageLockoutRelease (mv : Nat) (s : State) : Host.Outcome State Fault Refusal :=
  .next
    (if mv < 44000 || 60000 < mv || s.conn.excess then s
     else
       let s1 := s.setVolt mv
       if s.getF pciePg Reg.PCIE_HP_STATE_LEVER_CLOSED == 1 && s.conn.qualAt.isNone then
         { s1 with conn := { s1.conn with qualAt := some s.aon } }
       else s1)

/-- REDUCED_RANGE_EXIT: the input is back at 48 V or above (R581). -/
def execReducedRangeExit (mv : Nat) (s : State) : Host.Outcome State Fault Refusal :=
  auxAct s fun s => if 48000 ≤ mv && mv ≤ 62000 then (s.setVolt mv).setF pciePg Reg.PCIE_HSW_UV_WARN 0 else s

/-- AUXILIARY_PATH_OFF: the hold-up runs out with the input gone; the latch unlocks (R574, R582, R595). -/
def execAuxiliaryPathOff (s : State) : Host.Outcome State Fault Refusal :=
  auxAct s fun s =>
    if s.conn.failed || (s.hpState == 5 && s.getF pciePg Reg.PCIE_HP_STATE_LEVER_CLOSED == 0) then
      (s.setF pciePg Reg.PCIE_HSW_AUX_ON 0).setF pciePg Reg.PCIE_HP_STATE_LATCH_LOCKED 0
    else s

/-! ### Hot-plug -/

/-- ATTENTION_BUTTON_PRESS: a press of 50 ms: in standby it wakes, else it acts by the hot-plug state or is ignored (R592, R594). -/
def execAttentionButtonPress (s : State) : Host.Outcome State Fault Refusal :=
  auxAct s fun s =>
    let press (t : State) : State := t.bump pciePg Reg.PCIE_HP_BTN_PRESSES
    if s.getF mgmtPg Reg.MGMT_STANDBY_STATE != 0 then press (s.wake 3)
    else
      match s.hpState with
      | 1 => press (State.setHp { s with conn := { s.conn with windowAt := s.base } } 2)
      | 2 => press (s.setHp 1)
      | 3 => if s.getF pciePg Reg.PCIE_HP_STATE_DRAIN_TIMEOUT == 1 then press s.enterDown else s.bump pciePg Reg.PCIE_HP_BTN_IGNORED
      | _ => s.bump pciePg Reg.PCIE_HP_BTN_IGNORED

/-- ABORT_WINDOW_EXPIRY: 5 s after the press (R592). -/
def execAbortWindowExpiry (s : State) : Host.Outcome State Fault Refusal :=
  auxAct s fun s => if s.hpState == 2 && decide (s.conn.windowAt + 5 * 10 ^ 9 ≤ s.base) then s.enterDrain else s

/-- START_DRAIN (R592, R598). -/
def execStartDrain (s : State) : Host.Outcome State Fault Refusal :=
  auxAct s fun s => if s.hpState == 1 then s.enterDrain else s.hpReject

/-- DRAIN_DONE (R592, R598). -/
def execDrainDone (s : State) : Host.Outcome State Fault Refusal :=
  auxAct s fun s => if s.hpState == 3 then s.enterDown else s.hpReject

/-- CANCEL: streams stay as software left them (R592, R598). -/
def execCancel (s : State) : Host.Outcome State Fault Refusal :=
  auxAct s fun s => if s.hpState == 2 || s.hpState == 3 then s.setHp 1 else s.hpReject

/-- DRAIN_TIMEOUT: PCIE_HP_DRAIN_S have passed in DRAINING (R592, R601). -/
def execDrainTimeout (s : State) : Host.Outcome State Fault Refusal :=
  auxAct s fun s =>
    if s.hpState == 3 && s.getF pciePg Reg.PCIE_HP_STATE_DRAIN_TIMEOUT == 0
        && decide (s.conn.drainAt + s.getF pciePg Reg.PCIE_HP_DRAIN_S * 10 ^ 9 ≤ s.base) then
      ((s.setF pciePg Reg.PCIE_HP_STATE_DRAIN_TIMEOUT 1).raise pciePg 1).pldm "drain timeout"
    else s

/-- POWERING_DOWN: streams that still run are aborted, the flash completes its programs, and the wait for the link begins (R595). -/
def execPoweringDown (s : State) : Host.Outcome State Fault Refusal :=
  act s fun s =>
    if s.hpState == 4 then
      let s1 := s.liveStreams.foldl (fun t e => t.abortStream e.1 e.2) s
      let s2 := (s1.qps.map (·.1)).foldl State.flushWrites s1
      { s2 with conn := { s2.conn with downAt := s2.base } }
    else s

/-- POWER_DOWN_LINK_TIMEOUT: after 1 s the module drops the link itself (R595). -/
def execPowerDownLinkTimeout (s : State) : Host.Outcome State Fault Refusal :=
  act s fun s => if s.hpState == 4 && decide (s.conn.downAt + 10 ^ 9 ≤ s.base) then s.dropLink else s

/-- POWER_DOWN_COMPLETE: every die stopped, the main path off, the removal record written: SAFE; the tag is drawn, and unlocks the latch
once drawn (R592, R595). -/
def execPowerDownComplete (s : State) : Host.Outcome State Fault Refusal :=
  act s fun s =>
    if s.hpState == 4 && s.getF pciePg Reg.PCIE_LINK_DL_ACTIVE == 0 && s.liveStreams.isEmpty
        && s.qps.all (fun e => e.2.writes.isEmpty) then
      (((s.ledg .removal [0, 4, s.ledger.insertions]).mainOff).setHp 5).drawNow
    else s

/-! ### PCIe -/

/-- PERST_N_ASSERT (R589). -/
def execPerstNAssert (s : State) : Host.Outcome State Fault Refusal :=
  .next (State.pcieReset { s with conn := { s.conn with perst := true } })

/-- PERST_N_DEASSERT: link training may start, and standby ends (R590, R615). -/
def execPerstNDeassert (s : State) : Host.Outcome State Fault Refusal :=
  .next
    (let s1 : State := { s with conn := { s.conn with perst := false } }
     if s.conn.perst && s.getF pciePg Reg.PCIE_HSW_AUX_ON == 1 then s1.wake 4 else s1)

/-- HOT_RESET: a Hot Reset or link disable (R589). -/
def execHotReset (s : State) : Host.Outcome State Fault Refusal :=
  .next (if s.getF pciePg Reg.PCIE_HSW_MAIN_ON == 1 then s.pcieReset else s)

/-- PCIE_LINK_UP: training ends with the link at a speed code 1 to 6 and a width of 1 to 16 lanes (R586, R590, R600). -/
def execPcieLinkUp (speed width : Nat) (flitMode : Bool) (s : State) : Host.Outcome State Fault Refusal :=
  act s fun s =>
    if s.conn.perst || 4 ≤ s.hpState || speed == 0 || 6 < speed || !([1, 2, 4, 8, 16].contains width) then s
    else
      (((s.setF pciePg Reg.PCIE_LINK_SPEED speed).setF pciePg Reg.PCIE_LINK_WIDTH width).setF pciePg Reg.PCIE_LINK_DL_ACTIVE 1).setF pciePg
        Reg.PCIE_LINK_FLIT flitMode.toNat

/-- PCIE_LINK_DOWN: the link goes down without a reset; the PHY runs on in a freeze (R601, R640, R644). -/
def execPcieLinkDown (s : State) : Host.Outcome State Fault Refusal :=
  .next (if s.getF pciePg Reg.PCIE_HSW_MAIN_ON == 1 then s.dropLink else s)

/-! ### Management buses -/

/-- PLDM_IDENTIFY: the locate starts (R670). -/
def execPldmIdentify (seconds : Nat) (s : State) : Host.Outcome State Fault Refusal :=
  mcAct s fun s =>
    let sec := min seconds 0xFFFF
    State.setF { s with locateEnd := s.aon + sec * 10 ^ 9 } svcPg Reg.SVC_LOCATE_ACTIVE (if sec == 0 then 0 else 1)

/-- PLDM_SET_TIME: the calendar clock set by the source of rank 3 (R659). -/
def execPldmSetTime (sec : Nat) (s : State) : Host.Outcome State Fault Refusal := mcAct s fun s => s.rtcSet 3 (sec % 2 ^ 48)

/-- PLDM_FREEZE: the state effecter starts a DEBUG freeze (R639). -/
def execPldmFreeze (s : State) : Host.Outcome State Fault Refusal := mcAct s fun s => s.freezeStart 0 3

/-- PLDM_THAW: the effecter thaws under the conditions of R645. -/
def execPldmThaw (s : State) : Host.Outcome State Fault Refusal := mcAct s fun s => s.thawNow

/-- PLDM_FIRMWARE_UPDATE: the image waits for its verification at the next start (R585). -/
def execPldmFirmwareUpdate (image : Bytes) (s : State) : Host.Outcome State Fault Refusal :=
  mcAct s fun s => { s with conn := { s.conn with image := some image } }

/-- PLDM_SENSOR_READ: the reading in the units of the register that holds it; the spec gives the coolant side no reading, so its value is
free (R584; notes/assumptions/58.md). -/
def execPldmSensorRead (sensor : Sensor) (s : State) : Host.Outcome State Fault Refusal :=
  mcAct s fun s =>
    let say (t : State) (v : Nat) : State := t.answer .mgmt .done (leBytes v 4)
    match sensor with
    | .inputVoltage => say s (s.getF pciePg Reg.PCIE_IN_VOLT)
    | .inputCurrent => say s (s.getF pciePg Reg.PCIE_IN_CURR)
    | .tj d => say s (s.getF (thmPg d) Reg.THM_TJ_TEMP_C)
    | .power d => say s (s.getF (pwrPg d) Reg.PWR_MEAS)
    | .coolant => s.drawFree.2.answer .mgmt .done [Config.freeByte s.free]

/-- PLDM_FRU_READ: ordering code, serial number, grade and live array count (R584; the record's form is the model's,
notes/assumptions/58.md). -/
def execPldmFruRead (s : State) : Host.Outcome State Fault Refusal :=
  mcAct s fun s =>
    let digits := [s.fuses.grade / 1000 % 10, s.fuses.grade / 100 % 10, s.fuses.grade / 10 % 10, s.fuses.grade % 10]
    s.answer .mgmt .done
      ([0x4A, 0x5A] ++ digits.map (fun k => BitVec.ofNat 8 (0x30 + k)) ++ leBytes Config.serial.toNat 8 ++ leBytes s.fuses.grade 2
        ++ leBytes s.liveArrays 2)

/-- ENTDAA: the bus owner assigns the I3C dynamic address (R584). -/
def execEntdaa (addr : Nat) (s : State) : Host.Outcome State Fault Refusal :=
  mcAct s fun s => { s with conn := { s.conn with i3c := some (addr % 128) } }

end Sys2Proof.Machine
end

