-- ==== Sys2Proof/Machine/PagesCmds.lean ====
section
/-! DEFINITION. The common header of the register pages (R522 to R535): enables, block resets, applications of buffered fields,
interrupt enables and votes. -/

namespace Sys2Proof.Machine

namespace State

/-- The page answers an access: pages of the always-on island, of the clock, power and sensor controllers and of the PCIe controller
run on through a freeze; the others stop with what stops their die (R640, R646). -/
def responds (s : State) (pg : Page) : Bool :=
  s.getF pciePg Reg.PCIE_HSW_AUX_ON == 1 &&
    match pg.blk with
    | .frz | .mgmt | .cpt | .ledg | .svc | .pcie | .clk | .pwr | .thm => true
    | _ => !s.stopped && !s.dieDown pg.die

/-- What a refused access is answered (R59, R495). -/
def refuse (s : State) (r : Requester) : State :=
  match r with
  | .hart _ => s.answer r .accessFault
  | .pcie => s.answer r .unsupported
  | .inspect => State.answer { s with inspErr := true } r .done (leBytes 0 4)
  | _ => s.answer r .illegal

/-- A compartment other than the administering one reaches the page (R525). -/
def tenant (s : State) (pg : Page) : Bool :=
  match pageCpt pg with
  | some c => c != s.getF cptPg Reg.CPT_CFG_ADMIN
  | none => false

/-! ### PAGE_CTRL (R522, R524 to R526, R538, R612) -/

/-- The bits of a header word that a block reset leaves: identity and capabilities, and that the block is unusable (R538). -/
def resetKeep (pg : Page) (off : Nat) : Nat := if off == 0x14 then 8 else blockKept pg off

/-- A block reset begins: work in progress ends, a lot that an update unit is at is left as it stands, and the page's registers return to their
reset values (R298, R612, R538). -/
def blockResetStart (s : State) (pg : Page) : State :=
  if s.getF pg Reg.PAGE_STAT_RESETTING == 1 then s
  else
    let torn := s.tearLots (· == pg)
    let s1 := ((torn.1.clearBlock pg).clearRegs (· == pg) resetKeep).countTears torn.2
    (s1.setF pg Reg.PAGE_CTRL_RESET 1).setF pg Reg.PAGE_STAT_RESETTING 1

/-- A write of PAGE_CTRL: the fields whose mask bits are 1. -/
def ctrlWrite (s : State) (pg : Page) (v : Nat) : State :=
  let m := bitsOf v 16 3
  if pageFused s.fuses pg || m == 0 then s
  else
    let bar := s.tenant pg && bitsOf m 0 2 != 0
    let s1 := if bar then s.pageErr pg else s
    let s2 := if m.testBit 2 then s1.setF pg Reg.PAGE_CTRL_INSPECT_SAFE (bitsOf v 2 1) else s1
    let s3 := if m.testBit 0 && !bar then s2.setF pg Reg.PAGE_CTRL_ENABLE (bitsOf v 0 1) else s2
    if m.testBit 1 && v.testBit 1 && !bar then s3.blockResetStart pg else s3

/-! ### Buffered fields (R528 to R531) -/

/-- PAGE_STAT.QUIESCENT (R522, R524). -/
def quiescent (s : State) (pg : Page) : Bool := s.getF pg Reg.PAGE_CTRL_ENABLE == 0 && s.quiet pg

/-- The pending request is applied: REQ falls and the generation is reported (R529). -/
def applyNow (s : State) (pg : Page) : State :=
  ((((s.setF pg Reg.PAGE_APPLY_REQ 0).setF pg Reg.PAGE_APPLIED_GEN (s.getF pg Reg.PAGE_APPLY_GEN)).setF pg
    Reg.PAGE_APPLIED_CANCELLED 0).raise pg 13)

/-- A write of PAGE_APPLY with REQ = 1 (R529): accepted where none is pending, the page has fields that apply on request, and KIND is
its boundary, or immediate and the block quiescent. -/
def applyAsk (s : State) (pg : Page) (v : Nat) : State :=
  let cap := s.word pg 8
  let kind := bitsOf v 4 4
  let ok := s.getF pg Reg.PAGE_APPLY_REQ == 0 && cap.testBit 0 && (kind == bitsOf cap 8 4 || (kind == 15 && s.quiescent pg))
  if !ok then s.pageErr pg 1
  else
    let s1 := ((s.setF pg Reg.PAGE_APPLY_REQ 1).setF pg Reg.PAGE_APPLY_KIND kind).setF pg Reg.PAGE_APPLY_GEN (bitsOf v 16 16)
    if kind == 15 then s1.applyNow pg else s1

/-- A write of PAGE_APPLY with REQ = 0: a pending request is cancelled (R530); a page that applies by itself refuses it (R531). -/
def applyDrop (s : State) (pg : Page) : State :=
  if s.getF pg Reg.PAGE_APPLY_REQ == 1 then
    (s.setF pg Reg.PAGE_APPLY_REQ 0).setF pg Reg.PAGE_APPLIED_CANCELLED 1
  else if (s.word pg 8).testBit 1 then s.pageErr pg 1
  else s

/-! ### PAGE_IRQ_EN (R533) -/

/-- A write of PAGE_IRQ_EN under its mask; one MSI when a status bit that is 1 becomes enabled. -/
def irqEnWrite (s : State) (pg : Page) (v : Nat) : State :=
  let m := bitsOf v 16 16
  let old := s.word pg 0x24
  let en := (old ^^^ (old &&& m)) ||| (v &&& m)
  let st := s.word pg 0x20
  if pageFused s.fuses pg || m == 0 then s
  else
    let s1 := s.setWord pg 0x24 en
    if (st &&& en) != (st &&& old &&& en) then s1.sendMsi (pageNo pg) else s1

/-! ### Triplicated fields (R527) -/

/-- Bitwise majority of three words. -/
def vote3 (a b c : Nat) : Nat := (a &&& b) ||| (a &&& c) ||| (b &&& c)

/-- The word of a TV register as every read of it returns it. -/
def tvWord (s : State) (pg : Page) (off : Nat) : Nat :=
  let a := s.word pg off
  let k := regKey pg off 0
  let m := ((rowAt pg off).map RegRow.tv).getD 0
  let copy (x : SMap W32) : Nat := match SMap.find x k with | some w => w.toNat | none => a
  (a ^^^ (a &&& m)) ||| (vote3 a (copy s.tvB) (copy s.tvC) &&& m)

/-- One triplicated word revoted: copies out of step take the majority, are counted and reported. -/
def voteWord (s : State) (pg : Page) (off : Nat) : State :=
  let a := s.word pg off
  let k := regKey pg off 0
  let m := ((rowAt pg off).map RegRow.tv).getD 0
  let copy (x : SMap W32) : Nat := match SMap.find x k with | some w => w.toNat | none => a
  let v := s.tvWord pg off
  let out := [a, copy s.tvB, copy s.tvC].filter fun x => x &&& m != v &&& m
  if out.isEmpty then s
  else
    let s1 := State.setWord { s with tvB := SMap.del s.tvB k, tvC := SMap.del s.tvC k } pg off v
    ((s1.bump pg Reg.PAGE_VOTE_COUNT out.length).setF pg Reg.PAGE_VOTE_LAST_WORD (off / 4)).pageErr pg 2

/-- Every triplicated word of a page revoted. -/
def votePage (s : State) (pg : Page) : State :=
  ((pageRows pg).filter fun x => x.tv != 0 && x.only == some pg.die).foldl (fun t x => t.voteWord pg x.off) s

end State

/-! ### Commands -/

/-- PAGE_ENABLE: a write of PAGE_CTRL.ENABLE, with whatever else the written word masks (R495, R524, R525). -/
def execPageEnable (r : Requester) (pg : Page) (v : W32) (s : State) : Host.Outcome State Fault Refusal :=
  .next <|
    if !pageExists pg || !s.reaches r pg then s.refuse r
    else if s.responds pg then s.ctrlWrite pg v.toNat else s

/-- BLOCK_RESET: 1 written to PAGE_CTRL.RESET (R495, R525, R538, R612). -/
def execBlockReset (r : Requester) (pg : Page) (s : State) : Host.Outcome State Fault Refusal :=
  .next <|
    if !pageExists pg || !s.reaches r pg then s.refuse r
    else if s.responds pg then s.ctrlWrite pg 0x20002 else s

/-- BLOCK_RESET_END: the reset of a block ends, and PAGE_CTRL.RESET reads 0 (R538, R612). -/
def execBlockResetEnd (pg : Page) (s : State) : Host.Outcome State Fault Refusal :=
  .next <|
    if s.responds pg && s.getF pg Reg.PAGE_STAT_RESETTING == 1 then s.clearRegs (· == pg) State.resetKeep else s

/-- APPLY_REQUEST: a write of PAGE_APPLY with REQ = 1 (R529). -/
def execApplyRequest (pg : Page) (v : W32) (s : State) : Host.Outcome State Fault Refusal :=
  .next (if pageExists pg && !pageFused s.fuses pg && s.responds pg then s.applyAsk pg v.toNat else s)

/-- APPLY_CANCEL: a write of PAGE_APPLY with REQ = 0 (R530). -/
def execApplyCancel (pg : Page) (s : State) : Host.Outcome State Fault Refusal :=
  .next (if pageExists pg && s.responds pg then s.applyDrop pg else s)

/-- APPLY_AT_BOUNDARY: the declared boundary is reached with a request pending (R529). -/
def execApplyAtBoundary (pg : Page) (s : State) : Host.Outcome State Fault Refusal :=
  .next (if pageExists pg && s.responds pg && s.getF pg Reg.PAGE_APPLY_REQ == 1 then s.applyNow pg else s)

/-- PAGE_IRQ_EN_WRITE (R533). -/
def execPageIrqEnWrite (pg : Page) (v : W32) (s : State) : Host.Outcome State Fault Refusal :=
  .next (if pageExists pg && s.responds pg then s.irqEnWrite pg v.toNat else s)

/-- TV_REVOTE: every triplicated field of a page is revoted (R527). -/
def execTvRevote (pg : Page) (s : State) : Host.Outcome State Fault Refusal :=
  .next (if pageExists pg && s.responds pg then s.votePage pg else s)

end Sys2Proof.Machine
end

