-- ==== Sys2Proof/Machine/Views.lean ====
section
/-! DEFINITION. What a read of a register page returns (R522 to R536 and the maps of the chapters): registers that report what the
state holds elsewhere, registers of a selected item, and the latches of the _LO and _HI pairs. -/

namespace Sys2Proof.Machine

/-- Nonzero when `b` holds. -/
def bitIf (b : Bool) (n : Nat) : Nat := if b then 1 <<< n else 0

/-- The _HI word of an _LO word: registers whose names differ only in these endings (R527). -/
def hiOf (pg : Page) (off : Nat) : Option Nat :=
  let l : List Nat := match pg.blk with
    | .eng => if pg.inst < 100 then [0x60] else []
    | .pool | .xlt | .coh | .hbmc | .depc => if pg.blk == .xlt then [0x40, 0x68] else if pg.blk == .hbmc || pg.blk == .depc then [0x64] else [0x40]
    | .upd => [0x48]
    | .lkp => if pg.inst == 0x10 then [0x44] else []
    | .net => if pg.inst == 0x10 then [0x40] else []
    | .prep => [0x90]
    | .tal => [0x50]
    | .bist => [0x4C, 0x54]
    | .ledg => [0x4C]
    | .conv => [0x54, 0x60, 0x7C, 0x88, 0x90, 0xAC]
    | _ => []
  if l.contains off then some (off + 4) else none

namespace State

/-! ### Streams and engines (R197, R198) -/

/-- The streams of an engine whose work runs there: a descriptor that the engine itself runs (R172), of a FILL stream only while FILL work
may start, or a tile in an array. -/
def engineUsers (s : State) (d : Die) (e : Nat) : List Nat :=
  (s.boundStreams d e).filter fun n =>
    ((s.stream d n).fetched.any fun x => x.phase == .running && onEngine x.op && (s.classRuns d n || s.inArrays d e n x.seq))

/-- ENG_STATUS: clearing before FOREGROUND before FILL. -/
def viewEngine (s : State) (pg : Page) : Nat :=
  let d := pg.die
  let us := s.engineUsers d pg.inst
  let fg := us.filter fun n => !s.ctxFill d n
  let fill := us.filter fun n => s.ctxFill d n
  let clearing := (s.engine d pg.inst).arrays.any fun (a : Arr) => a.clearing
  let cpt (l : List Nat) : Nat := match l with | n :: _ => s.ctxCpt d n | [] => 0
  (s.word pg 0x44 &&& 0x100)
    + (if clearing then 3 + (cpt us) <<< 2 else if !fg.isEmpty then 1 + (cpt fg) <<< 2
       else if !fill.isEmpty then 2 + (cpt fill) <<< 2 else 0)

/-- The front-end page (R198); words 16 to 31 of a context read 0 (R152). -/
def viewFrontEnd (s : State) (pg : Page) (off : Nat) : Nat :=
  let d := pg.die
  let n := s.getF pg Reg.FE_CTX_SEL_INDEX
  if off == 0x44 then (s.word pg off &&& 8) + bitIf (s.ctxBusy d n) 2
  else if off == 0x48 then s.word pg off n
  else if off == 0x50 then s.ctxHead d n + (s.oldest d n) <<< 16
  else if 0x140 ≤ off then 0
  else if 0x100 ≤ off then s.word pg off n
  else s.word pg off

/-! ### Memory and placement (R244, R245, R272, R273, R309) -/

def viewPlc (s : State) (pg : Page) (off : Nat) : Nat :=
  let k := dieCode pg.die - 12
  if off == 0x44 then s.entry (s.getF pg Reg.PLC_QUERY_LOT_LOT)
  else if off == 0x58 then s.plcUsed k 0
  else if off == 0x5C then s.plcUsed k 1
  else s.word pg off

def viewMem (s : State) (pg : Page) (off : Nat) : Nat :=
  let d := pg.die
  let ch := s.getF pg Reg.HBMC_SEL_PC
  let t0 : Page := ⟨.T0, .hbmc, 0⟩
  if off == 0x40 && pg.blk == .hbmc then (s.word pg off &&& 0xFFFFFFC0) + (s.word t0 off &&& 0x3F)
  else if off == 0x48 || off == 0x4C || off == 0x50 || off == 0x58 then s.word pg off ch
  else if pg.blk == .hbmc then (if off == 0x74 then (s.chan d ch).narrow.length else s.word pg off)
  else if off == 0x7C then (s.chan d ch).narrow.length
  else if 0x6C ≤ off then s.word pg off ch
  else s.word pg off

/-- The number of an UPD page's unit. -/
def updOf (pg : Page) : Nat := if isTensor pg.die then dieCode pg.die else 8 + (dieCode pg.die - 12) * 2 + pg.inst

/-! ### Lookup engines and the registry (R341, R342) -/

/-- The stream and descriptor that lookup engine `k` runs: of those given to it the one that came first. -/
def lkpJob (s : State) (k : Nat) : Option (Nat × Desc) := (s.lkpQueue k).find? fun e => s.lkpTurn e.2

def viewLookup (s : State) (pg : Page) (off : Nat) : Nat :=
  if off == 0x40 then
    let k := (dieCode pg.die - 12) * 4 + pg.inst
    match s.lkpJob k with
    | some (k, x) => (if x.op == 0x18 then 1 else 2) + (s.ctxCpt (dieOf (k >>> 14)) (k % 2 ^ 14)) <<< 2
    | none => if (SMap.find s.sweeps k).isSome then 3 else 0
  else s.word pg off

def viewRegistry (s : State) (pg : Page) (off : Nat) : Nat :=
  let t := s.getF pg Reg.LKP_TBL_SEL_TABLE
  let a := s.tblSlot (2 * t)
  let b := s.tblSlot (2 * t + 1)
  if off == 0x4C then (s.word pg off &&& 0x14) + bitIf s.tblLoad.isSome 3
  else if off == 0x54 then
    a.st + b.st <<< 2 + (if a.st != 0 then verOwner a.ver else if b.st != 0 then verOwner b.ver else 0) <<< 4 + (s.word pg off t &&& 0x400)
  else if off == 0x58 then verF a.ver 0 0 32
  else if off == 0x5C then verF b.ver 0 0 32
  else if off == 0x60 then min (s.latched (2 * t)).length 0xFFFF + (min (s.latched (2 * t + 1)).length 0xFFFF) <<< 16
  else s.word pg off

/-! ### Network (R378 to R381, R437) -/

def viewRdma (s : State) (pg : Page) (off : Nat) : Nat :=
  if off == 0x48 || (0x100 ≤ off && off < 0x140) then s.word pg off (s.getF pg Reg.NET_QP_SEL_INDEX)
  else if 0x140 ≤ off then s.word pg off (s.getF pg Reg.NET_MR_SEL_INDEX)
  else s.word pg off

def viewTime (s : State) (pg : Page) (off : Nat) : Nat :=
  let sec := s.timeNs / 10 ^ 9
  if off == 0x40 then sec % 2 ^ 32
  else if off == 0x44 then sec >>> 32 % 2 ^ 16
  else if off == 0x48 then s.timeNs % 10 ^ 9
  else s.word pg off

def viewExchange (s : State) (pg : Page) (off : Nat) : Nat :=
  let nd := netNo pg.die
  let v := SMap.find s.wins (nd * 64 + s.getF pg Reg.XCH_WIN_SEL_WINDOW)
  if off == 0x40 then
    bitIf (SMap.find s.xch (nd * 2)).isSome 0 + bitIf (SMap.find s.xch (nd * 2 + 1)).isSome 1
      + ((s.winsOf nd).filter fun e => e.2.st == 1 || e.2.st == 2).length <<< 2
  else if off == 0x58 then (match v with | some w => w.st + (w.refs % 2 ^ 16) <<< 2 | none => 0)
  else if off == 0x5C then (match v with | some w => w.layer | none => 0)
  else s.word pg off

def viewPrep (s : State) (pg : Page) (off : Nat) : Nat :=
  if off == 0x40 then
    let u := netNo pg.die * 2 + pg.inst
    let job := s.streams.findSome? fun e =>
      (e.2.fetched.find? fun x => x.phase == .running && x.op == 0x30 && x.aux.head? == some (u + 1)).map fun x => (e.1, x)
    match job with
    | some (k, x) => (if x.pjSource == 0 then 1 else 2) + (s.ctxCpt (dieOf (k >>> 14)) (k % 2 ^ 14)) <<< 2
    | none => 0
  else if off == 0x8C then 0
  else s.word pg off

/-! ### Tallies (R488, R489) -/

/-- HOLDER_HALTED: the holding hart is halted in debug mode (R484). -/
def holderHalted (s : State) (t : Nat) : Bool :=
  match (s.tally t).holder with | some (.hart h) => (s.hart h).debug | _ => false

def viewTally (s : State) (pg : Page) (off : Nat) : Nat :=
  let t := s.selTally pg.die
  let x := s.tally t
  if off == 0x44 then x.mode + ((s.tallyOwner t).getD 0) <<< 2
  else if off == 0x48 then s.word pg off (talSlot t)
  else if off == 0x4C then
    min x.waiters.length 4096 + bitIf x.holder.isSome 13 + bitIf x.abandoned 14 + bitIf (s.holderHalted t) 15
  else if off == 0x50 then x.value % 2 ^ 32
  else if off == 0x54 then x.value >>> 32 % 2 ^ 32
  else if off == 0x58 then s.waitEntries t
  else s.word pg off

/-- A word of the window of tally `t`, but for the effect of a read of TALW_TRY. -/
def viewWindow (s : State) (t off : Nat) : Nat :=
  let x := s.tally t
  if off == 0 then x.value % 2 ^ 32
  else if off == 4 then x.value >>> 32 % 2 ^ 32
  else if off == 0x14 then
    bitIf x.holder.isSome 0 + bitIf x.abandoned 1 + bitIf (s.holderHalted t) 2
      + (match x.holder with
         | some (.hart h) => 8 + h <<< 12
         | some (.stream d n) => d <<< 4 + n <<< 12
         | none => 0)
      + (if x.holder.isSome then x.holderCpt <<< 26 else 0)
  else if off == 0x20 then
    if x.holder.isNone then 0
    else min (ceilDiv (match x.paused with | some r => r | none => x.leaseEnd - s.base) 1000) (2 ^ 24 - 1)
  else if off == 0x24 then min x.waiters.length 4096
  else 0

/-! ### Compartments (R514, R515) -/

/-- The sealed compartments, ascending: their places are the holder indices. -/
def holders (s : State) : List Nat := (List.range 64).filter fun c => s.sealPos.any fun e => e.2 == c

/-- Eight nibbles of CPT_SEAL_MAP from slot position `p` on. -/
def sealNibbles (s : State) (p : Nat) : Nat :=
  ((List.range 8).map fun k =>
    (match SMap.find s.sealPos (p + k) with | some c => s.holders.idxOf c % 16 | none => 0xF) <<< (4 * k)).foldl (· + ·) 0

def viewAdmin (s : State) (pg : Page) (off : Nat) : Nat :=
  if off == 0x40 then (s.word pg off &&& 0x3FFF) + bitIf s.debugOpen 14 + bitIf s.promise 15
  else if off == 0x48 || off == 0x4C then s.word pg off s.cptSel
  else if off == 0x50 then (s.word pg off &&& 0x10) + bitIf s.cptOp.isSome 3
  else if off == 0x54 then
    (s.word pg off &&& 0x7FFFFF) + (s.owner (s.getF pg Reg.CPT_UNIT_KIND) (s.getF pg Reg.CPT_UNIT_INDEX)) <<< 23
  else if off == 0x58 then s.sealNibbles 0
  else if off == 0x5C then s.sealNibbles 8
  else if off == 0x64 then s.holders.getD (s.getF pg Reg.CPT_SEAL_SEL) 0
  else s.word pg off

def viewOwn (s : State) (pg : Page) (off : Nat) : Nat :=
  let c := pg.inst - 0x40
  if off == 0x44 || off == 0x48 then s.word pg off (s.getF pg Reg.CPT_OPEN_SEL_ENTRY)
  else if off == 0x50 then
    s.cptState c + bitIf (s.getF cptPg Reg.CPT_ENT_CFG_SEALED c == 1) 2 + bitIf s.promise 3
  else s.word pg off

/-! ### The module's own pages -/

/-- The pages whose words all dies report alike, as their first die holds them (R465, R566 to R568). -/
def viewCommon (s : State) (pg : Page) (off : Nat) : Nat := s.tvWord ⟨.N0, pg.blk, 0⟩ off

/-- TRANSIENTS of an island: the most of one of its structures within the last 24 hours (R629, R648). -/
def islandTransients (s : State) (d : Die) (i : Nat) : Nat :=
  min 16 (s.transients.filter fun t => t.1 == dieCode d && (structPlace d t.2.1).2 == i && decide (s.base < t.2.2 + dayNs)).length

def viewBist (s : State) (pg : Page) (off : Nat) : Nat :=
  let i := s.getF pg Reg.BIST_SEL_ISLAND
  if off == 0x44 then (s.word pg off &&& 4) + bitIf (s.bists.any fun e => e.1 == dieCode pg.die) 1
  else if off == 0x48 then (s.word pg off i &&& 0x1F) + (s.islandTransients pg.die i) <<< 8
  else if 0x4C ≤ off && off ≤ 0x58 then s.word pg off i
  else s.word pg off

def viewLedger (s : State) (pg : Page) (off : Nat) : Nat :=
  if off == 0x58 then s.log.length
  else if 0x60 ≤ off && off < 0x80 then s.logWord ((off - 0x60) / 4)
  else if off == 0x84 then s.word pg off (s.getF pg Reg.LEDG_VT_SEL_DIE)
  else s.word pg off

/-- SVC_LED (R671). -/
def leds (s : State) : Nat :=
  let main := s.getF pciePg Reg.PCIE_HSW_MAIN_ON == 1
  let st := s.hpState
  let locate := s.getF svcPg Reg.SVC_LOCATE_ACTIVE == 1
  let power := if st == 5 || !main then 0 else if st == 1 then 1 else 2
  let base := if st == 5 then 1 else if main && 2 ≤ st && s.getF pciePg Reg.PCIE_HP_STATE_DRAIN_TIMEOUT == 1 then 1 else 0
  power + (if locate && st != 5 then 3 else base) <<< 2 + bitIf (s.health == 2) 4

def viewService (s : State) (pg : Page) (off : Nat) : Nat :=
  if off == 0x40 then
    let drawing := s.getF pg Reg.SVC_TAG_STAT_DRAWING == 1
    bitIf drawing 0 + bitIf (s.getF pg Reg.SVC_TAG_STAT_QUEUED == 1 || (drawing && s.panelStale)) 1 + s.health <<< 2
  else if off == 0x4C then
    let on := s.getF pg Reg.SVC_LOCATE_ACTIVE == 1
    (if on then min (ceilDiv (s.locateEnd - s.aon) (10 ^ 9)) 0xFFFF else 0) + bitIf on 16
  else if off == 0x54 then s.leds
  else s.word pg off

/-- A block register as an ordinary read returns it. -/
def viewBlock (s : State) (pg : Page) (off : Nat) : Nat :=
  match pg.blk with
  | .eng =>
    if pg.inst < 100 then (if off == 0x44 then s.viewEngine pg else s.word pg off)
    else if pg.inst == 0x80 then s.viewFrontEnd pg off else s.word pg off
  | .plc => s.viewPlc pg off
  | .pool => if off == 0x60 then (s.liveBufs pg.inst).length % 2 ^ 18 else s.word pg off
  | .hbmc | .depc => s.viewMem pg off
  | .upd => if off == 0x70 then s.updWaiting (updOf pg) else s.word pg off
  | .lkp => if pg.inst == 0x10 then s.viewRegistry pg off else s.viewLookup pg off
  | .net => if pg.inst == 8 then s.viewRdma pg off else if pg.inst == 0x10 then s.viewTime pg off else s.word pg off
  | .xch => s.viewExchange pg off
  | .prep => s.viewPrep pg off
  | .xlt => if off == 0x58 then s.invHolder pg.die else s.word pg off
  | .coh => if off ≤ 0x48 || off == 0x50 || off == 0x54 then s.word (cohPg .H0) off else s.word pg off
  | .tal => s.viewTally pg off
  | .cpt => if pg.inst == 0 then s.viewAdmin pg off else s.viewOwn pg off
  | .d2d => if off == 0x48 then s.word pg off (s.getF pg Reg.D2D_SEL_MODULE) else s.word pg off
  | .clk =>
    if off == 0x40 || off == 0x44 then s.viewCommon pg off
    else if off == 0x54 then s.word pg off (s.getF pg Reg.CLK_ISL_SEL_INDEX) else s.word pg off
  | .pwr => if off == 0x40 then s.viewCommon pg off else s.word pg off
  | .thm =>
    if off == 0x44 then s.viewCommon pg off
    else if off == 0x50 then s.word pg off (s.getF pg Reg.THM_SENSOR_SEL) else s.word pg off
  | .bist => s.viewBist pg off
  | .frz =>
    if off == 0x54 && s.frozen then min ((s.aon - s.frozenAt) / 1000) (2 ^ 32 - 1) else s.word pg off
  | .pcie => if off == 0x6C then min s.ledger.insertions 0xFFFF + (min s.ledger.couplings 0xFFFF) <<< 16 else s.word pg off
  | .mgmt => if off == 0x44 then s.word pg off &&& 0xFF8 else if off == 0x54 then s.word pg off &&& 0x1F3 else s.word pg off
  | .ledg => s.viewLedger pg off
  | .svc => s.viewService pg off
  | _ => s.word pg off

/-- The lasting conditions that a page's status bits stand for, where the chapters name them (R522; DEDUCED,
notes/assumptions/59.md). -/
def rawBits (s : State) (pg : Page) : Nat :=
  bitIf ((s.word pg 0x2C).testBit 1) 14 + bitIf (s.word pg 0x30 != 0) 15 +
  match pg.blk with
  | .whc => s.word pg 0x50 &&& 7
  | .clk => bitIf (s.getF pg Reg.CLK_STAT_CLK_LOSS == 1) 0 + bitIf (s.getF pg Reg.CLK_STAT_XPARITY == 1) 1
  | .pwr => bitIf (20 ≤ (s.budget pg.die).below) 1
  | .thm => bitIf (3 ≤ s.getF pg Reg.THM_STATE) 2
  | .d2d => bitIf (s.getF pg Reg.D2D_STAT_STATE == 3) 1 + bitIf (s.getF pg Reg.D2D_STAT_STATE == 0) 2
  | .frz => bitIf s.frozen 0
  | .svc => bitIf (s.getF pg Reg.SVC_SND_LATCHED == 1) 0
  | .ledg => bitIf (s.getF pg Reg.LEDG_STAT_WRITE_FAIL == 1) 1
  | .pcie => bitIf (s.getF pg Reg.PCIE_HP_STATE_DRAIN_TIMEOUT == 1) 1
  | _ => 0

/-- A word of the common header (R522). -/
def viewHeader (s : State) (pg : Page) (off : Nat) : Nat :=
  if off == 0x14 then
    s.getF pg Reg.PAGE_CTRL_ENABLE + bitIf (s.quiescent pg) 1 + (s.word pg off &&& 0xC) + (s.getF pg Reg.PAGE_APPLY_REQ) <<< 4
  else if off == 0x18 && (s.word pg 8).testBit 1 then 0
  else if off == 0x28 then s.rawBits pg
  else if off == 0x3C && !((s.word pg 8).testBit 4) then 0
  else s.word pg off

/-- A word of a page as a read returns it that finds nothing latched; the words that no map lists read 0 (R526, R527). -/
def view (s : State) (pg : Page) (off : Nat) : Nat :=
  if pageFused s.fuses pg then (if off == 0 then s.word pg 0 else 0)
  else if off < 0x40 then s.viewHeader pg off
  else if (rowAt pg off).isNone then 0
  else s.viewBlock pg off

/-- A read of a page's word: the value and the state after it. `inspect` suppresses every side effect, as INSPECT_SAFE does
(R527, R536). -/
def readReg (s : State) (pg : Page) (off : Nat) (inspect : Bool) : Nat × State :=
  let still := inspect || s.getF pg Reg.PAGE_CTRL_INSPECT_SAFE == 1
  let v := match SMap.find s.latchHi (regKey pg off 0) with | some w => w.toNat | none => s.view pg off
  if still then (v, s)
  else
    let s1 := if (s.word pg 8).testBit 3 then s.votePage pg else s
    let hold (t : State) (o : Nat) : State := { t with latchHi := SMap.put t.latchHi (regKey pg o 0) (BitVec.ofNat 32 (s.view pg o)) }
    let s2 := match hiOf pg off with | some h => hold s1 h | none => s1
    let s3 := if pg == timePg && off == 0x40 then hold s2 0x48 else s2
    (v, if pg == ledgPg && off == 0x7C then { s3 with log := s3.log.drop 1 } else s3)

end State

end Sys2Proof.Machine
end

