-- ==== Sys2Proof/Machine/Registers.lean ====
section
/-! DEFINITION. What a write of a register page does (R522 to R535 and the maps of the chapters): a command register runs its
command, another register takes the bits that its access codes let software write. -/

namespace Sys2Proof.Machine

/-- The state after an outcome; the state `s` itself where there is none. -/
def afterOr (s : State) (o : Host.Outcome State Fault Refusal) : State :=
  match o with
  | .next t => t
  | _ => s

namespace State

/-- A word of one kind of field only: W1C bits cleared, RW bits written. -/
def plainWrite (s : State) (pg : Page) (off v : Nat) (bank : Nat := 0) : State := (s.w1cWrite pg off v bank).rwWrite pg off v bank

/-- The W1C bits of `v`, then a command. -/
def commandWrite (s : State) (pg : Page) (off v : Nat) (f : State → Host.Outcome State Fault Refusal) : State :=
  let s1 := s.w1cWrite pg off v
  afterOr s1 (f s1)

/-- A write of one field with its bounds. -/
def boundedWrite (s : State) (pg : Page) (f : Fld) (v lo hi : Nat) : State := s.setF pg f (max lo (min hi (bitsOf v f.lo f.w)))

/-- STICKY of a watermark register cleared with its count (R534). -/
def stickyClear (s : State) (pg : Page) (off v : Nat) : State :=
  if v.testBit 0 then s.setWord pg off (s.word pg off &&& 2) else s

/-- The header's writable words. -/
def writeHeader (s : State) (pg : Page) (off v : Nat) : State :=
  if off == 0x10 then s.ctrlWrite pg v
  else if off == 0x18 then
    if v.testBit 0 then s.applyAsk pg v
    else if (s.word pg 8).testBit 1 then s.applyDrop pg
    else ((s.applyDrop pg).setF pg Reg.PAGE_APPLY_KIND (bitsOf v 4 4)).setF pg Reg.PAGE_APPLY_GEN (bitsOf v 16 16)
  else if off == 0x24 then s.irqEnWrite pg v
  else if off == 0x2C then s.stickyClear pg off v
  else if off == 0x3C then
    if !((s.word pg 8).testBit 4) || v == s.word pg off then s
    else if !s.debugOpen then s.pageErr pg
    else s.setWord pg off (v % 2 ^ 14)
  else s.w1cWrite pg off v

/-- The engine, front-end and doorbell pages (R197 to R199). -/
def writeEngine (s : State) (pg : Page) (off : Nat) (v : W32) : State :=
  let d := pg.die
  if pg.inst < 100 then
    if off == 0x4C then afterOr s (execEngFillCistWrite d pg.inst v s) else s.plainWrite pg off v.toNat
  else if pg.inst == 0x80 then
    if off == 0x44 then
      s.commandWrite pg off v.toNat fun s =>
        match v.toNat % 4 with
        | 1 => execFeCtxEnable d s
        | 2 => execFeCtxDrain d s
        | 3 => execFeCtxAbort d s
        | _ => .next s
    else if 0x100 ≤ off then afterOr s (execFeCtxDataWrite d ((off - 0x100) / 4) v s)
    else s.plainWrite pg off v.toNat
  else if off == 0x40 then afterOr s (execDbRing d (pg.inst - 0xC0) v s)
  else s

/-- Placement, pool, memory controllers, update units (R244, R245, R272, R273, R309). -/
def writeMem (s : State) (pg : Page) (off : Nat) (v : W32) : State :=
  let n := v.toNat
  match pg.blk with
  | .plc =>
    let k := dieCode pg.die - 12
    if off == 0x40 then afterOr s (execPlcQueryLot k v s)
    else if off == 0x48 || off == 0x4C then (s.plainWrite pg off n).plcMarks k
    else if off == 0x50 then s.setF pg Reg.PLC_LOW_FRAMES (min 256 (n % 2 ^ 13))
    else if off == 0x54 then s.stickyClear pg off n
    else s
  | .pool =>
    if off == 0x48 then afterOr s (execPoolQEnable pg.inst v s)
    else if off == 0x4C then afterOr s (execPoolQTail pg.inst v s)
    else if (off == 0x40 || off == 0x44 || off == 0x54) && s.poolOn pg.inst then s.pageErr pg
    else if off == 0x40 then s.holdLo pg off n
    else if off == 0x44 then (s.takeLo pg 0x40).rwWrite pg off n
    else s.plainWrite pg off n
  | .hbmc =>
    if off == 0x40 then
      let s1 := (s.setF pg Reg.HBMC_CFG_SCRUB_EN (bitsOf n 6 1)).boundedWrite pg Reg.HBMC_CFG_NARROW_WAIT n 0 100
      if pg.die == .T0 then afterOr s1 (execLocalGibWrite v s1) else s1
    else s.plainWrite pg off n
  | .depc =>
    if off == 0x40 then (s.setF pg Reg.DEPC_CFG_SCRUB_EN (n % 2)).boundedWrite pg Reg.DEPC_CFG_NARROW_WAIT n 0 100
    else s.plainWrite pg off n
  | _ =>
    let u := updOf pg
    if off == 0x40 then s.boundedWrite pg Reg.UPD_GAP_TIMEOUT_US n 1 (2 ^ 24)
    else if off == 0x44 || off == 0x48 || off == 0x4C then afterOr s (execUpdDsCfgWrite u off v s)
    else if off == 0x54 then afterOr s (execUpdDsTail u v s)
    else s.plainWrite pg off n

/-- The lookup engines and the registry (R341, R342). -/
def writeLookup (s : State) (pg : Page) (off : Nat) (v : W32) : State :=
  let n := v.toNat
  if pg.inst != 0x10 then
    if off == 0x60 then (s.setF pg Reg.LKP_SWEEP_CFG_EN (n % 2)).boundedWrite pg Reg.LKP_SWEEP_CFG_PERIOD_MS n 1 (2 ^ 16) else s
  else if off == 0x44 then s.holdLo pg off n
  else if off == 0x48 then (s.takeLo pg 0x44).rwWrite pg off n
  else if off == 0x4C then
    match n % 4 with
    | 1 => afterOr s (execLoad v s)
    | 2 => afterOr s (execUnload v s)
    | _ => (s.tblCmd v).2
  else if off == 0x50 then afterOr s (execSwitch v s)
  else if off == 0x54 then s.w1cWrite pg off n (s.getF pg Reg.LKP_TBL_SEL_TABLE)
  else if off == 0x68 then
    match bitsOf n 10 2 with
    | 1 => afterOr s (execTombstone v s)
    | 2 => afterOr s (execRevive v s)
    | _ => (s.w1cWrite pg off n).setF pg Reg.LKP_ROW_CMD_TABLE (n % 2 ^ 10)
  else s.plainWrite pg off n

/-- The ports, the RDMA page, the time page, the exchange engine (R378 to R381). -/
def writeNet (s : State) (pg : Page) (off : Nat) (v : W32) : State :=
  let n := v.toNat
  let d := pg.die
  if pg.blk == .xch then
    if off == 0x60 then (if n.testBit 0 then afterOr s (execXchWinRelease d s) else s) else s.plainWrite pg off n
  else if pg.inst == 8 then
    let qp := s.getF pg Reg.NET_QP_SEL_INDEX
    let mr := s.getF pg Reg.NET_MR_SEL_INDEX
    if off == 0x44 then
      s.commandWrite pg off n fun s =>
        match n % 4 with | 1 => execQpEnable d s | 2 => execQpReset d s | _ => .next s
    else if off == 0x4C then afterOr s (execNetQpDb d v s)
    else if off == 0x54 then
      s.commandWrite pg off n fun s =>
        match n % 4 with | 1 => execRegister d s | 2 => execDeregister d s | _ => .next s
    else if 0x140 ≤ off then
      if (SMap.find s.mrs (netNo d * 2 ^ 16 + mr)).isSome then s.pageErr pg else s.rwWrite pg off n mr
    else if 0x100 ≤ off then
      if s.qpSt (qpKey d qp) == 0 then s.rwWrite pg off n qp else s.qpReject d
    else s.plainWrite pg off n
  else if pg.inst == 0x10 then
    if off == 0x4C then afterOr s (execNetPtpAdj v s)
    else if off == 0x50 then afterOr s (execNetPtpStep v s)
    else if off == 0x54 then (s.rwWrite pg off n).boundedWrite pg Reg.NET_PPS_CFG_WIDTH_MS n 1 500
    else s
  else if off == 0x40 then afterOr s (execNetPortModeWrite d pg.inst v s)
  else s.plainWrite pg off n

/-- A coordination page (R408): most settings only in IDLE. -/
def writeConvoy (s : State) (pg : Page) (off : Nat) (v : W32) : State :=
  let n := v.toNat
  let k := pg.inst
  if [0x40, 0x48, 0x4C, 0x50, 0x54, 0x58, 0x60, 0x64, 0x68, 0xB4].contains off && s.cvSt k != 0 then s.pageErr pg
  else if off == 0x44 then
    (s.boundedWrite pg Reg.CONV_HB_PERIOD_US n 10 1000).boundedWrite pg Reg.CONV_HB_MISS n 2 15
  else if off == 0x54 || off == 0x60 || off == 0x7C || off == 0x90 then s.holdLo pg off n
  else if off == 0x58 || off == 0x64 then (s.takeLo pg (off - 4)).rwWrite pg off n
  else if off == 0x6C then
    s.commandWrite pg off n fun s =>
      match n % 8 with
      | 1 => execStart k s
      | 2 => execStop k s
      | 3 => execAdmitRank k (bitsOf n 3 7) s
      | 4 => execResume k s
      | _ => .next s
  else if off == 0x78 then afterOr s (execConvBarrier k v s)
  else if off == 0x80 then (let s1 := s.takeLo pg 0x7C; afterOr s1 (execConvReady k v s1))
  else if off == 0x94 then (let s1 := s.takeLo pg 0x90; afterOr s1 (execConvApplied k v s1))
  else s.plainWrite pg off n

/-- Translation, coherence and tallies (R464, R465, R488). -/
def writeHost (s : State) (pg : Page) (off : Nat) (v : W32) : State :=
  let n := v.toNat
  let d := pg.die
  match pg.blk with
  | .xlt =>
    if off == 0x40 then s.holdLo pg off n
    else if off == 0x44 then (s.takeLo pg 0x40).rwWrite pg off n
    else if off == 0x50 then s.commandWrite pg off n fun s => if n.testBit 0 then execXltInvGo d s else .next s
    else s.plainWrite pg off n
  | .coh =>
    if off == 0x40 then s.holdLo pg off n
    else if off == 0x44 then (s.takeLo pg 0x40).rwWrite pg off n
    else if off == 0x48 then
      let s1 := s.setF pg Reg.COH_MSI_CFG_EN (n % 2)
      if n.testBit 1 then afterOr s1 (execCohMsiFlush s1) else s1
    else s
  | _ =>
    let t := s.selTally d
    if off == 0x44 then afterOr s (execTalCfgWrite d v s)
    else if off == 0x48 then
      if (s.tally t).holder.isSome || !(s.tally t).waiters.isEmpty then s.pageErr pg
      else s.setF pg Reg.TAL_CORE_LEASE_US (max 1 (n % 2 ^ 24)) (talSlot t)
    else s.plainWrite pg off n

/-- The compartment pages (R514, R515). -/
def writeCompartments (s : State) (pg : Page) (off : Nat) (v : W32) : State :=
  let n := v.toNat
  if pg.inst == 0 then
    if off == 0x40 then
      let s1 := (s.setF pg Reg.CPT_CFG_ADMIN (n % 64)).setF pg Reg.CPT_CFG_PCIE (bitsOf n 6 6)
      if n.testBit 12 then afterOr s1 (execCptLock s1) else s1
    else if off == 0x48 then afterOr s (execCptEntCfgWrite v s)
    else if off == 0x50 then
      s.commandWrite pg off n fun s =>
        match n % 8 with
        | 1 => execCreate s
        | 2 => execCompartmentRelease s
        | 3 => execGrant s
        | 4 => execReturnUnit s
        | _ => .next s
    else s.plainWrite pg off n
  else
    let c := pg.inst - 0x40
    if off == 0x4C then
      s.commandWrite pg off n fun s =>
        match n % 4 with | 1 => execOpenBuf c s | 2 => execCloseBuf c s | _ => .next s
    else if off == 0x44 || off == 0x48 then s.rwWrite pg off n (s.getF pg Reg.CPT_OPEN_SEL_ENTRY)
    else s.plainWrite pg off n

/-- Clocks, power and temperature (R566 to R568): a triplicated field takes the value in all three copies. -/
def writePower (s : State) (pg : Page) (off : Nat) (v : W32) : State :=
  let n := v.toNat
  let d := pg.die
  match pg.blk with
  | .clk =>
    if off == 0x40 then afterOr s (execClkSrcSelWrite v s)
    else if off == 0x44 then afterOr s (execClkSscWrite v s)
    else if off == 0x4C then afterOr s (execClkModeWrite d v s)
    else if off == 0x54 then afterOr s (execClkIslMaxWrite d v s)
    else s.plainWrite pg off n
  | .pwr => if off == 0x40 then s.setTv pg Reg.PWR_MODULE_BUDGET_W (max 1560 (min 3200 (n % 2 ^ 12))) else s
  | _ =>
    let a := bitsOf n 0 8
    let b := bitsOf n 8 8
    if off == 0x44 then
      if decide (70 ≤ a) && decide (a ≤ 95) && decide (75 ≤ b) && decide (b ≤ 100) && decide (a + 5 ≤ b) then
        (s.setTv pg Reg.THM_LIMITS_STEP1 a).setTv pg Reg.THM_LIMITS_STEP2 b
      else s.pageErr pg
    else s.plainWrite pg off n

/-- The dies named in a new value of MGMT_PARK.REQ, parked or made active (R615, R619). -/
def parkWrite (s : State) (n : Nat) : State :=
  let old := s.getF mgmtPg Reg.MGMT_PARK_REQ
  allDies.foldl (fun t d =>
    let k := dieCode d
    if n.testBit k == old.testBit k then t
    else if n.testBit k then afterOr t (execPark d t) else afterOr t (execUnpark d t)) s

/-- The module's own pages (R600, R619, R648 to R651, R672 to R674). -/
def writeModule (s : State) (pg : Page) (off : Nat) (v : W32) : State :=
  let n := v.toNat
  match pg.blk with
  | .pcie =>
    if off == 0x54 then
      s.commandWrite pg off n fun s =>
        match n % 4 with | 1 => execStartDrain s | 2 => execDrainDone s | 3 => execCancel s | _ => .next s
    else if off == 0x58 then s.boundedWrite pg Reg.PCIE_HP_DRAIN_S n 1 (2 ^ 16)
    else s.w1cWrite pg off n
  | .mgmt =>
    if off == 0x40 then (if n.testBit 8 then afterOr s (execOpenBoot s) else s)
    else if off == 0x44 then
      let t := bitsOf n 3 8
      s.commandWrite pg off n fun s =>
        match n % 8 with
        | 1 => execResetCmdModule s
        | 2 => execResetCmdDie t s
        | 3 => execResetCmdCompartment t s
        | 4 => execCoreHold t s
        | 5 => execCoreRelease t s
        | _ => .next s
    else if off == 0x4C then (s.w1cWrite pg off n).parkWrite n
    else if off == 0x54 then
      let s1 := (s.w1cWrite pg off n).setF pg Reg.MGMT_STANDBY_KEEP_H0 (bitsOf n 4 1)
      let s2 := if n.testBit 2 then afterOr s1 (execStandbyEnter (n.testBit 4) s1) else s1
      if n.testBit 3 then afterOr s2 (execStandbyWake s2) else s2
    else s
  | .bist =>
    if off == 0x44 then s.commandWrite pg off n fun s => if n.testBit 0 then execBistRun pg.die s else .next s
    else s.plainWrite pg off n
  | .frz =>
    if off == 0x40 then
      s.commandWrite pg off n fun s =>
        match n % 4 with | 1 => execFreezeDebug s | 2 => execFreezeCapture s | 3 => execThaw s | _ => .next s
    else if off == 0x50 then s.boundedWrite pg Reg.FRZ_THAW_LIMIT_MS n 1 (2 ^ 16)
    else s.plainWrite pg off n
  | .ledg =>
    if off == 0x4C then s.holdLo pg off n
    else if off == 0x50 then (let s1 : State := { s with latchHi := SMap.del s.latchHi (regKey pg off 0) }
                              afterOr s1 (execLedgRtcHi v s1))
    else s.plainWrite pg off n
  | .whc => if off == 0x54 then s.boundedWrite pg Reg.WHC_CFG_RESERVE_PCT n 1 10 else s
  | .svc =>
    if off == 0x44 then (if n.testBit 0 then afterOr s (execRedraw s) else s)
    else if off == 0x4C then afterOr s (execSvcLocate v s)
    else if off == 0x50 then (if n.testBit 5 then afterOr s (execSvcSndClear s) else s)
    else s
  | _ => s.plainWrite pg off n

/-- A block register written. -/
def writeBlock (s : State) (pg : Page) (off : Nat) (v : W32) : State :=
  match pg.blk with
  | .eng => s.writeEngine pg off v
  | .plc | .pool | .hbmc | .depc | .upd => s.writeMem pg off v
  | .lkp => s.writeLookup pg off v
  | .net | .xch => s.writeNet pg off v
  | .conv => s.writeConvoy pg off v
  | .xlt | .coh | .tal => s.writeHost pg off v
  | .cpt => s.writeCompartments pg off v
  | .clk | .pwr | .thm => s.writePower pg off v
  | _ => s.writeModule pg off v

/-- A write of a page's word: a fused-off unit ignores it, as do words that no map lists and words that another die's page holds
(R526, R527). -/
def writeReg (s : State) (pg : Page) (off : Nat) (v : W32) : State :=
  if pageFused s.fuses pg then s
  else if off < 0x40 then s.writeHeader pg off v.toNat
  else
    match rowAt pg off with
    | none => s
    | some x => if x.only.all (· == pg.die) then s.writeBlock pg off v else s

end State

/-- REGISTER_WRITE: a write of 4 bytes to a register page (R495, R519, R527). -/
def execRegisterWrite (r : Requester) (pg : Page) (off : Nat) (v : W32) (s : State) : Host.Outcome State Fault Refusal :=
  .next <|
    if !pageExists pg || off % 4 != 0 || 4096 ≤ off || !s.reaches r pg then s.refuse r
    else if s.responds pg then s.writeReg pg off v else s

end Sys2Proof.Machine
end

