-- ==== Sys2Proof/Machine/Access.lean ====
section
/-! DEFINITION. Accesses to the device map by harts, by inbound PCIe requests and by the inspection port (R59, R228, R255, R440,
R463, R489, R490, R495, R536, R537, R587, R604). -/

namespace Sys2Proof.Machine

/-- The 4 KiB pages of a range, by their first byte in it. -/
def pagesIn (a n : Nat) : List Nat :=
  (List.range ((a + n + 4095) / 4096 - a / 4096)).map fun k => max a ((a / 4096 + k) * 4096)

/-- The pieces of a write by 64-byte lines. -/
def linePieces (a : Nat) (bs : Bytes) : List (Nat × Bytes) :=
  (List.range ((a + bs.length + 63) / 64 - a / 64)).map fun k =>
    let b := max a ((a / 64 + k) * 64)
    (b, (bs.drop (b - a)).take ((a / 64 + k + 1) * 64 - b))

/-- A two's complement number of `w` bits. -/
def signedOf (v w : Nat) : Int := if v.testBit (w - 1) then (v : Int) - 2 ^ w else v

/-- What an AMO stores, from the old value and the operand, both of `w` bits (R440). -/
def amoResult (op : Amo) (w old x : Nat) : Nat :=
  match op with
  | .swap => x
  | .add => (old + x) % 2 ^ w
  | .and => old &&& x
  | .or => old ||| x
  | .xor => old ^^^ x
  | .max => if signedOf old w < signedOf x w then x else old
  | .min => if signedOf x w < signedOf old w then x else old
  | .maxu => max old x
  | .minu => min old x

/-- The error classes by code less 1 (R621). -/
def errClasses : List ErrClass := [.corrected, .transient, .lasting, .data, .fatal, .writeLost, .refusal]

namespace State

/-! ### Windows of tallies and interrupt files -/

/-- The key of the latched TALW_VALUE_HI of a tally. -/
def winLatch (t : Nat) : Nat := 2 ^ 60 + t

/-- A read of a word of a tally's window. `h` is the hart that reads; a PCIe read of TALW_TRY returns 3 (R489). -/
def windowRead (s : State) (h : Option Nat) (t off : Nat) : Nat × State :=
  if off == 0x18 then (match h with | some k => s.lockTry k t | none => (3, s))
  else if off == 0 then
    (s.viewWindow t 0, { s with latchHi := SMap.put s.latchHi (winLatch t) (BitVec.ofNat 32 (s.viewWindow t 4)) })
  else if off == 4 then ((match SMap.find s.latchHi (winLatch t) with | some w => w.toNat | none => s.viewWindow t 4), s)
  else (s.viewWindow t off, s)

/-- A write of a word of a tally's window (R489). -/
def windowWrite (s : State) (h : Option Nat) (t off : Nat) (v : W32) : State :=
  if off == 8 then s.windowAdd t v.toNat
  else if off == 0xC then { s with talwLo := SMap.put s.talwLo t v }
  else if off == 0x10 then s.windowSet t v.toNat
  else if off == 0x1C then (if v == 1 then s.windowRelease t h else if v == 2 then s.windowClear t else s)
  else s

/-- A write of a word of an interrupt file: `seteipnum_le` and `seteipnum_be` of the AIA layout (R463); other words are ignored. -/
def imsicWrite (s : State) (h f off : Nat) (v : W32) : State :=
  let n := v.toNat
  let id := if off == 4 then n % 256 <<< 24 + n / 256 % 256 <<< 16 + n / 65536 % 256 <<< 8 + n >>> 24 else n
  if (off == 0 || off == 4) && id != 0 && id < 2048 then s.imsicSet h f id else s

/-! ### Words of pages and windows -/

/-- The words that are read and written one at a time (R440, R489, R587). -/
def isWord (s : State) (a : Nat) : Bool :=
  match s.locate a with
  | .page _ _ | .imsic _ _ _ | .tally _ _ => true
  | _ => false

/-- A requester that carries compartment `c`, or carries none where `c` is none, reaches the word (R495, R604). -/
def wordReach (s : State) (r : Requester) (c : Option Nat) (a : Nat) : Bool :=
  match s.locate a with
  | .page pg _ => s.reaches r pg
  | .imsic h _ _ => r != .pcie && (c.isNone || c == s.hartCpt h)
  | .tally t _ => c.isNone || (c == s.tallyOwner t)
  | _ => false

/-- A word read, its value and the state after it. -/
def readWord (s : State) (h : Option Nat) (a : Nat) : Nat × State :=
  match s.locate a with
  | .page pg off => s.readReg pg off false
  | .tally t off => s.windowRead h t off
  | _ => (0, s)

/-- A word written. -/
def writeWord (s : State) (h : Option Nat) (a : Nat) (v : W32) : State :=
  match s.locate a with
  | .page pg off => s.writeReg pg off v
  | .tally t off => s.windowWrite h t off v
  | .imsic k f off => s.imsicWrite k f off v
  | _ => s

/-- The word's block answers: a page by R640, a window while the module is not stopped. -/
def wordAnswers (s : State) (a : Nat) : Bool :=
  match s.locate a with
  | .page pg _ => s.responds pg
  | _ => !s.stopped

/-! ### Memory -/

/-- Every byte of the range lies in the depot, the near store or an allocated lot (R56, R209). -/
def allMemory (s : State) (a n : Nat) : Bool :=
  (pagesIn a n).all fun p =>
    match s.locate p with
    | .depot | .near => true
    | .unified l => s.lotTier l != 3
    | _ => false

/-- The requester of compartment `c`, or an unchecked one, reaches every page of a range (R209, R226, R495, R604). -/
def memReach (s : State) (c : Option Nat) (a n : Nat) : Bool :=
  match c with
  | none => true
  | some k => (pagesIn a n).all fun p => s.unitReach k p

/-- A piece of a hart's store within a line: into its own copy where it owns the line, else coherently to memory; other harts'
reservations on the line end. Either way the lot is written (R217, R221, R450, R453, R485). -/
def storePiece (s : State) (h : Nat) (p : Nat × Bytes) : State :=
  let l := p.1 / 64
  let x := s.lineAt l
  let others : State := { s with harts := s.harts.map fun e =>
    if e.1 != h && e.2.resv == some l then (e.1, { e.2 with resv := none }) else e }
  match copyOf x (.core h) with
  | some k =>
    if k.st != 0 then
      let d := k.data.take (p.1 % 64) ++ p.2 ++ k.data.drop (p.1 % 64 + p.2.length)
      (lotsOf p.1 p.2.length).foldl (fun t l => t.touchLot l true)
        (others.setLine l { x with copies := x.copies.map fun y => if y.cache == .core h then { y with st := 2, data := d } else y })
    else (others.cohInv p.1 p.2.length).wrBytes p.1 p.2
  | none => (others.cohInv p.1 p.2.length).wrBytes p.1 p.2

/-- The hart owns the line of a piece. -/
def ownsPiece (s : State) (h : Nat) (p : Nat × Bytes) : Bool :=
  match copyOf (s.lineAt (p.1 / 64)) (.core h) with
  | some k => k.st != 0
  | none => false

/-- A hart's store: performed but for parts of uncorrectable codewords, for which the hart takes an exception (R148, R255). -/
def hartStore (s : State) (h a : Nat) (bs : Bytes) : State × Bool :=
  let ps := linePieces a bs
  (ps.foldl (fun t p => t.storePiece h p) s, ps.any fun p => !s.ownsPiece h p && s.partialBad p.1 p.2.length)

/-- A hart's store answered. -/
def storeAnswer (s : State) (h a : Nat) (bs : Bytes) (d : Bytes) : State :=
  let r := s.hartStore h a bs
  if r.2 then r.1.answer (.hart h) .accessFault else r.1.answer (.hart h) .done d

/-- A line of the range is read from memory and holds an uncorrectable codeword; where a cache holds M data, that is read. -/
def hartBad (s : State) (a n : Nat) : Bool :=
  s.badIn a n && (linePieces a (List.replicate n 0)).any fun p => (s.lineAt (p.1 / 64)).latest.isNone && s.badIn p.1 p.2.length

/-- An access fault of a hart. -/
def hartFault (s : State) (h : Nat) : State := s.answer (.hart h) .accessFault

/-- The record of a PLC event that names a lot (R228): its class is open (notes/assumptions/60.md). -/
def plcEvent (s : State) (h l : Nat) : State :=
  let q := reqFields (.hart h)
  s.logRec { blockRec (plcPg l) (errClasses.getD (Config.plcEventClass % 7) .data) 0 with
    addr := unifiedBase + l * 0x10000, reqId := q.1, reqDie := q.2.1, reqKind := q.2.2, reqCpt := s.cptOf (.hart h) }

/-- What a hart's access does to memory that it may reach. AMO, LR and SC exist for 4 and 8 bytes; LR and SC take aligned
addresses only (notes/assumptions/60.md). -/
def hartPerform (s : State) (h : Nat) (op : HartOp) (pa size : Nat) (data : Bytes) : State :=
  let rd (t : State) : State := (t.touchRead pa size).answer (.hart h) .done (s.cohRead pa size)
  let bad := s.hartBad pa size
  let fault := (s.reportUncorr (.hart h) pa 0).hartFault h
  let told := fault.sendMsi Config.hartDataMsi.toNat
  match op with
  | .load | .fetch => if bad then told else rd s
  | .store => s.storeAnswer h pa data []
  | .amo k =>
    if size != 4 && size != 8 then s
    else if bad then fault
    else
      let old := leNat (s.cohRead pa size)
      s.storeAnswer h pa (leBytes (amoResult k (8 * size) old (leNat data)) size) (leBytes old size)
  | .lr =>
    if size != 4 && size != 8 then s
    else if pa % size != 0 then s.hartFault h
    else if bad then fault
    else rd (s.setHart h { s.hart h with resv := some (pa / 64) })
  | .sc =>
    if size != 4 && size != 8 then s
    else if pa % size != 0 then s.hartFault h
    else
      let s1 := s.setHart h { s.hart h with resv := none }
      if (s.hart h).resv == some (pa / 64) then s1.storeAnswer h pa data [] else s1.answer (.hart h) .scFail

/-- A hart's access writes memory of a lot that moves, and not its own copy of the line (R234). -/
def hartStalls (s : State) (h : Nat) (op : HartOp) (pa size : Nat) : Bool :=
  (match op with
    | .store | .amo _ => true
    | .sc => (s.hart h).resv == some (pa / 64)
    | _ => false)
    && s.movingIn pa size && !(linePieces pa (List.replicate size 0)).all fun p => s.ownsPiece h p

/-- An access of a hart by a direct address, which only the unchecked accesses of R604 have (R60, R206): the placement reserve is read
and written as the map that it holds, and a frame that holds a lot gives the lot's bytes. -/
def hartDirect (s : State) (h : Nat) (op : HartOp) (pa size : Nat) (data : Bytes) : State :=
  if !s.inReserve pa then (if s.oneFrame pa size then s.hartPerform h op (s.homeByte pa) size data else s.hartPerform h op pa size data)
  else
    match op with
    | .load | .fetch => s.answer (.hart h) .done (s.devRead pa size)
    | .store => (s.devWrite pa data).answer (.hart h) .done
    | _ => s.hartFault h

/-- A hart's access to the depot, the near store or the unified range (R209, R228, R234, R255, R440). -/
def hartMemory (s : State) (h : Nat) (c : Option Nat) (op : HartOp) (pa size : Nat) (data : Bytes) : State :=
  if !s.allMemory pa size || !s.memReach c pa size then s.hartFault h
  else if c.isNone && decide (pa < unifiedBase) then s.hartDirect h op pa size data
  else
    match s.absentLots (lotsOf pa size) with
    | [] => if s.hartStalls h op pa size then s.stall (.hart h op pa size data) else s.hartPerform h op pa size data
    | ls => (ls.foldl (fun t l => (t.startPageIn l).plcEvent h l) s).hartFault h

/-- A hart's access to a cistern (R148, R440). -/
def hartCistern (s : State) (h : Nat) (c : Option Nat) (op : HartOp) (pa size : Nat) (data : Bytes) : State :=
  if !([1, 2, 4, 8].contains size) || pa % size != 0 || !s.memReach c pa size then s.hartFault h
  else
    match op with
    | .load | .fetch =>
      if s.badIn pa size then ((s.reportUncorr (.hart h) pa 0).hartFault h).sendMsi Config.hartDataMsi.toNat
      else s.answer (.hart h) .done (s.rdBytes pa size)
    | .store =>
      if s.partialBad pa size then (s.wrBytes pa data).hartFault h else (s.wrBytes pa data).answer (.hart h) .done
    | _ => s.hartFault h

/-- A hart's access to a word of a page or a window (R440, R495). -/
def hartWord (s : State) (h : Nat) (c : Option Nat) (op : HartOp) (pa size : Nat) (data : Bytes) : State :=
  if size != 4 || pa % 4 != 0 || !s.wordReach (.hart h) c pa then s.hartFault h
  else if !s.wordAnswers pa then s
  else
    match op with
    | .load | .fetch => (let r := s.readWord (some h) pa; r.2.answer (.hart h) .done (leBytes r.1 4))
    | .store => (s.writeWord (some h) pa (BitVec.ofNat 32 (leNat data))).answer (.hart h) .done
    | _ => s.hartFault h

/-- The bytes of a range that H0's caches hold for hart `h` in standby (R617): a read finds any copy on H0, a write needs the
hart's own M or E copy. -/
def cachedOnH0 (s : State) (h a n : Nat) (write : Bool) : Bool :=
  (linePieces a (List.replicate n 0)).all fun p =>
    if write then s.ownsPiece h p else (s.lineAt (p.1 / 64)).copies.any fun k => cacheDie k.cache == .H0

/-- The tag of a hart's accesses: none before MGMT_BOOT.OPEN, which leaves them unchecked; else that of its owner, 64 where it has
none (R495, R604). -/
def hartTag (s : State) (h : Nat) : Option Nat :=
  if s.getF mgmtPg Reg.MGMT_BOOT_OPEN == 0 then none else some ((s.hartCpt h).getD 64)

end State

/-- The access writes. -/
def opWrites : HartOp → Bool
  | .store | .amo _ | .sc => true
  | _ => false

/-- HART_ACCESS: a load, store, AMO, LR, SC or fetch of a hart that runs. `data` holds a store's bytes or an AMO's operand. In standby
H0 runs from its caches, and a miss starts the wake (R440, R617). -/
def execHartAccess (h : Nat) (op : HartOp) (pa size : Nat) (data : Bytes) (s : State) : Host.Outcome State Fault Refusal :=
  .next <|
    let d : Die := if h < 48 then .H0 else .H1
    let y := s.hart h
    let sane := decide (h < 96) && size != 0 && (data.length == size || !opWrites op)
    let standby := decide (2 ≤ s.getF mgmtPg Reg.MGMT_STANDBY_STATE)
    if !sane || y.held || y.debug || s.frozen || s.getF pciePg Reg.PCIE_HSW_MAIN_ON != 1 || s.dieDown d then s
    else if standby then
      if d == .H0 && s.getF mgmtPg Reg.MGMT_STANDBY_KEEP_H0 == 1 then
        (if s.allMemory pa size && s.memReach (s.hartTag h) pa size && s.cachedOnH0 h pa size (opWrites op) then
          s.hartPerform h op pa size data else s.wake 5)
      else s
    else
      match s.locate pa with
      | .depot | .near | .unified _ => s.hartMemory h (s.hartTag h) op pa size data
      | .cistern _ _ _ => s.hartCistern h (s.hartTag h) op pa size data
      | .page _ _ | .imsic _ _ _ | .tally _ _ => s.hartWord h (s.hartTag h) op pa size data
      | .undecoded => s.hartFault h

/-! ### PCIe (R587 to R589) -/

/-- The device physical address that an inbound request through BAR0 or BAR2 reaches; none where the BAR's table refuses it. -/
def barPa (bar off len : Nat) : Option Nat :=
  if bar == 0 then (if len == 4 && off % 4 == 0 && decide (off < 2 ^ 32) then some (pageBase + off) else none)
  else if bar == 2 then (if off + len ≤ 0x200000000000 then some off else none)
  else none

namespace State

/-- The link carries inbound requests (R589). -/
def pcieUp (s : State) : Bool := s.getF pciePg Reg.PCIE_LINK_DL_ACTIVE == 1 && s.getF pciePg Reg.PCIE_HSW_MAIN_ON == 1

/-- A posted write that could not be performed in full (R148, R255, R623). -/
def pcieLost (s : State) (pa : Nat) : State :=
  (s.writeLostRec .pcie (s.cptOf .pcie) pa).bump pciePg Reg.PCIE_AER_UNCORR

/-- An inbound request reaches every byte that it asks for, in memory or in a cistern (R209, R495). -/
def pcieMem (s : State) (pa len : Nat) : Bool :=
  s.memReach (some (s.cptOf .pcie)) pa len

/-- An inbound read of memory: it waits for lots that are away (R228). -/
def pcieRead (s : State) (pa len : Nat) : State :=
  if !s.pcieMem pa len then s.answer .pcie .unsupported
  else if !(s.absentLots (lotsOf pa len)).isEmpty then (s.pageInAll (lotsOf pa len)).stall (.pcieRead pa len)
  else if s.badIn pa len then (s.reportUncorr .pcie pa 0).answer .pcie .poisoned
  else ((s.touchRead pa len).countCoh pa len Reg.COH_DEV_RD).answer .pcie .done (s.cohRead pa len)

/-- An inbound write of memory: it waits for lots that are away or move (R228, R234). -/
def pcieWrite (s : State) (pa : Nat) (data : Bytes) : State :=
  let len := data.length
  if !s.pcieMem pa len then s.answer .pcie .unsupported
  else if !(s.absentLots (lotsOf pa len)).isEmpty then (s.pageInAll (lotsOf pa len)).stall (.pcieWrite pa data)
  else if s.movingIn pa len then s.stall (.pcieWrite pa data)
  else if s.partialBad pa len then (s.cohWrite pa data).pcieLost pa
  else s.cohWrite pa data

end State

/-- PCIE_INBOUND_READ: a read through a BAR, checked with the compartment CPT_CFG.PCIE (R59, R228, R255, R463, R489, R587). -/
def execPcieInboundRead (bar off len : Nat) (s : State) : Host.Outcome State Fault Refusal :=
  .next <|
    let ur := s.answer .pcie .unsupported
    if !s.pcieUp || len == 0 then s
    else if bar == 4 then
      (if off + len ≤ 0x10000 then s.answer .pcie .done (Memory.readBytes s.bar4 off len) else ur)
    else
      match barPa bar off len with
      | none => ur
      | some pa =>
        if s.isWord pa then
          if len != 4 || pa % 4 != 0 || !s.wordReach .pcie (some (s.cptOf .pcie)) pa then ur
          else if s.wordAnswers pa then (let r := s.readWord none pa; r.2.answer .pcie .done (leBytes r.1 4)) else s
        else if s.stopped then s
        else s.pcieRead pa len

/-- PCIE_INBOUND_WRITE: a posted write through a BAR, checked in the same way; it has no completion, so that only a refusal is
answered (R59, R228, R587, R623). -/
def execPcieInboundWrite (bar off : Nat) (data : Bytes) (s : State) : Host.Outcome State Fault Refusal :=
  .next <|
    let len := data.length
    let ur := s.answer .pcie .unsupported
    if !s.pcieUp || len == 0 then s
    else if bar == 4 then
      (if off + len ≤ 0x8000 then { s with bar4 := Memory.writeBytes s.bar4 off data }
       else if off + len ≤ 0x10000 then s else ur)
    else
      match barPa bar off len with
      | none => ur
      | some pa =>
        if s.isWord pa then
          if len != 4 || pa % 4 != 0 || !s.wordReach .pcie (some (s.cptOf .pcie)) pa then ur
          else if s.wordAnswers pa then s.writeWord none pa (BitVec.ofNat 32 (leNat data)) else s
        else if s.stopped then s
        else s.pcieWrite pa data

/-! ### The inspection port (R59, R228, R255, R490, R536, R537, R638) -/

namespace State

/-- The port reads zero and its error bit is set. -/
def inspectFail (s : State) : State := State.answer { s with inspErr := true } .inspect .done (leBytes 0 4)

/-- The word is memory that the port can read: present and not uncorrectable. -/
def inspectable (s : State) (a : Nat) : Bool :=
  match s.locate a with
  | .depot | .near => s.inReserve a || !s.badIn (s.homeByte a) 4
  | .cistern _ _ _ => !s.badIn a 4
  | .unified l => decide (s.lotTier l < 2) && !s.badIn a 4
  | _ => false

/-- The word is memory that takes the port's write: present, and not of an uncorrectable codeword (R255). -/
def inspectTakes (s : State) (a : Nat) : Bool :=
  match s.locate a with
  | .depot | .near => s.inReserve a || !s.partialBad (s.homeByte a) 4
  | .cistern _ _ _ => !s.partialBad a 4
  | .unified l => decide (s.lotTier l < 2) && !s.partialBad a 4
  | _ => false

/-- The memories answer the port: while the module has main power and is not in standby, frozen or not (R642). -/
def memAnswers (s : State) : Bool :=
  s.getF pciePg Reg.PCIE_HSW_MAIN_ON == 1 && decide (s.getF mgmtPg Reg.MGMT_STANDBY_STATE < 2)

end State

/-- INSPECTION_READ: a word of the address map, without any effect of the read; undecoded or absent words and uncorrectable ones read 0
and set the port's error bit. -/
def execInspectionRead (pa : Nat) (s : State) : Host.Outcome State Fault Refusal :=
  .next <|
    if !s.inspectOn || pa % 4 != 0 then s
    else
      match s.locate pa with
      | .page pg off => if s.responds pg then s.answer .inspect .done (leBytes (s.readReg pg off true).1 4) else s
      | .tally t off =>
        if s.stopped then s
        else
          let v := if off == 4 then (s.windowRead none t 4).1 else s.viewWindow t off
          s.answer .inspect .done (leBytes v 4)
      | .imsic _ _ _ => if s.stopped then s else s.answer .inspect .done (leBytes 0 4)
      | .undecoded => s.inspectFail
      | _ =>
        if !s.memAnswers then s
        else if s.inspectable pa then s.answer .inspect .done (s.devRead pa 4)
        else s.inspectFail

/-- INSPECTION_WRITE: an ordinary write of a word without the checks of R495; a tally's window takes none. -/
def execInspectionWrite (pa : Nat) (v : W32) (s : State) : Host.Outcome State Fault Refusal :=
  .next <|
    if !s.inspectOn || pa % 4 != 0 then s
    else
      match s.locate pa with
      | .page pg off => if s.responds pg then s.writeReg pg off v else s
      | .tally _ _ => s
      | .imsic h f off => if s.stopped then s else s.imsicWrite h f off v
      | .undecoded => { s with inspErr := true }
      | _ =>
        if s.stopped then s
        else if s.inspectTakes pa then s.devWrite pa (leBytes v.toNat 4)
        else { s with inspErr := true }

end Sys2Proof.Machine
end

