-- ==== Sys2Proof/Machine/Moves.lean ====
section
/-! DEFINITION. What ends the waits of accesses (R228, R234, R240): a lot that arrives, a move that commits, a buffer
that is freed, by FREE or by a release. -/

namespace Sys2Proof.Machine

namespace State

/-- An access that waited is performed, or waits on. A packet of a queue pair waits behind those before it. -/
def serveStall (s : State) (w : Stalled) : State :=
  match w with
  | .pcieRead pa len => s.pcieRead pa len
  | .pcieWrite pa data => s.pcieWrite pa data
  | .hart h op pa size data => if (s.hart h).held then s else s.hartMemory h (s.hartTag h) op pa size data
  | .rdmaWrite key pk => s.rdmaWriteIn key pk
  | .rdmaRead key pk => s.rdmaReadIn key pk
  | .rdmaSend key pk => s.rdmaSendIn key pk
  | .nvmeDone key cid st result data => s.nvmeDone key cid st result data
  | .nvmePump key => s.pumpNvme key 1024
  | .cqe key cid result st => s.postCqe key cid result st
  | .exchange nd m => s.exchangeIn nd m
  | .memWrite r pa x => s.memWrite r pa x

/-- Every access that waits is tried again, in the order in which they came (R228, R234). -/
def serveStalls (s : State) : State := s.place.stalls.foldl serveStall { s with place := { s.place with stalls := [] } }

end State

/-- LOT_MOVE_COMMIT: a lot's move between the near store and the depot commits, and the writes that waited for it are performed
(R219, R231, R234); an uncorrectable codeword is one still, and the controller that it was read from notes it (R255). -/
def execLotMoveCommit (lot : Nat) (s : State) : Host.Outcome State Fault Refusal :=
  act s fun s =>
    match s.place.moves.find? fun m => m.lot == lot with
    | none => s
    | some m =>
      let down := s.lotTier lot == 0 && m.tier == 1
      let s := s.noteLotUe lot
      let s1 := { s with place := { s.place with moves := s.place.moves.filter fun v => v.lot != lot } }
      let s2 := (s1.takeFrame lot m.tier (if m.caravan then s.caravanAge lot else s.lotAge lot) (s.lotDirty lot) m.way).plcMarks
        (State.plcOf lot)
      (if down then s2.bump (plcPg lot) Reg.PLC_EVICT_DOWN else s2).serveStalls

/-- PAGE_IN_COMPLETE: the lot arrives in way `way` of its bucket, and what waited for it goes on. Without a free frame or a lot to
evict, a near-store page-in turns to the depot, one that only a caravan asked for is given up, and a depot page-in waits; each is counted
(R215, R222, R228, R229, R232). -/
def execPageInComplete (lot way : Nat) (s : State) : Host.Outcome State Fault Refusal :=
  act s fun s =>
    match s.place.pageins.find? fun p => p.lot == lot with
    | none => s
    | some p =>
      let tier := (s.pageAim p).1
      let b := s.bucketOf tier lot
      let c := s.lotOwner lot
      if 0 < s.freeFor tier b c then
        if s.wayFree tier b way then (s.arrive p way).serveStalls else s
      else if (s.victim tier b c).isSome || s.leaving tier b then s
      else if tier == 0 && !(s.cptSealed c && s.dpFloor c == 0) then
        let s1 := s.bump (plcPg lot) Reg.PLC_NOFRAME
        if p.asked then s1.updPageIn lot fun x => { x with turned := true } else s1.dropPageIn lot
      else if p.counted then s
      else (s.bump (plcPg lot) Reg.PLC_NOFRAME).updPageIn lot fun x => { x with counted := true }

/-- FREE_COMPLETE: no descriptor holds the buffer any more, and the FREE takes effect; an access that waited for one of its lots is now
refused (R209, R240). -/
def execFreeComplete (c : Nat) (s : State) : Host.Outcome State Fault Refusal :=
  actD .C0 s fun s =>
    match SMap.find s.place.freeing c with
    | none => s
    | some h =>
      let idx := bitsOf h 0 18
      match SMap.find s.place.bufs (c * 2 ^ 18 + idx) with
      | none => s
      | some b => if s.bufHeld b then s else ((s.freeBuffer c idx b).poolDone c stOk).serveStalls

/-- RELEASE_COMPLETE: the compartment's buffers are freed, its units scrubbed and returned, its keys destroyed (R498, R500). -/
def execReleaseComplete (c : Nat) (s : State) : Host.Outcome State Fault Refusal :=
  act s fun s =>
    match s.cptOp with
    | some (r, since) =>
      if r.cmd == 2 && r.cpt == c && s.releaseQuiet c then
        let s1 := (s.liveBufs c).foldl (fun t e => t.freeBuffer c e.1 e.2) s
        let s2 := { s1 with mrs := s1.mrs.filter fun e => s1.mrF (e.1 >>> 16) (e.1 % 2 ^ 16) 24 0 6 != c }
        let s3 := s2.setF (poolPg c) Reg.POOL_Q_CFG_ENABLE 0
        let s4 := (s3.unitsOf c).foldl (fun t u => t.scrub u.1 u.2) s3
        let s5 : State := { s4 with sealPos := s4.sealPos.filter fun e => e.2 != c }
        let s6 := (s5.setF cptPg Reg.CPT_ENT_STAT_KEY_GEN (s5.getF cptPg Reg.CPT_ENT_STAT_KEY_GEN c + 1) c).setF cptPg
          Reg.CPT_ENT_STAT_STATE 0 c
        ((s6.dropKeys c).cptEnd true since).serveStalls
      else s
    | none => s

end Sys2Proof.Machine
end

