-- ==== Sys2Proof/Machine/Dispatch.lean ====
section
/-! DEFINITION. One arm per command. -/

namespace Sys2Proof.Machine

/-- The effect of a command on everything but the queue. -/
def exec (i : Instr) (s : State) : Host.Outcome State Fault Refusal :=
  match i with
  | .dataFlitReceive d p flit => Sys2Proof.Machine.execDataFlitReceive d p flit s
  | .idleFlitReceive d p flit => Sys2Proof.Machine.execIdleFlitReceive d p flit s
  | .retryRequest d p flit => Sys2Proof.Machine.execRetryRequest d p flit s
  | .linkControlFlit d p flit => Sys2Proof.Machine.execLinkControlFlit d p flit s
  | .ackTimer d p => Sys2Proof.Machine.execAckTimer d p s
  | .flitSend d p => Sys2Proof.Machine.execFlitSend d p s
  | .messageSend x m => Sys2Proof.Machine.execMessageSend x m s
  | .laneDiagnosis d p bad => Sys2Proof.Machine.execLaneDiagnosis d p bad s
  | .laneLoss d p m l => Sys2Proof.Machine.execLaneLoss d p m l s
  | .spareSubstitution d p m l => Sys2Proof.Machine.execSpareSubstitution d p m l s
  | .halfWidthEntry d p => Sys2Proof.Machine.execHalfWidthEntry d p s
  | .linkDown d p => Sys2Proof.Machine.execLinkDown d p s
  | .matmul d n q => Sys2Proof.Machine.execMatmul d n q s
  | .matmulAcc d n q => Sys2Proof.Machine.execMatmulAcc d n q s
  | .weightPreload d e a => Sys2Proof.Machine.execWeightPreload d e a s
  | .tileComplete d e a => Sys2Proof.Machine.execTileComplete d e a s
  | .arrayDetectedError d e a w => Sys2Proof.Machine.execArrayDetectedError d e a w s
  | .targetedSelfTestDone d st pass => Sys2Proof.Machine.execTargetedSelfTestDone d st pass s
  | .transientLimit d st => Sys2Proof.Machine.execTransientLimit d st s
  | .arrayClearDone d e a => Sys2Proof.Machine.execArrayClearDone d e a s
  | .feCtxEnable d => Sys2Proof.Machine.execFeCtxEnable d s
  | .feCtxDrain d => Sys2Proof.Machine.execFeCtxDrain d s
  | .feCtxAbort d => Sys2Proof.Machine.execFeCtxAbort d s
  | .feCtxDataWrite d w v => Sys2Proof.Machine.execFeCtxDataWrite d w v s
  | .dbRing d c v => Sys2Proof.Machine.execDbRing d c v s
  | .descriptorFetch d n => Sys2Proof.Machine.execDescriptorFetch d n s
  | .descriptorStart d n q => Sys2Proof.Machine.execDescriptorStart d n q s
  | .completionRecordWrite d n => Sys2Proof.Machine.execCompletionRecordWrite d n s
  | .fillStart d e => Sys2Proof.Machine.execFillStart d e s
  | .fillPreempt d e => Sys2Proof.Machine.execFillPreempt d e s
  | .fillResume d e => Sys2Proof.Machine.execFillResume d e s
  | .engFillCistWrite d e v => Sys2Proof.Machine.execEngFillCistWrite d e v s
  | .add d n q => Sys2Proof.Machine.execAdd d n q s
  | .sub d n q => Sys2Proof.Machine.execSub d n q s
  | .mul d n q => Sys2Proof.Machine.execMul d n q s
  | .fma d n q => Sys2Proof.Machine.execFma d n q s
  | .div d n q => Sys2Proof.Machine.execDiv d n q s
  | .sqrt d n q => Sys2Proof.Machine.execSqrt d n q s
  | .max d n q => Sys2Proof.Machine.execMax d n q s
  | .min d n q => Sys2Proof.Machine.execMin d n q s
  | .exp d n q => Sys2Proof.Machine.execExp d n q s
  | .log d n q => Sys2Proof.Machine.execLog d n q s
  | .recip d n q => Sys2Proof.Machine.execRecip d n q s
  | .rsqrt d n q => Sys2Proof.Machine.execRsqrt d n q s
  | .tanh d n q => Sys2Proof.Machine.execTanh d n q s
  | .sigmoid d n q => Sys2Proof.Machine.execSigmoid d n q s
  | .erf d n q => Sys2Proof.Machine.execErf d n q s
  | .convert d n q => Sys2Proof.Machine.execConvert d n q s
  | .sum d n q => Sys2Proof.Machine.execSum d n q s
  | .sumsq d n q => Sys2Proof.Machine.execSumsq d n q s
  | .dot d n q => Sys2Proof.Machine.execDot d n q s
  | .rmax d n q => Sys2Proof.Machine.execRmax d n q s
  | .partialRecordMerge d n q => Sys2Proof.Machine.execPartialRecordMerge d n q s
  | .orfValueSum d n q => Sys2Proof.Machine.execOrfValueSum d n q s
  | .anchorMaximum d n q => Sys2Proof.Machine.execAnchorMaximum d n q s
  | .nrm128Sum d n q => Sys2Proof.Machine.execNrm128Sum d n q s
  | .moveCopy d n q => Sys2Proof.Machine.execMoveCopy d n q s
  | .moveFill d n q => Sys2Proof.Machine.execMoveFill d n q s
  | .migrate d n q => Sys2Proof.Machine.execMigrate d n q s
  | .lotMoveCommit lot => Sys2Proof.Machine.execLotMoveCommit lot s
  | .nop d n q => Sys2Proof.Machine.execNop d n q s
  | .fence d n q => Sys2Proof.Machine.execFence d n q s
  | .fenceComplete d n q => Sys2Proof.Machine.execFenceComplete d n q s
  | .tallyWait d n q => Sys2Proof.Machine.execTallyWait d n q s
  | .tallySignalAdd d n q => Sys2Proof.Machine.execTallySignalAdd d n q s
  | .tallySignalSet d n q => Sys2Proof.Machine.execTallySignalSet d n q s
  | .tallyOperation ix => Sys2Proof.Machine.execTallyOperation ix s
  | .waitPoll ix => Sys2Proof.Machine.execWaitPoll ix s
  | .lockAcquire d n q => Sys2Proof.Machine.execLockAcquire d n q s
  | .lockRelease d n q => Sys2Proof.Machine.execLockRelease d n q s
  | .leaseLapse t => Sys2Proof.Machine.execLeaseLapse t s
  | .talwAdd h t v => Sys2Proof.Machine.execTalwAdd h t v s
  | .talwSetHi h t v => Sys2Proof.Machine.execTalwSetHi h t v s
  | .talwTry h t => Sys2Proof.Machine.execTalwTry h t s
  | .talwRelease h t => Sys2Proof.Machine.execTalwRelease h t s
  | .talwClearAbandoned h t => Sys2Proof.Machine.execTalwClearAbandoned h t s
  | .talCfgWrite d v => Sys2Proof.Machine.execTalCfgWrite d v s
  | .hartDebugEnter h => Sys2Proof.Machine.execHartDebugEnter h s
  | .hartDebugExit h => Sys2Proof.Machine.execHartDebugExit h s
  | .ageStep k => Sys2Proof.Machine.execAgeStep k s
  | .evictAhead near bucket way => Sys2Proof.Machine.execEvictAhead near bucket way s
  | .writebackComplete lot => Sys2Proof.Machine.execWritebackComplete lot s
  | .pageInComplete lot way => Sys2Proof.Machine.execPageInComplete lot way s
  | .plcQueryLot k v => Sys2Proof.Machine.execPlcQueryLot k v s
  | .poolQTail c v => Sys2Proof.Machine.execPoolQTail c v s
  | .poolQEnable c v => Sys2Proof.Machine.execPoolQEnable c v s
  | .poolRequestFetch c => Sys2Proof.Machine.execPoolRequestFetch c s
  | .alloc c base idx => Sys2Proof.Machine.execAlloc c base idx s
  | .free c => Sys2Proof.Machine.execFree c s
  | .freeComplete c => Sys2Proof.Machine.execFreeComplete c s
  | .setPlacement c => Sys2Proof.Machine.execSetPlacement c s
  | .memRead r pa x tagBad => Sys2Proof.Machine.execMemRead r pa x tagBad s
  | .memWrite r pa x => Sys2Proof.Machine.execMemWrite r pa x s
  | .narrowRead k pa x => Sys2Proof.Machine.execNarrowRead k pa x s
  | .narrowWaitExpiry d ch => Sys2Proof.Machine.execNarrowWaitExpiry d ch s
  | .refreshDue d ch => Sys2Proof.Machine.execRefreshDue d ch s
  | .refreshPullIn d ch => Sys2Proof.Machine.execRefreshPullIn d ch s
  | .calibrationDue d ch => Sys2Proof.Machine.execCalibrationDue d ch s
  | .forcedCalibration d ch => Sys2Proof.Machine.execForcedCalibration d ch s
  | .calibrationEnd d ch => Sys2Proof.Machine.execCalibrationEnd d ch s
  | .guaranteedScrub d ch errs => Sys2Proof.Machine.execGuaranteedScrub d ch errs s
  | .patrolScrub d ch errs => Sys2Proof.Machine.execPatrolScrub d ch errs s
  | .dqPairMark d ch pair => Sys2Proof.Machine.execDqPairMark d ch pair s
  | .telemetrySample d => Sys2Proof.Machine.execTelemetrySample d s
  | .stackTemperatureSample d temp => Sys2Proof.Machine.execStackTemperatureSample d temp s
  | .mr4Read d ch rate => Sys2Proof.Machine.execMr4Read d ch rate s
  | .localGibWrite v => Sys2Proof.Machine.execLocalGibWrite v s
  | .update d n q => Sys2Proof.Machine.execUpdate d n q s
  | .updateAdmit d n q => Sys2Proof.Machine.execUpdateAdmit d n q s
  | .updateLotApply d n q l => Sys2Proof.Machine.execUpdateLotApply d n q l s
  | .dsRecordWrite u => Sys2Proof.Machine.execDsRecordWrite u s
  | .updDsTail u v => Sys2Proof.Machine.execUpdDsTail u v s
  | .updDsCfgWrite u off v => Sys2Proof.Machine.execUpdDsCfgWrite u off v s
  | .orderGapTimeout d n q => Sys2Proof.Machine.execOrderGapTimeout d n q s
  | .snapshot d n q => Sys2Proof.Machine.execSnapshot d n q s
  | .snapshotLotShip d n q l => Sys2Proof.Machine.execSnapshotLotShip d n q l s
  | .snapshotAck d n q l => Sys2Proof.Machine.execSnapshotAck d n q l s
  | .snapshotDelayLimit d n q l => Sys2Proof.Machine.execSnapshotDelayLimit d n q l s
  | .lookup d n q => Sys2Proof.Machine.execLookup d n q s
  | .lookupGrad d n q => Sys2Proof.Machine.execLookupGrad d n q s
  | .lookupRowUpdate d n q row => Sys2Proof.Machine.execLookupRowUpdate d n q row s
  | .load v => Sys2Proof.Machine.execLoad v s
  | .loadComplete => Sys2Proof.Machine.execLoadComplete s
  | .unload v => Sys2Proof.Machine.execUnload v s
  | .switch v => Sys2Proof.Machine.execSwitch v s
  | .tombstone v => Sys2Proof.Machine.execTombstone v s
  | .revive v => Sys2Proof.Machine.execRevive v s
  | .sweep tbl => Sys2Proof.Machine.execSweep tbl s
  | .hotSlotFree tbl sl w hot => Sys2Proof.Machine.execHotSlotFree tbl sl w hot s
  | .netPortModeWrite d p v => Sys2Proof.Machine.execNetPortModeWrite d p v s
  | .portLinkUp d p sub => Sys2Proof.Machine.execPortLinkUp d p sub s
  | .ethLaneLockLoss d p lane => Sys2Proof.Machine.execEthLaneLockLoss d p lane s
  | .qpEnable d => Sys2Proof.Machine.execQpEnable d s
  | .qpReset d => Sys2Proof.Machine.execQpReset d s
  | .send d n q => Sys2Proof.Machine.execSend d n q s
  | .rdmaWrite d n q => Sys2Proof.Machine.execRdmaWrite d n q s
  | .rdmaRead d n q => Sys2Proof.Machine.execRdmaRead d n q s
  | .recv d n q => Sys2Proof.Machine.execRecv d n q s
  | .inboundRdmaWrite d ix pk => Sys2Proof.Machine.execInboundRdmaWrite d ix pk s
  | .inboundRdmaRead d ix pk => Sys2Proof.Machine.execInboundRdmaRead d ix pk s
  | .inboundSend d ix pk => Sys2Proof.Machine.execInboundSend d ix pk s
  | .rdmaAck d ix psn => Sys2Proof.Machine.execRdmaAck d ix psn s
  | .rdmaNak d ix psn kind => Sys2Proof.Machine.execRdmaNak d ix psn kind s
  | .rdmaReadResponse d ix pk => Sys2Proof.Machine.execRdmaReadResponse d ix pk s
  | .ackTimeout d ix => Sys2Proof.Machine.execAckTimeout d ix s
  | .cnpReceive d ix => Sys2Proof.Machine.execCnpReceive d ix s
  | .dcqcnRateIncrease d ix => Sys2Proof.Machine.execDcqcnRateIncrease d ix s
  | .register d => Sys2Proof.Machine.execRegister d s
  | .deregister d => Sys2Proof.Machine.execDeregister d s
  | .netQpDb d v => Sys2Proof.Machine.execNetQpDb d v s
  | .nvmeCompletion d ix cid status result data => Sys2Proof.Machine.execNvmeCompletion d ix cid status result data s
  | .fileQueueRead d ix => Sys2Proof.Machine.execFileQueueRead d ix s
  | .fileQueueWrite d ix => Sys2Proof.Machine.execFileQueueWrite d ix s
  | .fileQueueWriteDone d ix => Sys2Proof.Machine.execFileQueueWriteDone d ix s
  | .fileQueueFlush d ix => Sys2Proof.Machine.execFileQueueFlush d ix s
  | .fileQueueWriteZeroes d ix => Sys2Proof.Machine.execFileQueueWriteZeroes d ix s
  | .fileQueueDeallocate d ix => Sys2Proof.Machine.execFileQueueDeallocate d ix s
  | .netPtpAdj v => Sys2Proof.Machine.execNetPtpAdj v s
  | .netPtpStep v => Sys2Proof.Machine.execNetPtpStep v s
  | .applyAtSecond => Sys2Proof.Machine.execApplyAtSecond s
  | .ppsOutEdge => Sys2Proof.Machine.execPpsOutEdge s
  | .ppsInEdge => Sys2Proof.Machine.execPpsInEdge s
  | .exchangeDispatch d n q => Sys2Proof.Machine.execExchangeDispatch d n q s
  | .exchangeCombine d n q => Sys2Proof.Machine.execExchangeCombine d n q s
  | .exchangeMessage x m => Sys2Proof.Machine.execExchangeMessage x m s
  | .reduceNetBoth d n q => Sys2Proof.Machine.execReduceNetBoth d n q s
  | .reduceNetAnchor d n q => Sys2Proof.Machine.execReduceNetAnchor d n q s
  | .reduceNetValue d n q => Sys2Proof.Machine.execReduceNetValue d n q s
  | .reduceNetNrm128 d n q => Sys2Proof.Machine.execReduceNetNrm128 d n q s
  | .gatherWindow d n q => Sys2Proof.Machine.execGatherWindow d n q s
  | .windowRelease x w => Sys2Proof.Machine.execWindowRelease x w s
  | .xchWinRelease x => Sys2Proof.Machine.execXchWinRelease x s
  | .start k => Sys2Proof.Machine.execStart k s
  | .stop k => Sys2Proof.Machine.execStop k s
  | .admitRank k r => Sys2Proof.Machine.execAdmitRank k r s
  | .resume k => Sys2Proof.Machine.execResume k s
  | .heartbeatSend k => Sys2Proof.Machine.execHeartbeatSend k s
  | .heartbeat k m => Sys2Proof.Machine.execHeartbeat k m s
  | .hbReply k m => Sys2Proof.Machine.execHbReply k m s
  | .workerLost k r => Sys2Proof.Machine.execWorkerLost k r s
  | .managerLost k => Sys2Proof.Machine.execManagerLost k s
  | .takeoverTimer k => Sys2Proof.Machine.execTakeoverTimer k s
  | .takeover k m => Sys2Proof.Machine.execTakeover k m s
  | .query k m => Sys2Proof.Machine.execQuery k m s
  | .state k m => Sys2Proof.Machine.execState k m s
  | .convBarrier k v => Sys2Proof.Machine.execConvBarrier k v s
  | .arrive k m => Sys2Proof.Machine.execArrive k m s
  | .release k m => Sys2Proof.Machine.execRelease k m s
  | .convReady k v => Sys2Proof.Machine.execConvReady k v s
  | .ready k m => Sys2Proof.Machine.execReady k m s
  | .commit k m => Sys2Proof.Machine.execCommit k m s
  | .convApplied k v => Sys2Proof.Machine.execConvApplied k v s
  | .applied k m => Sys2Proof.Machine.execApplied k m s
  | .abortStep k m => Sys2Proof.Machine.execAbortStep k m s
  | .prepBatch d n q => Sys2Proof.Machine.execPrepBatch d n q s
  | .xltInvGo d => Sys2Proof.Machine.execXltInvGo d s
  | .invalidationAck d g => Sys2Proof.Machine.execInvalidationAck d g s
  | .rdShared x line => Sys2Proof.Machine.execRdShared x line s
  | .rdUnique x line => Sys2Proof.Machine.execRdUnique x line s
  | .upgrade x line => Sys2Proof.Machine.execUpgrade x line s
  | .rdOnce line => Sys2Proof.Machine.execRdOnce line s
  | .wrLine line data => Sys2Proof.Machine.execWrLine line data s
  | .wrPart line off data => Sys2Proof.Machine.execWrPart line off data s
  | .snpShared x line => Sys2Proof.Machine.execSnpShared x line s
  | .snpInv x line => Sys2Proof.Machine.execSnpInv x line s
  | .snpOnce x line => Sys2Proof.Machine.execSnpOnce x line s
  | .snpResp ring line => Sys2Proof.Machine.execSnpResp ring line s
  | .data line => Sys2Proof.Machine.execData line s
  | .wbDirty x line => Sys2Proof.Machine.execWbDirty x line s
  | .wbAck x line => Sys2Proof.Machine.execWbAck x line s
  | .comp line => Sys2Proof.Machine.execComp line s
  | .compAck line => Sys2Proof.Machine.execCompAck line s
  | .msiDelivery ix keep => Sys2Proof.Machine.execMsiDelivery ix keep s
  | .cohMsiFlush => Sys2Proof.Machine.execCohMsiFlush s
  | .hartAccess h op pa size data => Sys2Proof.Machine.execHartAccess h op pa size data s
  | .pcieInboundRead bar off len => Sys2Proof.Machine.execPcieInboundRead bar off len s
  | .pcieInboundWrite bar off data => Sys2Proof.Machine.execPcieInboundWrite bar off data s
  | .inspectionRead pa => Sys2Proof.Machine.execInspectionRead pa s
  | .inspectionWrite pa v => Sys2Proof.Machine.execInspectionWrite pa v s
  | .create => Sys2Proof.Machine.execCreate s
  | .compartmentRelease => Sys2Proof.Machine.execCompartmentRelease s
  | .releaseComplete c => Sys2Proof.Machine.execReleaseComplete c s
  | .grant => Sys2Proof.Machine.execGrant s
  | .grantComplete => Sys2Proof.Machine.execGrantComplete s
  | .returnUnit => Sys2Proof.Machine.execReturnUnit s
  | .returnComplete => Sys2Proof.Machine.execReturnComplete s
  | .cptLock => Sys2Proof.Machine.execCptLock s
  | .cptEntCfgWrite v => Sys2Proof.Machine.execCptEntCfgWrite v s
  | .openBuf c => Sys2Proof.Machine.execOpenBuf c s
  | .closeBuf c => Sys2Proof.Machine.execCloseBuf c s
  | .pageEnable r pg v => Sys2Proof.Machine.execPageEnable r pg v s
  | .blockReset r pg => Sys2Proof.Machine.execBlockReset r pg s
  | .blockResetEnd pg => Sys2Proof.Machine.execBlockResetEnd pg s
  | .applyRequest pg v => Sys2Proof.Machine.execApplyRequest pg v s
  | .applyCancel pg => Sys2Proof.Machine.execApplyCancel pg s
  | .applyAtBoundary pg => Sys2Proof.Machine.execApplyAtBoundary pg s
  | .pageIrqEnWrite pg v => Sys2Proof.Machine.execPageIrqEnWrite pg v s
  | .tvRevote pg => Sys2Proof.Machine.execTvRevote pg s
  | .registerWrite r pg off v => Sys2Proof.Machine.execRegisterWrite r pg off v s
  | .sourceQualified src => Sys2Proof.Machine.execSourceQualified src s
  | .sourceLoss src => Sys2Proof.Machine.execSourceLoss src s
  | .clockSourceSwitch => Sys2Proof.Machine.execClockSourceSwitch s
  | .pllLock => Sys2Proof.Machine.execPllLock s
  | .clkSrcSelWrite v => Sys2Proof.Machine.execClkSrcSelWrite v s
  | .clkSscWrite v => Sys2Proof.Machine.execClkSscWrite v s
  | .clkIslMaxWrite d v => Sys2Proof.Machine.execClkIslMaxWrite d v s
  | .frequencyStep d isl up => Sys2Proof.Machine.execFrequencyStep d isl up s
  | .clkModeWrite d v => Sys2Proof.Machine.execClkModeWrite d v s
  | .crossingModeChange d isl async => Sys2Proof.Machine.execCrossingModeChange d isl async s
  | .powerRound demands => Sys2Proof.Machine.execPowerRound demands s
  | .budgetMessage d src round demand => Sys2Proof.Machine.execBudgetMessage d src round demand s
  | .capRaise d => Sys2Proof.Machine.execCapRaise d s
  | .powerMeasure d p => Sys2Proof.Machine.execPowerMeasure d p s
  | .thermalSample d readings => Sys2Proof.Machine.execThermalSample d readings s
  | .thermalHysteresisTimer d => Sys2Proof.Machine.execThermalHysteresisTimer d s
  | .leverSwitchClose => Sys2Proof.Machine.execLeverSwitchClose s
  | .auxPathOn slotId => Sys2Proof.Machine.execAuxPathOn slotId s
  | .rom => Sys2Proof.Machine.execRom s
  | .mc => Sys2Proof.Machine.execMc s
  | .mainPower => Sys2Proof.Machine.execMainPower s
  | .links bad => Sys2Proof.Machine.execLinks bad s
  | .memory badStacks badSets => Sys2Proof.Machine.execMemory badStacks badSets s
  | .bist failed notRun => Sys2Proof.Machine.execBist failed notRun s
  | .host => Sys2Proof.Machine.execHost s
  | .openBoot => Sys2Proof.Machine.execOpenBoot s
  | .leverSwitchOpen => Sys2Proof.Machine.execLeverSwitchOpen s
  | .inputUndervoltage mv => Sys2Proof.Machine.execInputUndervoltage mv s
  | .inputOvervoltage mv => Sys2Proof.Machine.execInputOvervoltage mv s
  | .overvoltageRecovery slotId => Sys2Proof.Machine.execOvervoltageRecovery slotId s
  | .mainOvercurrent ma => Sys2Proof.Machine.execMainOvercurrent ma s
  | .uvWarn mv => Sys2Proof.Machine.execUvWarn mv s
  | .attentionButtonPress => Sys2Proof.Machine.execAttentionButtonPress s
  | .abortWindowExpiry => Sys2Proof.Machine.execAbortWindowExpiry s
  | .startDrain => Sys2Proof.Machine.execStartDrain s
  | .drainDone => Sys2Proof.Machine.execDrainDone s
  | .cancel => Sys2Proof.Machine.execCancel s
  | .drainTimeout => Sys2Proof.Machine.execDrainTimeout s
  | .poweringDown => Sys2Proof.Machine.execPoweringDown s
  | .powerDownLinkTimeout => Sys2Proof.Machine.execPowerDownLinkTimeout s
  | .powerDownComplete => Sys2Proof.Machine.execPowerDownComplete s
  | .modResetN => Sys2Proof.Machine.execModResetN s
  | .perstNAssert => Sys2Proof.Machine.execPerstNAssert s
  | .perstNDeassert => Sys2Proof.Machine.execPerstNDeassert s
  | .hotReset => Sys2Proof.Machine.execHotReset s
  | .functionLevelReset => Sys2Proof.Machine.execFunctionLevelReset s
  | .pldmReset => Sys2Proof.Machine.execPldmReset s
  | .pldmWake => Sys2Proof.Machine.execPldmWake s
  | .pldmIdentify seconds => Sys2Proof.Machine.execPldmIdentify seconds s
  | .pldmSetTime sec => Sys2Proof.Machine.execPldmSetTime sec s
  | .pldmFreeze => Sys2Proof.Machine.execPldmFreeze s
  | .pldmThaw => Sys2Proof.Machine.execPldmThaw s
  | .pldmFirmwareUpdate image => Sys2Proof.Machine.execPldmFirmwareUpdate image s
  | .pldmSensorRead sensor => Sys2Proof.Machine.execPldmSensorRead sensor s
  | .pldmFruRead => Sys2Proof.Machine.execPldmFruRead s
  | .entdaa addr => Sys2Proof.Machine.execEntdaa addr s
  | .resetCmdModule => Sys2Proof.Machine.execResetCmdModule s
  | .resetCmdDie target => Sys2Proof.Machine.execResetCmdDie target s
  | .resetCmdCompartment target => Sys2Proof.Machine.execResetCmdCompartment target s
  | .coreHold target => Sys2Proof.Machine.execCoreHold target s
  | .coreRelease target => Sys2Proof.Machine.execCoreRelease target s
  | .dieRecoveryComplete d => Sys2Proof.Machine.execDieRecoveryComplete d s
  | .park d => Sys2Proof.Machine.execPark d s
  | .unpark d => Sys2Proof.Machine.execUnpark d s
  | .standbyEnter keepH0 => Sys2Proof.Machine.execStandbyEnter keepH0 s
  | .standbyWake => Sys2Proof.Machine.execStandbyWake s
  | .h0L3Miss h => Sys2Proof.Machine.execH0L3Miss h s
  | .wakeComplete => Sys2Proof.Machine.execWakeComplete s
  | .errorDetected d st cls pa => Sys2Proof.Machine.execErrorDetected d st cls pa s
  | .writeLost r pa retired => Sys2Proof.Machine.execWriteLost r pa retired s
  | .bistRun d => Sys2Proof.Machine.execBistRun d s
  | .bistComplete d isl sig vOk => Sys2Proof.Machine.execBistComplete d isl sig vOk s
  | .injArm pg => Sys2Proof.Machine.execInjArm pg s
  | .tstRun pg pass => Sys2Proof.Machine.execTstRun pg pass s
  | .freezeN => Sys2Proof.Machine.execFreezeN s
  | .freezeDebug => Sys2Proof.Machine.execFreezeDebug s
  | .freezeCapture => Sys2Proof.Machine.execFreezeCapture s
  | .thaw => Sys2Proof.Machine.execThaw s
  | .thawLimitExpiry => Sys2Proof.Machine.execThawLimitExpiry s
  | .scanShift recirculate => Sys2Proof.Machine.execScanShift recirculate s
  | .instrumentWrite => Sys2Proof.Machine.execInstrumentWrite s
  | .inspectEn level => Sys2Proof.Machine.execInspectEn level s
  | .hourlyRecord mvh => Sys2Proof.Machine.execHourlyRecord mvh s
  | .eraseAhead => Sys2Proof.Machine.execEraseAhead s
  | .pageProgramFail erase => Sys2Proof.Machine.execPageProgramFail erase s
  | .ledgRtcHi v => Sys2Proof.Machine.execLedgRtcHi v s
  | .ptpRtcSet => Sys2Proof.Machine.execPtpRtcSet s
  | .ledgLogData7 r => Sys2Proof.Machine.execLedgLogData7 r s
  | .warehouseCreditExhausted d => Sys2Proof.Machine.execWarehouseCreditExhausted d s
  | .warehouseWorn d => Sys2Proof.Machine.execWarehouseWorn d s
  | .reserveLow d => Sys2Proof.Machine.execReserveLow d s
  | .serviceTagDraw => Sys2Proof.Machine.execServiceTagDraw s
  | .tagRefreshDone => Sys2Proof.Machine.execTagRefreshDone s
  | .redraw => Sys2Proof.Machine.execRedraw s
  | .svcLocate v => Sys2Proof.Machine.execSvcLocate v s
  | .locateExpiry => Sys2Proof.Machine.execLocateExpiry s
  | .sounderShort => Sys2Proof.Machine.execSounderShort s
  | .sounderRetry short => Sys2Proof.Machine.execSounderRetry short s
  | .svcSndClear => Sys2Proof.Machine.execSvcSndClear s
  | .pcieLinkUp speed width flitMode => Sys2Proof.Machine.execPcieLinkUp speed width flitMode s
  | .pcieLinkDown => Sys2Proof.Machine.execPcieLinkDown s
  | .pfcPauseFrameReceive d p prio quanta => Sys2Proof.Machine.execPfcPauseFrameReceive d p prio quanta s
  | .undervoltageLockoutRelease mv => Sys2Proof.Machine.execUndervoltageLockoutRelease mv s
  | .reducedRangeExit mv => Sys2Proof.Machine.execReducedRangeExit mv s
  | .auxiliaryPathOff => Sys2Proof.Machine.execAuxiliaryPathOff s
  | .supercapacitorRunDown => Sys2Proof.Machine.execSupercapacitorRunDown s
  | .garbageCollection d moved freed => Sys2Proof.Machine.execGarbageCollection d moved freed s
  | .creditAccrual d => Sys2Proof.Machine.execCreditAccrual d s
  | .standbyEntryComplete => Sys2Proof.Machine.execStandbyEntryComplete s

end Sys2Proof.Machine
end

