-- ==== Sys2Proof/Safety.lean ====
section
/-! DEFINITION. What a safe run is: no step of it stops with a fault or a refusal; and the conditions under which the parts of the
module run, in the words that the statements use. -/

namespace Sys2Proof

/-- `k` steps from `s` all answer a next state. -/
def SafeRun (k : Nat) (s : Machine.State) : Prop := ∃ t, core.run k s = .next t

namespace Machine.State

/-- The module is in service: main power is on, it is not frozen and not in standby (R582, R615, R640). -/
abbrev Live (s : State) : Prop := s.stopped = false

/-- The module is in service, and die `d` is neither in a recovery reset nor stopped by its temperature (R564, R610). -/
abbrev LiveOn (s : State) (d : Die) : Prop := s.stopped = false ∧ s.dieDown d = false

/-- The always-on island has power (R582). -/
abbrev AuxOn (s : State) : Prop := s.getF pciePg Reg.PCIE_HSW_AUX_ON = 1

/-- Descriptor `x` of the opcode runs in slot `q` of stream `n`, no self-test pauses the stream, and no lot that it writes moves
(R234). -/
abbrev RunningDesc (s : State) (d : Die) (n q op : Nat) (x : Desc) : Prop :=
  s.LiveOn d ∧ s.desc? d n q = some x ∧ x.phase = .running ∧ x.op = op ∧ s.streamPaused d n = false
    ∧ s.writesMoving x = false
    ∧ s.writesMoving x = false

/-- The stream's class may run on its engine (R191, R192). -/
abbrev ClassRuns (s : State) (d : Die) (n : Nat) : Prop := s.classRuns d n = true

/-- In `t` the descriptor in slot `q` of stream `n` has ended with status `st` (R185). -/
def Ended (t : State) (d : Die) (n q st : Nat) : Prop :=
  ∃ y, t.desc? d n q = some y ∧ y.phase = .ended ∧ y.status = st

/-- The descriptor's tally is in a mode and belongs to the stream's compartment (R467). -/
abbrev OwnTally (s : State) (d : Die) (n : Nat) (x : Desc) (mode : Nat) : Prop := s.tallyIs d n (State.bodyTally x) mode = true

/-- Hart `h` runs and reaches the window of tally `t`: every access is unchecked until MGMT_BOOT.OPEN, and from then on the tally
must belong to the hart's compartment (R489, R495, R604). -/
abbrev WindowOpen (s : State) (h t : Nat) : Prop :=
  s.Live ∧ (s.hart h).held = false ∧ t < 16384
    ∧ (s.getF mgmtPg Reg.MGMT_BOOT_OPEN = 0 ∨ ((s.hartCpt h).isSome = true ∧ s.hartCpt h = s.tallyOwner t))

/-- The pool queue of compartment `c` runs, and the request in hand, from slot `k`, holds `raw` with the operation `op` (R237). -/
abbrev PoolHas (s : State) (c op k raw : Nat) : Prop :=
  s.LiveOn .C0 ∧ s.poolReq c = some (k, raw) ∧ reqF raw 0 0 8 = op ∧ s.runs (poolPg c) = true ∧ SMap.find s.place.freeing c = none

/-- Queue pair `k` sends on logical port `lp`, on which no pause holds its priority (R344). -/
abbrev QpSends (s : State) (k lp : Nat) : Prop := (s.qp k).port = some lp ∧ s.pausedOn lp (s.qpPrio k) = false

/-- The frames of a message of queue pair `k` that leave on port `lp` now, with the pair's priority and the port's time stamp (R344,
R360). -/
def netFrames (s : State) (k lp count : Nat) (m : NetMsg) : Frames := ⟨some lp, some (s.qpPrio k), count, s.stampNow, m⟩

/-- Frame `pk`, of a length that R344 allows and without an ECN mark, carries a packet that queue pair `i` takes in PSN order, none of its
packets waiting for a lot (R346, R352). -/
abbrev InTurn (s : State) (d : Die) (i : Nat) (pk : Packet) : Prop :=
  s.LiveOn d ∧ isNet d = true ∧ pk.op = .verb ∧ 64 ≤ pk.size ∧ pk.size ≤ 9216 ∧ pk.ce = false ∧ s.qpTakes (qpKey d i) = true
    ∧ s.qpStalled (qpKey d i) = false ∧ pk.psn % 2 ^ 24 = (s.qp (qpKey d i)).rq

/-- Entry `v` of opcode `op` is at the head of file queue `i`, which is in RTS on an engine that runs; `t` is the state once it has been
read (R358). -/
abbrev FileHead (s : State) (d : Die) (i op v : Nat) (t : State) : Prop :=
  s.LiveOn d ∧ isNet d = true ∧ s.qpKind (qpKey d i) = 3 ∧ s.qpSt (qpKey d i) = 1 ∧ s.rdmaRuns (qpKey d i) = true
    ∧ s.headSqe (qpKey d i) = (some v, t) ∧ sqeOp v = op

/-- The data of entry `v` is reached through the queue's table at `pins`; `t` is the state once it has been walked (R358). -/
abbrev FileData (s : State) (k v len : Nat) (wr : Bool) (pins : SMap Nat) (t : State) : Prop :=
  s.xlateRange (netDie (k >>> 14)) (s.qpCpt k) (s.qpRoot k) (sqeVa v) len wr = (.ok pins, t)

/-- Descriptor `x` has read its plan, what it names is resident, and the engine of its plan, of key `key`, is free for it (R362 to
R364). -/
abbrev PlanReady (s : State) (d : Die) (n q op : Nat) (x : Desc) (key : Nat) : Prop :=
  s.RunningDesc d n q op x ∧ x.aux = [] ∧ x.layout ≠ 0 ∧ s.absentLots (State.descLots x) = []
    ∧ key = s.xchNd x.plNdie * 2 + (decide (op = 0x29)).toNat ∧ s.runs (xchPg (s.xchNd x.plNdie)) = true ∧ s.xchRun key = none
    ∧ s.badV x.pins x.plPeer (32 * x.plGroup) = false ∧ (State.peersOf x).all (s.peerOk (s.ctxCpt d n) x) = true

/-- The network die `d` is in service and its exchange engine runs. -/
abbrev XchOn (s : State) (d : Die) : Prop := s.LiveOn d ∧ isNet d = true ∧ s.runs (xchPg (netNo d)) = true

/-- The engine of network die `d` runs, no lot moves, and no message to it waits (R234). -/
abbrev XchTakes (s : State) (d : Die) : Prop := s.XchOn d ∧ s.place.moves = [] ∧ ∀ w ∈ s.place.stalls, ∀ m, w ≠ .exchange (netNo d) m

/-- The page of coordination context `k` runs. -/
abbrev ConvOn (s : State) (k : Nat) : Prop := s.LiveOn .N0 ∧ s.runs (convPg k) = true

/-- Hart `h` runs, and its die with it (R440, R613, R640). -/
abbrev HartRuns (s : State) (h : Nat) : Prop :=
  h < 96 ∧ (s.hart h).held = false ∧ (s.hart h).debug = false ∧ s.frozen = false ∧ s.getF pciePg Reg.PCIE_HSW_MAIN_ON = 1
    ∧ s.dieDown (if h < 48 then .H0 else .H1) = false ∧ s.getF mgmtPg Reg.MGMT_STANDBY_STATE < 2

/-- The address lies in the depot, the near store or the unified range (R56). -/
def memoryAt (s : State) (a : Nat) : Prop := s.locate a = .depot ∨ s.locate a = .near ∨ ∃ l, s.locate a = .unified l

/-- The access of hart `h` is checked, or the address is not a direct one, which an unchecked access reaches through the placement map
(R206, R495, R604). -/
abbrev Mapped (s : State) (h pa : Nat) : Prop := (s.hartTag h).isSome = true ∨ unifiedBase ≤ pa

/-- No access of the table is under way or waits (R498). -/
abbrev TableFree (s : State) : Prop := s.AuxOn ∧ s.cptOp = none ∧ s.cptQueue = []

/-- The page exists and answers (R519, R640). -/
abbrev PageOn (s : State) (pg : Page) : Prop := pageExists pg = true ∧ s.responds pg = true

/-- The management buses answer (R584, R602). -/
abbrev BusesOn (s : State) : Prop := s.AuxOn ∧ 2 ≤ s.getF mgmtPg Reg.MGMT_BOOT_STAGE

/-- The clock and power controllers run (R559, R615). -/
abbrev Powered (s : State) : Prop := s.getF pciePg Reg.PCIE_HSW_MAIN_ON = 1 ∧ s.getF mgmtPg Reg.MGMT_STANDBY_STATE < 2

/-- The channel of codeword `w` is in service and not stalled by a calibration, nothing waits for it, and no narrow read's wait is over
(R262, R265, R269). -/
abbrev ChannelFree (s : State) (w : Cw) : Prop :=
  s.dieDown w.die = false ∧ s.calStalls w.die w.ch = false ∧ (s.chan w.die w.ch).fg = []
    ∧ ∀ x ∈ (s.chan w.die w.ch).narrow, s.base < x.since + s.narrowWait w.die

/-- No word of a register page has changed but the memory controllers' (R272). -/
def SameWords (s t : State) : Prop :=
  ∀ (pg : Page) (off b : Nat), pg.blk ≠ .hbmc → pg.blk ≠ .depc → pg.inst < 256 → off < 4096 → b < 2 ^ 24 → t.word pg off b = s.word pg off b

/-- Nothing outside memory that the commands of software can read has changed but the parts named: the frame of a command that
changes registers only. -/
def SameMemory (s t : State) : Prop := t.mem = s.mem ∧ t.file = s.file ∧ t.bad = s.bad

end Machine.State

/-- The command belongs to a part of the module that a freeze, standby or the loss of main power stops (R582, R615, R640). The others are
events of the links' PHYs, of the always-on island and its registers, of the clock and power controllers and of the connector, and the
accesses, which those parts answer. -/
def stopsInFreeze : Instr → Bool
  | .laneDiagnosis .. | .laneLoss .. | .spareSubstitution .. | .halfWidthEntry .. | .linkDown .. | .ethLaneLockLoss ..
  | .hartAccess .. | .pcieInboundRead .. | .pcieInboundWrite .. | .inspectionRead .. | .inspectionWrite .. | .create ..
  | .compartmentRelease .. | .grant .. | .returnUnit .. | .cptLock .. | .cptEntCfgWrite .. | .openBuf .. | .closeBuf ..
  | .pageEnable .. | .blockReset .. | .blockResetEnd .. | .applyRequest .. | .applyCancel .. | .applyAtBoundary ..
  | .pageIrqEnWrite .. | .tvRevote .. | .registerWrite .. | .sourceQualified .. | .sourceLoss .. | .clockSourceSwitch ..
  | .pllLock .. | .clkSrcSelWrite .. | .clkSscWrite .. | .clkIslMaxWrite .. | .frequencyStep .. | .clkModeWrite ..
  | .crossingModeChange .. | .powerRound .. | .budgetMessage .. | .capRaise .. | .powerMeasure .. | .thermalSample ..
  | .thermalHysteresisTimer .. | .leverSwitchClose .. | .auxPathOn .. | .rom .. | .mc .. | .mainPower .. | .leverSwitchOpen ..
  | .inputUndervoltage .. | .inputOvervoltage .. | .overvoltageRecovery .. | .mainOvercurrent .. | .uvWarn ..
  | .attentionButtonPress .. | .abortWindowExpiry .. | .startDrain .. | .drainDone .. | .cancel .. | .drainTimeout ..
  | .modResetN .. | .perstNAssert .. | .perstNDeassert .. | .hotReset .. | .functionLevelReset .. | .pldmReset ..
  | .pldmWake .. | .pldmIdentify .. | .pldmSetTime .. | .pldmFreeze .. | .pldmThaw .. | .pldmFirmwareUpdate ..
  | .pldmSensorRead .. | .pldmFruRead .. | .entdaa .. | .resetCmdModule .. | .resetCmdDie .. | .resetCmdCompartment ..
  | .coreHold .. | .coreRelease .. | .dieRecoveryComplete .. | .standbyWake .. | .h0L3Miss .. | .wakeComplete .. | .freezeN ..
  | .freezeDebug .. | .freezeCapture .. | .thaw .. | .thawLimitExpiry .. | .scanShift .. | .instrumentWrite .. | .inspectEn ..
  | .hourlyRecord .. | .eraseAhead .. | .pageProgramFail .. | .ledgRtcHi .. | .ledgLogData7 .. | .serviceTagDraw ..
  | .tagRefreshDone .. | .redraw .. | .svcLocate .. | .locateExpiry .. | .sounderShort .. | .sounderRetry .. | .svcSndClear ..
  | .pcieLinkDown .. | .undervoltageLockoutRelease .. | .reducedRangeExit .. | .auxiliaryPathOff .. | .supercapacitorRunDown .. => false
  | _ => true

/-- The command may write device memory or the warehouse file area, or make a codeword uncorrectable or good; no other one does. -/
def touchesMemory : Instr → Bool
  | .matmul .. | .matmulAcc .. | .tileComplete .. | .arrayDetectedError .. | .targetedSelfTestDone .. | .transientLimit ..
  | .arrayClearDone .. | .feCtxEnable .. | .descriptorStart .. | .completionRecordWrite .. | .add .. | .sub .. | .mul ..
  | .fma .. | .div .. | .sqrt .. | .max .. | .min .. | .exp .. | .log .. | .recip .. | .rsqrt .. | .tanh .. | .sigmoid ..
  | .erf .. | .convert .. | .sum .. | .sumsq .. | .dot .. | .rmax .. | .partialRecordMerge .. | .orfValueSum ..
  | .anchorMaximum .. | .nrm128Sum .. | .moveCopy .. | .moveFill .. | .migrate .. | .lotMoveCommit .. | .evictAhead ..
  | .writebackComplete .. | .pageInComplete .. | .poolRequestFetch .. | .alloc .. | .free .. | .freeComplete ..
  | .setPlacement .. | .memRead .. | .memWrite .. | .narrowWaitExpiry .. | .calibrationEnd .. | .guaranteedScrub ..
  | .patrolScrub .. | .updateLotApply .. | .dsRecordWrite .. | .snapshotLotShip .. | .lookup .. | .lookupRowUpdate ..
  | .loadComplete .. | .tombstone .. | .revive .. | .sweep .. | .inboundRdmaWrite .. | .inboundSend ..
  | .rdmaReadResponse .. | .netQpDb .. | .nvmeCompletion .. | .fileQueueRead .. | .fileQueueWrite ..
  | .fileQueueWriteDone .. | .fileQueueFlush .. | .fileQueueWriteZeroes .. | .fileQueueDeallocate ..
  | .exchangeDispatch .. | .exchangeCombine .. | .exchangeMessage .. | .reduceNetBoth .. | .reduceNetAnchor ..
  | .reduceNetValue .. | .reduceNetNrm128 .. | .windowRelease .. | .admitRank .. | .resume .. | .workerLost ..
  | .takeoverTimer .. | .state .. | .convReady .. | .ready .. | .commit .. | .convApplied .. | .applied .. | .prepBatch ..
  | .snpResp .. | .wbDirty .. | .hartAccess .. | .pcieInboundWrite .. | .inspectionWrite .. | .create ..
  | .compartmentRelease .. | .releaseComplete .. | .grant .. | .grantComplete .. | .returnUnit .. | .returnComplete ..
  | .pageEnable .. | .blockReset .. | .registerWrite .. | .thermalSample .. | .auxPathOn .. | .bist ..
  | .leverSwitchOpen .. | .inputUndervoltage .. | .inputOvervoltage .. | .overvoltageRecovery .. | .mainOvercurrent ..
  | .poweringDown .. | .powerDownComplete .. | .modResetN .. | .functionLevelReset .. | .pldmReset .. | .resetCmdModule ..
  | .resetCmdDie .. | .resetCmdCompartment .. | .coreHold .. | .dieRecoveryComplete .. | .park .. | .errorDetected ..
  | .bistComplete .. | .injArm .. | .tstRun .. | .standbyEntryComplete .. => true
  | _ => false

/-- The command may change an owner record of R492: the commands of the compartment table, the accesses that reach its registers, and
the starts of the module; no other one does. -/
def movesOwners : Instr → Bool
  | .hartAccess .. | .pcieInboundWrite .. | .inspectionWrite .. | .create .. | .compartmentRelease ..
  | .releaseComplete .. | .grant .. | .grantComplete .. | .returnUnit .. | .returnComplete .. | .registerWrite ..
  | .auxPathOn .. | .overvoltageRecovery .. => true
  | _ => false

/-- The parts of the state beside registers and memory that a command may leave alone. -/
inductive Part where
  | tallies
  | streams
  | engines
  | placement
  | channels
  | differences
  | registry
  | network
  | exchange
  | convoys
  | lines
  | interrupts
  | links
  | harts
  | table
  | tests
  | power
  | ledger
  | panel
  | connector
  deriving DecidableEq, Repr

/-- The command may change the tallies, with the operations on their way, the waits and acquires that poll, and the values held for
TALW_SET (R467, R469, R489); no other one does. -/
def movesTallies : Instr → Bool
  | .arrayDetectedError .. | .targetedSelfTestDone .. | .transientLimit .. | .arrayClearDone .. | .feCtxEnable ..
  | .feCtxAbort .. | .descriptorFetch .. | .completionRecordWrite .. | .tallyWait .. | .tallySignalAdd ..
  | .tallySignalSet .. | .tallyOperation .. | .waitPoll .. | .lockAcquire .. | .lockRelease .. | .leaseLapse ..
  | .talwAdd .. | .talwSetHi .. | .talwTry .. | .talwRelease .. | .talwClearAbandoned .. | .talCfgWrite ..
  | .hartDebugEnter .. | .hartDebugExit .. | .resume .. | .workerLost .. | .takeoverTimer .. | .state .. | .convBarrier ..
  | .arrive .. | .release .. | .convReady .. | .ready .. | .commit .. | .convApplied .. | .applied .. | .hartAccess ..
  | .pcieInboundRead .. | .pcieInboundWrite .. | .inspectionRead .. | .inspectionWrite .. | .create ..
  | .compartmentRelease .. | .releaseComplete .. | .grant .. | .grantComplete .. | .returnUnit .. | .returnComplete ..
  | .pageEnable .. | .blockReset .. | .registerWrite .. | .thermalSample .. | .auxPathOn .. | .bist ..
  | .leverSwitchOpen .. | .inputUndervoltage .. | .inputOvervoltage .. | .overvoltageRecovery .. | .mainOvercurrent ..
  | .poweringDown .. | .powerDownComplete .. | .modResetN .. | .functionLevelReset .. | .pldmReset .. | .resetCmdModule ..
  | .resetCmdDie .. | .resetCmdCompartment .. | .coreHold .. | .dieRecoveryComplete .. | .errorDetected ..
  | .bistComplete .. | .injArm .. | .tstRun .. | .standbyEntryComplete .. => true
  | _ => false

/-- The command may change the fetched descriptors of the streams (R157 to R166); no other one does. -/
def movesStreams : Instr → Bool
  | .matmul .. | .matmulAcc .. | .tileComplete .. | .arrayDetectedError .. | .targetedSelfTestDone .. | .transientLimit ..
  | .arrayClearDone .. | .feCtxEnable .. | .feCtxAbort .. | .descriptorFetch .. | .descriptorStart ..
  | .completionRecordWrite .. | .add .. | .sub .. | .mul .. | .fma .. | .div .. | .sqrt .. | .max .. | .min .. | .exp ..
  | .log .. | .recip .. | .rsqrt .. | .tanh .. | .sigmoid .. | .erf .. | .convert .. | .sum .. | .sumsq .. | .dot ..
  | .rmax .. | .partialRecordMerge .. | .orfValueSum .. | .anchorMaximum .. | .nrm128Sum .. | .moveCopy .. | .moveFill ..
  | .migrate .. | .lotMoveCommit .. | .nop .. | .fence .. | .fenceComplete .. | .tallyWait .. | .tallySignalAdd ..
  | .tallySignalSet .. | .tallyOperation .. | .waitPoll .. | .lockAcquire .. | .lockRelease .. | .leaseLapse ..
  | .talwAdd .. | .talwSetHi .. | .talwRelease .. | .pageInComplete .. | .freeComplete .. | .update .. | .updateAdmit ..
  | .updateLotApply .. | .orderGapTimeout .. | .snapshot .. | .snapshotLotShip .. | .snapshotAck ..
  | .snapshotDelayLimit .. | .lookup .. | .lookupGrad .. | .lookupRowUpdate .. | .qpReset .. | .send .. | .rdmaWrite ..
  | .rdmaRead .. | .recv .. | .inboundRdmaWrite .. | .inboundSend .. | .rdmaAck .. | .rdmaNak .. | .rdmaReadResponse ..
  | .ackTimeout .. | .exchangeDispatch .. | .exchangeCombine .. | .exchangeMessage .. | .reduceNetBoth ..
  | .reduceNetAnchor .. | .reduceNetValue .. | .reduceNetNrm128 .. | .gatherWindow .. | .prepBatch .. | .hartAccess ..
  | .pcieInboundWrite .. | .inspectionWrite .. | .create .. | .compartmentRelease .. | .releaseComplete .. | .grant ..
  | .grantComplete .. | .returnUnit .. | .returnComplete .. | .pageEnable .. | .blockReset .. | .registerWrite ..
  | .thermalSample .. | .auxPathOn .. | .bist .. | .leverSwitchOpen .. | .inputUndervoltage .. | .inputOvervoltage ..
  | .overvoltageRecovery .. | .mainOvercurrent .. | .poweringDown .. | .powerDownComplete .. | .modResetN ..
  | .functionLevelReset .. | .pldmReset .. | .resetCmdModule .. | .resetCmdDie .. | .resetCmdCompartment .. | .coreHold ..
  | .dieRecoveryComplete .. | .park .. | .errorDetected .. | .bistComplete .. | .injArm .. | .tstRun ..
  | .standbyEntryComplete .. => true
  | _ => false

/-- The command may change the engines, arrays and FILL work (R109, R137, R191); no other one does. -/
def movesEngines : Instr → Bool
  | .matmul .. | .matmulAcc .. | .weightPreload .. | .tileComplete .. | .arrayDetectedError .. | .targetedSelfTestDone ..
  | .transientLimit .. | .arrayClearDone .. | .feCtxAbort .. | .descriptorFetch .. | .descriptorStart .. | .fillStart ..
  | .fillPreempt .. | .fillResume .. | .add .. | .sub .. | .mul .. | .fma .. | .div .. | .sqrt .. | .max .. | .min ..
  | .exp .. | .log .. | .recip .. | .rsqrt .. | .tanh .. | .sigmoid .. | .erf .. | .convert .. | .sum .. | .sumsq ..
  | .dot .. | .rmax .. | .partialRecordMerge .. | .orfValueSum .. | .anchorMaximum .. | .nrm128Sum .. | .moveCopy ..
  | .moveFill .. | .migrate .. | .lotMoveCommit .. | .nop .. | .fenceComplete .. | .tallyWait .. | .tallySignalAdd ..
  | .tallySignalSet .. | .tallyOperation .. | .waitPoll .. | .lockAcquire .. | .lockRelease .. | .leaseLapse ..
  | .talwAdd .. | .talwSetHi .. | .talwRelease .. | .pageInComplete .. | .freeComplete .. | .update .. | .updateAdmit ..
  | .updateLotApply .. | .orderGapTimeout .. | .snapshot .. | .snapshotLotShip .. | .snapshotAck ..
  | .snapshotDelayLimit .. | .lookup .. | .lookupGrad .. | .lookupRowUpdate .. | .qpReset .. | .send .. | .rdmaWrite ..
  | .rdmaRead .. | .recv .. | .inboundRdmaWrite .. | .inboundSend .. | .rdmaAck .. | .rdmaNak .. | .rdmaReadResponse ..
  | .ackTimeout .. | .exchangeDispatch .. | .exchangeCombine .. | .exchangeMessage .. | .reduceNetBoth ..
  | .reduceNetAnchor .. | .reduceNetValue .. | .reduceNetNrm128 .. | .gatherWindow .. | .prepBatch .. | .hartAccess ..
  | .pcieInboundWrite .. | .inspectionWrite .. | .create .. | .compartmentRelease .. | .releaseComplete .. | .grant ..
  | .grantComplete .. | .returnUnit .. | .returnComplete .. | .pageEnable .. | .blockReset .. | .registerWrite ..
  | .thermalSample .. | .auxPathOn .. | .bist .. | .leverSwitchOpen .. | .inputUndervoltage .. | .inputOvervoltage ..
  | .overvoltageRecovery .. | .mainOvercurrent .. | .poweringDown .. | .powerDownComplete .. | .modResetN ..
  | .functionLevelReset .. | .pldmReset .. | .resetCmdModule .. | .resetCmdDie .. | .resetCmdCompartment .. | .coreHold ..
  | .dieRecoveryComplete .. | .park .. | .errorDetected .. | .bistComplete .. | .injArm .. | .tstRun ..
  | .standbyEntryComplete .. => true
  | _ => false

/-- The command may change the lot map, caravans, page-ins and buffers (R207, R230, R239); no other one does. -/
def movesPlacement : Instr → Bool
  | .matmul .. | .matmulAcc .. | .tileComplete .. | .arrayDetectedError .. | .targetedSelfTestDone .. | .transientLimit ..
  | .arrayClearDone .. | .feCtxEnable .. | .descriptorFetch .. | .completionRecordWrite .. | .add .. | .sub .. | .mul ..
  | .fma .. | .div .. | .sqrt .. | .max .. | .min .. | .exp .. | .log .. | .recip .. | .rsqrt .. | .tanh .. | .sigmoid ..
  | .erf .. | .convert .. | .sum .. | .sumsq .. | .dot .. | .rmax .. | .partialRecordMerge .. | .orfValueSum ..
  | .anchorMaximum .. | .nrm128Sum .. | .moveCopy .. | .moveFill .. | .migrate .. | .lotMoveCommit .. | .ageStep ..
  | .evictAhead .. | .writebackComplete .. | .pageInComplete .. | .poolRequestFetch .. | .alloc .. | .free ..
  | .freeComplete .. | .setPlacement .. | .memRead .. | .memWrite .. | .narrowWaitExpiry .. | .calibrationEnd ..
  | .update .. | .updateAdmit .. | .updateLotApply .. | .dsRecordWrite .. | .snapshot .. | .snapshotLotShip ..
  | .lookup .. | .lookupGrad .. | .lookupRowUpdate .. | .load .. | .loadComplete .. | .tombstone .. | .revive ..
  | .sweep .. | .qpReset .. | .send .. | .rdmaWrite .. | .rdmaRead .. | .inboundRdmaWrite .. | .inboundRdmaRead ..
  | .inboundSend .. | .rdmaReadResponse .. | .netQpDb .. | .nvmeCompletion .. | .fileQueueRead .. | .fileQueueWrite ..
  | .fileQueueWriteDone .. | .fileQueueFlush .. | .fileQueueWriteZeroes .. | .fileQueueDeallocate ..
  | .exchangeDispatch .. | .exchangeCombine .. | .exchangeMessage .. | .reduceNetBoth .. | .reduceNetAnchor ..
  | .reduceNetValue .. | .reduceNetNrm128 .. | .gatherWindow .. | .windowRelease .. | .admitRank .. | .resume ..
  | .workerLost .. | .takeoverTimer .. | .state .. | .convReady .. | .ready .. | .commit .. | .convApplied ..
  | .applied .. | .prepBatch .. | .snpResp .. | .wbDirty .. | .hartAccess .. | .pcieInboundRead .. | .pcieInboundWrite ..
  | .inspectionWrite .. | .create .. | .compartmentRelease .. | .releaseComplete .. | .grant .. | .grantComplete ..
  | .returnUnit .. | .returnComplete .. | .pageEnable .. | .blockReset .. | .registerWrite .. | .thermalSample ..
  | .auxPathOn .. | .memory .. | .bist .. | .leverSwitchOpen .. | .inputUndervoltage .. | .inputOvervoltage ..
  | .overvoltageRecovery .. | .mainOvercurrent .. | .poweringDown .. | .powerDownLinkTimeout .. | .powerDownComplete ..
  | .modResetN .. | .perstNAssert .. | .hotReset .. | .functionLevelReset .. | .pldmReset .. | .resetCmdModule ..
  | .resetCmdDie .. | .resetCmdCompartment .. | .coreHold .. | .dieRecoveryComplete .. | .park .. | .errorDetected ..
  | .bistComplete .. | .injArm .. | .tstRun .. | .pcieLinkDown .. | .standbyEntryComplete .. => true
  | _ => false

/-- The command may change the channels, their refresh, calibration and telemetry, and the scrub positions (R264 to R272); no other one
does. -/
def movesChannels : Instr → Bool
  | .matmul .. | .matmulAcc .. | .tileComplete .. | .arrayDetectedError .. | .targetedSelfTestDone .. | .transientLimit ..
  | .arrayClearDone .. | .feCtxEnable .. | .completionRecordWrite .. | .add .. | .sub .. | .mul .. | .fma .. | .div ..
  | .sqrt .. | .max .. | .min .. | .exp .. | .log .. | .recip .. | .rsqrt .. | .tanh .. | .sigmoid .. | .erf ..
  | .convert .. | .sum .. | .sumsq .. | .dot .. | .rmax .. | .partialRecordMerge .. | .orfValueSum .. | .anchorMaximum ..
  | .nrm128Sum .. | .moveCopy .. | .moveFill .. | .lotMoveCommit .. | .pageInComplete .. | .poolRequestFetch ..
  | .alloc .. | .free .. | .freeComplete .. | .setPlacement .. | .memRead .. | .memWrite .. | .narrowRead ..
  | .narrowWaitExpiry .. | .refreshDue .. | .calibrationDue .. | .forcedCalibration .. | .calibrationEnd ..
  | .guaranteedScrub .. | .patrolScrub .. | .dqPairMark .. | .telemetrySample .. | .updateLotApply .. | .dsRecordWrite ..
  | .snapshotLotShip .. | .lookup .. | .lookupRowUpdate .. | .loadComplete .. | .tombstone .. | .revive .. | .sweep ..
  | .inboundRdmaWrite .. | .inboundSend .. | .rdmaReadResponse .. | .netQpDb .. | .nvmeCompletion .. | .fileQueueRead ..
  | .fileQueueWrite .. | .fileQueueWriteDone .. | .fileQueueFlush .. | .fileQueueWriteZeroes .. | .fileQueueDeallocate ..
  | .exchangeDispatch .. | .exchangeCombine .. | .exchangeMessage .. | .reduceNetBoth .. | .reduceNetAnchor ..
  | .reduceNetValue .. | .reduceNetNrm128 .. | .admitRank .. | .resume .. | .workerLost .. | .takeoverTimer .. | .state ..
  | .convReady .. | .ready .. | .commit .. | .convApplied .. | .applied .. | .prepBatch .. | .snpResp .. | .wbDirty ..
  | .hartAccess .. | .pcieInboundWrite .. | .inspectionWrite .. | .create .. | .compartmentRelease ..
  | .releaseComplete .. | .grant .. | .grantComplete .. | .returnUnit .. | .returnComplete .. | .pageEnable ..
  | .blockReset .. | .registerWrite .. | .thermalSample .. | .auxPathOn .. | .memory .. | .bist .. | .leverSwitchOpen ..
  | .inputUndervoltage .. | .inputOvervoltage .. | .overvoltageRecovery .. | .mainOvercurrent .. | .poweringDown ..
  | .powerDownLinkTimeout .. | .powerDownComplete .. | .modResetN .. | .perstNAssert .. | .hotReset ..
  | .functionLevelReset .. | .pldmReset .. | .resetCmdModule .. | .resetCmdDie .. | .resetCmdCompartment .. | .coreHold ..
  | .dieRecoveryComplete .. | .wakeComplete .. | .errorDetected .. | .bistComplete .. | .injArm .. | .tstRun ..
  | .pcieLinkDown .. | .standbyEntryComplete .. => true
  | _ => false

/-- The command may change the difference streams (R300); no other one does. -/
def movesDifferences : Instr → Bool
  | .arrayDetectedError .. | .targetedSelfTestDone .. | .transientLimit .. | .arrayClearDone .. | .updateLotApply ..
  | .dsRecordWrite .. | .hartAccess .. | .pcieInboundWrite .. | .inspectionWrite .. | .pageEnable .. | .blockReset ..
  | .registerWrite .. | .auxPathOn .. | .bist .. | .leverSwitchOpen .. | .inputUndervoltage .. | .inputOvervoltage ..
  | .overvoltageRecovery .. | .mainOvercurrent .. | .powerDownComplete .. | .modResetN .. | .functionLevelReset ..
  | .pldmReset .. | .resetCmdModule .. | .resetCmdDie .. | .dieRecoveryComplete .. | .errorDetected .. | .bistComplete ..
  | .injArm .. | .tstRun .. => true
  | _ => false

/-- The command may change the table slots, the load in progress, hot slots, sweeps and applied milestones (R316, R338, R339); no other one does. -/
def movesRegistry : Instr → Bool
  | .arrayDetectedError .. | .targetedSelfTestDone .. | .transientLimit .. | .arrayClearDone .. | .feCtxEnable ..
  | .completionRecordWrite .. | .updateLotApply .. | .lookupGrad .. | .lookupRowUpdate .. | .load .. | .loadComplete ..
  | .unload .. | .switch .. | .sweep .. | .hotSlotFree .. | .hartAccess .. | .pcieInboundWrite .. | .inspectionWrite ..
  | .pageEnable .. | .blockReset .. | .registerWrite .. | .thermalSample .. | .auxPathOn .. | .bist ..
  | .leverSwitchOpen .. | .inputUndervoltage .. | .inputOvervoltage .. | .overvoltageRecovery .. | .mainOvercurrent ..
  | .powerDownComplete .. | .modResetN .. | .functionLevelReset .. | .pldmReset .. | .resetCmdModule .. | .resetCmdDie ..
  | .dieRecoveryComplete .. | .errorDetected .. | .bistComplete .. | .injArm .. | .tstRun .. => true
  | _ => false

/-- The command may change the queue pairs, memory regions, waiting frames, pauses, time
protocol and the pulse (R344, R346, R355, R359, R360, R376); no other one does. -/
def movesNetwork : Instr → Bool
  | .arrayDetectedError .. | .targetedSelfTestDone .. | .transientLimit .. | .arrayClearDone .. | .lotMoveCommit ..
  | .pageInComplete .. | .freeComplete .. | .snapshotLotShip .. | .netPortModeWrite .. | .portLinkUp ..
  | .ethLaneLockLoss .. | .qpEnable .. | .qpReset .. | .send .. | .rdmaWrite .. | .rdmaRead .. | .recv ..
  | .inboundRdmaWrite .. | .inboundRdmaRead .. | .inboundSend .. | .rdmaAck .. | .rdmaNak .. | .rdmaReadResponse ..
  | .ackTimeout .. | .cnpReceive .. | .dcqcnRateIncrease .. | .register .. | .deregister .. | .netQpDb ..
  | .nvmeCompletion .. | .fileQueueRead .. | .fileQueueWrite .. | .fileQueueWriteDone .. | .fileQueueFlush ..
  | .fileQueueWriteZeroes .. | .fileQueueDeallocate .. | .ppsOutEdge .. | .exchangeDispatch .. | .exchangeCombine ..
  | .exchangeMessage .. | .reduceNetBoth .. | .reduceNetAnchor .. | .reduceNetValue .. | .reduceNetNrm128 ..
  | .gatherWindow .. | .admitRank .. | .resume .. | .heartbeatSend .. | .heartbeat .. | .workerLost .. | .takeoverTimer ..
  | .takeover .. | .query .. | .state .. | .convBarrier .. | .arrive .. | .release .. | .convReady .. | .ready ..
  | .commit .. | .convApplied .. | .applied .. | .abortStep .. | .hartAccess .. | .pcieInboundWrite ..
  | .inspectionWrite .. | .create .. | .compartmentRelease .. | .releaseComplete .. | .grant .. | .grantComplete ..
  | .returnUnit .. | .returnComplete .. | .pageEnable .. | .blockReset .. | .registerWrite .. | .sourceLoss ..
  | .thermalSample .. | .auxPathOn .. | .bist .. | .leverSwitchOpen .. | .inputUndervoltage .. | .inputOvervoltage ..
  | .overvoltageRecovery .. | .mainOvercurrent .. | .poweringDown .. | .powerDownComplete .. | .modResetN ..
  | .functionLevelReset .. | .pldmReset .. | .resetCmdModule .. | .resetCmdDie .. | .resetCmdCompartment ..
  | .dieRecoveryComplete .. | .park .. | .errorDetected .. | .bistComplete .. | .injArm .. | .tstRun ..
  | .pfcPauseFrameReceive .. | .standbyEntryComplete .. => true
  | _ => false

/-- The command may change the running exchanges and gather windows (R362, R373); no other one does. -/
def movesExchange : Instr → Bool
  | .arrayDetectedError .. | .targetedSelfTestDone .. | .transientLimit .. | .arrayClearDone .. | .feCtxEnable ..
  | .completionRecordWrite .. | .lotMoveCommit .. | .pageInComplete .. | .freeComplete .. | .qpReset .. | .rdmaAck ..
  | .rdmaNak .. | .rdmaReadResponse .. | .ackTimeout .. | .exchangeDispatch .. | .exchangeCombine .. | .exchangeMessage ..
  | .reduceNetBoth .. | .reduceNetAnchor .. | .reduceNetValue .. | .reduceNetNrm128 .. | .gatherWindow ..
  | .windowRelease .. | .xchWinRelease .. | .hartAccess .. | .pcieInboundWrite .. | .inspectionWrite .. | .create ..
  | .compartmentRelease .. | .releaseComplete .. | .grant .. | .grantComplete .. | .returnUnit .. | .returnComplete ..
  | .pageEnable .. | .blockReset .. | .registerWrite .. | .thermalSample .. | .auxPathOn .. | .bist ..
  | .leverSwitchOpen .. | .inputUndervoltage .. | .inputOvervoltage .. | .overvoltageRecovery .. | .mainOvercurrent ..
  | .powerDownComplete .. | .modResetN .. | .functionLevelReset .. | .pldmReset .. | .resetCmdModule .. | .resetCmdDie ..
  | .resetCmdCompartment .. | .dieRecoveryComplete .. | .park .. | .errorDetected .. | .bistComplete .. | .injArm ..
  | .tstRun .. | .standbyEntryComplete .. => true
  | _ => false

/-- The command may change the coordination contexts (R383); no other one does. -/
def movesConvoys : Instr → Bool
  | .start .. | .stop .. | .admitRank .. | .resume .. | .heartbeatSend .. | .heartbeat .. | .hbReply .. | .workerLost ..
  | .managerLost .. | .takeoverTimer .. | .takeover .. | .state .. | .convBarrier .. | .arrive .. | .release ..
  | .convReady .. | .ready .. | .commit .. | .convApplied .. | .applied .. | .abortStep .. | .hartAccess ..
  | .pcieInboundWrite .. | .inspectionWrite .. | .create .. | .compartmentRelease .. | .releaseComplete .. | .grant ..
  | .grantComplete .. | .returnUnit .. | .returnComplete .. | .pageEnable .. | .blockReset .. | .registerWrite ..
  | .auxPathOn .. | .leverSwitchOpen .. | .inputUndervoltage .. | .inputOvervoltage .. | .overvoltageRecovery ..
  | .mainOvercurrent .. | .powerDownComplete .. | .modResetN .. | .functionLevelReset .. | .pldmReset ..
  | .resetCmdModule .. | .resetCmdCompartment .. | .bistComplete .. => true
  | _ => false

/-- The command may change the cached lines, transactions and range invalidations (R446, R450); no other one does. -/
def movesLines : Instr → Bool
  | .matmul .. | .matmulAcc .. | .tileComplete .. | .arrayDetectedError .. | .targetedSelfTestDone .. | .transientLimit ..
  | .arrayClearDone .. | .feCtxEnable .. | .descriptorStart .. | .completionRecordWrite .. | .add .. | .sub .. | .mul ..
  | .fma .. | .div .. | .sqrt .. | .max .. | .min .. | .exp .. | .log .. | .recip .. | .rsqrt .. | .tanh .. | .sigmoid ..
  | .erf .. | .convert .. | .sum .. | .sumsq .. | .dot .. | .rmax .. | .partialRecordMerge .. | .orfValueSum ..
  | .anchorMaximum .. | .nrm128Sum .. | .moveCopy .. | .moveFill .. | .lotMoveCommit .. | .pageInComplete .. | .alloc ..
  | .freeComplete .. | .updateLotApply .. | .lookup .. | .inboundRdmaWrite .. | .inboundSend .. | .rdmaReadResponse ..
  | .netQpDb .. | .nvmeCompletion .. | .fileQueueRead .. | .fileQueueWrite .. | .fileQueueWriteDone ..
  | .fileQueueFlush .. | .fileQueueWriteZeroes .. | .fileQueueDeallocate .. | .exchangeDispatch .. | .exchangeCombine ..
  | .exchangeMessage .. | .reduceNetBoth .. | .reduceNetAnchor .. | .reduceNetValue .. | .reduceNetNrm128 ..
  | .windowRelease .. | .prepBatch .. | .xltInvGo .. | .invalidationAck .. | .rdShared .. | .rdUnique .. | .upgrade ..
  | .rdOnce .. | .wrLine .. | .wrPart .. | .snpShared .. | .snpInv .. | .snpOnce .. | .snpResp .. | .data .. | .wbDirty ..
  | .wbAck .. | .comp .. | .compAck .. | .hartAccess .. | .pcieInboundWrite .. | .inspectionWrite .. | .create ..
  | .compartmentRelease .. | .releaseComplete .. | .grant .. | .grantComplete .. | .returnUnit .. | .returnComplete ..
  | .pageEnable .. | .blockReset .. | .registerWrite .. | .thermalSample .. | .auxPathOn .. | .bist ..
  | .leverSwitchOpen .. | .inputUndervoltage .. | .inputOvervoltage .. | .overvoltageRecovery .. | .mainOvercurrent ..
  | .poweringDown .. | .powerDownComplete .. | .modResetN .. | .functionLevelReset .. | .pldmReset .. | .resetCmdModule ..
  | .resetCmdDie .. | .resetCmdCompartment .. | .coreHold .. | .dieRecoveryComplete .. | .park .. | .errorDetected ..
  | .bistComplete .. | .injArm .. | .tstRun .. | .standbyEntryComplete .. => true
  | _ => false

/-- The command may change the cached routes and interrupt files (R461, R463); no other one does. -/
def movesInterrupts : Instr → Bool
  | .msiDelivery .. | .cohMsiFlush .. | .hartAccess .. | .pcieInboundWrite .. | .inspectionWrite .. | .pageEnable ..
  | .blockReset .. | .registerWrite .. | .auxPathOn .. | .leverSwitchOpen .. | .inputUndervoltage ..
  | .inputOvervoltage .. | .overvoltageRecovery .. | .mainOvercurrent .. | .powerDownComplete .. | .modResetN ..
  | .functionLevelReset .. | .pldmReset .. | .resetCmdModule .. | .bistComplete .. => true
  | _ => false

/-- The command may change the links, routers, what arrived and what waits to enter a link (R33, R45, R264); no other one does. -/
def movesLinks : Instr → Bool
  | .dataFlitReceive .. | .idleFlitReceive .. | .retryRequest .. | .ackTimer .. | .flitSend .. | .messageSend ..
  | .laneDiagnosis .. | .laneLoss .. | .spareSubstitution .. | .halfWidthEntry .. | .linkDown .. | .arrayDetectedError ..
  | .targetedSelfTestDone .. | .transientLimit .. | .arrayClearDone .. | .lotMoveCommit .. | .pageInComplete ..
  | .freeComplete .. | .memRead .. | .memWrite .. | .narrowRead .. | .narrowWaitExpiry .. | .calibrationEnd ..
  | .lookup .. | .hartAccess .. | .pcieInboundWrite .. | .inspectionWrite .. | .releaseComplete .. | .registerWrite ..
  | .auxPathOn .. | .links .. | .bist .. | .leverSwitchOpen .. | .inputUndervoltage .. | .inputOvervoltage ..
  | .overvoltageRecovery .. | .mainOvercurrent .. | .powerDownComplete .. | .modResetN .. | .functionLevelReset ..
  | .pldmReset .. | .resetCmdModule .. | .resetCmdDie .. | .dieRecoveryComplete .. | .wakeComplete .. | .errorDetected ..
  | .bistComplete .. | .injArm .. | .tstRun .. => true
  | _ => false

/-- The command may change the holds, debug modes and reservations of the harts (R439, R485, R613); no other one does. -/
def movesHarts : Instr → Bool
  | .matmul .. | .matmulAcc .. | .tileComplete .. | .arrayDetectedError .. | .targetedSelfTestDone .. | .transientLimit ..
  | .arrayClearDone .. | .feCtxEnable .. | .descriptorStart .. | .completionRecordWrite .. | .add .. | .sub .. | .mul ..
  | .fma .. | .div .. | .sqrt .. | .max .. | .min .. | .exp .. | .log .. | .recip .. | .rsqrt .. | .tanh .. | .sigmoid ..
  | .erf .. | .convert .. | .sum .. | .sumsq .. | .dot .. | .rmax .. | .partialRecordMerge .. | .orfValueSum ..
  | .anchorMaximum .. | .nrm128Sum .. | .moveCopy .. | .moveFill .. | .lotMoveCommit .. | .hartDebugEnter ..
  | .hartDebugExit .. | .pageInComplete .. | .alloc .. | .freeComplete .. | .updateLotApply .. | .lookup ..
  | .inboundRdmaWrite .. | .inboundSend .. | .rdmaReadResponse .. | .netQpDb .. | .nvmeCompletion .. | .fileQueueRead ..
  | .fileQueueWrite .. | .fileQueueWriteDone .. | .fileQueueFlush .. | .fileQueueWriteZeroes .. | .fileQueueDeallocate ..
  | .exchangeDispatch .. | .exchangeCombine .. | .exchangeMessage .. | .reduceNetBoth .. | .reduceNetAnchor ..
  | .reduceNetValue .. | .reduceNetNrm128 .. | .windowRelease .. | .prepBatch .. | .snpShared .. | .snpInv ..
  | .snpOnce .. | .snpResp .. | .hartAccess .. | .pcieInboundWrite .. | .inspectionWrite .. | .create ..
  | .compartmentRelease .. | .releaseComplete .. | .grant .. | .grantComplete .. | .returnUnit .. | .returnComplete ..
  | .pageEnable .. | .blockReset .. | .registerWrite .. | .thermalSample .. | .auxPathOn .. | .bist .. | .host ..
  | .leverSwitchOpen .. | .inputUndervoltage .. | .inputOvervoltage .. | .overvoltageRecovery .. | .mainOvercurrent ..
  | .poweringDown .. | .powerDownComplete .. | .modResetN .. | .functionLevelReset .. | .pldmReset .. | .resetCmdModule ..
  | .resetCmdDie .. | .resetCmdCompartment .. | .coreHold .. | .coreRelease .. | .dieRecoveryComplete .. | .park ..
  | .errorDetected .. | .bistComplete .. | .injArm .. | .tstRun .. | .standbyEntryComplete .. => true
  | _ => false

/-- The command may change the commands of the compartment table under way and waiting, and the compartments' keys and the positions of sealed
ones (R498, R502, R505); no other one does. -/
def movesTable : Instr → Bool
  | .hartAccess .. | .pcieInboundWrite .. | .inspectionWrite .. | .create .. | .compartmentRelease ..
  | .releaseComplete .. | .grant .. | .grantComplete .. | .returnUnit .. | .returnComplete .. | .registerWrite ..
  | .auxPathOn .. | .overvoltageRecovery .. => true
  | _ => false

/-- The command may change the self-tests under way, the transient errors counted and the islands that BIST runs on (R621, R626, R629); no
other one does. -/
def movesTests : Instr → Bool
  | .arrayDetectedError .. | .targetedSelfTestDone .. | .transientLimit .. | .arrayClearDone .. | .hartAccess ..
  | .pcieInboundWrite .. | .inspectionWrite .. | .pageEnable .. | .blockReset .. | .registerWrite .. | .auxPathOn ..
  | .bist .. | .leverSwitchOpen .. | .inputUndervoltage .. | .inputOvervoltage .. | .overvoltageRecovery ..
  | .mainOvercurrent .. | .powerDownComplete .. | .modResetN .. | .functionLevelReset .. | .pldmReset ..
  | .resetCmdModule .. | .resetCmdDie .. | .dieRecoveryComplete .. | .errorDetected .. | .bistRun .. | .bistComplete ..
  | .injArm .. | .tstRun .. => true
  | _ => false

/-- The command may change the clock sources, budget rounds and cooling (R543, R559, R564); no other one does. -/
def movesPower : Instr → Bool
  | .arrayDetectedError .. | .targetedSelfTestDone .. | .transientLimit .. | .arrayClearDone .. | .hartAccess ..
  | .pcieInboundWrite .. | .inspectionWrite .. | .pageEnable .. | .blockReset .. | .registerWrite .. | .sourceQualified ..
  | .sourceLoss .. | .clockSourceSwitch .. | .pllLock .. | .clkSrcSelWrite .. | .clkIslMaxWrite ..
  | .crossingModeChange .. | .powerRound .. | .budgetMessage .. | .capRaise .. | .powerMeasure .. | .thermalSample ..
  | .thermalHysteresisTimer .. | .auxPathOn .. | .bist .. | .host .. | .leverSwitchOpen .. | .inputUndervoltage ..
  | .inputOvervoltage .. | .overvoltageRecovery .. | .mainOvercurrent .. | .powerDownComplete .. | .modResetN ..
  | .functionLevelReset .. | .pldmReset .. | .resetCmdModule .. | .resetCmdDie .. | .dieRecoveryComplete ..
  | .errorDetected .. | .bistComplete .. | .injArm .. | .tstRun .. => true
  | _ => false

/-- The command may change the ledger and the wear of the flash (R654, R661); no other one does. -/
def movesLedger : Instr → Bool
  | .spareSubstitution .. | .halfWidthEntry .. | .arrayDetectedError .. | .targetedSelfTestDone .. | .transientLimit ..
  | .arrayClearDone .. | .writebackComplete .. | .calibrationEnd .. | .dqPairMark .. | .fileQueueWriteDone ..
  | .hartAccess .. | .pcieInboundWrite .. | .inspectionWrite .. | .registerWrite .. | .thermalSample .. | .auxPathOn ..
  | .mc .. | .mainPower .. | .links .. | .memory .. | .bist .. | .leverSwitchOpen .. | .inputUndervoltage ..
  | .inputOvervoltage .. | .overvoltageRecovery .. | .mainOvercurrent .. | .poweringDown .. | .powerDownComplete ..
  | .dieRecoveryComplete .. | .errorDetected .. | .bistComplete .. | .injArm .. | .tstRun .. | .hourlyRecord ..
  | .warehouseCreditExhausted .. | .warehouseWorn .. | .serviceTagDraw .. | .tagRefreshDone .. | .redraw ..
  | .garbageCollection .. | .creditAccrual .. => true
  | _ => false

/-- The command may change the service tag, locate and sounder (R666, R670); no other one does. -/
def movesPanel : Instr → Bool
  | .arrayDetectedError .. | .targetedSelfTestDone .. | .transientLimit .. | .arrayClearDone .. | .hartAccess ..
  | .pcieInboundWrite .. | .inspectionWrite .. | .pageEnable .. | .blockReset .. | .registerWrite .. | .auxPathOn ..
  | .mc .. | .bist .. | .overvoltageRecovery .. | .powerDownComplete .. | .pldmIdentify .. | .errorDetected ..
  | .bistComplete .. | .injArm .. | .tstRun .. | .serviceTagDraw .. | .tagRefreshDone .. | .redraw .. | .svcLocate ..
  | .sounderShort .. | .sounderRetry .. | .svcSndClear .. => true
  | _ => false

/-- The command may change the connector, hot-plug and management bus (R582, R592); no other one does. -/
def movesConnector : Instr → Bool
  | .hartAccess .. | .pcieInboundWrite .. | .inspectionWrite .. | .registerWrite .. | .leverSwitchClose .. | .auxPathOn ..
  | .rom .. | .leverSwitchOpen .. | .inputUndervoltage .. | .inputOvervoltage .. | .overvoltageRecovery ..
  | .mainOvercurrent .. | .attentionButtonPress .. | .abortWindowExpiry .. | .startDrain .. | .drainDone ..
  | .poweringDown .. | .perstNAssert .. | .perstNDeassert .. | .pldmFirmwareUpdate .. | .entdaa ..
  | .undervoltageLockoutRelease .. => true
  | _ => false

/-- The command may change the part. -/
def Part.movedBy : Part → Instr → Bool
  | .tallies => movesTallies
  | .streams => movesStreams
  | .engines => movesEngines
  | .placement => movesPlacement
  | .channels => movesChannels
  | .differences => movesDifferences
  | .registry => movesRegistry
  | .network => movesNetwork
  | .exchange => movesExchange
  | .convoys => movesConvoys
  | .lines => movesLines
  | .interrupts => movesInterrupts
  | .links => movesLinks
  | .harts => movesHarts
  | .table => movesTable
  | .tests => movesTests
  | .power => movesPower
  | .ledger => movesLedger
  | .panel => movesPanel
  | .connector => movesConnector

/-- The part is the same in two states. -/
def Part.same (p : Part) (s t : Machine.State) : Prop :=
  match p with
  | .tallies => t.tallies = s.tallies ∧ t.tallyOps = s.tallyOps ∧ t.polls = s.polls ∧ t.talwLo = s.talwLo
  | .streams => t.streams = s.streams
  | .engines => t.engines = s.engines
  | .placement => t.place = s.place
  | .channels => t.chans = s.chans ∧ t.chanAt = s.chanAt ∧ t.telem = s.telem ∧ t.telemAt = s.telemAt
    ∧ t.scrubAt = s.scrubAt
  | .differences => t.ds = s.ds
  | .registry => t.tables = s.tables ∧ t.tblLoad = s.tblLoad ∧ t.hot = s.hot ∧ t.sweptAt = s.sweptAt
    ∧ t.sweeps = s.sweeps ∧ t.tblM = s.tblM
    ∧ t.sweeps = s.sweeps ∧ t.tblM = s.tblM
  | .network => t.qps = s.qps ∧ t.mrs = s.mrs ∧ t.netWait = s.netWait ∧ t.paused = s.paused
    ∧ t.ptp = s.ptp ∧ t.ppsAt = s.ppsAt
  | .exchange => t.xch = s.xch ∧ t.wins = s.wins
  | .convoys => t.convs = s.convs
  | .lines => t.lines = s.lines ∧ t.invs = s.invs
  | .interrupts => t.routes = s.routes ∧ t.imsic = s.imsic
  | .links => t.links = s.links ∧ t.routers = s.routers ∧ t.arrived = s.arrived ∧ t.reissue = s.reissue
  | .harts => t.harts = s.harts
  | .table => t.cptOp = s.cptOp ∧ t.cptQueue = s.cptQueue ∧ t.keys = s.keys ∧ t.sealPos = s.sealPos
  | .tests => t.tests = s.tests ∧ t.transients = s.transients ∧ t.bists = s.bists
  | .power => t.clocks = s.clocks ∧ t.budgets = s.budgets ∧ t.coolAt = s.coolAt
  | .ledger => t.ledger = s.ledger ∧ t.whc = s.whc
  | .panel => t.panel = s.panel ∧ t.locateEnd = s.locateEnd ∧ t.soundAt = s.soundAt
  | .connector => t.conn = s.conn

end Sys2Proof
end

