-- ==== Sys2Proof/Certificates/Slice0/Obligations.lean ====
section
/-! DEFINITION. The statements: what the commands do, family by family in the table's order, and what holds of the whole machine. -/

open Sys2Proof Sys2Proof.Machine

/-! ### Die-to-die links -/

/-- R29, R33 to R38: a data flit with a good CRC and the SEQ expected is accepted, so that the next SEQ is expected and nothing is being
discarded; an idle flit and a retry request give their ACK and credits to the transmitter beside the receiver, a retry request
with the flit from which to send again; a flit of TYPE 11 or with a reserved bit retrains the link. -/
def Obligations.LinkFlitsReceived : Prop :=
  (∀ (d : Die) (p : Nat) (f : Bytes) (s : State), s.LiveOn d → p < 3 → s.rxState d p ≠ 0 → State.flitOk f = true →
    State.flitReserved f = false → State.flitType f = 0 → State.flitSeq f = (s.link d p).expect →
    ∃ t, exec (.dataFlitReceive d p f) s = .next t ∧ (t.link d p).expect = ((s.link d p).expect + 1) % 1024
      ∧ (t.link d p).discarding = false) ∧
  (∀ (d : Die) (p : Nat) (f : Bytes) (s : State), s.LiveOn d → p < 3 → s.rxState d p ≠ 0 → State.flitOk f = true →
    State.flitReserved f = false → State.flitType f = 1 →
    exec (.idleFlitReceive d p f) s = .next (s.setLink d p (State.takeAck (s.link d p) f))) ∧
  (∀ (d : Die) (p : Nat) (f : Bytes) (s : State), s.LiveOn d → p < 3 → s.rxState d p ≠ 0 → State.flitOk f = true →
    State.flitReserved f = false → State.flitType f = 2 →
    (∃ e ∈ (State.takeAck (s.link d p) f).replay, e.1 = State.flitSeq f) →
    exec (.retryRequest d p f) s =
      .next (s.setLink d p { State.takeAck (s.link d p) f with resend := some (State.flitSeq f) })) ∧
  (∀ (d : Die) (p : Nat) (f : Bytes) (s : State), s.LiveOn d → p < 3 → s.rxState d p ≠ 0 → State.flitOk f = true →
    (State.flitReserved f = true ∨ State.flitType f = 3) →
    exec (.linkControlFlit d p f) s = .next (s.retrain d p))

/-- R35: on any data flit with a bad CRC, or whose SEQ is not the one expected, the receiver accepts nothing: no message arrives or
enters the routers, and the SEQ expected stays. -/
def Obligations.WrongFlitBringsNothing : Prop :=
  ∀ (d : Die) (p : Nat) (f : Bytes) (s : State),
    (State.flitOk f = false ∨ State.flitSeq f ≠ (s.link d p).expect) →
    ∃ t, exec (.dataFlitReceive d p f) s = .next t ∧ t.arrived = s.arrived ∧ t.routers = s.routers
      ∧ (t.link d p).expect = (s.link d p).expect ∧ t.mem = s.mem

/-- R34, R36 to R38, R45: a transmitter that owes an ACK sends it as an idle flit; it sends again from the flit asked for; it sends a new
data flit, kept in the replay buffer, and idle flits when it has nothing to send or the buffer is full; a message at its source
takes credit of its class and channel and queues its chunks on the next link of its route. -/
def Obligations.LinkFlitsSent : Prop :=
  (∀ (d : Die) (p : Nat) (s : State), s.LiveOn d → s.txReady d p = true → (s.link d p).accepted ≠ 0 →
    (32 ≤ (s.link d p).accepted ∨ (s.link d p).since + 64 ≤ s.base) →
    ∃ t f, exec (.ackTimer d p) s = .next t ∧ t.flitOut = (linkKey d p, f) :: s.flitOut ∧ (t.link d p).accepted = 0) ∧
  (∀ (d : Die) (p q : Nat) (e : Nat × Bytes) (r : List (Nat × Bytes)) (s : State), s.LiveOn d → s.txReady d p = true →
    (s.link d p).resend = some q → ((s.link d p).replay.dropWhile fun e => e.1 != q) = e :: r →
    ∃ t, exec (.flitSend d p) s = .next t ∧ t.flitOut = (linkKey d p, e.2) :: s.flitOut
      ∧ (t.link d p).resend = r.head?.map (·.1)) ∧
  (∀ (d : Die) (p : Nat) (s : State), s.LiveOn d → s.txReady d p = true → (s.link d p).resend = none →
    (s.link d p).replay.length < 512 → (s.link d p).queue ≠ [] →
    ∃ t f, exec (.flitSend d p) s = .next t ∧ t.flitOut = (linkKey d p, f) :: s.flitOut
      ∧ (t.link d p).replay = (s.link d p).replay ++ [((s.link d p).seq, f)]
      ∧ (t.link d p).seq = ((s.link d p).seq + 1) % 1024 ∧ (t.link d p).queue = (s.link d p).queue.drop 15) ∧
  (∀ (d : Die) (p : Nat) (s : State), s.LiveOn d → s.txReady d p = true → (s.link d p).resend = none →
    (512 ≤ (s.link d p).replay.length ∨ (s.link d p).queue = []) →
    ∃ t f, exec (.flitSend d p) s = .next t ∧ t.flitOut = (linkKey d p, f) :: s.flitOut
      ∧ (t.link d p).replay = (s.link d p).replay ∧ (t.link d p).queue = (s.link d p).queue) ∧
  (∀ (x y : Die) (m : Msg) (vc p : Nat) (fb : Bool) (s : State), s.LiveOn x → m.src = x → SMap.getD s.routers (dieCode x) [] = [] →
    s.reissue = [] → s.nextHop x m = some (y, vc, fb) → instTo x y = some p → chunksFit m = true →
    s.linkUp x p = true → m.chunks.length ≤ (s.link x p).credits.getD (clsNo m.cls * 2 + vc) 0 →
    ∃ t, exec (.messageSend x m) s = .next t
      ∧ (t.link x p).queue = (s.link x p).queue ++ m.chunks.zipIdx.map (fun c => (c.2 == 0, c.1))
      ∧ (t.link x p).credits = (s.link x p).credits.modify (clsNo m.cls * 2 + vc) (· - m.chunks.length))

/-- R43, R44, R633 to R635: a link whose lanes all pass diagnosis returns to service and counts it; a lane that loses lock stops the data
flits of its receiver; the spare that was trained takes its position in D2D_MAP; without a spare the link goes to half width at
both ends, and it goes down where a module can make neither half whole. -/
def Obligations.LinkLanesLost : Prop :=
  (∀ (d : Die) (p : Nat) (s : State), p < 3 → s.rxState d p = 1 → (s.link d p).train = [] → (s.link d p).stuck = [] →
    exec (.laneDiagnosis d p []) s = .next ((s.bump (d2dPg d p) Reg.D2D_RETRIES).resume d p)) ∧
  (∀ (d : Die) (p m l : Nat) (s : State), p < 3 → m < linkModules d p → l < 64 → s.rxState d p ≠ 0 →
    (m, l) ∉ (s.link d p).stuck →
    ∃ t, exec (.laneLoss d p m l) s = .next t ∧ t.rxState d p = 1 ∧ (m, l) ∈ (t.link d p).lost) ∧
  (∀ (d : Die) (p m l : Nat) (u : Training) (s : State), p < 3 →
    ((s.link d p).train.find? fun t => t.m == m && t.l == l) = some u → m < 4 →
    ∃ t, exec (.spareSubstitution d p m l) s = .next t
      ∧ t.mapWord d p m = (BitVec.ofNat 32 (putBits (s.mapWord d p m) (8 * u.spare) 8 (l + 64))).toNat) ∧
  (∀ (d : Die) (p : Nat) (s : State), p < 3 → (s.link d p).stuck ≠ [] → s.halvesOk d p = true →
    s.halvesOk (peerOf d p).1 (peerOf d p).2 = true → exec (.halfWidthEntry d p) s = .next (s.linkHalf d p)) ∧
  (∀ (d : Die) (p : Nat) (s : State), p < 3 → (s.link d p).stuck ≠ [] →
    (s.halvesOk d p = false ∨ s.halvesOk (peerOf d p).1 (peerOf d p).2 = false) →
    exec (.linkDown d p) s = .next (s.linkFall d p))

/-! ### Engines and streams -/

/-- R113, R116, R117, R123 to R125: a MATMUL without a K, none of whose operands is uncorrectable, writes its initial values and ends with OK,
MATMUL_ACC too; with a K the first idle array of its engine that is live takes its next tile; the first weight tile of the stream's next
MATMUL is loaded into the shadow plane of an array that runs one tile; a tile that ends, none of its operands uncorrectable, leaves its array to
the tile that streams after it and counts as finished, and the last tile ends the descriptor. -/
def Obligations.MatmulRuns : Prop :=
  (∀ p ∈ [(Instr.matmul, 0x01), (Instr.matmulAcc, 0x02)], ∀ (d : Die) (n q : Nat) (x : Desc) (s : State),
    s.RunningDesc d n q p.2 x → x.aborting = false → s.liveMask d (s.ctxEngine d n) ≠ 0 →
    (x.mmK = 0 → s.readBad x (State.allRows x) (State.allCols x) = none → s.writeBad x (State.allRows x) (State.allCols x) = none →
      ∃ t, exec (p.1 d n q) s = .next t ∧ t.Ended d n q stOk) ∧
    (∀ (a : Nat) (r : Arr), x.mmK ≠ 0 → a < 4 → (s.engine d (s.ctxEngine d n)).arrays[a]? = some r →
      (∀ z ∈ (s.engine d (s.ctxEngine d n)).arrays.take a, z.run ≠ none) →
      (s.liveMask d (s.ctxEngine d n)).testBit a = true → r.run = none → r.next = none → r.isolated = false → r.clearing = false →
      (r.last = none ∨ r.last = some (s.classTag d n)) → x.untaken (s.ctxFill d n) = true → s.tileTurn d (s.ctxEngine d n) n = true →
      ∃ t z u, exec (p.1 d n q) s = .next t ∧ (t.engine d (s.ctxEngine d n)).arrays[a]? = some z ∧ z.run = some u
        ∧ u.n = n ∧ u.seq = x.seq ∧ u.tile = x.rerun.headD x.next ∧ State.SameMemory s t)) ∧
  (∀ (d : Die) (e a : Nat) (r : Arr) (u : TileRun) (x y : Desc) (s : State), s.LiveOn d →
    (s.engine d e).arrays[a]? = some r → r.run = some u → r.next = none →
    ((s.stream d u.n).fetched.find? fun x => x.seq == u.seq) = some x →
    ((s.stream d u.n).fetched.dropWhile fun x => x.seq != u.seq)[1]? = some y → y.phase = .fetched →
    (y.op = 0x01 ∨ y.op = 0x02) → y.mmK ≠ 0 →
    (∀ w ∈ State.firstWeights y, ∀ v ∈ State.writesOf x, w.1 + w.2 ≤ v.1 ∨ v.1 + v.2 ≤ w.1) →
    exec (.weightPreload d e a) s =
      .next (s.updArr d e a fun z =>
        { z with preload := some (u.n, y.seq), shadow := s.planeOf y (y.tileColSpan 0) 0, reloaded := none })) ∧
  (∀ (d : Die) (e a : Nat) (r : Arr) (u : TileRun) (x : Desc) (s : State), s.LiveOn d →
    (s.engine d e).arrays[a]? = some r → r.run = some u → r.isolated = false →
    ((s.stream d u.n).fetched.find? fun x => x.seq == u.seq && x.phase == .running) = some x → s.desc? d u.n x.slot = some x →
    x.aborting = false → s.writesMoving x = false →
    s.readBad x (x.tileRowSpan (s.ctxFill d u.n) u.tile) (x.tileColSpan u.tile) = none →
    s.writeBad x (x.tileRowSpan (s.ctxFill d u.n) u.tile) (x.tileColSpan u.tile) = none →
    (x.finished + 1 = x.tiles (s.ctxFill d u.n) →
      ∃ t, exec (.tileComplete d e a) s = .next t ∧ (t.Ended d u.n x.slot stOk ∨ t.Ended d u.n x.slot stWindow)) ∧
    (x.finished + 1 ≠ x.tiles (s.ctxFill d u.n) →
      ∃ t y z, exec (.tileComplete d e a) s = .next t ∧ t.desc? d u.n x.slot = some y ∧ y.phase = .running
        ∧ y.finished = x.finished + 1 ∧ (t.engine d e).arrays[a]? = some z ∧ z.run = r.next ∧ z.next = none))

/-- The front end's commands (R152 to R156, R188): ENABLE of a DISABLED or HALTED stream with a valid context whose units its compartment
owns, which writes the records held first; DRAIN of an ENABLED stream with descriptors in hand; ABORT of an active one; a context word
written while the stream is DISABLED or HALTED; a doorbell whose stream and tail pass. A context command or word write that the
stream's state does not allow sets FE_CTX_CMD.REJECTED and nothing else, and a doorbell that does not pass moves no tail. -/
def Obligations.FrontEndCommands : Prop :=
  (∀ (d : Die) (n : Nat) (s u : State), s.LiveOn d → n = s.selStream d → (s.streamState d n = 0 ∨ s.streamState d n = 3) →
    s.ctxValid d n = true → s.bindOk d n = true →
    u = (s.setStreamState d n 1).setF (fePg d) Reg.FE_CTX_STATE_HALT_CAUSE 0 n →
    u.streamState d n = 1 ∧
      exec (.feCtxEnable d) s = .next (if (s.stream d n).held then (u.flushHeld d n 16).settleHeld d n else u)) ∧
  (∀ (d : Die) (s : State), s.LiveOn d → s.streamState d (s.selStream d) = 1 →
    ∃ t, exec (.feCtxDrain d) s = .next t
      ∧ t.streamState d (s.selStream d) = (if (s.stream d (s.selStream d)).fetched = [] then 0 else 2)) ∧
  (∀ (d : Die) (s : State), s.LiveOn d → s.streamActive d (s.selStream d) = true →
    ∃ t, exec (.feCtxAbort d) s = .next t ∧ t.streamState d (s.selStream d) = 0) ∧
  (∀ (d : Die) (w : Nat) (v : W32) (s : State), s.LiveOn d →
    (s.streamState d (s.selStream d) = 0 ∨ s.streamState d (s.selStream d) = 3) → w < 16 →
    ∃ t, exec (.feCtxDataWrite d w v) s = .next t ∧ t.ctxWord d (s.selStream d) w = v.toNat) ∧
  (∀ (d : Die) (c : Nat) (v : W32) (s : State), s.LiveOn d → c < 64 →
    s.doorbellOk d c (bitsOf v.toNat 0 14) (bitsOf v.toNat 14 16) = true →
    exec (.dbRing d c v) s =
      .next ((s.setTail d (bitsOf v.toNat 0 14) (bitsOf v.toNat 14 16)).setWord (dbPg d c) 0x40 (v.toNat % 2 ^ 30))) ∧
  (∀ (d : Die) (s : State), s.LiveOn d → s.streamState d (s.selStream d) ≠ 1 →
    exec (.feCtxDrain d) s = .next (s.setF (fePg d) Reg.FE_CTX_CMD_REJECTED 1)) ∧
  (∀ (d : Die) (s : State), s.LiveOn d → s.streamActive d (s.selStream d) = false →
    exec (.feCtxAbort d) s = .next (s.setF (fePg d) Reg.FE_CTX_CMD_REJECTED 1)) ∧
  (∀ (d : Die) (w : Nat) (v : W32) (s : State), s.LiveOn d → s.streamActive d (s.selStream d) = true →
    exec (.feCtxDataWrite d w v) s = .next (s.setF (fePg d) Reg.FE_CTX_CMD_REJECTED 1)) ∧
  (∀ (d : Die) (c n k : Nat) (v : W32) (s : State), c < 64 → n < 2 ^ 14 → k < 16 →
    s.doorbellOk d c (bitsOf v.toNat 0 14) (bitsOf v.toNat 14 16) = false →
    ∃ t, exec (.dbRing d c v) s = .next t ∧ t.ctxWord d n k = s.ctxWord d n k ∧ t.streams = s.streams)

/-- R157 to R166, R185, R190 to R194: fetch, start, record and FILL work. The descriptor at HEAD of a stream that may fetch is read
through the stream's page table; the descriptor whose turn it is starts to run; the record of an ended descriptor is written and
the descriptor leaves; FILL work starts on an engine idle long enough, gives way to FOREGROUND work, and resumes. -/
def Obligations.DescriptorsFlow : Prop :=
  (∀ (d : Die) (n pa pbmt : Nat) (s s1 : State), s.LiveOn d → s.mayFetch d n = true →
    s.ringXlate d n (s.ctxManifest d n + 64 * s.ctxHead d n) false = (.ok pa pbmt, s1) → s1.badIn pa 64 = false →
    exec (.descriptorFetch d n) s =
      .next ((s1.touchRead pa 64).fetchDesc d n (if pbmt == 0 then s1.cohNat pa 64 else s1.rdNat pa 64))) ∧
  (∀ (d : Die) (n q : Nat) (x : Desc) (s : State), s.LiveOn d → s.startable d n q = true →
    s.firstInTurn d (s.ctxEngine d n) n = true → s.ClassRuns d n → s.desc? d n q = some x →
    ∃ t y, exec (.descriptorStart d n q) s = .next t ∧ t.desc? d n q = some y
      ∧ (if isEmpty x then y.phase = .ended ∧ y.status = stEmpty else y.phase = .running)) ∧
  (∀ (d : Die) (n : Nat) (x : Desc) (r : List Desc) (s s1 : State), s.LiveOn d → (s.stream d n).fetched = x :: r →
    x.phase = .ended → ((s.stream d n).held = false ∨ s.streamState d n = 1) → s.writeRecord d n x = (true, s1) →
    exec (.completionRecordWrite d n) s = .next (s1.settleHeld d n)) ∧
  (∀ (d : Die) (e : Nat) (s : State), s.LiveOn d → s.idleLong d e = true → s.fillWaits d e = false →
    exec (.fillStart d e) s = .next (s.setEngine d e { s.engine d e with filling := true })) ∧
  (∀ (d : Die) (e : Nat) (s : State), s.LiveOn d → s.foreground d e = true → (s.engine d e).filling = true →
    ∃ t, exec (.fillPreempt d e) s = .next t ∧ (t.engine d e).filling = false) ∧
  (∀ (d : Die) (e : Nat) (s : State), s.LiveOn d → s.idleLong d e = true → s.fillWaits d e = true →
    exec (.fillResume d e) s = .next (s.setEngine d e { s.engine d e with filling := true })) ∧
  (∀ (d : Die) (e : Nat) (v : W32) (s : State), s.LiveOn d →
    ((s.boundStreams d e).any fun n => s.ctxFill d n && s.streamActive d n) = false →
    exec (.engFillCistWrite d e v) s = .next (s.setF (engPg d e) Reg.ENG_FILL_CIST_FILL_UNITS (min 48 (v.toNat % 64))))

/-- The commands of the VECTOR operations with their VOP codes (R177). -/
def vectorOps : List ((Die → Nat → Nat → Instr) × Nat) :=
  [(.add, 0x01), (.sub, 0x02), (.mul, 0x03), (.fma, 0x04), (.div, 0x05), (.sqrt, 0x06), (.max, 0x07), (.min, 0x08),
   (.exp, 0x10), (.log, 0x11), (.recip, 0x12), (.rsqrt, 0x13), (.tanh, 0x14), (.sigmoid, 0x15), (.erf, 0x16),
   (.convert, 0x20), (.sum, 0x30), (.sumsq, 0x31), (.dot, 0x32), (.rmax, 0x33)]

/-- R176 to R178: each VECTOR operation of a FOREGROUND stream, its operands readable, its output writable and its class running, writes its
results and ends with OK; the results are those of its VOP code over the operands read before anything is written, the operation touches
memory in its output operand alone, and no register changes but the memory controllers'. One of a FILL stream writes its next 4 KiB of output
and stays running, or ends with OK when it was the last (R192, R194). One that meets an uncorrectable operand writes nothing and ends with
MEM_UNCORRECTABLE, the operand and the element named (R148, R186). -/
def Obligations.VectorOperationsWrite : Prop :=
  (∀ p ∈ vectorOps, ∀ (d : Die) (n q : Nat) (x : Desc) (s : State),
      s.RunningDesc d n q 0x08 x → x.vop = p.2 → s.ctxFill d n = false → (s.vecTaken d n).vecBad x = none →
      (s.vecTaken d n).vecWriteBad x 0 (vecOut x) = none →
      ∃ t, exec (p.1 d n q) s = .next t ∧ t.Ended d n q stOk
        ∧ t.mem = ((s.vecTaken d n).vecWrite x ((s.vecTaken d n).vecResults d n x)).mem ∧ s.SameWords t) ∧
  (∀ p ∈ vectorOps, ∀ (d : Die) (n q lo k : Nat) (x : Desc) (s : State),
      s.RunningDesc d n q 0x08 x → x.vop = p.2 → s.ClassRuns d n → s.ctxFill d n = true → (s.vecTaken d n).vecBad x = none →
      lo = x.next * State.vecUnit x → k = min (State.vecUnit x) (vecOut x - lo) → (s.vecTaken d n).vecWriteBad x lo k = none →
      ∃ t y, exec (p.1 d n q) s = .next t ∧ t.desc? d n q = some y ∧ y.next = x.next + 1
        ∧ (if vecOut x ≤ lo + k then y.phase = .ended ∧ y.status = stOk else y.phase = .running)) ∧
  (∀ p ∈ vectorOps, ∀ (d : Die) (n q : Nat) (x : Desc) (b : State.BadOp) (s : State),
      s.RunningDesc d n q 0x08 x → x.vop = p.2 → s.ClassRuns d n → x.next = 0 → (s.vecTaken d n).vecBad x = some b →
      ∃ t y, exec (p.1 d n q) s = .next t ∧ t.mem = s.mem ∧ t.desc? d n q = some y ∧ y.phase = .ended
        ∧ y.status = stUncorr ∧ y.position = b.position ∧ y.operand = b.operand)

/-- R98, R99, R103, R130, R179: REDUCE_LOCAL of each KIND, its class running, its operands good, its output writable and its records in
order, writes its result and ends with OK; a merge that is not final always, one that is final as its rounding ends it. -/
def Obligations.ReduceLocalWrites : Prop :=
  (∀ (d : Die) (n q : Nat) (x : Desc) (s : State), s.RunningDesc d n q 0x09 x → x.rKind = 0 → s.ClassRuns d n →
    (s.vecTaken d n).redBad x = none → (s.vecTaken d n).redWriteBad x = none →
    State.mergeFaults x ((List.range x.rCount).map ((s.vecTaken d n).recsAt x)) = [] →
    exec (.partialRecordMerge d n q) s =
      .next ((s.vecTaken d n).mergeWrite d n q x
        (((List.range x.rCount).map ((s.vecTaken d n).recsAt x)).filterMap (mergeRecs x.rChunks))) ∧
    (x.rFinal = false → ∃ t, exec (.partialRecordMerge d n q) s = .next t ∧ t.Ended d n q stOk)) ∧
  (∀ (d : Die) (n q : Nat) (x : Desc) (s : State), s.RunningDesc d n q 0x09 x → x.rKind = 1 → s.ClassRuns d n →
    (s.vecTaken d n).redBad x = none → (s.vecTaken d n).redWriteBad x = none →
    ∃ t, exec (.orfValueSum d n q) s = .next t ∧ t.Ended d n q stOk) ∧
  (∀ (d : Die) (n q : Nat) (x : Desc) (s : State), s.RunningDesc d n q 0x09 x → x.rKind = 2 → s.ClassRuns d n →
    (s.vecTaken d n).redBad x = none → (s.vecTaken d n).redWriteBad x = none →
    ∃ t, exec (.anchorMaximum d n q) s = .next t ∧ t.Ended d n q stOk) ∧
  (∀ (d : Die) (n q : Nat) (x : Desc) (s : State), s.RunningDesc d n q 0x09 x → x.rKind = 3 → s.ClassRuns d n →
    (s.vecTaken d n).redBad x = none → (s.vecTaken d n).redWriteBad x = none →
    (∀ i < x.rCount, ∀ c < x.rContrib,
      nrmReserved ((s.vecTaken d n).rdV x.pins (x.addr 16 + c * x.rStride + 32 * i) 32) = false) →
    ∃ t, exec (.nrm128Sum d n q) s = .next t ∧ t.Ended d n q stOk)

/-- The bytes of row `i` that a MOVE of a mode writes: those of the source's row, or PATTERN repeated from its byte 0 (R180, R181). -/
def moveRow (mode : Nat) (x : Desc) (s : State) (i : Nat) : Bytes :=
  if mode = 0 then s.rdV x.pins (x.addr 16 + i * State.mvSrcStride x) (State.mvRowBytes x)
  else (List.range (State.mvRowBytes x)).map fun j => BitVec.ofNat 8 (x.f (56 + j % 8) 0 8)

/-- R180, R181, R184, R192, R474: MOVE of each mode, its class running and its operands good, writes its rows and ends with OK, one of a FILL
stream 4 KiB of output at a time; NOP ends with OK; a FENCE waits, and completes once every earlier descriptor of its stream has
ended. -/
def Obligations.MoveAndFence : Prop :=
  (∀ p ∈ [(Instr.moveCopy, 0), (Instr.moveFill, 1)], ∀ (d : Die) (n q : Nat) (x : Desc) (s : State),
    s.RunningDesc d n q 0x10 x → x.f 48 0 1 = p.2 → s.ctxFill d n = false → s.moveBad x = none →
    s.moveWriteBad x 0 (State.mvBytes x) = none →
    ∃ t, exec (p.1 d n q) s = .next t ∧ t.Ended d n q stOk
      ∧ t.mem = (s.movePut x (moveRow p.2 x s) 0 (State.mvBytes x)).mem ∧ s.SameWords t) ∧
  (∀ p ∈ [(Instr.moveCopy, 0), (Instr.moveFill, 1)], ∀ (d : Die) (n q : Nat) (x : Desc) (s : State),
    s.RunningDesc d n q 0x10 x → x.f 48 0 1 = p.2 → s.ClassRuns d n → s.ctxFill d n = true → s.moveBad x = none →
    s.moveWriteBad x (4096 * x.next) (min 4096 (State.mvBytes x - 4096 * x.next)) = none →
    ∃ t, exec (p.1 d n q) s = .next t
      ∧ t.mem = (s.movePut x (moveRow p.2 x s) (4096 * x.next) (min 4096 (State.mvBytes x - 4096 * x.next))).mem
      ∧ (State.mvBytes x ≤ 4096 * (x.next + 1) → t.Ended d n q stOk)
      ∧ (4096 * (x.next + 1) < State.mvBytes x →
          ∃ y, t.desc? d n q = some y ∧ y.phase = .running ∧ y.next = x.next + 1)) ∧
  (∀ (d : Die) (n q : Nat) (x : Desc) (s : State), s.RunningDesc d n q 0x3F x →
    ∃ t, exec (.nop d n q) s = .next t ∧ t.Ended d n q stOk ∧ t.SameMemory s) ∧
  (∀ (d : Die) (n q : Nat) (x : Desc) (s : State), s.RunningDesc d n q 0x38 x → x.aux = [] →
    exec (.fence d n q) s = .next (s.updDesc d n q fun y => { y with aux := [1] })) ∧
  (∀ (d : Die) (n q : Nat) (x : Desc) (s : State), s.RunningDesc d n q 0x38 x → x.aux ≠ [] →
    (∀ y ∈ (s.stream d n).fetched.takeWhile (fun y => y.slot != q), y.phase = .ended) →
    ∃ t, exec (.fenceComplete d n q) s = .next t ∧ t.Ended d n q stOk ∧ t.SameMemory s)

/-! ### Tallies and locks -/

/-- R184, R468 to R470, R476: a TALLY_WAIT on a tally of its compartment ends with OK when the value meets it, else it enters the tally's
waiters, or polls where the die has no free entry; a TALLY_SIGNAL sends its operation and ends with OK. -/
def Obligations.TallyDescriptors : Prop :=
  (∀ (d : Die) (n q : Nat) (x : Desc) (w : Waiter) (s : State), s.RunningDesc d n q 0x39 x → x.aux = [] → s.OwnTally d n x 1 →
    w = ⟨dieCode d, n, x.seq, if x.f 16 14 2 == 1 then .ge (x.f 24 0 64) else .eq (x.f 24 0 64)⟩ →
    ∃ t, exec (.tallyWait d n q) s = .next t ∧
      (w.what.met (s.tally (State.bodyTally x)).value = true → t.Ended d n q stOk) ∧
      (w.what.met (s.tally (State.bodyTally x)).value = false → s.waitEntries (State.bodyTally x) < 4096 →
        (t.tally (State.bodyTally x)).waiters = (s.tally (State.bodyTally x)).waiters ++ [w]) ∧
      (w.what.met (s.tally (State.bodyTally x)).value = false → 4096 ≤ s.waitEntries (State.bodyTally x) →
        t.polls = s.polls ++ [(State.bodyTally x, w)])) ∧
  (∀ p ∈ [(Instr.tallySignalAdd, 0, false), (Instr.tallySignalSet, 1, true)],
    ∀ (d : Die) (n q : Nat) (x : Desc) (s : State), s.RunningDesc d n q 0x3A x → x.f 16 14 2 = p.2.1 → s.OwnTally d n x 1 →
    (x.f 18 0 1 = 0 ∨ s.earlierEnded d n q = true) →
    ∃ t, exec (p.1 d n q) s = .next t ∧ t.Ended d n q stOk
      ∧ t.tallyOps = s.tallyOps ++ [⟨State.bodyTally x, p.2.2, x.f 24 0 64, (dieCode d, n)⟩])

/-- R468, R469: an operation that reaches its tally sets the value or adds modulo 2^64; operations of one stream on one tally keep their
order; a wait that polls is met or takes an entry, and a lock that has become free goes to the acquire that polls. -/
def Obligations.TallyOperations : Prop :=
  (∀ (i : Nat) (o : TallyOp) (s : State), s.Live → s.tallyOps[i]? = some o →
    (∀ p ∈ s.tallyOps.take i, p.t = o.t → p.src ≠ o.src) → s.runs (talPg o.t) = true →
    ∃ t, exec (.tallyOperation i) s = .next t ∧ t.tallyOps = s.tallyOps.eraseIdx i
      ∧ (t.tally o.t).value = (if o.set then o.v else (s.tally o.t).value + o.v) % 2 ^ 64) ∧
  (∀ (i k : Nat) (w : Waiter) (s : State), s.Live → s.polls[i]? = some (k, w) → w.what.isLock = false →
    (w.what.met (s.tally k).value = true → exec (.waitPoll i) s = .next ((s.dropPoll i).wakeWaiter w stOk)) ∧
    (w.what.met (s.tally k).value = false → s.waitEntries k < 4096 →
      exec (.waitPoll i) s =
        .next ((s.dropPoll i).setTally k { s.tally k with waiters := (s.tally k).waiters ++ [w] }))) ∧
  (∀ (i k us : Nat) (w : Waiter) (s : State), s.Live → s.polls[i]? = some (k, w) → w.what = .lock us →
    (s.tally k).holder = none → (∀ v ∈ (s.tally k).waiters, v.what.isLock = false) →
    ∃ t, exec (.waitPoll i) s = .next t ∧ (t.tally k).holder = some (.stream w.die w.n)
      ∧ (t.tally k).leaseEnd = s.base + us * 1000)

/-- R480, R482: LOCK_ACQUIRE of a free lock, or by its holder, takes it for its lease and ends with the status of a grant; of a lock that
another holds it queues; LOCK_RELEASE by the holder frees a lock without queue; a lease that has lapsed abandons it. -/
def Obligations.LocksGrantAndFree : Prop :=
  (∀ (d : Die) (n q : Nat) (x : Desc) (s : State), s.RunningDesc d n q 0x3B x → x.aux = [] → s.OwnTally d n x 2 →
    ((s.tally (State.bodyTally x)).holder = none ∨ (s.tally (State.bodyTally x)).holder = some (.stream (dieCode d) n)) →
    ∃ t, exec (.lockAcquire d n q) s = .next t ∧ t.Ended d n q (s.grantStatus (State.bodyTally x))
      ∧ (t.tally (State.bodyTally x)).holder = some (.stream (dieCode d) n)
      ∧ (t.tally (State.bodyTally x)).leaseEnd = s.base + x.f 20 0 32 * 1000) ∧
  (∀ (d : Die) (n q : Nat) (x : Desc) (h : Holder) (s : State), s.RunningDesc d n q 0x3B x → x.aux = [] → s.OwnTally d n x 2 →
    (s.tally (State.bodyTally x)).holder = some h → h ≠ .stream (dieCode d) n →
    ∃ t, exec (.lockAcquire d n q) s = .next t ∧ (t.tally (State.bodyTally x)).holder = some h
      ∧ (s.waitEntries (State.bodyTally x) < 4096 → (t.tally (State.bodyTally x)).waiters =
          (s.tally (State.bodyTally x)).waiters ++ [⟨dieCode d, n, x.seq, .lock (x.f 20 0 32)⟩])) ∧
  (∀ (d : Die) (n q : Nat) (x : Desc) (s : State), s.RunningDesc d n q 0x3C x → s.OwnTally d n x 2 →
    s.earlierEnded d n q = true → (s.tally (State.bodyTally x)).holder = some (.stream (dieCode d) n) →
    exec (.lockRelease d n q) s = .next ((s.freeLock (State.bodyTally x)).finish d n q stOk)) ∧
  (∀ (k : Nat) (s : State), s.Live → k < 16384 → (s.tally k).holder ≠ none → (s.tally k).paused = none →
    (s.tally k).leaseEnd ≤ s.base / 1000 * 1000 →
    ∃ t, exec (.leaseLapse k) s = .next t ∧ (t.tally k).abandoned = true
      ∧ ((∀ w ∈ (s.tally k).waiters, w.what.isLock = false) → (t.tally k).holder = none))

/-- R480: a lock that one holds is not taken by another: neither TALW_TRY of another hart, whose read returns 0, nor LOCK_ACQUIRE of
another stream changes its holder. -/
def Obligations.HeldLockStaysHeld : Prop :=
  (∀ (h k : Nat) (v : Holder) (s : State), s.WindowOpen h k → (s.tally k).mode = 2 → (s.tally k).holder = some v → v ≠ .hart h →
    ∃ t, exec (.talwTry h k) s = .next t ∧ t.tallies = s.tallies
      ∧ t.answers = ⟨.hart h, .done, [0, 0, 0, 0]⟩ :: s.answers) ∧
  (∀ (d : Die) (n q : Nat) (k : Nat) (v : Holder) (s : State), (s.tally k).holder = some v → v ≠ .stream (dieCode d) n →
    ∃ t, exec (.lockAcquire d n q) s = .next t ∧ (t.tally k).holder = some v)

/-- R480, R484, R485, R488, R489: a hart's accesses to a window, TAL_CFG, and debug mode. -/
def Obligations.TallyWindows : Prop :=
  (∀ (h k : Nat) (v : W32) (s : State), s.WindowOpen h k → (s.tally k).mode = 1 →
    ∃ t, exec (.talwAdd h k v) s = .next t ∧ (t.tally k).value = ((s.tally k).value + v.toNat) % 2 ^ 64
      ∧ t.answers = ⟨.hart h, .done, []⟩ :: s.answers) ∧
  (∀ (h k : Nat) (v : W32) (s : State), s.WindowOpen h k → (s.tally k).mode = 1 →
    ∃ t, exec (.talwSetHi h k v) s = .next t
      ∧ (t.tally k).value = (SMap.getD s.talwLo k 0).toNat + v.toNat * 2 ^ 32) ∧
  (∀ (h k : Nat) (s : State), s.WindowOpen h k → (s.tally k).mode = 2 →
    ((s.tally k).holder = none ∨ (s.tally k).holder = some (.hart h)) →
    ∃ t, exec (.talwTry h k) s = .next t ∧ (t.tally k).holder = some (.hart h)
      ∧ t.answers = ⟨.hart h, .done, leBytes (if (s.tally k).abandoned then 2 else 1) 4⟩ :: s.answers) ∧
  (∀ (h k : Nat) (s : State), s.WindowOpen h k → (s.tally k).mode = 2 → (s.tally k).holder = some (.hart h) →
    exec (.talwRelease h k) s = .next ((s.freeLock k).answer (.hart h) .done)) ∧
  (∀ (h k : Nat) (s : State), s.WindowOpen h k → (s.tally k).mode = 2 → (s.tally k).holder ≠ none →
    ∃ t, exec (.talwClearAbandoned h k) s = .next t ∧ (t.tally k).abandoned = false
      ∧ (t.tally k).holder = (s.tally k).holder) ∧
  (∀ (d : Die) (v : W32) (s : State), s.LiveOn d → (s.tally (s.selTally d)).holder = none →
    (s.tally (s.selTally d)).waiters = [] → s.tallyOwner (s.selTally d) = some (bitsOf v.toNat 2 6) → v.toNat % 4 ≠ 3 →
    exec (.talCfgWrite d v) s = .next (s.setTally (s.selTally d) { Tally.init with mode := v.toNat % 4 })) ∧
  (∀ (h : Nat) (s : State), s.Live → h < 96 → (s.hart h).debug = false → (s.hart h).held = false →
    ∃ t, exec (.hartDebugEnter h) s = .next t ∧ (t.hart h).debug = true ∧ (t.hart h).resv = none
      ∧ (∀ k, (s.tally k).holder = some (.hart h) → (s.tally k).paused = none →
          (t.tally k).paused = some ((s.tally k).leaseEnd - s.base))) ∧
  (∀ (h : Nat) (s : State), s.Live → (s.hart h).debug = true →
    ∃ t, exec (.hartDebugExit h) s = .next t ∧ (t.hart h).debug = false
      ∧ (∀ k r, (s.tally k).holder = some (.hart h) → (s.tally k).paused = some r →
          (t.tally k).paused = none ∧ (t.tally k).leaseEnd = s.base + r))

/-! ### Placement and the pool -/

/-- R215 to R234, R244: ageing, eviction ahead, the end of a write-back, of a page-in and of a move, a step of a caravan, and the query of
a lot's entry. -/
def Obligations.PlacementMoves : Prop :=
  (∀ (k : Nat) (s : State), s.Live → k < 4 → s.runs (State.plcDie k) = true → SMap.getD s.place.ageAt k 0 + 1000000 ≤ s.base →
    ∃ t, exec (.ageStep k) s = .next t ∧
      ∀ l, s.lotTier l < 2 → State.plcOf l = k → s.lotAge l ≠ 0xFF →
        t.lotAge l = if s.place.touched.contains l then 0 else min 0xFE (s.lotAge l + 1)) ∧
  (∀ (near : Bool) (b way l : Nat) (s : State), s.Live → b < s.buckets (if near then 0 else 1) → s.runs (plcPgOf b) = true →
    s.waitingFor (if near then 0 else 1) b = [] → s.foregroundWaits (if near then 0 else 1) = false →
    s.freeFor (if near then 0 else 1) b 64 < s.getF (plcPgOf b) Reg.PLC_LOW_FRAMES →
    s.victim (if near then 0 else 1) b 64 = some l →
    exec (.evictAhead near b way) s = .next (s.evict (if near then 0 else 1) l way)) ∧
  (∀ (l : Nat) (s : State), s.Live → l ∈ s.place.writebacks → s.lotHeld l = false →
    ∃ t, exec (.writebackComplete l) s = .next t ∧ t.lotTier l = 2 ∧ t.lotDirty l = false ∧ l ∉ t.place.writebacks
      ∧ l ∈ t.place.homed) ∧
  (∀ (l way : Nat) (p : PageIn) (s : State), s.Live → (s.place.pageins.find? fun p => p.lot == l) = some p →
    0 < s.freeFor (s.pageAim p).1 (s.bucketOf (s.pageAim p).1 l) (s.lotOwner l) →
    s.wayFree (s.pageAim p).1 (s.bucketOf (s.pageAim p).1 l) way = true →
    exec (.pageInComplete l way) s = .next (s.arrive p way).serveStalls) ∧
  (∀ (l : Nat) (m : LotMove) (s : State), s.Live → (s.place.moves.find? fun m => m.lot == l) = some m → m.tier < 2 →
    m.way < 8192 →
    ∃ t : State, exec (.lotMoveCommit l) s = .next t.serveStalls ∧ t.lotTier l = m.tier ∧ t.lotWay l = m.way
      ∧ t.lotDirty l = s.lotDirty l ∧ t.lotMoving l = false) ∧
  (∀ (d : Die) (n q : Nat) (x : Desc) (s : State), s.RunningDesc d n q 0x11 x → x.aux = [] → (∃ k < 4, s.runs (State.plcDie k) = true) →
    s.badV x.pins (x.addr 16) (4 * x.f 24 0 13) = false → s.badEntry (s.ctxCpt d n) (s.lotList x) = none →
    exec (.migrate d n q) s =
      .next (((s.touchV x.pins (x.addr 16) (4 * x.f 24 0 13)).joinCaravans (State.streamKey d n, q, x.seq)).updDesc d n q fun y =>
        { y with aux := (s.lotList x).map fun e => State.mkEntry e (s.lotGen e) 0 })) ∧
  (∀ (d : Die) (n q : Nat) (x : Desc) (s : State), s.RunningDesc d n q 0x11 x → x.aux ≠ [] → (∃ k < 4, s.runs (State.plcDie k) = true) →
    (∀ e ∈ x.aux, State.entSt e = 2) → ∃ t, exec (.migrate d n q) s = .next t ∧ t.Ended d n q stOk) ∧
  (∀ (k : Nat) (v : W32) (s : State), s.Live → k < 4 →
    exec (.plcQueryLot k v) s = .next (s.setF (State.plcDie k) Reg.PLC_QUERY_LOT_LOT v.toNat))

/-- R156, R237, R245: the doorbell, the enable and the fetch of a pool queue. -/
def Obligations.PoolQueues : Prop :=
  (∀ (c : Nat) (v : W32) (s : State), s.LiveOn .C0 → s.poolOn c = true → bitsOf v.toNat 0 12 < s.poolSlots c →
    (bitsOf v.toNat 0 12 + s.poolSlots c - s.poolTail c) % s.poolSlots c ≤
      ((match s.poolReq c with | some r => r.1 | none => s.poolHead c) + 2 * s.poolSlots c - s.poolTail c - 1) % s.poolSlots c →
    exec (.poolQTail c v) s = .next (s.setF (poolPg c) Reg.POOL_Q_TAIL_TAIL (bitsOf v.toNat 0 12))) ∧
  (∀ (c : Nat) (v : W32) (s : State), s.LiveOn .C0 → bitsOf v.toNat 0 1 = 1 → 4 ≤ bitsOf v.toNat 1 4 → bitsOf v.toNat 1 4 ≤ 12 →
    s.poolRingsOk c (bitsOf v.toNat 1 4) = true →
    ∃ t, exec (.poolQEnable c v) s = .next t ∧ t.poolOn c = true ∧ t.poolSlots c = 2 ^ bitsOf v.toNat 1 4
      ∧ t.getF (poolPg c) Reg.POOL_Q_CFG_HALTED = 0) ∧
  (∀ (c raw : Nat) (s : State), s.LiveOn .C0 → s.runs (poolPg c) = true → s.poolOn c = true → s.poolHead c ≠ s.poolTail c →
    s.poolSlots c ≤ 4096 → s.poolReq c = none → s.badIn (s.poolBase c + 64 * s.poolHead c) 64 = false →
    raw = s.rdNat (s.poolBase c + 64 * s.poolHead c) 64 → bitsOf raw 32 32 = s.poolNext c → poolFault raw = none →
    ∃ t, exec (.poolRequestFetch c) s = .next t ∧ t.poolHead c = (s.poolHead c + 1) % s.poolSlots c
      ∧ t.poolReq c = some (s.poolHead c, raw) ∧ t.mem = s.mem)

/-- R236 to R242: an ALLOC that finds a free range answers its handle and base in the request's slot and its buffer lives; a FREE whose
handle passes waits for the buffer's holders, then the buffer's index rises in generation; SET_PLACEMENT changes the buffer's
TARGET and HINT; a handle of another compartment or of a generation that has passed changes no buffer, and its record of class REFUSED is the
newest of a log with room (R239, R621). -/
def Obligations.PoolOperations : Prop :=
  (∀ (c k raw base idx : Nat) (s : State), s.PoolHas c 1 k raw → (reqF raw 12 0 2 = 1 → strideOk (reqF raw 24 0 12) = true) →
    (s.liveBufs c).length < 262144 → (∃ a ∈ s.candidates c (reqF raw 12 0 2), s.rangeFree c (reqF raw 12 0 2) a (allocBytes raw) = true) →
    s.rangeFree c (reqF raw 12 0 2) base (allocBytes raw) = true → s.indexOk c idx = true →
    s.badIn (s.poolBase c + 64 * k) 64 = false →
    ∃ t, exec (.alloc c base idx) s = .next t ∧ SMap.find t.place.bufs (c * 2 ^ 18 + idx) =
      some ⟨base, allocBytes raw, reqF raw 12 0 2, reqF raw 14 0 3, reqF raw 13 0 3, SMap.getD s.place.gens (c * 2 ^ 18 + idx) 0⟩) ∧
  (∀ (c k raw : Nat) (s : State), s.PoolHas c 2 k raw → s.handleCheck c (reqF raw 8 0 32) = stOk →
    exec (.free c) s =
      .next { s with place := { s.place with freeing := SMap.put s.place.freeing c (reqF raw 8 0 32) } }) ∧
  (∀ (c h : Nat) (b : Buf) (s : State), s.LiveOn .C0 → SMap.find s.place.freeing c = some h →
    SMap.find s.place.bufs (c * 2 ^ 18 + bitsOf h 0 18) = some b → s.bufHeld b = false →
    exec (.freeComplete c) s = .next (((s.freeBuffer c (bitsOf h 0 18) b).poolDone c stOk).serveStalls)) ∧
  (∀ (c k raw : Nat) (b : Buf) (s : State), s.PoolHas c 3 k raw → s.handleCheck c (reqF raw 8 0 32) = stOk →
    SMap.find s.place.bufs (c * 2 ^ 18 + bitsOf (reqF raw 8 0 32) 0 18) = some b → (b.kind < 2 ∨ reqF raw 14 0 3 = 0) →
    ∃ t, exec (.setPlacement c) s = .next t ∧ SMap.find t.place.bufs (c * 2 ^ 18 + bitsOf (reqF raw 8 0 32) 0 18) =
      some { b with target := reqF raw 14 0 3, hint := reqF raw 13 0 3 }) ∧
  (∀ p ∈ [(Instr.free, 2), (Instr.setPlacement, 3)], ∀ (c k raw : Nat) (s : State), s.PoolHas c p.2 k raw →
      s.handleCheck c (reqF raw 8 0 32) ≠ stOk →
      ∃ t, exec (p.1 c) s = .next t ∧ t.place.bufs = s.place.bufs ∧ t.place.gens = s.place.gens ∧ t.place.freed = s.place.freed
        ∧ (s.log.length < 65536 → ∃ r, t.log = s.log ++ [r] ∧ r.cls = .refusal ∧ r.status = s.handleCheck c (reqF raw 8 0 32)
            ∧ r.reqCpt = c))

/-! ### Near store and depot -/

/-- R248, R249, R253, R255, R257, R260, R263 to R271: reads and writes of codewords, narrow reads, refresh, calibration, scrubbing, marks,
samples, the refresh rate of a depot channel, and LOCAL_GIB until the pool opens. -/
def Obligations.MemoryControllers : Prop :=
  (∀ (r : Requester) (pa : Nat) (x : Fetch) (w : Cw) (bad : Bool) (s u v : State), s.Live →
    s.cwOf ((State.fetchSectors pa x).getD 0 0) = some w → s.ChannelFree w → u = s.requestIn r w.die pa [] →
    exec (.memRead r pa x bad) s = .next (u.serveRead r pa x bad) ∧
    (∀ b, x.granule = false → u.readCw w (pa / 64 * 64) ((x.errs.filter fun e => e.1 == 0).flatMap (·.2)) bad = (some b, v) →
      exec (.memRead r pa x bad) s =
        .next (((v.touchRead (pa / 64 * 64) 64).replyOut r w.die (pa / 64 * 64) b).answer r .done b)) ∧
    (x.granule = false → u.readCw w (pa / 64 * 64) ((x.errs.filter fun e => e.1 == 0).flatMap (·.2)) bad = (none, v) →
      exec (.memRead r pa x bad) s =
        .next (((v.reportUncorr r (pa / 64 * 64) 0).replyOut r w.die (pa / 64 * 64) []).tellUncorr r 64))) ∧
  (∀ (r : Requester) (pa : Nat) (x : MemStore) (w : Cw) (s : State), s.Live → s.cwOf (pa / 64 * 64) = some w → s.ChannelFree w →
    s.movingIn pa x.data.length = false → x.errs = [] → x.data ≠ [] → (pa + x.data.length - 1) / 256 = pa / 256 →
    ((State.sectorsOf pa x.data.length).all fun y => (s.cwOf y.1).any fun v => !s.dieDown v.die) = true →
    (∀ y ∈ (s.chan w.die w.ch).narrow, pa + x.data.length ≤ y.pa ∨ y.pa + y.ask.len ≤ pa) →
    exec (.memWrite r pa x) s = .next ((s.requestIn r w.die pa x.data).serveWrite r pa x) ∧
    (pa % 64 = 0 → x.data.length % 64 = 0 → s.partialBad pa x.data.length = false →
      ∃ t, exec (.memWrite r pa x) s = .next t ∧ t.mem = Memory.writeBytes s.mem pa x.data
        ∧ t.answers = ⟨r, .done, []⟩ :: s.answers)) ∧
  (∀ (k pa : Nat) (x : NarrowAsk) (w : Cw) (s : State), s.Live → s.cwOf pa = some w → (x.len = 16 ∨ x.len = 32) → pa % x.len = 0 →
    (s.chan w.die w.ch).narrow.length < 256 →
    exec (.narrowRead k pa x) s = .next ((s.requestIn (.unit (lkpPg k)) w.die pa []).setChan w.die w.ch { s.chan w.die w.ch with
      narrow := (s.chan w.die w.ch).narrow ++ [⟨k, pa, x, s.base, none⟩] })) ∧
  (∀ (d : Die) (ch : Nat) (x : Narrow) (s u : State), s.LiveOn d → x ∈ (s.chan d ch).narrow →
    x.since + s.narrowWait d ≤ s.base → u = s.ripeNarrow d ch →
    exec (.narrowWaitExpiry d ch) s = .next (u.runChan d ch) ∧ x ∉ (u.chan d ch).narrow
      ∧ ∃ y ∈ (u.chan d ch).fg, y.op = .narrow x) ∧
  (∀ (d : Die) (ch : Nat) (s : State), s.LiveOn d → hasMem d = true → ch < 32 → (s.chan d ch).refAt ≤ s.base →
    ∃ t, exec (.refreshDue d ch) s = .next t ∧ (t.chan d ch).refAt = (s.chan d ch).refAt + s.trefi d ch) ∧
  (∀ (d : Die) (ch : Nat) (s : State), s.LiveOn d → hasMem d = true → ch < 32 → s.noSlot d ch 5 = false → -8 < s.debt d ch →
    (s.anySealed = false ∨ 0 < s.debt d ch) → exec (.refreshPullIn d ch) s = .next (s.setDebt d ch (s.debt d ch - 1))) ∧
  (∀ (d : Die) (ch : Nat) (s : State), s.LiveOn d → hasMem d = true → ch < 32 → (s.chan d ch).calDue = false →
    (s.chan d ch).calAt ≤ s.base →
    exec (.calibrationDue d ch) s = .next (s.setChan d ch { s.chan d ch with calDue := true })) ∧
  (∀ (d : Die) (ch : Nat) (s : State), s.LiveOn d → (s.chan d ch).calDue = true → (s.chan d ch).calRun = none →
    (s.anySealed = true ∨ (s.chan d ch).calAt + 1000000 ≤ s.base) →
    exec (.forcedCalibration d ch) s =
      .next ((s.setChan d ch { s.chan d ch with calRun := some s.base }).bump (memPg d) calForcedF)) ∧
  (∀ (d : Die) (ch : Nat) (s : State), s.LiveOn d → (s.chan d ch).calDue = true →
    ((s.chan d ch).calRun ≠ none ∨ s.noSlot d ch 6 = false) →
    ∃ t : State, exec (.calibrationEnd d ch) s = .next (t.runChan d ch) ∧ (t.chan d ch).calDue = false ∧ (t.chan d ch).calRun = none
      ∧ (t.chan d ch).calAt = s.base + 64000000) ∧
  (∀ (d : Die) (ch : Nat) (errs : List (Nat × List Nat)) (s : State), s.LiveOn d → hasMem d = true → ch < 32 →
    (s.chan d ch).scrubDue ≤ s.base → s.noSlot d ch 3 = false →
    exec (.guaranteedScrub d ch errs) s = .next ((s.setChan d ch { s.chan d ch with
      scrubDue := (s.chan d ch).scrubDue + State.scrubEvery d }).scrubBurst d ch errs)) ∧
  (∀ (d : Die) (ch : Nat) (errs : List (Nat × List Nat)) (s : State), s.LiveOn d → hasMem d = true → ch < 32 →
    s.getF (memPg d) (if isTensor d then Reg.HBMC_CFG_SCRUB_EN else Reg.DEPC_CFG_SCRUB_EN) = 1 → s.noSlot d ch 8 = false →
    exec (.patrolScrub d ch errs) s = .next (s.scrubBurst d ch errs)) ∧
  (∀ (d : Die) (ch pair : Nat) (s : State), s.LiveOn d → isTensor d = true → ch < 32 → pair < 16 → (s.chan d ch).marked = none →
    16 ≤ ((s.chan d ch).corr.filter fun p => p.1 == pair && decide (s.base < p.2 + 10 ^ 9)).length →
    ∃ t, exec (.dqPairMark d ch pair) s = .next t ∧ (t.chan d ch).marked = some pair) ∧
  (∀ (d : Die) (s : State), s.LiveOn d → hasMem d = true → SMap.getD s.telemAt (dieCode d) 0 + 10000 ≤ s.base →
    (SMap.getD s.telem (dieCode d) []).length < 1024 →
    ∃ t, exec (.telemetrySample d) s = .next t ∧ SMap.getD t.telemAt (dieCode d) 0 = s.base ∧ t.regs = s.regs
      ∧ SMap.getD t.telem (dieCode d) [] =
          (if Config.telemDrained s.free then [] else SMap.getD s.telem (dieCode d) [])
            ++ [(s.base, s.regs.filter fun e => keyPage e.1 == pageNo (memPg d))]) ∧
  (∀ (d : Die) (c : Nat) (s : State), s.LiveOn d → isTensor d = true →
    ∃ t, exec (.stackTemperatureSample d c) s = .next t ∧ t.getF (memPg d) Reg.HBMC_TEMP_TEMP_C = min c 255
      ∧ t.getF (memPg d) Reg.HBMC_TEMP_HOT = (if 85 < c then 1 else 0)) ∧
  (∀ (d : Die) (ch rate : Nat) (s : State), s.LiveOn d → isCap d = true → ch < 32 →
    exec (.mr4Read d ch rate) s = .next (s.setF (memPg d) Reg.DEPC_MR4_REF_RATE rate ch)) ∧
  (∀ (v : W32) (s : State), s.Live → s.getF ⟨.T0, .hbmc, 0⟩ Reg.HBMC_CFG_LOCKED = 0 →
    exec (.localGibWrite v) s = .next (s.setF ⟨.T0, .hbmc, 0⟩ Reg.HBMC_CFG_LOCAL_GIB (min 16 (v.toNat % 32))))

/-! ### Optimizer updates, difference streams and snapshots -/

/-- R276, R282 to R296: a unit that runs reads a new UPDATE's parameter block, which passes its checks, has the arrays translated, and
classifies the request; a request read before, or one that waits, is classified; one that has waited the gap timeout ends with
ORDER_GAP_TIMEOUT. -/
def Obligations.UpdateRequests : Prop :=
  (∀ (d : Die) (n q : Nat) (x y z : Desc) (s s1 : State), s.RunningDesc d n q 0x20 x → s.runs (s.lotPg x 0) = true → x.aux = [] →
    x.layout = 0 → (∀ l < x.uLots, s.lotWhole x l = true) → s.badV x.pins (x.addr 32) 192 = false →
    y = { x with layout := s.rdVNat x.pins (x.addr 32) 192 } → (∀ r ∈ blockRules y, r.1 = true) →
    (s.touchV x.pins (x.addr 32) 192).pinArrays d n q y (updateArrays y) 56 = (true, s1) → s1.desc? d n q = some z → s1.absentLots (State.descLots z) = [] →
    exec (.update d n q) s = .next (s1.classify d n q z)) ∧
  (∀ (d : Die) (n q : Nat) (x : Desc) (s : State), s.RunningDesc d n q 0x20 x → s.runs (s.lotPg x 0) = true → x.aux = [] →
    x.layout ≠ 0 → s.absentLots (State.descLots x) = [] →
    exec (.update d n q) s = .next (s.classify d n q x)) ∧
  (∀ (d : Die) (n q : Nat) (x : Desc) (s : State), s.RunningDesc d n q 0x20 x → uPhase x = 1 →
    exec (.updateAdmit d n q) s = .next (s.classify d n q x)) ∧
  (∀ (d : Die) (n q u : Nat) (x : Desc) (s : State), s.LiveOn d → s.desc? d n q = some x → x.phase = .running →
    (x.op = 0x19 ∨ x.op = 0x20 ∨ x.op = 0x21) → uPhase x = 1 → u = (((reqLots x).head?).bind s.updUnit).getD 0 →
    uSince x + s.getF (updPg u) Reg.UPD_GAP_TIMEOUT_US * 1000 ≤ s.base →
    ∃ t, exec (.orderGapTimeout d n q) s = .next t ∧ t.Ended d n q stGap ∧ t.mem = s.mem)

/-- R293 to R295: a request whose lots are all in order, that no other request holds and that comes after no waiting one, is admitted by its gate; one
that must wait joins the waiters, and the ninth waiter of a lot ends with BUSY and changes nothing in memory. -/
def Obligations.UpdateOrder : Prop :=
  (∀ (d : Die) (n q : Nat) (x : Desc) (c : Sys2Proof.Machine.Num) (st : Nat) (s : State), s.RunningDesc d n q 0x20 x → uPhase x = 1 →
    s.trailerFault x = none →
    (∀ l < x.uLots, updClass (s.trailer x l) x.uMilestone x.uPass ≠ .waits) → s.lotsHeld d n q 0x20 (reqLots x) = false →
    s.comesAfter d n q (x.uMilestone, x.uPass) (reqLots x) = false →
    s.updGate x = .step st c → x.uLots ≠ 0 → (∀ l < x.uLots, updClass (s.trailer x l) x.uMilestone x.uPass = .inOrder) →
    ∃ t y, exec (.updateAdmit d n q) s = .next t ∧ t.desc? d n q = some y ∧ y.phase = .running ∧ uPhase y = 2 ∧ uStatus y = st
      ∧ t.mem = s.mem) ∧
  (∀ (d : Die) (n q l : Nat) (x : Desc) (s : State), s.RunningDesc d n q 0x20 x → s.runs (s.lotPg x 0) = true → x.aux = [] →
    x.layout ≠ 0 → s.absentLots (State.descLots x) = [] → s.trailerFault x = none → l < x.uLots →
    updClass (s.trailer x l) x.uMilestone x.uPass = .waits →
    ∃ t, exec (.update d n q) s = .next t ∧ t.mem = s.mem ∧
      ((∀ k < x.uLots, s.waitersOf (lotPa x k) < 8) → ∃ y, t.desc? d n q = some y ∧ uPhase y = 1 ∧ uSince y = s.base) ∧
      (8 ≤ s.waitersOf (lotPa x l) → t.Ended d n q stBusy))

/-- R281, R286, R298: the unit of a lot that is to be done, which runs and that no snapshot still has to ship, applies an admitted UPDATE to
it, or, on a skipped step, writes its trailer. -/
def Obligations.UpdateLots : Prop :=
  ∀ (d : Die) (n q l u : Nat) (x : Desc) (s : State), s.LiveOn d → s.desc? d n q = some x → x.phase = .running → x.op = 0x20 →
    uPhase x = 2 → s.updUnit (lotPa x l) = some u → l < x.uLots → uLotSt x l = 0 → s.runs (updPg u) = true →
    s.writesMoving x = false → s.snapHolds (lotPa x l) = false →
    exec (.updateLotApply d n q l) s = .next
      (if uStatus x == stOk then
        s.applyUpdLot d n q l u x (fun _ => true) (s.lotGrad x l) (s.lotAnchors x l) (uClip x) (fun t => t.lotDone d n q l)
       else s.skipUpdLot d n q l u x (fun t => t.lotDone d n q l))

/-- R300 to R302, R309, R527: the record in progress of a unit is written to its ring and the producer offset advances, after a PAD record
where it does not fit before the end; the consumer offset; and the settings of a stream whose MODE is 0. -/
def Obligations.DifferenceStreams : Prop :=
  (∀ (u : Nat) (r : DsRec) (s : State), s.Live → (s.dsUnit (u % 16)).out = some r → r.log2 ≤ 30 → r.bytes.length ≤ 2 ^ r.log2 →
    ∃ t, exec (.dsRecordWrite u) s = .next t ∧ (t.dsUnit (u % 16)).out = none
      ∧ t.getF (updPg (u % 16)) Reg.UPD_DS_HEAD =
        ((if s.getF (updPg (u % 16)) Reg.UPD_DS_HEAD % 2 ^ r.log2 + r.bytes.length ≤ 2 ^ r.log2 then
            s.getF (updPg (u % 16)) Reg.UPD_DS_HEAD % 2 ^ r.log2 else 0) + r.bytes.length) % 2 ^ r.log2) ∧
  (∀ (u : Nat) (v : W32) (s : State), s.Live →
    exec (.updDsTail u v) s = .next (s.setF (updPg (u % 16)) Reg.UPD_DS_TAIL v.toNat)) ∧
  (∀ (u : Nat) (v : W32) (s : State), s.Live → s.getF (updPg (u % 16)) Reg.UPD_DS_CFG_MODE = 0 →
    exec (.updDsCfgWrite u 0x44 v) s = .next (s.rwWrite (updPg (u % 16)) 0x44 v.toNat) ∧
    exec (.updDsCfgWrite u 0x48 v) s = .next (s.holdLo (updPg (u % 16)) 0x48 v.toNat) ∧
    exec (.updDsCfgWrite u 0x4C v) s = .next ((s.takeLo (updPg (u % 16)) 0x48).rwWrite (updPg (u % 16)) 0x4C v.toNat))

/-- R305 to R308: a SNAPSHOT whose target record passes is classified; the next lot of a unit is copied to a local target or posted to a
remote one; an acknowledged lot is shipped, and the last one ends the SNAPSHOT with OK; a lot delayed past its limit ends it with
BUSY. -/
def Obligations.Snapshots : Prop :=
  (∀ (d : Die) (n q : Nat) (x y z : Desc) (s s1 : State), s.RunningDesc d n q 0x21 x → s.runs (s.lotPg x 0) = true → uPhase x < 2 →
    x.layout = 0 → (∀ l < x.uLots, s.lotWhole x l = true) → s.badV x.pins (x.addr 24) 64 = false →
    y = { x with layout := s.rdVNat x.pins (x.addr 24) 64 + 2 ^ 512 } → y.layout &&& (2 ^ 513 - 1 - tgtMask) = 0 →
    s.targetFault d n y = none → s1 = s.updDesc d n q (fun w => { w with layout := y.layout }) → s1.desc? d n q = some z →
    s1.absentLots (State.descLots z) = [] →
    exec (.snapshot d n q) s = .next (s1.snapClassify d n q z)) ∧
  (∀ (d : Die) (n q : Nat) (x : Desc) (s : State), s.RunningDesc d n q 0x21 x → s.runs (s.lotPg x 0) = true → uPhase x < 2 →
    x.layout ≠ 0 → s.absentLots (State.descLots x) = [] →
    exec (.snapshot d n q) s = .next (s.snapClassify d n q x)) ∧
  (∀ (d : Die) (n q l : Nat) (x : Desc) (s : State), s.RunningDesc d n q 0x21 x → uPhase x = 2 → l < x.uLots →
    s.shipTurn x l = true → s.runs (s.lotPg x l) = true → s.absentLots (State.lotsV x.pins (lotVa x l) 65536) = [] →
    s.badV x.pins (lotVa x l) 65536 = false → s.targetFault d n x = none →
    (tgtKind x = 0 → s.blockedLots (State.lotsOf (tgtDest x + 65536 * l) 65536) = [] →
      s.partialBad (tgtDest x + 65536 * l) 65536 = false →
      exec (.snapshotLotShip d n q l) s =
        .next (((s.touchV x.pins (lotVa x l) 65536).wrBytes (tgtDest x + 65536 * l) (s.rdV x.pins (lotVa x l) 65536)).setShip
          d n q l 1)) ∧
    (tgtKind x = 1 → s.qpReady (qpnKey (tgtQpn x)) (dieCode d, n, q, x.seq) 1 65536 = true →
      exec (.snapshotLotShip d n q l) s =
        .next (((s.touchV x.pins (lotVa x l) 65536).setShip d n q l 1).post (qpnKey (tgtQpn x))
          (.lot (dieCode d) n q x.seq l) 1 (tgtDest x + 65536 * l) (tgtHandle x) none (s.rdV x.pins (lotVa x l) 65536) 65536))) ∧
  (∀ (d : Die) (n q l : Nat) (x : Desc) (s : State), s.RunningDesc d n q 0x21 x → uPhase x = 2 → l < x.uLots →
    uLotSt x l % 4 = 1 → (tgtKind x = 1 → ∀ w ∈ (s.qp (qpnKey (tgtQpn x))).sent, w.src ≠ .lot (dieCode d) n q x.seq l) →
    ∃ t, exec (.snapshotAck d n q l) s = .next t ∧
      ((∀ k < x.uLots, k = l ∨ uLotSt x k % 4 = 2) → t.Ended d n q stOk) ∧ t.SameMemory s) ∧
  (∀ (d : Die) (n q l u : Nat) (x : Desc) (s : State), s.RunningDesc d n q 0x21 x → snapDelay? x l = some u → uPhase x = 2 →
    l < x.uLots → uLotSt x l % 4 < 2 → u + x.f 44 0 32 * 1000 ≤ s.base →
    ∃ t, exec (.snapshotDelayLimit d n q l) s = .next t ∧ t.Ended d n q stBusy ∧ t.SameMemory s)

/-! ### Lookup -/

/-- R311, R317, R322, R330 to R336: a LOOKUP latches an engine and the table's version, its turn has come, its indices are good and its rows
are fetched and pooled; a LOOKUP_GRAD's gradients are merged and its requests for master lots classified; a row whose masters have been applied is
completed. -/
def Obligations.Lookups : Prop :=
  (∀ (d : Die) (n q : Nat) (x y : Desc) (idx : List Nat) (s s1 : State), s.RunningDesc d n q 0x18 x →
    s1 = (if x.layout == 0 then s.lkpLatch d n q x else s) → s1.RunningDesc d n q 0x18 y → y.layout ≠ 0 →
    s1.lkpTurn y = true → s1.runs (lkpPg y.lkEngine) = true →
    s1.absentLots (State.descLots y) = [] → s1.lkSort y = .rows idx →
    exec (.lookup d n q) s =
      .next (((s1.touchBatch y idx).setF (lkpPg y.lkEngine) Reg.LKP_UNIQUE_LAST idx.eraseDups.length).lkRun d n y idx)) ∧
  (∀ (d : Die) (n q : Nat) (x y z : Desc) (idx : List Nat) (s s1 s2 s3 : State), s.RunningDesc d n q 0x19 x →
    s1 = (if x.layout == 0 then s.lkpLatch d n q x else s) → s1.RunningDesc d n q 0x19 y → y.layout ≠ 0 → uPhase y ≠ 2 →
    s1.lkpTurn y = true → s1.runs (lkpPg y.lkEngine) = true →
    s1.absentLots (State.descLots y) = [] → s1.gradParams d n q y = (true, s2) → s2.RunningDesc d n q 0x19 z →
    s2.lkSort z = .rows idx →
    s3 = (s2.touchBatch z idx).setF (lkpPg z.lkEngine) Reg.LKP_UNIQUE_LAST idx.eraseDups.length →
    s3.badV z.pins (z.addr 40) (z.lkBags * z.lkDim * (fmtBits (z.fmt 0) / 8)) = false →
    exec (.lookupGrad d n q) s =
      .next ((s3.touchV z.pins (z.addr 40) (z.lkBags * z.lkDim * (fmtBits (z.fmt 0) / 8))).gradClassify d n q z idx)) ∧
  (∀ (d : Die) (n q row key e : Nat) (x : Desc) (s : State), s.RunningDesc d n q 0x19 x → x.lkSlot? = some key →
    ((gradRows x).find? fun e => gRow e == row && !gDone e) = some e → uPhase x = 2 → uStatus x = stOk →
    (∀ l ∈ lotsOfRow x (s.lkVer x) row, (((gradLots x).find? fun k => k / 4 == verMaster (s.lkVer x) + 65536 * l).getD 0) % 4 = 2) →
    s.ctxMilestone d n ≤ entLast (s.rowEntry (s.lkVer x) row) →
    (∀ a, s.lotTier a ≠ 2) → s.place.moves = [] → s.badIn (verDir (s.lkVer x) + 16 * row) 16 = false →
    (∀ k < verDim (s.lkVer x),
      s.badIn (State.paramAddr (s.lkVer x) (gradPL x (s.lkVer x)) (row * verDim (s.lkVer x) + k)) 6 = false) →
    exec (.lookupRowUpdate d n q row) s =
      .next ((s.updDesc d n q fun y => { y with aux := y.aux.map fun k => if k == e then e + 2 ^ 72 else k }).gradSettle d n q)) ∧
  (∀ (d : Die) (n q row key e : Nat) (x : Desc) (s : State), s.RunningDesc d n q 0x19 x → x.lkSlot? = some key →
    ((gradRows x).find? fun e => gRow e == row && !gDone e) = some e → uPhase x = 2 → uStatus x = stOk →
    (∀ l ∈ lotsOfRow x (s.lkVer x) row, (((gradLots x).find? fun k => k / 4 == verMaster (s.lkVer x) + 65536 * l).getD 0) % 4 ≠ 0) →
    entLast (s.rowEntry (s.lkVer x) row) < s.ctxMilestone d n →
    (∀ a, s.lotTier a ≠ 2) → s.place.moves = [] → s.badIn (verDir (s.lkVer x) + 16 * row) 16 = false →
    (∀ k < verDim (s.lkVer x),
      s.badIn (State.paramAddr (s.lkVer x) (gradPL x (s.lkVer x)) (row * verDim (s.lkVer x) + k)) 6 = false) →
    exec (.lookupRowUpdate d n q row) s =
      .next (((s.updateRow x key (s.lkVer x) row (s.ctxMilestone d n) (gCount e)).updDesc d n q fun y =>
        { y with aux := y.aux.map fun k => if k == e then e + 2 ^ 72 else k }).gradSettle d n q))

/-- R315 to R321, R338, R339, R342: the registry of tables. A LOAD of a FREE slot whose record passes makes it LOADED, and completes; a
LOADED slot is unloaded, or becomes CURRENT; a row of the CURRENT version gets or loses its tombstone; a sweep runs when its period
has passed; a hot slot that its row left is free once the descriptors that latched it have completed. -/
def Obligations.TableRegistry : Prop :=
  (∀ (v : W32) (pa : Nat) (s : State), s.Live → s.tblLoad = none → (s.tblSlot (s.tblCmd v).1).st = 0 →
    pa = s.getF lkpRegPg Reg.LKP_TBL_REC_LO_PA <<< 6 + s.getF lkpRegPg Reg.LKP_TBL_REC_HI_PA <<< 32 →
    exec (.load v) s = .next ((s.tblCmd v).2.loadTake (s.tblCmd v).1 pa)) ∧
  (∀ (l : TblLoad) (s : State), s.Live → s.tblLoad = some l → l.taken = true →
    s.blockedLots ((s.hotRows (s.tblSlot l.key).ver).flatMap fun r => State.lotsOf (verDir (s.tblSlot l.key).ver + 16 * r) 16) = [] →
    ∃ t, exec .loadComplete s = .next t ∧ t.tblLoad = none ∧ t.tables = s.tables ∧ ∀ h ∈ t.hot, h.key ≠ l.key) ∧
  (∀ (v : W32) (s : State), s.Live → (s.tblSlot (s.tblCmd v).1).st = 1 →
    ∃ t, exec (.unload v) s = .next t ∧ (t.tblSlot (s.tblCmd v).1).st = 0) ∧
  (∀ (v : W32) (key : Nat) (s : State), s.Live → key = bitsOf v.toNat 0 10 * 2 + bitsOf v.toNat 10 1 → (s.tblSlot key).st = 1 →
    ∃ t, exec (.switch v) s = .next t ∧ (t.tblSlot key).st = 2 ∧ (t.tblSlot key).ver = (s.tblSlot key).ver
      ∧ ((s.tblSlot (key ^^^ 1)).st = 2 →
          (t.tblSlot (key ^^^ 1)).st = (if (s.latched (key ^^^ 1)) = [] then 0 else 3))) ∧
  (∀ p ∈ [(Instr.tombstone, 1), (Instr.revive, 0)], ∀ (v : W32) (key : Nat) (s : State), s.Live →
    s.currentSlot (bitsOf v.toNat 0 10) = some key → s.getF lkpRegPg Reg.LKP_ROW < verRows (s.tblSlot key).ver →
    s.blockedLots (State.lotsOf (verDir (s.tblSlot key).ver + 16 * s.getF lkpRegPg Reg.LKP_ROW) 16) = [] →
    s.partialBad (verDir (s.tblSlot key).ver + 16 * s.getF lkpRegPg Reg.LKP_ROW) 1 = false →
    ∃ t, exec (p.1 v) s = .next t ∧ entTomb (t.rowEntry (s.tblSlot key).ver (s.getF lkpRegPg Reg.LKP_ROW)) = (p.2 == 1)) ∧
  (∀ (k key e : Nat) (s : State), s.Live → k < 1024 → s.currentSlot k = some key →
    s.sweepEngine k (verOwner (s.tblSlot key).ver) = some e → s.runs (lkpPg e) = true →
    s.getF (lkpPg e) Reg.LKP_SWEEP_CFG_EN = 1 → s.lkpBusy e = false → s.gradOn key = false →
    SMap.find s.sweeps e = none → (∀ a, s.lotTier a ≠ 2) → s.place.moves = [] →
    SMap.getD s.sweptAt k 0 + s.getF (lkpPg e) Reg.LKP_SWEEP_CFG_PERIOD_MS * 1000000 ≤ s.base →
    ∃ t, exec (.sweep k) s = .next t ∧ SMap.getD t.sweptAt k 0 = s.base ∧ SMap.find t.sweeps e = none) ∧
  (∀ (k sl w i : Nat) (h : HotSlot) (s : State), s.Live → h ∈ s.hot → h.key = k * 2 + sl → h.w = w → h.hot = i →
    h.left = some [] → ∃ t, exec (.hotSlotFree k sl w i) s = .next t ∧ h ∉ t.hot)

/-! ### Errors, tests and freezes -/

/-- R138, R140, R141, R621 to R624, R626, R629 to R632, R647: a detected error of a live array isolates it and starts its targeted test; a
clearing array is ready when its clearing ends; a structure that passes is back in service and its error counted, an array that fails
leaves the live mask; a structure at the limit of transient errors is handled as one that failed; a corrected error is counted, a
FATAL one starts its freeze or die reset; a lost write is recorded or reported to its hart; full BIST runs on an idle island
and gives its result; the live test controls inject and test. -/
def Obligations.ErrorsAndTests : Prop :=
  (∀ (d : Die) (e a : Nat) (w : ArrPart) (r : Arr) (s : State), s.LiveOn d → (s.engine d e).arrays[a]? = some r →
    structOn d (.array e a) = true → (s.liveMask d e).testBit a = true → w ≠ .bankSingle → (∀ k, w = .shadowPlane k → r.reloaded = some k) →
    r.clearing = false → s.tests = [] → s.bists = [] →
    exec (.arrayDetectedError d e a w) s = .next (State.discardTile { s with
      tests := [⟨dieCode d, .array e a, s.base, State.structRec d (.array e a) .transient false 0, s.streamsOn d (.array e a)⟩] } d e a)) ∧
  (∀ (d : Die) (e a : Nat) (r : Arr) (s : State), s.LiveOn d → (s.engine d e).arrays[a]? = some r → r.clearing = true →
    r.errPending = none →
    exec (.arrayClearDone d e a) s = .next (s.updArr d e a fun (z : Arr) =>
      { Arr.init with last := z.last, isolated := z.isolated })) ∧
  (∀ (d : Die) (e a : Nat) (u : SelfTest) (r : Arr) (s : State), s.LiveOn d →
    (s.tests.find? fun t => t.die == dieCode d && t.st == .array e a) = some u → (s.engine d e).arrays[a]? = some r →
    s.armedFail d e = false →
    ∃ t x, exec (.targetedSelfTestDone d (.array e a) true) s = .next t ∧ (t.engine d e).arrays[a]? = some x ∧ x.isolated = false
      ∧ (∀ v ∈ t.tests, ¬ (v.die = dieCode d ∧ v.st = .array e a)) ∧ (dieCode d, .array e a, s.base) ∈ t.transients) ∧
  (∀ (d : Die) (e a : Nat) (u : SelfTest) (s : State), s.LiveOn d → structOn d (.array e a) = true →
    (s.tests.find? fun t => t.die == dieCode d && t.st == .array e a) = some u →
    (s.liveMask d e).testBit a = true → s.liveMask d e ≠ 2 ^ a →
    ∃ t, exec (.targetedSelfTestDone d (.array e a) false) s = .next t ∧ (t.liveMask d e).testBit a = false) ∧
  (∀ (d : Die) (st : Struct) (s : State), s.LiveOn d → 16 ≤ s.transientsOf d st →
    exec (.transientLimit d st) s = .next (State.failTest { s with
      transients := s.transients.filter fun t => !(t.1 == dieCode d && t.2.1 == st)
      tests := s.tests.filter fun t => !(t.die == dieCode d && t.st == st) } d st (State.structRec d st .lasting false 0))) ∧
  (∀ (d : Die) (st : Struct) (pa : Nat) (s : State), s.LiveOn d → structOn d st = true →
    exec (.errorDetected d st .corrected pa) s = .next (s.countCorr d st)
      ∧ exec (.errorDetected d st .transient pa) s = .next (s.detect d st false pa)
      ∧ exec (.errorDetected d st .fatal pa) s = .next (s.fatal d (State.structRec d st .fatal false pa))) ∧
  (∀ (h pa : Nat) (s : State), s.Live → h < 96 → (s.hart h).held = false →
    exec (.writeLost (.hart h) pa false) s = .next (s.answer (.hart h) .accessFault)
      ∧ exec (.writeLost (.hart h) pa true) s = .next (((s.writeLostRec (.hart h) (s.cptOf (.hart h)) pa).bump
          (bistPg (if h < 48 then .H0 else .H1)) Reg.BIST_WRLOST).raise (bistPg (if h < 48 then .H0 else .H1)) 2)) ∧
  (∀ (d : Die) (i : Nat) (s : State), s.LiveOn d → i = s.getF (bistPg d) Reg.BIST_SEL_ISLAND → i < islandCount d →
    s.islandIdle d i = true → (dieCode d, i) ∉ s.bists →
    ∃ t, exec (.bistRun d) s = .next t ∧ t.bists = s.bists ++ [(dieCode d, i)] ∧ t.getF (bistPg d) Reg.BIST_CMD_BUSY = 1) ∧
  (∀ (d : Die) (i : Nat) (v : BitVec 64) (ok : Bool) (s u : State), s.LiveOn d → (dieCode d, i) ∈ s.bists → u = s.bistEnd d i v ok →
    (∀ e ∈ u.bists, e.1 ≠ dieCode d) →
    exec (.bistComplete d i v ok) s =
      .next (((u.setF (bistPg d) Reg.BIST_CMD_BUSY 0).bistSummary d).raise (bistPg d) 1)) ∧
  (∀ (pg : Page) (s : State), s.LiveOn pg.die → s.liveTest pg = true → s.getF pg Reg.INJ_KIND = 1 →
    exec (.injArm pg) s = .next ((s.setF pg Reg.INJ_ARM 0).countCorr pg.die (s.injTarget pg))) ∧
  (∀ (pg : Page) (s : State), s.LiveOn pg.die → s.liveTest pg = true → structOn pg.die (s.injTarget pg) = true →
    s.armedFail pg.die (structPlace pg.die (s.injTarget pg)).2 = false →
    exec (.tstRun pg true) s = .next ((s.setF pg Reg.TST_RUN 0).bump (bistPg pg.die) Reg.BIST_TST_RUNS))

/-- R638 to R645: the first event starts a freeze of its kind, with its source; a debug freeze without a link timeout and without
modified state thaws, and any other THAW is refused; a freeze past its limit counts a link timeout; a shift that changes state and an
instrument write set MODIFIED; the pin opens the debug network unless its fuse is blown. -/
def Obligations.FreezesThaw : Prop :=
  (∀ p ∈ [(Instr.freezeDebug, 0, 2), (Instr.freezeCapture, 1, 2), (Instr.pldmFreeze, 0, 3)], ∀ (s : State), s.AuxOn →
    2 ≤ s.getF mgmtPg Reg.MGMT_BOOT_STAGE → s.getF pciePg Reg.PCIE_HSW_MAIN_ON = 1 → s.frozen = false →
    ∃ t, exec p.1 s = .next t ∧ t.getF frzPg Reg.FRZ_STAT_STATE = 2 ∧ t.getF frzPg Reg.FRZ_STAT_KIND = p.2.1
      ∧ t.getF frzPg Reg.FRZ_STAT_SOURCE = p.2.2 ∧ t.frozenAt = s.aon ∧ State.SameMemory s t) ∧
  (∀ (s : State), s.AuxOn → s.getF pciePg Reg.PCIE_HSW_MAIN_ON = 1 → s.frozen = false →
    ∃ t, exec .freezeN s = .next t ∧ t.getF frzPg Reg.FRZ_STAT_STATE = 2
      ∧ t.getF frzPg Reg.FRZ_STAT_KIND = 1 - s.getF frzPg Reg.FRZ_CFG_PIN_MODE ∧ t.getF frzPg Reg.FRZ_STAT_SOURCE = 1) ∧
  (∀ p ∈ [Instr.thaw, Instr.pldmThaw], ∀ (s : State), s.AuxOn → 2 ≤ s.getF mgmtPg Reg.MGMT_BOOT_STAGE →
    s.getF frzPg Reg.FRZ_STAT_STATE = 2 → s.thawBarred = false → s.getF frzPg Reg.FRZ_STAT_KIND = 0 →
    s.getF frzPg Reg.FRZ_STAT_TIMEOUTS = 0 → s.getF frzPg Reg.FRZ_STAT_MODIFIED = 0 →
    ∃ t, exec p s = .next t ∧ t.getF frzPg Reg.FRZ_STAT_STATE = 0 ∧ State.SameMemory s t) ∧
  (∀ p ∈ [Instr.thaw, Instr.pldmThaw], ∀ (s : State), s.AuxOn → 2 ≤ s.getF mgmtPg Reg.MGMT_BOOT_STAGE →
    (s.getF frzPg Reg.FRZ_STAT_KIND ≠ 0 ∨ s.getF frzPg Reg.FRZ_STAT_TIMEOUTS ≠ 0 ∨ s.getF frzPg Reg.FRZ_STAT_MODIFIED ≠ 0) →
    exec p s = .next (s.setF frzPg Reg.FRZ_CMD_REJECTED 1)) ∧
  (∀ (s : State), s.AuxOn → s.frozen = true → s.frozenAt + s.getF frzPg Reg.FRZ_THAW_LIMIT_MS * 10 ^ 6 < s.aon →
    exec .thawLimitExpiry s = .next (s.linkTimeout 3)) ∧
  (∀ p ∈ [Instr.scanShift false, Instr.instrumentWrite], ∀ (s : State), s.AuxOn → s.inspectOn = true →
    exec p s = .next (s.setF frzPg Reg.FRZ_STAT_MODIFIED 1)) ∧
  (∀ (s : State), exec (.scanShift true) s = .next s) ∧
  (∀ (v : Bool) (s : State), s.AuxOn → ∃ t, exec (.inspectEn v) s = .next t ∧ t.inspectOn = (v && !s.fuses.dbgDisable))

/-! ### Network, files and time -/

/-- R343 to R346, R348, R349, R353, R355, R374 to R379: a write of a port's MODE; a port that trains; a lane that loses lock takes the logical
port down; a pause frame; ENABLE and RESET of the selected queue pair; REGISTER and DEREGISTER of the selected region; a congestion
notification lowers the rate and the increase raises it up to the port's. -/
def Obligations.PortsAndQueuePairs : Prop :=
  (∀ (d : Die) (p : Nat) (v : W32) (s : State), s.LiveOn d → isNet d = true →
    v.toNat % 4 ≠ s.getF (portPg (4 * netNo d + p % 4)) Reg.NET_PORT_CFG_MODE →
    s.portLoad (2 * (4 * netNo d + p % 4)) = 0 → s.portLoad (2 * (4 * netNo d + p % 4) + 1) = 0 →
    ∃ t, exec (.netPortModeWrite d p v) s = .next t ∧ t.getF (portPg (4 * netNo d + p % 4)) Reg.NET_PORT_CFG_MODE = v.toNat % 4
      ∧ t.getF (portPg (4 * netNo d + p % 4)) Reg.NET_PORT_STAT_LINK = 0 ∧ State.SameMemory s t) ∧
  (∀ (d : Die) (p sub : Nat) (s : State), s.LiveOn d → isNet d = true → s.runs (portPg (4 * netNo d + p % 4)) = true →
    s.getF ⟨.N0, .clk, 0⟩ Reg.CLK_SRC_XTAL_OK = 1 → s.getF (portPg (4 * netNo d + p % 4)) Reg.NET_PORT_CFG_MODE = 1 →
    (∀ e ∈ s.qps, e.2.port.isSome = true) →
    exec (.portLinkUp d p sub) s = .next ((s.setF (portPg (4 * netNo d + p % 4)) Reg.NET_PORT_STAT_LINK 1).setF
      (portPg (4 * netNo d + p % 4)) Reg.NET_PORT_STAT_LOCK 15)) ∧
  (∀ (d : Die) (p l : Nat) (s : State), s.LiveOn d → s.frozen = false → isNet d = true → l < 4 →
    s.getF (portPg (4 * netNo d + p % 4)) Reg.NET_PORT_CFG_MODE = 1 →
    (s.getF (portPg (4 * netNo d + p % 4)) Reg.NET_PORT_STAT_LOCK).testBit l = true → s.portLoad (2 * (4 * netNo d + p % 4)) = 0 →
    ∃ t, exec (.ethLaneLockLoss d p l) s = .next t
      ∧ (t.getF (portPg (4 * netNo d + p % 4)) Reg.NET_PORT_STAT_LINK).testBit 0 = false
      ∧ (t.getF (portPg (4 * netNo d + p % 4)) Reg.NET_PORT_STAT_LOCK).testBit l = false) ∧
  (∀ (d : Die) (p i quanta lp : Nat) (v : BitVec 8) (s : State), s.LiveOn d → isNet d = true → lp = s.logicalPort d p →
    i < 8 → v.toNat.testBit i = true → (s.getF (logicalPg lp) Reg.NET_PORT_STAT_LINK).testBit (lp % 2) = true →
    (s.getF (logicalPg lp) Reg.NET_PORT_CFG_PFC_MASK).testBit i = true →
    ∃ t, exec (.pfcPauseFrameReceive d p v quanta) s = .next t
      ∧ SMap.getD t.paused (lp * 8 + i) 0 = s.base + ceilDiv (quanta * 512 * 1000) (s.lineRate lp)) ∧
  (∀ (d : Die) (k : Nat) (s : State), s.LiveOn d → isNet d = true → k = qpKey d (s.getF (rdmaPg (qpKey d 0)) Reg.NET_QP_SEL_INDEX) →
    s.qpSt k = 0 → s.qpValid k = true →
    ∃ t, exec (.qpEnable d) s = .next t ∧ t.qpSt k = 1 ∧ (t.qp k).psn = s.qpF k 32 0 24 ∧ (t.qp k).rq = s.qpF k 36 0 24
      ∧ State.SameMemory s t) ∧
  (∀ (d : Die) (k : Nat) (s : State), s.LiveOn d → isNet d = true → k = qpKey d (s.getF (rdmaPg (qpKey d 0)) Reg.NET_QP_SEL_INDEX) →
    s.qpSt k ≠ 0 → exec (.qpReset d) s = .next (s.qpReset k)) ∧
  (∀ (d : Die) (i : Nat) (s : State), s.LiveOn d → isNet d = true → i = s.getF (rdmaPg (qpKey d 0)) Reg.NET_MR_SEL_INDEX →
    s.mrF (netNo d) i 0 57 7 = 0 → s.mrF (netNo d) i 8 57 7 = 0 → 1 ≤ s.mrF (netNo d) i 8 0 57 → s.mrF (netNo d) i 8 0 57 ≤ 2 ^ 45 →
    s.mrF (netNo d) i 16 60 4 = 10 → s.mrF (netNo d) i 24 6 2 = 0 → s.mrF (netNo d) i 25 2 6 = 0 → s.mrF (netNo d) i 28 0 32 = 0 →
    s.getF cptPg Reg.CPT_ENT_STAT_STATE (s.mrF (netNo d) i 24 0 6) = 1 → SMap.find s.mrs (netNo d * 2 ^ 16 + i) = none →
    exec (.register d) s = .next { s with mrs := SMap.put s.mrs (netNo d * 2 ^ 16 + i) () }) ∧
  (∀ (d : Die) (i : Nat) (s : State), s.LiveOn d → isNet d = true → i = s.getF (rdmaPg (qpKey d 0)) Reg.NET_MR_SEL_INDEX →
    (SMap.find s.mrs (netNo d * 2 ^ 16 + i)).isSome = true →
    exec (.deregister d) s = .next { s with mrs := SMap.del s.mrs (netNo d * 2 ^ 16 + i) }) ∧
  (∀ (d : Die) (i : Nat) (s : State), s.LiveOn d → isNet d = true → s.qpSt (qpKey d i) = 1 → s.qpKind (qpKey d i) ≠ 3 →
    ∃ t, exec (.cnpReceive d i) s = .next t ∧ (t.qp (qpKey d i)).rate =
      ((s.qp (qpKey d i)).rate.1 * (2 ^ ((s.qp (qpKey d i)).alpha.2 + 1) - (s.qp (qpKey d i)).alpha.1),
        (s.qp (qpKey d i)).rate.2 + (s.qp (qpKey d i)).alpha.2 + 1)) ∧
  (∀ (d : Die) (i : Nat) (s : State), s.LiveOn d → isNet d = true → s.qpSt (qpKey d i) = 1 → s.qpKind (qpKey d i) ≠ 3 →
    ∃ t, exec (.dcqcnRateIncrease d i) s = .next t
      ∧ (t.qp (qpKey d i)).rate.1 ≤ s.lineRate ((s.qp (qpKey d i)).port.getD 0) * 2 ^ (t.qp (qpKey d i)).rate.2)

/-- R344, R346, R349 to R354: a SEND descriptor of each verb that its queue pair takes goes onto it with the next PSNs; a RECV posts its
buffer; a write in PSN order that passes the checks lands in memory and is acknowledged, and one that does not is NAKed; a read is
answered with the bytes; a message lands in the oldest RECV's buffer, whose descriptor ends with the last packet; acknowledgements, NAKs,
read responses and the timeout do what they say. What is sent leaves on the queue pair's port with its priority. -/
def Obligations.NetworkTransfers : Prop :=
  (∀ p ∈ [(Instr.send, 0), (Instr.rdmaWrite, 1), (Instr.rdmaRead, 2)], ∀ (d : Die) (n q k : Nat) (x : Desc) (s : State),
    s.RunningDesc d n q 0x2A x → k = qpnKey x.qpn → x.verb = p.2 → x.aux = [] → s.qpnOk d n x = true →
    s.earlierOnQp d n x = false → s.qpReady k (dieCode d, n, q, x.seq) p.2 x.bytes = true →
    (p.2 ≠ 2 → s.badV x.pins (x.addr 16) x.bytes = false) →
    ∃ t w, exec (p.1 d n q) s = .next t ∧ (t.qp k).sent = (s.qp k).sent ++ [w] ∧ w.verb = p.2 ∧ w.first = (s.qp k).psn
      ∧ (t.qp k).psn = ((s.qp k).psn + s.packetsOf k x.bytes) % 2 ^ 24 ∧ State.SameMemory s t) ∧
  (∀ (d : Die) (n q k : Nat) (x : Desc) (s : State), s.RunningDesc d n q 0x2B x → k = qpnKey x.qpn → x.aux = [] →
    s.qpnOk d n x = true → s.rdmaRuns k = true → s.earlierOnQp d n x = false → s.qpRoom k (dieCode d, n, q, x.seq) = true →
    exec (.recv d n q) s = .next ((s.updDesc d n q fun y => { y with aux := [1] }).setQp k
      { s.qp k with recvs := (s.qp k).recvs ++ [(dieCode d, n, q, x.seq)] })) ∧
  (∀ (d : Die) (i k lp : Nat) (pk : Packet) (pins : SMap Nat) (s u : State), s.InTurn d i pk → k = qpKey d i → pk.imm = none →
    (s.packetIn k pk.port false).mrCheck k pk.rkey pk.va pk.payload.length true = (.ok pins, u) →
    u.partialBadV pins pk.va pk.payload.length = false → u.QpSends k lp →
    ∃ t, exec (.inboundRdmaWrite d i pk) s = .next t ∧ t.mem = (u.wrV pins pk.va pk.payload).mem
      ∧ (t.qp k).rq = (pk.psn + 1) % 2 ^ 24 ∧ t.netOut = u.netFrames k lp 1 (.ack k (pk.psn % 2 ^ 24)) :: u.netOut) ∧
  (∀ (d : Die) (i k : Nat) (pk : Packet) (s u : State), s.InTurn d i pk → k = qpKey d i → pk.imm = none →
    (s.packetIn k pk.port false).mrCheck k pk.rkey pk.va pk.payload.length true = (.refused, u) →
    exec (.inboundRdmaWrite d i pk) s = .next (u.nakAccess k pk.psn)) ∧
  (∀ (d : Die) (i k lp : Nat) (pk : Packet) (pins : SMap Nat) (s u : State), s.InTurn d i pk → k = qpKey d i →
    (s.packetIn k pk.port false).mrCheck k pk.rkey pk.va pk.len false = (.ok pins, u) → u.badV pins pk.va pk.len = false →
    u.QpSends k lp →
    ∃ t, exec (.inboundRdmaRead d i pk) s = .next t ∧ t.mem = u.mem
      ∧ t.netOut = u.netFrames k lp (u.packetsOf k pk.len) (.response k pk.psn (u.rdV pins pk.va pk.len)) :: u.netOut
      ∧ (t.qp k).rq = (pk.psn + u.packetsOf k pk.len) % 2 ^ 24) ∧
  (∀ (d : Die) (i k lp : Nat) (pk : Packet) (r : Nat × Nat × Nat × Nat) (l : List (Nat × Nat × Nat × Nat)) (x : Desc) (s u : State),
    s.InTurn d i pk → k = qpKey d i → u = s.packetIn k pk.port false → u.controlQp ((k >>> 14) <<< 23 + k % 2 ^ 14) = false →
    u.liveRecvs k = r :: l → u.recvDesc r = some x → pk.first = true → pk.payload.length ≤ x.bytes - 16 →
    u.movingV x.pins (x.addr 16) pk.payload.length = false → u.partialBadV x.pins (x.addr 16) pk.payload.length = false →
    (pk.last = false → u.QpSends k lp →
      ∃ t, exec (.inboundSend d i pk) s = .next t ∧ t.mem = (u.wrV x.pins (x.addr 16) pk.payload).mem
        ∧ (t.qp k).inLen = pk.payload.length ∧ t.netOut = u.netFrames k lp 1 (.ack k (pk.psn % 2 ^ 24)) :: u.netOut) ∧
    (pk.last = true → u.movingV x.pins (x.addr 16 + (x.bytes - 16)) 16 = false →
      ∃ t, exec (.inboundSend d i pk) s = .next t ∧ t.Ended (dieOf r.1) r.2.1 r.2.2.1 stOk)) ∧
  (∀ (d : Die) (i psn : Nat) (s : State), s.LiveOn d → isNet d = true → s.qpSt (qpKey d i) = 1 →
    exec (.rdmaAck d i psn) s = .next (s.ackUpTo (qpKey d i) (psn % 2 ^ 24))) ∧
  (∀ (d : Die) (i psn : Nat) (s : State), s.LiveOn d → isNet d = true → s.qpSt (qpKey d i) = 1 → (s.qp (qpKey d i)).sent ≠ [] →
    psn % 2 ^ 24 = (s.qp (qpKey d i)).una →
    exec (.rdmaNak d i psn .access) s = .next (s.qpError (qpKey d i) stXlateFault)
      ∧ exec (.rdmaNak d i psn .sequence) s = .next (s.retry (qpKey d i))) ∧
  (∀ (d e : Die) (i k n : Nat) (pk : Packet) (w : Work) (l : List Work) (x : Desc) (s u : State), s.LiveOn d → isNet d = true →
    k = qpKey d i → s.qpSt k = 1 → 64 ≤ pk.size → pk.size ≤ 9216 → pk.ce = false → u = s.packetIn k pk.port false → pk.psn % 2 ^ 24 = (u.qp k).una →
    pk.psn % 2 ^ 24 = (s.qp k).una → (u.qp k).sent = w :: l → w.verb = 2 → w.src = .desc (dieCode e) n x.slot x.seq →
    u.srcDesc w.src = some (e, n, x) → w.got + pk.payload.length < w.len → u.partialBadV x.pins (x.addr 16 + w.got) pk.payload.length = false →
    ∃ t, exec (.rdmaReadResponse d i pk) s = .next t ∧ t.mem = (u.wrV x.pins (x.addr 16 + w.got) pk.payload).mem
      ∧ (t.qp k).sent = { w with got := w.got + pk.payload.length } :: l ∧ (t.qp k).una = (pk.psn + 1) % 2 ^ 24) ∧
  (∀ (d : Die) (i : Nat) (s : State), s.LiveOn d → isNet d = true → s.qpSt (qpKey d i) = 1 → (s.qp (qpKey d i)).sent ≠ [] →
    (s.qp (qpKey d i)).since + 4096 * 2 ^ s.qpF (qpKey d i) 3 0 5 ≤ s.base →
    exec (.ackTimeout d i) s = .next (s.retry (qpKey d i)))

/-- R357, R358, R379: a doorbell moves the tail of a queue's submission ring, and an NVMe queue sends the entries that it gives; a completion of a command without data is posted; the commands
of a file queue read, write, flush, zero and deallocate the blocks of the compartment's extents, and no other block changes. -/
def Obligations.FileQueues : Prop :=
  (∀ (d : Die) (k : Nat) (v : W32) (s : State), s.LiveOn d → isNet d = true → k = qpKey d (bitsOf v.toNat 0 14) → s.qpKind k ≠ 0 →
    s.qpKind k ≠ 3 → s.qpSt k = 1 → bitsOf v.toNat 14 10 < s.qpDepth k → s.rdmaRuns k = true →
    exec (.netQpDb d v) s = .next (State.pumpNvme k 1024 ((s.setWord (rdmaPg (qpKey d 0)) 0x4C (v.toNat % 2 ^ 24)).setQp k
      { s.qp k with sqTail := bitsOf v.toNat 14 10 }))) ∧
  (∀ (d : Die) (k : Nat) (v : W32) (s : State), s.LiveOn d → isNet d = true → k = qpKey d (bitsOf v.toNat 0 14) → s.qpKind k = 3 →
    s.qpSt k = 1 → bitsOf v.toNat 14 10 < s.qpDepth k →
    ∃ t, exec (.netQpDb d v) s = .next t ∧ (t.qp k).sqTail = bitsOf v.toNat 14 10 ∧ State.SameMemory s t) ∧
  (∀ (d : Die) (i k cid status : Nat) (v : W32) (data : Bytes) (c : NvmeCmd) (s : State), s.Live → k = qpKey d i →
    ((s.qp k).cmds.find? fun c => c.cid == cid) = some c → s.qpSt k = 1 → s.rdmaRuns k = true → c.inward = false →
    exec (.nvmeCompletion d i cid status v data) s = .next (State.pumpNvme k 1024
      ((s.setQp k { s.qp k with cmds := (s.qp k).cmds.filter fun e => e.cid != cid }).postCqe k cid v.toNat status))) ∧
  (∀ (d : Die) (i k v : Nat) (l : List Nat) (pins : SMap Nat) (s t u : State), k = qpKey d i → s.FileHead d i 2 v t →
    t.fileCheck k v true = (nvOk, l) → t.FileData k v (l.length * 4096) true pins u →
    u.partialBadV pins (sqeVa v) (l.length * 4096) = false →
    exec (.fileQueueRead d i) s = .next (((u.wrV pins (sqeVa v) (l.flatMap fun o => Memory.readBytes u.file o 4096)).popSqe k).postCqe
      k (sqeCid v) 0 nvOk)) ∧
  (∀ (d : Die) (i k v : Nat) (l : List Nat) (pins : SMap Nat) (s t u : State), k = qpKey d i → s.FileHead d i 1 v t →
    t.fileCheck k v true = (nvOk, l) → t.FileData k v (l.length * 4096) false pins u →
    u.badV pins (sqeVa v) (l.length * 4096) = false →
    ∃ w x, exec (.fileQueueWrite d i) s = .next w ∧ (w.qp k).writes = (u.qp k).writes ++ [x] ∧ x.cid = sqeCid v
      ∧ x.parts.map (·.1) = l ∧ w.file = u.file) ∧
  (∀ (d : Die) (i : Nat) (x : FileWrite) (l : List FileWrite) (s : State), s.LiveOn d → (s.qp (qpKey d i)).writes = x :: l →
    ∃ t, exec (.fileQueueWriteDone d i) s = .next t
      ∧ t.file = x.parts.foldl (fun m p => Memory.writeBytes m p.1 p.2) s.file) ∧
  (∀ (d : Die) (i v : Nat) (s t : State), s.FileHead d i 0 v t → sqeNs v = 1 →
    exec (.fileQueueFlush d i) s = .next ((t.popSqe (qpKey d i)).postCqe (qpKey d i) (sqeCid v) 0 nvOk)) ∧
  (∀ (d : Die) (i v : Nat) (l : List Nat) (s t : State), s.FileHead d i 8 v t → t.fileCheck (qpKey d i) v false = (nvOk, l) →
    ∃ w, exec (.fileQueueWriteZeroes d i) s = .next w ∧ w.file = l.foldl (fun m o => Memory.clear m o 4096) t.file) ∧
  (∀ (d : Die) (i k v n raw : Nat) (pins : SMap Nat) (s t u : State), k = qpKey d i → s.FileHead d i 9 v t → n = sqeF v 40 8 + 1 →
    sqeNs v = 1 → sqeType v = 0 → 16 * n ≤ sqeLen v → t.FileData k v (16 * n) false pins u → u.badV pins (sqeVa v) (16 * n) = false →
    raw = u.rdVNat pins (sqeVa v) (16 * n) →
    (∀ e < n, (u.lbaBlocks (u.qpCpt k) (bitsOf raw (128 * e + 64) 64) (bitsOf raw (128 * e + 32) 32)).isSome = true) →
    ∃ w, exec (.fileQueueDeallocate d i) s = .next w ∧ ∀ a,
      (∀ e < n, ∀ l, u.lbaBlocks (u.qpCpt k) (bitsOf raw (128 * e + 64) 64) (bitsOf raw (128 * e + 32) 32) = some l →
        ∀ o ∈ l, a < o ∨ o + 4096 ≤ a) →
      Memory.read w.file a = Memory.read u.file a)

/-- R359 to R361, R380, R527, R528, R531, R659: a frame that carries a PTP message is stamped at its port, and a one-step Sync gives the
master's time and has the port ask for the delay; the frequency adjustment and the buffered step; the step is applied once at a whole second; the
pulse goes out where it is enabled, and one that comes in is stamped; the calendar clock is set by LEDG_RTC_HI with the LEDG_RTC_LO
held before it, by PLDM, and by module time where they differ by more than a second. -/
def Obligations.ModuleTime : Prop :=
  (∀ (d : Die) (i lp : Nat) (pk : Packet) (m : PtpMsg) (s : State), s.LiveOn d → isNet d = true → 64 ≤ pk.size → pk.size ≤ 9216 →
    pk.op = .ptp m → lp = s.logicalPort d pk.port → (s.getF (logicalPg lp) Reg.NET_PORT_STAT_LINK).testBit (lp % 2) = true →
    exec (.inboundSend d i pk) s = .next ((s.bump (logicalPg lp) Reg.NET_RX_FRAMES).ptpIn lp m) ∧
    (∀ (origin : Nat) (corr : Int), m.body = .sync false origin corr →
      ∃ t, exec (.inboundSend d i pk) s = .next t ∧ (t.ptpOf lp).master = some (origin + corr, s.stampNow)
        ∧ (t.ptpOf lp).asked = some ((s.ptpOf lp).seq, s.stampNow))) ∧
  (∀ p ∈ [(Instr.netPtpAdj, Reg.NET_PTP_ADJ), (Instr.netPtpStep, Reg.NET_PTP_STEP)], ∀ (v : W32) (s : State), s.Live →
    exec (p.1 v) s = .next (s.setF timePg p.2 v.toNat)) ∧
  (∀ (s : State), s.Live → s.wholeSecond = true →
    ∃ t, exec .applyAtSecond s = .next t ∧ t.getF timePg Reg.NET_PTP_STEP = 0
      ∧ t.modT = ((s.modT : Int) + toSigned (s.getF timePg Reg.NET_PTP_STEP) 32 * (10 ^ 9 * 2 ^ 16)).toNat) ∧
  (∀ (s : State), s.Live → s.wholeSecond = true → s.getF timePg Reg.NET_PPS_CFG_OUT_EN = 1 →
    exec .ppsOutEdge s = .next { s with ppsAt := some s.base }) ∧
  (∀ (s : State), s.Live → s.getF timePg Reg.NET_PPS_CFG_IN_EN = 1 →
    ∃ t, exec .ppsInEdge s = .next t ∧ t.getF timePg Reg.NET_PPS_IN_SEC = s.timeNs / 10 ^ 9 % 2 ^ 32
      ∧ t.getF timePg Reg.NET_PPS_IN_NS = s.timeNs % 10 ^ 9) ∧
  (∀ (v lo : W32) (s : State), s.AuxOn → SMap.find s.heldLo (regKey ledgPg 0x4C 0) = some lo → s.rtcSetAt = none →
    ∃ t, exec (.ledgRtcHi v) s = .next t ∧ t.rtc = lo.toNat + (v.toNat % 2 ^ 16) <<< 32
      ∧ t.getF ledgPg Reg.LEDG_RTC_HI_VALID = 1 ∧ t.getF ledgPg Reg.LEDG_RTC_HI_SRC = 1) ∧
  (∀ (v : Nat) (s : State), s.AuxOn → 2 ≤ s.getF mgmtPg Reg.MGMT_BOOT_STAGE → s.rtcSetAt = none →
    ∃ t, exec (.pldmSetTime v) s = .next t ∧ t.rtc = v % 2 ^ 48 ∧ t.getF ledgPg Reg.LEDG_RTC_HI_SRC = 3) ∧
  (∀ (s : State), s.Live → s.getF ledgPg Reg.LEDG_RTC_CFG_PTP_EN = 1 → s.ptpAt = none → s.rtcSetAt = none →
    s.timeNs / 10 ^ 9 < 2 ^ 48 → (s.timeNs / 10 ^ 9 + 1 < s.rtc ∨ s.rtc + 1 < s.timeNs / 10 ^ 9) →
    ∃ t, exec .ptpRtcSet s = .next t ∧ t.rtc = s.timeNs / 10 ^ 9 ∧ t.ptpAt = some s.aon)

/-! ### Exchanges and convoys -/

/-- R362 to R373, R381: a dispatch, a combine and each phase of a REDUCE_NET whose plan has passed are taken onto a free engine; the messages
of a running exchange do what they say; a gather takes a window entry, and goes on with the shards that found no room; a live window is
released, and forgotten once nothing holds its lots. -/
def Obligations.ExchangesRun : Prop :=
  (∀ (d : Die) (n q key : Nat) (x : Desc) (s : State), s.PlanReady d n q 0x28 x key → x.xCombine = false →
    exec (.exchangeDispatch d n q) s = .next (State.dispatchTokens (s.updDesc d n q fun w => { w with aux := [1] }) d n q key x)) ∧
  (∀ (d : Die) (n q key : Nat) (x : Desc) (s : State), s.PlanReady d n q 0x28 x key → x.xCombine = true →
    exec (.exchangeCombine d n q) s = .next (State.combineTokens (s.updDesc d n q fun w => { w with aux := [1] }) d n q key x)) ∧
  (∀ p ∈ [(Instr.reduceNetBoth, 0), (Instr.reduceNetAnchor, 1), (Instr.reduceNetValue, 2), (Instr.reduceNetNrm128, 3)],
    ∀ (d : Die) (n q key : Nat) (x : Desc) (s : State), s.PlanReady d n q 0x29 x key → x.rnPhase = p.2 →
    exec (p.1 d n q) s = .next ((s.updDesc d n q fun w => { w with aux := [1] }).startReduce d n q p.2 key x)) ∧
  (∀ (d : Die) (v : Xch) (y : Desc) (s : State), s.XchTakes d → s.xchRun (netNo d * 2 + 1) = some (v, y) →
    (∀ (a g f : Nat) (ring : Bool), exec (.exchangeMessage d (.plan a g ring f)) s = .next (s.rnPlan (netNo d * 2 + 1) v y a g ring f))
      ∧ (∀ (ph : Nat) (rs : List Nat) (b : Bytes),
          exec (.exchangeMessage d (.part ph rs b)) s = .next (s.rnPart (netNo d * 2 + 1) v y ph rs b))
      ∧ (∀ (ph g : Nat) (b : Bytes), exec (.exchangeMessage d (.result ph g b)) s = .next (s.rnResult (netNo d * 2 + 1) v y ph g b))) ∧
  (∀ (d : Die) (r e i : Nat) (b : Bytes) (v : Xch) (y : Desc) (s : State), s.XchTakes d → s.xchRun (netNo d * 2) = some (v, y) →
    y.xCombine = false → r < y.plGroup → e / y.plEpm = y.plRank → i < y.plSlots → b.length = y.xBytes →
    exec (.exchangeMessage d (.token r e i b)) s = .next (s.wrV y.pins (slotVa y (y.addr 40) (e % y.plEpm) r i) b)) ∧
  (∀ (d : Die) (n q : Nat) (x : Desc) (s : State), s.RunningDesc d n q 0x12 x → s.runs (xchPg (s.xchNd (gwLayer x))) = true →
    x.aux ≠ [] → exec (.gatherWindow d n q) s = .next (State.postShards d n q (gwShards x) s)) ∧
  (∀ (d : Die) (n q nd l : Nat) (x : Desc) (s : State), s.RunningDesc d n q 0x12 x → nd = s.xchNd (gwLayer x) →
    s.runs (xchPg nd) = true → x.aux = [] → s.windowLot (s.ctxCpt d n) x = some l →
    (∀ e ∈ s.wins, e.2.lot + e.2.lots ≤ l ∨ l + gwBytes x / 65536 ≤ e.2.lot) → (s.winsOf nd).length < 64 →
    s.absentLots (State.descLots x) = [] → s.badV x.pins (x.addr 24) (32 * gwShards x) = false →
    s.shardsOk (s.ctxCpt d n) x ((List.range (gwShards x)).map (s.shardAt x)) = true →
    ∃ t key, exec (.gatherWindow d n q) s = .next t ∧ key / 64 = nd
      ∧ SMap.find t.wins key = some ⟨1, gwConsumers x, gwLayer x, s.ctxCpt d n, l, gwBytes x / 65536, gwShards x⟩) ∧
  (∀ (d : Die) (v : Window) (s : State), s.LiveOn d → isNet d = true →
    SMap.find s.wins (netNo d * 64 + s.getF (xchPg (netNo d)) Reg.XCH_WIN_SEL_WINDOW) = some v → v.st = 2 →
    exec (.xchWinRelease d) s = .next { s with
      wins := SMap.put s.wins (netNo d * 64 + s.getF (xchPg (netNo d)) Reg.XCH_WIN_SEL_WINDOW) { v with st := 3 } }) ∧
  (∀ (d : Die) (w : Nat) (v : Window) (s : State), s.LiveOn d → isNet d = true → SMap.find s.wins (netNo d * 64 + w % 64) = some v →
    v.st = 3 → (∀ l < v.lots, s.lotHeld (v.lot + l) = false) →
    ∃ t, exec (.windowRelease d w) s = .next t ∧ t.wins = SMap.del s.wins (netNo d * 64 + w % 64))

/-- R383, R387 to R393, R401, R406, R408, R409: a context starts as manager or worker, stops, admits a rank and resumes; heartbeats go out,
are answered and noted; a member or a manager is lost after MISS periods; a worker takes over, is answered, and goes on or halts; the manager
of a convoy loses its top manager and takes over from it in the same way, with its convoy's number for rank. -/
def Obligations.ConvoysHoldTogether : Prop :=
  (∀ (k : Nat) (s : State), s.ConvOn k → s.cvSt k = 0 → s.startOk k = true →
    ∃ t, exec (.start k) s = .next t ∧ t.cvSt k = 1 ∧ t.cvMgr k = decide (2 ≤ s.getF (convPg k) Reg.CONV_CFG_ROLE)
      ∧ (t.conv k).since = s.base ∧ State.SameMemory s t) ∧
  (∀ (k : Nat) (s : State), s.ConvOn k → s.cvSt k ≠ 0 →
    ∃ t, exec (.stop k) s = .next t ∧ t.cvSt k = 0 ∧ t.cvMgr k = false ∧ t.conv k = Conv.init ∧ State.SameMemory s t) ∧
  (∀ (k r : Nat) (s : State), s.ConvOn k → s.cvMgr k = true → s.cvSt k = 1 → (s.conv k).applying = false →
    ∃ t, exec (.admitRank k r) s = .next t ∧ SMap.find (t.conv k).replied (r % 128) = some s.base
      ∧ t.cvEpoch k = (s.cvEpoch k + 1) % 2 ^ 32) ∧
  (∀ (k : Nat) (s : State), s.ConvOn k → s.cvSt k = 3 → exec (.resume k) s = .next ((s.setCvSt k 1).commitSettle k)) ∧
  (∀ (k : Nat) (s : State), s.ConvOn k → s.cvSt k ≠ 0 → s.cvMgr k = true → s.cvTop k = false → (s.conv k).hbAt = none →
    exec (.heartbeatSend k) s =
      .next ((s.sendAll k (s.others k) (s.cvMsg k 1)).setConv k { s.conv k with hbAt := some s.base })) ∧
  (∀ (k : Nat) (m : Ctl) (s : State), s.LiveOn .N0 → s.takes k 1 m = true → s.cvMgr k = false →
    ∃ t, exec (.heartbeat k m) s = .next t ∧ SMap.find (t.conv k).heard (s.ctlKey k m) = some s.base ∧ (t.conv k).mgrLost = false) ∧
  (∀ (k : Nat) (m : Ctl) (s : State), s.LiveOn .N0 → s.takes k 2 m = true → s.cvMgr k = true →
    ∃ t, exec (.hbReply k m) s = .next t ∧ SMap.find (t.conv k).replied (s.ctlKey k m) = some s.base) ∧
  (∀ (k r : Nat) (s : State), s.ConvOn k → s.cvSt k = 1 → s.cvMgr k = true → r < 128 → r ∈ s.others k → (s.conv k).applying = false →
    s.cvLayer k = false → (s.conv k).arrived = [] →
    SMap.getD (s.conv k).replied r (s.conv k).since + s.cvMiss k * s.cvPeriod k ≤ s.base →
    ∃ t, exec (.workerLost k r) s = .next t ∧ t.getF (convPg k) Reg.CONV_LOST_RANK = r
      ∧ t.cvEpoch k = (s.cvEpoch k + 1) % 2 ^ 32) ∧
  (∀ (k : Nat) (s : State), s.ConvOn k → s.cvSt k ≠ 0 → s.cvMgr k = false → (s.conv k).mgrLost = false →
    SMap.getD (s.conv k).heard (s.conv k).mgr (s.conv k).since + s.cvMiss k * s.cvPeriod k ≤ s.base →
    ∃ t, exec (.managerLost k) s = .next t ∧ (t.conv k).mgrLost = true ∧ State.SameMemory s t) ∧
  (∀ (k : Nat) (s : State), s.ConvOn k → s.cvMgr k = false → s.cvRank k ≠ 0 → s.cvSt k = 1 →
    ((s.conv k).heard.filter fun e => e.1 < s.cvRank k).foldl (fun a e => max a e.2) (s.conv k).since
      + s.cvRank k * s.cvMiss k * s.cvPeriod k ≤ s.base →
    ∃ t, exec (.takeoverTimer k) s = .next t ∧ t.cvSt k = 2 ∧ t.cvEpoch k = (s.cvEpoch k + 1) % 2 ^ 32) ∧
  (∀ (k : Nat) (s : State), s.ConvOn k → s.cvSt k ≠ 0 → s.cvUnder k = true → (s.conv k).mgrLost = false →
    SMap.getD (s.conv k).heard (128 + (s.conv k).top) (s.conv k).since + s.cvMiss k * s.cvPeriod k ≤ s.base →
    ∃ t, exec (.managerLost k) s = .next t ∧ (t.conv k).mgrLost = true ∧ State.SameMemory s t) ∧
  (∀ (k : Nat) (s : State), s.ConvOn k → s.cvUnder k = true → s.cvConvoy k ≠ 0 → s.cvSt k = 1 →
    ((s.conv k).heard.filter fun e => 128 ≤ e.1 ∧ e.1 < 128 + s.cvConvoy k).foldl (fun a e => max a e.2) (s.conv k).since
      + s.cvConvoy k * s.cvMiss k * s.cvPeriod k ≤ s.base →
    ∃ t, exec (.takeoverTimer k) s = .next t ∧ t.cvSt k = 2 ∧ t.cvEpoch k = (s.cvEpoch k + 1) % 2 ^ 32) ∧
  (∀ (k : Nat) (s : State), s.ConvOn k → s.cvMgr k = false → s.cvRank k ≠ 0 → s.cvSt k = 2 →
    (s.conv k).takeAt + s.cvRank k * s.cvMiss k * s.cvPeriod k ≤ s.base → State.majority (s.conv k) = false →
    exec (.takeoverTimer k) s = .next (s.cvHalt k)) ∧
  (∀ (k : Nat) (m : Ctl) (s : State), s.ConvOn k → s.cvSt k ≠ 0 → m.kind = 9 → m.convoyId = s.getF (convPg k) Reg.CONV_ID →
    s.cvEpoch k < m.epoch → m.epoch < 2 ^ 32 → m.convoy = s.cvConvoy k →
    ∃ t, exec (.takeover k m) s = .next t ∧ t.cvEpoch k = m.epoch ∧ t.cvMgr k = false ∧ (t.conv k).mgr = m.sender % 128) ∧
  (∀ (k : Nat) (m : Ctl) (s : State), s.ConvOn k → s.cvSt k ≠ 0 → m.kind = 9 → m.convoyId = s.getF (convPg k) Reg.CONV_ID →
    s.cvEpoch k < m.epoch → m.epoch < 2 ^ 32 → m.convoy ≠ s.cvConvoy k → s.cvMgr k = true →
    ∃ t, exec (.takeover k m) s = .next t ∧ t.cvEpoch k = m.epoch ∧ t.cvMgr k = true ∧ (t.conv k).top = m.convoy % 32) ∧
  (∀ (k : Nat) (m : Ctl) (s : State), s.LiveOn .N0 → s.takes k 10 m = true →
    exec (.query k m) s = .next (s.sendCtl k (s.ctlKey k m) (s.cvMsg k 11))) ∧
  (∀ (k : Nat) (m : Ctl) (s : State), s.LiveOn .N0 → s.takes k 11 m = true → s.cvSt k = 2 →
    State.majority { s.conv k with states := SMap.put (s.conv k).states (s.ctlKey k m) m.committed } = false →
    exec (.state k m) s =
      .next (s.setConv k { s.conv k with states := SMap.put (s.conv k).states (s.ctlKey k m) m.committed }))

/-- R393, R395, R399 to R401, R404: software's arrival, readiness and report of application go to the manager; the manager takes the members';
a release sets the barrier's tally; a commit sets COMMITTED and opens the milestone's record; an abort counts a retry. -/
def Obligations.StepsCommit : Prop :=
  (∀ (k : Nat) (v : W32) (s : State), s.ConvOn k → s.cvSt k ≠ 0 → s.cvMgr k = false →
    exec (.convBarrier k v) s = .next ((s.setF (convPg k) Reg.CONV_BARRIER v.toNat).sendCtl k (s.conv k).mgr
      { s.cvMsg k 3 with barrier := v.toNat })) ∧
  (∀ (k : Nat) (m : Ctl) (s : State), s.LiveOn .N0 → s.takes k 3 m = true → s.cvMgr k = true → s.ctlKey k m < 128 →
    exec (.arrive k m) s = .next ((s.setConv k { s.conv k with
      arrived := SMap.put (s.conv k).arrived (s.ctlKey k m) (m.barrier % 2 ^ 32) }).barrierSettle k)) ∧
  (∀ (k : Nat) (m : Ctl) (s : State), s.LiveOn .N0 → s.takes k 4 m = true → s.cvMgr k = false →
    ∃ t, exec (.release k m) s = .next t ∧ t.tallyOps = s.tallyOps ++
      [⟨s.getF (convPg k) Reg.CONV_TALLY_BAR_INDEX, true, m.barrier % 2 ^ 32, (dieCode .N0, 2 ^ 14 + k % 4)⟩]) ∧
  (∀ (k : Nat) (v : W32) (s : State), s.ConvOn k → s.cvSt k ≠ 0 → s.cvMgr k = false → s.cvLayer k = false →
    ∃ t, exec (.convReady k v) s = .next t ∧ t.getF (convPg k) Reg.CONV_READY_HI = v.toNat
      ∧ (t.conv k).readyM = s.getF (convPg k) Reg.CONV_READY_LO + v.toNat <<< 32) ∧
  (∀ (k : Nat) (m : Ctl) (s : State), s.LiveOn .N0 → s.takes k 5 m = true → s.cvMgr k = true →
    exec (.ready k m) s = .next (s.noteReady k (m.sender % 128) (m.group % 64) m.milestone)) ∧
  (∀ (k : Nat) (m : Ctl) (s : State), s.LiveOn .N0 → s.takes k 6 m = true → s.cvMgr k = false → s.cvCommitted k < m.milestone →
    m.milestone < 2 ^ 64 → s.cvLayer k = false →
    ∃ t, exec (.commit k m) s = .next t ∧ t.cvCommitted k = m.milestone ∧ t.tallyOps = s.tallyOps ++
      [⟨s.getF (convPg k) Reg.CONV_TALLY_COMMIT_INDEX, true, m.milestone, (dieCode .N0, 2 ^ 14 + k % 4)⟩]) ∧
  (∀ (k : Nat) (v : W32) (s : State), s.ConvOn k → s.cvSt k ≠ 0 → s.cvMgr k = true →
    exec (.convApplied k v) s = .next ((s.setF (convPg k) Reg.CONV_APPLIED_HI v.toNat).noteApplied k (s.cvRank k)
      (s.getF (convPg k) Reg.CONV_APPLIED_LO + v.toNat <<< 32) (s.getF (convPg k) Reg.CONV_APPLY_OUT))) ∧
  (∀ (k : Nat) (m : Ctl) (s : State), s.LiveOn .N0 → s.takes k 7 m = true → s.cvMgr k = true →
    exec (.applied k m) s = .next (s.noteApplied k (m.sender % 128) m.milestone (m.outcome % 4))) ∧
  (∀ (k : Nat) (m : Ctl) (s : State), s.LiveOn .N0 → s.takes k 8 m = true → s.cvMgr k = false →
    ∃ t, exec (.abortStep k m) s = .next t ∧ (t.conv k).tries = (s.conv k).tries + 1)

/-! ### Preparation, translation, coherence, accesses -/

/-- R410, R421, R446, R447: a PREP_BATCH goes to the unit with the fewest, takes the unit, and is brought on by it; an invalidation covers its
range until every die has acknowledged it, and the last acknowledgement ends it. -/
def Obligations.PrepAndInvalidation : Prop :=
  (∀ (d : Die) (n q : Nat) (x : Desc) (s : State), s.RunningDesc d n q 0x30 x → x.aux = [] →
    s.runs (State.prepPg s.prepPick) = true →
    exec (.prepBatch d n q) s = .next (s.updDesc d n q fun y => { y with aux := [s.prepPick + 1] })) ∧
  (∀ (d : Die) (n q u : Nat) (x : Desc) (s : State), s.RunningDesc d n q 0x30 x → x.aux = [u + 1] →
    s.runs (State.prepPg u) = true → (∀ y ∈ s.prepJobs u, y.aux.length ≤ 1) →
    exec (.prepBatch d n q) s = .next (s.updDesc d n q fun y => { y with aux := [u + 1, 1, 0, 0, 0] })) ∧
  (∀ (d : Die) (n q u k a b c : Nat) (x : Desc) (s : State), s.RunningDesc d n q 0x30 x → x.aux = [u + 1, a, k, b, c] →
    s.runs (State.prepPg u) = true → x.pjSource = 0 → exec (.prepBatch d n q) s = .next (s.prepStored d n q u k x)) ∧
  (∀ (d : Die) (s : State), s.LiveOn d → isHost d = false → s.runs (State.xltPg d) = true →
    s.getF (State.xltPg d) Reg.XLT_INV_CMD_BUSY = 0 →
    ∃ t v, exec (.xltInvGo d) s = .next t ∧ t.getF (State.xltPg d) Reg.XLT_INV_CMD_BUSY = 1
      ∧ SMap.find t.invs (dieCode d) = some v ∧ v.pages = s.getF (State.xltPg d) Reg.XLT_INV_PAGES
      ∧ v.waiting = xltDies.map dieCode ∧ State.SameMemory s t) ∧
  (∀ (d g : Die) (v : Inv) (s : State), s.LiveOn d → SMap.find s.invs (dieCode d) = some v → v.waiting = [dieCode g] →
    s.invStreams v g = [] → s.invQps v g = [] →
    ∃ t, exec (.invalidationAck d g) s = .next t ∧ SMap.find t.invs (dieCode d) = none
      ∧ t.getF (State.xltPg d) Reg.XLT_INV_CMD_BUSY = 0 ∧ State.SameMemory s t)

/-- R450 to R454, R457, R458, R460 to R462, R497: a request for an idle line starts; a snoop leaves the holder's copy in S, nowhere, or as it is; the
home acts once both rings have answered; data, completion and acknowledgement end the transaction; a dirty line is written back; an
MSI is routed by its entry, and dropped where the hart that the entry names is another compartment's. -/
def Obligations.CachesStayCoherent : Prop :=
  (∀ p ∈ [(Instr.rdShared, CohReq.rdShared), (Instr.rdUnique, CohReq.rdUnique)], ∀ (x : Cache) (l : Nat) (s : State), s.Live →
    s.lineAt l = Line.init → s.cacheable l = true → s.runs (cohPg (s.homeDie l)) = true →
    exec (p.1 x l) s = .next (s.cohStart l (p.2 x) s.base)) ∧
  (∀ (x : Cache) (l : Nat) (k : Copy) (s : State), s.Live → State.copyOf (s.lineAt l) x = some k → k.st = 0 → (s.lineAt l).bufs = [] →
    (s.lineAt l).trans = none → (s.lineAt l).queue = [] → s.cacheable l = true → s.runs (cohPg (s.homeDie l)) = true →
    exec (.upgrade x l) s = .next (s.cohStart l (.upgrade x) s.base)) ∧
  (∀ (l off : Nat) (b : Bytes) (s : State), s.Live → (s.lineAt l).trans = none → s.cacheable l = true →
    s.runs (cohPg (s.homeDie l)) = true →
    exec (.rdOnce l) s = .next (s.cohStart l .rdOnce s.base)
      ∧ (b.length = 64 → exec (.wrLine l b) s = .next (s.cohStart l (.wrLine b) s.base))
      ∧ (off + b.length ≤ 64 → exec (.wrPart l off b) s = .next (s.cohStart l (.wrPart off b) s.base))) ∧
  (∀ (x y : Cache) (l : Nat) (k : Copy) (u : CohTrans) (s : State), s.Live → (s.lineAt l).trans = some u → u.phase = 0 → x ≠ y →
    x ∉ u.answered → State.copyOf (s.lineAt l) x = some k →
    (u.req = .rdShared y → ∃ t c, exec (.snpShared x l) s = .next t ∧ State.copyOf (t.lineAt l) x = some c ∧ c.st = 0 ∧ c.data = k.data)
      ∧ (u.req = .rdUnique y → ∃ t, exec (.snpInv x l) s = .next t ∧ State.copyOf (t.lineAt l) x = none)
      ∧ (u.req = .rdOnce → ∃ t, exec (.snpOnce x l) s = .next t ∧ (t.lineAt l).copies = (s.lineAt l).copies)) ∧
  (∀ (d : Die) (l g : Nat) (u : CohTrans) (s : State), s.Live → (s.lineAt l).trans = some u → isHost d = true → u.phase = 0 →
    u.rings = [g] → g ≠ dieCode d → (∀ x ∈ State.ringHolders (s.lineAt l) u d, x ∈ u.answered) → s.movingIn (64 * l) 64 = false →
    exec (.snpResp d l) s = .next (s.cohAction l { u with rings := [dieCode d, g] })) ∧
  (∀ (l : Nat) (x : Cache) (u : CohTrans) (s : State), s.Live → (s.lineAt l).trans = some u → u.phase = 1 →
    (u.req = .rdShared x → ∃ t c, exec (.data l) s = .next t ∧ c ∈ (t.lineAt l).copies ∧ c.cache = x
      ∧ c.st = (if u.found then 0 else 1) ∧ c.data = u.taken.getD (s.rdBytes (64 * l) 64))
      ∧ (u.req = .rdUnique x → ∃ t c, exec (.data l) s = .next t ∧ c ∈ (t.lineAt l).copies ∧ c.cache = x ∧ c.st = 2
        ∧ c.data = u.taken.getD (s.rdBytes (64 * l) 64))) ∧
  (∀ (l : Nat) (b : Bytes) (u : CohTrans) (s : State), s.Live → (s.lineAt l).trans = some u → u.phase = 1 → u.req = .wrLine b →
    exec (.comp l) s = .next ((s.bump (cohPg (s.homeDie l)) Reg.COH_DEV_WR).cohEnd l)) ∧
  (∀ (l : Nat) (u : CohTrans) (s : State), s.Live → (s.lineAt l).trans = some u → u.phase = 2 →
    exec (.compAck l) s = .next (s.cohEnd l)) ∧
  (∀ (x : Cache) (l : Nat) (k : Copy) (s : State), s.Live → State.copyOf (s.lineAt l) x = some k → k.st = 2 → (s.lineAt l).trans = none →
    s.movingIn (64 * l) 64 = false →
    ∃ t, exec (.wbDirty x l) s = .next t ∧ State.copyOf (t.lineAt l) x = none ∧ t.mem = (s.wrBytes (64 * l) k.data).mem) ∧
  (∀ (x : Cache) (l : Nat) (s : State), s.Live →
    exec (.wbAck x l) s = .next (s.setLine l { s.lineAt l with
      bufs := (s.lineAt l).bufs.filter fun b => !(b.cache == x && b.st == 2) })) ∧
  (∀ (i src e : Nat) (s : State), s.Live → s.msiq[i]? = some src → s.getF (cohPg .H0) Reg.COH_MSI_CFG_EN = 1 →
    SMap.find s.routes src = some e →
    exec (.msiDelivery i true) s = .next (State.msiRoute { s with msiq := s.msiq.eraseIdx i } src e) ∧
    (State.routeOk e = true → e.testBit 1 = false → s.hartCpt (bitsOf e 2 7) ≠ some (s.msiCpt src) →
      exec (.msiDelivery i true) s = .next (State.msiDrop { s with msiq := s.msiq.eraseIdx i } src))) ∧
  (∀ (s : State), s.Live → exec .cohMsiFlush s = .next { s with routes := [] })

/-- R56, R59, R440, R453, R485, R495, R536, R537, R587: a load of a hart that runs is answered with the bytes as coherent reads return them, and its
store within a line writes exactly its bytes; a read and a write through BAR 2 that pass the check are performed; the inspection port reads
and writes words of memory, those of the placement map and of the frames of lots among them, and an address that nothing decodes sets its
error bit. -/
def Obligations.AccessesAnswered : Prop :=
  (∀ (h pa n : Nat) (s : State), s.HartRuns h → s.Mapped h pa → n ≠ 0 → s.memoryAt pa → s.allMemory pa n = true → s.memReach (s.hartTag h) pa n = true →
    s.absentLots (State.lotsOf pa n) = [] → s.hartBad pa n = false →
    exec (.hartAccess h .load pa n []) s = .next ((s.touchRead pa n).answer (.hart h) .done (s.cohRead pa n))) ∧
  (∀ (h pa : Nat) (b : Bytes) (s : State), s.HartRuns h → s.Mapped h pa → b ≠ [] → pa % 64 + b.length ≤ 64 → s.memoryAt pa →
    s.allMemory pa b.length = true → s.memReach (s.hartTag h) pa b.length = true →
    s.absentLots (State.lotsOf pa b.length) = [] → s.movingIn pa b.length = false → s.lines = [] → s.partialBad pa b.length = false →
    ∃ t, exec (.hartAccess h .store pa b.length b) s = .next t ∧ t.mem = Memory.writeBytes s.mem pa b
      ∧ t.answers = ⟨.hart h, .done, []⟩ :: s.answers) ∧
  (∀ (pa n : Nat) (s : State), s.pcieUp = true → s.Live → n ≠ 0 → pa + n ≤ 0x200000000000 → s.memoryAt pa → s.pcieMem pa n = true →
    s.absentLots (State.lotsOf pa n) = [] → s.badIn pa n = false →
    exec (.pcieInboundRead 2 pa n) s = .next ((s.touchRead pa n).answer .pcie .done (s.cohRead pa n))) ∧
  (∀ (pa : Nat) (b : Bytes) (s : State), s.pcieUp = true → s.Live → b ≠ [] → pa + b.length ≤ 0x200000000000 → s.memoryAt pa →
    s.pcieMem pa b.length = true → s.absentLots (State.lotsOf pa b.length) = [] → s.movingIn pa b.length = false → s.partialBad pa b.length = false →
    exec (.pcieInboundWrite 2 pa b) s = .next (s.cohWrite pa b)) ∧
  (∀ (pa : Nat) (s : State), s.inspectOn = true → s.memAnswers = true → pa % 4 = 0 → s.memoryAt pa → s.inspectable pa = true →
    exec (.inspectionRead pa) s = .next (s.answer .inspect .done (s.devRead pa 4))) ∧
  (∀ (pa : Nat) (s : State), s.inspectOn = true → pa % 4 = 0 → s.locate pa = .undecoded →
    exec (.inspectionRead pa) s = .next s.inspectFail) ∧
  (∀ (pa : Nat) (v : W32) (s : State), s.inspectOn = true → s.Live → pa % 4 = 0 → s.memoryAt pa → s.inspectTakes pa = true →
    exec (.inspectionWrite pa v) s = .next (s.devWrite pa (leBytes v.toNat 4)))

/-! ### Compartments and register pages -/

/-- R492, R493, R498 to R501, R504, R505, R514: with no command under way, CREATE makes a FREE compartment ACTIVE and RELEASE an ACTIVE one
RELEASING, which its completion makes FREE; GRANT changes the owner record of an unassigned unit, and
before LOCK that of another compartment's, whose memory then reads under its new owner's keys; RETURN scrubs a unit that
nothing uses; LOCK locks; a FREE compartment's entry is written; a buffer is opened and closed. -/
def Obligations.CompartmentTable : Prop :=
  (∀ (s : State), s.TableFree → s.cptState s.cptSel = 0 → s.createOk s.cptSel = true →
    ∃ t, exec .create s = .next t ∧ t.cptState s.cptSel = 1 ∧ State.SameMemory s t) ∧
  (∀ (s : State), s.TableFree → s.cptState s.cptSel = 1 →
    ∃ t r, exec .compartmentRelease s = .next t ∧ t.cptState s.cptSel = 2 ∧ t.cptOp = some (r, s.base) ∧ r.cmd = 2
      ∧ r.cpt = s.cptSel) ∧
  (∀ (c b : Nat) (r : CptReq) (s : State), s.Live → s.cptOp = some (r, b) → s.cptQueue = [] → r.cmd = 2 → r.cpt = c → c < 64 →
    s.releaseQuiet c = true → s.place.stalls = [] → ∃ t, exec (.releaseComplete c) s = .next t ∧ t.cptState c = 0 ∧ t.cptOp = none) ∧
  (∀ (s : State), s.TableFree → s.cptState s.cptSel = 1 → s.getF cptPg Reg.CPT_UNIT_KIND ≠ 4 → s.getF cptPg Reg.CPT_UNIT_KIND ≠ 5 →
    s.getF cptPg Reg.CPT_UNIT_INDEX < unitCount (s.getF cptPg Reg.CPT_UNIT_KIND) →
    s.owner (s.getF cptPg Reg.CPT_UNIT_KIND) (s.getF cptPg Reg.CPT_UNIT_INDEX) = 0x7F →
    ∃ t, exec .grant s = .next t
      ∧ t.owner (s.getF cptPg Reg.CPT_UNIT_KIND) (s.getF cptPg Reg.CPT_UNIT_INDEX) = s.cptSel ∧ State.SameMemory s t) ∧
  (∀ (k i o : Nat) (s : State), s.TableFree → s.cptState s.cptSel = 1 → k = s.getF cptPg Reg.CPT_UNIT_KIND →
    i = s.getF cptPg Reg.CPT_UNIT_INDEX → i < unitCount k → s.granuleLocal k i = false → s.owner k i = o → o < 64 → o ≠ s.cptSel →
    s.getF cptPg Reg.CPT_CFG_LOCKED = 0 →
    exec .grant s = .next ((s.unitSet k i).foldl (fun t g => t.setOwner k g s.cptSel) (s.handOver o s.cptSel k i))) ∧
  (∀ (b : Nat) (r : CptReq) (s : State), s.Live → s.cptOp = some (r, b) → r.cmd = 3 → s.granuleLots (r.kind - 4) r.index = [] →
    exec .grantComplete s = .next ((s.grantNow r.cpt r.kind r.index).cptEnd false b)) ∧
  (∀ (k i : Nat) (s : State), s.TableFree → s.cptState s.cptSel = 1 → k = s.getF cptPg Reg.CPT_UNIT_KIND →
    i = s.getF cptPg Reg.CPT_UNIT_INDEX → i < unitCount k → s.granuleLocal k i = false → s.owner k i = s.cptSel →
    s.unitBusy k i = false →
    ∃ t r, exec .returnUnit s = .next t ∧ t.cptOp = some (r, s.base) ∧ r.cmd = 4 ∧ r.kind = k ∧ r.index = i) ∧
  (∀ (b : Nat) (r : CptReq) (s : State), s.Live → s.cptOp = some (r, b) → r.cmd = 4 →
    exec .returnComplete s = .next ((s.scrub r.kind r.index).cptEnd true b)) ∧
  (∀ (s : State), s.AuxOn → ∃ t, exec .cptLock s = .next t ∧ t.getF cptPg Reg.CPT_CFG_LOCKED = 1 ∧ State.SameMemory s t) ∧
  (∀ (v : W32) (s : State), s.AuxOn → s.cptState s.cptSel = 0 →
    exec (.cptEntCfgWrite v) s = .next (s.setWord cptPg 0x48 (v.toNat % 2 ^ 30) s.cptSel)) ∧
  (∀ (c e : Nat) (s : State), s.AuxOn → e = s.getF (ownPg c) Reg.CPT_OPEN_SEL_ENTRY →
    s.handleCheck (c % 64) (s.getF (ownPg c) Reg.CPT_OPEN_HANDLE e) = stOk →
    exec (.openBuf c) s = .next (s.setF (ownPg c) Reg.CPT_OPEN_TO_VALID 1 e)) ∧
  (∀ (c : Nat) (s : State), s.AuxOn →
    exec (.closeBuf c) s = .next (s.setF (ownPg c) Reg.CPT_OPEN_TO_VALID 0 (s.getF (ownPg c) Reg.CPT_OPEN_SEL_ENTRY)))

/-- R522, R524, R525, R528 to R530, R536, R538, R612, R665: a masked write of ENABLE; a block reset and its end; an application asked for,
cancelled, and made at its boundary, and what a page without PAGE_CAP.APPLY, which is every page of R678, answers instead; a masked write of the interrupt enables; a revote; a register write that reaches its page; and
the read that takes the oldest record of the event log. -/
def Obligations.PageHeaders : Prop :=
  (∀ (r : Requester) (pg : Page) (v : W32) (s : State), s.PageOn pg → s.reaches r pg = true → pageFused s.fuses pg = false →
    s.tenant pg = false → bitsOf v.toNat 16 3 = 1 →
    exec (.pageEnable r pg v) s = .next (s.setF pg Reg.PAGE_CTRL_ENABLE (bitsOf v.toNat 0 1))) ∧
  (∀ (r : Requester) (pg : Page) (s : State), s.PageOn pg → s.reaches r pg = true → pageFused s.fuses pg = false →
    s.tenant pg = false →
    ∃ t, exec (.blockReset r pg) s = .next t ∧ t.getF pg Reg.PAGE_STAT_RESETTING = 1) ∧
  (∀ (pg : Page) (s : State), s.responds pg = true → s.getF pg Reg.PAGE_STAT_RESETTING = 1 →
    exec (.blockResetEnd pg) s = .next (s.clearRegs (· == pg) State.resetKeep)) ∧
  (∀ (pg : Page) (v : W32) (s : State), s.PageOn pg → pageFused s.fuses pg = false → s.getF pg Reg.PAGE_APPLY_REQ = 0 →
    (s.word pg 8).testBit 0 = true → bitsOf v.toNat 4 4 = bitsOf (s.word pg 8) 8 4 → bitsOf v.toNat 4 4 ≠ 15 →
    ∃ t, exec (.applyRequest pg v) s = .next t ∧ t.getF pg Reg.PAGE_APPLY_REQ = 1
      ∧ t.getF pg Reg.PAGE_APPLY_GEN = bitsOf v.toNat 16 16) ∧
  (∀ (pg : Page) (s : State), s.PageOn pg → s.getF pg Reg.PAGE_APPLY_REQ = 1 →
    ∃ t, exec (.applyCancel pg) s = .next t ∧ t.getF pg Reg.PAGE_APPLY_REQ = 0 ∧ t.getF pg Reg.PAGE_APPLIED_CANCELLED = 1
      ∧ t.getF pg Reg.PAGE_APPLIED_GEN = s.getF pg Reg.PAGE_APPLIED_GEN) ∧
  (∀ (pg : Page) (s : State), s.PageOn pg → s.getF pg Reg.PAGE_APPLY_REQ = 1 →
    ∃ t, exec (.applyAtBoundary pg) s = .next t ∧ t.getF pg Reg.PAGE_APPLY_REQ = 0
      ∧ t.getF pg Reg.PAGE_APPLIED_GEN = s.getF pg Reg.PAGE_APPLY_GEN ∧ t.getF pg Reg.PAGE_APPLIED_CANCELLED = 0
      ∧ (t.word pg 0x20).testBit 13 = true) ∧
  (∀ (pg : Page) (v : W32) (n : Nat) (s : State), s.PageOn pg → pageFused s.fuses pg = false → n < 16 → v.toNat.testBit (16 + n) = true →
    ∃ t, exec (.pageIrqEnWrite pg v) s = .next t ∧ (t.word pg 0x24).testBit n = v.toNat.testBit n) ∧
  (∀ (pg : Page) (s : State), s.PageOn pg → exec (.tvRevote pg) s = .next (s.votePage pg)) ∧
  (∀ (r : Requester) (pg : Page) (off : Nat) (v : W32) (s : State), s.PageOn pg → off % 4 = 0 → off < 4096 → s.reaches r pg = true →
    exec (.registerWrite r pg off v) s = .next (s.writeReg pg off v)) ∧
  (∀ (r : Requester) (s : State), s.AuxOn → s.reaches r ledgPg = true → r ≠ .inspect →
    s.getF ledgPg Reg.PAGE_CTRL_INSPECT_SAFE = 0 →
    ∃ t, exec (.ledgLogData7 r) s = .next t ∧ t.log = s.log.drop 1 ∧ t.answers = ⟨r, .done, leBytes (s.logWord 7) 4⟩ :: s.answers) ∧
  (∀ (pg : Page) (v : W32) (s : State), s.PageOn pg → pageFused s.fuses pg = false → (s.word pg 8).testBit 0 = false →
    exec (.applyRequest pg v) s = .next (s.pageErr pg 1))

/-! ### Clocks, power, start and removal -/

/-- R541 to R543, R547, R550, R551, R553 to R556, R566: a source becomes qualified or is lost; the PLLs switch and lock; the select, spread, cap and
mode registers take what their writes give; an island steps by 25 MHz within its bounds, and alone where no island that shares a crossing
with it must follow; a crossing changes its mode, and a word that arrives over one with bad parity is counted. -/
def Obligations.ClocksChange : Prop :=
  (∀ (d : Die) (i pa : Nat) (c : ErrClass) (s : State), s.LiveOn d → s.clocks.locked.contains (islKey d i) = true →
    ∃ t, exec (.errorDetected d (.crossing i) c pa) s = .next t ∧ t.getF (clkPg d) Reg.CLK_STAT_XPARITY = 1
      ∧ t.getF (clkPg d) Reg.CLK_XPAR_CNT = min (s.getF (clkPg d) Reg.CLK_XPAR_CNT + 1) (2 ^ 32 - 1) ∧ State.SameMemory s t) ∧
  (∀ p ∈ [ClkSrc.crystal, ClkSrc.baseboard], ∀ (s : State), s.AuxOn →
    ∃ t, exec (.sourceQualified p) s = .next t ∧ t.getF srcPg (State.srcOkF p) = 1 ∧ State.SameMemory s t) ∧
  (∀ (s : State), s.AuxOn → s.getF srcPg Reg.CLK_SRC_BASE_OK = 1 → s.getF srcPg Reg.CLK_SRC_ACTIVE = 1 →
    ∃ t, exec (.sourceLoss .baseboard) s = .next t ∧ t.getF srcPg Reg.CLK_SRC_BASE_OK = 0 ∧ t.clocks.lostAt = some s.aon
      ∧ ∀ d, t.getF (clkPg d) Reg.CLK_STAT_CLK_LOSS = 1 ∧ t.getF (clkPg d) Reg.CLK_STAT_COASTING = 1) ∧
  (∀ (b : Nat) (s : State), s.AuxOn → s.clocks.lostAt = some b → s.getF srcPg Reg.CLK_SRC_ACTIVE = 0 → s.srcOk 1 = true →
    ∃ t, exec .clockSourceSwitch s = .next t ∧ t.getF srcPg Reg.CLK_SRC_ACTIVE = 1 ∧ t.getF srcPg Reg.CLK_SRC_SEL = 1
      ∧ t.clocks.lostAt = none) ∧
  (∀ (b : Nat) (s : State), s.AuxOn → s.clocks.lostAt = some b → s.getF srcPg Reg.CLK_SRC_ACTIVE < 2 →
    s.srcOk (1 - s.getF srcPg Reg.CLK_SRC_ACTIVE) = false →
    ∃ t, exec .clockSourceSwitch s = .next t ∧ t.getF srcPg Reg.CLK_SRC_ACTIVE = 2
      ∧ t.getF srcPg Reg.CLK_SRC_SEL = s.getF srcPg Reg.CLK_SRC_SEL) ∧
  (∀ (s : State), s.AuxOn → s.clocks.lostAt = none → s.getF srcPg Reg.CLK_STAT_COASTING = 1 → s.clocks.waiting = [] →
    ∃ t, exec .pllLock s = .next t ∧ ∀ d, t.getF (clkPg d) Reg.CLK_STAT_COASTING = 0) ∧
  (∀ (v : W32) (s : State), s.AuxOn → v.toNat % 4 < 2 →
    ∃ t, exec (.clkSrcSelWrite v) s = .next t ∧ t.getF srcPg Reg.CLK_SRC_SEL = v.toNat % 4) ∧
  (∀ (v : W32) (s : State), s.AuxOn →
    ∃ t, exec (.clkSscWrite v) s = .next t ∧ t.getF srcPg Reg.CLK_SSC_SPREAD = min 10 (bitsOf v.toNat 0 4)
      ∧ t.getF srcPg Reg.CLK_SSC_RATE = min 30 (bitsOf v.toNat 4 5)) ∧
  (∀ (d : Die) (v : W32) (r : Nat × Nat) (s : State), s.Powered → islandRange d (s.getF (clkPg d) Reg.CLK_ISL_SEL_INDEX) = some r →
    s.getF (clkPg d) Reg.CLK_STAT_COASTING = 0 →
    ∃ t, exec (.clkIslMaxWrite d v) s = .next t
      ∧ t.getF (clkPg d) Reg.CLK_ISL_MAX (s.getF (clkPg d) Reg.CLK_ISL_SEL_INDEX) = max r.2 (bitsOf v.toNat 8 8)) ∧
  (∀ (d : Die) (i : Nat) (r : Nat × Nat) (s : State), s.Powered → islandRange d i = some r →
    s.getF (clkPg d) Reg.CLK_STAT_COASTING = 0 →
    (s.getF (clkPg d) Reg.CLK_ISL_CUR i < s.islandBound d i r → exec (.frequencyStep d i true) s =
        .next ((s.moveIsland d i true).noteOp d) ∧ (s.moveIsland d i true).getF (clkPg d) Reg.CLK_ISL_CUR i = s.getF (clkPg d) Reg.CLK_ISL_CUR i + 1)
      ∧ (s.islandBound d i r ≤ s.getF (clkPg d) Reg.CLK_ISL_CUR i → exec (.frequencyStep d i true) s = .next s)
      ∧ (r.2 < s.getF (clkPg d) Reg.CLK_ISL_CUR i → exec (.frequencyStep d i false) s =
        .next ((s.moveIsland d i false).noteOp d) ∧ (s.moveIsland d i false).getF (clkPg d) Reg.CLK_ISL_CUR i = s.getF (clkPg d) Reg.CLK_ISL_CUR i - 1)
      ∧ ((∀ x ∈ partners d i (s.getF (clkPg d) Reg.CLK_ISL_CUR i - 1), s.getF (clkPg d) Reg.CLK_ISL_CUR x.1 ≤ x.2.2) →
        s.moveIsland d i false = s.setF (clkPg d) Reg.CLK_ISL_CUR (s.getF (clkPg d) Reg.CLK_ISL_CUR i - 1) i)) ∧
  (∀ (d : Die) (v : W32) (s : State), s.Powered →
    exec (.clkModeWrite d v) s = .next (s.setWord (clkPg d) 0x4C (v.toNat % 4))) ∧
  (∀ (d : Die) (i : Nat) (b : Bool) (s : State), s.Powered → i < islandCount d → s.asyncHeld d = b →
    exec (.crossingModeChange d i b) s = .next (s.setCrossing d i b))

/-- R558 to R565, R567, R568: a round's tick gives every active die its cap and demand; a message of the round is kept; a cap that rises takes
effect after 5 µs; a measurement over the cap lowers the main clock; the sensors are read, their highest is Tj; and after its time below
the threshold a die's thermal state falls. -/
def Obligations.PowerAndHeat : Prop :=
  (∀ (l : List (Die × Nat)) (s : State), s.Powered → s.getF (pwrPg .N0) Reg.PWR_ROUND = 0 →
    exec (.powerRound l) s = .next (s.activeDies.foldl (fun t d => t.roundTick l d) s)) ∧
  (∀ (d e : Die) (n k : Nat) (s : State), s.Powered → s.active d = true → s.active e = true → n = s.getF (pwrPg d) Reg.PWR_ROUND →
    ∃ t, exec (.budgetMessage d e n k) s = .next t ∧ SMap.find (t.budget d).got (dieCode e) = some k ∧ State.SameMemory s t) ∧
  (∀ (d : Die) (c : Nat) (s : State), s.Powered → (s.budget d).raised = some c → c < 2 ^ 16 → (s.budget d).tickAt + 5000 ≤ s.aon →
    ∃ t, exec (.capRaise d) s = .next t ∧ t.getF (pwrPg d) Reg.PWR_CAP = c ∧ (t.budget d).raised = none) ∧
  (∀ (d : Die) (p : Nat) (r : Nat × Nat) (s : State), s.Powered → islandRange d (mainIsland d) = some r →
    s.getF (pwrPg d) Reg.PWR_CAP * 105 < p * 100 → r.2 < s.getF (clkPg d) Reg.CLK_ISL_CUR (mainIsland d) →
    ∃ t, exec (.powerMeasure d p) s = .next t
      ∧ t.getF (clkPg d) Reg.CLK_ISL_CUR (mainIsland d) = s.getF (clkPg d) Reg.CLK_ISL_CUR (mainIsland d) - 1) ∧
  (∀ (d : Die) (l : List Nat) (s : State), s.Powered → l.length = (if isTensor d then 32 else 8) → (∀ x ∈ l, x ≤ 255) →
    s.getF (thmPg d) Reg.THM_STATE = 0 →
    ∃ t, exec (.thermalSample d l) s = .next t ∧ t.getF (thmPg d) Reg.THM_TJ_TEMP_C = l.foldl max 0) ∧
  (∀ (d : Die) (b : Nat) (s : State), s.Powered → SMap.find s.coolAt (dieCode d) = some b →
    ((s.getF (thmPg d) Reg.THM_STATE = 1 ∨ s.getF (thmPg d) Reg.THM_STATE = 2) → b + 10 ^ 6 ≤ s.aon →
        exec (.thermalHysteresisTimer d) s = .next (s.setThermal d (s.getF (thmPg d) Reg.THM_STATE - 1)))
      ∧ (s.getF (thmPg d) Reg.THM_STATE = 3 → b + 10 ^ 7 ≤ s.aon → exec (.thermalHysteresisTimer d) s = .next (s.setThermal d 2)))

/-- R582, R583, R585, R602, R604 to R607, R592: a module whose input has stayed good for 50 ms starts; the stages run in order, each only from the one
before it; firmware opens the module once. -/
def Obligations.StartStages : Prop :=
  (∀ (s : State), s.getF pciePg Reg.PCIE_HP_STATE_LEVER_CLOSED = 0 → s.inputOk = true → s.conn.excess = false →
    ∃ t, exec .leverSwitchClose s = .next t ∧ t.getF pciePg Reg.PCIE_HP_STATE_LEVER_CLOSED = 1 ∧ t.conn.qualAt = some s.aon) ∧
  (∀ (i : Nat) (s : State), s.qualified = true → s.getF pciePg Reg.PCIE_HSW_AUX_ON = 0 →
    exec (.auxPathOn i) s = .next (s.coldStart (i % 16))) ∧
  (∀ (s : State), s.AuxOn → s.atStage 0 = true → s.conn.image = none → s.fuses.ctlImageOk = true →
    ∃ t, exec .rom s = .next t ∧ t.getF mgmtPg Reg.MGMT_BOOT_STAGE = 1) ∧
  (∀ (s : State), s.AuxOn → s.atStage 0 = true → s.conn.image = none → s.fuses.ctlImageOk = false →
    ∃ t, exec .rom s = .next t ∧ t.getF mgmtPg Reg.MGMT_BOOT_ERROR = 1) ∧
  (∀ (s : State), s.AuxOn → s.atStage 1 = true →
    ∃ t, exec .mc s = .next t ∧ t.getF mgmtPg Reg.MGMT_BOOT_STAGE = 2 ∧ t.getF pciePg Reg.PCIE_HP_STATE_LATCH_LOCKED = 1
      ∧ t.ledger.insertions = s.ledger.insertions + 1 ∧ t.ledger.couplings = s.ledger.couplings + 1) ∧
  (∀ (s : State), s.AuxOn → s.atStage 2 = true → s.hpState < 4 → s.conn.failed = false → s.getF pciePg Reg.PCIE_HSW_OC_LATCHED = 0 →
    ∃ t, exec .mainPower s = .next t ∧ t.getF mgmtPg Reg.MGMT_BOOT_STAGE = 3 ∧ t.getF pciePg Reg.PCIE_HSW_MAIN_ON = 1) ∧
  (∀ (s : State), s.Live → s.atStage 3 = true →
    exec (.links []) s = .next ((allDies.foldl State.trainLinks s).setStage 4)) ∧
  (∀ (x y : List Nat) (s : State), s.Live → s.atStage 4 = true →
    ∃ t, exec (.memory x y) s = .next t ∧ t.getF mgmtPg Reg.MGMT_BOOT_STAGE = 5) ∧
  (∀ (x y : List (Die × Nat)) (s : State), s.Live → s.atStage 5 = true →
    ∃ t, exec (.bist x y) s = .next t ∧ t.getF mgmtPg Reg.MGMT_BOOT_STAGE = 6) ∧
  (∀ (s : State), s.Live → s.atStage 6 = true → s.fuses.hostImageOk = true →
    ∃ t, exec .host s = .next t ∧ t.getF mgmtPg Reg.MGMT_BOOT_STAGE = 7 ∧ t.getF cptPg Reg.CPT_CFG_FW_SIGNED = 1) ∧
  (∀ (s : State), s.Live → s.atStage 6 = true → s.fuses.hostImageOk = false →
    exec .host s = .next ((s.setStage 7).setF mgmtPg Reg.MGMT_BOOT_ERROR 2)) ∧
  (∀ (s : State), s.Live → s.atStage 7 = true → s.hpState = 0 →
    ∃ t, exec .openBoot s = .next t ∧ t.getF mgmtPg Reg.MGMT_BOOT_OPEN = 1 ∧ t.hpState = 1) ∧
  (∀ (i : Nat) (s : State), s.conn.excess = true → s.getF pciePg Reg.PCIE_HP_STATE_LEVER_CLOSED = 1 →
    exec (.overvoltageRecovery i) s = .next (s.coldStart (i % 16)))

/-- R574, R581 to R583, R592, R594, R595, R597, R598, R601: the lever, the input and the main path that fail run the power-fail sequence; the
attention button and the commands move through the hot-plug states; the drain and power-down timers act; and the path and the latch
are off when the module may be pulled. -/
def Obligations.RemovalAndInput : Prop :=
  (∀ (s : State), s.AuxOn → s.conn.failed = false → s.hpState ≠ 5 →
    ∃ t, exec .leverSwitchOpen s = .next t ∧ t.conn.failed = true ∧ t.conn.qualAt = none
      ∧ t.getF pciePg Reg.PCIE_HP_STATE_LEVER_CLOSED = 0 ∧ t.getF pciePg Reg.PCIE_HSW_MAIN_ON = 0) ∧
  (∀ (mv : Nat) (s : State), s.AuxOn → s.conn.failed = false → mv < 42000 →
    ∃ t, exec (.inputUndervoltage mv) s = .next t ∧ t.conn.failed = true ∧ t.getF pciePg Reg.PCIE_HSW_MAIN_ON = 0) ∧
  (∀ (mv : Nat) (s : State), s.AuxOn → s.conn.failed = false → 62000 < mv →
    ∃ t, exec (.inputOvervoltage mv) s = .next t ∧ t.conn.excess = true ∧ t.getF pciePg Reg.PCIE_HSW_MAIN_ON = 0
      ∧ t.getF pciePg Reg.PCIE_HSW_AUX_ON = 0) ∧
  (∀ (ma : Nat) (s : State), s.AuxOn → s.conn.failed = false → s.getF pciePg Reg.PCIE_HSW_MAIN_ON = 1 → 75000 < ma →
    ∃ t, exec (.mainOvercurrent ma) s = .next t ∧ t.getF pciePg Reg.PCIE_HSW_OC_LATCHED = 1
      ∧ t.getF pciePg Reg.PCIE_HSW_MAIN_ON = 0) ∧
  (∀ (mv : Nat) (s : State), s.AuxOn → 42000 ≤ mv → mv < 48000 →
    ∃ t, exec (.uvWarn mv) s = .next t ∧ t.getF pciePg Reg.PCIE_HSW_UV_WARN = 1 ∧ State.SameMemory s t) ∧
  (∀ (mv : Nat) (s : State), 44000 ≤ mv → mv ≤ 60000 → s.conn.excess = false → s.conn.qualAt = none →
    s.getF pciePg Reg.PCIE_HP_STATE_LEVER_CLOSED = 1 →
    ∃ t, exec (.undervoltageLockoutRelease mv) s = .next t ∧ t.conn.qualAt = some s.aon) ∧
  (∀ (mv : Nat) (s : State), s.AuxOn → 48000 ≤ mv → mv ≤ 62000 →
    exec (.reducedRangeExit mv) s = .next ((s.setVolt mv).setF pciePg Reg.PCIE_HSW_UV_WARN 0)) ∧
  (∀ (s : State), s.AuxOn → s.conn.failed = true →
    exec .auxiliaryPathOff s =
      .next ((s.setF pciePg Reg.PCIE_HSW_AUX_ON 0).setF pciePg Reg.PCIE_HP_STATE_LATCH_LOCKED 0)) ∧
  (∀ (s : State), s.AuxOn → s.getF mgmtPg Reg.MGMT_STANDBY_STATE = 0 →
    (s.hpState = 1 → ∃ t, exec .attentionButtonPress s = .next t ∧ t.hpState = 2 ∧ t.conn.windowAt = s.base)
      ∧ (s.hpState = 2 → ∃ t, exec .attentionButtonPress s = .next t ∧ t.hpState = 1)
      ∧ (s.hpState = 0 → exec .attentionButtonPress s = .next (s.bump pciePg Reg.PCIE_HP_BTN_IGNORED))) ∧
  (∀ (s : State), s.AuxOn → s.hpState = 2 → s.conn.windowAt + 5 * 10 ^ 9 ≤ s.base →
    ∃ t, exec .abortWindowExpiry s = .next t ∧ t.hpState = 3) ∧
  (∀ (s : State), s.AuxOn → s.hpState = 1 → ∃ t, exec .startDrain s = .next t ∧ t.hpState = 3 ∧ t.conn.drainAt = s.base) ∧
  (∀ (s : State), s.AuxOn → s.hpState = 3 → ∃ t, exec .drainDone s = .next t ∧ t.hpState = 4 ∧ t.conn.downAt = s.base) ∧
  (∀ (s : State), s.AuxOn → (s.hpState = 2 ∨ s.hpState = 3) → ∃ t, exec .cancel s = .next t ∧ t.hpState = 1) ∧
  (∀ (s : State), s.AuxOn → s.hpState = 3 → s.getF pciePg Reg.PCIE_HP_STATE_DRAIN_TIMEOUT = 0 →
    s.conn.drainAt + s.getF pciePg Reg.PCIE_HP_DRAIN_S * 10 ^ 9 ≤ s.base →
    ∃ t, exec .drainTimeout s = .next t ∧ t.getF pciePg Reg.PCIE_HP_STATE_DRAIN_TIMEOUT = 1 ∧ t.hpState = 3) ∧
  (∀ (s : State), s.Live → s.hpState = 4 → s.liveStreams = [] → s.qps = [] →
    exec .poweringDown s = .next { s with conn := { s.conn with downAt := s.base } }) ∧
  (∀ (s : State), s.Live → s.hpState = 4 → s.conn.downAt + 10 ^ 9 ≤ s.base →
    ∃ t, exec .powerDownLinkTimeout s = .next t ∧ t.getF pciePg Reg.PCIE_LINK_DL_ACTIVE = 0) ∧
  (∀ (s : State), s.Live → s.hpState = 4 → s.getF pciePg Reg.PCIE_LINK_DL_ACTIVE = 0 → s.liveStreams = [] → s.qps = [] →
    ∃ t, exec .powerDownComplete s = .next t ∧ t.hpState = 5 ∧ t.getF pciePg Reg.PCIE_HSW_MAIN_ON = 0)

/-- R586, R589, R590, R598, R608, R610, R613, R615, R618, R620: the requests of a reset, the PCIe link and its resets, a die's recovery, holds and
releases of a hart, parks, and the way into and out of standby. -/
def Obligations.ResetsAndPowerStates : Prop :=
  (∀ (s : State), s.AuxOn → s.hpState < 4 →
    exec .modResetN s = .next (s.moduleReset 1) ∧ exec .functionLevelReset s = .next (s.moduleReset 2)
      ∧ exec .resetCmdModule s = .next (s.moduleReset 3)
      ∧ (2 ≤ s.getF mgmtPg Reg.MGMT_BOOT_STAGE → exec .pldmReset s = .next (s.moduleReset 7))) ∧
  (∀ (s : State), ∃ t, exec .perstNAssert s = .next t ∧ t.conn.perst = true ∧ t.bar4 = []
    ∧ t.getF pciePg Reg.PCIE_LINK_DL_ACTIVE = 0 ∧ State.SameMemory s t) ∧
  (∀ (s : State), ∃ t, exec .perstNDeassert s = .next t ∧ t.conn.perst = false) ∧
  (∀ (s : State), s.getF pciePg Reg.PCIE_HSW_MAIN_ON = 1 → exec .hotReset s = .next s.pcieReset ∧ exec .pcieLinkDown s = .next s.dropLink) ∧
  (∀ (speed width : Nat) (b : Bool) (s : State), s.Live → s.conn.perst = false → s.hpState < 4 → 1 ≤ speed → speed ≤ 6 →
    width ∈ [1, 2, 4, 8, 16] →
    ∃ t, exec (.pcieLinkUp speed width b) s = .next t ∧ t.getF pciePg Reg.PCIE_LINK_DL_ACTIVE = 1
      ∧ t.getF pciePg Reg.PCIE_LINK_SPEED = speed ∧ t.getF pciePg Reg.PCIE_LINK_WIDTH = width) ∧
  (∀ (k : Nat) (s : State), s.AuxOn → k < 16 →
    exec (.resetCmdDie k) s = .next ((s.setF mgmtPg Reg.MGMT_RESET_CMD_TARGET k).dieReset (dieOf k) 3)) ∧
  (∀ (d : Die) (s : State), s.getF pciePg Reg.PCIE_HSW_MAIN_ON = 1 → s.recovering.map (·.1) = [dieCode d] →
    ∃ t, exec (.dieRecoveryComplete d) s = .next t ∧ t.recovering = []) ∧
  (∀ (k : Nat) (s u : State), s.AuxOn → k < 64 → u = s.setF mgmtPg Reg.MGMT_RESET_CMD_TARGET k → u.startRank = 0 →
    (∀ h ∈ u.hartsOf k, (u.hart h).held = true) →
    exec (.resetCmdCompartment k) s = .next ((u.cptReset k).noteReset 3 3 k)) ∧
  (∀ (h : Nat) (s u : State), s.AuxOn → h < 96 → u = s.setF mgmtPg Reg.MGMT_RESET_CMD_TARGET h → u.startRank = 0 →
    ∃ t, exec (.coreHold h) s = .next t ∧ (t.hart h).held = true) ∧
  (∀ (h : Nat) (d : Die) (s u : State), s.AuxOn → h < 96 → d = (if h < 48 then Die.H0 else .H1) →
    u = s.setF mgmtPg Reg.MGMT_RESET_CMD_TARGET h → u.startRank = 0 → u.dieUnusable d = false → u.dieParked d = false →
    (dieCode d, .core h) ∉ u.unusable → (u.hart h).held = true →
    ∃ t, exec (.coreRelease h) s = .next t ∧ (t.hart h).held = false) ∧
  (∀ (d : Die) (s : State), s.Live → s.dieParked d = false → d ≠ .N0 → s.gatedBusy d = false → s.parkLeaves d = true →
    ∃ t, exec (.park d) s = .next t ∧ t.dieParked d = true ∧ t.getF mgmtPg Reg.MGMT_DIES_PARKED >>> dieCode .N0 % 2 =
      s.getF mgmtPg Reg.MGMT_DIES_PARKED >>> dieCode .N0 % 2) ∧
  (∀ (d : Die) (s : State), s.Live → ∃ t, exec (.unpark d) s = .next t ∧ t.dieParked d = false ∧ State.SameMemory s t) ∧
  (∀ (b : Bool) (s : State), s.Live → s.getF mgmtPg Reg.MGMT_STANDBY_STATE = 0 → s.startRank = 0 → s.hpState < 4 →
    (∀ e ∈ s.allStreams, s.streamState e.1 e.2 = 0 ∧ (s.stream e.1 e.2).fetched = []) → (∀ e ∈ s.qps, s.qpSt e.1 = 0) →
    exec (.standbyEnter b) s =
      .next ((s.setF mgmtPg Reg.MGMT_STANDBY_STATE 1).setF mgmtPg Reg.MGMT_STANDBY_KEEP_H0 b.toNat)) ∧
  (∀ (s : State), s.Live → s.getF mgmtPg Reg.MGMT_STANDBY_STATE = 1 →
    ∃ t, exec .standbyEntryComplete s = .next t ∧ t.getF mgmtPg Reg.MGMT_STANDBY_STATE = 2
      ∧ t.getF pciePg Reg.PCIE_LINK_DL_ACTIVE = 0) ∧
  (∀ p ∈ [(Instr.standbyWake, 1), (Instr.pldmWake, 2), (Instr.h0L3Miss 0, 5)], ∀ (s : State), s.BusesOn →
    s.getF mgmtPg Reg.MGMT_STANDBY_STATE = 2 → s.getF mgmtPg Reg.MGMT_STANDBY_KEEP_H0 = 1 → (s.hart 0).held = false →
    ∃ t, exec p.1 s = .next t ∧ t.getF mgmtPg Reg.MGMT_STANDBY_STATE = 3 ∧ t.getF mgmtPg Reg.MGMT_STANDBY_WAKE_CAUSE = p.2
      ∧ t.wakeAsserted = (s.getF pciePg Reg.PCIE_LINK_DL_ACTIVE == 0 && !s.conn.perst) ∧ State.SameMemory s t) ∧
  (∀ (s : State), s.AuxOn → s.getF mgmtPg Reg.MGMT_STANDBY_STATE = 3 →
    ∃ t, exec .wakeComplete s = .next t ∧ t.getF mgmtPg Reg.MGMT_STANDBY_STATE = 0)

/-- R584, R585, R659, R668, R670, R674: the baseboard's commands on the management buses, and the service panel: the locate and the sounder, and the
drawings of the tag. -/
def Obligations.ManagementAndPanel : Prop :=
  (∀ (n : Nat) (s : State), s.BusesOn → 0 < n → n < 2 ^ 16 →
    ∃ t, exec (.pldmIdentify n) s = .next t ∧ t.locateEnd = s.aon + n * 10 ^ 9 ∧ t.getF svcPg Reg.SVC_LOCATE_ACTIVE = 1) ∧
  (∀ (b : Bytes) (s : State), s.BusesOn →
    exec (.pldmFirmwareUpdate b) s = .next { s with conn := { s.conn with image := some b } }) ∧
  (∀ (d : Die) (s : State), s.BusesOn →
    exec (.pldmSensorRead .inputVoltage) s = .next (s.answer .mgmt .done (leBytes (s.getF pciePg Reg.PCIE_IN_VOLT) 4))
      ∧ exec (.pldmSensorRead (.tj d)) s = .next (s.answer .mgmt .done (leBytes (s.getF (thmPg d) Reg.THM_TJ_TEMP_C) 4))
      ∧ exec (.pldmSensorRead (.power d)) s = .next (s.answer .mgmt .done (leBytes (s.getF (pwrPg d) Reg.PWR_MEAS) 4))) ∧
  (∀ (s : State), s.BusesOn → ∃ t b, exec .pldmFruRead s = .next t ∧ t.answers = ⟨.mgmt, .done, b⟩ :: s.answers ∧ State.SameMemory s t) ∧
  (∀ (n : Nat) (s : State), s.BusesOn → exec (.entdaa n) s = .next { s with conn := { s.conn with i3c := some (n % 128) } }) ∧
  (∀ (v : W32) (s : State), s.AuxOn →
    ∃ t, exec (.svcLocate v) s = .next t ∧ t.locateEnd = s.aon + v.toNat % 2 ^ 16 * 10 ^ 9
      ∧ t.getF svcPg Reg.SVC_LOCATE_ACTIVE = (if v.toNat % 2 ^ 16 = 0 then 0 else 1)) ∧
  (∀ (s : State), s.AuxOn → s.locateEnd ≤ s.aon → exec .locateExpiry s = .next (s.setF svcPg Reg.SVC_LOCATE_ACTIVE 0)) ∧
  (∀ (s : State), s.AuxOn → s.getF svcPg Reg.SVC_LOCATE_ACTIVE = 1 → s.getF svcPg Reg.SVC_SND_LATCHED = 0 → s.soundAt = 0 →
    exec .sounderShort s = .next (State.setF { s with soundAt := s.aon + 2 * 10 ^ 9 } svcPg Reg.SVC_SND_FAULT 1)) ∧
  (∀ (s : State), s.AuxOn → s.soundAt ≠ 0 → s.soundAt ≤ s.aon → s.getF svcPg Reg.SVC_SND_RETRIES = 4 →
    s.getF svcPg Reg.SVC_SND_LATCHED = 0 →
    ∃ t, exec (.sounderRetry true) s = .next t ∧ t.getF svcPg Reg.SVC_SND_LATCHED = 1 ∧ t.getF svcPg Reg.SVC_SND_RETRIES = 5) ∧
  (∀ (s : State), s.AuxOn →
    ∃ t, exec .svcSndClear s = .next t ∧ t.getF svcPg Reg.SVC_SND_FAULT = 0 ∧ t.getF svcPg Reg.SVC_SND_RETRIES = 0
      ∧ t.getF svcPg Reg.SVC_SND_LATCHED = 0 ∧ State.SameMemory s t) ∧
  (∀ (s : State), s.AuxOn → s.getF svcPg Reg.SVC_TAG_STAT_DRAWING = 0 → s.panelStale = true → s.panel.drawnAt = none →
    exec .serviceTagDraw s = .next s.drawStart) ∧
  (∀ (s : State), s.AuxOn → s.getF svcPg Reg.SVC_TAG_STAT_DRAWING = 1 → s.panel.drawnAt.getD 0 + 1800000000 ≤ s.aon →
    s.getF svcPg Reg.SVC_TAG_DRAWS < 2 ^ 32 - 1 →
    ∃ t, exec .tagRefreshDone s = .next t ∧ t.getF svcPg Reg.SVC_TAG_DRAWS = s.getF svcPg Reg.SVC_TAG_DRAWS + 1) ∧
  (∀ (s : State), s.AuxOn → exec .redraw s = .next s.drawNow)

/-- R653, R654, R656 to R658, R660 to R663, R675: each power-on hour is recorded; sectors are erased ahead; a failed program is reported; and a network
die's flash: credit used up, budget reached, reserve low, collected, and credit that accrues. -/
def Obligations.LedgerAndFlash : Prop :=
  (∀ (s : State), s.AuxOn → s.getF ledgPg Reg.LEDG_POH < 2 ^ 32 - 1 →
    ∃ t, exec (.hourlyRecord []) s = .next t ∧ t.getF ledgPg Reg.LEDG_POH = s.getF ledgPg Reg.LEDG_POH + 1
      ∧ t.ledger.hourly.length = min (s.ledger.hourly.length + 1) 131072 ∧ State.SameMemory s t) ∧
  (∀ (s : State), s.AuxOn → s.getF ledgPg Reg.LEDG_FREE_PAGES < 64 →
    exec .eraseAhead s = .next (s.setF ledgPg Reg.LEDG_FREE_PAGES (s.getF ledgPg Reg.LEDG_FREE_PAGES + 16))) ∧
  (∀ (b : Bool) (s : State), s.AuxOn →
    ∃ t, exec (.pageProgramFail b) s = .next t ∧ t.getF ledgPg Reg.LEDG_STAT_WRITE_FAIL = 1 ∧ (t.word ledgPg 0x20).testBit 1 = true) ∧
  (∀ (d : Die) (s : State), s.LiveOn d → isNet d = true → (s.flash (netNo d)).credit = 0 →
    exec (.warehouseCreditExhausted d) s = .next (s.startPacing (netNo d))) ∧
  (∀ (d : Die) (s : State), s.LiveOn d → isNet d = true → whcBudget ≤ (s.flash (netNo d)).prog →
    s.getF (State.whcPg (netNo d)) Reg.WHC_STAT_WORN = 0 →
    ∃ t, exec (.warehouseWorn d) s = .next t ∧ t.getF (State.whcPg (netNo d)) Reg.WHC_STAT_WORN = 1
      ∧ t.ledger.worn = [netNo d] :: s.ledger.worn) ∧
  (∀ (d : Die) (s : State), s.LiveOn d → isNet d = true → s.getF (State.whcPg (netNo d)) Reg.WHC_STAT_RESERVE_LOW = 0 →
    exec (.reserveLow d) s =
      .next ((s.setF (State.whcPg (netNo d)) Reg.WHC_STAT_RESERVE_LOW 1).raise (State.whcPg (netNo d)) 2)) ∧
  (∀ (d : Die) (n k : Nat) (s : State), s.LiveOn d → isNet d = true →
    ∃ t, exec (.garbageCollection d n k) s = .next t ∧ (t.flash (netNo d)).prog = (s.flash (netNo d)).prog + n
      ∧ (t.flash (netNo d)).host = (s.flash (netNo d)).host ∧ State.SameMemory s t) ∧
  (∀ (d : Die) (s : State), s.LiveOn d → isNet d = true → exec (.creditAccrual d) s = .next (s.accrue (netNo d))) ∧
  (∀ (s : State), s.getF pciePg Reg.PCIE_HSW_AUX_ON = 0 → exec .supercapacitorRunDown s = .next { s with rtcLost := true })

/-! ### The whole machine -/

/-- One step runs the command at the front of the queue with the rest of the queue, as the block's interface says; with no command
waiting one nanosecond passes (the model's choice, notes/assumptions/1.md and 2.md); and every command of every state answers a next
state. -/
def Obligations.StepRunsFrontCommand : Prop :=
  (∀ (c : Instr) (r : List Instr) (s : State), s.pending = c :: r → step s = exec c { s with pending := r }) ∧
  (∀ s : State, s.pending = [] → step s = .next s.tick) ∧
  (∀ (c : Instr) (s : State), ∃ t, exec c s = .next t)

/-- R207, R439, R467, R492, R522, R582, R602: at reset nothing waits, main power is off and the auxiliary path on, the start stands at
stage 0, every map entry reads 3, every unit that can be granted is unassigned, every tally is unconfigured, every stream DISABLED, every
hart held, and every page that is not fused off is enabled, unmasked and free of errors. Memory lists nothing (what memory reads before
a write is the model's choice, notes/assumptions/3.md). -/
def Obligations.ResetHolds : Prop :=
  State.reset.pending = [] ∧ State.reset.stopped = true ∧ State.reset.AuxOn
    ∧ State.reset.getF mgmtPg Reg.MGMT_BOOT_STAGE = 0 ∧ State.reset.getF mgmtPg Reg.MGMT_BOOT_OPEN = 0
    ∧ State.reset.mem.wf = true ∧ State.reset.file.wf = true ∧ State.reset.bar4.wf = true
    ∧ (∀ l, State.reset.entry l = 3)
    ∧ (∀ k i, State.reset.owner k i = 0x7F ∨ State.reset.owner k i = 0x7E)
    ∧ (∀ t, State.reset.tally t = Tally.init)
    ∧ (∀ h, (State.reset.hart h).held = true)
    ∧ (∀ d n, State.reset.streamState d n = 0)
    ∧ (∀ pg : Page, pageFused State.reset.fuses pg = false → pg.blk ≠ .eng → State.reset.getF pg Reg.PAGE_CTRL_ENABLE = 1
        ∧ State.reset.word pg 0x20 = 0 ∧ State.reset.word pg 0x24 = 0 ∧ State.reset.word pg 0x30 = 0)

/-- The three byte memories keep their canonical form, whatever command runs: addresses strictly rising, and no byte listed that reads as
an unlisted one does. -/
def Obligations.MemoryStaysCanonical : Prop :=
  ∀ s t : State, s.mem.wf = true → s.file.wf = true → s.bar4.wf = true → step s = .next t →
    t.mem.wf = true ∧ t.file.wf = true ∧ t.bar4.wf = true

/-- R56, R207, R358: a command that is not among those that write memory changes no byte of device memory and of the warehouse file area,
and makes no codeword uncorrectable or good. -/
def Obligations.MemoryFrame : Prop :=
  ∀ (c : Instr) (s t : State), touchesMemory c = false → exec c s = .next t →
    State.SameMemory s t ∧ (∀ a, Memory.read t.mem a = Memory.read s.mem a) ∧ (∀ a, Memory.read t.file a = Memory.read s.file a)

/-- R492, R498: the owner records of the compartment table change only through its own commands, through an access that reaches its
registers, and at a start of the module. -/
def Obligations.OwnersMoveThroughTheTable : Prop :=
  ∀ (c : Instr) (s t : State), movesOwners c = false → exec c s = .next t →
    t.owners = s.owners ∧ ∀ k i, s.owner k i < 64 → t.owner k i = s.owner k i ∨ t.owner k i = 0x7E

/-- What a command leaves alone beside registers and memory: no command changes the queue that it is taken from, and each part of the
state changes only by the commands that `Part.movedBy` lists for it. -/
def Obligations.PartsStay : Prop :=
  (∀ (c : Instr) (s t : State), exec c s = .next t → t.pending = s.pending) ∧
  (∀ (c : Instr) (s t : State), c ≠ .rom → exec c s = .next t → t.fuses = s.fuses) ∧
  (∀ (p : Part) (c : Instr) (s t : State), p.movedBy c = false → exec c s = .next t → p.same s t)

/-- R209, R440, R495, R604: once the module is open, an access of a hart to memory or to a cistern of which some page is not its
compartment's is answered with an access fault, and an inbound read or write with Unsupported Request; nothing else happens. -/
def Obligations.CompartmentsAreApart : Prop :=
  (∀ (h : Nat) (op : HartOp) (pa n : Nat) (b : Bytes) (s : State), s.HartRuns h → n ≠ 0 → (b.length = n ∨ opWrites op = false) →
    s.getF mgmtPg Reg.MGMT_BOOT_OPEN = 1 → (s.memoryAt pa ∨ ∃ d e off, s.locate pa = .cistern d e off) →
    (∃ p ∈ pagesIn pa n, ∀ c, s.hartCpt h = some c → s.memOwner p ≠ some c) →
    exec (.hartAccess h op pa n b) s = .next (s.answer (.hart h) .accessFault)) ∧
  (∀ (pa n : Nat) (s : State), s.pcieUp = true → s.Live → n ≠ 0 → pa + n ≤ 0x200000000000 →
    (s.memoryAt pa ∨ ∃ d e off, s.locate pa = .cistern d e off) →
    (∃ p ∈ pagesIn pa n, s.memOwner p ≠ some (s.getF cptPg Reg.CPT_CFG_PCIE)) →
    exec (.pcieInboundRead 2 pa n) s = .next (s.answer .pcie .unsupported)) ∧
  (∀ (pa : Nat) (b : Bytes) (s : State), s.pcieUp = true → s.Live → b ≠ [] → pa + b.length ≤ 0x200000000000 →
    (s.memoryAt pa ∨ ∃ d e off, s.locate pa = .cistern d e off) →
    (∃ p ∈ pagesIn pa b.length, s.memOwner p ≠ some (s.getF cptPg Reg.CPT_CFG_PCIE)) →
    exec (.pcieInboundWrite 2 pa b) s = .next (s.answer .pcie .unsupported))

/-- R59, R440, R463, R489, R495, R604: a hart's word access outside memory that its compartment does not reach, and any access of it that
is not one aligned word, is answered with an access fault and nothing else happens; so is an access to nothing that is decoded. -/
def Obligations.WordsAreGuarded : Prop :=
  ∀ (h : Nat) (op : HartOp) (pa n : Nat) (b : Bytes) (s : State), s.HartRuns h → n ≠ 0 → (b.length = n ∨ opWrites op = false) →
    (s.locate pa = .undecoded
      ∨ ((∃ pg off, s.locate pa = .page pg off)
          ∧ (n ≠ 4 ∨ pa % 4 ≠ 0 ∨ ∀ pg off, s.locate pa = .page pg off → s.reaches (.hart h) pg = false))
      ∨ ((∃ t off, s.locate pa = .tally t off) ∧ s.getF mgmtPg Reg.MGMT_BOOT_OPEN = 1
          ∧ ∀ t off c, s.locate pa = .tally t off → s.hartCpt h = some c → s.tallyOwner t ≠ some c)
      ∨ ((∃ k f off, s.locate pa = .imsic k f off) ∧ s.getF mgmtPg Reg.MGMT_BOOT_OPEN = 1
          ∧ ∀ k f off c, s.locate pa = .imsic k f off → s.hartCpt h = some c → s.hartCpt k ≠ some c)) →
    exec (.hartAccess h op pa n b) s = .next (s.answer (.hart h) .accessFault)

/-- R582, R615, R640: while the module is frozen, in standby or without main power, a command of a part that this stops changes nothing. -/
def Obligations.StoppedModuleHoldsStill : Prop :=
  ∀ (c : Instr) (s : State), s.stopped = true → stopsInFreeze c = true → exec c s = .next s

/-- R560: the cap that a die computes from a whole round is its demand where every demand fits, and otherwise its floor and its share of
what the budget less 420 W leaves above the floors, rounded down; the caps together never pass the budget less 420 W when the floors
do not; and a round's tick brings that cap to the die, at once or as a raise that waits. -/
def Obligations.PowerCapsFit : Prop :=
  (∀ (got : SMap Nat) (d : Die) (r sum : Nat) (s : State), s.active d = true →
    r + (s.activeDies.map fun e => (s.limitsOf e).1).sum = (s.getF (pwrPg .N0) Reg.PWR_MODULE_BUDGET_W - 420) * 10 →
    (∀ e ∈ s.activeDies, (s.limitsOf e).1 ≤ SMap.getD got (dieCode e) 0) →
    sum = (s.activeDies.map fun e => SMap.getD got (dieCode e) 0 - (s.limitsOf e).1).sum →
    s.capOf got d = (if sum ≤ r then SMap.getD got (dieCode d) 0
      else (s.limitsOf d).1 + (SMap.getD got (dieCode d) 0 - (s.limitsOf d).1) * r / sum)) ∧
  (∀ (got : SMap Nat) (s : State),
    (s.activeDies.map fun e => (s.limitsOf e).1).sum ≤ (s.getF (pwrPg .N0) Reg.PWR_MODULE_BUDGET_W - 420) * 10 →
    (s.activeDies.map fun e => s.capOf got e).sum ≤ (s.getF (pwrPg .N0) Reg.PWR_MODULE_BUDGET_W - 420) * 10) ∧
  (∀ (l : List (Die × Nat)) (d : Die) (s : State), s.Powered → s.active d = true → s.getF (pwrPg d) Reg.PWR_ROUND ≠ 0 →
    (s.getF (pwrPg .N0) Reg.PWR_ROUND ≠ 0 → (s.budget .N0).tickAt + 50000 ≤ s.aon) →
    s.roundWhole (s.budget d).got = true → s.capOf (s.budget d).got d < 2 ^ 16 →
    ∃ t, exec (.powerRound l) s = .next t ∧
      (if s.getF (pwrPg d) Reg.PWR_CAP < s.capOf (s.budget d).got d then (t.budget d).raised = some (s.capOf (s.budget d).got d)
       else t.getF (pwrPg d) Reg.PWR_CAP = s.capOf (s.budget d).got d))

/-- R258, R259: the stack, pseudo-channel and granule of a near-store offset, in the package-wide part and in the die-local part of a
stack, and those of a depot address, are the XOR of the groups of bits named; and each codeword has one offset, so that no two
codewords of the near store, or of the depot, share a place. -/
def Obligations.CodewordMapsInvert : Prop :=
  (∀ l off g : Nat, l ≤ 16 → off < (384 - 8 * l) * 2 ^ 30 → g = off / 256 →
    nearCw l off = ⟨dieOf ((g % 256 ^^^ g / 2 ^ 8 % 256 ^^^ g / 2 ^ 16 % 256 ^^^ g / 2 ^ 24 % 256) / 32),
      (g % 256 ^^^ g / 2 ^ 8 % 256 ^^^ g / 2 ^ 16 % 256 ^^^ g / 2 ^ 24 % 256) % 32, g / 256 * 4 + off / 64 % 4⟩) ∧
  (∀ l k x g : Nat, l ≤ 16 → k < 8 → x < l * 2 ^ 30 → g = x / 256 →
    nearCw l ((384 - 8 * l) * 2 ^ 30 + k * (l * 2 ^ 30) + x) = ⟨dieOf k,
      g % 32 ^^^ g / 2 ^ 5 % 32 ^^^ g / 2 ^ 10 % 32 ^^^ g / 2 ^ 15 % 32 ^^^ g / 2 ^ 20 % 32 ^^^ g / 2 ^ 25 % 32,
      ((48 - l) * 2 ^ 17 + g / 32) * 4 + x / 64 % 4⟩) ∧
  (∀ pa g c : Nat, g = pa / 256 →
    c = (g % 128 ^^^ g / 2 ^ 7 % 128 ^^^ g / 2 ^ 14 % 128 ^^^ g / 2 ^ 21 % 128 ^^^ g / 2 ^ 28 % 128) →
    depotCw [] pa = ⟨dieOf (12 + c / 32), c % 32, g / 128 * 4 + pa / 64 % 4⟩) ∧
  (∀ l off : Nat, l ≤ 16 → off % 64 = 0 → off < 384 * 2 ^ 30 → nearOff l (nearCw l off) = off) ∧
  (∀ pa : Nat, pa % 64 = 0 → pa < 0x1E000000000 → depotOff [] (depotCw [] pa) = pa)

/-- R533: an event sets its status bits and sends one MSI exactly where some enabled bit goes from 0 to 1; a write that enables a bit whose
status is 1, and that was not enabled, sends one; otherwise neither sends any. -/
def Obligations.InterruptsSendOnce : Prop :=
  (∀ (pg : Page) (m : Nat) (s : State), m < 2 ^ 16 →
    (s.raiseMask pg m).word pg 0x20 = s.word pg 0x20 % 2 ^ 32 ||| m ∧
    ((∃ n, m.testBit n = true ∧ (s.word pg 0x24).testBit n = true ∧ (s.word pg 0x20).testBit n = false) →
      (s.raiseMask pg m).msiq = s.msiq ++ [pageNo pg]) ∧
    ((∀ n, m.testBit n = true → (s.word pg 0x24).testBit n = true → (s.word pg 0x20).testBit n = true) →
      (s.raiseMask pg m).msiq = s.msiq)) ∧
  (∀ (pg : Page) (v : W32) (s : State), s.PageOn pg → pageFused s.fuses pg = false →
    ∃ t, exec (.pageIrqEnWrite pg v) s = .next t ∧
      (∀ n, (t.word pg 0x24).testBit n = (if n < 16 ∧ v.toNat.testBit (16 + n) = true then v.toNat.testBit n else
        decide (n < 32) && (s.word pg 0x24).testBit n)) ∧
      t.msiq = (if ∃ n, n < 16 ∧ (s.word pg 0x20).testBit n = true ∧ (s.word pg 0x24).testBit n = false
          ∧ v.toNat.testBit (16 + n) = true ∧ v.toNat.testBit n = true then s.msiq ++ [pageNo pg] else s.msiq))

/-- R527: the word of a triplicated register reads, in each triplicated bit, as the majority of its three copies; after a revote of the page
every copy of each of its triplicated words agrees with what the word read, which has not changed. -/
def Obligations.VotesTakeMajority : Prop :=
  (∀ (pg : Page) (off n : Nat) (x : RegRow) (a b c : Nat) (s : State), rowAt pg off = some x → x.tv.testBit n = true →
    a = s.word pg off → b = ((SMap.find s.tvB (regKey pg off 0)).map BitVec.toNat).getD a →
    c = ((SMap.find s.tvC (regKey pg off 0)).map BitVec.toNat).getD a →
    ((s.tvWord pg off).testBit n = true ↔ 2 ≤ (a.testBit n).toNat + (b.testBit n).toNat + (c.testBit n).toNat)) ∧
  (∀ (pg : Page) (x : RegRow) (s : State), s.PageOn pg → x ∈ pageRows pg → x.tv ≠ 0 → x.only = some pg.die →
    ∃ t, exec (.tvRevote pg) s = .next t ∧ t.tvWord pg x.off = s.tvWord pg x.off
      ∧ t.word pg x.off &&& x.tv = s.tvWord pg x.off &&& x.tv
      ∧ (∀ w, SMap.find t.tvB (regKey pg x.off 0) = some w → w.toNat &&& x.tv = s.tvWord pg x.off &&& x.tv)
      ∧ (∀ w, SMap.find t.tvC (regKey pg x.off 0) = some w → w.toNat &&& x.tv = s.tvWord pg x.off &&& x.tv))
end

