-- ==== Sys2Proof/Laws/Sparse.lean ====
section
/-! SUPPORT. What the operations on sparse data do: reads after writes, and the canonical form of memory, which every operation keeps. -/

namespace Sys2Proof.Machine

variable {α : Type}

/-! ### Reads after writes -/

theorem SMap.find_del (m : SMap α) (j k : Nat) : SMap.find (SMap.del m j) k = if k = j then none else SMap.find m k := by
  induction m with
  | nil => simp [SMap.del, SMap.find]
  | cons e t ih =>
    obtain ⟨a, v⟩ := e
    simp only [SMap.del, List.filter_cons] at ih ⊢
    by_cases ha : a = j
    · subst ha
      by_cases hk : k = a
      · subst hk; simpa [SMap.find] using ih
      · simpa [SMap.find, hk] using ih
    · by_cases hk : k = a
      · subst hk; simp [ha, SMap.find]
      · simpa [ha, hk, SMap.find] using ih

theorem SMap.find_del_same (m : SMap α) (k : Nat) : SMap.find (SMap.del m k) k = none := by simp [SMap.find_del]

theorem SMap.find_del_other (m : SMap α) (j k : Nat) (h : k ≠ j) : SMap.find (SMap.del m j) k = SMap.find m k := by
  simp [SMap.find_del, h]

theorem SMap.find_ins_same (m : SMap α) (k : Nat) (v : α) (h : SMap.find m k = none) : SMap.find (SMap.ins m k v) k = some v := by
  induction m with
  | nil => simp [SMap.ins, SMap.find]
  | cons e t ih =>
    obtain ⟨a, w⟩ := e
    simp only [SMap.find] at h
    split at h
    · simp at h
    · rename_i hk
      by_cases hlt : k < a
      · simp [SMap.ins, SMap.find, hlt]
      · simp only [SMap.ins, hlt, if_false, SMap.find, hk]; simpa using ih h

theorem SMap.find_ins_other (m : SMap α) (j k : Nat) (v : α) (h : k ≠ j) : SMap.find (SMap.ins m j v) k = SMap.find m k := by
  induction m with
  | nil => simp [SMap.ins, SMap.find, h]
  | cons e t ih =>
    obtain ⟨a, w⟩ := e
    by_cases hlt : j < a
    · simp [SMap.ins, hlt, SMap.find, h]
    · simp only [SMap.ins, hlt, if_false, SMap.find, ih]

@[simp] theorem SMap.find_put_same (m : SMap α) (k : Nat) (v : α) : SMap.find (SMap.put m k v) k = some v :=
  SMap.find_ins_same _ _ _ (SMap.find_del_same m k)

theorem SMap.find_put_other (m : SMap α) (j k : Nat) (v : α) (h : k ≠ j) : SMap.find (SMap.put m j v) k = SMap.find m k := by
  rw [SMap.put, SMap.find_ins_other _ _ _ _ h, SMap.find_del_other _ _ _ h]

theorem SMap.find_put (m : SMap α) (j k : Nat) (v : α) :
    SMap.find (SMap.put m j v) k = if k = j then some v else SMap.find m k := by
  by_cases h : k = j
  · subst h; simp
  · simp [h, SMap.find_put_other]

theorem SMap.getD_putD [DecidableEq α] (m : SMap α) (d : α) (j k : Nat) (v : α) :
    SMap.getD (SMap.putD m d j v) k d = if k = j then v else SMap.getD m k d := by
  unfold SMap.getD SMap.putD
  split
  · by_cases h : k = j
    · subst h; subst v; simp [SMap.find_del_same]
    · simp [h, SMap.find_del_other]
  · by_cases h : k = j
    · subst h; simp
    · simp [h, SMap.find_put_other]

/-- A byte read where another one has been written, or the byte that has been written. -/
theorem Memory.read_write (m : Memory) (a b : Nat) (v : Byte) :
    Memory.read (Memory.write m a v) b = if b = a then v else Memory.read m b := SMap.getD_putD m _ a b v

theorem Memory.read_write_same (m : Memory) (a : Nat) (v : Byte) : Memory.read (Memory.write m a v) a = v := by
  simp [Memory.read_write]

theorem Memory.read_write_other (m : Memory) (a b : Nat) (v : Byte) (h : b ≠ a) :
    Memory.read (Memory.write m a v) b = Memory.read m b := by simp [Memory.read_write, h]

/-- Bytes outside those written read as before. -/
theorem Memory.read_writeBytes_other (bs : Bytes) : ∀ (m : Memory) (a b : Nat), b < a ∨ a + bs.length ≤ b →
    Memory.read (Memory.writeBytes m a bs) b = Memory.read m b := by
  induction bs with
  | nil => intros; rfl
  | cons x t ih =>
    intro m a b h
    simp only [List.length_cons] at h
    rw [Memory.writeBytes, ih _ _ _ (by omega), Memory.read_write_other _ _ _ _ (by omega)]

/-- A byte within those written reads as the one written there. -/
theorem Memory.read_writeBytes_same (bs : Bytes) : ∀ (m : Memory) (a i : Nat) (h : i < bs.length),
    Memory.read (Memory.writeBytes m a bs) (a + i) = bs[i] := by
  induction bs with
  | nil => intro m a i h; simp at h
  | cons x t ih =>
    intro m a i h
    cases i with
    | zero =>
      rw [Memory.writeBytes, Memory.read_writeBytes_other _ _ _ _ (by omega)]
      exact Memory.read_write_same m a x
    | succ j =>
      have := ih (Memory.write m a x) (a + 1) j (by simpa using h)
      rw [Memory.writeBytes, show a + (j + 1) = a + 1 + j by omega]
      simpa using this

@[simp] theorem Memory.readBytes_length (m : Memory) (n : Nat) : ∀ a, (Memory.readBytes m a n).length = n := by
  induction n with
  | zero => intro; rfl
  | succ k ih => intro a; simp [Memory.readBytes, ih]

theorem Memory.readBytes_get (m : Memory) (n : Nat) : ∀ (a i : Nat) (h : i < (Memory.readBytes m a n).length),
    (Memory.readBytes m a n)[i] = Memory.read m (a + i) := by
  induction n with
  | zero => intro a i h; simp [Memory.readBytes] at h
  | succ k ih =>
    intro a i h
    cases i with
    | zero => simp [Memory.readBytes]
    | succ j =>
      have := ih (a + 1) j (by simpa [Memory.readBytes] using h)
      simp only [Memory.readBytes, List.getElem_cons_succ, this]
      congr 1; omega

/-- What has been written is read back. -/
theorem Memory.readBytes_writeBytes (m : Memory) (a : Nat) (bs : Bytes) :
    Memory.readBytes (Memory.writeBytes m a bs) a bs.length = bs := by
  apply List.ext_getElem (by simp)
  intro i h1 h2
  rw [Memory.readBytes_get, Memory.read_writeBytes_same _ _ _ _ h2]

/-! ### Keys in rising order -/

/-- Every key of a map lies above `k`. -/
def SMap.Above (k : Nat) (m : SMap α) : Prop := ∀ e ∈ m, k < e.1

theorem SMap.wf_cons (k : Nat) (v : α) (m : SMap α) : SMap.wf ((k, v) :: m) = true ↔ SMap.Above k m ∧ SMap.wf m = true := by
  induction m generalizing k v with
  | nil => simp [SMap.wf, SMap.Above]
  | cons e t ih =>
    obtain ⟨b, w⟩ := e
    rw [SMap.wf]
    constructor
    · intro h
      simp only [Bool.and_eq_true, decide_eq_true_eq] at h
      refine ⟨?_, h.2⟩
      intro e he
      rcases List.mem_cons.1 he with rfl | he
      · exact h.1
      · exact Nat.lt_trans h.1 (((ih b w).1 h.2).1 e he)
    · intro h
      simp only [Bool.and_eq_true, decide_eq_true_eq]
      exact ⟨h.1 (b, w) List.mem_cons_self, h.2⟩

theorem SMap.wf_filter (p : Nat × α → Bool) (m : SMap α) (h : SMap.wf m = true) : SMap.wf (m.filter p) = true := by
  induction m with
  | nil => rfl
  | cons e t ih =>
    obtain ⟨k, v⟩ := e
    have h' := (SMap.wf_cons k v t).1 h
    simp only [List.filter]
    split
    · refine (SMap.wf_cons k v _).2 ⟨?_, ih h'.2⟩
      intro e he
      exact h'.1 e (List.mem_filter.1 he).1
    · exact ih h'.2

theorem SMap.wf_del (m : SMap α) (k : Nat) (h : SMap.wf m = true) : SMap.wf (SMap.del m k) = true := SMap.wf_filter _ _ h

theorem SMap.mem_ins (m : SMap α) (k : Nat) (v : α) (e : Nat × α) (h : e ∈ SMap.ins m k v) : e = (k, v) ∨ e ∈ m := by
  induction m with
  | nil => simpa [SMap.ins] using h
  | cons x t ih =>
    obtain ⟨a, w⟩ := x
    by_cases hlt : k < a
    · simpa [SMap.ins, hlt] using h
    · simp only [SMap.ins, hlt, if_false, List.mem_cons] at h
      rcases h with rfl | h
      · exact Or.inr List.mem_cons_self
      · rcases ih h with h | h
        · exact Or.inl h
        · exact Or.inr (List.mem_cons_of_mem _ h)

theorem SMap.wf_ins (m : SMap α) (k : Nat) (v : α) (h : SMap.wf m = true) (hk : ∀ e ∈ m, e.1 ≠ k) :
    SMap.wf (SMap.ins m k v) = true := by
  induction m with
  | nil => rfl
  | cons x t ih =>
    obtain ⟨a, w⟩ := x
    have h' := (SMap.wf_cons a w t).1 h
    by_cases hlt : k < a
    · simp only [SMap.ins, hlt, if_true]
      refine (SMap.wf_cons k v _).2 ⟨?_, h⟩
      intro e he
      rcases List.mem_cons.1 he with rfl | he
      · exact hlt
      · exact Nat.lt_trans hlt (h'.1 e he)
    · simp only [SMap.ins, hlt, if_false]
      refine (SMap.wf_cons a w _).2 ⟨?_, ih h'.2 (fun e he => hk e (List.mem_cons_of_mem _ he))⟩
      intro e he
      rcases SMap.mem_ins _ _ _ _ he with rfl | he
      · have := hk (a, w) List.mem_cons_self
        simp only [ne_eq] at this
        show a < k
        omega
      · exact h'.1 e he

theorem SMap.del_ne (m : SMap α) (k : Nat) : ∀ e ∈ SMap.del m k, e.1 ≠ k := by
  intro e he
  have := (List.mem_filter.1 he).2
  simpa using this

theorem SMap.wf_put (m : SMap α) (k : Nat) (v : α) (h : SMap.wf m = true) : SMap.wf (SMap.put m k v) = true :=
  SMap.wf_ins _ _ _ (SMap.wf_del _ _ h) (SMap.del_ne m k)

theorem SMap.wf_putD [DecidableEq α] (m : SMap α) (d : α) (k : Nat) (v : α) (h : SMap.wf m = true) :
    SMap.wf (SMap.putD m d k v) = true := by
  unfold SMap.putD
  split
  · exact SMap.wf_del _ _ h
  · exact SMap.wf_put _ _ _ h

/-! ### The canonical form of memory -/

theorem Memory.wf_iff (m : Memory) : Memory.wf m = true ↔ SMap.wf m = true ∧ ∀ e ∈ m, e.2 ≠ Memory.unlisted := by
  simp [Memory.wf]

theorem Memory.wf_nil : Memory.wf [] = true := rfl

theorem Memory.wf_filter (p : Nat × Byte → Bool) (m : Memory) (h : Memory.wf m = true) :
    Memory.wf (m.filter p) = true := by
  rw [Memory.wf_iff] at h ⊢
  exact ⟨SMap.wf_filter p m h.1, fun e he => h.2 e (List.mem_filter.1 he).1⟩

/-- A write of one byte keeps the canonical form. -/
theorem Memory.wf_write (m : Memory) (a : Nat) (b : Byte) (h : Memory.wf m = true) : Memory.wf (Memory.write m a b) = true := by
  rw [Memory.wf_iff] at h ⊢
  refine ⟨SMap.wf_putD _ _ _ _ h.1, ?_⟩
  unfold Memory.write SMap.putD
  split
  · intro e he
    exact h.2 e (List.mem_filter.1 he).1
  · rename_i hb
    intro e he
    rcases SMap.mem_ins _ _ _ _ he with rfl | he
    · exact hb
    · exact h.2 e (List.mem_filter.1 he).1

/-- A write of bytes keeps the canonical form. -/
theorem Memory.wf_writeBytes (bs : Bytes) : ∀ (m : Memory) (a : Nat), Memory.wf m = true →
    Memory.wf (Memory.writeBytes m a bs) = true := by
  induction bs with
  | nil => intro m a h; exact h
  | cons b t ih => intro m a h; exact ih _ _ (Memory.wf_write m a b h)

/-- Bytes that nothing has written again: the canonical form is kept. -/
theorem Memory.wf_clear (m : Memory) (a n : Nat) (h : Memory.wf m = true) : Memory.wf (Memory.clear m a n) = true :=
  Memory.wf_filter _ _ h

/-- A copy keeps the canonical form. -/
theorem Memory.wf_copy (m : Memory) (src dst n : Nat) (h : Memory.wf m = true) : Memory.wf (Memory.copy m src dst n) = true := by
  unfold Memory.copy
  generalize List.map _ _ = l
  have : ∀ (l : List (Nat × Byte)) (x : Memory), Memory.wf x = true →
      Memory.wf (l.foldl (fun acc e => Memory.write acc e.1 e.2) x) = true := by
    intro l
    induction l with
    | nil => intro x hx; exact hx
    | cons e t ih => intro x hx; exact ih _ (Memory.wf_write x e.1 e.2 hx)
  exact this l _ (Memory.wf_clear m dst n h)

/-- A byte of a cleared range reads as what nothing has written; the others stay. -/
theorem Memory.read_clear (m : Memory) (a n b : Nat) :
    Memory.read (Memory.clear m a n) b = if a ≤ b ∧ b < a + n then Memory.unlisted else Memory.read m b := by
  unfold Memory.read Memory.clear SMap.getD
  induction m with
  | nil => simp [SMap.find]
  | cons e t ih =>
    obtain ⟨k, v⟩ := e
    simp only [List.filter_cons]
    by_cases hk : k < a ∨ a + n ≤ k
    · by_cases hb : b = k
      · subst hb
        have : ¬ (a ≤ b ∧ b < a + n) := by omega
        simp [this, hk, SMap.find]
      · simpa [hb, hk, SMap.find] using ih
    · by_cases hb : b = k
      · subst hb
        have : a ≤ b ∧ b < a + n := by omega
        simpa [this, hk, SMap.find] using ih
      · simpa [hb, hk, SMap.find] using ih

end Sys2Proof.Machine
end

