-- ==== Sys2Proof/Laws/State.lean ====
section
/-! SUPPORT. What each update of the state leaves alone: one lemma for each of the fields that the statements speak of. -/

namespace Sys2Proof.Machine.State

variable (s : State) (d : Die) (pg : Page) (f : Fld) (off v b n m : Nat) (up : Bool) (e : String) (r : Requester) (k : AnsKind)
  (bs : Bytes) (rc : ErrRec) (g : Ledger → Ledger) (lk : LedgKind) (la : List Nat) (er : Option ErrRec) (xS : Stream) (xE : Engine)
  (xT : Tally) (xH : Hart) (xC : Chan) (xQ : Qp) (xL : Link) (xB : Budget) (xTb : TblSlot) (xD : DsUnit) (xX : Xch) (xV : Conv)
  (xN : Line)

/-! ### `setWord` -/

@[simp] theorem setWord_pending : (s.setWord pg off v b).pending = s.pending := rfl
@[simp] theorem setWord_base : (s.setWord pg off v b).base = s.base := rfl
@[simp] theorem setWord_aon : (s.setWord pg off v b).aon = s.aon := rfl
@[simp] theorem setWord_modT : (s.setWord pg off v b).modT = s.modT := rfl
@[simp] theorem setWord_fuses : (s.setWord pg off v b).fuses = s.fuses := rfl
@[simp] theorem setWord_mem : (s.setWord pg off v b).mem = s.mem := rfl
@[simp] theorem setWord_file : (s.setWord pg off v b).file = s.file := rfl
@[simp] theorem setWord_tvB : (s.setWord pg off v b).tvB = s.tvB := rfl
@[simp] theorem setWord_tvC : (s.setWord pg off v b).tvC = s.tvC := rfl
@[simp] theorem setWord_heldLo : (s.setWord pg off v b).heldLo = s.heldLo := rfl
@[simp] theorem setWord_latchHi : (s.setWord pg off v b).latchHi = s.latchHi := rfl
@[simp] theorem setWord_msiq : (s.setWord pg off v b).msiq = s.msiq := rfl
@[simp] theorem setWord_log : (s.setWord pg off v b).log = s.log := rfl
@[simp] theorem setWord_events : (s.setWord pg off v b).events = s.events := rfl
@[simp] theorem setWord_answers : (s.setWord pg off v b).answers = s.answers := rfl
@[simp] theorem setWord_bad : (s.setWord pg off v b).bad = s.bad := rfl
@[simp] theorem setWord_owners : (s.setWord pg off v b).owners = s.owners := rfl
@[simp] theorem setWord_tallies : (s.setWord pg off v b).tallies = s.tallies := rfl
@[simp] theorem setWord_harts : (s.setWord pg off v b).harts = s.harts := rfl
@[simp] theorem setWord_chans : (s.setWord pg off v b).chans = s.chans := rfl
@[simp] theorem setWord_ledger : (s.setWord pg off v b).ledger = s.ledger := rfl
@[simp] theorem setWord_streams : (s.setWord pg off v b).streams = s.streams := rfl
@[simp] theorem setWord_engines : (s.setWord pg off v b).engines = s.engines := rfl
@[simp] theorem setWord_place : (s.setWord pg off v b).place = s.place := rfl
@[simp] theorem setWord_ds : (s.setWord pg off v b).ds = s.ds := rfl
@[simp] theorem setWord_qps : (s.setWord pg off v b).qps = s.qps := rfl
@[simp] theorem setWord_mrs : (s.setWord pg off v b).mrs = s.mrs := rfl
@[simp] theorem setWord_xch : (s.setWord pg off v b).xch = s.xch := rfl
@[simp] theorem setWord_wins : (s.setWord pg off v b).wins = s.wins := rfl
@[simp] theorem setWord_lines : (s.setWord pg off v b).lines = s.lines := rfl
@[simp] theorem setWord_convs : (s.setWord pg off v b).convs = s.convs := rfl
@[simp] theorem setWord_links : (s.setWord pg off v b).links = s.links := rfl
@[simp] theorem setWord_cptOp : (s.setWord pg off v b).cptOp = s.cptOp := rfl
@[simp] theorem setWord_tests : (s.setWord pg off v b).tests = s.tests := rfl
@[simp] theorem setWord_recovering : (s.setWord pg off v b).recovering = s.recovering := rfl
@[simp] theorem setWord_inspectOn : (s.setWord pg off v b).inspectOn = s.inspectOn := rfl
@[simp] theorem setWord_clocks : (s.setWord pg off v b).clocks = s.clocks := rfl
@[simp] theorem setWord_budgets : (s.setWord pg off v b).budgets = s.budgets := rfl
@[simp] theorem setWord_panel : (s.setWord pg off v b).panel = s.panel := rfl
@[simp] theorem setWord_conn : (s.setWord pg off v b).conn = s.conn := rfl
@[simp] theorem setWord_bar4 : (s.setWord pg off v b).bar4 = s.bar4 := rfl
@[simp] theorem setWord_tables : (s.setWord pg off v b).tables = s.tables := rfl
@[simp] theorem setWord_hot : (s.setWord pg off v b).hot = s.hot := rfl
@[simp] theorem setWord_netOut : (s.setWord pg off v b).netOut = s.netOut := rfl
@[simp] theorem setWord_netWait : (s.setWord pg off v b).netWait = s.netWait := rfl
@[simp] theorem setWord_paused : (s.setWord pg off v b).paused = s.paused := rfl
@[simp] theorem setWord_ptp : (s.setWord pg off v b).ptp = s.ptp := rfl
@[simp] theorem setWord_keys : (s.setWord pg off v b).keys = s.keys := rfl
@[simp] theorem setWord_sweeps : (s.setWord pg off v b).sweeps = s.sweeps := rfl
@[simp] theorem setWord_tblM : (s.setWord pg off v b).tblM = s.tblM := rfl
@[simp] theorem setWord_telem : (s.setWord pg off v b).telem = s.telem := rfl
@[simp] theorem setWord_telemAt : (s.setWord pg off v b).telemAt = s.telemAt := rfl
@[simp] theorem setWord_chanAt : (s.setWord pg off v b).chanAt = s.chanAt := rfl
@[simp] theorem setWord_free : (s.setWord pg off v b).free = s.free := rfl
@[simp] theorem setWord_imsic : (s.setWord pg off v b).imsic = s.imsic := rfl
@[simp] theorem setWord_routes : (s.setWord pg off v b).routes = s.routes := rfl
@[simp] theorem setWord_msix : (s.setWord pg off v b).msix = s.msix := rfl

/-! ### `setF` -/

@[simp] theorem setF_pending : (s.setF pg f v b).pending = s.pending := rfl
@[simp] theorem setF_base : (s.setF pg f v b).base = s.base := rfl
@[simp] theorem setF_aon : (s.setF pg f v b).aon = s.aon := rfl
@[simp] theorem setF_modT : (s.setF pg f v b).modT = s.modT := rfl
@[simp] theorem setF_fuses : (s.setF pg f v b).fuses = s.fuses := rfl
@[simp] theorem setF_mem : (s.setF pg f v b).mem = s.mem := rfl
@[simp] theorem setF_file : (s.setF pg f v b).file = s.file := rfl
@[simp] theorem setF_tvB : (s.setF pg f v b).tvB = s.tvB := rfl
@[simp] theorem setF_tvC : (s.setF pg f v b).tvC = s.tvC := rfl
@[simp] theorem setF_heldLo : (s.setF pg f v b).heldLo = s.heldLo := rfl
@[simp] theorem setF_latchHi : (s.setF pg f v b).latchHi = s.latchHi := rfl
@[simp] theorem setF_msiq : (s.setF pg f v b).msiq = s.msiq := rfl
@[simp] theorem setF_log : (s.setF pg f v b).log = s.log := rfl
@[simp] theorem setF_events : (s.setF pg f v b).events = s.events := rfl
@[simp] theorem setF_answers : (s.setF pg f v b).answers = s.answers := rfl
@[simp] theorem setF_bad : (s.setF pg f v b).bad = s.bad := rfl
@[simp] theorem setF_owners : (s.setF pg f v b).owners = s.owners := rfl
@[simp] theorem setF_tallies : (s.setF pg f v b).tallies = s.tallies := rfl
@[simp] theorem setF_harts : (s.setF pg f v b).harts = s.harts := rfl
@[simp] theorem setF_chans : (s.setF pg f v b).chans = s.chans := rfl
@[simp] theorem setF_ledger : (s.setF pg f v b).ledger = s.ledger := rfl
@[simp] theorem setF_streams : (s.setF pg f v b).streams = s.streams := rfl
@[simp] theorem setF_engines : (s.setF pg f v b).engines = s.engines := rfl
@[simp] theorem setF_place : (s.setF pg f v b).place = s.place := rfl
@[simp] theorem setF_ds : (s.setF pg f v b).ds = s.ds := rfl
@[simp] theorem setF_qps : (s.setF pg f v b).qps = s.qps := rfl
@[simp] theorem setF_mrs : (s.setF pg f v b).mrs = s.mrs := rfl
@[simp] theorem setF_xch : (s.setF pg f v b).xch = s.xch := rfl
@[simp] theorem setF_wins : (s.setF pg f v b).wins = s.wins := rfl
@[simp] theorem setF_lines : (s.setF pg f v b).lines = s.lines := rfl
@[simp] theorem setF_convs : (s.setF pg f v b).convs = s.convs := rfl
@[simp] theorem setF_links : (s.setF pg f v b).links = s.links := rfl
@[simp] theorem setF_cptOp : (s.setF pg f v b).cptOp = s.cptOp := rfl
@[simp] theorem setF_tests : (s.setF pg f v b).tests = s.tests := rfl
@[simp] theorem setF_recovering : (s.setF pg f v b).recovering = s.recovering := rfl
@[simp] theorem setF_inspectOn : (s.setF pg f v b).inspectOn = s.inspectOn := rfl
@[simp] theorem setF_clocks : (s.setF pg f v b).clocks = s.clocks := rfl
@[simp] theorem setF_budgets : (s.setF pg f v b).budgets = s.budgets := rfl
@[simp] theorem setF_panel : (s.setF pg f v b).panel = s.panel := rfl
@[simp] theorem setF_conn : (s.setF pg f v b).conn = s.conn := rfl
@[simp] theorem setF_bar4 : (s.setF pg f v b).bar4 = s.bar4 := rfl
@[simp] theorem setF_tables : (s.setF pg f v b).tables = s.tables := rfl
@[simp] theorem setF_hot : (s.setF pg f v b).hot = s.hot := rfl
@[simp] theorem setF_netOut : (s.setF pg f v b).netOut = s.netOut := rfl
@[simp] theorem setF_netWait : (s.setF pg f v b).netWait = s.netWait := rfl
@[simp] theorem setF_paused : (s.setF pg f v b).paused = s.paused := rfl
@[simp] theorem setF_ptp : (s.setF pg f v b).ptp = s.ptp := rfl
@[simp] theorem setF_keys : (s.setF pg f v b).keys = s.keys := rfl
@[simp] theorem setF_sweeps : (s.setF pg f v b).sweeps = s.sweeps := rfl
@[simp] theorem setF_tblM : (s.setF pg f v b).tblM = s.tblM := rfl
@[simp] theorem setF_telem : (s.setF pg f v b).telem = s.telem := rfl
@[simp] theorem setF_telemAt : (s.setF pg f v b).telemAt = s.telemAt := rfl
@[simp] theorem setF_chanAt : (s.setF pg f v b).chanAt = s.chanAt := rfl
@[simp] theorem setF_free : (s.setF pg f v b).free = s.free := rfl
@[simp] theorem setF_imsic : (s.setF pg f v b).imsic = s.imsic := rfl
@[simp] theorem setF_routes : (s.setF pg f v b).routes = s.routes := rfl
@[simp] theorem setF_msix : (s.setF pg f v b).msix = s.msix := rfl

/-! ### `bump` -/

@[simp] theorem bump_pending : (s.bump pg f n b).pending = s.pending := rfl
@[simp] theorem bump_base : (s.bump pg f n b).base = s.base := rfl
@[simp] theorem bump_aon : (s.bump pg f n b).aon = s.aon := rfl
@[simp] theorem bump_modT : (s.bump pg f n b).modT = s.modT := rfl
@[simp] theorem bump_fuses : (s.bump pg f n b).fuses = s.fuses := rfl
@[simp] theorem bump_mem : (s.bump pg f n b).mem = s.mem := rfl
@[simp] theorem bump_file : (s.bump pg f n b).file = s.file := rfl
@[simp] theorem bump_tvB : (s.bump pg f n b).tvB = s.tvB := rfl
@[simp] theorem bump_tvC : (s.bump pg f n b).tvC = s.tvC := rfl
@[simp] theorem bump_heldLo : (s.bump pg f n b).heldLo = s.heldLo := rfl
@[simp] theorem bump_latchHi : (s.bump pg f n b).latchHi = s.latchHi := rfl
@[simp] theorem bump_msiq : (s.bump pg f n b).msiq = s.msiq := rfl
@[simp] theorem bump_log : (s.bump pg f n b).log = s.log := rfl
@[simp] theorem bump_events : (s.bump pg f n b).events = s.events := rfl
@[simp] theorem bump_answers : (s.bump pg f n b).answers = s.answers := rfl
@[simp] theorem bump_bad : (s.bump pg f n b).bad = s.bad := rfl
@[simp] theorem bump_owners : (s.bump pg f n b).owners = s.owners := rfl
@[simp] theorem bump_tallies : (s.bump pg f n b).tallies = s.tallies := rfl
@[simp] theorem bump_harts : (s.bump pg f n b).harts = s.harts := rfl
@[simp] theorem bump_chans : (s.bump pg f n b).chans = s.chans := rfl
@[simp] theorem bump_ledger : (s.bump pg f n b).ledger = s.ledger := rfl
@[simp] theorem bump_streams : (s.bump pg f n b).streams = s.streams := rfl
@[simp] theorem bump_engines : (s.bump pg f n b).engines = s.engines := rfl
@[simp] theorem bump_place : (s.bump pg f n b).place = s.place := rfl
@[simp] theorem bump_ds : (s.bump pg f n b).ds = s.ds := rfl
@[simp] theorem bump_qps : (s.bump pg f n b).qps = s.qps := rfl
@[simp] theorem bump_mrs : (s.bump pg f n b).mrs = s.mrs := rfl
@[simp] theorem bump_xch : (s.bump pg f n b).xch = s.xch := rfl
@[simp] theorem bump_wins : (s.bump pg f n b).wins = s.wins := rfl
@[simp] theorem bump_lines : (s.bump pg f n b).lines = s.lines := rfl
@[simp] theorem bump_convs : (s.bump pg f n b).convs = s.convs := rfl
@[simp] theorem bump_links : (s.bump pg f n b).links = s.links := rfl
@[simp] theorem bump_cptOp : (s.bump pg f n b).cptOp = s.cptOp := rfl
@[simp] theorem bump_tests : (s.bump pg f n b).tests = s.tests := rfl
@[simp] theorem bump_recovering : (s.bump pg f n b).recovering = s.recovering := rfl
@[simp] theorem bump_inspectOn : (s.bump pg f n b).inspectOn = s.inspectOn := rfl
@[simp] theorem bump_clocks : (s.bump pg f n b).clocks = s.clocks := rfl
@[simp] theorem bump_budgets : (s.bump pg f n b).budgets = s.budgets := rfl
@[simp] theorem bump_panel : (s.bump pg f n b).panel = s.panel := rfl
@[simp] theorem bump_conn : (s.bump pg f n b).conn = s.conn := rfl
@[simp] theorem bump_bar4 : (s.bump pg f n b).bar4 = s.bar4 := rfl
@[simp] theorem bump_tables : (s.bump pg f n b).tables = s.tables := rfl
@[simp] theorem bump_hot : (s.bump pg f n b).hot = s.hot := rfl
@[simp] theorem bump_netOut : (s.bump pg f n b).netOut = s.netOut := rfl
@[simp] theorem bump_netWait : (s.bump pg f n b).netWait = s.netWait := rfl
@[simp] theorem bump_paused : (s.bump pg f n b).paused = s.paused := rfl
@[simp] theorem bump_ptp : (s.bump pg f n b).ptp = s.ptp := rfl
@[simp] theorem bump_keys : (s.bump pg f n b).keys = s.keys := rfl
@[simp] theorem bump_sweeps : (s.bump pg f n b).sweeps = s.sweeps := rfl
@[simp] theorem bump_tblM : (s.bump pg f n b).tblM = s.tblM := rfl
@[simp] theorem bump_telem : (s.bump pg f n b).telem = s.telem := rfl
@[simp] theorem bump_telemAt : (s.bump pg f n b).telemAt = s.telemAt := rfl
@[simp] theorem bump_chanAt : (s.bump pg f n b).chanAt = s.chanAt := rfl
@[simp] theorem bump_free : (s.bump pg f n b).free = s.free := rfl
@[simp] theorem bump_imsic : (s.bump pg f n b).imsic = s.imsic := rfl
@[simp] theorem bump_routes : (s.bump pg f n b).routes = s.routes := rfl
@[simp] theorem bump_msix : (s.bump pg f n b).msix = s.msix := rfl

/-! ### `raiseMax` -/

@[simp] theorem raiseMax_pending : (s.raiseMax pg f n b).pending = s.pending := rfl
@[simp] theorem raiseMax_base : (s.raiseMax pg f n b).base = s.base := rfl
@[simp] theorem raiseMax_aon : (s.raiseMax pg f n b).aon = s.aon := rfl
@[simp] theorem raiseMax_modT : (s.raiseMax pg f n b).modT = s.modT := rfl
@[simp] theorem raiseMax_fuses : (s.raiseMax pg f n b).fuses = s.fuses := rfl
@[simp] theorem raiseMax_mem : (s.raiseMax pg f n b).mem = s.mem := rfl
@[simp] theorem raiseMax_file : (s.raiseMax pg f n b).file = s.file := rfl
@[simp] theorem raiseMax_tvB : (s.raiseMax pg f n b).tvB = s.tvB := rfl
@[simp] theorem raiseMax_tvC : (s.raiseMax pg f n b).tvC = s.tvC := rfl
@[simp] theorem raiseMax_heldLo : (s.raiseMax pg f n b).heldLo = s.heldLo := rfl
@[simp] theorem raiseMax_latchHi : (s.raiseMax pg f n b).latchHi = s.latchHi := rfl
@[simp] theorem raiseMax_msiq : (s.raiseMax pg f n b).msiq = s.msiq := rfl
@[simp] theorem raiseMax_log : (s.raiseMax pg f n b).log = s.log := rfl
@[simp] theorem raiseMax_events : (s.raiseMax pg f n b).events = s.events := rfl
@[simp] theorem raiseMax_answers : (s.raiseMax pg f n b).answers = s.answers := rfl
@[simp] theorem raiseMax_bad : (s.raiseMax pg f n b).bad = s.bad := rfl
@[simp] theorem raiseMax_owners : (s.raiseMax pg f n b).owners = s.owners := rfl
@[simp] theorem raiseMax_tallies : (s.raiseMax pg f n b).tallies = s.tallies := rfl
@[simp] theorem raiseMax_harts : (s.raiseMax pg f n b).harts = s.harts := rfl
@[simp] theorem raiseMax_chans : (s.raiseMax pg f n b).chans = s.chans := rfl
@[simp] theorem raiseMax_ledger : (s.raiseMax pg f n b).ledger = s.ledger := rfl
@[simp] theorem raiseMax_streams : (s.raiseMax pg f n b).streams = s.streams := rfl
@[simp] theorem raiseMax_engines : (s.raiseMax pg f n b).engines = s.engines := rfl
@[simp] theorem raiseMax_place : (s.raiseMax pg f n b).place = s.place := rfl
@[simp] theorem raiseMax_ds : (s.raiseMax pg f n b).ds = s.ds := rfl
@[simp] theorem raiseMax_qps : (s.raiseMax pg f n b).qps = s.qps := rfl
@[simp] theorem raiseMax_mrs : (s.raiseMax pg f n b).mrs = s.mrs := rfl
@[simp] theorem raiseMax_xch : (s.raiseMax pg f n b).xch = s.xch := rfl
@[simp] theorem raiseMax_wins : (s.raiseMax pg f n b).wins = s.wins := rfl
@[simp] theorem raiseMax_lines : (s.raiseMax pg f n b).lines = s.lines := rfl
@[simp] theorem raiseMax_convs : (s.raiseMax pg f n b).convs = s.convs := rfl
@[simp] theorem raiseMax_links : (s.raiseMax pg f n b).links = s.links := rfl
@[simp] theorem raiseMax_cptOp : (s.raiseMax pg f n b).cptOp = s.cptOp := rfl
@[simp] theorem raiseMax_tests : (s.raiseMax pg f n b).tests = s.tests := rfl
@[simp] theorem raiseMax_recovering : (s.raiseMax pg f n b).recovering = s.recovering := rfl
@[simp] theorem raiseMax_inspectOn : (s.raiseMax pg f n b).inspectOn = s.inspectOn := rfl
@[simp] theorem raiseMax_clocks : (s.raiseMax pg f n b).clocks = s.clocks := rfl
@[simp] theorem raiseMax_budgets : (s.raiseMax pg f n b).budgets = s.budgets := rfl
@[simp] theorem raiseMax_panel : (s.raiseMax pg f n b).panel = s.panel := rfl
@[simp] theorem raiseMax_conn : (s.raiseMax pg f n b).conn = s.conn := rfl
@[simp] theorem raiseMax_bar4 : (s.raiseMax pg f n b).bar4 = s.bar4 := rfl
@[simp] theorem raiseMax_tables : (s.raiseMax pg f n b).tables = s.tables := rfl
@[simp] theorem raiseMax_hot : (s.raiseMax pg f n b).hot = s.hot := rfl
@[simp] theorem raiseMax_netOut : (s.raiseMax pg f n b).netOut = s.netOut := rfl
@[simp] theorem raiseMax_netWait : (s.raiseMax pg f n b).netWait = s.netWait := rfl
@[simp] theorem raiseMax_paused : (s.raiseMax pg f n b).paused = s.paused := rfl
@[simp] theorem raiseMax_ptp : (s.raiseMax pg f n b).ptp = s.ptp := rfl
@[simp] theorem raiseMax_keys : (s.raiseMax pg f n b).keys = s.keys := rfl
@[simp] theorem raiseMax_sweeps : (s.raiseMax pg f n b).sweeps = s.sweeps := rfl
@[simp] theorem raiseMax_tblM : (s.raiseMax pg f n b).tblM = s.tblM := rfl
@[simp] theorem raiseMax_telem : (s.raiseMax pg f n b).telem = s.telem := rfl
@[simp] theorem raiseMax_telemAt : (s.raiseMax pg f n b).telemAt = s.telemAt := rfl
@[simp] theorem raiseMax_chanAt : (s.raiseMax pg f n b).chanAt = s.chanAt := rfl
@[simp] theorem raiseMax_free : (s.raiseMax pg f n b).free = s.free := rfl
@[simp] theorem raiseMax_imsic : (s.raiseMax pg f n b).imsic = s.imsic := rfl
@[simp] theorem raiseMax_routes : (s.raiseMax pg f n b).routes = s.routes := rfl
@[simp] theorem raiseMax_msix : (s.raiseMax pg f n b).msix = s.msix := rfl

/-! ### `sendMsi` -/

@[simp] theorem sendMsi_pending : (s.sendMsi n).pending = s.pending := rfl
@[simp] theorem sendMsi_base : (s.sendMsi n).base = s.base := rfl
@[simp] theorem sendMsi_aon : (s.sendMsi n).aon = s.aon := rfl
@[simp] theorem sendMsi_modT : (s.sendMsi n).modT = s.modT := rfl
@[simp] theorem sendMsi_fuses : (s.sendMsi n).fuses = s.fuses := rfl
@[simp] theorem sendMsi_mem : (s.sendMsi n).mem = s.mem := rfl
@[simp] theorem sendMsi_file : (s.sendMsi n).file = s.file := rfl
@[simp] theorem sendMsi_regs : (s.sendMsi n).regs = s.regs := rfl
@[simp] theorem sendMsi_tvB : (s.sendMsi n).tvB = s.tvB := rfl
@[simp] theorem sendMsi_tvC : (s.sendMsi n).tvC = s.tvC := rfl
@[simp] theorem sendMsi_heldLo : (s.sendMsi n).heldLo = s.heldLo := rfl
@[simp] theorem sendMsi_latchHi : (s.sendMsi n).latchHi = s.latchHi := rfl
@[simp] theorem sendMsi_log : (s.sendMsi n).log = s.log := rfl
@[simp] theorem sendMsi_events : (s.sendMsi n).events = s.events := rfl
@[simp] theorem sendMsi_answers : (s.sendMsi n).answers = s.answers := rfl
@[simp] theorem sendMsi_bad : (s.sendMsi n).bad = s.bad := rfl
@[simp] theorem sendMsi_owners : (s.sendMsi n).owners = s.owners := rfl
@[simp] theorem sendMsi_tallies : (s.sendMsi n).tallies = s.tallies := rfl
@[simp] theorem sendMsi_harts : (s.sendMsi n).harts = s.harts := rfl
@[simp] theorem sendMsi_chans : (s.sendMsi n).chans = s.chans := rfl
@[simp] theorem sendMsi_ledger : (s.sendMsi n).ledger = s.ledger := rfl
@[simp] theorem sendMsi_streams : (s.sendMsi n).streams = s.streams := rfl
@[simp] theorem sendMsi_engines : (s.sendMsi n).engines = s.engines := rfl
@[simp] theorem sendMsi_place : (s.sendMsi n).place = s.place := rfl
@[simp] theorem sendMsi_ds : (s.sendMsi n).ds = s.ds := rfl
@[simp] theorem sendMsi_qps : (s.sendMsi n).qps = s.qps := rfl
@[simp] theorem sendMsi_mrs : (s.sendMsi n).mrs = s.mrs := rfl
@[simp] theorem sendMsi_xch : (s.sendMsi n).xch = s.xch := rfl
@[simp] theorem sendMsi_wins : (s.sendMsi n).wins = s.wins := rfl
@[simp] theorem sendMsi_lines : (s.sendMsi n).lines = s.lines := rfl
@[simp] theorem sendMsi_convs : (s.sendMsi n).convs = s.convs := rfl
@[simp] theorem sendMsi_links : (s.sendMsi n).links = s.links := rfl
@[simp] theorem sendMsi_cptOp : (s.sendMsi n).cptOp = s.cptOp := rfl
@[simp] theorem sendMsi_tests : (s.sendMsi n).tests = s.tests := rfl
@[simp] theorem sendMsi_recovering : (s.sendMsi n).recovering = s.recovering := rfl
@[simp] theorem sendMsi_inspectOn : (s.sendMsi n).inspectOn = s.inspectOn := rfl
@[simp] theorem sendMsi_clocks : (s.sendMsi n).clocks = s.clocks := rfl
@[simp] theorem sendMsi_budgets : (s.sendMsi n).budgets = s.budgets := rfl
@[simp] theorem sendMsi_panel : (s.sendMsi n).panel = s.panel := rfl
@[simp] theorem sendMsi_conn : (s.sendMsi n).conn = s.conn := rfl
@[simp] theorem sendMsi_bar4 : (s.sendMsi n).bar4 = s.bar4 := rfl
@[simp] theorem sendMsi_tables : (s.sendMsi n).tables = s.tables := rfl
@[simp] theorem sendMsi_hot : (s.sendMsi n).hot = s.hot := rfl
@[simp] theorem sendMsi_netOut : (s.sendMsi n).netOut = s.netOut := rfl
@[simp] theorem sendMsi_netWait : (s.sendMsi n).netWait = s.netWait := rfl
@[simp] theorem sendMsi_paused : (s.sendMsi n).paused = s.paused := rfl
@[simp] theorem sendMsi_ptp : (s.sendMsi n).ptp = s.ptp := rfl
@[simp] theorem sendMsi_keys : (s.sendMsi n).keys = s.keys := rfl
@[simp] theorem sendMsi_sweeps : (s.sendMsi n).sweeps = s.sweeps := rfl
@[simp] theorem sendMsi_tblM : (s.sendMsi n).tblM = s.tblM := rfl
@[simp] theorem sendMsi_telem : (s.sendMsi n).telem = s.telem := rfl
@[simp] theorem sendMsi_telemAt : (s.sendMsi n).telemAt = s.telemAt := rfl
@[simp] theorem sendMsi_chanAt : (s.sendMsi n).chanAt = s.chanAt := rfl
@[simp] theorem sendMsi_free : (s.sendMsi n).free = s.free := rfl
@[simp] theorem sendMsi_imsic : (s.sendMsi n).imsic = s.imsic := rfl
@[simp] theorem sendMsi_routes : (s.sendMsi n).routes = s.routes := rfl
@[simp] theorem sendMsi_msix : (s.sendMsi n).msix = s.msix := rfl

/-! ### `pldm` -/

@[simp] theorem pldm_pending : (s.pldm e).pending = s.pending := rfl
@[simp] theorem pldm_base : (s.pldm e).base = s.base := rfl
@[simp] theorem pldm_aon : (s.pldm e).aon = s.aon := rfl
@[simp] theorem pldm_modT : (s.pldm e).modT = s.modT := rfl
@[simp] theorem pldm_fuses : (s.pldm e).fuses = s.fuses := rfl
@[simp] theorem pldm_mem : (s.pldm e).mem = s.mem := rfl
@[simp] theorem pldm_file : (s.pldm e).file = s.file := rfl
@[simp] theorem pldm_regs : (s.pldm e).regs = s.regs := rfl
@[simp] theorem pldm_tvB : (s.pldm e).tvB = s.tvB := rfl
@[simp] theorem pldm_tvC : (s.pldm e).tvC = s.tvC := rfl
@[simp] theorem pldm_heldLo : (s.pldm e).heldLo = s.heldLo := rfl
@[simp] theorem pldm_latchHi : (s.pldm e).latchHi = s.latchHi := rfl
@[simp] theorem pldm_msiq : (s.pldm e).msiq = s.msiq := rfl
@[simp] theorem pldm_log : (s.pldm e).log = s.log := rfl
@[simp] theorem pldm_answers : (s.pldm e).answers = s.answers := rfl
@[simp] theorem pldm_bad : (s.pldm e).bad = s.bad := rfl
@[simp] theorem pldm_owners : (s.pldm e).owners = s.owners := rfl
@[simp] theorem pldm_tallies : (s.pldm e).tallies = s.tallies := rfl
@[simp] theorem pldm_harts : (s.pldm e).harts = s.harts := rfl
@[simp] theorem pldm_chans : (s.pldm e).chans = s.chans := rfl
@[simp] theorem pldm_ledger : (s.pldm e).ledger = s.ledger := rfl
@[simp] theorem pldm_streams : (s.pldm e).streams = s.streams := rfl
@[simp] theorem pldm_engines : (s.pldm e).engines = s.engines := rfl
@[simp] theorem pldm_place : (s.pldm e).place = s.place := rfl
@[simp] theorem pldm_ds : (s.pldm e).ds = s.ds := rfl
@[simp] theorem pldm_qps : (s.pldm e).qps = s.qps := rfl
@[simp] theorem pldm_mrs : (s.pldm e).mrs = s.mrs := rfl
@[simp] theorem pldm_xch : (s.pldm e).xch = s.xch := rfl
@[simp] theorem pldm_wins : (s.pldm e).wins = s.wins := rfl
@[simp] theorem pldm_lines : (s.pldm e).lines = s.lines := rfl
@[simp] theorem pldm_convs : (s.pldm e).convs = s.convs := rfl
@[simp] theorem pldm_links : (s.pldm e).links = s.links := rfl
@[simp] theorem pldm_cptOp : (s.pldm e).cptOp = s.cptOp := rfl
@[simp] theorem pldm_tests : (s.pldm e).tests = s.tests := rfl
@[simp] theorem pldm_recovering : (s.pldm e).recovering = s.recovering := rfl
@[simp] theorem pldm_inspectOn : (s.pldm e).inspectOn = s.inspectOn := rfl
@[simp] theorem pldm_clocks : (s.pldm e).clocks = s.clocks := rfl
@[simp] theorem pldm_budgets : (s.pldm e).budgets = s.budgets := rfl
@[simp] theorem pldm_panel : (s.pldm e).panel = s.panel := rfl
@[simp] theorem pldm_conn : (s.pldm e).conn = s.conn := rfl
@[simp] theorem pldm_bar4 : (s.pldm e).bar4 = s.bar4 := rfl
@[simp] theorem pldm_tables : (s.pldm e).tables = s.tables := rfl
@[simp] theorem pldm_hot : (s.pldm e).hot = s.hot := rfl
@[simp] theorem pldm_netOut : (s.pldm e).netOut = s.netOut := rfl
@[simp] theorem pldm_netWait : (s.pldm e).netWait = s.netWait := rfl
@[simp] theorem pldm_paused : (s.pldm e).paused = s.paused := rfl
@[simp] theorem pldm_ptp : (s.pldm e).ptp = s.ptp := rfl
@[simp] theorem pldm_keys : (s.pldm e).keys = s.keys := rfl
@[simp] theorem pldm_sweeps : (s.pldm e).sweeps = s.sweeps := rfl
@[simp] theorem pldm_tblM : (s.pldm e).tblM = s.tblM := rfl
@[simp] theorem pldm_telem : (s.pldm e).telem = s.telem := rfl
@[simp] theorem pldm_telemAt : (s.pldm e).telemAt = s.telemAt := rfl
@[simp] theorem pldm_chanAt : (s.pldm e).chanAt = s.chanAt := rfl
@[simp] theorem pldm_free : (s.pldm e).free = s.free := rfl
@[simp] theorem pldm_imsic : (s.pldm e).imsic = s.imsic := rfl
@[simp] theorem pldm_routes : (s.pldm e).routes = s.routes := rfl
@[simp] theorem pldm_msix : (s.pldm e).msix = s.msix := rfl

/-! ### `answer` -/

@[simp] theorem answer_pending : (s.answer r k bs).pending = s.pending := rfl
@[simp] theorem answer_base : (s.answer r k bs).base = s.base := rfl
@[simp] theorem answer_aon : (s.answer r k bs).aon = s.aon := rfl
@[simp] theorem answer_modT : (s.answer r k bs).modT = s.modT := rfl
@[simp] theorem answer_fuses : (s.answer r k bs).fuses = s.fuses := rfl
@[simp] theorem answer_mem : (s.answer r k bs).mem = s.mem := rfl
@[simp] theorem answer_file : (s.answer r k bs).file = s.file := rfl
@[simp] theorem answer_regs : (s.answer r k bs).regs = s.regs := rfl
@[simp] theorem answer_tvB : (s.answer r k bs).tvB = s.tvB := rfl
@[simp] theorem answer_tvC : (s.answer r k bs).tvC = s.tvC := rfl
@[simp] theorem answer_heldLo : (s.answer r k bs).heldLo = s.heldLo := rfl
@[simp] theorem answer_latchHi : (s.answer r k bs).latchHi = s.latchHi := rfl
@[simp] theorem answer_msiq : (s.answer r k bs).msiq = s.msiq := rfl
@[simp] theorem answer_log : (s.answer r k bs).log = s.log := rfl
@[simp] theorem answer_events : (s.answer r k bs).events = s.events := rfl
@[simp] theorem answer_bad : (s.answer r k bs).bad = s.bad := rfl
@[simp] theorem answer_owners : (s.answer r k bs).owners = s.owners := rfl
@[simp] theorem answer_tallies : (s.answer r k bs).tallies = s.tallies := rfl
@[simp] theorem answer_harts : (s.answer r k bs).harts = s.harts := rfl
@[simp] theorem answer_chans : (s.answer r k bs).chans = s.chans := rfl
@[simp] theorem answer_ledger : (s.answer r k bs).ledger = s.ledger := rfl
@[simp] theorem answer_streams : (s.answer r k bs).streams = s.streams := rfl
@[simp] theorem answer_engines : (s.answer r k bs).engines = s.engines := rfl
@[simp] theorem answer_place : (s.answer r k bs).place = s.place := rfl
@[simp] theorem answer_ds : (s.answer r k bs).ds = s.ds := rfl
@[simp] theorem answer_qps : (s.answer r k bs).qps = s.qps := rfl
@[simp] theorem answer_mrs : (s.answer r k bs).mrs = s.mrs := rfl
@[simp] theorem answer_xch : (s.answer r k bs).xch = s.xch := rfl
@[simp] theorem answer_wins : (s.answer r k bs).wins = s.wins := rfl
@[simp] theorem answer_lines : (s.answer r k bs).lines = s.lines := rfl
@[simp] theorem answer_convs : (s.answer r k bs).convs = s.convs := rfl
@[simp] theorem answer_links : (s.answer r k bs).links = s.links := rfl
@[simp] theorem answer_cptOp : (s.answer r k bs).cptOp = s.cptOp := rfl
@[simp] theorem answer_tests : (s.answer r k bs).tests = s.tests := rfl
@[simp] theorem answer_recovering : (s.answer r k bs).recovering = s.recovering := rfl
@[simp] theorem answer_inspectOn : (s.answer r k bs).inspectOn = s.inspectOn := rfl
@[simp] theorem answer_clocks : (s.answer r k bs).clocks = s.clocks := rfl
@[simp] theorem answer_budgets : (s.answer r k bs).budgets = s.budgets := rfl
@[simp] theorem answer_panel : (s.answer r k bs).panel = s.panel := rfl
@[simp] theorem answer_conn : (s.answer r k bs).conn = s.conn := rfl
@[simp] theorem answer_bar4 : (s.answer r k bs).bar4 = s.bar4 := rfl
@[simp] theorem answer_tables : (s.answer r k bs).tables = s.tables := rfl
@[simp] theorem answer_hot : (s.answer r k bs).hot = s.hot := rfl
@[simp] theorem answer_netOut : (s.answer r k bs).netOut = s.netOut := rfl
@[simp] theorem answer_netWait : (s.answer r k bs).netWait = s.netWait := rfl
@[simp] theorem answer_paused : (s.answer r k bs).paused = s.paused := rfl
@[simp] theorem answer_ptp : (s.answer r k bs).ptp = s.ptp := rfl
@[simp] theorem answer_keys : (s.answer r k bs).keys = s.keys := rfl
@[simp] theorem answer_sweeps : (s.answer r k bs).sweeps = s.sweeps := rfl
@[simp] theorem answer_tblM : (s.answer r k bs).tblM = s.tblM := rfl
@[simp] theorem answer_telem : (s.answer r k bs).telem = s.telem := rfl
@[simp] theorem answer_telemAt : (s.answer r k bs).telemAt = s.telemAt := rfl
@[simp] theorem answer_chanAt : (s.answer r k bs).chanAt = s.chanAt := rfl
@[simp] theorem answer_free : (s.answer r k bs).free = s.free := rfl
@[simp] theorem answer_imsic : (s.answer r k bs).imsic = s.imsic := rfl
@[simp] theorem answer_routes : (s.answer r k bs).routes = s.routes := rfl
@[simp] theorem answer_msix : (s.answer r k bs).msix = s.msix := rfl

/-! ### `raiseMask` -/

@[simp] theorem raiseMask_pending : (s.raiseMask pg m).pending = s.pending := by unfold raiseMask; dsimp only; split <;> rfl
@[simp] theorem raiseMask_base : (s.raiseMask pg m).base = s.base := by unfold raiseMask; dsimp only; split <;> rfl
@[simp] theorem raiseMask_aon : (s.raiseMask pg m).aon = s.aon := by unfold raiseMask; dsimp only; split <;> rfl
@[simp] theorem raiseMask_modT : (s.raiseMask pg m).modT = s.modT := by unfold raiseMask; dsimp only; split <;> rfl
@[simp] theorem raiseMask_fuses : (s.raiseMask pg m).fuses = s.fuses := by unfold raiseMask; dsimp only; split <;> rfl
@[simp] theorem raiseMask_mem : (s.raiseMask pg m).mem = s.mem := by unfold raiseMask; dsimp only; split <;> rfl
@[simp] theorem raiseMask_file : (s.raiseMask pg m).file = s.file := by unfold raiseMask; dsimp only; split <;> rfl
@[simp] theorem raiseMask_tvB : (s.raiseMask pg m).tvB = s.tvB := by unfold raiseMask; dsimp only; split <;> rfl
@[simp] theorem raiseMask_tvC : (s.raiseMask pg m).tvC = s.tvC := by unfold raiseMask; dsimp only; split <;> rfl
@[simp] theorem raiseMask_heldLo : (s.raiseMask pg m).heldLo = s.heldLo := by unfold raiseMask; dsimp only; split <;> rfl
@[simp] theorem raiseMask_latchHi : (s.raiseMask pg m).latchHi = s.latchHi := by unfold raiseMask; dsimp only; split <;> rfl
@[simp] theorem raiseMask_log : (s.raiseMask pg m).log = s.log := by unfold raiseMask; dsimp only; split <;> rfl
@[simp] theorem raiseMask_events : (s.raiseMask pg m).events = s.events := by unfold raiseMask; dsimp only; split <;> rfl
@[simp] theorem raiseMask_answers : (s.raiseMask pg m).answers = s.answers := by unfold raiseMask; dsimp only; split <;> rfl
@[simp] theorem raiseMask_bad : (s.raiseMask pg m).bad = s.bad := by unfold raiseMask; dsimp only; split <;> rfl
@[simp] theorem raiseMask_owners : (s.raiseMask pg m).owners = s.owners := by unfold raiseMask; dsimp only; split <;> rfl
@[simp] theorem raiseMask_tallies : (s.raiseMask pg m).tallies = s.tallies := by unfold raiseMask; dsimp only; split <;> rfl
@[simp] theorem raiseMask_harts : (s.raiseMask pg m).harts = s.harts := by unfold raiseMask; dsimp only; split <;> rfl
@[simp] theorem raiseMask_chans : (s.raiseMask pg m).chans = s.chans := by unfold raiseMask; dsimp only; split <;> rfl
@[simp] theorem raiseMask_ledger : (s.raiseMask pg m).ledger = s.ledger := by unfold raiseMask; dsimp only; split <;> rfl
@[simp] theorem raiseMask_streams : (s.raiseMask pg m).streams = s.streams := by unfold raiseMask; dsimp only; split <;> rfl
@[simp] theorem raiseMask_engines : (s.raiseMask pg m).engines = s.engines := by unfold raiseMask; dsimp only; split <;> rfl
@[simp] theorem raiseMask_place : (s.raiseMask pg m).place = s.place := by unfold raiseMask; dsimp only; split <;> rfl
@[simp] theorem raiseMask_ds : (s.raiseMask pg m).ds = s.ds := by unfold raiseMask; dsimp only; split <;> rfl
@[simp] theorem raiseMask_qps : (s.raiseMask pg m).qps = s.qps := by unfold raiseMask; dsimp only; split <;> rfl
@[simp] theorem raiseMask_mrs : (s.raiseMask pg m).mrs = s.mrs := by unfold raiseMask; dsimp only; split <;> rfl
@[simp] theorem raiseMask_xch : (s.raiseMask pg m).xch = s.xch := by unfold raiseMask; dsimp only; split <;> rfl
@[simp] theorem raiseMask_wins : (s.raiseMask pg m).wins = s.wins := by unfold raiseMask; dsimp only; split <;> rfl
@[simp] theorem raiseMask_lines : (s.raiseMask pg m).lines = s.lines := by unfold raiseMask; dsimp only; split <;> rfl
@[simp] theorem raiseMask_convs : (s.raiseMask pg m).convs = s.convs := by unfold raiseMask; dsimp only; split <;> rfl
@[simp] theorem raiseMask_links : (s.raiseMask pg m).links = s.links := by unfold raiseMask; dsimp only; split <;> rfl
@[simp] theorem raiseMask_cptOp : (s.raiseMask pg m).cptOp = s.cptOp := by unfold raiseMask; dsimp only; split <;> rfl
@[simp] theorem raiseMask_tests : (s.raiseMask pg m).tests = s.tests := by unfold raiseMask; dsimp only; split <;> rfl
@[simp] theorem raiseMask_recovering : (s.raiseMask pg m).recovering = s.recovering := by unfold raiseMask; dsimp only; split <;> rfl
@[simp] theorem raiseMask_inspectOn : (s.raiseMask pg m).inspectOn = s.inspectOn := by unfold raiseMask; dsimp only; split <;> rfl
@[simp] theorem raiseMask_clocks : (s.raiseMask pg m).clocks = s.clocks := by unfold raiseMask; dsimp only; split <;> rfl
@[simp] theorem raiseMask_budgets : (s.raiseMask pg m).budgets = s.budgets := by unfold raiseMask; dsimp only; split <;> rfl
@[simp] theorem raiseMask_panel : (s.raiseMask pg m).panel = s.panel := by unfold raiseMask; dsimp only; split <;> rfl
@[simp] theorem raiseMask_conn : (s.raiseMask pg m).conn = s.conn := by unfold raiseMask; dsimp only; split <;> rfl
@[simp] theorem raiseMask_bar4 : (s.raiseMask pg m).bar4 = s.bar4 := by unfold raiseMask; dsimp only; split <;> rfl
@[simp] theorem raiseMask_tables : (s.raiseMask pg m).tables = s.tables := by unfold raiseMask; dsimp only; split <;> rfl
@[simp] theorem raiseMask_hot : (s.raiseMask pg m).hot = s.hot := by unfold raiseMask; dsimp only; split <;> rfl

/-! ### `raise` -/

@[simp] theorem raise_pending : (s.raise pg n).pending = s.pending := by simp [raise]
@[simp] theorem raise_base : (s.raise pg n).base = s.base := by simp [raise]
@[simp] theorem raise_aon : (s.raise pg n).aon = s.aon := by simp [raise]
@[simp] theorem raise_modT : (s.raise pg n).modT = s.modT := by simp [raise]
@[simp] theorem raise_fuses : (s.raise pg n).fuses = s.fuses := by simp [raise]
@[simp] theorem raise_mem : (s.raise pg n).mem = s.mem := by simp [raise]
@[simp] theorem raise_file : (s.raise pg n).file = s.file := by simp [raise]
@[simp] theorem raise_tvB : (s.raise pg n).tvB = s.tvB := by simp [raise]
@[simp] theorem raise_tvC : (s.raise pg n).tvC = s.tvC := by simp [raise]
@[simp] theorem raise_heldLo : (s.raise pg n).heldLo = s.heldLo := by simp [raise]
@[simp] theorem raise_latchHi : (s.raise pg n).latchHi = s.latchHi := by simp [raise]
@[simp] theorem raise_log : (s.raise pg n).log = s.log := by simp [raise]
@[simp] theorem raise_events : (s.raise pg n).events = s.events := by simp [raise]
@[simp] theorem raise_answers : (s.raise pg n).answers = s.answers := by simp [raise]
@[simp] theorem raise_bad : (s.raise pg n).bad = s.bad := by simp [raise]
@[simp] theorem raise_owners : (s.raise pg n).owners = s.owners := by simp [raise]
@[simp] theorem raise_tallies : (s.raise pg n).tallies = s.tallies := by simp [raise]
@[simp] theorem raise_harts : (s.raise pg n).harts = s.harts := by simp [raise]
@[simp] theorem raise_chans : (s.raise pg n).chans = s.chans := by simp [raise]
@[simp] theorem raise_ledger : (s.raise pg n).ledger = s.ledger := by simp [raise]
@[simp] theorem raise_streams : (s.raise pg n).streams = s.streams := by simp [raise]
@[simp] theorem raise_engines : (s.raise pg n).engines = s.engines := by simp [raise]
@[simp] theorem raise_place : (s.raise pg n).place = s.place := by simp [raise]
@[simp] theorem raise_ds : (s.raise pg n).ds = s.ds := by simp [raise]
@[simp] theorem raise_qps : (s.raise pg n).qps = s.qps := by simp [raise]
@[simp] theorem raise_mrs : (s.raise pg n).mrs = s.mrs := by simp [raise]
@[simp] theorem raise_xch : (s.raise pg n).xch = s.xch := by simp [raise]
@[simp] theorem raise_wins : (s.raise pg n).wins = s.wins := by simp [raise]
@[simp] theorem raise_lines : (s.raise pg n).lines = s.lines := by simp [raise]
@[simp] theorem raise_convs : (s.raise pg n).convs = s.convs := by simp [raise]
@[simp] theorem raise_links : (s.raise pg n).links = s.links := by simp [raise]
@[simp] theorem raise_cptOp : (s.raise pg n).cptOp = s.cptOp := by simp [raise]
@[simp] theorem raise_tests : (s.raise pg n).tests = s.tests := by simp [raise]
@[simp] theorem raise_recovering : (s.raise pg n).recovering = s.recovering := by simp [raise]
@[simp] theorem raise_inspectOn : (s.raise pg n).inspectOn = s.inspectOn := by simp [raise]
@[simp] theorem raise_clocks : (s.raise pg n).clocks = s.clocks := by simp [raise]
@[simp] theorem raise_budgets : (s.raise pg n).budgets = s.budgets := by simp [raise]
@[simp] theorem raise_panel : (s.raise pg n).panel = s.panel := by simp [raise]
@[simp] theorem raise_conn : (s.raise pg n).conn = s.conn := by simp [raise]
@[simp] theorem raise_bar4 : (s.raise pg n).bar4 = s.bar4 := by simp [raise]
@[simp] theorem raise_tables : (s.raise pg n).tables = s.tables := by simp [raise]
@[simp] theorem raise_hot : (s.raise pg n).hot = s.hot := by simp [raise]

/-! ### `pageErr` -/

@[simp] theorem pageErr_pending : (s.pageErr pg n).pending = s.pending := by unfold pageErr; dsimp only; split <;> simp
@[simp] theorem pageErr_base : (s.pageErr pg n).base = s.base := by unfold pageErr; dsimp only; split <;> simp
@[simp] theorem pageErr_aon : (s.pageErr pg n).aon = s.aon := by unfold pageErr; dsimp only; split <;> simp
@[simp] theorem pageErr_modT : (s.pageErr pg n).modT = s.modT := by unfold pageErr; dsimp only; split <;> simp
@[simp] theorem pageErr_fuses : (s.pageErr pg n).fuses = s.fuses := by unfold pageErr; dsimp only; split <;> simp
@[simp] theorem pageErr_mem : (s.pageErr pg n).mem = s.mem := by unfold pageErr; dsimp only; split <;> simp
@[simp] theorem pageErr_file : (s.pageErr pg n).file = s.file := by unfold pageErr; dsimp only; split <;> simp
@[simp] theorem pageErr_tvB : (s.pageErr pg n).tvB = s.tvB := by unfold pageErr; dsimp only; split <;> simp
@[simp] theorem pageErr_tvC : (s.pageErr pg n).tvC = s.tvC := by unfold pageErr; dsimp only; split <;> simp
@[simp] theorem pageErr_heldLo : (s.pageErr pg n).heldLo = s.heldLo := by unfold pageErr; dsimp only; split <;> simp
@[simp] theorem pageErr_latchHi : (s.pageErr pg n).latchHi = s.latchHi := by unfold pageErr; dsimp only; split <;> simp
@[simp] theorem pageErr_log : (s.pageErr pg n).log = s.log := by unfold pageErr; dsimp only; split <;> simp
@[simp] theorem pageErr_events : (s.pageErr pg n).events = s.events := by unfold pageErr; dsimp only; split <;> simp
@[simp] theorem pageErr_answers : (s.pageErr pg n).answers = s.answers := by unfold pageErr; dsimp only; split <;> simp
@[simp] theorem pageErr_bad : (s.pageErr pg n).bad = s.bad := by unfold pageErr; dsimp only; split <;> simp
@[simp] theorem pageErr_owners : (s.pageErr pg n).owners = s.owners := by unfold pageErr; dsimp only; split <;> simp
@[simp] theorem pageErr_tallies : (s.pageErr pg n).tallies = s.tallies := by unfold pageErr; dsimp only; split <;> simp
@[simp] theorem pageErr_harts : (s.pageErr pg n).harts = s.harts := by unfold pageErr; dsimp only; split <;> simp
@[simp] theorem pageErr_chans : (s.pageErr pg n).chans = s.chans := by unfold pageErr; dsimp only; split <;> simp
@[simp] theorem pageErr_ledger : (s.pageErr pg n).ledger = s.ledger := by unfold pageErr; dsimp only; split <;> simp
@[simp] theorem pageErr_streams : (s.pageErr pg n).streams = s.streams := by unfold pageErr; dsimp only; split <;> simp
@[simp] theorem pageErr_engines : (s.pageErr pg n).engines = s.engines := by unfold pageErr; dsimp only; split <;> simp
@[simp] theorem pageErr_place : (s.pageErr pg n).place = s.place := by unfold pageErr; dsimp only; split <;> simp
@[simp] theorem pageErr_ds : (s.pageErr pg n).ds = s.ds := by unfold pageErr; dsimp only; split <;> simp
@[simp] theorem pageErr_qps : (s.pageErr pg n).qps = s.qps := by unfold pageErr; dsimp only; split <;> simp
@[simp] theorem pageErr_mrs : (s.pageErr pg n).mrs = s.mrs := by unfold pageErr; dsimp only; split <;> simp
@[simp] theorem pageErr_xch : (s.pageErr pg n).xch = s.xch := by unfold pageErr; dsimp only; split <;> simp
@[simp] theorem pageErr_wins : (s.pageErr pg n).wins = s.wins := by unfold pageErr; dsimp only; split <;> simp
@[simp] theorem pageErr_lines : (s.pageErr pg n).lines = s.lines := by unfold pageErr; dsimp only; split <;> simp
@[simp] theorem pageErr_convs : (s.pageErr pg n).convs = s.convs := by unfold pageErr; dsimp only; split <;> simp
@[simp] theorem pageErr_links : (s.pageErr pg n).links = s.links := by unfold pageErr; dsimp only; split <;> simp
@[simp] theorem pageErr_cptOp : (s.pageErr pg n).cptOp = s.cptOp := by unfold pageErr; dsimp only; split <;> simp
@[simp] theorem pageErr_tests : (s.pageErr pg n).tests = s.tests := by unfold pageErr; dsimp only; split <;> simp
@[simp] theorem pageErr_recovering : (s.pageErr pg n).recovering = s.recovering := by unfold pageErr; dsimp only; split <;> simp
@[simp] theorem pageErr_inspectOn : (s.pageErr pg n).inspectOn = s.inspectOn := by unfold pageErr; dsimp only; split <;> simp
@[simp] theorem pageErr_clocks : (s.pageErr pg n).clocks = s.clocks := by unfold pageErr; dsimp only; split <;> simp
@[simp] theorem pageErr_budgets : (s.pageErr pg n).budgets = s.budgets := by unfold pageErr; dsimp only; split <;> simp
@[simp] theorem pageErr_panel : (s.pageErr pg n).panel = s.panel := by unfold pageErr; dsimp only; split <;> simp
@[simp] theorem pageErr_conn : (s.pageErr pg n).conn = s.conn := by unfold pageErr; dsimp only; split <;> simp
@[simp] theorem pageErr_bar4 : (s.pageErr pg n).bar4 = s.bar4 := by unfold pageErr; dsimp only; split <;> simp
@[simp] theorem pageErr_tables : (s.pageErr pg n).tables = s.tables := by unfold pageErr; dsimp only; split <;> simp
@[simp] theorem pageErr_hot : (s.pageErr pg n).hot = s.hot := by unfold pageErr; dsimp only; split <;> simp

/-! ### `logRec` -/

@[simp] theorem logRec_pending : (s.logRec rc).pending = s.pending := by unfold logRec; dsimp only; split <;> simp
@[simp] theorem logRec_base : (s.logRec rc).base = s.base := by unfold logRec; dsimp only; split <;> simp
@[simp] theorem logRec_aon : (s.logRec rc).aon = s.aon := by unfold logRec; dsimp only; split <;> simp
@[simp] theorem logRec_modT : (s.logRec rc).modT = s.modT := by unfold logRec; dsimp only; split <;> simp
@[simp] theorem logRec_fuses : (s.logRec rc).fuses = s.fuses := by unfold logRec; dsimp only; split <;> simp
@[simp] theorem logRec_mem : (s.logRec rc).mem = s.mem := by unfold logRec; dsimp only; split <;> simp
@[simp] theorem logRec_file : (s.logRec rc).file = s.file := by unfold logRec; dsimp only; split <;> simp
@[simp] theorem logRec_tvB : (s.logRec rc).tvB = s.tvB := by unfold logRec; dsimp only; split <;> simp
@[simp] theorem logRec_tvC : (s.logRec rc).tvC = s.tvC := by unfold logRec; dsimp only; split <;> simp
@[simp] theorem logRec_heldLo : (s.logRec rc).heldLo = s.heldLo := by unfold logRec; dsimp only; split <;> simp
@[simp] theorem logRec_latchHi : (s.logRec rc).latchHi = s.latchHi := by unfold logRec; dsimp only; split <;> simp
@[simp] theorem logRec_events : (s.logRec rc).events = s.events := by unfold logRec; dsimp only; split <;> simp
@[simp] theorem logRec_answers : (s.logRec rc).answers = s.answers := by unfold logRec; dsimp only; split <;> simp
@[simp] theorem logRec_bad : (s.logRec rc).bad = s.bad := by unfold logRec; dsimp only; split <;> simp
@[simp] theorem logRec_owners : (s.logRec rc).owners = s.owners := by unfold logRec; dsimp only; split <;> simp
@[simp] theorem logRec_tallies : (s.logRec rc).tallies = s.tallies := by unfold logRec; dsimp only; split <;> simp
@[simp] theorem logRec_harts : (s.logRec rc).harts = s.harts := by unfold logRec; dsimp only; split <;> simp
@[simp] theorem logRec_chans : (s.logRec rc).chans = s.chans := by unfold logRec; dsimp only; split <;> simp
@[simp] theorem logRec_ledger : (s.logRec rc).ledger = s.ledger := by unfold logRec; dsimp only; split <;> simp
@[simp] theorem logRec_streams : (s.logRec rc).streams = s.streams := by unfold logRec; dsimp only; split <;> simp
@[simp] theorem logRec_engines : (s.logRec rc).engines = s.engines := by unfold logRec; dsimp only; split <;> simp
@[simp] theorem logRec_place : (s.logRec rc).place = s.place := by unfold logRec; dsimp only; split <;> simp
@[simp] theorem logRec_ds : (s.logRec rc).ds = s.ds := by unfold logRec; dsimp only; split <;> simp
@[simp] theorem logRec_qps : (s.logRec rc).qps = s.qps := by unfold logRec; dsimp only; split <;> simp
@[simp] theorem logRec_mrs : (s.logRec rc).mrs = s.mrs := by unfold logRec; dsimp only; split <;> simp
@[simp] theorem logRec_xch : (s.logRec rc).xch = s.xch := by unfold logRec; dsimp only; split <;> simp
@[simp] theorem logRec_wins : (s.logRec rc).wins = s.wins := by unfold logRec; dsimp only; split <;> simp
@[simp] theorem logRec_lines : (s.logRec rc).lines = s.lines := by unfold logRec; dsimp only; split <;> simp
@[simp] theorem logRec_convs : (s.logRec rc).convs = s.convs := by unfold logRec; dsimp only; split <;> simp
@[simp] theorem logRec_links : (s.logRec rc).links = s.links := by unfold logRec; dsimp only; split <;> simp
@[simp] theorem logRec_cptOp : (s.logRec rc).cptOp = s.cptOp := by unfold logRec; dsimp only; split <;> simp
@[simp] theorem logRec_tests : (s.logRec rc).tests = s.tests := by unfold logRec; dsimp only; split <;> simp
@[simp] theorem logRec_recovering : (s.logRec rc).recovering = s.recovering := by unfold logRec; dsimp only; split <;> simp
@[simp] theorem logRec_inspectOn : (s.logRec rc).inspectOn = s.inspectOn := by unfold logRec; dsimp only; split <;> simp
@[simp] theorem logRec_clocks : (s.logRec rc).clocks = s.clocks := by unfold logRec; dsimp only; split <;> simp
@[simp] theorem logRec_budgets : (s.logRec rc).budgets = s.budgets := by unfold logRec; dsimp only; split <;> simp
@[simp] theorem logRec_panel : (s.logRec rc).panel = s.panel := by unfold logRec; dsimp only; split <;> simp
@[simp] theorem logRec_conn : (s.logRec rc).conn = s.conn := by unfold logRec; dsimp only; split <;> simp
@[simp] theorem logRec_bar4 : (s.logRec rc).bar4 = s.bar4 := by unfold logRec; dsimp only; split <;> simp
@[simp] theorem logRec_tables : (s.logRec rc).tables = s.tables := by unfold logRec; dsimp only; split <;> simp
@[simp] theorem logRec_hot : (s.logRec rc).hot = s.hot := by unfold logRec; dsimp only; split <;> simp

/-! ### `summary` -/

@[simp] theorem summary_pending : (s.summary g).pending = s.pending := rfl
@[simp] theorem summary_base : (s.summary g).base = s.base := rfl
@[simp] theorem summary_aon : (s.summary g).aon = s.aon := rfl
@[simp] theorem summary_modT : (s.summary g).modT = s.modT := rfl
@[simp] theorem summary_fuses : (s.summary g).fuses = s.fuses := rfl
@[simp] theorem summary_mem : (s.summary g).mem = s.mem := rfl
@[simp] theorem summary_file : (s.summary g).file = s.file := rfl
@[simp] theorem summary_regs : (s.summary g).regs = s.regs := rfl
@[simp] theorem summary_tvB : (s.summary g).tvB = s.tvB := rfl
@[simp] theorem summary_tvC : (s.summary g).tvC = s.tvC := rfl
@[simp] theorem summary_heldLo : (s.summary g).heldLo = s.heldLo := rfl
@[simp] theorem summary_latchHi : (s.summary g).latchHi = s.latchHi := rfl
@[simp] theorem summary_msiq : (s.summary g).msiq = s.msiq := rfl
@[simp] theorem summary_log : (s.summary g).log = s.log := rfl
@[simp] theorem summary_events : (s.summary g).events = s.events := rfl
@[simp] theorem summary_answers : (s.summary g).answers = s.answers := rfl
@[simp] theorem summary_bad : (s.summary g).bad = s.bad := rfl
@[simp] theorem summary_owners : (s.summary g).owners = s.owners := rfl
@[simp] theorem summary_tallies : (s.summary g).tallies = s.tallies := rfl
@[simp] theorem summary_harts : (s.summary g).harts = s.harts := rfl
@[simp] theorem summary_chans : (s.summary g).chans = s.chans := rfl
@[simp] theorem summary_streams : (s.summary g).streams = s.streams := rfl
@[simp] theorem summary_engines : (s.summary g).engines = s.engines := rfl
@[simp] theorem summary_place : (s.summary g).place = s.place := rfl
@[simp] theorem summary_ds : (s.summary g).ds = s.ds := rfl
@[simp] theorem summary_qps : (s.summary g).qps = s.qps := rfl
@[simp] theorem summary_mrs : (s.summary g).mrs = s.mrs := rfl
@[simp] theorem summary_xch : (s.summary g).xch = s.xch := rfl
@[simp] theorem summary_wins : (s.summary g).wins = s.wins := rfl
@[simp] theorem summary_lines : (s.summary g).lines = s.lines := rfl
@[simp] theorem summary_convs : (s.summary g).convs = s.convs := rfl
@[simp] theorem summary_links : (s.summary g).links = s.links := rfl
@[simp] theorem summary_cptOp : (s.summary g).cptOp = s.cptOp := rfl
@[simp] theorem summary_tests : (s.summary g).tests = s.tests := rfl
@[simp] theorem summary_recovering : (s.summary g).recovering = s.recovering := rfl
@[simp] theorem summary_inspectOn : (s.summary g).inspectOn = s.inspectOn := rfl
@[simp] theorem summary_clocks : (s.summary g).clocks = s.clocks := rfl
@[simp] theorem summary_budgets : (s.summary g).budgets = s.budgets := rfl
@[simp] theorem summary_panel : (s.summary g).panel = s.panel := rfl
@[simp] theorem summary_conn : (s.summary g).conn = s.conn := rfl
@[simp] theorem summary_bar4 : (s.summary g).bar4 = s.bar4 := rfl
@[simp] theorem summary_tables : (s.summary g).tables = s.tables := rfl
@[simp] theorem summary_hot : (s.summary g).hot = s.hot := rfl
@[simp] theorem summary_netOut : (s.summary g).netOut = s.netOut := rfl
@[simp] theorem summary_netWait : (s.summary g).netWait = s.netWait := rfl
@[simp] theorem summary_paused : (s.summary g).paused = s.paused := rfl
@[simp] theorem summary_ptp : (s.summary g).ptp = s.ptp := rfl
@[simp] theorem summary_keys : (s.summary g).keys = s.keys := rfl
@[simp] theorem summary_sweeps : (s.summary g).sweeps = s.sweeps := rfl
@[simp] theorem summary_tblM : (s.summary g).tblM = s.tblM := rfl
@[simp] theorem summary_telem : (s.summary g).telem = s.telem := rfl
@[simp] theorem summary_telemAt : (s.summary g).telemAt = s.telemAt := rfl
@[simp] theorem summary_chanAt : (s.summary g).chanAt = s.chanAt := rfl
@[simp] theorem summary_free : (s.summary g).free = s.free := rfl
@[simp] theorem summary_imsic : (s.summary g).imsic = s.imsic := rfl
@[simp] theorem summary_routes : (s.summary g).routes = s.routes := rfl
@[simp] theorem summary_msix : (s.summary g).msix = s.msix := rfl

/-! ### `ledg` -/

@[simp] theorem ledg_pending : (s.ledg lk la er).pending = s.pending := by unfold ledg; dsimp only; split <;> simp
@[simp] theorem ledg_base : (s.ledg lk la er).base = s.base := by unfold ledg; dsimp only; split <;> simp
@[simp] theorem ledg_aon : (s.ledg lk la er).aon = s.aon := by unfold ledg; dsimp only; split <;> simp
@[simp] theorem ledg_modT : (s.ledg lk la er).modT = s.modT := by unfold ledg; dsimp only; split <;> simp
@[simp] theorem ledg_fuses : (s.ledg lk la er).fuses = s.fuses := by unfold ledg; dsimp only; split <;> simp
@[simp] theorem ledg_mem : (s.ledg lk la er).mem = s.mem := by unfold ledg; dsimp only; split <;> simp
@[simp] theorem ledg_file : (s.ledg lk la er).file = s.file := by unfold ledg; dsimp only; split <;> simp
@[simp] theorem ledg_tvB : (s.ledg lk la er).tvB = s.tvB := by unfold ledg; dsimp only; split <;> simp
@[simp] theorem ledg_tvC : (s.ledg lk la er).tvC = s.tvC := by unfold ledg; dsimp only; split <;> simp
@[simp] theorem ledg_heldLo : (s.ledg lk la er).heldLo = s.heldLo := by unfold ledg; dsimp only; split <;> simp
@[simp] theorem ledg_latchHi : (s.ledg lk la er).latchHi = s.latchHi := by unfold ledg; dsimp only; split <;> simp
@[simp] theorem ledg_msiq : (s.ledg lk la er).msiq = s.msiq := by unfold ledg; dsimp only; split <;> simp
@[simp] theorem ledg_log : (s.ledg lk la er).log = s.log := by unfold ledg; dsimp only; split <;> simp
@[simp] theorem ledg_events : (s.ledg lk la er).events = s.events := by unfold ledg; dsimp only; split <;> simp
@[simp] theorem ledg_answers : (s.ledg lk la er).answers = s.answers := by unfold ledg; dsimp only; split <;> simp
@[simp] theorem ledg_bad : (s.ledg lk la er).bad = s.bad := by unfold ledg; dsimp only; split <;> simp
@[simp] theorem ledg_owners : (s.ledg lk la er).owners = s.owners := by unfold ledg; dsimp only; split <;> simp
@[simp] theorem ledg_tallies : (s.ledg lk la er).tallies = s.tallies := by unfold ledg; dsimp only; split <;> simp
@[simp] theorem ledg_harts : (s.ledg lk la er).harts = s.harts := by unfold ledg; dsimp only; split <;> simp
@[simp] theorem ledg_chans : (s.ledg lk la er).chans = s.chans := by unfold ledg; dsimp only; split <;> simp
@[simp] theorem ledg_streams : (s.ledg lk la er).streams = s.streams := by unfold ledg; dsimp only; split <;> simp
@[simp] theorem ledg_engines : (s.ledg lk la er).engines = s.engines := by unfold ledg; dsimp only; split <;> simp
@[simp] theorem ledg_place : (s.ledg lk la er).place = s.place := by unfold ledg; dsimp only; split <;> simp
@[simp] theorem ledg_ds : (s.ledg lk la er).ds = s.ds := by unfold ledg; dsimp only; split <;> simp
@[simp] theorem ledg_qps : (s.ledg lk la er).qps = s.qps := by unfold ledg; dsimp only; split <;> simp
@[simp] theorem ledg_mrs : (s.ledg lk la er).mrs = s.mrs := by unfold ledg; dsimp only; split <;> simp
@[simp] theorem ledg_xch : (s.ledg lk la er).xch = s.xch := by unfold ledg; dsimp only; split <;> simp
@[simp] theorem ledg_wins : (s.ledg lk la er).wins = s.wins := by unfold ledg; dsimp only; split <;> simp
@[simp] theorem ledg_lines : (s.ledg lk la er).lines = s.lines := by unfold ledg; dsimp only; split <;> simp
@[simp] theorem ledg_convs : (s.ledg lk la er).convs = s.convs := by unfold ledg; dsimp only; split <;> simp
@[simp] theorem ledg_links : (s.ledg lk la er).links = s.links := by unfold ledg; dsimp only; split <;> simp
@[simp] theorem ledg_cptOp : (s.ledg lk la er).cptOp = s.cptOp := by unfold ledg; dsimp only; split <;> simp
@[simp] theorem ledg_tests : (s.ledg lk la er).tests = s.tests := by unfold ledg; dsimp only; split <;> simp
@[simp] theorem ledg_recovering : (s.ledg lk la er).recovering = s.recovering := by unfold ledg; dsimp only; split <;> simp
@[simp] theorem ledg_inspectOn : (s.ledg lk la er).inspectOn = s.inspectOn := by unfold ledg; dsimp only; split <;> simp
@[simp] theorem ledg_clocks : (s.ledg lk la er).clocks = s.clocks := by unfold ledg; dsimp only; split <;> simp
@[simp] theorem ledg_budgets : (s.ledg lk la er).budgets = s.budgets := by unfold ledg; dsimp only; split <;> simp
@[simp] theorem ledg_panel : (s.ledg lk la er).panel = s.panel := by unfold ledg; dsimp only; split <;> simp
@[simp] theorem ledg_conn : (s.ledg lk la er).conn = s.conn := by unfold ledg; dsimp only; split <;> simp
@[simp] theorem ledg_bar4 : (s.ledg lk la er).bar4 = s.bar4 := by unfold ledg; dsimp only; split <;> simp
@[simp] theorem ledg_tables : (s.ledg lk la er).tables = s.tables := by unfold ledg; dsimp only; split <;> simp
@[simp] theorem ledg_hot : (s.ledg lk la er).hot = s.hot := by unfold ledg; dsimp only; split <;> simp

/-! ### `setOwner` -/

@[simp] theorem setOwner_pending : (s.setOwner n m v).pending = s.pending := rfl
@[simp] theorem setOwner_base : (s.setOwner n m v).base = s.base := rfl
@[simp] theorem setOwner_aon : (s.setOwner n m v).aon = s.aon := rfl
@[simp] theorem setOwner_modT : (s.setOwner n m v).modT = s.modT := rfl
@[simp] theorem setOwner_fuses : (s.setOwner n m v).fuses = s.fuses := rfl
@[simp] theorem setOwner_mem : (s.setOwner n m v).mem = s.mem := rfl
@[simp] theorem setOwner_file : (s.setOwner n m v).file = s.file := rfl
@[simp] theorem setOwner_regs : (s.setOwner n m v).regs = s.regs := rfl
@[simp] theorem setOwner_tvB : (s.setOwner n m v).tvB = s.tvB := rfl
@[simp] theorem setOwner_tvC : (s.setOwner n m v).tvC = s.tvC := rfl
@[simp] theorem setOwner_heldLo : (s.setOwner n m v).heldLo = s.heldLo := rfl
@[simp] theorem setOwner_latchHi : (s.setOwner n m v).latchHi = s.latchHi := rfl
@[simp] theorem setOwner_msiq : (s.setOwner n m v).msiq = s.msiq := rfl
@[simp] theorem setOwner_log : (s.setOwner n m v).log = s.log := rfl
@[simp] theorem setOwner_events : (s.setOwner n m v).events = s.events := rfl
@[simp] theorem setOwner_answers : (s.setOwner n m v).answers = s.answers := rfl
@[simp] theorem setOwner_bad : (s.setOwner n m v).bad = s.bad := rfl
@[simp] theorem setOwner_tallies : (s.setOwner n m v).tallies = s.tallies := rfl
@[simp] theorem setOwner_harts : (s.setOwner n m v).harts = s.harts := rfl
@[simp] theorem setOwner_chans : (s.setOwner n m v).chans = s.chans := rfl
@[simp] theorem setOwner_ledger : (s.setOwner n m v).ledger = s.ledger := rfl
@[simp] theorem setOwner_streams : (s.setOwner n m v).streams = s.streams := rfl
@[simp] theorem setOwner_engines : (s.setOwner n m v).engines = s.engines := rfl
@[simp] theorem setOwner_place : (s.setOwner n m v).place = s.place := rfl
@[simp] theorem setOwner_ds : (s.setOwner n m v).ds = s.ds := rfl
@[simp] theorem setOwner_qps : (s.setOwner n m v).qps = s.qps := rfl
@[simp] theorem setOwner_mrs : (s.setOwner n m v).mrs = s.mrs := rfl
@[simp] theorem setOwner_xch : (s.setOwner n m v).xch = s.xch := rfl
@[simp] theorem setOwner_wins : (s.setOwner n m v).wins = s.wins := rfl
@[simp] theorem setOwner_lines : (s.setOwner n m v).lines = s.lines := rfl
@[simp] theorem setOwner_convs : (s.setOwner n m v).convs = s.convs := rfl
@[simp] theorem setOwner_links : (s.setOwner n m v).links = s.links := rfl
@[simp] theorem setOwner_cptOp : (s.setOwner n m v).cptOp = s.cptOp := rfl
@[simp] theorem setOwner_tests : (s.setOwner n m v).tests = s.tests := rfl
@[simp] theorem setOwner_recovering : (s.setOwner n m v).recovering = s.recovering := rfl
@[simp] theorem setOwner_inspectOn : (s.setOwner n m v).inspectOn = s.inspectOn := rfl
@[simp] theorem setOwner_clocks : (s.setOwner n m v).clocks = s.clocks := rfl
@[simp] theorem setOwner_budgets : (s.setOwner n m v).budgets = s.budgets := rfl
@[simp] theorem setOwner_panel : (s.setOwner n m v).panel = s.panel := rfl
@[simp] theorem setOwner_conn : (s.setOwner n m v).conn = s.conn := rfl
@[simp] theorem setOwner_bar4 : (s.setOwner n m v).bar4 = s.bar4 := rfl
@[simp] theorem setOwner_tables : (s.setOwner n m v).tables = s.tables := rfl
@[simp] theorem setOwner_hot : (s.setOwner n m v).hot = s.hot := rfl
@[simp] theorem setOwner_netOut : (s.setOwner n m v).netOut = s.netOut := rfl
@[simp] theorem setOwner_netWait : (s.setOwner n m v).netWait = s.netWait := rfl
@[simp] theorem setOwner_paused : (s.setOwner n m v).paused = s.paused := rfl
@[simp] theorem setOwner_ptp : (s.setOwner n m v).ptp = s.ptp := rfl
@[simp] theorem setOwner_keys : (s.setOwner n m v).keys = s.keys := rfl
@[simp] theorem setOwner_sweeps : (s.setOwner n m v).sweeps = s.sweeps := rfl
@[simp] theorem setOwner_tblM : (s.setOwner n m v).tblM = s.tblM := rfl
@[simp] theorem setOwner_telem : (s.setOwner n m v).telem = s.telem := rfl
@[simp] theorem setOwner_telemAt : (s.setOwner n m v).telemAt = s.telemAt := rfl
@[simp] theorem setOwner_chanAt : (s.setOwner n m v).chanAt = s.chanAt := rfl
@[simp] theorem setOwner_free : (s.setOwner n m v).free = s.free := rfl
@[simp] theorem setOwner_imsic : (s.setOwner n m v).imsic = s.imsic := rfl
@[simp] theorem setOwner_routes : (s.setOwner n m v).routes = s.routes := rfl
@[simp] theorem setOwner_msix : (s.setOwner n m v).msix = s.msix := rfl

/-! ### `setEntry` -/

@[simp] theorem setEntry_pending : (s.setEntry n v).pending = s.pending := rfl
@[simp] theorem setEntry_base : (s.setEntry n v).base = s.base := rfl
@[simp] theorem setEntry_aon : (s.setEntry n v).aon = s.aon := rfl
@[simp] theorem setEntry_modT : (s.setEntry n v).modT = s.modT := rfl
@[simp] theorem setEntry_fuses : (s.setEntry n v).fuses = s.fuses := rfl
@[simp] theorem setEntry_mem : (s.setEntry n v).mem = s.mem := rfl
@[simp] theorem setEntry_file : (s.setEntry n v).file = s.file := rfl
@[simp] theorem setEntry_regs : (s.setEntry n v).regs = s.regs := rfl
@[simp] theorem setEntry_tvB : (s.setEntry n v).tvB = s.tvB := rfl
@[simp] theorem setEntry_tvC : (s.setEntry n v).tvC = s.tvC := rfl
@[simp] theorem setEntry_heldLo : (s.setEntry n v).heldLo = s.heldLo := rfl
@[simp] theorem setEntry_latchHi : (s.setEntry n v).latchHi = s.latchHi := rfl
@[simp] theorem setEntry_msiq : (s.setEntry n v).msiq = s.msiq := rfl
@[simp] theorem setEntry_log : (s.setEntry n v).log = s.log := rfl
@[simp] theorem setEntry_events : (s.setEntry n v).events = s.events := rfl
@[simp] theorem setEntry_answers : (s.setEntry n v).answers = s.answers := rfl
@[simp] theorem setEntry_bad : (s.setEntry n v).bad = s.bad := rfl
@[simp] theorem setEntry_owners : (s.setEntry n v).owners = s.owners := rfl
@[simp] theorem setEntry_tallies : (s.setEntry n v).tallies = s.tallies := rfl
@[simp] theorem setEntry_harts : (s.setEntry n v).harts = s.harts := rfl
@[simp] theorem setEntry_chans : (s.setEntry n v).chans = s.chans := rfl
@[simp] theorem setEntry_ledger : (s.setEntry n v).ledger = s.ledger := rfl
@[simp] theorem setEntry_streams : (s.setEntry n v).streams = s.streams := rfl
@[simp] theorem setEntry_engines : (s.setEntry n v).engines = s.engines := rfl
@[simp] theorem setEntry_ds : (s.setEntry n v).ds = s.ds := rfl
@[simp] theorem setEntry_qps : (s.setEntry n v).qps = s.qps := rfl
@[simp] theorem setEntry_mrs : (s.setEntry n v).mrs = s.mrs := rfl
@[simp] theorem setEntry_xch : (s.setEntry n v).xch = s.xch := rfl
@[simp] theorem setEntry_wins : (s.setEntry n v).wins = s.wins := rfl
@[simp] theorem setEntry_lines : (s.setEntry n v).lines = s.lines := rfl
@[simp] theorem setEntry_convs : (s.setEntry n v).convs = s.convs := rfl
@[simp] theorem setEntry_links : (s.setEntry n v).links = s.links := rfl
@[simp] theorem setEntry_cptOp : (s.setEntry n v).cptOp = s.cptOp := rfl
@[simp] theorem setEntry_tests : (s.setEntry n v).tests = s.tests := rfl
@[simp] theorem setEntry_recovering : (s.setEntry n v).recovering = s.recovering := rfl
@[simp] theorem setEntry_inspectOn : (s.setEntry n v).inspectOn = s.inspectOn := rfl
@[simp] theorem setEntry_clocks : (s.setEntry n v).clocks = s.clocks := rfl
@[simp] theorem setEntry_budgets : (s.setEntry n v).budgets = s.budgets := rfl
@[simp] theorem setEntry_panel : (s.setEntry n v).panel = s.panel := rfl
@[simp] theorem setEntry_conn : (s.setEntry n v).conn = s.conn := rfl
@[simp] theorem setEntry_bar4 : (s.setEntry n v).bar4 = s.bar4 := rfl
@[simp] theorem setEntry_tables : (s.setEntry n v).tables = s.tables := rfl
@[simp] theorem setEntry_hot : (s.setEntry n v).hot = s.hot := rfl
@[simp] theorem setEntry_netOut : (s.setEntry n v).netOut = s.netOut := rfl
@[simp] theorem setEntry_netWait : (s.setEntry n v).netWait = s.netWait := rfl
@[simp] theorem setEntry_paused : (s.setEntry n v).paused = s.paused := rfl
@[simp] theorem setEntry_ptp : (s.setEntry n v).ptp = s.ptp := rfl
@[simp] theorem setEntry_keys : (s.setEntry n v).keys = s.keys := rfl
@[simp] theorem setEntry_sweeps : (s.setEntry n v).sweeps = s.sweeps := rfl
@[simp] theorem setEntry_tblM : (s.setEntry n v).tblM = s.tblM := rfl
@[simp] theorem setEntry_telem : (s.setEntry n v).telem = s.telem := rfl
@[simp] theorem setEntry_telemAt : (s.setEntry n v).telemAt = s.telemAt := rfl
@[simp] theorem setEntry_chanAt : (s.setEntry n v).chanAt = s.chanAt := rfl
@[simp] theorem setEntry_free : (s.setEntry n v).free = s.free := rfl
@[simp] theorem setEntry_imsic : (s.setEntry n v).imsic = s.imsic := rfl
@[simp] theorem setEntry_routes : (s.setEntry n v).routes = s.routes := rfl
@[simp] theorem setEntry_msix : (s.setEntry n v).msix = s.msix := rfl

/-! ### `setLine` -/

@[simp] theorem setLine_pending : (s.setLine n xN).pending = s.pending := rfl
@[simp] theorem setLine_base : (s.setLine n xN).base = s.base := rfl
@[simp] theorem setLine_aon : (s.setLine n xN).aon = s.aon := rfl
@[simp] theorem setLine_modT : (s.setLine n xN).modT = s.modT := rfl
@[simp] theorem setLine_fuses : (s.setLine n xN).fuses = s.fuses := rfl
@[simp] theorem setLine_mem : (s.setLine n xN).mem = s.mem := rfl
@[simp] theorem setLine_file : (s.setLine n xN).file = s.file := rfl
@[simp] theorem setLine_regs : (s.setLine n xN).regs = s.regs := rfl
@[simp] theorem setLine_tvB : (s.setLine n xN).tvB = s.tvB := rfl
@[simp] theorem setLine_tvC : (s.setLine n xN).tvC = s.tvC := rfl
@[simp] theorem setLine_heldLo : (s.setLine n xN).heldLo = s.heldLo := rfl
@[simp] theorem setLine_latchHi : (s.setLine n xN).latchHi = s.latchHi := rfl
@[simp] theorem setLine_msiq : (s.setLine n xN).msiq = s.msiq := rfl
@[simp] theorem setLine_log : (s.setLine n xN).log = s.log := rfl
@[simp] theorem setLine_events : (s.setLine n xN).events = s.events := rfl
@[simp] theorem setLine_answers : (s.setLine n xN).answers = s.answers := rfl
@[simp] theorem setLine_bad : (s.setLine n xN).bad = s.bad := rfl
@[simp] theorem setLine_owners : (s.setLine n xN).owners = s.owners := rfl
@[simp] theorem setLine_tallies : (s.setLine n xN).tallies = s.tallies := rfl
@[simp] theorem setLine_harts : (s.setLine n xN).harts = s.harts := rfl
@[simp] theorem setLine_chans : (s.setLine n xN).chans = s.chans := rfl
@[simp] theorem setLine_ledger : (s.setLine n xN).ledger = s.ledger := rfl
@[simp] theorem setLine_streams : (s.setLine n xN).streams = s.streams := rfl
@[simp] theorem setLine_engines : (s.setLine n xN).engines = s.engines := rfl
@[simp] theorem setLine_place : (s.setLine n xN).place = s.place := rfl
@[simp] theorem setLine_ds : (s.setLine n xN).ds = s.ds := rfl
@[simp] theorem setLine_qps : (s.setLine n xN).qps = s.qps := rfl
@[simp] theorem setLine_mrs : (s.setLine n xN).mrs = s.mrs := rfl
@[simp] theorem setLine_xch : (s.setLine n xN).xch = s.xch := rfl
@[simp] theorem setLine_wins : (s.setLine n xN).wins = s.wins := rfl
@[simp] theorem setLine_convs : (s.setLine n xN).convs = s.convs := rfl
@[simp] theorem setLine_links : (s.setLine n xN).links = s.links := rfl
@[simp] theorem setLine_cptOp : (s.setLine n xN).cptOp = s.cptOp := rfl
@[simp] theorem setLine_tests : (s.setLine n xN).tests = s.tests := rfl
@[simp] theorem setLine_recovering : (s.setLine n xN).recovering = s.recovering := rfl
@[simp] theorem setLine_inspectOn : (s.setLine n xN).inspectOn = s.inspectOn := rfl
@[simp] theorem setLine_clocks : (s.setLine n xN).clocks = s.clocks := rfl
@[simp] theorem setLine_budgets : (s.setLine n xN).budgets = s.budgets := rfl
@[simp] theorem setLine_panel : (s.setLine n xN).panel = s.panel := rfl
@[simp] theorem setLine_conn : (s.setLine n xN).conn = s.conn := rfl
@[simp] theorem setLine_bar4 : (s.setLine n xN).bar4 = s.bar4 := rfl
@[simp] theorem setLine_tables : (s.setLine n xN).tables = s.tables := rfl
@[simp] theorem setLine_hot : (s.setLine n xN).hot = s.hot := rfl
@[simp] theorem setLine_netOut : (s.setLine n xN).netOut = s.netOut := rfl
@[simp] theorem setLine_netWait : (s.setLine n xN).netWait = s.netWait := rfl
@[simp] theorem setLine_paused : (s.setLine n xN).paused = s.paused := rfl
@[simp] theorem setLine_ptp : (s.setLine n xN).ptp = s.ptp := rfl
@[simp] theorem setLine_keys : (s.setLine n xN).keys = s.keys := rfl
@[simp] theorem setLine_sweeps : (s.setLine n xN).sweeps = s.sweeps := rfl
@[simp] theorem setLine_tblM : (s.setLine n xN).tblM = s.tblM := rfl
@[simp] theorem setLine_telem : (s.setLine n xN).telem = s.telem := rfl
@[simp] theorem setLine_telemAt : (s.setLine n xN).telemAt = s.telemAt := rfl
@[simp] theorem setLine_chanAt : (s.setLine n xN).chanAt = s.chanAt := rfl
@[simp] theorem setLine_free : (s.setLine n xN).free = s.free := rfl
@[simp] theorem setLine_imsic : (s.setLine n xN).imsic = s.imsic := rfl
@[simp] theorem setLine_routes : (s.setLine n xN).routes = s.routes := rfl
@[simp] theorem setLine_msix : (s.setLine n xN).msix = s.msix := rfl

/-! ### `setStream` -/

@[simp] theorem setStream_pending : (s.setStream d n xS).pending = s.pending := rfl
@[simp] theorem setStream_base : (s.setStream d n xS).base = s.base := rfl
@[simp] theorem setStream_aon : (s.setStream d n xS).aon = s.aon := rfl
@[simp] theorem setStream_modT : (s.setStream d n xS).modT = s.modT := rfl
@[simp] theorem setStream_fuses : (s.setStream d n xS).fuses = s.fuses := rfl
@[simp] theorem setStream_mem : (s.setStream d n xS).mem = s.mem := rfl
@[simp] theorem setStream_file : (s.setStream d n xS).file = s.file := rfl
@[simp] theorem setStream_regs : (s.setStream d n xS).regs = s.regs := rfl
@[simp] theorem setStream_tvB : (s.setStream d n xS).tvB = s.tvB := rfl
@[simp] theorem setStream_tvC : (s.setStream d n xS).tvC = s.tvC := rfl
@[simp] theorem setStream_heldLo : (s.setStream d n xS).heldLo = s.heldLo := rfl
@[simp] theorem setStream_latchHi : (s.setStream d n xS).latchHi = s.latchHi := rfl
@[simp] theorem setStream_msiq : (s.setStream d n xS).msiq = s.msiq := rfl
@[simp] theorem setStream_log : (s.setStream d n xS).log = s.log := rfl
@[simp] theorem setStream_events : (s.setStream d n xS).events = s.events := rfl
@[simp] theorem setStream_answers : (s.setStream d n xS).answers = s.answers := rfl
@[simp] theorem setStream_bad : (s.setStream d n xS).bad = s.bad := rfl
@[simp] theorem setStream_owners : (s.setStream d n xS).owners = s.owners := rfl
@[simp] theorem setStream_tallies : (s.setStream d n xS).tallies = s.tallies := rfl
@[simp] theorem setStream_harts : (s.setStream d n xS).harts = s.harts := rfl
@[simp] theorem setStream_chans : (s.setStream d n xS).chans = s.chans := rfl
@[simp] theorem setStream_ledger : (s.setStream d n xS).ledger = s.ledger := rfl
@[simp] theorem setStream_engines : (s.setStream d n xS).engines = s.engines := rfl
@[simp] theorem setStream_place : (s.setStream d n xS).place = s.place := rfl
@[simp] theorem setStream_ds : (s.setStream d n xS).ds = s.ds := rfl
@[simp] theorem setStream_qps : (s.setStream d n xS).qps = s.qps := rfl
@[simp] theorem setStream_mrs : (s.setStream d n xS).mrs = s.mrs := rfl
@[simp] theorem setStream_xch : (s.setStream d n xS).xch = s.xch := rfl
@[simp] theorem setStream_wins : (s.setStream d n xS).wins = s.wins := rfl
@[simp] theorem setStream_lines : (s.setStream d n xS).lines = s.lines := rfl
@[simp] theorem setStream_convs : (s.setStream d n xS).convs = s.convs := rfl
@[simp] theorem setStream_links : (s.setStream d n xS).links = s.links := rfl
@[simp] theorem setStream_cptOp : (s.setStream d n xS).cptOp = s.cptOp := rfl
@[simp] theorem setStream_tests : (s.setStream d n xS).tests = s.tests := rfl
@[simp] theorem setStream_recovering : (s.setStream d n xS).recovering = s.recovering := rfl
@[simp] theorem setStream_inspectOn : (s.setStream d n xS).inspectOn = s.inspectOn := rfl
@[simp] theorem setStream_clocks : (s.setStream d n xS).clocks = s.clocks := rfl
@[simp] theorem setStream_budgets : (s.setStream d n xS).budgets = s.budgets := rfl
@[simp] theorem setStream_panel : (s.setStream d n xS).panel = s.panel := rfl
@[simp] theorem setStream_conn : (s.setStream d n xS).conn = s.conn := rfl
@[simp] theorem setStream_bar4 : (s.setStream d n xS).bar4 = s.bar4 := rfl
@[simp] theorem setStream_tables : (s.setStream d n xS).tables = s.tables := rfl
@[simp] theorem setStream_hot : (s.setStream d n xS).hot = s.hot := rfl
@[simp] theorem setStream_netOut : (s.setStream d n xS).netOut = s.netOut := rfl
@[simp] theorem setStream_netWait : (s.setStream d n xS).netWait = s.netWait := rfl
@[simp] theorem setStream_paused : (s.setStream d n xS).paused = s.paused := rfl
@[simp] theorem setStream_ptp : (s.setStream d n xS).ptp = s.ptp := rfl
@[simp] theorem setStream_keys : (s.setStream d n xS).keys = s.keys := rfl
@[simp] theorem setStream_sweeps : (s.setStream d n xS).sweeps = s.sweeps := rfl
@[simp] theorem setStream_tblM : (s.setStream d n xS).tblM = s.tblM := rfl
@[simp] theorem setStream_telem : (s.setStream d n xS).telem = s.telem := rfl
@[simp] theorem setStream_telemAt : (s.setStream d n xS).telemAt = s.telemAt := rfl
@[simp] theorem setStream_chanAt : (s.setStream d n xS).chanAt = s.chanAt := rfl
@[simp] theorem setStream_free : (s.setStream d n xS).free = s.free := rfl
@[simp] theorem setStream_imsic : (s.setStream d n xS).imsic = s.imsic := rfl
@[simp] theorem setStream_routes : (s.setStream d n xS).routes = s.routes := rfl
@[simp] theorem setStream_msix : (s.setStream d n xS).msix = s.msix := rfl

/-! ### `setEngine` -/

@[simp] theorem setEngine_pending : (s.setEngine d n xE).pending = s.pending := rfl
@[simp] theorem setEngine_base : (s.setEngine d n xE).base = s.base := rfl
@[simp] theorem setEngine_aon : (s.setEngine d n xE).aon = s.aon := rfl
@[simp] theorem setEngine_modT : (s.setEngine d n xE).modT = s.modT := rfl
@[simp] theorem setEngine_fuses : (s.setEngine d n xE).fuses = s.fuses := rfl
@[simp] theorem setEngine_mem : (s.setEngine d n xE).mem = s.mem := rfl
@[simp] theorem setEngine_file : (s.setEngine d n xE).file = s.file := rfl
@[simp] theorem setEngine_regs : (s.setEngine d n xE).regs = s.regs := rfl
@[simp] theorem setEngine_tvB : (s.setEngine d n xE).tvB = s.tvB := rfl
@[simp] theorem setEngine_tvC : (s.setEngine d n xE).tvC = s.tvC := rfl
@[simp] theorem setEngine_heldLo : (s.setEngine d n xE).heldLo = s.heldLo := rfl
@[simp] theorem setEngine_latchHi : (s.setEngine d n xE).latchHi = s.latchHi := rfl
@[simp] theorem setEngine_msiq : (s.setEngine d n xE).msiq = s.msiq := rfl
@[simp] theorem setEngine_log : (s.setEngine d n xE).log = s.log := rfl
@[simp] theorem setEngine_events : (s.setEngine d n xE).events = s.events := rfl
@[simp] theorem setEngine_answers : (s.setEngine d n xE).answers = s.answers := rfl
@[simp] theorem setEngine_bad : (s.setEngine d n xE).bad = s.bad := rfl
@[simp] theorem setEngine_owners : (s.setEngine d n xE).owners = s.owners := rfl
@[simp] theorem setEngine_tallies : (s.setEngine d n xE).tallies = s.tallies := rfl
@[simp] theorem setEngine_harts : (s.setEngine d n xE).harts = s.harts := rfl
@[simp] theorem setEngine_chans : (s.setEngine d n xE).chans = s.chans := rfl
@[simp] theorem setEngine_ledger : (s.setEngine d n xE).ledger = s.ledger := rfl
@[simp] theorem setEngine_streams : (s.setEngine d n xE).streams = s.streams := rfl
@[simp] theorem setEngine_place : (s.setEngine d n xE).place = s.place := rfl
@[simp] theorem setEngine_ds : (s.setEngine d n xE).ds = s.ds := rfl
@[simp] theorem setEngine_qps : (s.setEngine d n xE).qps = s.qps := rfl
@[simp] theorem setEngine_mrs : (s.setEngine d n xE).mrs = s.mrs := rfl
@[simp] theorem setEngine_xch : (s.setEngine d n xE).xch = s.xch := rfl
@[simp] theorem setEngine_wins : (s.setEngine d n xE).wins = s.wins := rfl
@[simp] theorem setEngine_lines : (s.setEngine d n xE).lines = s.lines := rfl
@[simp] theorem setEngine_convs : (s.setEngine d n xE).convs = s.convs := rfl
@[simp] theorem setEngine_links : (s.setEngine d n xE).links = s.links := rfl
@[simp] theorem setEngine_cptOp : (s.setEngine d n xE).cptOp = s.cptOp := rfl
@[simp] theorem setEngine_tests : (s.setEngine d n xE).tests = s.tests := rfl
@[simp] theorem setEngine_recovering : (s.setEngine d n xE).recovering = s.recovering := rfl
@[simp] theorem setEngine_inspectOn : (s.setEngine d n xE).inspectOn = s.inspectOn := rfl
@[simp] theorem setEngine_clocks : (s.setEngine d n xE).clocks = s.clocks := rfl
@[simp] theorem setEngine_budgets : (s.setEngine d n xE).budgets = s.budgets := rfl
@[simp] theorem setEngine_panel : (s.setEngine d n xE).panel = s.panel := rfl
@[simp] theorem setEngine_conn : (s.setEngine d n xE).conn = s.conn := rfl
@[simp] theorem setEngine_bar4 : (s.setEngine d n xE).bar4 = s.bar4 := rfl
@[simp] theorem setEngine_tables : (s.setEngine d n xE).tables = s.tables := rfl
@[simp] theorem setEngine_hot : (s.setEngine d n xE).hot = s.hot := rfl
@[simp] theorem setEngine_netOut : (s.setEngine d n xE).netOut = s.netOut := rfl
@[simp] theorem setEngine_netWait : (s.setEngine d n xE).netWait = s.netWait := rfl
@[simp] theorem setEngine_paused : (s.setEngine d n xE).paused = s.paused := rfl
@[simp] theorem setEngine_ptp : (s.setEngine d n xE).ptp = s.ptp := rfl
@[simp] theorem setEngine_keys : (s.setEngine d n xE).keys = s.keys := rfl
@[simp] theorem setEngine_sweeps : (s.setEngine d n xE).sweeps = s.sweeps := rfl
@[simp] theorem setEngine_tblM : (s.setEngine d n xE).tblM = s.tblM := rfl
@[simp] theorem setEngine_telem : (s.setEngine d n xE).telem = s.telem := rfl
@[simp] theorem setEngine_telemAt : (s.setEngine d n xE).telemAt = s.telemAt := rfl
@[simp] theorem setEngine_chanAt : (s.setEngine d n xE).chanAt = s.chanAt := rfl
@[simp] theorem setEngine_free : (s.setEngine d n xE).free = s.free := rfl
@[simp] theorem setEngine_imsic : (s.setEngine d n xE).imsic = s.imsic := rfl
@[simp] theorem setEngine_routes : (s.setEngine d n xE).routes = s.routes := rfl
@[simp] theorem setEngine_msix : (s.setEngine d n xE).msix = s.msix := rfl

/-! ### `setTally` -/

@[simp] theorem setTally_pending : (s.setTally n xT).pending = s.pending := rfl
@[simp] theorem setTally_base : (s.setTally n xT).base = s.base := rfl
@[simp] theorem setTally_aon : (s.setTally n xT).aon = s.aon := rfl
@[simp] theorem setTally_modT : (s.setTally n xT).modT = s.modT := rfl
@[simp] theorem setTally_fuses : (s.setTally n xT).fuses = s.fuses := rfl
@[simp] theorem setTally_mem : (s.setTally n xT).mem = s.mem := rfl
@[simp] theorem setTally_file : (s.setTally n xT).file = s.file := rfl
@[simp] theorem setTally_regs : (s.setTally n xT).regs = s.regs := rfl
@[simp] theorem setTally_tvB : (s.setTally n xT).tvB = s.tvB := rfl
@[simp] theorem setTally_tvC : (s.setTally n xT).tvC = s.tvC := rfl
@[simp] theorem setTally_heldLo : (s.setTally n xT).heldLo = s.heldLo := rfl
@[simp] theorem setTally_latchHi : (s.setTally n xT).latchHi = s.latchHi := rfl
@[simp] theorem setTally_msiq : (s.setTally n xT).msiq = s.msiq := rfl
@[simp] theorem setTally_log : (s.setTally n xT).log = s.log := rfl
@[simp] theorem setTally_events : (s.setTally n xT).events = s.events := rfl
@[simp] theorem setTally_answers : (s.setTally n xT).answers = s.answers := rfl
@[simp] theorem setTally_bad : (s.setTally n xT).bad = s.bad := rfl
@[simp] theorem setTally_owners : (s.setTally n xT).owners = s.owners := rfl
@[simp] theorem setTally_harts : (s.setTally n xT).harts = s.harts := rfl
@[simp] theorem setTally_chans : (s.setTally n xT).chans = s.chans := rfl
@[simp] theorem setTally_ledger : (s.setTally n xT).ledger = s.ledger := rfl
@[simp] theorem setTally_streams : (s.setTally n xT).streams = s.streams := rfl
@[simp] theorem setTally_engines : (s.setTally n xT).engines = s.engines := rfl
@[simp] theorem setTally_place : (s.setTally n xT).place = s.place := rfl
@[simp] theorem setTally_ds : (s.setTally n xT).ds = s.ds := rfl
@[simp] theorem setTally_qps : (s.setTally n xT).qps = s.qps := rfl
@[simp] theorem setTally_mrs : (s.setTally n xT).mrs = s.mrs := rfl
@[simp] theorem setTally_xch : (s.setTally n xT).xch = s.xch := rfl
@[simp] theorem setTally_wins : (s.setTally n xT).wins = s.wins := rfl
@[simp] theorem setTally_lines : (s.setTally n xT).lines = s.lines := rfl
@[simp] theorem setTally_convs : (s.setTally n xT).convs = s.convs := rfl
@[simp] theorem setTally_links : (s.setTally n xT).links = s.links := rfl
@[simp] theorem setTally_cptOp : (s.setTally n xT).cptOp = s.cptOp := rfl
@[simp] theorem setTally_tests : (s.setTally n xT).tests = s.tests := rfl
@[simp] theorem setTally_recovering : (s.setTally n xT).recovering = s.recovering := rfl
@[simp] theorem setTally_inspectOn : (s.setTally n xT).inspectOn = s.inspectOn := rfl
@[simp] theorem setTally_clocks : (s.setTally n xT).clocks = s.clocks := rfl
@[simp] theorem setTally_budgets : (s.setTally n xT).budgets = s.budgets := rfl
@[simp] theorem setTally_panel : (s.setTally n xT).panel = s.panel := rfl
@[simp] theorem setTally_conn : (s.setTally n xT).conn = s.conn := rfl
@[simp] theorem setTally_bar4 : (s.setTally n xT).bar4 = s.bar4 := rfl
@[simp] theorem setTally_tables : (s.setTally n xT).tables = s.tables := rfl
@[simp] theorem setTally_hot : (s.setTally n xT).hot = s.hot := rfl
@[simp] theorem setTally_netOut : (s.setTally n xT).netOut = s.netOut := rfl
@[simp] theorem setTally_netWait : (s.setTally n xT).netWait = s.netWait := rfl
@[simp] theorem setTally_paused : (s.setTally n xT).paused = s.paused := rfl
@[simp] theorem setTally_ptp : (s.setTally n xT).ptp = s.ptp := rfl
@[simp] theorem setTally_keys : (s.setTally n xT).keys = s.keys := rfl
@[simp] theorem setTally_sweeps : (s.setTally n xT).sweeps = s.sweeps := rfl
@[simp] theorem setTally_tblM : (s.setTally n xT).tblM = s.tblM := rfl
@[simp] theorem setTally_telem : (s.setTally n xT).telem = s.telem := rfl
@[simp] theorem setTally_telemAt : (s.setTally n xT).telemAt = s.telemAt := rfl
@[simp] theorem setTally_chanAt : (s.setTally n xT).chanAt = s.chanAt := rfl
@[simp] theorem setTally_free : (s.setTally n xT).free = s.free := rfl
@[simp] theorem setTally_imsic : (s.setTally n xT).imsic = s.imsic := rfl
@[simp] theorem setTally_routes : (s.setTally n xT).routes = s.routes := rfl
@[simp] theorem setTally_msix : (s.setTally n xT).msix = s.msix := rfl

/-! ### `setHart` -/

@[simp] theorem setHart_pending : (s.setHart n xH).pending = s.pending := rfl
@[simp] theorem setHart_base : (s.setHart n xH).base = s.base := rfl
@[simp] theorem setHart_aon : (s.setHart n xH).aon = s.aon := rfl
@[simp] theorem setHart_modT : (s.setHart n xH).modT = s.modT := rfl
@[simp] theorem setHart_fuses : (s.setHart n xH).fuses = s.fuses := rfl
@[simp] theorem setHart_mem : (s.setHart n xH).mem = s.mem := rfl
@[simp] theorem setHart_file : (s.setHart n xH).file = s.file := rfl
@[simp] theorem setHart_regs : (s.setHart n xH).regs = s.regs := rfl
@[simp] theorem setHart_tvB : (s.setHart n xH).tvB = s.tvB := rfl
@[simp] theorem setHart_tvC : (s.setHart n xH).tvC = s.tvC := rfl
@[simp] theorem setHart_heldLo : (s.setHart n xH).heldLo = s.heldLo := rfl
@[simp] theorem setHart_latchHi : (s.setHart n xH).latchHi = s.latchHi := rfl
@[simp] theorem setHart_msiq : (s.setHart n xH).msiq = s.msiq := rfl
@[simp] theorem setHart_log : (s.setHart n xH).log = s.log := rfl
@[simp] theorem setHart_events : (s.setHart n xH).events = s.events := rfl
@[simp] theorem setHart_answers : (s.setHart n xH).answers = s.answers := rfl
@[simp] theorem setHart_bad : (s.setHart n xH).bad = s.bad := rfl
@[simp] theorem setHart_owners : (s.setHart n xH).owners = s.owners := rfl
@[simp] theorem setHart_tallies : (s.setHart n xH).tallies = s.tallies := rfl
@[simp] theorem setHart_chans : (s.setHart n xH).chans = s.chans := rfl
@[simp] theorem setHart_ledger : (s.setHart n xH).ledger = s.ledger := rfl
@[simp] theorem setHart_streams : (s.setHart n xH).streams = s.streams := rfl
@[simp] theorem setHart_engines : (s.setHart n xH).engines = s.engines := rfl
@[simp] theorem setHart_place : (s.setHart n xH).place = s.place := rfl
@[simp] theorem setHart_ds : (s.setHart n xH).ds = s.ds := rfl
@[simp] theorem setHart_qps : (s.setHart n xH).qps = s.qps := rfl
@[simp] theorem setHart_mrs : (s.setHart n xH).mrs = s.mrs := rfl
@[simp] theorem setHart_xch : (s.setHart n xH).xch = s.xch := rfl
@[simp] theorem setHart_wins : (s.setHart n xH).wins = s.wins := rfl
@[simp] theorem setHart_lines : (s.setHart n xH).lines = s.lines := rfl
@[simp] theorem setHart_convs : (s.setHart n xH).convs = s.convs := rfl
@[simp] theorem setHart_links : (s.setHart n xH).links = s.links := rfl
@[simp] theorem setHart_cptOp : (s.setHart n xH).cptOp = s.cptOp := rfl
@[simp] theorem setHart_tests : (s.setHart n xH).tests = s.tests := rfl
@[simp] theorem setHart_recovering : (s.setHart n xH).recovering = s.recovering := rfl
@[simp] theorem setHart_inspectOn : (s.setHart n xH).inspectOn = s.inspectOn := rfl
@[simp] theorem setHart_clocks : (s.setHart n xH).clocks = s.clocks := rfl
@[simp] theorem setHart_budgets : (s.setHart n xH).budgets = s.budgets := rfl
@[simp] theorem setHart_panel : (s.setHart n xH).panel = s.panel := rfl
@[simp] theorem setHart_conn : (s.setHart n xH).conn = s.conn := rfl
@[simp] theorem setHart_bar4 : (s.setHart n xH).bar4 = s.bar4 := rfl
@[simp] theorem setHart_tables : (s.setHart n xH).tables = s.tables := rfl
@[simp] theorem setHart_hot : (s.setHart n xH).hot = s.hot := rfl
@[simp] theorem setHart_netOut : (s.setHart n xH).netOut = s.netOut := rfl
@[simp] theorem setHart_netWait : (s.setHart n xH).netWait = s.netWait := rfl
@[simp] theorem setHart_paused : (s.setHart n xH).paused = s.paused := rfl
@[simp] theorem setHart_ptp : (s.setHart n xH).ptp = s.ptp := rfl
@[simp] theorem setHart_keys : (s.setHart n xH).keys = s.keys := rfl
@[simp] theorem setHart_sweeps : (s.setHart n xH).sweeps = s.sweeps := rfl
@[simp] theorem setHart_tblM : (s.setHart n xH).tblM = s.tblM := rfl
@[simp] theorem setHart_telem : (s.setHart n xH).telem = s.telem := rfl
@[simp] theorem setHart_telemAt : (s.setHart n xH).telemAt = s.telemAt := rfl
@[simp] theorem setHart_chanAt : (s.setHart n xH).chanAt = s.chanAt := rfl
@[simp] theorem setHart_free : (s.setHart n xH).free = s.free := rfl
@[simp] theorem setHart_imsic : (s.setHart n xH).imsic = s.imsic := rfl
@[simp] theorem setHart_routes : (s.setHart n xH).routes = s.routes := rfl
@[simp] theorem setHart_msix : (s.setHart n xH).msix = s.msix := rfl

/-! ### `setChan` -/

@[simp] theorem setChan_pending : (s.setChan d n xC).pending = s.pending := rfl
@[simp] theorem setChan_base : (s.setChan d n xC).base = s.base := rfl
@[simp] theorem setChan_aon : (s.setChan d n xC).aon = s.aon := rfl
@[simp] theorem setChan_modT : (s.setChan d n xC).modT = s.modT := rfl
@[simp] theorem setChan_fuses : (s.setChan d n xC).fuses = s.fuses := rfl
@[simp] theorem setChan_mem : (s.setChan d n xC).mem = s.mem := rfl
@[simp] theorem setChan_file : (s.setChan d n xC).file = s.file := rfl
@[simp] theorem setChan_regs : (s.setChan d n xC).regs = s.regs := rfl
@[simp] theorem setChan_tvB : (s.setChan d n xC).tvB = s.tvB := rfl
@[simp] theorem setChan_tvC : (s.setChan d n xC).tvC = s.tvC := rfl
@[simp] theorem setChan_heldLo : (s.setChan d n xC).heldLo = s.heldLo := rfl
@[simp] theorem setChan_latchHi : (s.setChan d n xC).latchHi = s.latchHi := rfl
@[simp] theorem setChan_msiq : (s.setChan d n xC).msiq = s.msiq := rfl
@[simp] theorem setChan_log : (s.setChan d n xC).log = s.log := rfl
@[simp] theorem setChan_events : (s.setChan d n xC).events = s.events := rfl
@[simp] theorem setChan_answers : (s.setChan d n xC).answers = s.answers := rfl
@[simp] theorem setChan_bad : (s.setChan d n xC).bad = s.bad := rfl
@[simp] theorem setChan_owners : (s.setChan d n xC).owners = s.owners := rfl
@[simp] theorem setChan_tallies : (s.setChan d n xC).tallies = s.tallies := rfl
@[simp] theorem setChan_harts : (s.setChan d n xC).harts = s.harts := rfl
@[simp] theorem setChan_ledger : (s.setChan d n xC).ledger = s.ledger := rfl
@[simp] theorem setChan_streams : (s.setChan d n xC).streams = s.streams := rfl
@[simp] theorem setChan_engines : (s.setChan d n xC).engines = s.engines := rfl
@[simp] theorem setChan_place : (s.setChan d n xC).place = s.place := rfl
@[simp] theorem setChan_ds : (s.setChan d n xC).ds = s.ds := rfl
@[simp] theorem setChan_qps : (s.setChan d n xC).qps = s.qps := rfl
@[simp] theorem setChan_mrs : (s.setChan d n xC).mrs = s.mrs := rfl
@[simp] theorem setChan_xch : (s.setChan d n xC).xch = s.xch := rfl
@[simp] theorem setChan_wins : (s.setChan d n xC).wins = s.wins := rfl
@[simp] theorem setChan_lines : (s.setChan d n xC).lines = s.lines := rfl
@[simp] theorem setChan_convs : (s.setChan d n xC).convs = s.convs := rfl
@[simp] theorem setChan_links : (s.setChan d n xC).links = s.links := rfl
@[simp] theorem setChan_cptOp : (s.setChan d n xC).cptOp = s.cptOp := rfl
@[simp] theorem setChan_tests : (s.setChan d n xC).tests = s.tests := rfl
@[simp] theorem setChan_recovering : (s.setChan d n xC).recovering = s.recovering := rfl
@[simp] theorem setChan_inspectOn : (s.setChan d n xC).inspectOn = s.inspectOn := rfl
@[simp] theorem setChan_clocks : (s.setChan d n xC).clocks = s.clocks := rfl
@[simp] theorem setChan_budgets : (s.setChan d n xC).budgets = s.budgets := rfl
@[simp] theorem setChan_panel : (s.setChan d n xC).panel = s.panel := rfl
@[simp] theorem setChan_conn : (s.setChan d n xC).conn = s.conn := rfl
@[simp] theorem setChan_bar4 : (s.setChan d n xC).bar4 = s.bar4 := rfl
@[simp] theorem setChan_tables : (s.setChan d n xC).tables = s.tables := rfl
@[simp] theorem setChan_hot : (s.setChan d n xC).hot = s.hot := rfl
@[simp] theorem setChan_netOut : (s.setChan d n xC).netOut = s.netOut := rfl
@[simp] theorem setChan_netWait : (s.setChan d n xC).netWait = s.netWait := rfl
@[simp] theorem setChan_paused : (s.setChan d n xC).paused = s.paused := rfl
@[simp] theorem setChan_ptp : (s.setChan d n xC).ptp = s.ptp := rfl
@[simp] theorem setChan_keys : (s.setChan d n xC).keys = s.keys := rfl
@[simp] theorem setChan_sweeps : (s.setChan d n xC).sweeps = s.sweeps := rfl
@[simp] theorem setChan_tblM : (s.setChan d n xC).tblM = s.tblM := rfl
@[simp] theorem setChan_telem : (s.setChan d n xC).telem = s.telem := rfl
@[simp] theorem setChan_telemAt : (s.setChan d n xC).telemAt = s.telemAt := rfl
@[simp] theorem setChan_chanAt : (s.setChan d n xC).chanAt = s.chanAt := rfl
@[simp] theorem setChan_free : (s.setChan d n xC).free = s.free := rfl
@[simp] theorem setChan_imsic : (s.setChan d n xC).imsic = s.imsic := rfl
@[simp] theorem setChan_routes : (s.setChan d n xC).routes = s.routes := rfl
@[simp] theorem setChan_msix : (s.setChan d n xC).msix = s.msix := rfl

/-! ### `setQp` -/

@[simp] theorem setQp_pending : (s.setQp n xQ).pending = s.pending := rfl
@[simp] theorem setQp_base : (s.setQp n xQ).base = s.base := rfl
@[simp] theorem setQp_aon : (s.setQp n xQ).aon = s.aon := rfl
@[simp] theorem setQp_modT : (s.setQp n xQ).modT = s.modT := rfl
@[simp] theorem setQp_fuses : (s.setQp n xQ).fuses = s.fuses := rfl
@[simp] theorem setQp_mem : (s.setQp n xQ).mem = s.mem := rfl
@[simp] theorem setQp_file : (s.setQp n xQ).file = s.file := rfl
@[simp] theorem setQp_regs : (s.setQp n xQ).regs = s.regs := rfl
@[simp] theorem setQp_tvB : (s.setQp n xQ).tvB = s.tvB := rfl
@[simp] theorem setQp_tvC : (s.setQp n xQ).tvC = s.tvC := rfl
@[simp] theorem setQp_heldLo : (s.setQp n xQ).heldLo = s.heldLo := rfl
@[simp] theorem setQp_latchHi : (s.setQp n xQ).latchHi = s.latchHi := rfl
@[simp] theorem setQp_msiq : (s.setQp n xQ).msiq = s.msiq := rfl
@[simp] theorem setQp_log : (s.setQp n xQ).log = s.log := rfl
@[simp] theorem setQp_events : (s.setQp n xQ).events = s.events := rfl
@[simp] theorem setQp_answers : (s.setQp n xQ).answers = s.answers := rfl
@[simp] theorem setQp_bad : (s.setQp n xQ).bad = s.bad := rfl
@[simp] theorem setQp_owners : (s.setQp n xQ).owners = s.owners := rfl
@[simp] theorem setQp_tallies : (s.setQp n xQ).tallies = s.tallies := rfl
@[simp] theorem setQp_harts : (s.setQp n xQ).harts = s.harts := rfl
@[simp] theorem setQp_chans : (s.setQp n xQ).chans = s.chans := rfl
@[simp] theorem setQp_ledger : (s.setQp n xQ).ledger = s.ledger := rfl
@[simp] theorem setQp_streams : (s.setQp n xQ).streams = s.streams := rfl
@[simp] theorem setQp_engines : (s.setQp n xQ).engines = s.engines := rfl
@[simp] theorem setQp_place : (s.setQp n xQ).place = s.place := rfl
@[simp] theorem setQp_ds : (s.setQp n xQ).ds = s.ds := rfl
@[simp] theorem setQp_mrs : (s.setQp n xQ).mrs = s.mrs := rfl
@[simp] theorem setQp_xch : (s.setQp n xQ).xch = s.xch := rfl
@[simp] theorem setQp_wins : (s.setQp n xQ).wins = s.wins := rfl
@[simp] theorem setQp_lines : (s.setQp n xQ).lines = s.lines := rfl
@[simp] theorem setQp_convs : (s.setQp n xQ).convs = s.convs := rfl
@[simp] theorem setQp_links : (s.setQp n xQ).links = s.links := rfl
@[simp] theorem setQp_cptOp : (s.setQp n xQ).cptOp = s.cptOp := rfl
@[simp] theorem setQp_tests : (s.setQp n xQ).tests = s.tests := rfl
@[simp] theorem setQp_recovering : (s.setQp n xQ).recovering = s.recovering := rfl
@[simp] theorem setQp_inspectOn : (s.setQp n xQ).inspectOn = s.inspectOn := rfl
@[simp] theorem setQp_clocks : (s.setQp n xQ).clocks = s.clocks := rfl
@[simp] theorem setQp_budgets : (s.setQp n xQ).budgets = s.budgets := rfl
@[simp] theorem setQp_panel : (s.setQp n xQ).panel = s.panel := rfl
@[simp] theorem setQp_conn : (s.setQp n xQ).conn = s.conn := rfl
@[simp] theorem setQp_bar4 : (s.setQp n xQ).bar4 = s.bar4 := rfl
@[simp] theorem setQp_tables : (s.setQp n xQ).tables = s.tables := rfl
@[simp] theorem setQp_hot : (s.setQp n xQ).hot = s.hot := rfl
@[simp] theorem setQp_netOut : (s.setQp n xQ).netOut = s.netOut := rfl
@[simp] theorem setQp_netWait : (s.setQp n xQ).netWait = s.netWait := rfl
@[simp] theorem setQp_paused : (s.setQp n xQ).paused = s.paused := rfl
@[simp] theorem setQp_ptp : (s.setQp n xQ).ptp = s.ptp := rfl
@[simp] theorem setQp_keys : (s.setQp n xQ).keys = s.keys := rfl
@[simp] theorem setQp_sweeps : (s.setQp n xQ).sweeps = s.sweeps := rfl
@[simp] theorem setQp_tblM : (s.setQp n xQ).tblM = s.tblM := rfl
@[simp] theorem setQp_telem : (s.setQp n xQ).telem = s.telem := rfl
@[simp] theorem setQp_telemAt : (s.setQp n xQ).telemAt = s.telemAt := rfl
@[simp] theorem setQp_chanAt : (s.setQp n xQ).chanAt = s.chanAt := rfl
@[simp] theorem setQp_free : (s.setQp n xQ).free = s.free := rfl
@[simp] theorem setQp_imsic : (s.setQp n xQ).imsic = s.imsic := rfl
@[simp] theorem setQp_routes : (s.setQp n xQ).routes = s.routes := rfl
@[simp] theorem setQp_msix : (s.setQp n xQ).msix = s.msix := rfl

/-! ### `setLink` -/

@[simp] theorem setLink_pending : (s.setLink d n xL).pending = s.pending := rfl
@[simp] theorem setLink_base : (s.setLink d n xL).base = s.base := rfl
@[simp] theorem setLink_aon : (s.setLink d n xL).aon = s.aon := rfl
@[simp] theorem setLink_modT : (s.setLink d n xL).modT = s.modT := rfl
@[simp] theorem setLink_fuses : (s.setLink d n xL).fuses = s.fuses := rfl
@[simp] theorem setLink_mem : (s.setLink d n xL).mem = s.mem := rfl
@[simp] theorem setLink_file : (s.setLink d n xL).file = s.file := rfl
@[simp] theorem setLink_regs : (s.setLink d n xL).regs = s.regs := rfl
@[simp] theorem setLink_tvB : (s.setLink d n xL).tvB = s.tvB := rfl
@[simp] theorem setLink_tvC : (s.setLink d n xL).tvC = s.tvC := rfl
@[simp] theorem setLink_heldLo : (s.setLink d n xL).heldLo = s.heldLo := rfl
@[simp] theorem setLink_latchHi : (s.setLink d n xL).latchHi = s.latchHi := rfl
@[simp] theorem setLink_msiq : (s.setLink d n xL).msiq = s.msiq := rfl
@[simp] theorem setLink_log : (s.setLink d n xL).log = s.log := rfl
@[simp] theorem setLink_events : (s.setLink d n xL).events = s.events := rfl
@[simp] theorem setLink_answers : (s.setLink d n xL).answers = s.answers := rfl
@[simp] theorem setLink_bad : (s.setLink d n xL).bad = s.bad := rfl
@[simp] theorem setLink_owners : (s.setLink d n xL).owners = s.owners := rfl
@[simp] theorem setLink_tallies : (s.setLink d n xL).tallies = s.tallies := rfl
@[simp] theorem setLink_harts : (s.setLink d n xL).harts = s.harts := rfl
@[simp] theorem setLink_chans : (s.setLink d n xL).chans = s.chans := rfl
@[simp] theorem setLink_ledger : (s.setLink d n xL).ledger = s.ledger := rfl
@[simp] theorem setLink_streams : (s.setLink d n xL).streams = s.streams := rfl
@[simp] theorem setLink_engines : (s.setLink d n xL).engines = s.engines := rfl
@[simp] theorem setLink_place : (s.setLink d n xL).place = s.place := rfl
@[simp] theorem setLink_ds : (s.setLink d n xL).ds = s.ds := rfl
@[simp] theorem setLink_qps : (s.setLink d n xL).qps = s.qps := rfl
@[simp] theorem setLink_mrs : (s.setLink d n xL).mrs = s.mrs := rfl
@[simp] theorem setLink_xch : (s.setLink d n xL).xch = s.xch := rfl
@[simp] theorem setLink_wins : (s.setLink d n xL).wins = s.wins := rfl
@[simp] theorem setLink_lines : (s.setLink d n xL).lines = s.lines := rfl
@[simp] theorem setLink_convs : (s.setLink d n xL).convs = s.convs := rfl
@[simp] theorem setLink_cptOp : (s.setLink d n xL).cptOp = s.cptOp := rfl
@[simp] theorem setLink_tests : (s.setLink d n xL).tests = s.tests := rfl
@[simp] theorem setLink_recovering : (s.setLink d n xL).recovering = s.recovering := rfl
@[simp] theorem setLink_inspectOn : (s.setLink d n xL).inspectOn = s.inspectOn := rfl
@[simp] theorem setLink_clocks : (s.setLink d n xL).clocks = s.clocks := rfl
@[simp] theorem setLink_budgets : (s.setLink d n xL).budgets = s.budgets := rfl
@[simp] theorem setLink_panel : (s.setLink d n xL).panel = s.panel := rfl
@[simp] theorem setLink_conn : (s.setLink d n xL).conn = s.conn := rfl
@[simp] theorem setLink_bar4 : (s.setLink d n xL).bar4 = s.bar4 := rfl
@[simp] theorem setLink_tables : (s.setLink d n xL).tables = s.tables := rfl
@[simp] theorem setLink_hot : (s.setLink d n xL).hot = s.hot := rfl
@[simp] theorem setLink_netOut : (s.setLink d n xL).netOut = s.netOut := rfl
@[simp] theorem setLink_netWait : (s.setLink d n xL).netWait = s.netWait := rfl
@[simp] theorem setLink_paused : (s.setLink d n xL).paused = s.paused := rfl
@[simp] theorem setLink_ptp : (s.setLink d n xL).ptp = s.ptp := rfl
@[simp] theorem setLink_keys : (s.setLink d n xL).keys = s.keys := rfl
@[simp] theorem setLink_sweeps : (s.setLink d n xL).sweeps = s.sweeps := rfl
@[simp] theorem setLink_tblM : (s.setLink d n xL).tblM = s.tblM := rfl
@[simp] theorem setLink_telem : (s.setLink d n xL).telem = s.telem := rfl
@[simp] theorem setLink_telemAt : (s.setLink d n xL).telemAt = s.telemAt := rfl
@[simp] theorem setLink_chanAt : (s.setLink d n xL).chanAt = s.chanAt := rfl
@[simp] theorem setLink_free : (s.setLink d n xL).free = s.free := rfl
@[simp] theorem setLink_imsic : (s.setLink d n xL).imsic = s.imsic := rfl
@[simp] theorem setLink_routes : (s.setLink d n xL).routes = s.routes := rfl
@[simp] theorem setLink_msix : (s.setLink d n xL).msix = s.msix := rfl

/-! ### `setBudget` -/

@[simp] theorem setBudget_pending : (s.setBudget d xB).pending = s.pending := rfl
@[simp] theorem setBudget_base : (s.setBudget d xB).base = s.base := rfl
@[simp] theorem setBudget_aon : (s.setBudget d xB).aon = s.aon := rfl
@[simp] theorem setBudget_modT : (s.setBudget d xB).modT = s.modT := rfl
@[simp] theorem setBudget_fuses : (s.setBudget d xB).fuses = s.fuses := rfl
@[simp] theorem setBudget_mem : (s.setBudget d xB).mem = s.mem := rfl
@[simp] theorem setBudget_file : (s.setBudget d xB).file = s.file := rfl
@[simp] theorem setBudget_regs : (s.setBudget d xB).regs = s.regs := rfl
@[simp] theorem setBudget_tvB : (s.setBudget d xB).tvB = s.tvB := rfl
@[simp] theorem setBudget_tvC : (s.setBudget d xB).tvC = s.tvC := rfl
@[simp] theorem setBudget_heldLo : (s.setBudget d xB).heldLo = s.heldLo := rfl
@[simp] theorem setBudget_latchHi : (s.setBudget d xB).latchHi = s.latchHi := rfl
@[simp] theorem setBudget_msiq : (s.setBudget d xB).msiq = s.msiq := rfl
@[simp] theorem setBudget_log : (s.setBudget d xB).log = s.log := rfl
@[simp] theorem setBudget_events : (s.setBudget d xB).events = s.events := rfl
@[simp] theorem setBudget_answers : (s.setBudget d xB).answers = s.answers := rfl
@[simp] theorem setBudget_bad : (s.setBudget d xB).bad = s.bad := rfl
@[simp] theorem setBudget_owners : (s.setBudget d xB).owners = s.owners := rfl
@[simp] theorem setBudget_tallies : (s.setBudget d xB).tallies = s.tallies := rfl
@[simp] theorem setBudget_harts : (s.setBudget d xB).harts = s.harts := rfl
@[simp] theorem setBudget_chans : (s.setBudget d xB).chans = s.chans := rfl
@[simp] theorem setBudget_ledger : (s.setBudget d xB).ledger = s.ledger := rfl
@[simp] theorem setBudget_streams : (s.setBudget d xB).streams = s.streams := rfl
@[simp] theorem setBudget_engines : (s.setBudget d xB).engines = s.engines := rfl
@[simp] theorem setBudget_place : (s.setBudget d xB).place = s.place := rfl
@[simp] theorem setBudget_ds : (s.setBudget d xB).ds = s.ds := rfl
@[simp] theorem setBudget_qps : (s.setBudget d xB).qps = s.qps := rfl
@[simp] theorem setBudget_mrs : (s.setBudget d xB).mrs = s.mrs := rfl
@[simp] theorem setBudget_xch : (s.setBudget d xB).xch = s.xch := rfl
@[simp] theorem setBudget_wins : (s.setBudget d xB).wins = s.wins := rfl
@[simp] theorem setBudget_lines : (s.setBudget d xB).lines = s.lines := rfl
@[simp] theorem setBudget_convs : (s.setBudget d xB).convs = s.convs := rfl
@[simp] theorem setBudget_links : (s.setBudget d xB).links = s.links := rfl
@[simp] theorem setBudget_cptOp : (s.setBudget d xB).cptOp = s.cptOp := rfl
@[simp] theorem setBudget_tests : (s.setBudget d xB).tests = s.tests := rfl
@[simp] theorem setBudget_recovering : (s.setBudget d xB).recovering = s.recovering := rfl
@[simp] theorem setBudget_inspectOn : (s.setBudget d xB).inspectOn = s.inspectOn := rfl
@[simp] theorem setBudget_clocks : (s.setBudget d xB).clocks = s.clocks := rfl
@[simp] theorem setBudget_panel : (s.setBudget d xB).panel = s.panel := rfl
@[simp] theorem setBudget_conn : (s.setBudget d xB).conn = s.conn := rfl
@[simp] theorem setBudget_bar4 : (s.setBudget d xB).bar4 = s.bar4 := rfl
@[simp] theorem setBudget_tables : (s.setBudget d xB).tables = s.tables := rfl
@[simp] theorem setBudget_hot : (s.setBudget d xB).hot = s.hot := rfl
@[simp] theorem setBudget_netOut : (s.setBudget d xB).netOut = s.netOut := rfl
@[simp] theorem setBudget_netWait : (s.setBudget d xB).netWait = s.netWait := rfl
@[simp] theorem setBudget_paused : (s.setBudget d xB).paused = s.paused := rfl
@[simp] theorem setBudget_ptp : (s.setBudget d xB).ptp = s.ptp := rfl
@[simp] theorem setBudget_keys : (s.setBudget d xB).keys = s.keys := rfl
@[simp] theorem setBudget_sweeps : (s.setBudget d xB).sweeps = s.sweeps := rfl
@[simp] theorem setBudget_tblM : (s.setBudget d xB).tblM = s.tblM := rfl
@[simp] theorem setBudget_telem : (s.setBudget d xB).telem = s.telem := rfl
@[simp] theorem setBudget_telemAt : (s.setBudget d xB).telemAt = s.telemAt := rfl
@[simp] theorem setBudget_chanAt : (s.setBudget d xB).chanAt = s.chanAt := rfl
@[simp] theorem setBudget_free : (s.setBudget d xB).free = s.free := rfl
@[simp] theorem setBudget_imsic : (s.setBudget d xB).imsic = s.imsic := rfl
@[simp] theorem setBudget_routes : (s.setBudget d xB).routes = s.routes := rfl
@[simp] theorem setBudget_msix : (s.setBudget d xB).msix = s.msix := rfl

/-! ### `setTblSlot` -/

@[simp] theorem setTblSlot_pending : (s.setTblSlot n xTb).pending = s.pending := rfl
@[simp] theorem setTblSlot_base : (s.setTblSlot n xTb).base = s.base := rfl
@[simp] theorem setTblSlot_aon : (s.setTblSlot n xTb).aon = s.aon := rfl
@[simp] theorem setTblSlot_modT : (s.setTblSlot n xTb).modT = s.modT := rfl
@[simp] theorem setTblSlot_fuses : (s.setTblSlot n xTb).fuses = s.fuses := rfl
@[simp] theorem setTblSlot_mem : (s.setTblSlot n xTb).mem = s.mem := rfl
@[simp] theorem setTblSlot_file : (s.setTblSlot n xTb).file = s.file := rfl
@[simp] theorem setTblSlot_regs : (s.setTblSlot n xTb).regs = s.regs := rfl
@[simp] theorem setTblSlot_tvB : (s.setTblSlot n xTb).tvB = s.tvB := rfl
@[simp] theorem setTblSlot_tvC : (s.setTblSlot n xTb).tvC = s.tvC := rfl
@[simp] theorem setTblSlot_heldLo : (s.setTblSlot n xTb).heldLo = s.heldLo := rfl
@[simp] theorem setTblSlot_latchHi : (s.setTblSlot n xTb).latchHi = s.latchHi := rfl
@[simp] theorem setTblSlot_msiq : (s.setTblSlot n xTb).msiq = s.msiq := rfl
@[simp] theorem setTblSlot_log : (s.setTblSlot n xTb).log = s.log := rfl
@[simp] theorem setTblSlot_events : (s.setTblSlot n xTb).events = s.events := rfl
@[simp] theorem setTblSlot_answers : (s.setTblSlot n xTb).answers = s.answers := rfl
@[simp] theorem setTblSlot_bad : (s.setTblSlot n xTb).bad = s.bad := rfl
@[simp] theorem setTblSlot_owners : (s.setTblSlot n xTb).owners = s.owners := rfl
@[simp] theorem setTblSlot_tallies : (s.setTblSlot n xTb).tallies = s.tallies := rfl
@[simp] theorem setTblSlot_harts : (s.setTblSlot n xTb).harts = s.harts := rfl
@[simp] theorem setTblSlot_chans : (s.setTblSlot n xTb).chans = s.chans := rfl
@[simp] theorem setTblSlot_ledger : (s.setTblSlot n xTb).ledger = s.ledger := rfl
@[simp] theorem setTblSlot_streams : (s.setTblSlot n xTb).streams = s.streams := rfl
@[simp] theorem setTblSlot_engines : (s.setTblSlot n xTb).engines = s.engines := rfl
@[simp] theorem setTblSlot_place : (s.setTblSlot n xTb).place = s.place := rfl
@[simp] theorem setTblSlot_ds : (s.setTblSlot n xTb).ds = s.ds := rfl
@[simp] theorem setTblSlot_qps : (s.setTblSlot n xTb).qps = s.qps := rfl
@[simp] theorem setTblSlot_mrs : (s.setTblSlot n xTb).mrs = s.mrs := rfl
@[simp] theorem setTblSlot_xch : (s.setTblSlot n xTb).xch = s.xch := rfl
@[simp] theorem setTblSlot_wins : (s.setTblSlot n xTb).wins = s.wins := rfl
@[simp] theorem setTblSlot_lines : (s.setTblSlot n xTb).lines = s.lines := rfl
@[simp] theorem setTblSlot_convs : (s.setTblSlot n xTb).convs = s.convs := rfl
@[simp] theorem setTblSlot_links : (s.setTblSlot n xTb).links = s.links := rfl
@[simp] theorem setTblSlot_cptOp : (s.setTblSlot n xTb).cptOp = s.cptOp := rfl
@[simp] theorem setTblSlot_tests : (s.setTblSlot n xTb).tests = s.tests := rfl
@[simp] theorem setTblSlot_recovering : (s.setTblSlot n xTb).recovering = s.recovering := rfl
@[simp] theorem setTblSlot_inspectOn : (s.setTblSlot n xTb).inspectOn = s.inspectOn := rfl
@[simp] theorem setTblSlot_clocks : (s.setTblSlot n xTb).clocks = s.clocks := rfl
@[simp] theorem setTblSlot_budgets : (s.setTblSlot n xTb).budgets = s.budgets := rfl
@[simp] theorem setTblSlot_panel : (s.setTblSlot n xTb).panel = s.panel := rfl
@[simp] theorem setTblSlot_conn : (s.setTblSlot n xTb).conn = s.conn := rfl
@[simp] theorem setTblSlot_bar4 : (s.setTblSlot n xTb).bar4 = s.bar4 := rfl
@[simp] theorem setTblSlot_hot : (s.setTblSlot n xTb).hot = s.hot := rfl
@[simp] theorem setTblSlot_netOut : (s.setTblSlot n xTb).netOut = s.netOut := rfl
@[simp] theorem setTblSlot_netWait : (s.setTblSlot n xTb).netWait = s.netWait := rfl
@[simp] theorem setTblSlot_paused : (s.setTblSlot n xTb).paused = s.paused := rfl
@[simp] theorem setTblSlot_ptp : (s.setTblSlot n xTb).ptp = s.ptp := rfl
@[simp] theorem setTblSlot_keys : (s.setTblSlot n xTb).keys = s.keys := rfl
@[simp] theorem setTblSlot_sweeps : (s.setTblSlot n xTb).sweeps = s.sweeps := rfl
@[simp] theorem setTblSlot_tblM : (s.setTblSlot n xTb).tblM = s.tblM := rfl
@[simp] theorem setTblSlot_telem : (s.setTblSlot n xTb).telem = s.telem := rfl
@[simp] theorem setTblSlot_telemAt : (s.setTblSlot n xTb).telemAt = s.telemAt := rfl
@[simp] theorem setTblSlot_chanAt : (s.setTblSlot n xTb).chanAt = s.chanAt := rfl
@[simp] theorem setTblSlot_free : (s.setTblSlot n xTb).free = s.free := rfl
@[simp] theorem setTblSlot_imsic : (s.setTblSlot n xTb).imsic = s.imsic := rfl
@[simp] theorem setTblSlot_routes : (s.setTblSlot n xTb).routes = s.routes := rfl
@[simp] theorem setTblSlot_msix : (s.setTblSlot n xTb).msix = s.msix := rfl

/-! ### `setDs` -/

@[simp] theorem setDs_pending : (s.setDs n xD).pending = s.pending := rfl
@[simp] theorem setDs_base : (s.setDs n xD).base = s.base := rfl
@[simp] theorem setDs_aon : (s.setDs n xD).aon = s.aon := rfl
@[simp] theorem setDs_modT : (s.setDs n xD).modT = s.modT := rfl
@[simp] theorem setDs_fuses : (s.setDs n xD).fuses = s.fuses := rfl
@[simp] theorem setDs_mem : (s.setDs n xD).mem = s.mem := rfl
@[simp] theorem setDs_file : (s.setDs n xD).file = s.file := rfl
@[simp] theorem setDs_regs : (s.setDs n xD).regs = s.regs := rfl
@[simp] theorem setDs_tvB : (s.setDs n xD).tvB = s.tvB := rfl
@[simp] theorem setDs_tvC : (s.setDs n xD).tvC = s.tvC := rfl
@[simp] theorem setDs_heldLo : (s.setDs n xD).heldLo = s.heldLo := rfl
@[simp] theorem setDs_latchHi : (s.setDs n xD).latchHi = s.latchHi := rfl
@[simp] theorem setDs_msiq : (s.setDs n xD).msiq = s.msiq := rfl
@[simp] theorem setDs_log : (s.setDs n xD).log = s.log := rfl
@[simp] theorem setDs_events : (s.setDs n xD).events = s.events := rfl
@[simp] theorem setDs_answers : (s.setDs n xD).answers = s.answers := rfl
@[simp] theorem setDs_bad : (s.setDs n xD).bad = s.bad := rfl
@[simp] theorem setDs_owners : (s.setDs n xD).owners = s.owners := rfl
@[simp] theorem setDs_tallies : (s.setDs n xD).tallies = s.tallies := rfl
@[simp] theorem setDs_harts : (s.setDs n xD).harts = s.harts := rfl
@[simp] theorem setDs_chans : (s.setDs n xD).chans = s.chans := rfl
@[simp] theorem setDs_ledger : (s.setDs n xD).ledger = s.ledger := rfl
@[simp] theorem setDs_streams : (s.setDs n xD).streams = s.streams := rfl
@[simp] theorem setDs_engines : (s.setDs n xD).engines = s.engines := rfl
@[simp] theorem setDs_place : (s.setDs n xD).place = s.place := rfl
@[simp] theorem setDs_qps : (s.setDs n xD).qps = s.qps := rfl
@[simp] theorem setDs_mrs : (s.setDs n xD).mrs = s.mrs := rfl
@[simp] theorem setDs_xch : (s.setDs n xD).xch = s.xch := rfl
@[simp] theorem setDs_wins : (s.setDs n xD).wins = s.wins := rfl
@[simp] theorem setDs_lines : (s.setDs n xD).lines = s.lines := rfl
@[simp] theorem setDs_convs : (s.setDs n xD).convs = s.convs := rfl
@[simp] theorem setDs_links : (s.setDs n xD).links = s.links := rfl
@[simp] theorem setDs_cptOp : (s.setDs n xD).cptOp = s.cptOp := rfl
@[simp] theorem setDs_tests : (s.setDs n xD).tests = s.tests := rfl
@[simp] theorem setDs_recovering : (s.setDs n xD).recovering = s.recovering := rfl
@[simp] theorem setDs_inspectOn : (s.setDs n xD).inspectOn = s.inspectOn := rfl
@[simp] theorem setDs_clocks : (s.setDs n xD).clocks = s.clocks := rfl
@[simp] theorem setDs_budgets : (s.setDs n xD).budgets = s.budgets := rfl
@[simp] theorem setDs_panel : (s.setDs n xD).panel = s.panel := rfl
@[simp] theorem setDs_conn : (s.setDs n xD).conn = s.conn := rfl
@[simp] theorem setDs_bar4 : (s.setDs n xD).bar4 = s.bar4 := rfl
@[simp] theorem setDs_tables : (s.setDs n xD).tables = s.tables := rfl
@[simp] theorem setDs_hot : (s.setDs n xD).hot = s.hot := rfl
@[simp] theorem setDs_netOut : (s.setDs n xD).netOut = s.netOut := rfl
@[simp] theorem setDs_netWait : (s.setDs n xD).netWait = s.netWait := rfl
@[simp] theorem setDs_paused : (s.setDs n xD).paused = s.paused := rfl
@[simp] theorem setDs_ptp : (s.setDs n xD).ptp = s.ptp := rfl
@[simp] theorem setDs_keys : (s.setDs n xD).keys = s.keys := rfl
@[simp] theorem setDs_sweeps : (s.setDs n xD).sweeps = s.sweeps := rfl
@[simp] theorem setDs_tblM : (s.setDs n xD).tblM = s.tblM := rfl
@[simp] theorem setDs_telem : (s.setDs n xD).telem = s.telem := rfl
@[simp] theorem setDs_telemAt : (s.setDs n xD).telemAt = s.telemAt := rfl
@[simp] theorem setDs_chanAt : (s.setDs n xD).chanAt = s.chanAt := rfl
@[simp] theorem setDs_free : (s.setDs n xD).free = s.free := rfl
@[simp] theorem setDs_imsic : (s.setDs n xD).imsic = s.imsic := rfl
@[simp] theorem setDs_routes : (s.setDs n xD).routes = s.routes := rfl
@[simp] theorem setDs_msix : (s.setDs n xD).msix = s.msix := rfl

/-! ### `setXch` -/

@[simp] theorem setXch_pending : (s.setXch n xX).pending = s.pending := rfl
@[simp] theorem setXch_base : (s.setXch n xX).base = s.base := rfl
@[simp] theorem setXch_aon : (s.setXch n xX).aon = s.aon := rfl
@[simp] theorem setXch_modT : (s.setXch n xX).modT = s.modT := rfl
@[simp] theorem setXch_fuses : (s.setXch n xX).fuses = s.fuses := rfl
@[simp] theorem setXch_mem : (s.setXch n xX).mem = s.mem := rfl
@[simp] theorem setXch_file : (s.setXch n xX).file = s.file := rfl
@[simp] theorem setXch_regs : (s.setXch n xX).regs = s.regs := rfl
@[simp] theorem setXch_tvB : (s.setXch n xX).tvB = s.tvB := rfl
@[simp] theorem setXch_tvC : (s.setXch n xX).tvC = s.tvC := rfl
@[simp] theorem setXch_heldLo : (s.setXch n xX).heldLo = s.heldLo := rfl
@[simp] theorem setXch_latchHi : (s.setXch n xX).latchHi = s.latchHi := rfl
@[simp] theorem setXch_msiq : (s.setXch n xX).msiq = s.msiq := rfl
@[simp] theorem setXch_log : (s.setXch n xX).log = s.log := rfl
@[simp] theorem setXch_events : (s.setXch n xX).events = s.events := rfl
@[simp] theorem setXch_answers : (s.setXch n xX).answers = s.answers := rfl
@[simp] theorem setXch_bad : (s.setXch n xX).bad = s.bad := rfl
@[simp] theorem setXch_owners : (s.setXch n xX).owners = s.owners := rfl
@[simp] theorem setXch_tallies : (s.setXch n xX).tallies = s.tallies := rfl
@[simp] theorem setXch_harts : (s.setXch n xX).harts = s.harts := rfl
@[simp] theorem setXch_chans : (s.setXch n xX).chans = s.chans := rfl
@[simp] theorem setXch_ledger : (s.setXch n xX).ledger = s.ledger := rfl
@[simp] theorem setXch_streams : (s.setXch n xX).streams = s.streams := rfl
@[simp] theorem setXch_engines : (s.setXch n xX).engines = s.engines := rfl
@[simp] theorem setXch_place : (s.setXch n xX).place = s.place := rfl
@[simp] theorem setXch_ds : (s.setXch n xX).ds = s.ds := rfl
@[simp] theorem setXch_qps : (s.setXch n xX).qps = s.qps := rfl
@[simp] theorem setXch_mrs : (s.setXch n xX).mrs = s.mrs := rfl
@[simp] theorem setXch_wins : (s.setXch n xX).wins = s.wins := rfl
@[simp] theorem setXch_lines : (s.setXch n xX).lines = s.lines := rfl
@[simp] theorem setXch_convs : (s.setXch n xX).convs = s.convs := rfl
@[simp] theorem setXch_links : (s.setXch n xX).links = s.links := rfl
@[simp] theorem setXch_cptOp : (s.setXch n xX).cptOp = s.cptOp := rfl
@[simp] theorem setXch_tests : (s.setXch n xX).tests = s.tests := rfl
@[simp] theorem setXch_recovering : (s.setXch n xX).recovering = s.recovering := rfl
@[simp] theorem setXch_inspectOn : (s.setXch n xX).inspectOn = s.inspectOn := rfl
@[simp] theorem setXch_clocks : (s.setXch n xX).clocks = s.clocks := rfl
@[simp] theorem setXch_budgets : (s.setXch n xX).budgets = s.budgets := rfl
@[simp] theorem setXch_panel : (s.setXch n xX).panel = s.panel := rfl
@[simp] theorem setXch_conn : (s.setXch n xX).conn = s.conn := rfl
@[simp] theorem setXch_bar4 : (s.setXch n xX).bar4 = s.bar4 := rfl
@[simp] theorem setXch_tables : (s.setXch n xX).tables = s.tables := rfl
@[simp] theorem setXch_hot : (s.setXch n xX).hot = s.hot := rfl
@[simp] theorem setXch_netOut : (s.setXch n xX).netOut = s.netOut := rfl
@[simp] theorem setXch_netWait : (s.setXch n xX).netWait = s.netWait := rfl
@[simp] theorem setXch_paused : (s.setXch n xX).paused = s.paused := rfl
@[simp] theorem setXch_ptp : (s.setXch n xX).ptp = s.ptp := rfl
@[simp] theorem setXch_keys : (s.setXch n xX).keys = s.keys := rfl
@[simp] theorem setXch_sweeps : (s.setXch n xX).sweeps = s.sweeps := rfl
@[simp] theorem setXch_tblM : (s.setXch n xX).tblM = s.tblM := rfl
@[simp] theorem setXch_telem : (s.setXch n xX).telem = s.telem := rfl
@[simp] theorem setXch_telemAt : (s.setXch n xX).telemAt = s.telemAt := rfl
@[simp] theorem setXch_chanAt : (s.setXch n xX).chanAt = s.chanAt := rfl
@[simp] theorem setXch_free : (s.setXch n xX).free = s.free := rfl
@[simp] theorem setXch_imsic : (s.setXch n xX).imsic = s.imsic := rfl
@[simp] theorem setXch_routes : (s.setXch n xX).routes = s.routes := rfl
@[simp] theorem setXch_msix : (s.setXch n xX).msix = s.msix := rfl

/-! ### `setConv` -/

@[simp] theorem setConv_pending : (s.setConv n xV).pending = s.pending := rfl
@[simp] theorem setConv_base : (s.setConv n xV).base = s.base := rfl
@[simp] theorem setConv_aon : (s.setConv n xV).aon = s.aon := rfl
@[simp] theorem setConv_modT : (s.setConv n xV).modT = s.modT := rfl
@[simp] theorem setConv_fuses : (s.setConv n xV).fuses = s.fuses := rfl
@[simp] theorem setConv_mem : (s.setConv n xV).mem = s.mem := rfl
@[simp] theorem setConv_file : (s.setConv n xV).file = s.file := rfl
@[simp] theorem setConv_regs : (s.setConv n xV).regs = s.regs := rfl
@[simp] theorem setConv_tvB : (s.setConv n xV).tvB = s.tvB := rfl
@[simp] theorem setConv_tvC : (s.setConv n xV).tvC = s.tvC := rfl
@[simp] theorem setConv_heldLo : (s.setConv n xV).heldLo = s.heldLo := rfl
@[simp] theorem setConv_latchHi : (s.setConv n xV).latchHi = s.latchHi := rfl
@[simp] theorem setConv_msiq : (s.setConv n xV).msiq = s.msiq := rfl
@[simp] theorem setConv_log : (s.setConv n xV).log = s.log := rfl
@[simp] theorem setConv_events : (s.setConv n xV).events = s.events := rfl
@[simp] theorem setConv_answers : (s.setConv n xV).answers = s.answers := rfl
@[simp] theorem setConv_bad : (s.setConv n xV).bad = s.bad := rfl
@[simp] theorem setConv_owners : (s.setConv n xV).owners = s.owners := rfl
@[simp] theorem setConv_tallies : (s.setConv n xV).tallies = s.tallies := rfl
@[simp] theorem setConv_harts : (s.setConv n xV).harts = s.harts := rfl
@[simp] theorem setConv_chans : (s.setConv n xV).chans = s.chans := rfl
@[simp] theorem setConv_ledger : (s.setConv n xV).ledger = s.ledger := rfl
@[simp] theorem setConv_streams : (s.setConv n xV).streams = s.streams := rfl
@[simp] theorem setConv_engines : (s.setConv n xV).engines = s.engines := rfl
@[simp] theorem setConv_place : (s.setConv n xV).place = s.place := rfl
@[simp] theorem setConv_ds : (s.setConv n xV).ds = s.ds := rfl
@[simp] theorem setConv_qps : (s.setConv n xV).qps = s.qps := rfl
@[simp] theorem setConv_mrs : (s.setConv n xV).mrs = s.mrs := rfl
@[simp] theorem setConv_xch : (s.setConv n xV).xch = s.xch := rfl
@[simp] theorem setConv_wins : (s.setConv n xV).wins = s.wins := rfl
@[simp] theorem setConv_lines : (s.setConv n xV).lines = s.lines := rfl
@[simp] theorem setConv_links : (s.setConv n xV).links = s.links := rfl
@[simp] theorem setConv_cptOp : (s.setConv n xV).cptOp = s.cptOp := rfl
@[simp] theorem setConv_tests : (s.setConv n xV).tests = s.tests := rfl
@[simp] theorem setConv_recovering : (s.setConv n xV).recovering = s.recovering := rfl
@[simp] theorem setConv_inspectOn : (s.setConv n xV).inspectOn = s.inspectOn := rfl
@[simp] theorem setConv_clocks : (s.setConv n xV).clocks = s.clocks := rfl
@[simp] theorem setConv_budgets : (s.setConv n xV).budgets = s.budgets := rfl
@[simp] theorem setConv_panel : (s.setConv n xV).panel = s.panel := rfl
@[simp] theorem setConv_conn : (s.setConv n xV).conn = s.conn := rfl
@[simp] theorem setConv_bar4 : (s.setConv n xV).bar4 = s.bar4 := rfl
@[simp] theorem setConv_tables : (s.setConv n xV).tables = s.tables := rfl
@[simp] theorem setConv_hot : (s.setConv n xV).hot = s.hot := rfl
@[simp] theorem setConv_netOut : (s.setConv n xV).netOut = s.netOut := rfl
@[simp] theorem setConv_netWait : (s.setConv n xV).netWait = s.netWait := rfl
@[simp] theorem setConv_paused : (s.setConv n xV).paused = s.paused := rfl
@[simp] theorem setConv_ptp : (s.setConv n xV).ptp = s.ptp := rfl
@[simp] theorem setConv_keys : (s.setConv n xV).keys = s.keys := rfl
@[simp] theorem setConv_sweeps : (s.setConv n xV).sweeps = s.sweeps := rfl
@[simp] theorem setConv_tblM : (s.setConv n xV).tblM = s.tblM := rfl
@[simp] theorem setConv_telem : (s.setConv n xV).telem = s.telem := rfl
@[simp] theorem setConv_telemAt : (s.setConv n xV).telemAt = s.telemAt := rfl
@[simp] theorem setConv_chanAt : (s.setConv n xV).chanAt = s.chanAt := rfl
@[simp] theorem setConv_free : (s.setConv n xV).free = s.free := rfl
@[simp] theorem setConv_imsic : (s.setConv n xV).imsic = s.imsic := rfl
@[simp] theorem setConv_routes : (s.setConv n xV).routes = s.routes := rfl
@[simp] theorem setConv_msix : (s.setConv n xV).msix = s.msix := rfl

/-! ### Registers under updates of other state -/

/-- A word depends on the registers and the fuses alone. -/
theorem word_congr (t : State) (h : t.regs = s.regs) (hf : t.fuses = s.fuses) : t.word pg off b = s.word pg off b := by
  unfold word; rw [h, hf]

theorem getF_congr (t : State) (h : t.regs = s.regs) (hf : t.fuses = s.fuses) : t.getF pg f b = s.getF pg f b := by
  unfold getF; rw [word_congr s pg f.off b t h hf]

@[simp] theorem sendMsi_word : (s.sendMsi n).word pg off b = s.word pg off b := rfl
@[simp] theorem sendMsi_getF : (s.sendMsi n).getF pg f b = s.getF pg f b := rfl
@[simp] theorem pldm_word : (s.pldm e).word pg off b = s.word pg off b := rfl
@[simp] theorem pldm_getF : (s.pldm e).getF pg f b = s.getF pg f b := rfl
@[simp] theorem answer_word : (s.answer r k bs).word pg off b = s.word pg off b := rfl
@[simp] theorem answer_getF : (s.answer r k bs).getF pg f b = s.getF pg f b := rfl
@[simp] theorem summary_word : (s.summary g).word pg off b = s.word pg off b := rfl
@[simp] theorem summary_getF : (s.summary g).getF pg f b = s.getF pg f b := rfl
@[simp] theorem setOwner_word : (s.setOwner n m v).word pg off b = s.word pg off b := rfl
@[simp] theorem setOwner_getF : (s.setOwner n m v).getF pg f b = s.getF pg f b := rfl
@[simp] theorem setEntry_word : (s.setEntry n v).word pg off b = s.word pg off b := rfl
@[simp] theorem setEntry_getF : (s.setEntry n v).getF pg f b = s.getF pg f b := rfl
@[simp] theorem setLine_word : (s.setLine n xN).word pg off b = s.word pg off b := rfl
@[simp] theorem setLine_getF : (s.setLine n xN).getF pg f b = s.getF pg f b := rfl
@[simp] theorem setStream_word : (s.setStream d n xS).word pg off b = s.word pg off b := rfl
@[simp] theorem setStream_getF : (s.setStream d n xS).getF pg f b = s.getF pg f b := rfl
@[simp] theorem setEngine_word : (s.setEngine d n xE).word pg off b = s.word pg off b := rfl
@[simp] theorem setEngine_getF : (s.setEngine d n xE).getF pg f b = s.getF pg f b := rfl
@[simp] theorem setTally_word : (s.setTally n xT).word pg off b = s.word pg off b := rfl
@[simp] theorem setTally_getF : (s.setTally n xT).getF pg f b = s.getF pg f b := rfl
@[simp] theorem setHart_word : (s.setHart n xH).word pg off b = s.word pg off b := rfl
@[simp] theorem setHart_getF : (s.setHart n xH).getF pg f b = s.getF pg f b := rfl
@[simp] theorem setChan_word : (s.setChan d n xC).word pg off b = s.word pg off b := rfl
@[simp] theorem setChan_getF : (s.setChan d n xC).getF pg f b = s.getF pg f b := rfl
@[simp] theorem setQp_word : (s.setQp n xQ).word pg off b = s.word pg off b := rfl
@[simp] theorem setQp_getF : (s.setQp n xQ).getF pg f b = s.getF pg f b := rfl
@[simp] theorem setLink_word : (s.setLink d n xL).word pg off b = s.word pg off b := rfl
@[simp] theorem setLink_getF : (s.setLink d n xL).getF pg f b = s.getF pg f b := rfl
@[simp] theorem setBudget_word : (s.setBudget d xB).word pg off b = s.word pg off b := rfl
@[simp] theorem setBudget_getF : (s.setBudget d xB).getF pg f b = s.getF pg f b := rfl
@[simp] theorem setTblSlot_word : (s.setTblSlot n xTb).word pg off b = s.word pg off b := rfl
@[simp] theorem setTblSlot_getF : (s.setTblSlot n xTb).getF pg f b = s.getF pg f b := rfl
@[simp] theorem setDs_word : (s.setDs n xD).word pg off b = s.word pg off b := rfl
@[simp] theorem setDs_getF : (s.setDs n xD).getF pg f b = s.getF pg f b := rfl
@[simp] theorem setXch_word : (s.setXch n xX).word pg off b = s.word pg off b := rfl
@[simp] theorem setXch_getF : (s.setXch n xX).getF pg f b = s.getF pg f b := rfl
@[simp] theorem setConv_word : (s.setConv n xV).word pg off b = s.word pg off b := rfl
@[simp] theorem setConv_getF : (s.setConv n xV).getF pg f b = s.getF pg f b := rfl

end Sys2Proof.Machine.State
end

