-- ==== Sys2Proof/Laws/Registers.lean ====
section
/-! SUPPORT. Fields and words of registers: what a write leaves in the field written, in the other fields of its word and in other
words. -/

namespace Sys2Proof.Machine

/-! ### Bits -/

theorem bitsOf_lt (v lo w : Nat) : bitsOf v lo w < 2 ^ w := Nat.mod_lt _ (Nat.two_pow_pos w)

/-- The three parts of a number about the field [w+lo-1:lo]. -/
theorem split_bits (v lo w : Nat) : v = v / 2 ^ (lo + w) * 2 ^ (lo + w) + bitsOf v lo w * 2 ^ lo + v % 2 ^ lo := by
  unfold bitsOf
  rw [Nat.shiftRight_eq_div_pow]
  have h1 := Nat.div_add_mod v (2 ^ lo)
  have h2 := Nat.div_add_mod (v / 2 ^ lo) (2 ^ w)
  rw [Nat.div_div_eq_div_mul, ← Nat.pow_add] at h2
  generalize v / 2 ^ (lo + w) = h at *
  generalize v / 2 ^ lo % 2 ^ w = m at *
  have e : h * 2 ^ (lo + w) = 2 ^ lo * (2 ^ w * h) := by rw [Nat.pow_add]; ac_rfl
  rw [e, Nat.mul_comm m, ← Nat.mul_add, h2]; omega

theorem putBits_eq (v lo w x : Nat) :
    putBits v lo w x = v / 2 ^ (lo + w) * 2 ^ (lo + w) + x % 2 ^ w * 2 ^ lo + v % 2 ^ lo := by
  have h := split_bits v lo w
  unfold putBits
  rw [Nat.shiftLeft_eq, Nat.shiftLeft_eq]
  omega

/-- A number composed about a field reads back its parts. -/
theorem parts (h m l lo w : Nat) (hl : l < 2 ^ lo) :
    (h * 2 ^ (lo + w) + m * 2 ^ lo + l) / 2 ^ lo = h * 2 ^ w + m ∧ (h * 2 ^ (lo + w) + m * 2 ^ lo + l) % 2 ^ lo = l := by
  have e : h * 2 ^ (lo + w) + m * 2 ^ lo + l = 2 ^ lo * (h * 2 ^ w + m) + l := by
    rw [Nat.pow_add, Nat.mul_add]; ac_rfl
  rw [e]
  constructor
  · rw [Nat.mul_add_div (Nat.two_pow_pos lo), Nat.div_eq_of_lt hl, Nat.add_zero]
  · rw [Nat.mul_add_mod, Nat.mod_eq_of_lt hl]

/-- The field written reads as what was written to it. -/
theorem bitsOf_putBits (v lo w x : Nat) : bitsOf (putBits v lo w x) lo w = x % 2 ^ w := by
  have hp := (parts (v / 2 ^ (lo + w)) (x % 2 ^ w) (v % 2 ^ lo) lo w
    (Nat.mod_lt _ (Nat.two_pow_pos lo))).1
  rw [bitsOf, Nat.shiftRight_eq_div_pow, putBits_eq, hp, Nat.add_comm, Nat.add_mul_mod_self_right, Nat.mod_mod]

/-- A field below the one written stays. -/
theorem bitsOf_putBits_below (v lo w x lo' w' : Nat) (h : lo' + w' ≤ lo) : bitsOf (putBits v lo w x) lo' w' = bitsOf v lo' w' := by
  have hp := (parts (v / 2 ^ (lo + w)) (x % 2 ^ w) (v % 2 ^ lo) lo w
    (Nat.mod_lt _ (Nat.two_pow_pos lo))).2
  have key : ∀ a c : Nat, a % 2 ^ lo = c % 2 ^ lo → bitsOf a lo' w' = bitsOf c lo' w' := by
    intro a c hac
    apply Nat.eq_of_testBit_eq
    intro i
    unfold bitsOf
    rw [Nat.testBit_mod_two_pow, Nat.testBit_mod_two_pow, Nat.testBit_shiftRight, Nat.testBit_shiftRight]
    by_cases hi : i < w'
    · have := congrArg (fun z => z.testBit (lo' + i)) hac
      simp only [Nat.testBit_mod_two_pow, show lo' + i < lo by omega, decide_true, Bool.true_and] at this
      simp [hi, this]
    · simp [hi]
  apply key
  rw [putBits_eq, hp]

/-- A field above the one written stays. -/
theorem bitsOf_putBits_above (v lo w x lo' w' : Nat) (h : lo + w ≤ lo') : bitsOf (putBits v lo w x) lo' w' = bitsOf v lo' w' := by
  have hp : putBits v lo w x / 2 ^ (lo + w) = v / 2 ^ (lo + w) := by
    have hp := (parts (v / 2 ^ (lo + w)) (x % 2 ^ w) (v % 2 ^ lo) lo w
      (Nat.mod_lt _ (Nat.two_pow_pos lo))).1
    rw [Nat.pow_add, ← Nat.div_div_eq_div_mul, putBits_eq, Nat.pow_add]
    rw [Nat.pow_add] at hp
    rw [hp, Nat.add_comm, Nat.mul_comm, Nat.add_mul_div_left _ _ (Nat.two_pow_pos w),
      Nat.div_eq_of_lt (Nat.mod_lt _ (Nat.two_pow_pos w))]
    omega
  unfold bitsOf
  rw [Nat.shiftRight_eq_div_pow, Nat.shiftRight_eq_div_pow]
  have e : 2 ^ lo' = 2 ^ (lo + w) * 2 ^ (lo' - (lo + w)) := by rw [← Nat.pow_add]; congr 1; omega
  rw [e, ← Nat.div_div_eq_div_mul, ← Nat.div_div_eq_div_mul, hp]

/-- A field within the low `n` bits reads the same modulo 2^n. -/
theorem bitsOf_mod (v lo w n : Nat) (h : lo + w ≤ n) : bitsOf (v % 2 ^ n) lo w = bitsOf v lo w := by
  apply Nat.eq_of_testBit_eq
  intro i
  unfold bitsOf
  rw [Nat.testBit_mod_two_pow, Nat.testBit_mod_two_pow, Nat.testBit_shiftRight, Nat.testBit_shiftRight, Nat.testBit_mod_two_pow]
  by_cases hi : i < w
  · simp [hi, show lo + i < n by omega]
  · simp [hi]

namespace State

/-! ### Words -/

/-- The word written reads as what was written, cut to 32 bits. -/
@[simp] theorem word_setWord_same (s : State) (pg : Page) (off v b : Nat) : (s.setWord pg off v b).word pg off b = v % 2 ^ 32 := by
  simp [word, setWord, SMap.find_put_same]

/-- A word of another key stays. -/
theorem word_setWord_other (s : State) (pg pg' : Page) (off off' v b b' : Nat) (h : regKey pg' off' b' ≠ regKey pg off b) :
    (s.setWord pg off v b).word pg' off' b' = s.word pg' off' b' := by
  simp [word, setWord, SMap.find_put_other _ _ _ _ h]

/-- The field written reads as what was written, cut to its width. -/
theorem getF_setF_same (s : State) (pg : Page) (f : Fld) (v b : Nat) (hf : f.lo + f.w ≤ 32) :
    (s.setF pg f v b).getF pg f b = v % 2 ^ f.w := by
  unfold getF setF
  rw [word_setWord_same, bitsOf_mod _ _ _ _ hf, bitsOf_putBits]

/-- Another field of the word written stays. -/
theorem getF_setF_beside (s : State) (pg : Page) (f g : Fld) (v b : Nat) (ho : g.off = f.off) (hg : g.lo + g.w ≤ 32)
    (h : g.lo + g.w ≤ f.lo ∨ f.lo + f.w ≤ g.lo) : (s.setF pg f v b).getF pg g b = s.getF pg g b := by
  unfold getF setF
  rw [ho, word_setWord_same, bitsOf_mod _ _ _ _ hg]
  rcases h with h | h
  · exact bitsOf_putBits_below _ _ _ _ _ _ h
  · exact bitsOf_putBits_above _ _ _ _ _ _ h

/-- A field of a word of another key stays. -/
theorem getF_setF_other (s : State) (pg pg' : Page) (f g : Fld) (v b b' : Nat) (h : regKey pg' g.off b' ≠ regKey pg f.off b) :
    (s.setF pg f v b).getF pg' g b' = s.getF pg' g b' := by
  unfold getF setF
  rw [word_setWord_other _ _ _ _ _ _ _ _ h]

theorem getF_setWord_other (s : State) (pg pg' : Page) (g : Fld) (off v b b' : Nat) (h : regKey pg' g.off b' ≠ regKey pg off b) :
    (s.setWord pg off v b).getF pg' g b' = s.getF pg' g b' := by
  unfold getF; rw [word_setWord_other _ _ _ _ _ _ _ _ h]

end State

/-! ### Keys of registers -/

theorem dieCode_lt (d : Die) : dieCode d < 16 := by cases d <;> decide

theorem dieCode_inj (d e : Die) (h : dieCode d = dieCode e) : d = e := by cases d <;> cases e <;> first | rfl | exact absurd h (by decide)

theorem blkCode_lt (b : Blk) : blkCode b < 128 := by cases b <;> decide

theorem blkCode_inj (a b : Blk) (h : blkCode a = blkCode b) : a = b := by cases a <;> cases b <;> first | rfl | exact absurd h (by decide)

/-- Pages of different die, block type or instance have different numbers (R518). -/
theorem pageNo_inj (p q : Page) (hp : p.inst < 256) (hq : q.inst < 256) (h : pageNo p = pageNo q) : p = q := by
  obtain ⟨d, b, i⟩ := p
  obtain ⟨e, c, j⟩ := q
  have hb := blkCode_lt b
  have hc := blkCode_lt c
  simp only [pageNo, Nat.shiftLeft_eq] at h hp hq
  have h1 : dieCode d = dieCode e := by omega
  have h2 : blkCode b = blkCode c := by omega
  have h3 : i = j := by omega
  rw [dieCode_inj d e h1, blkCode_inj b c h2, h3]

/-- Different words of pages, or items of a selected register, have different keys. -/
theorem regKey_inj (p q : Page) (o o' b b' : Nat) (hp : p.inst < 256) (hq : q.inst < 256) (ho : o < 4096) (ho' : o' < 4096)
    (hb : b < 2 ^ 24) (hb' : b' < 2 ^ 24) (h : regKey p o b = regKey q o' b') : p = q ∧ o / 4 = o' / 4 ∧ b = b' := by
  unfold regKey at h
  have h1 : pageNo p = pageNo q := by omega
  exact ⟨pageNo_inj p q hp hq h1, by omega, by omega⟩

end Sys2Proof.Machine
end

