-- ==== Sys2Proof/Laws/Memory.lean ====
section
/-! SUPPORT. What the shared operations on device memory do: where they write, what they leave, and that they keep its canonical form. -/

namespace Sys2Proof.Machine.State

/-! ### Touches of lots change the placement alone (R207, R217) -/

/-- A touch changes nothing but the placement. -/
theorem touchLot_eq (s : State) (l : Nat) (wr : Bool) : ∃ p, s.touchLot l wr = { s with place := p } := by
  cases wr
  · exact ⟨_, rfl⟩
  · by_cases h : s.place.writebacks.contains l = true
    · simp only [touchLot, setEntry, h, if_true]
      exact ⟨_, rfl⟩
    · simp only [touchLot, setEntry, h, if_true]
      exact ⟨_, rfl⟩

theorem touchLots_eq (ls : List Nat) (wr : Bool) : ∀ s : State, ∃ p, ls.foldl (fun t l => t.touchLot l wr) s = { s with place := p } := by
  induction ls with
  | nil => intro s; exact ⟨s.place, rfl⟩
  | cons l t ih =>
    intro s
    obtain ⟨p, hp⟩ := touchLot_eq s l wr
    obtain ⟨q, hq⟩ := ih (s.touchLot l wr)
    exact ⟨q, by rw [List.foldl_cons, hq, hp]⟩

/-- A read's touch changes nothing but the placement. -/
theorem touchRead_eq (s : State) (a n : Nat) : ∃ p, s.touchRead a n = { s with place := p } := touchLots_eq _ _ _

@[simp] theorem touchRead_mem (s : State) (a n : Nat) : (s.touchRead a n).mem = s.mem := by
  obtain ⟨p, h⟩ := touchRead_eq s a n; rw [h]
@[simp] theorem touchRead_regs (s : State) (a n : Nat) : (s.touchRead a n).regs = s.regs := by
  obtain ⟨p, h⟩ := touchRead_eq s a n; rw [h]
@[simp] theorem touchRead_bad (s : State) (a n : Nat) : (s.touchRead a n).bad = s.bad := by
  obtain ⟨p, h⟩ := touchRead_eq s a n; rw [h]
@[simp] theorem touchRead_file (s : State) (a n : Nat) : (s.touchRead a n).file = s.file := by
  obtain ⟨p, h⟩ := touchRead_eq s a n; rw [h]

/-! ### The channels' account of a write (R253, R255, R261) -/

/-- An update of a channel controller: it changes channels, and words of the controllers' pages in banks 0 to 31, alone. -/
def ChanOnly (s t : State) : Prop :=
  (∃ c r, t = { s with chans := c, regs := r }) ∧
  ∀ (pg : Page) (off b : Nat), pg.inst < 256 → pg.blk ≠ .hbmc → pg.blk ≠ .depc → off < 4096 → b < 2 ^ 24 → t.word pg off b = s.word pg off b

theorem ChanOnly.refl (s : State) : ChanOnly s s := ⟨⟨s.chans, s.regs, rfl⟩, fun _ _ _ _ _ _ _ _ => rfl⟩

theorem ChanOnly.trans {s t u : State} (h : ChanOnly s t) (g : ChanOnly t u) : ChanOnly s u := by
  obtain ⟨⟨c, r, rfl⟩, h⟩ := h
  obtain ⟨⟨c', r', rfl⟩, g⟩ := g
  exact ⟨⟨c', r', rfl⟩, fun pg off b h1 h2 h3 h4 h5 => (g pg off b h1 h2 h3 h4 h5).trans (h pg off b h1 h2 h3 h4 h5)⟩

theorem memPg_blk (d : Die) : ((memPg d).blk = .hbmc ∨ (memPg d).blk = .depc) ∧ (memPg d).inst = 0 := by
  unfold memPg; split <;> simp

/-- A field of a controller's page set. -/
theorem ChanOnly.setF (s : State) (d : Die) (f : Fld) (v b : Nat) (hb : b < 2 ^ 24) (hf : f.off < 4096) :
    ChanOnly s (s.setF (memPg d) f v b) := by
  refine ⟨⟨s.chans, _, rfl⟩, fun pg off b' h1 h2 h3 h4 h5 => word_setWord_other _ _ _ _ _ _ _ _ fun h => ?_⟩
  have := memPg_blk d
  have h' := regKey_inj pg (memPg d) off f.off b' b h1 (by omega) h4 hf h5 hb h
  rw [← h'.1] at this
  simp_all

theorem ChanOnly.setChan (s : State) (d : Die) (ch : Nat) (x : Chan) : ChanOnly s (s.setChan d ch x) :=
  ⟨⟨_, s.regs, rfl⟩, fun _ _ _ _ _ _ _ _ => rfl⟩

theorem foldXor_lt (w k : Nat) : ∀ v, foldXor v w k < 2 ^ w := by
  induction k with
  | zero => intro v; exact Nat.two_pow_pos w
  | succ n ih => intro v; exact Nat.xor_lt_two_pow (Nat.mod_lt _ (Nat.two_pow_pos w)) (ih _)

theorem nearCw_ch (l off : Nat) : (nearCw l off).ch < 32 := by
  simp only [nearCw]
  split
  · exact Nat.mod_lt _ (by decide)
  · exact foldXor_lt 5 6 _

theorem depotCw_ch (chans : List Nat) (pa : Nat) : (depotCw chans pa).ch < 32 := by
  simp only [depotCw]
  split <;> exact Nat.mod_lt _ (by decide)

/-- A codeword lies on one of 32 channels. -/
theorem cwOf_ch (s : State) (a : Nat) (w : Cw) (h : s.cwOf a = some w) : w.ch < 32 := by
  unfold cwOf at h
  rw [Option.map_eq_some_iff] at h
  obtain ⟨p, -, rfl⟩ := h
  split
  · exact nearCw_ch _ _
  · exact depotCw_ch _ _

theorem noteUe_chanOnly (s : State) (w : Cw) (pa : Nat) (h : w.ch < 32) : ChanOnly s (s.noteUe w pa) := by
  unfold noteUe bump
  dsimp only
  split <;> exact ((ChanOnly.setF _ _ _ _ _ (by omega) (by decide)).trans (ChanOnly.setF _ _ _ _ _ (by decide) (by decide))).trans
    (ChanOnly.setF _ _ _ _ _ (by decide) (by decide))

theorem checkCache_chanOnly (s : State) (w : Cw) (h : w.ch < 32) : ChanOnly s (s.checkCache w) := by
  unfold checkCache bump
  dsimp only
  split
  · exact .refl s
  · split
    · exact .setF _ _ _ _ _ (by omega) (by decide)
    · exact (ChanOnly.setF _ _ _ _ _ (by omega) (by decide)).trans (.setChan _ _ _ _)

theorem noteWrite_chanOnly (s : State) (x : Nat × Bool) : ChanOnly s (s.noteWrite x) := by
  unfold noteWrite
  split
  · next w hw =>
    have hc := cwOf_ch s _ w hw
    have h1 : ChanOnly s (if (!x.2 && isCap w.die) = true then s.bump (memPg w.die) Reg.DEPC_RMW 1 w.ch else s) := by
      split
      · exact ChanOnly.setF _ _ _ _ _ (by omega) (by decide)
      · exact .refl s
    dsimp only
    split
    · exact h1.trans (noteUe_chanOnly _ _ _ hc)
    · exact h1.trans (checkCache_chanOnly _ _ hc)
  · exact .refl s

theorem noteWrites_foldl (xs : List (Nat × Bool)) : ∀ s : State, ChanOnly s (xs.foldl noteWrite s) := by
  induction xs with
  | nil => exact ChanOnly.refl
  | cons x t ih => intro s; exact (noteWrite_chanOnly s x).trans (ih _)

/-- What the channels note of a write changes channels and their controllers' words alone. -/
theorem noteWrites_chanOnly (s : State) (a n : Nat) : ChanOnly s (s.noteWrites a n) := by
  have h : ChanOnly s ((sectorsOf a n).foldl noteWrite (s.settleNarrow a n)) :=
    ChanOnly.trans ⟨⟨_, s.regs, rfl⟩, fun _ _ _ _ _ _ _ _ => rfl⟩ (noteWrites_foldl _ _)
  unfold noteWrites
  split <;> first | exact h | exact .refl s

/-! ### Writes -/

/-- The bytes of device memory after a write of `bs` at `a`. -/
def wrMem (s : State) (a : Nat) (bs : Bytes) : Memory :=
  ((s.bad.filter fun b => !cwWhole a bs.length b).filter (cwHit a bs.length) ++ s.fencedCws a bs.length).foldl
    (fun acc b => Memory.writeBytes acc b.1 (Memory.readBytes s.mem b.1 b.2)) (Memory.writeBytes s.mem a bs)

/-- A write changes device memory, the marks of the codewords that it covers whole, the channels and their controllers' words, and the
placement of the lots it touches. -/
theorem wrBytes_eq (s : State) (a : Nat) (bs : Bytes) :
    ∃ u p, ChanOnly s u ∧
      s.wrBytes a bs = { u with mem := s.wrMem a bs, bad := s.bad.filter (fun b => !cwWhole a bs.length b), place := p } := by
  obtain ⟨p, h⟩ := touchLots_eq (lotsOf a bs.length) true
    { s.noteWrites a bs.length with mem := s.wrMem a bs, bad := s.bad.filter (fun b => !cwWhole a bs.length b) }
  exact ⟨_, p, noteWrites_chanOnly s a bs.length, h⟩

/-- A word of a page other than the controllers' stays. -/
theorem wrBytes_word (s : State) (a : Nat) (bs : Bytes) (pg : Page) (off b : Nat) (h1 : pg.inst < 256) (h2 : pg.blk ≠ .hbmc)
    (h3 : pg.blk ≠ .depc) (h4 : off < 4096) (h5 : b < 2 ^ 24) : (s.wrBytes a bs).word pg off b = s.word pg off b := by
  obtain ⟨u, p, hu, h⟩ := wrBytes_eq s a bs
  rw [h]
  exact hu.2 pg off b h1 h2 h3 h4 h5

@[simp] theorem wrBytes_mem (s : State) (a : Nat) (bs : Bytes) : (s.wrBytes a bs).mem = s.wrMem a bs := by
  obtain ⟨u, p, -, h⟩ := wrBytes_eq s a bs; rw [h]
@[simp] theorem wrBytes_fuses (s : State) (a : Nat) (bs : Bytes) : (s.wrBytes a bs).fuses = s.fuses := by
  obtain ⟨u, p, ⟨⟨c, r, rfl⟩, -⟩, h⟩ := wrBytes_eq s a bs; rw [h]
@[simp] theorem wrBytes_owners (s : State) (a : Nat) (bs : Bytes) : (s.wrBytes a bs).owners = s.owners := by
  obtain ⟨u, p, ⟨⟨c, r, rfl⟩, -⟩, h⟩ := wrBytes_eq s a bs; rw [h]
@[simp] theorem wrBytes_streams (s : State) (a : Nat) (bs : Bytes) : (s.wrBytes a bs).streams = s.streams := by
  obtain ⟨u, p, ⟨⟨c, r, rfl⟩, -⟩, h⟩ := wrBytes_eq s a bs; rw [h]
@[simp] theorem wrBytes_tallies (s : State) (a : Nat) (bs : Bytes) : (s.wrBytes a bs).tallies = s.tallies := by
  obtain ⟨u, p, ⟨⟨c, r, rfl⟩, -⟩, h⟩ := wrBytes_eq s a bs; rw [h]
@[simp] theorem wrBytes_lines (s : State) (a : Nat) (bs : Bytes) : (s.wrBytes a bs).lines = s.lines := by
  obtain ⟨u, p, ⟨⟨c, r, rfl⟩, -⟩, h⟩ := wrBytes_eq s a bs; rw [h]
@[simp] theorem wrBytes_file (s : State) (a : Nat) (bs : Bytes) : (s.wrBytes a bs).file = s.file := by
  obtain ⟨u, p, ⟨⟨c, r, rfl⟩, -⟩, h⟩ := wrBytes_eq s a bs; rw [h]
@[simp] theorem wrBytes_bar4 (s : State) (a : Nat) (bs : Bytes) : (s.wrBytes a bs).bar4 = s.bar4 := by
  obtain ⟨u, p, ⟨⟨c, r, rfl⟩, -⟩, h⟩ := wrBytes_eq s a bs; rw [h]
@[simp] theorem wrBytes_engines (s : State) (a : Nat) (bs : Bytes) : (s.wrBytes a bs).engines = s.engines := by
  obtain ⟨u, p, ⟨⟨c, r, rfl⟩, -⟩, h⟩ := wrBytes_eq s a bs; rw [h]
@[simp] theorem wrBytes_qps (s : State) (a : Nat) (bs : Bytes) : (s.wrBytes a bs).qps = s.qps := by
  obtain ⟨u, p, ⟨⟨c, r, rfl⟩, -⟩, h⟩ := wrBytes_eq s a bs; rw [h]
@[simp] theorem wrBytes_netOut (s : State) (a : Nat) (bs : Bytes) : (s.wrBytes a bs).netOut = s.netOut := by
  obtain ⟨u, p, ⟨⟨c, r, rfl⟩, -⟩, h⟩ := wrBytes_eq s a bs; rw [h]
@[simp] theorem wrBytes_convs (s : State) (a : Nat) (bs : Bytes) : (s.wrBytes a bs).convs = s.convs := by
  obtain ⟨u, p, ⟨⟨c, r, rfl⟩, -⟩, h⟩ := wrBytes_eq s a bs; rw [h]
@[simp] theorem wrBytes_links (s : State) (a : Nat) (bs : Bytes) : (s.wrBytes a bs).links = s.links := by
  obtain ⟨u, p, ⟨⟨c, r, rfl⟩, -⟩, h⟩ := wrBytes_eq s a bs; rw [h]
@[simp] theorem wrBytes_keys (s : State) (a : Nat) (bs : Bytes) : (s.wrBytes a bs).keys = s.keys := by
  obtain ⟨u, p, ⟨⟨c, r, rfl⟩, -⟩, h⟩ := wrBytes_eq s a bs; rw [h]

/-- Codewords put back keep the canonical form. -/
theorem restore_wf (m0 : Memory) (bs : List (Nat × Nat)) : ∀ m : Memory, Memory.wf m = true →
    Memory.wf (bs.foldl (fun acc b => Memory.writeBytes acc b.1 (Memory.readBytes m0 b.1 b.2)) m) = true := by
  induction bs with
  | nil => intro m h; exact h
  | cons b t ih => intro m h; exact ih _ (Memory.wf_writeBytes _ _ _ h)

/-- Codewords put back change no byte that reads as they held it. -/
theorem restore_read (m0 : Memory) (x : Nat) (bs : List (Nat × Nat)) : ∀ m : Memory, Memory.read m x = Memory.read m0 x →
    Memory.read (bs.foldl (fun acc b => Memory.writeBytes acc b.1 (Memory.readBytes m0 b.1 b.2)) m) x = Memory.read m0 x := by
  induction bs with
  | nil => intro m h; exact h
  | cons b t ih =>
    intro m h
    apply ih
    by_cases hx : b.1 ≤ x ∧ x < b.1 + b.2
    · obtain ⟨i, rfl⟩ := Nat.exists_eq_add_of_le hx.1
      rw [Memory.read_writeBytes_same _ _ _ _ (by rw [Memory.readBytes_length]; omega), Memory.readBytes_get]
    · rw [Memory.read_writeBytes_other _ _ _ _ (by rw [Memory.readBytes_length]; omega), h]

/-- A write keeps the canonical form of device memory. -/
theorem wrBytes_wf (s : State) (a : Nat) (bs : Bytes) (h : Memory.wf s.mem = true) : Memory.wf (s.wrBytes a bs).mem = true := by
  rw [wrBytes_mem]
  exact restore_wf _ _ _ (Memory.wf_writeBytes _ _ _ h)

/-- A write changes no byte outside those it writes. -/
theorem wrBytes_read_other (s : State) (a x : Nat) (bs : Bytes) (h : x < a ∨ a + bs.length ≤ x) :
    Memory.read (s.wrBytes a bs).mem x = Memory.read s.mem x := by
  rw [wrBytes_mem]
  exact restore_read _ _ _ _ (Memory.read_writeBytes_other _ _ _ _ h)

/-- A write that meets no uncorrectable codeword in part stores its bytes. -/
theorem wrBytes_mem_of_good (s : State) (a : Nat) (bs : Bytes) (h : s.partialBad a bs.length = false) :
    (s.wrBytes a bs).mem = Memory.writeBytes s.mem a bs := by
  have hn : (s.bad.filter fun b => !cwWhole a bs.length b).filter (cwHit a bs.length) = [] := by
    rw [List.filter_eq_nil_iff]
    intro b hb
    have hb' := List.mem_filter.1 hb
    simp only [partialBad, Bool.or_eq_false_iff, List.any_eq_false] at h
    have := h.1 b hb'.1
    simp_all
  have hf : s.fencedCws a bs.length = [] := by
    simp only [partialBad, Bool.or_eq_false_iff] at h
    simp [fencedCws, h.2]
  rw [wrBytes_mem, wrMem, hn, hf]
  rfl

/-- Zeroing keeps the canonical form of device memory. -/
theorem zeroBytes_wf (s : State) (a n : Nat) (h : Memory.wf s.mem = true) : Memory.wf (s.zeroBytes a n).mem = true :=
  Memory.wf_clear _ _ _ h

/-- A zeroed byte reads 0; the others stay. -/
theorem zeroBytes_read (s : State) (a n x : Nat) :
    Memory.read (s.zeroBytes a n).mem x = if a ≤ x ∧ x < a + n then 0 else Memory.read s.mem x := Memory.read_clear _ _ _ _

/-! ### Coherent writes -/

theorem cohInv_wf_aux (ls : List (Nat × Line)) : ∀ s : State, Memory.wf s.mem = true →
    Memory.wf (ls.foldl (fun t e =>
      let t1 := match e.2.latest with | some d => t.wrBytes (64 * e.1) d | none => t
      t1.setLine e.1 { e.2 with copies := [], bufs := e.2.bufs.map fun b => { b with st := 2 } }) s).mem = true := by
  induction ls with
  | nil => intro s h; exact h
  | cons e t ih =>
    intro s h
    apply ih
    dsimp only
    rw [setLine_mem]
    split
    · exact wrBytes_wf _ _ _ h
    · exact h

/-- The end of an invalidation keeps the canonical form of device memory. -/
theorem cohInv_wf (s : State) (a n : Nat) (h : Memory.wf s.mem = true) : Memory.wf (s.cohInv a n).mem = true :=
  cohInv_wf_aux _ s h

/-- Counting the requests of a coherent access leaves device memory as it is. -/
@[simp] theorem countCoh_mem (s : State) (a n : Nat) (f : Fld) : (s.countCoh a n f).mem = s.mem := by
  simp only [countCoh, List.foldl_cons, List.foldl_nil]
  repeat' split
  all_goals simp

/-- A coherent write keeps the canonical form of device memory. -/
theorem cohWrite_wf (s : State) (a : Nat) (bs : Bytes) (h : Memory.wf s.mem = true) : Memory.wf (s.cohWrite a bs).mem = true :=
  wrBytes_wf _ _ _ (by simpa [dropResv] using cohInv_wf s a bs.length h)

end Sys2Proof.Machine.State
end

