-- ==== Sys2Proof/WellFormed.lean ====
section
/-! DEFINITION. Well-formed commands: the range checks on their operands. The machine is total: a command that fails one of them names
work that it does not have, and leaves it as it is or is cut to the width of the field it names (notes/assumptions/4.md). -/

namespace Sys2Proof

/-- A D2D link instance (R539). -/
def linkOk (p : Nat) : Bool := decide (p < 3)
/-- A module of a link (R24). -/
def moduleOk (m : Nat) : Bool := decide (m < 4)
/-- A data lane of a module (R24). -/
def laneOk (l : Nat) : Bool := decide (l < 64)
/-- The bytes of a flit (R29). -/
def flitOk (f : Bytes) : Bool := decide (f.length = 256)
/-- A stream of a tensor die (R198). -/
def streamOk (n : Nat) : Bool := decide (n < 2 ^ 14)
/-- A descriptor slot of a manifest (R152). -/
def slotOk (q : Nat) : Bool := decide (q < 2 ^ 16)
/-- An engine of a tensor die (R3). -/
def engineOk (e : Nat) : Bool := decide (e < 100)
/-- An array of an engine (R4). -/
def arrayOk (a : Nat) : Bool := decide (a < 4)
/-- A word of the part of a stream context that software writes (R198). -/
def ctxWordOk (w : Nat) : Bool := decide (w < 16)
/-- A compartment (R492). -/
def cptOk (c : Nat) : Bool := decide (c < 64)
/-- A hart (R439). -/
def hartOk (h : Nat) : Bool := decide (h < 96)
/-- A tally (R466). -/
def tallyOk (t : Nat) : Bool := decide (t < 16384)
/-- A lot of the unified range (R204). -/
def lotOk (l : Nat) : Bool := decide (l < 2 ^ 28)
/-- A lot of a request (R276). -/
def lotIndexOk (l : Nat) : Bool := decide (l < 2 ^ 16)
/-- The way field of a map entry (R207). -/
def wayOk (w : Nat) : Bool := decide (w < 2 ^ 13)
/-- An instance of the placement unit (R200). -/
def sliceOk (k : Nat) : Bool := decide (k < 4)
/-- An index of a buffer handle (R236). -/
def bufOk (i : Nat) : Bool := decide (i < 2 ^ 18)
/-- A channel of a controller (R257, R259). -/
def channelOk (ch : Nat) : Bool := decide (ch < 32)
/-- A DQ pair of a pseudo-channel (R251). -/
def pairOk (p : Nat) : Bool := decide (p < 16)
/-- A bit of a codeword (R251, R252). -/
def bitOk (b : Nat) : Bool := decide (b < 1024)
/-- The length of a narrow read (R263). -/
def narrowOk (n : Nat) : Bool := n == 16 || n == 32
/-- An update unit (R274). -/
def updOk (u : Nat) : Bool := decide (u < 16)
/-- A lookup engine (R311). -/
def lookupOk (k : Nat) : Bool := decide (k < 16)
/-- A table of the registry (R342). -/
def tableOk (t : Nat) : Bool := decide (t < 1024)
/-- A port of a network die (R343). -/
def portOk (p : Nat) : Bool := decide (p < 4)
/-- A queue pair of a network die (R459). -/
def qpOk (i : Nat) : Bool := decide (i < 2 ^ 14)
/-- A packet sequence number (R348). -/
def psnOk (n : Nat) : Bool := decide (n < 2 ^ 24)
/-- A gather window of an exchange engine (R373). -/
def windowOk (w : Nat) : Bool := decide (w < 64)
/-- A coordination context (R383). -/
def contextOk (k : Nat) : Bool := decide (k < 4)
/-- A rank of a convoy (R382). -/
def rankOk (r : Nat) : Bool := decide (r < 128)
/-- A coherence line below the end of the address map (R56, R450). -/
def lineOk (l : Nat) : Bool := decide (l < 2 ^ 39)
/-- A device physical address (R55, R56). -/
def addrOk (a : Nat) : Bool := decide (a < 0x200000000000)
/-- A BAR that the function has (R587). -/
def barOk (b : Nat) : Bool := b == 0 || b == 2 || b == 4
/-- A word of a register page (R518). -/
def wordOk (off : Nat) : Bool := decide (off < 4096) && off % 4 == 0
/-- An island of a die (R545). -/
def islandOk (i : Nat) : Bool := decide (i < 130)
/-- An instance number of a page (R518). -/
def pageOk (pg : Page) : Bool := decide (pg.inst < 256)
/-- A cache of a hart or of a host die (R450). -/
def cacheOk (c : Cache) : Bool :=
  match c with
  | .core h => hartOk h
  | .l3 d => d == .H0 || d == .H1
/-- A port of a network die with its sub-port in bit 2 (R343). -/
def subPortOk (p : Nat) : Bool := decide (p < 8)
/-- A packet's number, port and payload (R350). -/
def packetOk (k : Packet) : Bool := psnOk k.psn && subPortOk k.port && decide (k.payload.length ≤ k.len)

/-- The operands of a command lie within what the spec gives the module. -/
def Instr.wf : Instr → Bool
  | .dataFlitReceive _ p flit => linkOk p && flitOk flit
  | .idleFlitReceive _ p flit => linkOk p && flitOk flit
  | .retryRequest _ p flit => linkOk p && flitOk flit
  | .linkControlFlit _ p flit => linkOk p && flitOk flit
  | .ackTimer _ p => linkOk p
  | .flitSend _ p => linkOk p
  | .messageSend _ m => decide (m.chunks ≠ []) && decide (m.chunks.length ≤ 17)
  | .laneDiagnosis _ p bad => linkOk p && bad.all (fun e => moduleOk e.1 && laneOk e.2)
  | .laneLoss _ p m l => linkOk p && moduleOk m && laneOk l
  | .spareSubstitution _ p m l => linkOk p && moduleOk m && laneOk l
  | .halfWidthEntry _ p => linkOk p
  | .linkDown _ p => linkOk p
  | .matmul _ n q => streamOk n && slotOk q
  | .matmulAcc _ n q => streamOk n && slotOk q
  | .weightPreload _ e a => engineOk e && arrayOk a
  | .tileComplete _ e a => engineOk e && arrayOk a
  | .arrayDetectedError _ e a _ => engineOk e && arrayOk a
  | .targetedSelfTestDone _ _ _ => true
  | .transientLimit _ _ => true
  | .arrayClearDone _ e a => engineOk e && arrayOk a
  | .feCtxEnable _ => true
  | .feCtxDrain _ => true
  | .feCtxAbort _ => true
  | .feCtxDataWrite _ w _ => ctxWordOk w
  | .dbRing _ c _ => cptOk c
  | .descriptorFetch _ n => streamOk n
  | .descriptorStart _ n q => streamOk n && slotOk q
  | .completionRecordWrite _ n => streamOk n
  | .fillStart _ e => engineOk e
  | .fillPreempt _ e => engineOk e
  | .fillResume _ e => engineOk e
  | .engFillCistWrite _ e _ => engineOk e
  | .add _ n q => streamOk n && slotOk q
  | .sub _ n q => streamOk n && slotOk q
  | .mul _ n q => streamOk n && slotOk q
  | .fma _ n q => streamOk n && slotOk q
  | .div _ n q => streamOk n && slotOk q
  | .sqrt _ n q => streamOk n && slotOk q
  | .max _ n q => streamOk n && slotOk q
  | .min _ n q => streamOk n && slotOk q
  | .exp _ n q => streamOk n && slotOk q
  | .log _ n q => streamOk n && slotOk q
  | .recip _ n q => streamOk n && slotOk q
  | .rsqrt _ n q => streamOk n && slotOk q
  | .tanh _ n q => streamOk n && slotOk q
  | .sigmoid _ n q => streamOk n && slotOk q
  | .erf _ n q => streamOk n && slotOk q
  | .convert _ n q => streamOk n && slotOk q
  | .sum _ n q => streamOk n && slotOk q
  | .sumsq _ n q => streamOk n && slotOk q
  | .dot _ n q => streamOk n && slotOk q
  | .rmax _ n q => streamOk n && slotOk q
  | .partialRecordMerge _ n q => streamOk n && slotOk q
  | .orfValueSum _ n q => streamOk n && slotOk q
  | .anchorMaximum _ n q => streamOk n && slotOk q
  | .nrm128Sum _ n q => streamOk n && slotOk q
  | .moveCopy _ n q => streamOk n && slotOk q
  | .moveFill _ n q => streamOk n && slotOk q
  | .migrate _ n q => streamOk n && slotOk q
  | .lotMoveCommit lot => lotOk lot
  | .nop _ n q => streamOk n && slotOk q
  | .fence _ n q => streamOk n && slotOk q
  | .fenceComplete _ n q => streamOk n && slotOk q
  | .tallyWait _ n q => streamOk n && slotOk q
  | .tallySignalAdd _ n q => streamOk n && slotOk q
  | .tallySignalSet _ n q => streamOk n && slotOk q
  | .tallyOperation _ => true
  | .waitPoll _ => true
  | .lockAcquire _ n q => streamOk n && slotOk q
  | .lockRelease _ n q => streamOk n && slotOk q
  | .leaseLapse t => tallyOk t
  | .talwAdd h t _ => hartOk h && tallyOk t
  | .talwSetHi h t _ => hartOk h && tallyOk t
  | .talwTry h t => hartOk h && tallyOk t
  | .talwRelease h t => hartOk h && tallyOk t
  | .talwClearAbandoned h t => hartOk h && tallyOk t
  | .talCfgWrite _ _ => true
  | .hartDebugEnter h => hartOk h
  | .hartDebugExit h => hartOk h
  | .ageStep k => sliceOk k
  | .evictAhead _ _ way => wayOk way
  | .writebackComplete lot => lotOk lot
  | .pageInComplete lot way => lotOk lot && wayOk way
  | .plcQueryLot k _ => sliceOk k
  | .poolQTail c _ => cptOk c
  | .poolQEnable c _ => cptOk c
  | .poolRequestFetch c => cptOk c
  | .alloc c base idx => cptOk c && addrOk base && bufOk idx
  | .free c => cptOk c
  | .freeComplete c => cptOk c
  | .setPlacement c => cptOk c
  | .memRead _ pa x _ => addrOk pa && x.errs.all (fun e => e.2.all bitOk)
  | .memWrite _ pa x => addrOk pa && x.errs.all (fun e => e.2.all bitOk)
  | .narrowRead k pa x => lookupOk k && addrOk pa && narrowOk x.len && x.errs.all bitOk
  | .narrowWaitExpiry _ ch => channelOk ch
  | .refreshDue _ ch => channelOk ch
  | .refreshPullIn _ ch => channelOk ch
  | .calibrationDue _ ch => channelOk ch
  | .forcedCalibration _ ch => channelOk ch
  | .calibrationEnd _ ch => channelOk ch
  | .guaranteedScrub _ ch errs => channelOk ch && errs.all (fun e => e.2.all bitOk)
  | .patrolScrub _ ch errs => channelOk ch && errs.all (fun e => e.2.all bitOk)
  | .dqPairMark _ ch pair => channelOk ch && pairOk pair
  | .telemetrySample _ => true
  | .stackTemperatureSample _ _ => true
  | .mr4Read _ ch rate => channelOk ch && decide (rate < 32)
  | .localGibWrite _ => true
  | .update _ n q => streamOk n && slotOk q
  | .updateAdmit _ n q => streamOk n && slotOk q
  | .updateLotApply _ n q l => streamOk n && slotOk q && lotIndexOk l
  | .dsRecordWrite u => updOk u
  | .updDsTail u _ => updOk u
  | .updDsCfgWrite u off _ => updOk u && wordOk off
  | .orderGapTimeout _ n q => streamOk n && slotOk q
  | .snapshot _ n q => streamOk n && slotOk q
  | .snapshotLotShip _ n q l => streamOk n && slotOk q && lotIndexOk l
  | .snapshotAck _ n q l => streamOk n && slotOk q && lotIndexOk l
  | .snapshotDelayLimit _ n q l => streamOk n && slotOk q && lotIndexOk l
  | .lookup _ n q => streamOk n && slotOk q
  | .lookupGrad _ n q => streamOk n && slotOk q
  | .lookupRowUpdate _ n q row => streamOk n && slotOk q && decide (row < 2 ^ 32)
  | .load _ => true
  | .loadComplete => true
  | .unload _ => true
  | .switch _ => true
  | .tombstone _ => true
  | .revive _ => true
  | .sweep tbl => tableOk tbl
  | .hotSlotFree tbl sl _ _ => tableOk tbl && decide (sl < 2)
  | .netPortModeWrite _ p _ => portOk p
  | .portLinkUp _ p subV => portOk p && portOk subV
  | .ethLaneLockLoss _ p lane => portOk p && decide (lane < 16)
  | .qpEnable _ => true
  | .qpReset _ => true
  | .send _ n q => streamOk n && slotOk q
  | .rdmaWrite _ n q => streamOk n && slotOk q
  | .rdmaRead _ n q => streamOk n && slotOk q
  | .recv _ n q => streamOk n && slotOk q
  | .inboundRdmaWrite _ i pk => qpOk i && packetOk pk
  | .inboundRdmaRead _ i pk => qpOk i && packetOk pk
  | .inboundSend _ i pk => qpOk i && packetOk pk
  | .rdmaAck _ i psn => qpOk i && psnOk psn
  | .rdmaNak _ i psn _ => qpOk i && psnOk psn
  | .rdmaReadResponse _ i pk => qpOk i && packetOk pk
  | .ackTimeout _ i => qpOk i
  | .cnpReceive _ i => qpOk i
  | .dcqcnRateIncrease _ i => qpOk i
  | .register _ => true
  | .deregister _ => true
  | .netQpDb _ _ => true
  | .nvmeCompletion _ i cid status _ _ => qpOk i && decide (cid < 2 ^ 16) && decide (status < 2 ^ 16)
  | .fileQueueRead _ i => qpOk i
  | .fileQueueWrite _ i => qpOk i
  | .fileQueueWriteDone _ i => qpOk i
  | .fileQueueFlush _ i => qpOk i
  | .fileQueueWriteZeroes _ i => qpOk i
  | .fileQueueDeallocate _ i => qpOk i
  | .netPtpAdj _ => true
  | .netPtpStep _ => true
  | .applyAtSecond => true
  | .ppsOutEdge => true
  | .ppsInEdge => true
  | .exchangeDispatch _ n q => streamOk n && slotOk q
  | .exchangeCombine _ n q => streamOk n && slotOk q
  | .exchangeMessage _ _ => true
  | .reduceNetBoth _ n q => streamOk n && slotOk q
  | .reduceNetAnchor _ n q => streamOk n && slotOk q
  | .reduceNetValue _ n q => streamOk n && slotOk q
  | .reduceNetNrm128 _ n q => streamOk n && slotOk q
  | .gatherWindow _ n q => streamOk n && slotOk q
  | .windowRelease _ w => windowOk w
  | .xchWinRelease _ => true
  | .start k => contextOk k
  | .stop k => contextOk k
  | .admitRank k r => contextOk k && rankOk r
  | .resume k => contextOk k
  | .heartbeatSend k => contextOk k
  | .heartbeat k _ => contextOk k
  | .hbReply k _ => contextOk k
  | .workerLost k r => contextOk k && rankOk r
  | .managerLost k => contextOk k
  | .takeoverTimer k => contextOk k
  | .takeover k _ => contextOk k
  | .query k _ => contextOk k
  | .state k _ => contextOk k
  | .convBarrier k _ => contextOk k
  | .arrive k _ => contextOk k
  | .release k _ => contextOk k
  | .convReady k _ => contextOk k
  | .ready k _ => contextOk k
  | .commit k _ => contextOk k
  | .convApplied k _ => contextOk k
  | .applied k _ => contextOk k
  | .abortStep k _ => contextOk k
  | .prepBatch _ n q => streamOk n && slotOk q
  | .xltInvGo _ => true
  | .invalidationAck _ _ => true
  | .rdShared x line => cacheOk x && lineOk line
  | .rdUnique x line => cacheOk x && lineOk line
  | .upgrade x line => cacheOk x && lineOk line
  | .rdOnce line => lineOk line
  | .wrLine line dataV => lineOk line && decide (dataV.length = 64)
  | .wrPart line off dataV => lineOk line && decide (off + dataV.length ≤ 64)
  | .snpShared x line => cacheOk x && lineOk line
  | .snpInv x line => cacheOk x && lineOk line
  | .snpOnce x line => cacheOk x && lineOk line
  | .snpResp _ line => lineOk line
  | .data line => lineOk line
  | .wbDirty x line => cacheOk x && lineOk line
  | .wbAck x line => cacheOk x && lineOk line
  | .comp line => lineOk line
  | .compAck line => lineOk line
  | .msiDelivery _ _ => true
  | .cohMsiFlush => true
  | .hartAccess h _ pa size dataV => hartOk h && addrOk pa && decide (size ≠ 0) && decide (dataV.length ≤ size)
  | .pcieInboundRead bar _ len => barOk bar && decide (len ≠ 0)
  | .pcieInboundWrite bar _ dataV => barOk bar && decide (dataV ≠ [])
  | .inspectionRead pa => addrOk pa && decide (pa % 4 = 0)
  | .inspectionWrite pa _ => addrOk pa && decide (pa % 4 = 0)
  | .create => true
  | .compartmentRelease => true
  | .releaseComplete c => cptOk c
  | .grant => true
  | .grantComplete => true
  | .returnUnit => true
  | .returnComplete => true
  | .cptLock => true
  | .cptEntCfgWrite _ => true
  | .openBuf c => cptOk c
  | .closeBuf c => cptOk c
  | .pageEnable _ pg _ => pageOk pg
  | .blockReset _ pg => pageOk pg
  | .blockResetEnd pg => pageOk pg
  | .applyRequest pg _ => pageOk pg
  | .applyCancel pg => pageOk pg
  | .applyAtBoundary pg => pageOk pg
  | .pageIrqEnWrite pg _ => pageOk pg
  | .tvRevote pg => pageOk pg
  | .registerWrite _ pg off _ => pageOk pg && wordOk off
  | .sourceQualified _ => true
  | .sourceLoss _ => true
  | .clockSourceSwitch => true
  | .pllLock => true
  | .clkSrcSelWrite _ => true
  | .clkSscWrite _ => true
  | .clkIslMaxWrite _ _ => true
  | .frequencyStep _ isl _ => islandOk isl
  | .clkModeWrite _ _ => true
  | .crossingModeChange _ isl _ => islandOk isl
  | .powerRound _ => true
  | .budgetMessage _ _ round _ => decide (round < 2 ^ 32)
  | .capRaise _ => true
  | .powerMeasure _ _ => true
  | .thermalSample _ readings => readings.all (fun x => decide (x < 256))
  | .thermalHysteresisTimer _ => true
  | .leverSwitchClose => true
  | .auxPathOn slotId => decide (slotId < 16)
  | .rom => true
  | .mc => true
  | .mainPower => true
  | .links bad => bad.all (fun e => linkOk e.2.1 && moduleOk e.2.2.1 && laneOk e.2.2.2)
  | .memory badStacks badSets => badStacks.all (fun x => decide (x < 8)) && badSets.all (fun x => decide (x < 16))
  | .bist failed notRun => failed.all (fun e => islandOk e.2) && notRun.all (fun e => islandOk e.2)
  | .host => true
  | .openBoot => true
  | .leverSwitchOpen => true
  | .inputUndervoltage _ => true
  | .inputOvervoltage _ => true
  | .overvoltageRecovery slotId => decide (slotId < 16)
  | .mainOvercurrent _ => true
  | .uvWarn _ => true
  | .attentionButtonPress => true
  | .abortWindowExpiry => true
  | .startDrain => true
  | .drainDone => true
  | .cancel => true
  | .drainTimeout => true
  | .poweringDown => true
  | .powerDownLinkTimeout => true
  | .powerDownComplete => true
  | .modResetN => true
  | .perstNAssert => true
  | .perstNDeassert => true
  | .hotReset => true
  | .functionLevelReset => true
  | .pldmReset => true
  | .pldmWake => true
  | .pldmIdentify _ => true
  | .pldmSetTime sec => decide (sec < 2 ^ 48)
  | .pldmFreeze => true
  | .pldmThaw => true
  | .pldmFirmwareUpdate _ => true
  | .pldmSensorRead _ => true
  | .pldmFruRead => true
  | .entdaa addr => decide (addr < 128)
  | .resetCmdModule => true
  | .resetCmdDie target => decide (target < 16)
  | .resetCmdCompartment target => cptOk target
  | .coreHold target => hartOk target
  | .coreRelease target => hartOk target
  | .dieRecoveryComplete _ => true
  | .park _ => true
  | .unpark _ => true
  | .standbyEnter _ => true
  | .standbyWake => true
  | .h0L3Miss h => hartOk h
  | .wakeComplete => true
  | .errorDetected _ _ _ pa => addrOk pa
  | .writeLost _ pa _ => addrOk pa
  | .bistRun _ => true
  | .bistComplete _ isl _ _ => islandOk isl
  | .injArm pg => pageOk pg
  | .tstRun pg _ => pageOk pg
  | .freezeN => true
  | .freezeDebug => true
  | .freezeCapture => true
  | .thaw => true
  | .thawLimitExpiry => true
  | .scanShift _ => true
  | .instrumentWrite => true
  | .inspectEn _ => true
  | .hourlyRecord _ => true
  | .eraseAhead => true
  | .pageProgramFail _ => true
  | .ledgRtcHi _ => true
  | .ptpRtcSet => true
  | .ledgLogData7 _ => true
  | .warehouseCreditExhausted _ => true
  | .warehouseWorn _ => true
  | .reserveLow _ => true
  | .serviceTagDraw => true
  | .tagRefreshDone => true
  | .redraw => true
  | .svcLocate _ => true
  | .locateExpiry => true
  | .sounderShort => true
  | .sounderRetry _ => true
  | .svcSndClear => true
  | .pcieLinkUp _ _ _ => true
  | .pcieLinkDown => true
  | .pfcPauseFrameReceive _ p _ quanta => subPortOk p && decide (quanta < 2 ^ 16)
  | .undervoltageLockoutRelease _ => true
  | .reducedRangeExit _ => true
  | .auxiliaryPathOff => true
  | .supercapacitorRunDown => true
  | .garbageCollection _ _ _ => true
  | .creditAccrual _ => true
  | .standbyEntryComplete => true

end Sys2Proof
end

