-- ==== Sys2Proof/Tests/Slice0.lean ====
section
/-! SUPPORT. The model's own tests: ill-formed commands, a few steps with results that the spec states, and for every statement with
hypotheses a state and operands that meet them. -/

open Sys2Proof Sys2Proof.Machine

set_option Elab.async false

namespace Sys2Proof.Tests

/-- The module after reset with main power on. -/
def on : State := State.reset.setF pciePg Reg.PCIE_HSW_MAIN_ON 1

/-- `s` with the chain `l` of updates. -/
def after (s : State) (l : List (State → State)) : State := l.foldl (fun t f => f t) s

/-- A flit of the TYPE, SEQ and chunks given, from a link at rest. -/
def flit (ty seq map : Nat) (cs : List Bytes) : Bytes := (State.buildFlit Link.init ty seq map cs).1

/-- A running descriptor of the 64 bytes `raw`. -/
def job (raw : Nat) : Desc :=
  { slot := 0, seq := 0, raw := raw, layout := 0, peek := 0, pins := [], phase := .running, status := 0, operand := 0, position := 0, cycles := none,
    waitMet := true, aborting := false, next := 0, finished := 0, rerun := [], wins := [], aux := [] }

/-- `s` with these descriptors fetched in stream 0 of T0. -/
def withJobs (s : State) (l : List Desc) : State := s.setStream .T0 0 ⟨l, false⟩

/-- Granule 0 of the depot owned by compartment 0, with a root table at 0x1000 that maps every address to itself. -/
def mapped : State := (on.setOwner 5 0 0).wrNat 4096 0xD7 8

/-- Stream 0 of T0 with a valid context of compartment 0 on engine 0, in state `st`. -/
def streamIn (st : Nat) : State :=
  (((((mapped.setCtxWord .T0 0 4 1).setCtxWord .T0 0 5 (10 <<< 28)).setCtxWord .T0 0 6 6).setOwner 1 0 0).setOwner 0 0 0).setStreamState
    .T0 0 st

/-- The same stream in class FILL, enabled, on an engine idle for a second that FILL work may use. -/
def filling : State :=
  { (streamIn 1).setCtxWord .T0 0 6 (6 + 1 <<< 8) with base := 10 ^ 9 }.setEngine .T0 0 { Engine.init with filling := true }

/-- A MATMUL (`op` 1 or 2) of one row, one column and K = 1 over page 0. -/
def tile (op : Nat) : Desc := { job (op + 1 <<< 384 + 1 <<< 409 + 1 <<< 434) with pins := [(0, 0)] }

/-- A MATMUL of one row and two tiles of columns. -/
def wider : Desc := { job (1 + 1 <<< 384 + 64 <<< 409 + 1 <<< 434) with pins := [(0, 0)] }

/-- A VECTOR of one BF16 element with operation `op`. -/
def vecJob (op : Nat) : Desc := { job (8 + 0x9999 <<< 16 + 1 <<< 384 + 1 <<< 416 + op <<< 440) with pins := [(0, 0)] }

/-- A MOVE of mode `mode` of `k` rows of 8 bytes over the first two pages. -/
def copyJob (mode k : Nat) : Desc := { job (0x10 + 8 <<< 256 + k <<< 288 + mode <<< 384) with pins := [(0, 0), (1, 1)] }

/-- A running descriptor whose first 64 pages are mapped to themselves. -/
def wide (raw : Nat) : Desc := { job raw with pins := (List.range 64).map fun k => (k, k) }

/-- An UPDATE of one master lot at 0: its parameter block is at 0x10000, its norm record at 0x11000, its gradient at 0x20000. -/
def upd : Desc := wide (0x20 + 0xA <<< 20 + 0x9 <<< 24 + 0x20000 <<< 192 + 0x10000 <<< 256 + 0x11000 <<< 320 + 1 <<< 384 + 65536 <<< 448)

/-- A parameter block: momentum SGD in one pass, the momentum at 0x30000 and the anchors at 0x3C000. -/
def block : Nat := 1 + 1 <<< 24 + 0x30000 <<< 768 + 0x3C000 <<< 1024

/-- The UPDATE before and after its parameter block has been read and its arrays translated. -/
def updJob : State := withJobs ((streamIn 1).wrNat 0x10000 block 192) [upd]
def updReady : Desc :=
  ((((updJob.touchV upd.pins (upd.addr 32) 192).pinArrays .T0 0 0 { upd with layout := block } (updateArrays { upd with layout := block }) 56).2).desc?
    .T0 0 0).getD upd

/-- A SNAPSHOT of the lot at 0 for milestone 0, its target record at 0x10000. -/
def snap : Desc := wide (0x21 + 0x10000 <<< 192 + 65536 <<< 320)

/-- A trailer of milestone 0 with its only pass applied, in the lot at 0; buffer 0 of compartment 0 at 0x100000, opened to itself. -/
def opened : State :=
  let s := ((streamIn 1).wrBytes 65472 (trailerBytes ⟨0, 0, true, false, true, false, false, 1⟩)).wrNat 0x10000 (0x100000 <<< 64) 64
  let t := (s.setF ⟨.N0, .cpt, 0x40⟩ Reg.CPT_OPEN_TO_VALID 1 0)
  { t with place := { t.place with bufs := [(0, ⟨0x100000, 65536, 3, 0, 0, 0⟩)] } }

/-- A table of two FP32 rows of 8 elements: directory at 0x40000, rows at 0x50000, masters at 0x60000. -/
def table : Nat := 2 <<< 32 + 8 <<< 64 + 1 <<< 80 + 1 <<< 96 + 0x40000 <<< 192 + 0x50000 <<< 256 + 0x60000 <<< 896

/-- A batch of the rows 0 and 1 of table 0, each a bag: table record at 0x10000, indices at 0x11000, rows or gradients at 0x12000. -/
def batch (op : Nat) : Desc :=
  wide (op + 9 <<< 16 + 0x10000 <<< 128 + 0x11000 <<< 192 + 0x12000 <<< 320 + 2 <<< 384 + 2 <<< 416)

/-- The memory of a batch, whose parameter block is at 0x13000 and norm record at 0x14000, and the table CURRENT in slot 0. -/
def tables : State :=
  ((((streamIn 1).wrNat 0x11008 1 8).wrNat 0x10000 (0x13000 <<< 64 + 0x14000 <<< 128) 64).wrNat 0x13000 (1 + 1 <<< 24) 192).setTblSlot
    0 ⟨2, table⟩

/-- A LOOKUP before and after its engine has latched the table. -/
def lookJob : State := withJobs (tables.wrNat 0x10000 0 64) [batch 0x18]
def lookOn : State := lookJob.lkpLatch .T0 0 0 (batch 0x18)
def lookDesc : Desc := (lookOn.desc? .T0 0 0).getD snap

/-- A LOOKUP_GRAD before and after its engine has latched the table, and once its parameter block has been read. -/
def gradJob : State := withJobs tables [batch 0x19]
def gradOn : State := gradJob.lkpLatch .T0 0 0 (batch 0x19)
def gradDesc : Desc := (gradOn.desc? .T0 0 0).getD snap
def gradRead : State := (gradOn.gradParams .T0 0 0 gradDesc).2
def gradReady : Desc := (gradRead.desc? .T0 0 0).getD snap

/-- A LOOKUP_GRAD that has been admitted, with its lot in state `st`. -/
def grad (st : Nat) : Desc :=
  { batch 0x19 with
    layout := 8 <<< 512 + 1 <<< 528 + (1 + 1 <<< 24) <<< 1024
    aux := [2, 0, 0, 0, 1, 0x60000 * 4 + st, 0 + 1 <<< 40, 1 + 1 <<< 40] }

/-- A pair is its first part, which is `a`, and its second. -/
theorem pair_eq {α β : Type} {p : α × β} {a : α} (h : p.1 = a) : p = (a, p.2) := by
  cases p; cases h; rfl

theorem no_lot_is_away (s : State) (h : s.place.map = []) : ∀ a, s.lotTier a ≠ 2 := by
  intro a
  simp [State.lotTier, State.entry, h, SMap.getD, SMap.find, bitsOf]

/-- A queue pair 0 of N0 in RTS: the context of its first words `w`, an outstanding read, the table of `mapped`, port 0. -/
def paired (w : Nat) : State :=
  let p := rdmaPg 0
  after (streamIn 1) [(·.setWord p 0x100 (3 <<< 20 + w)), (·.setWord p 0x104 (1 <<< 8)), (·.setWord p 0x128 1),
    (·.setWord p 0x12C (10 <<< 28)), (·.setQpSt 0 1), (·.setQp 0 { Qp.init with port := some 0 })]

/-- The same with memory region 0 registered: 1 MiB at 0, for reads and writes, with key 0. -/
def region : State :=
  let p := State.mrPg 0
  let s := after (paired 0) [(·.setWord p 0x148 (2 ^ 20)), (·.setWord p 0x150 1), (·.setWord p 0x154 (10 <<< 28)), (·.setWord p 0x158 (3 <<< 8))]
  { s with mrs := [(0, ())] }

/-- Queue pair 0 of N0 of kind `kind` with rings of 16 entries at 0x10000 and 0x11000, file extent 0, and the entry `v` waiting. -/
def queue (kind v : Nat) : State :=
  let p := rdmaPg 0
  after ((paired kind).setOwner 7 0 0) [(·.setWord p 0x108 (4 <<< 24)), (·.setWord p 0x130 0x10000), (·.setWord p 0x138 0x11000), (·.wrNat 0x10000 v 64),
    (·.setQp 0 { Qp.init with sqTail := 1 })]

/-- The file queue 0 of N0 with the entry `v` waiting. -/
def fileQueue (v : Nat) : State := queue 3 v

/-- The entry of opcode `op` and identifier 7 for one block at address 0x20000. -/
def entry (op : Nat) : Nat := op + 7 <<< 16 + 1 <<< 32 + 0x20000 <<< 192 + 4096 <<< 256

/-- The pins of an answer. -/
def pinsOf (r : State.Inbound) : SMap Nat := match r with | .ok p => p | _ => []

/-- `s` once the entry at the head of its queue 0 of N0 has been read. -/
def headOf (s : State) : State := (s.headSqe (qpKey .N0 0)).2

/-- A file queue with a deallocation of the block 0, and the range that it names. -/
def dropJob : State := (fileQueue (entry 9)).wrNat 0x20004 1 4
def dropRaw : Nat := 1 <<< 32

/-- A packet of write or read at 0x20000, its PSN 0. -/
def packet (bs : Bytes) : Packet := ⟨64, .verb, 0, 0, 0x20000, 64, bs, true, false, none, false, 0⟩

/-- A packet whose last byte lies beyond memory region 0. -/
def farPacket : Packet := { packet [1, 2] with va := 0xFFFFF }

/-- A structure's targeted self-test that has begun. -/
def testing (st : Struct) : SelfTest := ⟨0, st, 0, State.structRec .T0 st .transient false 0, []⟩

/-- A participant 0 of two that exchanges one token of 64 bytes: its plan has been read, its peers are at 0x10000. -/
def plan (op more : Nat) : Desc :=
  { wide (op + 7 <<< 16 + 0x14000 <<< 128 + 0x15000 <<< 192 + 0x17000 <<< 256 + 0x16000 <<< 320 + 1 <<< 384 + 64 <<< 416 + more) with
    layout := 2 + 2 <<< 32 + 1 <<< 48 + 1 <<< 56 + 4 <<< 64 + 4 <<< 88 + 0x10000 <<< 128 + 0x11000 <<< 192 + 0x12000 <<< 256
      + 0x13000 <<< 320 + 0x20000 <<< 384 + 2 ^ 512 }

/-- A GATHER_WINDOW of one shard into lot 0, its shard list at 0x10000. -/
def gather : Desc :=
  { job (0x12 + 0x10000 <<< 192 + 65536 <<< 256 + 1 <<< 288 + 2 <<< 304) with
    pins := (List.range 32).map fun k => (k, if k < 16 then unifiedBase / 4096 + k else k) }

/-- Coordination context 0 in state `st` with rank `rank`, its memory and tally 0 those of compartment 0, rank 5 present. -/
def convoy (st mgr rank : Nat) : State :=
  let p := convPg 0
  after (((on.setOwner 5 0 0).setOwner 2 0 0).wrNat 40 (1 <<< 24) 8) [(·.setF p Reg.CONV_STAT_STATE st), (·.setF p Reg.CONV_STAT_IS_MANAGER mgr),
    (·.setF p Reg.CONV_CFG_RANK rank), (·.setF p Reg.CONV_MREC_CFG_LOG2_ENTRIES 4), (·.setF p Reg.CONV_MREC_LO_PA 1024)]

/-- The manager of convoy 3, under the top manager of convoy 0. -/
def underTop : State := ((convoy 1 1 0).setF (convPg 0) Reg.CONV_CFG_FED 1).setF (convPg 0) Reg.CONV_CFG_CONVOY 3

/-- A message of a kind from rank 5, of the job and epoch 0. -/
def ctl (kind : Nat) : Ctl := ⟨kind, 5, 0, 0, 0, 0, 0, 0, 0, 0, 0, 0⟩

/-- The module open, hart 0 running for compartment 3, granule 1 of the depot and tally 9 owned by compartment 5. -/
def shared : State :=
  after (((((on.setHart 0 ⟨false, false, none⟩).setOwner 3 0 3).setOwner 5 0 3).setOwner 5 1 5).setOwner 2 9 5)
    [(·.setF mgmtPg Reg.MGMT_BOOT_OPEN 1), (·.setF cptPg Reg.CPT_CFG_ADMIN 5), (·.setF cptPg Reg.CPT_CFG_PCIE 3),
      (·.setF pciePg Reg.PCIE_LINK_DL_ACTIVE 1)]

/-! ### Ill-formed commands -/

/-- A packet of PSN, port, length and payload given. -/
def packetOf (psn port len : Nat) (bs : Bytes) : Packet := { packet bs with psn := psn, port := port, len := len }

/-- No command of the list is well-formed. -/
def refusesAll (l : List Instr) : Bool := l.all fun i => !i.wf

theorem test_wf_links : refusesAll
    [.ackTimer .T0 3, .idleFlitReceive .T0 0 [], .laneLoss .T0 0 4 0, .laneLoss .T0 0 0 64, .laneDiagnosis .T0 0 [(4, 0)],
      .messageSend .T0 ⟨.T0, .T1, .dat, none, []⟩, .messageSend .T0 ⟨.T0, .T1, .dat, none, List.replicate 18 []⟩] = true := by decide
theorem test_wf_streams : refusesAll
    [.nop .T0 (2 ^ 14) 0, .nop .T0 0 (2 ^ 16), .descriptorFetch .T0 (2 ^ 14), .feCtxDataWrite .T0 16 0, .dbRing .T0 64 0,
      .fillStart .T0 100, .weightPreload .T0 0 4] = true := by decide
theorem test_wf_tallies : refusesAll [.leaseLapse 16384, .talwTry 96 0, .talwTry 0 16384] = true := by decide
theorem test_wf_placement : refusesAll
    [.lotMoveCommit (2 ^ 28), .evictAhead true 0 8192, .ageStep 4, .alloc 0 0x200000000000 0, .alloc 0 0 (2 ^ 18), .free 64] = true := by
  decide
theorem test_wf_memory : refusesAll
    [.narrowRead 16 0 ⟨16, [], false⟩, .narrowRead 0 0 ⟨64, [], false⟩, .memRead .pcie 0 ⟨false, [(0, [1024])], false⟩ false,
      .memWrite .pcie 0x200000000000 ⟨[1], [], false⟩, .refreshDue .C0 32, .dqPairMark .C0 0 16, .mr4Read .C0 0 32, .patrolScrub .C0 0 [(0, [1024])]]
    = true := by decide
theorem test_wf_updates : refusesAll
    [.dsRecordWrite 16, .updDsCfgWrite 0 2 0, .updateLotApply .T0 0 0 (2 ^ 16), .lookupRowUpdate .T0 0 0 (2 ^ 32), .sweep 1024,
      .hotSlotFree 0 2 0 0] = true := by decide
theorem test_wf_network : refusesAll
    [.portLinkUp .N0 4 0, .ethLaneLockLoss .N0 0 16, .ackTimeout .N0 (2 ^ 14), .rdmaAck .N0 0 (2 ^ 24), .nvmeCompletion .N0 0 (2 ^ 16) 0 0 [],
      .nvmeCompletion .N0 0 0 (2 ^ 16) 0 [], .inboundSend .N0 0 (packetOf 0 8 0 []), .inboundSend .N0 0 (packetOf 0 0 0 [1]),
      .pfcPauseFrameReceive .N0 0 0 (2 ^ 16), .windowRelease .N0 64, .start 4, .admitRank 0 128] = true := by decide
theorem test_wf_coherence : refusesAll
    [.rdOnce (2 ^ 39), .rdShared (.core 96) 0, .rdShared (.l3 .N0) 0, .wrLine 0 [], .wrPart 0 64 [1], .hartAccess 96 .load 0 1 [],
      .hartAccess 0 .load 0 0 [], .hartAccess 0 .store 0 1 [1, 2], .pcieInboundRead 1 0 1, .pcieInboundWrite 0 0 [], .inspectionRead 2]
    = true := by decide
theorem test_wf_pages : refusesAll
    [.tvRevote ⟨.T0, .eng, 256⟩, .registerWrite .pcie ⟨.T0, .eng, 0⟩ 4096 0, .registerWrite .pcie ⟨.T0, .eng, 0⟩ 2 0] = true := by decide
theorem test_wf_module : refusesAll
    [.frequencyStep .T0 130 true, .budgetMessage .T0 .T1 (2 ^ 32) 0, .thermalSample .T0 [256], .auxPathOn 16, .links [(.T0, 3, 0, 0)],
      .memory [8] [], .memory [] [16], .bist [(.T0, 130)] [], .pldmSetTime (2 ^ 48), .entdaa 128, .resetCmdDie 16, .coreHold 96]
    = true := by decide

/-! ### Results that the spec states: its worked examples -/

/-- The next state of a meaning. -/
def nextOf (o : Host.Outcome State Fault Refusal) : State := afterOr State.reset o

/-- The example after R59: engine 17 on T5. -/
theorem test_cistern_window :
    State.locate on 0x030504400000 = .cistern 5 17 0 ∧ State.locate on 0x0305046FFFFF = .cistern 5 17 0x2FFFFF
      ∧ State.locate on 0x030504700000 = .undecoded := by decide +kernel

/-- The example after R521: the page, identity and interrupt source of update unit U13. -/
theorem test_page_of_u13 :
    pageBase + 4096 * pageNo ⟨.C2, .upd, 1⟩ = 0x0F0070601000 ∧ State.locate on 0x0F0070601000 = .page ⟨.C2, .upd, 1⟩ 0
      ∧ on.word ⟨.C2, .upd, 1⟩ 0 = 0x0006010E ∧ pageNo ⟨.C2, .upd, 1⟩ = 0x70601 := by decide +kernel

/-- The example after R210: lot 74,565, its buckets, its owner C1 and its frame. -/
theorem test_lot_frame :
    State.locate on 0x100123450000 = .unified 74565 ∧ on.bucketOf 0 74565 = 65 ∧ on.bucketOf 1 74565 = 1601 ∧ plcPg 74565 = ⟨.C1, .plc, 0⟩
      ∧ on.frameAddr 0 65 300 = 0x020384410000 ∧ bitsOf 0x0964281C 0 2 = 0 ∧ bitsOf 0x0964281C 19 13 = 300 := by decide +kernel

/-- The example after R260: a package-wide granule and the base of stack 5's part, 8 GiB of each stack being local. -/
theorem test_near_granule :
    (nearCw 8 0x12345600).die = dieOf 3 ∧ (nearCw 8 0x12345600).ch = 16 ∧ (nearCw 8 0x12345600).n / 4 = 0x1234
      ∧ (nearCw 8 (0x025A00000000 - nearBase)).die = dieOf 5 := by decide +kernel

/-- The example after R131: of three chunks the record of chunk 2 is written at level 1. -/
theorem test_record_level : raiseLevel 3 2 0 8 = 1 ∧ raiseLevel 3 0 0 8 = 0 ∧ raiseLevel 3 1 0 8 = 0 := by decide

/-- The example after R199: 0xFFFFFFFE precedes 1. -/
theorem test_sequence_order : precedes 0xFFFFFFFE 1 = true ∧ precedes 1 0xFFFFFFFE = false := by decide

/-- The example after R199: the doorbell 0x003F8205 of compartment 0 sets TAIL of stream 0x0205 on T2 to 254. -/
theorem test_doorbell :
    (nextOf (execDbRing .T2 0 0x003F8205
      (after on [(·.setCtxWord .T2 0x205 4 1), (·.setCtxWord .T2 0x205 5 (10 <<< 28)), (·.setCtxWord .T2 0x205 6 8),
        (·.setOwner 1 (dieCode .T2 * 256 + 0x205 / 64) 0), (·.setStreamState .T2 0x205 1), (·.setHead .T2 0x205 250),
        (·.setTail .T2 0x205 250)]))).ctxTail .T2 0x205 = 250 + 4 := by
  decide +kernel

/-- The example after R337: the popularity of a row, and its width among FP32, BF16 and MXFP8. -/
theorem test_row_width :
    State.decayed (1000 <<< 96) (3000 <<< 16 + 10000 <<< 64) 12500 + 40 = 790
      ∧ State.newWidth (15 <<< 80 + 8192 <<< 128 + 1024 <<< 144 + 256 <<< 160) 790 = 2 := by decide +kernel

/-- The example after R563: caps in a round of 2,800 W. -/
theorem test_power_caps :
    ([Die.T0, .H0, .N0, .C0].map
      ((on.setF (pwrPg .N0) Reg.PWR_MODULE_BUDGET_W 2800).capOf
        ((List.range 16).map fun k => (k, if k < 8 then 2800 else if k < 10 then 800 else if k < 12 then 600 else 400)))) =
      [2449, 761, 580, 380] := by decide +kernel

/-- The example after R618: a module reset keeps the spread and the budget, and PAGE_IRQ_EN reads 0 after it. -/
theorem test_module_reset :
    let t := nextOf (execModResetN (after on [(·.setF mgmtPg Reg.MGMT_BOOT_STAGE 9), (·.setF srcPg Reg.CLK_SSC_SPREAD 3),
      (·.setF (pwrPg .N0) Reg.PWR_MODULE_BUDGET_W 2400), (·.setWord cptPg 0x24 1)]))
    t.getF srcPg Reg.CLK_SSC_SPREAD = 3 ∧ t.getF (pwrPg .N0) Reg.PWR_MODULE_BUDGET_W = 2400 ∧ t.word cptPg 0x24 = 0 := by decide +kernel

/-- The same example: a cold power-on keeps neither. -/
theorem test_cold_start :
    let t := on.coldStart 0
    t.getF srcPg Reg.CLK_SSC_SPREAD = 0 ∧ t.getF (pwrPg .N0) Reg.PWR_MODULE_BUDGET_W = 3200 := by decide +kernel

/-- The example after R636: spare 0 of module 2 is in use, so lane 17 takes spare 1, and 8.6 µs read as 9. -/
theorem test_spare_substitution :
    let s := after on [(·.setF (d2dPg .T3 0) Reg.D2D_STAT_STATE 2), (·.setWord (d2dPg .T3 0) 0x48 (5 + 64 + 128) 2)]
    let t := nextOf (execSpareSubstitution .T3 0 2 17 { nextOf (execLaneLoss .T3 0 2 17 s) with base := 8600 })
    bitsOf (t.word (d2dPg .T3 0) 0x48 2) 8 8 = 17 + 64 ∧ t.getF (d2dPg .T3 0) Reg.D2D_SUBST_US_MAX = 9 := by decide +kernel

/-- The example after R458: the snoop's answer brings the data of core 5's writeback buffer, and the held writeback is discarded. -/
theorem test_writeback_race :
    let x : Line := ⟨[], [⟨.core 5, [7], 1⟩], some ⟨.rdUnique (.core 60), [.core 5], [9], false, some [7], [.core 5], 0⟩, []⟩
    let t := nextOf (execSnpResp .H0 4 (on.setLine 4 x))
    t.mem = on.mem ∧ (t.lineAt 4).bufs = [⟨.core 5, [7], 2⟩]
      ∧ ((nextOf (execData 4 t)).lineAt 4).copies = [⟨.core 60, 2, [7]⟩] := by decide +kernel

/-- The check value of CRC-32C over the digits 1 to 9, which the flits of R29 carry. -/
theorem test_crc32c : crc32c ([49, 50, 51, 52, 53, 54, 55, 56, 57] : List (BitVec 8)) = 0xE3069283 := by decide +kernel

/-- R661: full credit is 1.578 PB. -/
theorem test_full_credit : whcCreditMax / 10 ^ 12 = 1578 := by decide

/-! ### A state and operands that meet the hypotheses of each statement -/

set_option maxRecDepth 100000 in
theorem witness_LinkFlitsReceived_1a : ∃ (d : Die) (p : Nat) (f : Bytes) (s : State),
    s.LiveOn d ∧ p < 3 ∧ s.rxState d p ≠ 0 ∧ State.flitOk f = true ∧ State.flitReserved f = false ∧ State.flitType f = 0
      ∧ State.flitSeq f = (s.link d p).expect :=
  ⟨.T0, 0, flit 0 0 0 [], on.setF (d2dPg .T0 0) Reg.D2D_STAT_STATE 2, by decide +kernel⟩

set_option maxRecDepth 100000 in
theorem witness_LinkFlitsReceived_1b : ∃ (d : Die) (p : Nat) (f : Bytes) (s : State),
    s.LiveOn d ∧ p < 3 ∧ s.rxState d p ≠ 0 ∧ State.flitOk f = true ∧ State.flitReserved f = false ∧ State.flitType f = 0
      ∧ State.flitSeq f = (s.link d p).expect :=
  ⟨.C3, 2, flit 0 1023 1 [List.replicate 16 0], (on.setF (d2dPg .C3 2) Reg.D2D_STAT_STATE 3).setLink .C3 2 { Link.init with expect := 1023 }, by decide +kernel⟩

set_option maxRecDepth 100000 in
theorem witness_LinkFlitsReceived_2 : ∃ (d : Die) (p : Nat) (f : Bytes) (s : State),
    s.LiveOn d ∧ p < 3 ∧ s.rxState d p ≠ 0 ∧ State.flitOk f = true ∧ State.flitReserved f = false ∧ State.flitType f = 1 :=
  ⟨.T0, 0, flit 1 0 0 [], on.setF (d2dPg .T0 0) Reg.D2D_STAT_STATE 2, by decide +kernel⟩

set_option maxRecDepth 100000 in
theorem witness_LinkFlitsReceived_3 : ∃ (d : Die) (p : Nat) (f : Bytes) (s : State),
    s.LiveOn d ∧ p < 3 ∧ s.rxState d p ≠ 0 ∧ State.flitOk f = true ∧ State.flitReserved f = false ∧ State.flitType f = 2
      ∧ (∃ e ∈ (State.takeAck (s.link d p) f).replay, e.1 = State.flitSeq f) :=
  ⟨.T0, 0, flit 2 5 0 [], (on.setF (d2dPg .T0 0) Reg.D2D_STAT_STATE 2).setLink .T0 0 { Link.init with replay := [(4, []), (5, [])] }, by decide +kernel⟩

set_option maxRecDepth 100000 in
theorem witness_LinkFlitsReceived_4a : ∃ (d : Die) (p : Nat) (f : Bytes) (s : State),
    s.LiveOn d ∧ p < 3 ∧ s.rxState d p ≠ 0 ∧ State.flitOk f = true ∧ (State.flitReserved f = true ∨ State.flitType f = 3) :=
  ⟨.T0, 0, flit 3 0 0 [], on.setF (d2dPg .T0 0) Reg.D2D_STAT_STATE 2, by decide +kernel⟩

set_option maxRecDepth 100000 in
theorem witness_LinkFlitsReceived_4b : ∃ (d : Die) (p : Nat) (f : Bytes) (s : State),
    s.LiveOn d ∧ p < 3 ∧ s.rxState d p ≠ 0 ∧ State.flitOk f = true ∧ (State.flitReserved f = true ∨ State.flitType f = 3) :=
  ⟨.T0, 0, (flit 0 0 0 []).take 11 ++ [0x80] ++ leBytes (crc32c ((flit 0 0 0 []).take 11 ++ [0x80] ++ (flit 0 0 0 []).drop 16)) 4 ++ (flit 0 0 0 []).drop 16, on.setF (d2dPg .T0 0) Reg.D2D_STAT_STATE 2, by decide +kernel⟩

set_option maxRecDepth 100000 in
theorem witness_WrongFlitBringsNothing_1a : ∃ (d : Die) (p : Nat) (f : Bytes) (s : State),
    (State.flitOk f = false ∨ State.flitSeq f ≠ (s.link d p).expect) :=
  ⟨.T0, 0, flit 0 1 0 [], on.setF (d2dPg .T0 0) Reg.D2D_STAT_STATE 2, by decide +kernel⟩

theorem witness_WrongFlitBringsNothing_1b : ∃ (d : Die) (p : Nat) (f : Bytes) (s : State),
    (State.flitOk f = false ∨ State.flitSeq f ≠ (s.link d p).expect) :=
  ⟨.T0, 0, [], on.setF (d2dPg .T0 0) Reg.D2D_STAT_STATE 2, by decide +kernel⟩

theorem witness_LinkFlitsSent_1a : ∃ (d : Die) (p : Nat) (s : State),
    s.LiveOn d ∧ s.txReady d p = true ∧ (s.link d p).accepted ≠ 0 ∧ (32 ≤ (s.link d p).accepted ∨ (s.link d p).since + 64 ≤ s.base) :=
  ⟨.T0, 0, (on.setF (d2dPg .T7 1) Reg.D2D_STAT_STATE 2).setLink .T0 0 { Link.init with accepted := 32, since := 9 }, by decide +kernel⟩

theorem witness_LinkFlitsSent_1b : ∃ (d : Die) (p : Nat) (s : State),
    s.LiveOn d ∧ s.txReady d p = true ∧ (s.link d p).accepted ≠ 0 ∧ (32 ≤ (s.link d p).accepted ∨ (s.link d p).since + 64 ≤ s.base) :=
  ⟨.T0, 0, (State.setLink { on.setF (d2dPg .T7 1) Reg.D2D_STAT_STATE 2 with base := 64 } .T0 0 { Link.init with accepted := 1, since := 0 }), by decide +kernel⟩

theorem witness_LinkFlitsSent_2 : ∃ (d : Die) (p q : Nat) (e : Nat × Bytes) (r : List (Nat × Bytes)) (s : State),
    s.LiveOn d ∧ s.txReady d p = true ∧ (s.link d p).resend = some q ∧ ((s.link d p).replay.dropWhile fun e => e.1 != q) = e :: r :=
  ⟨.T0, 0, 7, (7, [1]), [(8, [2])], (on.setF (d2dPg .T7 1) Reg.D2D_STAT_STATE 2).setLink .T0 0 { Link.init with replay := [(6, [0]), (7, [1]), (8, [2])], resend := some 7 }, by decide +kernel⟩

theorem witness_LinkFlitsSent_3 : ∃ (d : Die) (p : Nat) (s : State),
    s.LiveOn d ∧ s.txReady d p = true ∧ (s.link d p).resend = none ∧ (s.link d p).replay.length < 512 ∧ (s.link d p).queue ≠ [] :=
  ⟨.T0, 0, (on.setF (d2dPg .T7 1) Reg.D2D_STAT_STATE 2).setLink .T0 0 { Link.init with seq := 1023, queue := [(true, [])] }, by decide +kernel⟩

theorem witness_LinkFlitsSent_4a : ∃ (d : Die) (p : Nat) (s : State),
    s.LiveOn d ∧ s.txReady d p = true ∧ (s.link d p).resend = none ∧ (512 ≤ (s.link d p).replay.length ∨ (s.link d p).queue = []) :=
  ⟨.T0, 0, on.setF (d2dPg .T7 1) Reg.D2D_STAT_STATE 2, by decide +kernel⟩

theorem witness_LinkFlitsSent_4b : ∃ (d : Die) (p : Nat) (s : State),
    s.LiveOn d ∧ s.txReady d p = true ∧ (s.link d p).resend = none ∧ (512 ≤ (s.link d p).replay.length ∨ (s.link d p).queue = []) :=
  ⟨.T0, 0, (on.setF (d2dPg .T7 1) Reg.D2D_STAT_STATE 2).setLink .T0 0 { Link.init with replay := List.replicate 512 (0, []) }, by decide +kernel⟩

theorem witness_LinkFlitsSent_5 : ∃ (x y : Die) (m : Msg) (vc p : Nat) (fb : Bool) (s : State),
    s.LiveOn x ∧ m.src = x ∧ SMap.getD s.routers (dieCode x) [] = [] ∧ s.reissue = [] ∧ s.nextHop x m = some (y, vc, fb)
      ∧ instTo x y = some p ∧ chunksFit m = true ∧ s.linkUp x p = true
      ∧ m.chunks.length ≤ (s.link x p).credits.getD (clsNo m.cls * 2 + vc) 0 :=
  ⟨.T0, .T7, ⟨.T0, .T7, .dat, none, List.replicate 17 []⟩, 0, 0, false, on, by decide +kernel⟩

theorem witness_LinkLanesLost_1 : ∃ (d : Die) (p : Nat) (s : State),
    p < 3 ∧ s.rxState d p = 1 ∧ (s.link d p).train = [] ∧ (s.link d p).stuck = [] :=
  ⟨.T0, 0, on.setF (d2dPg .T0 0) Reg.D2D_STAT_STATE 1, by decide +kernel⟩

theorem witness_LinkLanesLost_2a : ∃ (d : Die) (p m l : Nat) (s : State),
    p < 3 ∧ m < linkModules d p ∧ l < 64 ∧ s.rxState d p ≠ 0 ∧ (m, l) ∉ (s.link d p).stuck :=
  ⟨.T0, 2, 3, 63, on.setF (d2dPg .T0 2) Reg.D2D_STAT_STATE 3, by decide +kernel⟩

theorem witness_LinkLanesLost_2b : ∃ (d : Die) (p m l : Nat) (s : State),
    p < 3 ∧ m < linkModules d p ∧ l < 64 ∧ s.rxState d p ≠ 0 ∧ (m, l) ∉ (s.link d p).stuck :=
  ⟨.C0, 0, 1, 0, on.setF (d2dPg .C0 0) Reg.D2D_STAT_STATE 1, by decide +kernel⟩

theorem witness_LinkLanesLost_3 : ∃ (d : Die) (p m l : Nat) (u : Training) (s : State),
    p < 3 ∧ ((s.link d p).train.find? fun t => t.m == m && t.l == l) = some u ∧ m < 4 :=
  ⟨.T0, 0, 3, 63, ⟨3, 63, 2, 0⟩, (on.setF (d2dPg .T0 0) Reg.D2D_STAT_STATE 2).setLink .T0 0 { Link.init with train := [⟨3, 63, 2, 0⟩] }, by decide +kernel⟩

theorem witness_LinkLanesLost_4 : ∃ (d : Die) (p : Nat) (s : State),
    p < 3 ∧ (s.link d p).stuck ≠ [] ∧ s.halvesOk d p = true ∧ s.halvesOk (peerOf d p).1 (peerOf d p).2 = true :=
  ⟨.T0, 0, (on.setF (d2dPg .T0 0) Reg.D2D_STAT_STATE 2).setLink .T0 0 { Link.init with stuck := [(0, 5)] }, by decide +kernel⟩

theorem witness_LinkLanesLost_5 : ∃ (d : Die) (p : Nat) (s : State),
    p < 3 ∧ (s.link d p).stuck ≠ [] ∧ (s.halvesOk d p = false ∨ s.halvesOk (peerOf d p).1 (peerOf d p).2 = false) :=
  ⟨.T0, 0, (on.setF (d2dPg .T0 0) Reg.D2D_STAT_STATE 2).setLink .T0 0 { Link.init with stuck := [(0, 5)], lost := (List.range 64).map fun l => (0, l) }, by decide +kernel⟩

theorem witness_MatmulRuns_1a : ∀ p ∈ [(Instr.matmul, 0x01), (Instr.matmulAcc, 0x02)], ∃ (d : Die) (n q : Nat) (x : Desc) (s : State),
    s.RunningDesc d n q p.2 x ∧ x.aborting = false ∧ s.liveMask d (s.ctxEngine d n) ≠ 0 ∧ x.mmK = 0
      ∧ s.readBad x (State.allRows x) (State.allCols x) = none ∧ s.writeBad x (State.allRows x) (State.allCols x) = none :=
  fun p _ => ⟨.T0, 0, 0, job p.2, withJobs on [job p.2], by revert p; decide +kernel⟩

theorem witness_MatmulRuns_1b : ∀ p ∈ [(Instr.matmul, 0x01), (Instr.matmulAcc, 0x02)], ∃ (d : Die) (n q : Nat) (x : Desc) (s : State) (a : Nat) (r : Arr),
    s.RunningDesc d n q p.2 x ∧ x.aborting = false ∧ s.liveMask d (s.ctxEngine d n) ≠ 0 ∧ x.mmK ≠ 0 ∧ a < 4
      ∧ (s.engine d (s.ctxEngine d n)).arrays[a]? = some r ∧ (∀ z ∈ (s.engine d (s.ctxEngine d n)).arrays.take a, z.run ≠ none)
      ∧ (s.liveMask d (s.ctxEngine d n)).testBit a = true ∧ r.run = none ∧ r.next = none ∧ r.isolated = false ∧ r.clearing = false
      ∧ (r.last = none ∨ r.last = some (s.classTag d n)) ∧ x.untaken (s.ctxFill d n) = true ∧ s.tileTurn d (s.ctxEngine d n) n = true :=
  fun p _ => ⟨.T0, 0, 0, tile p.2, withJobs on [tile p.2], 0, Arr.init, by revert p; decide +kernel⟩

theorem witness_MatmulRuns_1c : ∀ p ∈ [(Instr.matmul, 0x01), (Instr.matmulAcc, 0x02)], ∃ (d : Die) (n q : Nat) (x : Desc) (s : State) (a : Nat) (r : Arr),
    s.RunningDesc d n q p.2 x ∧ x.aborting = false ∧ s.liveMask d (s.ctxEngine d n) ≠ 0 ∧ x.mmK ≠ 0 ∧ a < 4
      ∧ (s.engine d (s.ctxEngine d n)).arrays[a]? = some r ∧ (∀ z ∈ (s.engine d (s.ctxEngine d n)).arrays.take a, z.run ≠ none)
      ∧ (s.liveMask d (s.ctxEngine d n)).testBit a = true ∧ r.run = none ∧ r.next = none ∧ r.isolated = false ∧ r.clearing = false
      ∧ (r.last = none ∨ r.last = some (s.classTag d n)) ∧ x.untaken (s.ctxFill d n) = true ∧ s.tileTurn d (s.ctxEngine d n) n = true :=
  fun p _ => ⟨.T0, 0, 0, tile p.2, (withJobs on [tile p.2]).setEngine .T0 0 { Engine.init with arrays := List.replicate 3 { Arr.init with run := some ⟨1, 0, 0, 0, none⟩ } ++ [Arr.init] }, 3, Arr.init, by revert p; decide +kernel⟩

theorem witness_MatmulRuns_2 : ∃ (d : Die) (e a : Nat) (r : Arr) (u : TileRun) (x y : Desc) (s : State),
    s.LiveOn d ∧ (s.engine d e).arrays[a]? = some r ∧ r.run = some u ∧ r.next = none
      ∧ ((s.stream d u.n).fetched.find? fun x => x.seq == u.seq) = some x
      ∧ ((s.stream d u.n).fetched.dropWhile fun x => x.seq != u.seq)[1]? = some y ∧ y.phase = .fetched ∧ (y.op = 0x01 ∨ y.op = 0x02)
      ∧ y.mmK ≠ 0 ∧ (∀ w ∈ State.firstWeights y, ∀ v ∈ State.writesOf x, w.1 + w.2 ≤ v.1 ∨ v.1 + v.2 ≤ w.1) :=
  ⟨.T0, 0, 0, { Arr.init with run := some ⟨0, 0, 0, 0, none⟩ }, ⟨0, 0, 0, 0, none⟩, tile 1, { tile (1 + 4096 <<< 192) with slot := 1, seq := 1, phase := .fetched, pins := [(0, 0), (1, 1)] }, (withJobs on [tile 1, { tile (1 + 4096 <<< 192) with slot := 1, seq := 1, phase := .fetched, pins := [(0, 0), (1, 1)] }]).setEngine .T0 0 { Engine.init with arrays := [{ Arr.init with run := some ⟨0, 0, 0, 0, none⟩ }] }, by decide +kernel⟩

theorem witness_MatmulRuns_3a : ∃ (d : Die) (e a : Nat) (r : Arr) (u : TileRun) (x : Desc) (s : State),
    s.LiveOn d ∧ (s.engine d e).arrays[a]? = some r ∧ r.run = some u ∧ r.isolated = false
      ∧ ((s.stream d u.n).fetched.find? fun x => x.seq == u.seq && x.phase == .running) = some x ∧ s.desc? d u.n x.slot = some x
      ∧ x.aborting = false ∧ s.writesMoving x = false
      ∧ s.readBad x (x.tileRowSpan (s.ctxFill d u.n) u.tile) (x.tileColSpan u.tile) = none
      ∧ s.writeBad x (x.tileRowSpan (s.ctxFill d u.n) u.tile) (x.tileColSpan u.tile) = none ∧ x.finished + 1 = x.tiles (s.ctxFill d u.n) :=
  ⟨.T0, 0, 0, { Arr.init with run := some ⟨0, 0, 0, 0, none⟩ }, ⟨0, 0, 0, 0, none⟩, tile 1, (withJobs on [tile 1]).setEngine .T0 0 { Engine.init with arrays := [{ Arr.init with run := some ⟨0, 0, 0, 0, none⟩ }] }, by decide +kernel⟩

theorem witness_MatmulRuns_3b : ∃ (d : Die) (e a : Nat) (r : Arr) (u : TileRun) (x : Desc) (s : State),
    s.LiveOn d ∧ (s.engine d e).arrays[a]? = some r ∧ r.run = some u ∧ r.isolated = false
      ∧ ((s.stream d u.n).fetched.find? fun x => x.seq == u.seq && x.phase == .running) = some x ∧ s.desc? d u.n x.slot = some x
      ∧ x.aborting = false ∧ s.writesMoving x = false
      ∧ s.readBad x (x.tileRowSpan (s.ctxFill d u.n) u.tile) (x.tileColSpan u.tile) = none
      ∧ s.writeBad x (x.tileRowSpan (s.ctxFill d u.n) u.tile) (x.tileColSpan u.tile) = none ∧ x.finished + 1 ≠ x.tiles (s.ctxFill d u.n) :=
  ⟨.T0, 0, 0, { Arr.init with run := some ⟨0, 0, 0, 0, none⟩, next := some ⟨0, 0, 1, 0, none⟩ }, ⟨0, 0, 0, 0, none⟩, wider, (withJobs on [wider]).setEngine .T0 0 { Engine.init with arrays := [{ Arr.init with run := some ⟨0, 0, 0, 0, none⟩, next := some ⟨0, 0, 1, 0, none⟩ }] }, by decide +kernel⟩

theorem witness_FrontEndCommands_1a : ∃ (d : Die) (n : Nat) (s u : State),
    s.LiveOn d ∧ n = s.selStream d ∧ (s.streamState d n = 0 ∨ s.streamState d n = 3) ∧ s.ctxValid d n = true ∧ s.bindOk d n = true
      ∧ u = (s.setStreamState d n 1).setF (fePg d) Reg.FE_CTX_STATE_HALT_CAUSE 0 n :=
  ⟨.T0, 0, streamIn 0, ((streamIn 0).setStreamState .T0 0 1).setF (fePg .T0) Reg.FE_CTX_STATE_HALT_CAUSE 0 0, by decide +kernel, by decide +kernel, by decide +kernel, by decide +kernel, by decide +kernel, rfl⟩

theorem witness_FrontEndCommands_1b : ∃ (d : Die) (n : Nat) (s u : State),
    s.LiveOn d ∧ n = s.selStream d ∧ (s.streamState d n = 0 ∨ s.streamState d n = 3) ∧ s.ctxValid d n = true ∧ s.bindOk d n = true
      ∧ u = (s.setStreamState d n 1).setF (fePg d) Reg.FE_CTX_STATE_HALT_CAUSE 0 n :=
  ⟨.T0, 0, (streamIn 3).setStream .T0 0 ⟨[{ job 0x3F with phase := .ended }], true⟩, (((streamIn 3).setStream .T0 0 ⟨[{ job 0x3F with phase := .ended }], true⟩).setStreamState .T0 0 1).setF (fePg .T0) Reg.FE_CTX_STATE_HALT_CAUSE 0 0, by decide +kernel, by decide +kernel, by decide +kernel, by decide +kernel, by decide +kernel, rfl⟩

theorem witness_FrontEndCommands_2a : ∃ (d : Die) (s : State),
    s.LiveOn d ∧ s.streamState d (s.selStream d) = 1 :=
  ⟨.T0, streamIn 1, by decide +kernel⟩

theorem witness_FrontEndCommands_2b : ∃ (d : Die) (s : State),
    s.LiveOn d ∧ s.streamState d (s.selStream d) = 1 :=
  ⟨.T0, withJobs (streamIn 1) [job 0], by decide +kernel⟩

theorem witness_FrontEndCommands_3 : ∃ (d : Die) (s : State),
    s.LiveOn d ∧ s.streamActive d (s.selStream d) = true :=
  ⟨.T0, withJobs (streamIn 2) [job 0x3F], by decide +kernel⟩

theorem witness_FrontEndCommands_4 : ∃ (d : Die) (w : Nat) (_v : W32) (s : State),
    s.LiveOn d ∧ (s.streamState d (s.selStream d) = 0 ∨ s.streamState d (s.selStream d) = 3) ∧ w < 16 :=
  ⟨.T0, 15, 0xFFFFFFFF, streamIn 3, by decide +kernel⟩

theorem witness_FrontEndCommands_5 : ∃ (d : Die) (c : Nat) (v : W32) (s : State),
    s.LiveOn d ∧ c < 64 ∧ s.doorbellOk d c (bitsOf v.toNat 0 14) (bitsOf v.toNat 14 16) = true :=
  ⟨.T0, 0, BitVec.ofNat 32 (63 <<< 14), streamIn 1, by decide +kernel⟩

theorem witness_FrontEndCommands_6 : ∃ (d : Die) (s : State),
    s.LiveOn d ∧ s.streamState d (s.selStream d) ≠ 1 :=
  ⟨.T0, on, by decide +kernel⟩

theorem witness_FrontEndCommands_7 : ∃ (d : Die) (s : State),
    s.LiveOn d ∧ s.streamActive d (s.selStream d) = false :=
  ⟨.T0, on, by decide +kernel⟩

theorem witness_FrontEndCommands_8 : ∃ (d : Die) (_w : Nat) (_v : W32) (s : State),
    s.LiveOn d ∧ s.streamActive d (s.selStream d) = true :=
  ⟨.T0, 0, 1, streamIn 1, by decide +kernel⟩

theorem witness_FrontEndCommands_9 : ∃ (d : Die) (c n k : Nat) (v : W32) (s : State),
    c < 64 ∧ n < 2 ^ 14 ∧ k < 16 ∧ s.doorbellOk d c (bitsOf v.toNat 0 14) (bitsOf v.toNat 14 16) = false :=
  ⟨.T0, 0, 0, 15, 1, on, by decide +kernel⟩

theorem witness_DescriptorsFlow_1 : ∃ (d : Die) (n pa pbmt : Nat) (s s1 : State),
    s.LiveOn d ∧ s.mayFetch d n = true ∧ s.ringXlate d n (s.ctxManifest d n + 64 * s.ctxHead d n) false = (.ok pa pbmt, s1)
      ∧ s1.badIn pa 64 = false :=
  ⟨.T0, 0, 0, 0, (streamIn 1).setTail .T0 0 1, (((streamIn 1).setTail .T0 0 1).ringXlate .T0 0 (((streamIn 1).setTail .T0 0 1).ctxManifest .T0 0 + 64 * ((streamIn 1).setTail .T0 0 1).ctxHead .T0 0) false).2, by decide +kernel, by decide +kernel, pair_eq (by decide +kernel), by decide +kernel⟩

theorem witness_DescriptorsFlow_2 : ∃ (d : Die) (n q : Nat) (x : Desc) (s : State),
    s.LiveOn d ∧ s.startable d n q = true ∧ s.firstInTurn d (s.ctxEngine d n) n = true ∧ s.ClassRuns d n ∧ s.desc? d n q = some x :=
  ⟨.T0, 0, 0, { job 0x3F with phase := .fetched }, withJobs (streamIn 1) [{ job 0x3F with phase := .fetched }], by decide +kernel⟩

theorem witness_DescriptorsFlow_3 : ∃ (d : Die) (n : Nat) (x : Desc) (r : List Desc) (s s1 : State),
    s.LiveOn d ∧ (s.stream d n).fetched = x :: r ∧ x.phase = .ended ∧ ((s.stream d n).held = false ∨ s.streamState d n = 1)
      ∧ s.writeRecord d n x = (true, s1) :=
  ⟨.T0, 0, { job 0x3F with phase := .ended, cycles := some 6 }, [], withJobs (streamIn 1) [{ job 0x3F with phase := .ended, cycles := some 6 }], ((withJobs (streamIn 1) [{ job 0x3F with phase := .ended, cycles := some 6 }]).writeRecord .T0 0 ({ job 0x3F with phase := .ended, cycles := some 6 })).2, by decide +kernel, by decide +kernel, by decide +kernel, by decide +kernel, pair_eq (by decide +kernel)⟩

theorem witness_DescriptorsFlow_4 : ∃ (d : Die) (e : Nat) (s : State),
    s.LiveOn d ∧ s.idleLong d e = true ∧ s.fillWaits d e = false :=
  ⟨.T0, 0, { on with base := 10 ^ 9 }, by decide +kernel⟩

theorem witness_DescriptorsFlow_5 : ∃ (d : Die) (e : Nat) (s : State),
    s.LiveOn d ∧ s.foreground d e = true ∧ (s.engine d e).filling = true :=
  ⟨.T0, 0, (withJobs (streamIn 1) [job 0x3F]).setEngine .T0 0 { Engine.init with filling := true }, by decide +kernel⟩

theorem witness_DescriptorsFlow_6 : ∃ (d : Die) (e : Nat) (s : State),
    s.LiveOn d ∧ s.idleLong d e = true ∧ s.fillWaits d e = true :=
  ⟨.T0, 0, withJobs filling [{ job 0x10 with slot := 0 }], by decide +kernel⟩

theorem witness_DescriptorsFlow_7 : ∃ (d : Die) (e : Nat) (_v : W32) (s : State),
    s.LiveOn d ∧ ((s.boundStreams d e).any fun n => s.ctxFill d n && s.streamActive d n) = false :=
  ⟨.T0, 99, 63, on, by decide +kernel⟩

theorem witness_VectorOperationsWrite_1 : ∀ p ∈ vectorOps, ∃ (d : Die) (n q : Nat) (x : Desc) (s : State),
    s.RunningDesc d n q 0x08 x ∧ x.vop = p.2 ∧ s.ctxFill d n = false ∧ (s.vecTaken d n).vecBad x = none
      ∧ (s.vecTaken d n).vecWriteBad x 0 (vecOut x) = none :=
  fun p _ => ⟨.T0, 0, 0, vecJob p.2, withJobs on [vecJob p.2], by revert p; decide +kernel⟩

theorem witness_VectorOperationsWrite_2 : ∀ p ∈ vectorOps, ∃ (d : Die) (n q lo k : Nat) (x : Desc) (s : State),
    s.RunningDesc d n q 0x08 x ∧ x.vop = p.2 ∧ s.ClassRuns d n ∧ s.ctxFill d n = true ∧ (s.vecTaken d n).vecBad x = none
      ∧ lo = x.next * State.vecUnit x ∧ k = min (State.vecUnit x) (vecOut x - lo) ∧ (s.vecTaken d n).vecWriteBad x lo k = none :=
  fun p _ => ⟨.T0, 0, 0, 0, 1, vecJob p.2, withJobs filling [vecJob p.2], by revert p; decide +kernel⟩

theorem witness_VectorOperationsWrite_3 : ∀ p ∈ vectorOps, ∃ (d : Die) (n q : Nat) (x : Desc) (b : State.BadOp) (s : State),
    s.RunningDesc d n q 0x08 x ∧ x.vop = p.2 ∧ s.ClassRuns d n ∧ x.next = 0 ∧ (s.vecTaken d n).vecBad x = some b :=
  fun p _ => ⟨.T0, 0, 0, vecJob p.2, ⟨0, 0⟩, { withJobs on [vecJob p.2] with bad := [(0, 64)] }, by revert p; decide +kernel⟩

theorem witness_ReduceLocalWrites_1a : ∃ (d : Die) (n q : Nat) (x : Desc) (s : State),
    s.RunningDesc d n q 0x09 x ∧ x.rKind = 0 ∧ s.ClassRuns d n ∧ (s.vecTaken d n).redBad x = none
      ∧ (s.vecTaken d n).redWriteBad x = none ∧ State.mergeFaults x ((List.range x.rCount).map ((s.vecTaken d n).recsAt x)) = []
      ∧ x.rFinal = false :=
  ⟨.T0, 0, 0, { job (9 + 1 <<< 448) with pins := [(0, 0)] }, withJobs (on) [{ job (9 + 1 <<< 448) with pins := [(0, 0)] }], by decide +kernel⟩

theorem witness_ReduceLocalWrites_1b : ∃ (d : Die) (n q : Nat) (x : Desc) (s : State),
    s.RunningDesc d n q 0x09 x ∧ x.rKind = 0 ∧ s.ClassRuns d n ∧ (s.vecTaken d n).redBad x = none
      ∧ (s.vecTaken d n).redWriteBad x = none ∧ State.mergeFaults x ((List.range x.rCount).map ((s.vecTaken d n).recsAt x)) = [] :=
  ⟨.T0, 0, 0, { job (9 + 1 <<< 416 + 1 <<< 448 + 1 <<< 471) with pins := [(0, 0)] }, withJobs on [{ job (9 + 1 <<< 416 + 1 <<< 448 + 1 <<< 471) with pins := [(0, 0)] }], by decide +kernel⟩

theorem witness_ReduceLocalWrites_2 : ∃ (d : Die) (n q : Nat) (x : Desc) (s : State),
    s.RunningDesc d n q 0x09 x ∧ x.rKind = 1 ∧ s.ClassRuns d n ∧ (s.vecTaken d n).redBad x = none
      ∧ (s.vecTaken d n).redWriteBad x = none :=
  ⟨.T0, 0, 0, { job (9 + 1 <<< 416 + 2 <<< 448 + 1 <<< 464) with pins := [(0, 0)] }, withJobs (on) [{ job (9 + 1 <<< 416 + 2 <<< 448 + 1 <<< 464) with pins := [(0, 0)] }], by decide +kernel⟩

theorem witness_ReduceLocalWrites_3 : ∃ (d : Die) (n q : Nat) (x : Desc) (s : State),
    s.RunningDesc d n q 0x09 x ∧ x.rKind = 2 ∧ s.ClassRuns d n ∧ (s.vecTaken d n).redBad x = none
      ∧ (s.vecTaken d n).redWriteBad x = none :=
  ⟨.T0, 0, 0, { job (9 + 32 <<< 384 + 2 <<< 416 + 2 <<< 448 + 2 <<< 464) with pins := [(0, 0)] }, withJobs (on) [{ job (9 + 32 <<< 384 + 2 <<< 416 + 2 <<< 448 + 2 <<< 464) with pins := [(0, 0)] }], by decide +kernel⟩

theorem witness_ReduceLocalWrites_4 : ∃ (d : Die) (n q : Nat) (x : Desc) (s : State),
    s.RunningDesc d n q 0x09 x ∧ x.rKind = 3 ∧ s.ClassRuns d n ∧ (s.vecTaken d n).redBad x = none
      ∧ (s.vecTaken d n).redWriteBad x = none
      ∧ (∀ i < x.rCount, ∀ c < x.rContrib, nrmReserved ((s.vecTaken d n).rdV x.pins (x.addr 16 + c * x.rStride + 32 * i) 32) = false) :=
  ⟨.T0, 0, 0, { job (9 + 32 <<< 384 + 1 <<< 416 + 2 <<< 448 + 3 <<< 464) with pins := [(0, 0)] }, withJobs (on) [{ job (9 + 32 <<< 384 + 1 <<< 416 + 2 <<< 448 + 3 <<< 464) with pins := [(0, 0)] }], by decide +kernel⟩

theorem witness_MoveAndFence_1 : ∀ p ∈ [(Instr.moveCopy, 0), (Instr.moveFill, 1)], ∃ (d : Die) (n q : Nat) (x : Desc) (s : State),
    s.RunningDesc d n q 0x10 x ∧ x.f 48 0 1 = p.2 ∧ s.ctxFill d n = false ∧ s.moveBad x = none
      ∧ s.moveWriteBad x 0 (State.mvBytes x) = none :=
  fun p _ => ⟨.T0, 0, 0, copyJob p.2 1, withJobs on [copyJob p.2 1], by revert p; decide +kernel⟩

theorem witness_MoveAndFence_2a : ∀ p ∈ [(Instr.moveCopy, 0), (Instr.moveFill, 1)], ∃ (d : Die) (n q : Nat) (x : Desc) (s : State),
    s.RunningDesc d n q 0x10 x ∧ x.f 48 0 1 = p.2 ∧ s.ClassRuns d n ∧ s.ctxFill d n = true ∧ s.moveBad x = none
      ∧ s.moveWriteBad x (4096 * x.next) (min 4096 (State.mvBytes x - 4096 * x.next)) = none ∧ State.mvBytes x ≤ 4096 * (x.next + 1) :=
  fun p _ => ⟨.T0, 0, 0, copyJob p.2 1, withJobs filling [copyJob p.2 1], by revert p; decide +kernel⟩

theorem witness_MoveAndFence_2b : ∀ p ∈ [(Instr.moveCopy, 0), (Instr.moveFill, 1)], ∃ (d : Die) (n q : Nat) (x : Desc) (s : State),
    s.RunningDesc d n q 0x10 x ∧ x.f 48 0 1 = p.2 ∧ s.ClassRuns d n ∧ s.ctxFill d n = true ∧ s.moveBad x = none
      ∧ s.moveWriteBad x (4096 * x.next) (min 4096 (State.mvBytes x - 4096 * x.next)) = none ∧ 4096 * (x.next + 1) < State.mvBytes x :=
  fun p _ => ⟨.T0, 0, 0, copyJob p.2 513, withJobs filling [copyJob p.2 513], by revert p; decide +kernel⟩

theorem witness_MoveAndFence_3 : ∃ (d : Die) (n q : Nat) (x : Desc) (s : State),
    s.RunningDesc d n q 0x3F x :=
  ⟨.T0, 0, 0, job (0x3F), withJobs (on) [job (0x3F)], by decide +kernel⟩

theorem witness_MoveAndFence_4 : ∃ (d : Die) (n q : Nat) (x : Desc) (s : State),
    s.RunningDesc d n q 0x38 x ∧ x.aux = [] :=
  ⟨.T0, 0, 0, job 0x38, withJobs on [job 0x38], by decide +kernel⟩

theorem witness_MoveAndFence_5 : ∃ (d : Die) (n q : Nat) (x : Desc) (s : State),
    s.RunningDesc d n q 0x38 x ∧ x.aux ≠ [] ∧ (∀ y ∈ (s.stream d n).fetched.takeWhile (fun y => y.slot != q), y.phase = .ended) :=
  ⟨.T0, 0, 1, { job 0x38 with slot := 1, aux := [1] }, withJobs on [{ job 0x3F with phase := .ended }, { job 0x38 with slot := 1, aux := [1] }], by decide +kernel⟩

theorem witness_TallyDescriptors_1a : ∃ (d : Die) (n q : Nat) (x : Desc) (w : Waiter) (s : State),
    s.RunningDesc d n q 0x39 x ∧ x.aux = [] ∧ s.OwnTally d n x 1
      ∧ w = ⟨dieCode d, n, x.seq, if x.f 16 14 2 == 1 then .ge (x.f 24 0 64) else .eq (x.f 24 0 64)⟩
      ∧ w.what.met (s.tally (State.bodyTally x)).value = true :=
  ⟨.T0, 0, 0, job (0x39 + 5 <<< 192 + 1 <<< 142), ⟨0, 0, 0, .ge 5⟩, withJobs ((on.setOwner 2 0 0).setTally 0 { Tally.init with mode := 1, value := 5 }) [job (0x39 + 5 <<< 192 + 1 <<< 142)], by decide +kernel⟩

theorem witness_TallyDescriptors_1b : ∃ (d : Die) (n q : Nat) (x : Desc) (w : Waiter) (s : State),
    s.RunningDesc d n q 0x39 x ∧ x.aux = [] ∧ s.OwnTally d n x 1
      ∧ w = ⟨dieCode d, n, x.seq, if x.f 16 14 2 == 1 then .ge (x.f 24 0 64) else .eq (x.f 24 0 64)⟩
      ∧ w.what.met (s.tally (State.bodyTally x)).value = false ∧ s.waitEntries (State.bodyTally x) < 4096 :=
  ⟨.T0, 0, 0, job (0x39 + 4 <<< 192 + 2 <<< 142), ⟨0, 0, 0, .eq 4⟩, withJobs ((on.setOwner 2 0 0).setTally 0 { Tally.init with mode := 1, value := 5 }) [job (0x39 + 4 <<< 192 + 2 <<< 142)], by decide +kernel⟩

theorem witness_TallyDescriptors_1c : ∃ (d : Die) (n q : Nat) (x : Desc) (w : Waiter) (s : State),
    s.RunningDesc d n q 0x39 x ∧ x.aux = [] ∧ s.OwnTally d n x 1
      ∧ w = ⟨dieCode d, n, x.seq, if x.f 16 14 2 == 1 then .ge (x.f 24 0 64) else .eq (x.f 24 0 64)⟩
      ∧ w.what.met (s.tally (State.bodyTally x)).value = false ∧ 4096 ≤ s.waitEntries (State.bodyTally x) :=
  ⟨.T0, 0, 0, job (0x39 + 4 <<< 192 + 2 <<< 142), ⟨0, 0, 0, .eq 4⟩, withJobs ((on.setOwner 2 0 0).setTally 0 { Tally.init with mode := 1, value := 5, waiters := List.replicate 4096 ⟨0, 9, 0, .ge 9⟩ }) [job (0x39 + 4 <<< 192 + 2 <<< 142)], by decide +kernel⟩

theorem witness_TallyDescriptors_2 : ∀ p ∈ [(Instr.tallySignalAdd, 0, false), (Instr.tallySignalSet, 1, true)], ∃ (d : Die) (n q : Nat) (x : Desc) (s : State),
    s.RunningDesc d n q 0x3A x ∧ x.f 16 14 2 = p.2.1 ∧ s.OwnTally d n x 1 ∧ (x.f 18 0 1 = 0 ∨ s.earlierEnded d n q = true) :=
  List.forall_mem_cons.2 ⟨⟨.T0, 0, 0, job (0x3A + 7 <<< 192), withJobs ((on.setOwner 2 0 0).setTally 0 { Tally.init with mode := 1, value := 5 }) [job (0x3A + 7 <<< 192)], by decide +kernel⟩,
  List.forall_mem_cons.2 ⟨⟨.T0, 0, 0, job (0x3A + 1 <<< 142 + 7 <<< 192), withJobs ((on.setOwner 2 0 0).setTally 0 { Tally.init with mode := 1, value := 5 }) [job (0x3A + 1 <<< 142 + 7 <<< 192)], by decide +kernel⟩,
  fun _ h => absurd h List.not_mem_nil⟩⟩

theorem witness_TallyOperations_1 : ∃ (i : Nat) (o : TallyOp) (s : State),
    s.Live ∧ s.tallyOps[i]? = some o ∧ (∀ p ∈ s.tallyOps.take i, p.t = o.t → p.src ≠ o.src) ∧ s.runs (talPg o.t) = true :=
  ⟨1, ⟨0, false, 2 ^ 64 - 1, (0, 0)⟩, { ((on.setOwner 2 0 0).setTally 0 { Tally.init with mode := 1, value := 5 }) with tallyOps := [⟨0, true, 9, (0, 1)⟩, ⟨0, false, 2 ^ 64 - 1, (0, 0)⟩] }, by decide +kernel⟩

theorem witness_TallyOperations_2a : ∃ (i k : Nat) (w : Waiter) (s : State),
    s.Live ∧ s.polls[i]? = some (k, w) ∧ w.what.isLock = false ∧ w.what.met (s.tally k).value = true :=
  ⟨0, 0, ⟨0, 0, 0, .ge 5⟩, { withJobs ((on.setOwner 2 0 0).setTally 0 { Tally.init with mode := 1, value := 5 }) [job 0x39] with polls := [(0, ⟨0, 0, 0, .ge 5⟩)] }, by decide +kernel⟩

theorem witness_TallyOperations_2b : ∃ (i k : Nat) (w : Waiter) (s : State),
    s.Live ∧ s.polls[i]? = some (k, w) ∧ w.what.isLock = false ∧ w.what.met (s.tally k).value = false ∧ s.waitEntries k < 4096 :=
  ⟨0, 0, ⟨0, 0, 0, .ge 6⟩, { withJobs ((on.setOwner 2 0 0).setTally 0 { Tally.init with mode := 1, value := 5 }) [job 0x39] with polls := [(0, ⟨0, 0, 0, .ge 6⟩)] }, by decide +kernel⟩

theorem witness_TallyOperations_3 : ∃ (i k us : Nat) (w : Waiter) (s : State),
    s.Live ∧ s.polls[i]? = some (k, w) ∧ w.what = .lock us ∧ (s.tally k).holder = none
      ∧ (∀ v ∈ (s.tally k).waiters, v.what.isLock = false) :=
  ⟨0, 0, 10, ⟨0, 0, 0, .lock 10⟩, { withJobs ((on.setOwner 2 0 0).setTally 0 { Tally.init with mode := 2, value := 0 }) [job 0x3B] with polls := [(0, ⟨0, 0, 0, .lock 10⟩)] }, by decide +kernel⟩

theorem witness_LocksGrantAndFree_1a : ∃ (d : Die) (n q : Nat) (x : Desc) (s : State),
    s.RunningDesc d n q 0x3B x ∧ x.aux = [] ∧ s.OwnTally d n x 2
      ∧ ((s.tally (State.bodyTally x)).holder = none ∨ (s.tally (State.bodyTally x)).holder = some (.stream (dieCode d) n)) :=
  ⟨.T0, 0, 0, job (0x3B + 10 <<< 160), withJobs ((on.setOwner 2 0 0).setTally 0 { Tally.init with mode := 2, value := 0 }) [job (0x3B + 10 <<< 160)], by decide +kernel⟩

theorem witness_LocksGrantAndFree_1b : ∃ (d : Die) (n q : Nat) (x : Desc) (s : State),
    s.RunningDesc d n q 0x3B x ∧ x.aux = [] ∧ s.OwnTally d n x 2
      ∧ ((s.tally (State.bodyTally x)).holder = none ∨ (s.tally (State.bodyTally x)).holder = some (.stream (dieCode d) n)) :=
  ⟨.T0, 0, 0, job (0x3B + 10 <<< 160), withJobs ((on.setOwner 2 0 0).setTally 0 { Tally.init with mode := 2, holder := some (.stream 0 0), abandoned := true }) [job (0x3B + 10 <<< 160)], by decide +kernel⟩

theorem witness_LocksGrantAndFree_2 : ∃ (d : Die) (n q : Nat) (x : Desc) (h : Holder) (s : State),
    s.RunningDesc d n q 0x3B x ∧ x.aux = [] ∧ s.OwnTally d n x 2 ∧ (s.tally (State.bodyTally x)).holder = some h
      ∧ h ≠ .stream (dieCode d) n :=
  ⟨.T0, 0, 0, job (0x3B + 10 <<< 160), .hart 3, withJobs ((on.setOwner 2 0 0).setTally 0 { Tally.init with mode := 2, holder := some (.hart 3) }) [job (0x3B + 10 <<< 160)], by decide +kernel⟩

theorem witness_LocksGrantAndFree_3 : ∃ (d : Die) (n q : Nat) (x : Desc) (s : State),
    s.RunningDesc d n q 0x3C x ∧ s.OwnTally d n x 2 ∧ s.earlierEnded d n q = true
      ∧ (s.tally (State.bodyTally x)).holder = some (.stream (dieCode d) n) :=
  ⟨.T0, 0, 0, job (0x3C), withJobs ((on.setOwner 2 0 0).setTally 0 { Tally.init with mode := 2, holder := some (.stream 0 0) }) [job (0x3C)], by decide +kernel⟩

theorem witness_LocksGrantAndFree_4 : ∃ (k : Nat) (s : State),
    s.Live ∧ k < 16384 ∧ (s.tally k).holder ≠ none ∧ (s.tally k).paused = none ∧ (s.tally k).leaseEnd ≤ s.base / 1000 * 1000 :=
  ⟨0, { ((on.setOwner 2 0 0).setTally 0 { Tally.init with mode := 2, holder := some (.hart 3), leaseEnd := 1000 }) with base := 1000 }, by decide +kernel⟩

theorem witness_HeldLockStaysHeld_1 : ∃ (h k : Nat) (v : Holder) (s : State),
    s.WindowOpen h k ∧ (s.tally k).mode = 2 ∧ (s.tally k).holder = some v ∧ v ≠ .hart h :=
  ⟨3, 0, .hart 4, State.setHart ((on.setOwner 2 0 0).setTally 0 { Tally.init with mode := 2, holder := some (.hart 4) }) 3 { Hart.init with held := false }, by decide +kernel⟩

theorem witness_HeldLockStaysHeld_2 : ∃ (d : Die) (n _q k : Nat) (v : Holder) (s : State),
    (s.tally k).holder = some v ∧ v ≠ .stream (dieCode d) n :=
  ⟨.T0, 0, 0, 0, .hart 4, withJobs ((on.setOwner 2 0 0).setTally 0 { Tally.init with mode := 2, holder := some (.hart 4) }) [job 0x3B], by decide +kernel⟩

theorem witness_TallyWindows_1 : ∃ (h k : Nat) (_v : W32) (s : State),
    s.WindowOpen h k ∧ (s.tally k).mode = 1 :=
  ⟨3, 0, 0xFFFFFFFF, State.setHart ((on.setOwner 2 0 0).setTally 0 { Tally.init with mode := 1, value := 2 ^ 64 - 1 }) 3 { Hart.init with held := false }, by decide +kernel⟩

theorem witness_TallyWindows_2 : ∃ (h k : Nat) (_v : W32) (s : State),
    s.WindowOpen h k ∧ (s.tally k).mode = 1 :=
  ⟨3, 0, 1, State.setHart ((on.setOwner 2 0 0).setTally 0 { Tally.init with mode := 1, value := 5 }) 3 { Hart.init with held := false }, by decide +kernel⟩

theorem witness_TallyWindows_3a : ∃ (h k : Nat) (s : State),
    s.WindowOpen h k ∧ (s.tally k).mode = 2 ∧ ((s.tally k).holder = none ∨ (s.tally k).holder = some (.hart h)) :=
  ⟨3, 0, State.setHart ((on.setOwner 2 0 0).setTally 0 { Tally.init with mode := 2, value := 0 }) 3 { Hart.init with held := false }, by decide +kernel⟩

theorem witness_TallyWindows_3b : ∃ (h k : Nat) (s : State),
    s.WindowOpen h k ∧ (s.tally k).mode = 2 ∧ ((s.tally k).holder = none ∨ (s.tally k).holder = some (.hart h)) :=
  ⟨3, 0, State.setHart ((on.setOwner 2 0 0).setTally 0 { Tally.init with mode := 2, holder := some (.hart 3), abandoned := true }) 3 { Hart.init with held := false }, by decide +kernel⟩

theorem witness_TallyWindows_4 : ∃ (h k : Nat) (s : State),
    s.WindowOpen h k ∧ (s.tally k).mode = 2 ∧ (s.tally k).holder = some (.hart h) :=
  ⟨3, 0, State.setHart ((on.setOwner 2 0 0).setTally 0 { Tally.init with mode := 2, holder := some (.hart 3) }) 3 { Hart.init with held := false }, by decide +kernel⟩

theorem witness_TallyWindows_5 : ∃ (h k : Nat) (s : State),
    s.WindowOpen h k ∧ (s.tally k).mode = 2 ∧ (s.tally k).holder ≠ none :=
  ⟨3, 0, State.setHart ((on.setOwner 2 0 0).setTally 0 { Tally.init with mode := 2, holder := some (.hart 4), abandoned := true }) 3 { Hart.init with held := false }, by decide +kernel⟩

theorem witness_TallyWindows_6 : ∃ (d : Die) (v : W32) (s : State),
    s.LiveOn d ∧ (s.tally (s.selTally d)).holder = none ∧ (s.tally (s.selTally d)).waiters = []
      ∧ s.tallyOwner (s.selTally d) = some (bitsOf v.toNat 2 6) ∧ v.toNat % 4 ≠ 3 :=
  ⟨.C0, 2, on.setOwner 2 0 0, by decide +kernel⟩

theorem witness_TallyWindows_7 : ∃ (h : Nat) (s : State),
    s.Live ∧ h < 96 ∧ (s.hart h).debug = false ∧ (s.hart h).held = false :=
  ⟨3, State.setHart (on) 3 { Hart.init with held := false }, by decide +kernel⟩

theorem witness_TallyWindows_8 : ∃ (h : Nat) (s : State),
    s.Live ∧ (s.hart h).debug = true :=
  ⟨3, on.setHart 3 ⟨false, true, none⟩, by decide +kernel⟩

theorem witness_PlacementMoves_1a : ∃ (k : Nat) (s : State),
    s.Live ∧ k < 4 ∧ s.runs (State.plcDie k) = true ∧ SMap.getD s.place.ageAt k 0 + 1000000 ≤ s.base :=
  ⟨0, { (on.setEntry 0 57) with base := 1000000 }, by decide +kernel⟩

theorem witness_PlacementMoves_1b : ∃ (k : Nat) (s : State),
    s.Live ∧ k < 4 ∧ s.runs (State.plcDie k) = true ∧ SMap.getD s.place.ageAt k 0 + 1000000 ≤ s.base :=
  ⟨3, { { (on.setEntry 3 2033) with place := { ((on.setEntry 3 2033)).place with touched := [3] } } with base := 2000000 }, by decide +kernel⟩

theorem witness_PlacementMoves_2 : ∃ (near : Bool) (b _way l : Nat) (s : State),
    s.Live ∧ b < s.buckets (if near then 0 else 1) ∧ s.runs (plcPgOf b) = true ∧ s.waitingFor (if near then 0 else 1) b = []
      ∧ s.foregroundWaits (if near then 0 else 1) = false
      ∧ s.freeFor (if near then 0 else 1) b 64 < s.getF (plcPgOf b) Reg.PLC_LOW_FRAMES ∧ s.victim (if near then 0 else 1) b 64 = some l :=
  ⟨true, 0, 0, 0, (([5, 6, 7].foldl (fun (t : State) c => ((t.setF cptPg Reg.CPT_ENT_STAT_STATE 1 c).setF cptPg Reg.CPT_ENT_CFG_SEALED 1 c).setF cptPg Reg.CPT_ENT_CFG_NS_FLOOR 4095 c) on).setEntry 0 2124), by decide +kernel⟩

theorem witness_PlacementMoves_3 : ∃ (l : Nat) (s : State),
    s.Live ∧ l ∈ s.place.writebacks ∧ s.lotHeld l = false :=
  ⟨0, { (on.setEntry 0 2077) with place := { ((on.setEntry 0 2077)).place with writebacks := [0] } }, by decide +kernel⟩

theorem witness_PlacementMoves_4 : ∃ (l way : Nat) (p : PageIn) (s : State),
    s.Live ∧ (s.place.pageins.find? fun p => p.lot == l) = some p
      ∧ 0 < s.freeFor (s.pageAim p).1 (s.bucketOf (s.pageAim p).1 l) (s.lotOwner l)
      ∧ s.wayFree (s.pageAim p).1 (s.bucketOf (s.pageAim p).1 l) way = true :=
  ⟨0, 8187, ⟨0, none, true, false, false⟩, { (on.setEntry 0 2050) with place := { ((on.setEntry 0 2050)).place with pageins := [⟨0, none, true, false, false⟩] } }, by decide +kernel⟩

theorem witness_PlacementMoves_5 : ∃ (l : Nat) (m : LotMove) (s : State),
    s.Live ∧ (s.place.moves.find? fun m => m.lot == l) = some m ∧ m.tier < 2 ∧ m.way < 8192 :=
  ⟨0, ⟨0, 1, 8191, false⟩, { (on.setEntry 0 2052) with place := { ((on.setEntry 0 2052)).place with moves := [⟨0, 1, 8191, false⟩] } }, by decide +kernel⟩

theorem witness_PlacementMoves_6 : ∃ (d : Die) (n q : Nat) (x : Desc) (s : State),
    s.RunningDesc d n q 0x11 x ∧ x.aux = [] ∧ (∃ k < 4, s.runs (State.plcDie k) = true)
      ∧ s.badV x.pins (x.addr 16) (4 * x.f 24 0 13) = false ∧ s.badEntry (s.ctxCpt d n) (s.lotList x) = none :=
  ⟨.T0, 0, 0, { job (0x11 + 1 <<< 192) with pins := [(0, 0)] }, withJobs ((on.setEntry 0 1)) [{ job (0x11 + 1 <<< 192) with pins := [(0, 0)] }], by decide +kernel⟩

theorem witness_PlacementMoves_7 : ∃ (d : Die) (n q : Nat) (x : Desc) (s : State),
    s.RunningDesc d n q 0x11 x ∧ x.aux ≠ [] ∧ (∃ k < 4, s.runs (State.plcDie k) = true) ∧ (∀ e ∈ x.aux, State.entSt e = 2) :=
  ⟨.T0, 0, 0, { job 0x11 with aux := [State.mkEntry 0 0 2] }, withJobs on [{ job 0x11 with aux := [State.mkEntry 0 0 2] }], by decide +kernel⟩

theorem witness_PlacementMoves_8 : ∃ (k : Nat) (_v : W32) (s : State),
    s.Live ∧ k < 4 :=
  ⟨3, 0xFFFFFFF, on, by decide +kernel⟩

theorem witness_PoolQueues_1a : ∃ (c : Nat) (v : W32) (s : State),
    s.LiveOn .C0 ∧ s.poolOn c = true ∧ bitsOf v.toNat 0 12 < s.poolSlots c
      ∧ (bitsOf v.toNat 0 12 + s.poolSlots c - s.poolTail c) % s.poolSlots c ≤ ((match s.poolReq c with | some r => r.1 | none => s.poolHead c) + 2 * s.poolSlots c - s.poolTail c - 1) % s.poolSlots c :=
  ⟨0, 15, (((on.setOwner 5 0 0).setF (poolPg 0) Reg.POOL_Q_CFG_ENABLE 1).setF (poolPg 0) Reg.POOL_Q_CFG_LOG2_SLOTS 4), by decide +kernel⟩

theorem witness_PoolQueues_1b : ∃ (c : Nat) (v : W32) (s : State),
    s.LiveOn .C0 ∧ s.poolOn c = true ∧ bitsOf v.toNat 0 12 < s.poolSlots c
      ∧ (bitsOf v.toNat 0 12 + s.poolSlots c - s.poolTail c) % s.poolSlots c ≤ ((match s.poolReq c with | some r => r.1 | none => s.poolHead c) + 2 * s.poolSlots c - s.poolTail c - 1) % s.poolSlots c :=
  ⟨0, 0, (((on.setOwner 5 0 0).setF (poolPg 0) Reg.POOL_Q_CFG_ENABLE 1).setF (poolPg 0) Reg.POOL_Q_CFG_LOG2_SLOTS 4), by decide +kernel⟩

theorem witness_PoolQueues_2a : ∃ (c : Nat) (v : W32) (s : State),
    s.LiveOn .C0 ∧ bitsOf v.toNat 0 1 = 1 ∧ 4 ≤ bitsOf v.toNat 1 4 ∧ bitsOf v.toNat 1 4 ≤ 12
      ∧ s.poolRingsOk c (bitsOf v.toNat 1 4) = true :=
  ⟨0, 0x9, on.setOwner 5 0 0, by decide +kernel⟩

theorem witness_PoolQueues_2b : ∃ (c : Nat) (v : W32) (s : State),
    s.LiveOn .C0 ∧ bitsOf v.toNat 0 1 = 1 ∧ 4 ≤ bitsOf v.toNat 1 4 ∧ bitsOf v.toNat 1 4 ≤ 12
      ∧ s.poolRingsOk c (bitsOf v.toNat 1 4) = true :=
  ⟨0, 0x19, on.setOwner 5 0 0, by decide +kernel⟩

theorem witness_PoolQueues_3 : ∃ (c raw : Nat) (s : State),
    s.LiveOn .C0 ∧ s.runs (poolPg c) = true ∧ s.poolOn c = true ∧ s.poolHead c ≠ s.poolTail c ∧ s.poolSlots c ≤ 4096
      ∧ s.poolReq c = none ∧ s.badIn (s.poolBase c + 64 * s.poolHead c) 64 = false ∧ raw = s.rdNat (s.poolBase c + 64 * s.poolHead c) 64
      ∧ bitsOf raw 32 32 = s.poolNext c ∧ poolFault raw = none :=
  ⟨0, 1 + 65536 <<< 128, (((((on.setOwner 5 0 0).setF (poolPg 0) Reg.POOL_Q_CFG_ENABLE 1).setF (poolPg 0) Reg.POOL_Q_CFG_LOG2_SLOTS 4)).setF (poolPg 0) Reg.POOL_Q_TAIL_TAIL 1).wrNat 0 (1 + 65536 <<< 128) 64, by decide +kernel⟩

theorem witness_PoolOperations_1a : ∃ (c k raw base idx : Nat) (s : State),
    s.PoolHas c 1 k raw ∧ (reqF raw 12 0 2 = 1 → strideOk (reqF raw 24 0 12) = true) ∧ (s.liveBufs c).length < 262144
      ∧ (∃ a ∈ s.candidates c (reqF raw 12 0 2), s.rangeFree c (reqF raw 12 0 2) a (allocBytes raw) = true)
      ∧ s.rangeFree c (reqF raw 12 0 2) base (allocBytes raw) = true ∧ s.indexOk c idx = true
      ∧ s.badIn (s.poolBase c + 64 * k) 64 = false :=
  ⟨0, 0, 1 + 0 <<< 96 + 65536 <<< 128, unifiedBase, 0, { (((on.setOwner 5 0 0).setF (poolPg 0) Reg.POOL_Q_CFG_ENABLE 1).setF (poolPg 0) Reg.POOL_Q_CFG_LOG2_SLOTS 4) with place := { ((((on.setOwner 5 0 0).setF (poolPg 0) Reg.POOL_Q_CFG_ENABLE 1).setF (poolPg 0) Reg.POOL_Q_CFG_LOG2_SLOTS 4)).place with poolq := [(0, 1 + 0 <<< 96 + 65536 <<< 128 + 0 <<< 512)] } }, by decide +kernel⟩

theorem witness_PoolOperations_1b : ∃ (c k raw base idx : Nat) (s : State),
    s.PoolHas c 1 k raw ∧ (reqF raw 12 0 2 = 1 → strideOk (reqF raw 24 0 12) = true) ∧ (s.liveBufs c).length < 262144
      ∧ (∃ a ∈ s.candidates c (reqF raw 12 0 2), s.rangeFree c (reqF raw 12 0 2) a (allocBytes raw) = true)
      ∧ s.rangeFree c (reqF raw 12 0 2) base (allocBytes raw) = true ∧ s.indexOk c idx = true
      ∧ s.badIn (s.poolBase c + 64 * k) 64 = false :=
  ⟨0, 15, 1 + 3 <<< 96 + 65536 <<< 128, 0x10000, 0, { (((on.setOwner 5 0 0).setF (poolPg 0) Reg.POOL_Q_CFG_ENABLE 1).setF (poolPg 0) Reg.POOL_Q_CFG_LOG2_SLOTS 4) with place := { ((((on.setOwner 5 0 0).setF (poolPg 0) Reg.POOL_Q_CFG_ENABLE 1).setF (poolPg 0) Reg.POOL_Q_CFG_LOG2_SLOTS 4)).place with poolq := [(0, 1 + 3 <<< 96 + 65536 <<< 128 + 15 <<< 512)] } }, by decide +kernel⟩

theorem witness_PoolOperations_2 : ∃ (c k raw : Nat) (s : State),
    s.PoolHas c 2 k raw ∧ s.handleCheck c (reqF raw 8 0 32) = stOk :=
  ⟨0, 0, 2, { (((on.setOwner 5 0 0).setF (poolPg 0) Reg.POOL_Q_CFG_ENABLE 1).setF (poolPg 0) Reg.POOL_Q_CFG_LOG2_SLOTS 4) with place := { ((((on.setOwner 5 0 0).setF (poolPg 0) Reg.POOL_Q_CFG_ENABLE 1).setF (poolPg 0) Reg.POOL_Q_CFG_LOG2_SLOTS 4)).place with poolq := [(0, 2 + 0 <<< 512)], bufs := [(0, ⟨unifiedBase, 65536, 0, 0, 0, 0⟩)] } }, by decide +kernel⟩

theorem witness_PoolOperations_3 : ∃ (c h : Nat) (b : Buf) (s : State),
    s.LiveOn .C0 ∧ SMap.find s.place.freeing c = some h ∧ SMap.find s.place.bufs (c * 2 ^ 18 + bitsOf h 0 18) = some b
      ∧ s.bufHeld b = false :=
  ⟨0, 0, ⟨unifiedBase, 65536, 0, 0, 0, 0⟩, { (((on.setOwner 5 0 0).setF (poolPg 0) Reg.POOL_Q_CFG_ENABLE 1).setF (poolPg 0) Reg.POOL_Q_CFG_LOG2_SLOTS 4) with place := { ((((on.setOwner 5 0 0).setF (poolPg 0) Reg.POOL_Q_CFG_ENABLE 1).setF (poolPg 0) Reg.POOL_Q_CFG_LOG2_SLOTS 4)).place with poolq := [(0, 2 + 0 <<< 512)], bufs := [(0, ⟨unifiedBase, 65536, 0, 0, 0, 0⟩)], freeing := [(0, 0)] } }, by decide +kernel⟩

theorem witness_PoolOperations_4 : ∃ (c k raw : Nat) (b : Buf) (s : State),
    s.PoolHas c 3 k raw ∧ s.handleCheck c (reqF raw 8 0 32) = stOk
      ∧ SMap.find s.place.bufs (c * 2 ^ 18 + bitsOf (reqF raw 8 0 32) 0 18) = some b ∧ (b.kind < 2 ∨ reqF raw 14 0 3 = 0) :=
  ⟨0, 0, 3 + 4 <<< 104 + 3 <<< 112, ⟨unifiedBase, 65536, 0, 0, 0, 0⟩, { (((on.setOwner 5 0 0).setF (poolPg 0) Reg.POOL_Q_CFG_ENABLE 1).setF (poolPg 0) Reg.POOL_Q_CFG_LOG2_SLOTS 4) with place := { ((((on.setOwner 5 0 0).setF (poolPg 0) Reg.POOL_Q_CFG_ENABLE 1).setF (poolPg 0) Reg.POOL_Q_CFG_LOG2_SLOTS 4)).place with poolq := [(0, (3 + 4 <<< 104 + 3 <<< 112) + 0 <<< 512)], bufs := [(0, ⟨unifiedBase, 65536, 0, 0, 0, 0⟩)] } }, by decide +kernel⟩

theorem witness_PoolOperations_5 : ∀ p ∈ [(Instr.free, 2), (Instr.setPlacement, 3)], ∃ (c k raw : Nat) (s : State),
    s.PoolHas c p.2 k raw ∧ s.handleCheck c (reqF raw 8 0 32) ≠ stOk :=
  List.forall_mem_cons.2 ⟨⟨0, 0, 2 + 1 <<< 82, { (((on.setOwner 5 0 0).setF (poolPg 0) Reg.POOL_Q_CFG_ENABLE 1).setF (poolPg 0) Reg.POOL_Q_CFG_LOG2_SLOTS 4) with place := { ((((on.setOwner 5 0 0).setF (poolPg 0) Reg.POOL_Q_CFG_ENABLE 1).setF (poolPg 0) Reg.POOL_Q_CFG_LOG2_SLOTS 4)).place with poolq := [(0, (2 + 1 <<< 82) + 0 <<< 512)] } }, by decide +kernel⟩,
  List.forall_mem_cons.2 ⟨⟨0, 0, 3, { (((on.setOwner 5 0 0).setF (poolPg 0) Reg.POOL_Q_CFG_ENABLE 1).setF (poolPg 0) Reg.POOL_Q_CFG_LOG2_SLOTS 4) with place := { ((((on.setOwner 5 0 0).setF (poolPg 0) Reg.POOL_Q_CFG_ENABLE 1).setF (poolPg 0) Reg.POOL_Q_CFG_LOG2_SLOTS 4)).place with poolq := [(0, 3 + 0 <<< 512)] } }, by decide +kernel⟩,
  fun _ h => absurd h List.not_mem_nil⟩⟩

theorem witness_MemoryControllers_1a : ∃ (r : Requester) (pa : Nat) (x : Fetch) (w : Cw) (bad : Bool) (s u v : State) (b : _),
    s.Live ∧ s.cwOf ((State.fetchSectors pa x).getD 0 0) = some w ∧ s.ChannelFree w ∧ u = s.requestIn r w.die pa [] ∧ x.granule = false
      ∧ u.readCw w (pa / 64 * 64) ((x.errs.filter fun e => e.1 == 0).flatMap (·.2)) bad = (some b, v) :=
  ⟨.pcie, 0x7F, ⟨false, [], false⟩, (on.cwOf 64).getD ⟨.C0, 0, 0⟩, false, on, on.requestIn .pcie ((on.cwOf 64).getD ⟨.C0, 0, 0⟩).die 0x7F [], ((on.requestIn .pcie ((on.cwOf 64).getD ⟨.C0, 0, 0⟩).die 0x7F []).readCw ((on.cwOf 64).getD ⟨.C0, 0, 0⟩) 64 [] false).2, List.replicate 64 0, by decide +kernel, by decide +kernel, by decide +kernel, rfl, by decide +kernel, pair_eq (by decide +kernel)⟩

theorem witness_MemoryControllers_1b : ∃ (r : Requester) (pa : Nat) (x : Fetch) (w : Cw) (bad : Bool) (s u v : State),
    s.Live ∧ s.cwOf ((State.fetchSectors pa x).getD 0 0) = some w ∧ s.ChannelFree w ∧ u = s.requestIn r w.die pa [] ∧ x.granule = false
      ∧ u.readCw w (pa / 64 * 64) ((x.errs.filter fun e => e.1 == 0).flatMap (·.2)) bad = (none, v) :=
  ⟨.hart 0, nearBase + 65, ⟨false, [], false⟩, ⟨.T0, 0, 1⟩, false, ({ on with bad := [(nearBase + 64, 64)] } : State), ({ on with bad := [(nearBase + 64, 64)] } : State).requestIn (.hart 0) .T0 (nearBase + 65) [], ((({ on with bad := [(nearBase + 64, 64)] } : State).requestIn (.hart 0) .T0 (nearBase + 65) []).readCw ⟨.T0, 0, 1⟩ (nearBase + 64) [] false).2, by decide +kernel, by decide +kernel, by decide +kernel, rfl, by decide +kernel, pair_eq (by decide +kernel)⟩

theorem witness_MemoryControllers_2a : ∃ (_r : Requester) (pa : Nat) (x : MemStore) (w : Cw) (s : State),
    s.Live ∧ s.cwOf (pa / 64 * 64) = some w ∧ s.ChannelFree w ∧ s.movingIn pa x.data.length = false ∧ x.errs = [] ∧ x.data ≠ []
      ∧ (pa + x.data.length - 1) / 256 = pa / 256
      ∧ ((State.sectorsOf pa x.data.length).all fun y => (s.cwOf y.1).any fun v => !s.dieDown v.die) = true
      ∧ (∀ y ∈ (s.chan w.die w.ch).narrow, pa + x.data.length ≤ y.pa ∨ y.pa + y.ask.len ≤ pa) ∧ pa % 64 = 0 ∧ x.data.length % 64 = 0
      ∧ s.partialBad pa x.data.length = false :=
  ⟨.pcie, 0x40, ⟨List.replicate 64 1, [], false⟩, (on.cwOf 64).getD ⟨.C0, 0, 0⟩, on, by decide +kernel⟩

theorem witness_MemoryControllers_2b : ∃ (_r : Requester) (pa : Nat) (x : MemStore) (w : Cw) (s : State),
    s.Live ∧ s.cwOf (pa / 64 * 64) = some w ∧ s.ChannelFree w ∧ s.movingIn pa x.data.length = false ∧ x.errs = [] ∧ x.data ≠ []
      ∧ (pa + x.data.length - 1) / 256 = pa / 256
      ∧ ((State.sectorsOf pa x.data.length).all fun y => (s.cwOf y.1).any fun v => !s.dieDown v.die) = true
      ∧ (∀ y ∈ (s.chan w.die w.ch).narrow, pa + x.data.length ≤ y.pa ∨ y.pa + y.ask.len ≤ pa) :=
  ⟨.pcie, 0xFF, ⟨[1], [], false⟩, (on.cwOf 0xC0).getD ⟨.C0, 0, 0⟩, on, by decide +kernel⟩

theorem witness_MemoryControllers_3a : ∃ (_k pa : Nat) (x : NarrowAsk) (w : Cw) (s : State),
    s.Live ∧ s.cwOf pa = some w ∧ (x.len = 16 ∨ x.len = 32) ∧ pa % x.len = 0 ∧ (s.chan w.die w.ch).narrow.length < 256 :=
  ⟨15, 32, ⟨32, [], false⟩, (on.cwOf 32).getD ⟨.C0, 0, 0⟩, on, by decide +kernel⟩

theorem witness_MemoryControllers_3b : ∃ (_k pa : Nat) (x : NarrowAsk) (w : Cw) (s : State),
    s.Live ∧ s.cwOf pa = some w ∧ (x.len = 16 ∨ x.len = 32) ∧ pa % x.len = 0 ∧ (s.chan w.die w.ch).narrow.length < 256 :=
  ⟨0, nearBase + 16, ⟨16, [3], true⟩, (on.cwOf (nearBase + 16)).getD ⟨.C0, 0, 0⟩, on, by decide +kernel⟩

theorem witness_MemoryControllers_4 : ∃ (d : Die) (ch : Nat) (x : Narrow) (s u : State),
    s.LiveOn d ∧ x ∈ (s.chan d ch).narrow ∧ x.since + s.narrowWait d ≤ s.base ∧ u = s.ripeNarrow d ch :=
  ⟨.C0, 0, ⟨3, 0, ⟨16, [], false⟩, 0, none⟩, { on.setChan .C0 0 { on.chan .C0 0 with narrow := [⟨3, 0, ⟨16, [], false⟩, 0, none⟩] } with base := 2550 }, State.ripeNarrow ({ on.setChan .C0 0 { on.chan .C0 0 with narrow := [⟨3, 0, ⟨16, [], false⟩, 0, none⟩] } with base := 2550 }) .C0 0, by decide +kernel, by decide +kernel, by decide +kernel, rfl⟩

theorem witness_MemoryControllers_5 : ∃ (d : Die) (ch : Nat) (s : State),
    s.LiveOn d ∧ hasMem d = true ∧ ch < 32 ∧ (s.chan d ch).refAt ≤ s.base :=
  ⟨.T0, 31, { on with base := 3900 }, by decide +kernel⟩

theorem witness_MemoryControllers_6a : ∃ (d : Die) (ch : Nat) (s : State),
    s.LiveOn d ∧ hasMem d = true ∧ ch < 32 ∧ s.noSlot d ch 5 = false ∧ -8 < s.debt d ch ∧ (s.anySealed = false ∨ 0 < s.debt d ch) :=
  ⟨.C3, 31, on, by decide +kernel⟩

theorem witness_MemoryControllers_6b : ∃ (d : Die) (ch : Nat) (s : State),
    s.LiveOn d ∧ hasMem d = true ∧ ch < 32 ∧ s.noSlot d ch 5 = false ∧ -8 < s.debt d ch ∧ (s.anySealed = false ∨ 0 < s.debt d ch) :=
  ⟨.T0, 0, on.setDebt .T0 0 (-7), by decide +kernel⟩

theorem witness_MemoryControllers_7 : ∃ (d : Die) (ch : Nat) (s : State),
    s.LiveOn d ∧ hasMem d = true ∧ ch < 32 ∧ (s.chan d ch).calDue = false ∧ (s.chan d ch).calAt ≤ s.base :=
  ⟨.T7, 31, { on with base := 64000000 }, by decide +kernel⟩

theorem witness_MemoryControllers_8 : ∃ (d : Die) (ch : Nat) (s : State),
    s.LiveOn d ∧ (s.chan d ch).calDue = true ∧ (s.chan d ch).calRun = none
      ∧ (s.anySealed = true ∨ (s.chan d ch).calAt + 1000000 ≤ s.base) :=
  ⟨.T7, 31, { on.setChan .T7 31 { on.chan .T7 31 with calDue := true } with base := 65000000 }, by decide +kernel⟩

theorem witness_MemoryControllers_9 : ∃ (d : Die) (ch : Nat) (s : State),
    s.LiveOn d ∧ (s.chan d ch).calDue = true ∧ ((s.chan d ch).calRun ≠ none ∨ s.noSlot d ch 6 = false) :=
  ⟨.C0, 0, on.setChan .C0 0 { on.chan .C0 0 with calDue := true, calRun := some 0 }, by decide +kernel⟩

theorem witness_MemoryControllers_10 : ∃ (d : Die) (ch : Nat) (_errs : List (Nat × List Nat)) (s : State),
    s.LiveOn d ∧ hasMem d = true ∧ ch < 32 ∧ (s.chan d ch).scrubDue ≤ s.base ∧ s.noSlot d ch 3 = false :=
  ⟨.T0, 31, [(15, [0]), (16, [1, 2, 3])], { on with base := 10 ^ 12 }, by decide +kernel⟩

theorem witness_MemoryControllers_11 : ∃ (d : Die) (ch : Nat) (_errs : List (Nat × List Nat)) (s : State),
    s.LiveOn d ∧ hasMem d = true ∧ ch < 32 ∧ s.getF (memPg d) (if isTensor d then Reg.HBMC_CFG_SCRUB_EN else Reg.DEPC_CFG_SCRUB_EN) = 1
      ∧ s.noSlot d ch 8 = false :=
  ⟨.C0, 0, [(29, [0, 1])], (on.setDebt .C0 0 (-8)).setChan .C0 0 { on.chan .C0 0 with scrubDue := 1 }, by decide +kernel⟩

theorem witness_MemoryControllers_12 : ∃ (d : Die) (ch pair : Nat) (s : State),
    s.LiveOn d ∧ isTensor d = true ∧ ch < 32 ∧ pair < 16 ∧ (s.chan d ch).marked = none
      ∧ 16 ≤ ((s.chan d ch).corr.filter fun p => p.1 == pair && decide (s.base < p.2 + 10 ^ 9)).length :=
  ⟨.T0, 31, 15, on.setChan .T0 31 { on.chan .T0 31 with corr := List.replicate 16 (15, 0) }, by decide +kernel⟩

theorem witness_MemoryControllers_13 : ∃ (d : Die) (s : State),
    s.LiveOn d ∧ hasMem d = true ∧ SMap.getD s.telemAt (dieCode d) 0 + 10000 ≤ s.base ∧ (SMap.getD s.telem (dieCode d) []).length < 1024 :=
  ⟨.C0, { on with base := 10000 }, by decide +kernel⟩

theorem witness_MemoryControllers_14a : ∃ (d : Die) (_c : Nat) (s : State),
    s.LiveOn d ∧ isTensor d = true :=
  ⟨.T0, 85, on, by decide +kernel⟩

theorem witness_MemoryControllers_14b : ∃ (d : Die) (_c : Nat) (s : State),
    s.LiveOn d ∧ isTensor d = true :=
  ⟨.T0, 256, on, by decide +kernel⟩

theorem witness_MemoryControllers_15 : ∃ (d : Die) (ch _rate : Nat) (s : State),
    s.LiveOn d ∧ isCap d = true ∧ ch < 32 :=
  ⟨.C3, 31, 31, on, by decide +kernel⟩

theorem witness_MemoryControllers_16a : ∃ (_v : W32) (s : State),
    s.Live ∧ s.getF ⟨.T0, .hbmc, 0⟩ Reg.HBMC_CFG_LOCKED = 0 :=
  ⟨31, on, by decide +kernel⟩

theorem witness_MemoryControllers_16b : ∃ (_v : W32) (s : State),
    s.Live ∧ s.getF ⟨.T0, .hbmc, 0⟩ Reg.HBMC_CFG_LOCKED = 0 :=
  ⟨16, on, by decide +kernel⟩

theorem witness_UpdateRequests_1 : ∃ (d : Die) (n q : Nat) (x y z : Desc) (s s1 : State),
    s.RunningDesc d n q 0x20 x ∧ s.runs (s.lotPg x 0) = true ∧ x.aux = [] ∧ x.layout = 0 ∧ (∀ l < x.uLots, s.lotWhole x l = true)
      ∧ s.badV x.pins (x.addr 32) 192 = false ∧ y = { x with layout := s.rdVNat x.pins (x.addr 32) 192 }
      ∧ (∀ r ∈ blockRules y, r.1 = true) ∧ (s.touchV x.pins (x.addr 32) 192).pinArrays d n q y (updateArrays y) 56 = (true, s1)
      ∧ s1.desc? d n q = some z ∧ s1.absentLots (State.descLots z) = [] :=
  ⟨.T0, 0, 0, upd, { upd with layout := block }, updReady, updJob, ((updJob.touchV upd.pins (upd.addr 32) 192).pinArrays .T0 0 0 ({ upd with layout := block }) (updateArrays ({ upd with layout := block })) 56).2, by decide +kernel, by decide +kernel, by decide +kernel, by decide +kernel, by decide +kernel, by decide +kernel, by decide +kernel, by decide +kernel, pair_eq (by decide +kernel), by decide +kernel, by decide +kernel⟩

theorem witness_UpdateRequests_2 : ∃ (d : Die) (n q : Nat) (x : Desc) (s : State),
    s.RunningDesc d n q 0x20 x ∧ s.runs (s.lotPg x 0) = true ∧ x.aux = [] ∧ x.layout ≠ 0 ∧ s.absentLots (State.descLots x) = [] :=
  ⟨.T0, 0, 0, { upd with layout := block }, withJobs ((streamIn 1).wrNat 0x10000 block 192) [{ upd with layout := block }], by decide +kernel⟩

theorem witness_UpdateRequests_3 : ∃ (d : Die) (n q : Nat) (x : Desc) (s : State),
    s.RunningDesc d n q 0x20 x ∧ uPhase x = 1 :=
  ⟨.T0, 0, 0, { upd with aux := [1, 0, 0, 0], layout := block }, withJobs ((streamIn 1).wrNat 0x10000 block 192) [{ upd with aux := [1, 0, 0, 0], layout := block }], by decide +kernel⟩

theorem witness_UpdateRequests_4 : ∃ (d : Die) (n q u : Nat) (x : Desc) (s : State),
    s.LiveOn d ∧ s.desc? d n q = some x ∧ x.phase = .running ∧ (x.op = 0x19 ∨ x.op = 0x20 ∨ x.op = 0x21) ∧ uPhase x = 1
      ∧ u = (((reqLots x).head?).bind s.updUnit).getD 0 ∧ uSince x + s.getF (updPg u) Reg.UPD_GAP_TIMEOUT_US * 1000 ≤ s.base :=
  ⟨.T0, 0, 0, 8, { upd with aux := [1, 0, 0, 0], layout := block }, { withJobs ((streamIn 1).wrNat 0x10000 block 192) [{ upd with aux := [1, 0, 0, 0], layout := block }] with base := 10 ^ 12 }, by decide +kernel⟩

theorem witness_UpdateOrder_1a : ∃ (d : Die) (n q : Nat) (x : Desc) (c : Sys2Proof.Machine.Num) (st : Nat) (s : State),
    s.RunningDesc d n q 0x20 x ∧ uPhase x = 1 ∧ s.trailerFault x = none
      ∧ (∀ l < x.uLots, updClass (s.trailer x l) x.uMilestone x.uPass ≠ .waits) ∧ s.lotsHeld d n q 0x20 (reqLots x) = false
      ∧ s.comesAfter d n q (x.uMilestone, x.uPass) (reqLots x) = false ∧ s.updGate x = .step st c ∧ x.uLots ≠ 0
      ∧ (∀ l < x.uLots, updClass (s.trailer x l) x.uMilestone x.uPass = .inOrder) :=
  ⟨.T0, 0, 0, { upd with aux := [1, 0, 0, 0], layout := block }, numOf 1, stOk, withJobs ((streamIn 1).wrNat 0x10000 block 192) [{ upd with aux := [1, 0, 0, 0], layout := block }], by decide +kernel⟩

theorem witness_UpdateOrder_1b : ∃ (d : Die) (n q : Nat) (x : Desc) (c : Sys2Proof.Machine.Num) (st : Nat) (s : State),
    s.RunningDesc d n q 0x20 x ∧ uPhase x = 1 ∧ s.trailerFault x = none
      ∧ (∀ l < x.uLots, updClass (s.trailer x l) x.uMilestone x.uPass ≠ .waits) ∧ s.lotsHeld d n q 0x20 (reqLots x) = false
      ∧ s.comesAfter d n q (x.uMilestone, x.uPass) (reqLots x) = false ∧ s.updGate x = .step st c ∧ x.uLots ≠ 0
      ∧ (∀ l < x.uLots, updClass (s.trailer x l) x.uMilestone x.uPass = .inOrder) :=
  ⟨.T0, 0, 0, { upd with aux := [1, 0, 0, 0], layout := block }, numOf 0, stSkipNonfinite, withJobs (((streamIn 1).wrNat 0x10000 block 192).wrNat 0x11000 (2 ^ 136) 32) [{ upd with aux := [1, 0, 0, 0], layout := block }], by decide +kernel⟩

theorem witness_UpdateOrder_2a : ∃ (d : Die) (n q l : Nat) (x : Desc) (s : State),
    s.RunningDesc d n q 0x20 x ∧ s.runs (s.lotPg x 0) = true ∧ x.aux = [] ∧ x.layout ≠ 0 ∧ s.absentLots (State.descLots x) = []
      ∧ s.trailerFault x = none ∧ l < x.uLots ∧ updClass (s.trailer x l) x.uMilestone x.uPass = .waits :=
  ⟨.T0, 0, 0, 0, { upd with layout := 1 + 1 <<< 16 + 2 <<< 24 + 0x30000 <<< 768 + 0x3C000 <<< 1024 }, withJobs ((streamIn 1).wrNat 0x10000 block 192) [{ upd with layout := 1 + 1 <<< 16 + 2 <<< 24 + 0x30000 <<< 768 + 0x3C000 <<< 1024 }], by decide +kernel⟩

theorem witness_UpdateOrder_2b : ∃ (d : Die) (n q l : Nat) (x : Desc) (s : State),
    s.RunningDesc d n q 0x20 x ∧ s.runs (s.lotPg x 0) = true ∧ x.aux = [] ∧ x.layout ≠ 0 ∧ s.absentLots (State.descLots x) = []
      ∧ s.trailerFault x = none ∧ l < x.uLots ∧ updClass (s.trailer x l) x.uMilestone x.uPass = .waits :=
  ⟨.T0, 0, 0, 0, { upd with layout := 1 + 1 <<< 16 + 2 <<< 24 + 0x30000 <<< 768 + 0x3C000 <<< 1024 }, withJobs ((streamIn 1).wrNat 0x10000 block 192) ({ upd with layout := 1 + 1 <<< 16 + 2 <<< 24 + 0x30000 <<< 768 + 0x3C000 <<< 1024 } :: (List.range 8).map fun k => { upd with layout := 1 + 1 <<< 16 + 2 <<< 24 + 0x30000 <<< 768 + 0x3C000 <<< 1024, slot := k + 1, aux := [1, 0, 0, 0] }), by decide +kernel⟩

theorem witness_UpdateLots_1a : ∃ (d : Die) (n q l u : Nat) (x : Desc) (s : State),
    s.LiveOn d ∧ s.desc? d n q = some x ∧ x.phase = .running ∧ x.op = 0x20 ∧ uPhase x = 2 ∧ s.updUnit (lotPa x l) = some u ∧ l < x.uLots
      ∧ uLotSt x l = 0 ∧ s.runs (updPg u) = true ∧ s.writesMoving x = false ∧ s.snapHolds (lotPa x l) = false :=
  ⟨.T0, 0, 0, 0, 8, { upd with aux := [2, 0, 0, 0, 0], layout := block }, withJobs ((streamIn 1).wrNat 0x10000 block 192) [{ upd with aux := [2, 0, 0, 0, 0], layout := block }], by decide +kernel⟩

theorem witness_UpdateLots_1b : ∃ (d : Die) (n q l u : Nat) (x : Desc) (s : State),
    s.LiveOn d ∧ s.desc? d n q = some x ∧ x.phase = .running ∧ x.op = 0x20 ∧ uPhase x = 2 ∧ s.updUnit (lotPa x l) = some u ∧ l < x.uLots
      ∧ uLotSt x l = 0 ∧ s.runs (updPg u) = true ∧ s.writesMoving x = false ∧ s.snapHolds (lotPa x l) = false :=
  ⟨.T0, 0, 0, 0, 8, { upd with aux := [2, 0, stSkipNonfinite, 0, 0], layout := block }, withJobs ((streamIn 1).wrNat 0x10000 block 192) [{ upd with aux := [2, 0, stSkipNonfinite, 0, 0], layout := block }], by decide +kernel⟩

theorem witness_DifferenceStreams_1a : ∃ (u : Nat) (r : DsRec) (s : State),
    s.Live ∧ (s.dsUnit (u % 16)).out = some r ∧ r.log2 ≤ 30 ∧ r.bytes.length ≤ 2 ^ r.log2 :=
  ⟨15, ⟨0x100000, 16, List.replicate 128 7⟩, ((on.setDs 15 ⟨some ⟨0x100000, 16, List.replicate 128 7⟩, false⟩).setF (updPg 15) Reg.UPD_DS_HEAD 65472), by decide +kernel⟩

theorem witness_DifferenceStreams_1b : ∃ (u : Nat) (r : DsRec) (s : State),
    s.Live ∧ (s.dsUnit (u % 16)).out = some r ∧ r.log2 ≤ 30 ∧ r.bytes.length ≤ 2 ^ r.log2 :=
  ⟨31, ⟨0x100000, 16, List.replicate 64 7⟩, ((on.setDs 15 ⟨some ⟨0x100000, 16, List.replicate 64 7⟩, false⟩).setF (updPg 15) Reg.UPD_DS_HEAD 65472), by decide +kernel⟩

theorem witness_DifferenceStreams_2 : ∃ (_u : Nat) (_v : W32) (s : State),
    s.Live :=
  ⟨0, 64, on, by decide +kernel⟩

theorem witness_DifferenceStreams_3 : ∃ (u : Nat) (_v : W32) (s : State),
    s.Live ∧ s.getF (updPg (u % 16)) Reg.UPD_DS_CFG_MODE = 0 :=
  ⟨0, 5, on, by decide +kernel⟩

theorem witness_Snapshots_1 : ∃ (d : Die) (n q : Nat) (x y z : Desc) (s s1 : State),
    s.RunningDesc d n q 0x21 x ∧ s.runs (s.lotPg x 0) = true ∧ uPhase x < 2 ∧ x.layout = 0 ∧ (∀ l < x.uLots, s.lotWhole x l = true)
      ∧ s.badV x.pins (x.addr 24) 64 = false ∧ y = { x with layout := s.rdVNat x.pins (x.addr 24) 64 + 2 ^ 512 }
      ∧ y.layout &&& (2 ^ 513 - 1 - tgtMask) = 0 ∧ s.targetFault d n y = none
      ∧ s1 = s.updDesc d n q (fun w => { w with layout := y.layout }) ∧ s1.desc? d n q = some z ∧ s1.absentLots (State.descLots z) = [] :=
  ⟨.T0, 0, 0, snap, { snap with layout := 0x100000 <<< 64 + 2 ^ 512 }, { snap with layout := 0x100000 <<< 64 + 2 ^ 512 }, withJobs opened [snap], (withJobs opened [snap]).updDesc .T0 0 0 fun w => { w with layout := 0x100000 <<< 64 + 2 ^ 512 }, by decide +kernel, by decide +kernel, by decide +kernel, by decide +kernel, by decide +kernel, by decide +kernel, by decide +kernel, by decide +kernel, by decide +kernel, rfl, by decide +kernel, by decide +kernel⟩

theorem witness_Snapshots_2 : ∃ (d : Die) (n q : Nat) (x : Desc) (s : State),
    s.RunningDesc d n q 0x21 x ∧ s.runs (s.lotPg x 0) = true ∧ uPhase x < 2 ∧ x.layout ≠ 0 ∧ s.absentLots (State.descLots x) = [] :=
  ⟨.T0, 0, 0, { snap with layout := 0x100000 <<< 64 + 2 ^ 512, aux := [] }, withJobs opened [{ snap with layout := 0x100000 <<< 64 + 2 ^ 512, aux := [] }], by decide +kernel⟩

theorem witness_Snapshots_3a : ∃ (d : Die) (n q l : Nat) (x : Desc) (s : State),
    s.RunningDesc d n q 0x21 x ∧ uPhase x = 2 ∧ l < x.uLots ∧ s.shipTurn x l = true ∧ s.runs (s.lotPg x l) = true
      ∧ s.absentLots (State.lotsV x.pins (lotVa x l) 65536) = [] ∧ s.badV x.pins (lotVa x l) 65536 = false ∧ s.targetFault d n x = none
      ∧ tgtKind x = 0 ∧ s.blockedLots (State.lotsOf (tgtDest x + 65536 * l) 65536) = []
      ∧ s.partialBad (tgtDest x + 65536 * l) 65536 = false :=
  ⟨.T0, 0, 0, 0, { snap with layout := 0x100000 <<< 64 + 2 ^ 512, aux := [2, 0, 0, 0, 0] }, withJobs opened [{ snap with layout := 0x100000 <<< 64 + 2 ^ 512, aux := [2, 0, 0, 0, 0] }], by decide +kernel⟩

theorem witness_Snapshots_3b : ∃ (d : Die) (n q l : Nat) (x : Desc) (s : State),
    s.RunningDesc d n q 0x21 x ∧ uPhase x = 2 ∧ l < x.uLots ∧ s.shipTurn x l = true ∧ s.runs (s.lotPg x l) = true
      ∧ s.absentLots (State.lotsV x.pins (lotVa x l) 65536) = [] ∧ s.badV x.pins (lotVa x l) 65536 = false ∧ s.targetFault d n x = none
      ∧ tgtKind x = 1 ∧ s.qpReady (qpnKey (tgtQpn x)) (dieCode d, n, q, x.seq) 1 65536 = true :=
  ⟨.T0, 0, 0, 0, { snap with layout := 1 + 0x100000 <<< 64 + 2 ^ 512, aux := [2, 0, 0, 0, 0] }, ((withJobs opened [{ snap with layout := 1 + 0x100000 <<< 64 + 2 ^ 512, aux := [2, 0, 0, 0, 0] }]).setQpSt 0 1).setQp 0 { Qp.init with port := some 0 }, by decide +kernel⟩

theorem witness_Snapshots_4 : ∃ (d : Die) (n q l : Nat) (x : Desc) (s : State),
    s.RunningDesc d n q 0x21 x ∧ uPhase x = 2 ∧ l < x.uLots ∧ uLotSt x l % 4 = 1
      ∧ (tgtKind x = 1 → ∀ w ∈ (s.qp (qpnKey (tgtQpn x))).sent, w.src ≠ .lot (dieCode d) n q x.seq l) :=
  ⟨.T0, 0, 0, 0, { snap with layout := 0x100000 <<< 64 + 2 ^ 512, aux := [2, 0, 0, 0, 1] }, withJobs opened [{ snap with layout := 0x100000 <<< 64 + 2 ^ 512, aux := [2, 0, 0, 0, 1] }], by decide +kernel⟩

theorem witness_Snapshots_5 : ∃ (d : Die) (n q l u : Nat) (x : Desc) (s : State),
    s.RunningDesc d n q 0x21 x ∧ snapDelay? x l = some u ∧ uPhase x = 2 ∧ l < x.uLots ∧ uLotSt x l % 4 < 2
      ∧ u + x.f 44 0 32 * 1000 ≤ s.base :=
  ⟨.T0, 0, 0, 0, 0, { snap with layout := 0x100000 <<< 64 + 2 ^ 512, aux := [2, 0, 0, 0, 5] }, { withJobs opened [{ snap with layout := 0x100000 <<< 64 + 2 ^ 512, aux := [2, 0, 0, 0, 5] }] with base := 2 ^ 50 }, by decide +kernel⟩

theorem witness_Lookups_1 : ∃ (d : Die) (n q : Nat) (x y : Desc) (idx : List Nat) (s s1 : State),
    s.RunningDesc d n q 0x18 x ∧ s1 = (if x.layout == 0 then s.lkpLatch d n q x else s) ∧ s1.RunningDesc d n q 0x18 y ∧ y.layout ≠ 0
      ∧ s1.lkpTurn y = true ∧ s1.runs (lkpPg y.lkEngine) = true ∧ s1.absentLots (State.descLots y) = [] ∧ s1.lkSort y = .rows idx :=
  ⟨.T0, 0, 0, batch 0x18, lookDesc, [0, 1], lookJob, lookOn, by decide +kernel, (if_pos (by decide +kernel)).symm, by decide +kernel, by decide +kernel, by decide +kernel, by decide +kernel, by decide +kernel, by decide +kernel⟩

theorem witness_Lookups_2 : ∃ (d : Die) (n q : Nat) (x y z : Desc) (idx : List Nat) (s s1 s2 s3 : State),
    s.RunningDesc d n q 0x19 x ∧ s1 = (if x.layout == 0 then s.lkpLatch d n q x else s) ∧ s1.RunningDesc d n q 0x19 y ∧ y.layout ≠ 0
      ∧ uPhase y ≠ 2 ∧ s1.lkpTurn y = true ∧ s1.runs (lkpPg y.lkEngine) = true ∧ s1.absentLots (State.descLots y) = []
      ∧ s1.gradParams d n q y = (true, s2) ∧ s2.RunningDesc d n q 0x19 z ∧ s2.lkSort z = .rows idx
      ∧ s3 = (s2.touchBatch z idx).setF (lkpPg z.lkEngine) Reg.LKP_UNIQUE_LAST idx.eraseDups.length
      ∧ s3.badV z.pins (z.addr 40) (z.lkBags * z.lkDim * (fmtBits (z.fmt 0) / 8)) = false :=
  ⟨.T0, 0, 0, batch 0x19, gradDesc, gradReady, [0, 1], gradJob, gradOn, (gradOn.gradParams .T0 0 0 gradDesc).2, (gradRead.touchBatch gradReady [0, 1]).setF (lkpPg gradReady.lkEngine) Reg.LKP_UNIQUE_LAST [0, 1].eraseDups.length, by decide +kernel, (if_pos (by decide +kernel)).symm, by decide +kernel, by decide +kernel, by decide +kernel, by decide +kernel, by decide +kernel, by decide +kernel, pair_eq (by decide +kernel), by decide +kernel, by decide +kernel, rfl, by decide +kernel⟩

theorem witness_Lookups_3 : ∃ (d : Die) (n q row key e : Nat) (x : Desc) (s : State),
    s.RunningDesc d n q 0x19 x ∧ x.lkSlot? = some key ∧ ((gradRows x).find? fun e => gRow e == row && !gDone e) = some e ∧ uPhase x = 2
      ∧ uStatus x = stOk
      ∧ (∀ l ∈ lotsOfRow x (s.lkVer x) row, (((gradLots x).find? fun k => k / 4 == verMaster (s.lkVer x) + 65536 * l).getD 0) % 4 = 2)
      ∧ s.ctxMilestone d n ≤ entLast (s.rowEntry (s.lkVer x) row) ∧ (∀ a, s.lotTier a ≠ 2) ∧ s.place.moves = []
      ∧ s.badIn (verDir (s.lkVer x) + 16 * row) 16 = false
      ∧ (∀ k < verDim (s.lkVer x), s.badIn (State.paramAddr (s.lkVer x) (gradPL x (s.lkVer x)) (row * verDim (s.lkVer x) + k)) 6 = false) :=
  ⟨.T0, 0, 0, 1, 0, 1 + 1 <<< 40, grad 2, withJobs tables [grad 2], by decide +kernel, by decide +kernel, by decide +kernel, by decide +kernel, by decide +kernel, by decide +kernel, by decide +kernel, no_lot_is_away _ (by decide +kernel), by decide +kernel, by decide +kernel, by decide +kernel⟩

theorem witness_Lookups_4 : ∃ (d : Die) (n q row key e : Nat) (x : Desc) (s : State),
    s.RunningDesc d n q 0x19 x ∧ x.lkSlot? = some key ∧ ((gradRows x).find? fun e => gRow e == row && !gDone e) = some e ∧ uPhase x = 2
      ∧ uStatus x = stOk
      ∧ (∀ l ∈ lotsOfRow x (s.lkVer x) row, (((gradLots x).find? fun k => k / 4 == verMaster (s.lkVer x) + 65536 * l).getD 0) % 4 ≠ 0)
      ∧ entLast (s.rowEntry (s.lkVer x) row) < s.ctxMilestone d n ∧ (∀ a, s.lotTier a ≠ 2) ∧ s.place.moves = []
      ∧ s.badIn (verDir (s.lkVer x) + 16 * row) 16 = false
      ∧ (∀ k < verDim (s.lkVer x), s.badIn (State.paramAddr (s.lkVer x) (gradPL x (s.lkVer x)) (row * verDim (s.lkVer x) + k)) 6 = false) :=
  ⟨.T0, 0, 0, 0, 0, 1 <<< 40, grad 1, withJobs (tables.setCtxWord .T0 0 12 5) [grad 1], by decide +kernel, by decide +kernel, by decide +kernel, by decide +kernel, by decide +kernel, by decide +kernel, by decide +kernel, no_lot_is_away _ (by decide +kernel), by decide +kernel, by decide +kernel, by decide +kernel⟩

theorem witness_TableRegistry_1 : ∃ (v : W32) (pa : Nat) (s : State),
    s.Live ∧ s.tblLoad = none ∧ (s.tblSlot (s.tblCmd v).1).st = 0
      ∧ pa = s.getF lkpRegPg Reg.LKP_TBL_REC_LO_PA <<< 6 + s.getF lkpRegPg Reg.LKP_TBL_REC_HI_PA <<< 32 :=
  ⟨1, 0, mapped.wrNat 0 table 192, by decide +kernel⟩

theorem witness_TableRegistry_2 : ∃ (l : TblLoad) (s : State),
    s.Live ∧ s.tblLoad = some l ∧ l.taken = true
      ∧ s.blockedLots ((s.hotRows (s.tblSlot l.key).ver).flatMap fun r => State.lotsOf (verDir (s.tblSlot l.key).ver + 16 * r) 16) = [] :=
  ⟨⟨0, 0, true⟩, { (on.setTblSlot 0 ⟨1, table⟩).wrNat 0x40010 4 1 with tblLoad := some ⟨0, 0, true⟩, hot := [⟨0, 0, 1, none⟩] }, by decide +kernel⟩

theorem witness_TableRegistry_3 : ∃ (v : W32) (s : State),
    s.Live ∧ (s.tblSlot (s.tblCmd v).1).st = 1 :=
  ⟨4, on.setTblSlot 1 ⟨1, table⟩, by decide +kernel⟩

theorem witness_TableRegistry_4a : ∃ (v : W32) (key : Nat) (s : State),
    s.Live ∧ key = bitsOf v.toNat 0 10 * 2 + bitsOf v.toNat 10 1 ∧ (s.tblSlot key).st = 1 :=
  ⟨0, 0, (on.setTblSlot 0 ⟨1, table⟩).setTblSlot 1 ⟨2, table⟩, by decide +kernel⟩

theorem witness_TableRegistry_4b : ∃ (v : W32) (key : Nat) (s : State),
    s.Live ∧ key = bitsOf v.toNat 0 10 * 2 + bitsOf v.toNat 10 1 ∧ (s.tblSlot key).st = 1 :=
  ⟨1024, 1, withJobs ((on.setTblSlot 1 ⟨1, table⟩).setTblSlot 0 ⟨2, table⟩) [grad 1], by decide +kernel⟩

theorem witness_TableRegistry_5 : ∀ _p ∈ [(Instr.tombstone, 1), (Instr.revive, 0)], ∃ (v : W32) (key : Nat) (s : State),
    s.Live ∧ s.currentSlot (bitsOf v.toNat 0 10) = some key ∧ s.getF lkpRegPg Reg.LKP_ROW < verRows (s.tblSlot key).ver
      ∧ s.blockedLots (State.lotsOf (verDir (s.tblSlot key).ver + 16 * s.getF lkpRegPg Reg.LKP_ROW) 16) = []
      ∧ s.partialBad (verDir (s.tblSlot key).ver + 16 * s.getF lkpRegPg Reg.LKP_ROW) 1 = false :=
  List.forall_mem_cons.2 ⟨⟨0, 0, (on.setTblSlot 0 ⟨2, table⟩).setF lkpRegPg Reg.LKP_ROW 1, by decide +kernel⟩,
  List.forall_mem_cons.2 ⟨⟨0, 0, (on.setTblSlot 0 ⟨2, table⟩).setF lkpRegPg Reg.LKP_ROW 1, by decide +kernel⟩,
  fun _ h => absurd h List.not_mem_nil⟩⟩

theorem witness_TableRegistry_6 : ∃ (k key e : Nat) (s : State),
    s.Live ∧ k < 1024 ∧ s.currentSlot k = some key ∧ s.sweepEngine k (verOwner (s.tblSlot key).ver) = some e ∧ s.runs (lkpPg e) = true
      ∧ s.getF (lkpPg e) Reg.LKP_SWEEP_CFG_EN = 1 ∧ s.lkpBusy e = false ∧ s.gradOn key = false ∧ SMap.find s.sweeps e = none
      ∧ (∀ a, s.lotTier a ≠ 2) ∧ s.place.moves = []
      ∧ SMap.getD s.sweptAt k 0 + s.getF (lkpPg e) Reg.LKP_SWEEP_CFG_PERIOD_MS * 1000000 ≤ s.base :=
  ⟨0, 0, 0, { (on.setTblSlot 0 ⟨2, table⟩).setF (lkpPg 0) Reg.LKP_SWEEP_CFG_EN 1 with base := 2 ^ 50 }, by decide +kernel, by decide +kernel, by decide +kernel, by decide +kernel, by decide +kernel, by decide +kernel, by decide +kernel, by decide +kernel, by decide +kernel, no_lot_is_away _ (by decide +kernel), by decide +kernel, by decide +kernel⟩

theorem witness_TableRegistry_7 : ∃ (k sl w i : Nat) (h : HotSlot) (s : State),
    s.Live ∧ h ∈ s.hot ∧ h.key = k * 2 + sl ∧ h.w = w ∧ h.hot = i ∧ h.left = some [] :=
  ⟨1023, 1, 3, 5, ⟨2047, 3, 5, some []⟩, { on with hot := [⟨2047, 3, 5, some []⟩] }, by decide +kernel⟩

theorem witness_ErrorsAndTests_1a : ∃ (d : Die) (e a : Nat) (w : ArrPart) (r : Arr) (s : State),
    s.LiveOn d ∧ (s.engine d e).arrays[a]? = some r ∧ structOn d (.array e a) = true ∧ (s.liveMask d e).testBit a = true
      ∧ w ≠ .bankSingle ∧ (∀ k, w = .shadowPlane k → r.reloaded = some k) ∧ r.clearing = false ∧ s.tests = [] ∧ s.bists = [] :=
  ⟨.T0, 95, 3, .activePlane, Arr.init, on, by decide +kernel, by decide +kernel, by decide +kernel, by decide +kernel, by decide +kernel, (fun _ h => by cases h), by decide +kernel, by decide +kernel, by decide +kernel⟩

theorem witness_ErrorsAndTests_1b : ∃ (d : Die) (e a : Nat) (w : ArrPart) (r : Arr) (s : State),
    s.LiveOn d ∧ (s.engine d e).arrays[a]? = some r ∧ structOn d (.array e a) = true ∧ (s.liveMask d e).testBit a = true
      ∧ w ≠ .bankSingle ∧ (∀ k, w = .shadowPlane k → r.reloaded = some k) ∧ r.clearing = false ∧ s.tests = [] ∧ s.bists = [] :=
  ⟨.T0, 0, 0, .shadowPlane 0, { Arr.init with reloaded := some 0 }, on.updArr .T0 0 0 fun z => { z with reloaded := some 0 }, by decide +kernel, by decide +kernel, by decide +kernel, by decide +kernel, by decide +kernel, (fun _ h => by cases h; rfl), by decide +kernel, by decide +kernel, by decide +kernel⟩

theorem witness_ErrorsAndTests_2 : ∃ (d : Die) (e a : Nat) (r : Arr) (s : State),
    s.LiveOn d ∧ (s.engine d e).arrays[a]? = some r ∧ r.clearing = true ∧ r.errPending = none :=
  ⟨.T7, 0, 3, { Arr.init with clearing := true }, on.updArr .T7 0 3 fun z => { z with clearing := true }, by decide +kernel⟩

theorem witness_ErrorsAndTests_3 : ∃ (d : Die) (e a : Nat) (u : SelfTest) (r : Arr) (s : State),
    s.LiveOn d ∧ (s.tests.find? fun t => t.die == dieCode d && t.st == .array e a) = some u ∧ (s.engine d e).arrays[a]? = some r
      ∧ s.armedFail d e = false :=
  ⟨.T0, 0, 0, testing (.array 0 0), { Arr.init with isolated := true }, { on.updArr .T0 0 0 fun z => { z with isolated := true } with tests := [testing (.array 0 0)] }, by decide +kernel⟩

theorem witness_ErrorsAndTests_4 : ∃ (d : Die) (e a : Nat) (u : SelfTest) (s : State),
    s.LiveOn d ∧ structOn d (.array e a) = true ∧ (s.tests.find? fun t => t.die == dieCode d && t.st == .array e a) = some u
      ∧ (s.liveMask d e).testBit a = true ∧ s.liveMask d e ≠ 2 ^ a :=
  ⟨.T0, 0, 0, testing (.array 0 0), { on with tests := [testing (.array 0 0)] }, by decide +kernel⟩

theorem witness_ErrorsAndTests_5 : ∃ (d : Die) (st : Struct) (s : State),
    s.LiveOn d ∧ 16 ≤ s.transientsOf d st :=
  ⟨.T0, .vector 0, { on with transients := List.replicate 16 (0, .vector 0, 0) }, by decide +kernel⟩

theorem witness_ErrorsAndTests_6a : ∃ (d : Die) (st : Struct) (_pa : Nat) (s : State),
    s.LiveOn d ∧ structOn d st = true :=
  ⟨.N0, .routerBuf, 0, on, by decide +kernel⟩

theorem witness_ErrorsAndTests_6b : ∃ (d : Die) (st : Struct) (_pa : Nat) (s : State),
    s.LiveOn d ∧ structOn d st = true :=
  ⟨.T0, .memLogic 31, 0, on, by decide +kernel⟩

theorem witness_ErrorsAndTests_7a : ∃ (h _pa : Nat) (s : State),
    s.Live ∧ h < 96 ∧ (s.hart h).held = false :=
  ⟨95, 64, on.setHart 95 ⟨false, false, none⟩, by decide +kernel⟩

theorem witness_ErrorsAndTests_7b : ∃ (h _pa : Nat) (s : State),
    s.Live ∧ h < 96 ∧ (s.hart h).held = false :=
  ⟨47, 64, on.setHart 47 ⟨false, false, none⟩, by decide +kernel⟩

theorem witness_ErrorsAndTests_8a : ∃ (d : Die) (i : Nat) (s : State),
    s.LiveOn d ∧ i = s.getF (bistPg d) Reg.BIST_SEL_ISLAND ∧ i < islandCount d ∧ s.islandIdle d i = true ∧ (dieCode d, i) ∉ s.bists :=
  ⟨.T0, 0, on, by decide +kernel⟩

theorem witness_ErrorsAndTests_8b : ∃ (d : Die) (i : Nat) (s : State),
    s.LiveOn d ∧ i = s.getF (bistPg d) Reg.BIST_SEL_ISLAND ∧ i < islandCount d ∧ s.islandIdle d i = true ∧ (dieCode d, i) ∉ s.bists :=
  ⟨.H1, 47, on.setF (bistPg .H1) Reg.BIST_SEL_ISLAND 47, by decide +kernel⟩

theorem witness_ErrorsAndTests_9a : ∃ (d : Die) (i : Nat) (v : BitVec 64) (ok : Bool) (s u : State),
    s.LiveOn d ∧ (dieCode d, i) ∈ s.bists ∧ u = s.bistEnd d i v ok ∧ (∀ e ∈ u.bists, e.1 ≠ dieCode d) :=
  ⟨.T0, 5, 0, true, { on with bists := [(0, 5)] }, ({ on with bists := [(0, 5)] } : State).bistEnd .T0 5 0 true, by decide +kernel, by decide +kernel, rfl, by decide +kernel⟩

theorem witness_ErrorsAndTests_9b : ∃ (d : Die) (i : Nat) (v : BitVec 64) (ok : Bool) (s u : State),
    s.LiveOn d ∧ (dieCode d, i) ∈ s.bists ∧ u = s.bistEnd d i v ok ∧ (∀ e ∈ u.bists, e.1 ≠ dieCode d) :=
  ⟨.T0, 5, 0, false, { on with bists := [(0, 5)] }, ({ on with bists := [(0, 5)] } : State).bistEnd .T0 5 0 false, by decide +kernel, by decide +kernel, rfl, by decide +kernel⟩

theorem witness_ErrorsAndTests_10 : ∃ (pg : Page) (s : State),
    s.LiveOn pg.die ∧ s.liveTest pg = true ∧ s.getF pg Reg.INJ_KIND = 1 :=
  ⟨bistPg .T0, { on.setF (bistPg .T0) Reg.INJ_KIND 1 with inspectOn := true }, by decide +kernel⟩

theorem witness_ErrorsAndTests_11 : ∃ (pg : Page) (s : State),
    s.LiveOn pg.die ∧ s.liveTest pg = true ∧ structOn pg.die (s.injTarget pg) = true
      ∧ s.armedFail pg.die (structPlace pg.die (s.injTarget pg)).2 = false :=
  ⟨bistPg .T0, { on with inspectOn := true }, by decide +kernel⟩

theorem witness_FreezesThaw_1 : ∀ _p ∈ [(Instr.freezeDebug, 0, 2), (Instr.freezeCapture, 1, 2), (Instr.pldmFreeze, 0, 3)], ∃ (s : State),
    s.AuxOn ∧ 2 ≤ s.getF mgmtPg Reg.MGMT_BOOT_STAGE ∧ s.getF pciePg Reg.PCIE_HSW_MAIN_ON = 1 ∧ s.frozen = false :=
  List.forall_mem_cons.2 ⟨⟨(on.setF mgmtPg Reg.MGMT_BOOT_STAGE 2), by decide +kernel⟩,
  List.forall_mem_cons.2 ⟨⟨(on.setF mgmtPg Reg.MGMT_BOOT_STAGE 2), by decide +kernel⟩,
  List.forall_mem_cons.2 ⟨⟨(on.setF mgmtPg Reg.MGMT_BOOT_STAGE 2), by decide +kernel⟩,
  fun _ h => absurd h List.not_mem_nil⟩⟩⟩

theorem witness_FreezesThaw_2a : ∃ (s : State),
    s.AuxOn ∧ s.getF pciePg Reg.PCIE_HSW_MAIN_ON = 1 ∧ s.frozen = false :=
  ⟨on, by decide +kernel⟩

theorem witness_FreezesThaw_2b : ∃ (s : State),
    s.AuxOn ∧ s.getF pciePg Reg.PCIE_HSW_MAIN_ON = 1 ∧ s.frozen = false :=
  ⟨on.setF frzPg Reg.FRZ_CFG_PIN_MODE 1, by decide +kernel⟩

theorem witness_FreezesThaw_3 : ∀ _p ∈ [Instr.thaw, Instr.pldmThaw], ∃ (s : State),
    s.AuxOn ∧ 2 ≤ s.getF mgmtPg Reg.MGMT_BOOT_STAGE ∧ s.getF frzPg Reg.FRZ_STAT_STATE = 2 ∧ s.thawBarred = false
      ∧ s.getF frzPg Reg.FRZ_STAT_KIND = 0 ∧ s.getF frzPg Reg.FRZ_STAT_TIMEOUTS = 0 ∧ s.getF frzPg Reg.FRZ_STAT_MODIFIED = 0 :=
  List.forall_mem_cons.2 ⟨⟨((on.setF mgmtPg Reg.MGMT_BOOT_STAGE 2).setF frzPg Reg.FRZ_STAT_STATE 2), by decide +kernel⟩,
  List.forall_mem_cons.2 ⟨⟨((on.setF mgmtPg Reg.MGMT_BOOT_STAGE 2).setF frzPg Reg.FRZ_STAT_STATE 2), by decide +kernel⟩,
  fun _ h => absurd h List.not_mem_nil⟩⟩

theorem witness_FreezesThaw_4 : ∀ _p ∈ [Instr.thaw, Instr.pldmThaw], ∃ (s : State),
    s.AuxOn ∧ 2 ≤ s.getF mgmtPg Reg.MGMT_BOOT_STAGE
      ∧ (s.getF frzPg Reg.FRZ_STAT_KIND ≠ 0 ∨ s.getF frzPg Reg.FRZ_STAT_TIMEOUTS ≠ 0 ∨ s.getF frzPg Reg.FRZ_STAT_MODIFIED ≠ 0) :=
  List.forall_mem_cons.2 ⟨⟨((on.setF mgmtPg Reg.MGMT_BOOT_STAGE 2).setF frzPg Reg.FRZ_STAT_STATE 2).setF frzPg Reg.FRZ_STAT_MODIFIED 1, by decide +kernel⟩,
  List.forall_mem_cons.2 ⟨⟨((on.setF mgmtPg Reg.MGMT_BOOT_STAGE 2).setF frzPg Reg.FRZ_STAT_STATE 2).setF frzPg Reg.FRZ_STAT_MODIFIED 1, by decide +kernel⟩,
  fun _ h => absurd h List.not_mem_nil⟩⟩

theorem witness_FreezesThaw_5 : ∃ (s : State),
    s.AuxOn ∧ s.frozen = true ∧ s.frozenAt + s.getF frzPg Reg.FRZ_THAW_LIMIT_MS * 10 ^ 6 < s.aon :=
  ⟨{ ((on.setF mgmtPg Reg.MGMT_BOOT_STAGE 2).setF frzPg Reg.FRZ_STAT_STATE 2) with aon := 2 ^ 60 }, by decide +kernel⟩

theorem witness_FreezesThaw_6 : ∀ _p ∈ [Instr.scanShift false, Instr.instrumentWrite], ∃ (s : State),
    s.AuxOn ∧ s.inspectOn = true :=
  List.forall_mem_cons.2 ⟨⟨{ on with inspectOn := true }, by decide +kernel⟩,
  List.forall_mem_cons.2 ⟨⟨{ on with inspectOn := true }, by decide +kernel⟩,
  fun _ h => absurd h List.not_mem_nil⟩⟩

theorem witness_FreezesThaw_8 : ∃ (_v : Bool) (s : State),
    s.AuxOn :=
  ⟨true, on, by decide +kernel⟩

theorem witness_PortsAndQueuePairs_1 : ∃ (d : Die) (p : Nat) (v : W32) (s : State),
    s.LiveOn d ∧ isNet d = true ∧ v.toNat % 4 ≠ s.getF (portPg (4 * netNo d + p % 4)) Reg.NET_PORT_CFG_MODE
      ∧ s.portLoad (2 * (4 * netNo d + p % 4)) = 0 ∧ s.portLoad (2 * (4 * netNo d + p % 4) + 1) = 0 :=
  ⟨.N0, 3, 2, on, by decide +kernel⟩

theorem witness_PortsAndQueuePairs_2 : ∃ (d : Die) (p _sub : Nat) (s : State),
    s.LiveOn d ∧ isNet d = true ∧ s.runs (portPg (4 * netNo d + p % 4)) = true ∧ s.getF ⟨.N0, .clk, 0⟩ Reg.CLK_SRC_XTAL_OK = 1
      ∧ s.getF (portPg (4 * netNo d + p % 4)) Reg.NET_PORT_CFG_MODE = 1 ∧ (∀ e ∈ s.qps, e.2.port.isSome = true) :=
  ⟨.N0, 3, 0, (on.setF ⟨.N0, .clk, 0⟩ Reg.CLK_SRC_XTAL_OK 1).setF (portPg 3) Reg.NET_PORT_CFG_MODE 1, by decide +kernel⟩

theorem witness_PortsAndQueuePairs_3 : ∃ (d : Die) (p l : Nat) (s : State),
    s.LiveOn d ∧ s.frozen = false ∧ isNet d = true ∧ l < 4 ∧ s.getF (portPg (4 * netNo d + p % 4)) Reg.NET_PORT_CFG_MODE = 1
      ∧ (s.getF (portPg (4 * netNo d + p % 4)) Reg.NET_PORT_STAT_LOCK).testBit l = true ∧ s.portLoad (2 * (4 * netNo d + p % 4)) = 0 :=
  ⟨.N0, 3, 3, ((on.setF (portPg 3) Reg.NET_PORT_CFG_MODE 1).setF (portPg 3) Reg.NET_PORT_STAT_LOCK 15).setF (portPg 3) Reg.NET_PORT_STAT_LINK 1, by decide +kernel⟩

theorem witness_PortsAndQueuePairs_4 : ∃ (d : Die) (p i _quanta lp : Nat) (v : BitVec 8) (s : State),
    s.LiveOn d ∧ isNet d = true ∧ lp = s.logicalPort d p ∧ i < 8 ∧ v.toNat.testBit i = true
      ∧ (s.getF (logicalPg lp) Reg.NET_PORT_STAT_LINK).testBit (lp % 2) = true
      ∧ (s.getF (logicalPg lp) Reg.NET_PORT_CFG_PFC_MASK).testBit i = true :=
  ⟨.N1, 3, 7, 65535, 14, 0xFF, (on.setF (portPg 7) Reg.NET_PORT_STAT_LINK 1).setF (portPg 7) Reg.NET_PORT_CFG_PFC_MASK 0x80, by decide +kernel⟩

theorem witness_PortsAndQueuePairs_5 : ∃ (d : Die) (k : Nat) (s : State),
    s.LiveOn d ∧ isNet d = true ∧ k = qpKey d (s.getF (rdmaPg (qpKey d 0)) Reg.NET_QP_SEL_INDEX) ∧ s.qpSt k = 0 ∧ s.qpValid k = true :=
  ⟨.N0, 0, (paired 0).setQpSt 0 0, by decide +kernel⟩

theorem witness_PortsAndQueuePairs_6 : ∃ (d : Die) (k : Nat) (s : State),
    s.LiveOn d ∧ isNet d = true ∧ k = qpKey d (s.getF (rdmaPg (qpKey d 0)) Reg.NET_QP_SEL_INDEX) ∧ s.qpSt k ≠ 0 :=
  ⟨.N0, 0, paired 0, by decide +kernel⟩

theorem witness_PortsAndQueuePairs_7 : ∃ (d : Die) (i : Nat) (s : State),
    s.LiveOn d ∧ isNet d = true ∧ i = s.getF (rdmaPg (qpKey d 0)) Reg.NET_MR_SEL_INDEX ∧ s.mrF (netNo d) i 0 57 7 = 0
      ∧ s.mrF (netNo d) i 8 57 7 = 0 ∧ 1 ≤ s.mrF (netNo d) i 8 0 57 ∧ s.mrF (netNo d) i 8 0 57 ≤ 2 ^ 45 ∧ s.mrF (netNo d) i 16 60 4 = 10
      ∧ s.mrF (netNo d) i 24 6 2 = 0 ∧ s.mrF (netNo d) i 25 2 6 = 0 ∧ s.mrF (netNo d) i 28 0 32 = 0
      ∧ s.getF cptPg Reg.CPT_ENT_STAT_STATE (s.mrF (netNo d) i 24 0 6) = 1 ∧ SMap.find s.mrs (netNo d * 2 ^ 16 + i) = none :=
  ⟨.N0, 0, State.setF { region with mrs := [] } cptPg Reg.CPT_ENT_STAT_STATE 1, by decide +kernel⟩

theorem witness_PortsAndQueuePairs_8 : ∃ (d : Die) (i : Nat) (s : State),
    s.LiveOn d ∧ isNet d = true ∧ i = s.getF (rdmaPg (qpKey d 0)) Reg.NET_MR_SEL_INDEX
      ∧ (SMap.find s.mrs (netNo d * 2 ^ 16 + i)).isSome = true :=
  ⟨.N0, 0, region, by decide +kernel⟩

theorem witness_PortsAndQueuePairs_9 : ∃ (d : Die) (i : Nat) (s : State),
    s.LiveOn d ∧ isNet d = true ∧ s.qpSt (qpKey d i) = 1 ∧ s.qpKind (qpKey d i) ≠ 3 :=
  ⟨.N0, 0, paired 0, by decide +kernel⟩

theorem witness_PortsAndQueuePairs_10 : ∃ (d : Die) (i : Nat) (s : State),
    s.LiveOn d ∧ isNet d = true ∧ s.qpSt (qpKey d i) = 1 ∧ s.qpKind (qpKey d i) ≠ 3 :=
  ⟨.N0, 0, paired 0, by decide +kernel⟩

theorem witness_NetworkTransfers_1 : ∀ p ∈ [(Instr.send, 0), (Instr.rdmaWrite, 1), (Instr.rdmaRead, 2)], ∃ (d : Die) (n q k : Nat) (x : Desc) (s : State),
    s.RunningDesc d n q 0x2A x ∧ k = qpnKey x.qpn ∧ x.verb = p.2 ∧ x.aux = [] ∧ s.qpnOk d n x = true ∧ s.earlierOnQp d n x = false
      ∧ s.qpReady k (dieCode d, n, q, x.seq) p.2 x.bytes = true ∧ (p.2 ≠ 2 → s.badV x.pins (x.addr 16) x.bytes = false) :=
  List.forall_mem_cons.2 ⟨⟨.T0, 0, 0, 0, wide (0x2A + 64 <<< 192 + 0 <<< 248), withJobs (paired 0) [wide (0x2A + 64 <<< 192 + 0 <<< 248)], by decide +kernel⟩,
  List.forall_mem_cons.2 ⟨⟨.T0, 0, 0, 0, wide (0x2A + 64 <<< 192 + 1 <<< 248), withJobs (paired 0) [wide (0x2A + 64 <<< 192 + 1 <<< 248)], by decide +kernel⟩,
  List.forall_mem_cons.2 ⟨⟨.T0, 0, 0, 0, wide (0x2A + 64 <<< 192 + 2 <<< 248), withJobs (paired 0) [wide (0x2A + 64 <<< 192 + 2 <<< 248)], by decide +kernel⟩,
  fun _ h => absurd h List.not_mem_nil⟩⟩⟩

theorem witness_NetworkTransfers_2 : ∃ (d : Die) (n q k : Nat) (x : Desc) (s : State),
    s.RunningDesc d n q 0x2B x ∧ k = qpnKey x.qpn ∧ x.aux = [] ∧ s.qpnOk d n x = true ∧ s.rdmaRuns k = true
      ∧ s.earlierOnQp d n x = false ∧ s.qpRoom k (dieCode d, n, q, x.seq) = true :=
  ⟨.T0, 0, 0, 0, wide (0x2B + 64 <<< 192), withJobs (paired 0) [wide (0x2B + 64 <<< 192)], by decide +kernel⟩

theorem witness_NetworkTransfers_3 : ∃ (d : Die) (i k lp : Nat) (pk : Packet) (pins : SMap Nat) (s u : State),
    s.InTurn d i pk ∧ k = qpKey d i ∧ pk.imm = none
      ∧ (s.packetIn k pk.port false).mrCheck k pk.rkey pk.va pk.payload.length true = (.ok pins, u)
      ∧ u.partialBadV pins pk.va pk.payload.length = false ∧ u.QpSends k lp :=
  ⟨.N0, 0, 0, 0, packet [1, 2], pinsOf ((region.packetIn 0 (packet [1, 2]).port false).mrCheck 0 (packet [1, 2]).rkey (packet [1, 2]).va (packet [1, 2]).payload.length true).1, region, ((region.packetIn 0 (packet [1, 2]).port false).mrCheck 0 (packet [1, 2]).rkey (packet [1, 2]).va (packet [1, 2]).payload.length true).2, by decide +kernel, by decide +kernel, by decide +kernel, pair_eq (by decide +kernel), by decide +kernel, by decide +kernel⟩

theorem witness_NetworkTransfers_4 : ∃ (d : Die) (i k : Nat) (pk : Packet) (s u : State),
    s.InTurn d i pk ∧ k = qpKey d i ∧ pk.imm = none
      ∧ (s.packetIn k pk.port false).mrCheck k pk.rkey pk.va pk.payload.length true = (.refused, u) :=
  ⟨.N0, 0, 0, farPacket, region, ((region.packetIn 0 farPacket.port false).mrCheck 0 farPacket.rkey farPacket.va farPacket.payload.length true).2, by decide +kernel, by decide +kernel, by decide +kernel, pair_eq (by decide +kernel)⟩

theorem witness_NetworkTransfers_5 : ∃ (d : Die) (i k lp : Nat) (pk : Packet) (pins : SMap Nat) (s u : State),
    s.InTurn d i pk ∧ k = qpKey d i ∧ (s.packetIn k pk.port false).mrCheck k pk.rkey pk.va pk.len false = (.ok pins, u)
      ∧ u.badV pins pk.va pk.len = false ∧ u.QpSends k lp :=
  ⟨.N0, 0, 0, 0, packet [], pinsOf ((region.packetIn 0 (packet []).port false).mrCheck 0 (packet []).rkey (packet []).va (packet []).len false).1, region, ((region.packetIn 0 (packet []).port false).mrCheck 0 (packet []).rkey (packet []).va (packet []).len false).2, by decide +kernel, by decide +kernel, pair_eq (by decide +kernel), by decide +kernel, by decide +kernel⟩

theorem witness_NetworkTransfers_6a : ∃ (d : Die) (i k lp : Nat) (pk : Packet) (r : Nat × Nat × Nat × Nat) (l : List (Nat × Nat × Nat × Nat)) (x : Desc) (s u : State),
    s.InTurn d i pk ∧ k = qpKey d i ∧ u = s.packetIn k pk.port false ∧ u.controlQp ((k >>> 14) <<< 23 + k % 2 ^ 14) = false
      ∧ u.liveRecvs k = r :: l ∧ u.recvDesc r = some x ∧ pk.first = true ∧ pk.payload.length ≤ x.bytes - 16
      ∧ u.movingV x.pins (x.addr 16) pk.payload.length = false ∧ u.partialBadV x.pins (x.addr 16) pk.payload.length = false
      ∧ pk.last = false ∧ u.QpSends k lp :=
  ⟨.N0, 0, 0, 0, packet [1, 2], (0, 0, 0, 0), [], wide (0x2B + 18 <<< 192), withJobs ((paired 0).setQp 0 { Qp.init with port := some 0, recvs := [(0, 0, 0, 0)] }) [wide (0x2B + 18 <<< 192)], (withJobs ((paired 0).setQp 0 { Qp.init with port := some 0, recvs := [(0, 0, 0, 0)] }) [wide (0x2B + 18 <<< 192)]).packetIn 0 0 false, by decide +kernel, by decide +kernel, rfl, by decide +kernel, by decide +kernel, by decide +kernel, by decide +kernel, by decide +kernel, by decide +kernel, by decide +kernel, by decide +kernel, by decide +kernel⟩

theorem witness_NetworkTransfers_6b : ∃ (d : Die) (i k _lp : Nat) (pk : Packet) (r : Nat × Nat × Nat × Nat) (l : List (Nat × Nat × Nat × Nat)) (x : Desc) (s u : State),
    s.InTurn d i pk ∧ k = qpKey d i ∧ u = s.packetIn k pk.port false ∧ u.controlQp ((k >>> 14) <<< 23 + k % 2 ^ 14) = false
      ∧ u.liveRecvs k = r :: l ∧ u.recvDesc r = some x ∧ pk.first = true ∧ pk.payload.length ≤ x.bytes - 16
      ∧ u.movingV x.pins (x.addr 16) pk.payload.length = false ∧ u.partialBadV x.pins (x.addr 16) pk.payload.length = false
      ∧ pk.last = true ∧ u.movingV x.pins (x.addr 16 + (x.bytes - 16)) 16 = false :=
  ⟨.N0, 0, 0, 0, { packet [1, 2] with last := true }, (0, 0, 0, 0), [], wide (0x2B + 18 <<< 192), withJobs ((paired 0).setQp 0 { Qp.init with port := some 0, recvs := [(0, 0, 0, 0)] }) [wide (0x2B + 18 <<< 192)], (withJobs ((paired 0).setQp 0 { Qp.init with port := some 0, recvs := [(0, 0, 0, 0)] }) [wide (0x2B + 18 <<< 192)]).packetIn 0 0 false, by decide +kernel, by decide +kernel, rfl, by decide +kernel, by decide +kernel, by decide +kernel, by decide +kernel, by decide +kernel, by decide +kernel, by decide +kernel, by decide +kernel, by decide +kernel⟩

theorem witness_NetworkTransfers_7 : ∃ (d : Die) (i _psn : Nat) (s : State),
    s.LiveOn d ∧ isNet d = true ∧ s.qpSt (qpKey d i) = 1 :=
  ⟨.N0, 0, 5, paired 0, by decide +kernel⟩

theorem witness_NetworkTransfers_8 : ∃ (d : Die) (i psn : Nat) (s : State),
    s.LiveOn d ∧ isNet d = true ∧ s.qpSt (qpKey d i) = 1 ∧ (s.qp (qpKey d i)).sent ≠ [] ∧ psn % 2 ^ 24 = (s.qp (qpKey d i)).una :=
  ⟨.N0, 0, 0, (paired 0).setQp 0 { Qp.init with psn := 1, sent := [⟨.control 0, 0, 0, 0, 0, 0, none, [], 0, 0⟩] }, by decide +kernel⟩

theorem witness_NetworkTransfers_9 : ∃ (d e : Die) (i k n : Nat) (pk : Packet) (w : Work) (l : List Work) (x : Desc) (s u : State),
    s.LiveOn d ∧ isNet d = true ∧ k = qpKey d i ∧ s.qpSt k = 1 ∧ 64 ≤ pk.size ∧ pk.size ≤ 9216 ∧ pk.ce = false
      ∧ u = s.packetIn k pk.port false ∧ pk.psn % 2 ^ 24 = (u.qp k).una ∧ pk.psn % 2 ^ 24 = (s.qp k).una ∧ (u.qp k).sent = w :: l
      ∧ w.verb = 2 ∧ w.src = .desc (dieCode e) n x.slot x.seq ∧ u.srcDesc w.src = some (e, n, x) ∧ w.got + pk.payload.length < w.len
      ∧ u.partialBadV x.pins (x.addr 16 + w.got) pk.payload.length = false :=
  ⟨.N0, .T0, 0, 0, 0, packet [1, 2], ⟨.desc 0 0 0 0, 2, 0, 1, 0, 0, none, [], 64, 0⟩, [], wide (0x2A + 64 <<< 192 + 2 <<< 248), withJobs ((paired 0).setQp 0 { Qp.init with psn := 1, sent := [⟨.desc 0 0 0 0, 2, 0, 1, 0, 0, none, [], 64, 0⟩] }) [wide (0x2A + 64 <<< 192 + 2 <<< 248)], (withJobs ((paired 0).setQp 0 { Qp.init with psn := 1, sent := [⟨.desc 0 0 0 0, 2, 0, 1, 0, 0, none, [], 64, 0⟩] }) [wide (0x2A + 64 <<< 192 + 2 <<< 248)]).packetIn 0 0 false, by decide +kernel, by decide +kernel, by decide +kernel, by decide +kernel, by decide +kernel, by decide +kernel, by decide +kernel, rfl, by decide +kernel, by decide +kernel, by decide +kernel, by decide +kernel, by decide +kernel, by decide +kernel, by decide +kernel, by decide +kernel⟩

theorem witness_NetworkTransfers_10 : ∃ (d : Die) (i : Nat) (s : State),
    s.LiveOn d ∧ isNet d = true ∧ s.qpSt (qpKey d i) = 1 ∧ (s.qp (qpKey d i)).sent ≠ []
      ∧ (s.qp (qpKey d i)).since + 4096 * 2 ^ s.qpF (qpKey d i) 3 0 5 ≤ s.base :=
  ⟨.N0, 0, { (paired 0).setQp 0 { Qp.init with psn := 1, sent := [⟨.control 0, 0, 0, 0, 0, 0, none, [], 0, 0⟩] } with base := 4096 }, by decide +kernel⟩

theorem witness_FileQueues_1 : ∃ (d : Die) (k : Nat) (v : W32) (s : State),
    s.LiveOn d ∧ isNet d = true ∧ k = qpKey d (bitsOf v.toNat 0 14) ∧ s.qpKind k ≠ 0 ∧ s.qpKind k ≠ 3 ∧ s.qpSt k = 1
      ∧ bitsOf v.toNat 14 10 < s.qpDepth k ∧ s.rdmaRuns k = true :=
  ⟨.N0, 0, 15 <<< 14, queue 1 0, by decide +kernel⟩

theorem witness_FileQueues_2 : ∃ (d : Die) (k : Nat) (v : W32) (s : State),
    s.LiveOn d ∧ isNet d = true ∧ k = qpKey d (bitsOf v.toNat 0 14) ∧ s.qpKind k = 3 ∧ s.qpSt k = 1 ∧ bitsOf v.toNat 14 10 < s.qpDepth k :=
  ⟨.N0, 0, 15 <<< 14, fileQueue 0, by decide +kernel⟩

theorem witness_FileQueues_3 : ∃ (d : Die) (i k cid _status : Nat) (_v : W32) (_data : Bytes) (c : NvmeCmd) (s : State),
    s.Live ∧ k = qpKey d i ∧ ((s.qp k).cmds.find? fun c => c.cid == cid) = some c ∧ s.qpSt k = 1 ∧ s.rdmaRuns k = true
      ∧ c.inward = false :=
  ⟨.N0, 0, 0, 5, 0, 9, [], ⟨5, false, 0, 0⟩, (paired 1).setQp 0 { Qp.init with cmds := [⟨5, false, 0, 0⟩] }, by decide +kernel⟩

theorem witness_FileQueues_4 : ∃ (d : Die) (i k v : Nat) (l : List Nat) (pins : SMap Nat) (s t u : State),
    k = qpKey d i ∧ s.FileHead d i 2 v t ∧ t.fileCheck k v true = (nvOk, l) ∧ t.FileData k v (l.length * 4096) true pins u
      ∧ u.partialBadV pins (sqeVa v) (l.length * 4096) = false :=
  ⟨.N0, 0, 0, entry 2, [0], pinsOf ((headOf (fileQueue (entry 2))).xlateRange (netDie (0 >>> 14)) ((headOf (fileQueue (entry 2))).qpCpt 0) ((headOf (fileQueue (entry 2))).qpRoot 0) (sqeVa (entry 2)) (([0]).length * 4096) true).1, fileQueue (entry 2), headOf (fileQueue (entry 2)), ((headOf (fileQueue (entry 2))).xlateRange (netDie (0 >>> 14)) ((headOf (fileQueue (entry 2))).qpCpt 0) ((headOf (fileQueue (entry 2))).qpRoot 0) (sqeVa (entry 2)) (([0]).length * 4096) true).2, by decide +kernel, ⟨by decide +kernel, by decide +kernel, by decide +kernel, by decide +kernel, by decide +kernel, pair_eq (by decide +kernel), by decide +kernel⟩, by decide +kernel, pair_eq (by decide +kernel), by decide +kernel⟩

theorem witness_FileQueues_5 : ∃ (d : Die) (i k v : Nat) (l : List Nat) (pins : SMap Nat) (s t u : State),
    k = qpKey d i ∧ s.FileHead d i 1 v t ∧ t.fileCheck k v true = (nvOk, l) ∧ t.FileData k v (l.length * 4096) false pins u
      ∧ u.badV pins (sqeVa v) (l.length * 4096) = false :=
  ⟨.N0, 0, 0, entry 1, [0], pinsOf ((headOf (fileQueue (entry 1))).xlateRange (netDie (0 >>> 14)) ((headOf (fileQueue (entry 1))).qpCpt 0) ((headOf (fileQueue (entry 1))).qpRoot 0) (sqeVa (entry 1)) (([0]).length * 4096) false).1, fileQueue (entry 1), headOf (fileQueue (entry 1)), ((headOf (fileQueue (entry 1))).xlateRange (netDie (0 >>> 14)) ((headOf (fileQueue (entry 1))).qpCpt 0) ((headOf (fileQueue (entry 1))).qpRoot 0) (sqeVa (entry 1)) (([0]).length * 4096) false).2, by decide +kernel, ⟨by decide +kernel, by decide +kernel, by decide +kernel, by decide +kernel, by decide +kernel, pair_eq (by decide +kernel), by decide +kernel⟩, by decide +kernel, pair_eq (by decide +kernel), by decide +kernel⟩

theorem witness_FileQueues_6 : ∃ (d : Die) (i : Nat) (x : FileWrite) (l : List FileWrite) (s : State),
    s.LiveOn d ∧ (s.qp (qpKey d i)).writes = x :: l :=
  ⟨.N0, 0, ⟨7, [(0, [1, 2])]⟩, [], (paired 3).setQp 0 { Qp.init with writes := [⟨7, [(0, [1, 2])]⟩] }, by decide +kernel⟩

theorem witness_FileQueues_7 : ∃ (d : Die) (i v : Nat) (s t : State),
    s.FileHead d i 0 v t ∧ sqeNs v = 1 :=
  ⟨.N0, 0, entry 0, fileQueue (entry 0), headOf (fileQueue (entry 0)), ⟨by decide +kernel, by decide +kernel, by decide +kernel, by decide +kernel, by decide +kernel, pair_eq (by decide +kernel), by decide +kernel⟩, by decide +kernel⟩

theorem witness_FileQueues_8 : ∃ (d : Die) (i v : Nat) (l : List Nat) (s t : State),
    s.FileHead d i 8 v t ∧ t.fileCheck (qpKey d i) v false = (nvOk, l) :=
  ⟨.N0, 0, entry 8, [0], fileQueue (entry 8), headOf (fileQueue (entry 8)), ⟨by decide +kernel, by decide +kernel, by decide +kernel, by decide +kernel, by decide +kernel, pair_eq (by decide +kernel), by decide +kernel⟩, by decide +kernel⟩

theorem witness_FileQueues_9 : ∃ (d : Die) (i k v n raw : Nat) (pins : SMap Nat) (s t u : State),
    k = qpKey d i ∧ s.FileHead d i 9 v t ∧ n = sqeF v 40 8 + 1 ∧ sqeNs v = 1 ∧ sqeType v = 0 ∧ 16 * n ≤ sqeLen v
      ∧ t.FileData k v (16 * n) false pins u ∧ u.badV pins (sqeVa v) (16 * n) = false ∧ raw = u.rdVNat pins (sqeVa v) (16 * n)
      ∧ (∀ e < n, (u.lbaBlocks (u.qpCpt k) (bitsOf raw (128 * e + 64) 64) (bitsOf raw (128 * e + 32) 32)).isSome = true) :=
  ⟨.N0, 0, 0, entry 9, 1, dropRaw, pinsOf ((headOf dropJob).xlateRange (netDie (0 >>> 14)) ((headOf dropJob).qpCpt 0) ((headOf dropJob).qpRoot 0) (sqeVa (entry 9)) (16 * 1) false).1, dropJob, headOf dropJob, ((headOf dropJob).xlateRange (netDie (0 >>> 14)) ((headOf dropJob).qpCpt 0) ((headOf dropJob).qpRoot 0) (sqeVa (entry 9)) (16 * 1) false).2, by decide +kernel, ⟨by decide +kernel, by decide +kernel, by decide +kernel, by decide +kernel, by decide +kernel, pair_eq (by decide +kernel), by decide +kernel⟩, by decide +kernel, by decide +kernel, by decide +kernel, by decide +kernel, pair_eq (by decide +kernel), by decide +kernel, by decide +kernel, by decide +kernel⟩

theorem witness_ModuleTime_1a : ∃ (d : Die) (_i lp : Nat) (pk : Packet) (m : PtpMsg) (s : State) (origin : Nat) (corr : Int),
    s.LiveOn d ∧ isNet d = true ∧ 64 ≤ pk.size ∧ pk.size ≤ 9216 ∧ pk.op = .ptp m ∧ lp = s.logicalPort d pk.port
      ∧ (s.getF (logicalPg lp) Reg.NET_PORT_STAT_LINK).testBit (lp % 2) = true ∧ m.body = .sync false origin corr :=
  ⟨.N1, 0, 14, { packet [] with op := .ptp ⟨3, .sync false 5 (-2)⟩, port := 3 }, ⟨3, .sync false 5 (-2)⟩, on.setF (portPg 7) Reg.NET_PORT_STAT_LINK 1, 5, -2, by decide +kernel⟩

theorem witness_ModuleTime_1b : ∃ (d : Die) (_i lp : Nat) (pk : Packet) (m : PtpMsg) (s : State),
    s.LiveOn d ∧ isNet d = true ∧ 64 ≤ pk.size ∧ pk.size ≤ 9216 ∧ pk.op = .ptp m ∧ lp = s.logicalPort d pk.port
      ∧ (s.getF (logicalPg lp) Reg.NET_PORT_STAT_LINK).testBit (lp % 2) = true :=
  ⟨.N0, 3, 0, { packet [] with size := 9216, op := .ptp ⟨7, .pdelayReq⟩ }, ⟨7, .pdelayReq⟩, on.setF (portPg 0) Reg.NET_PORT_STAT_LINK 1, by decide +kernel⟩

theorem witness_ModuleTime_2 : ∀ _p ∈ [(Instr.netPtpAdj, Reg.NET_PTP_ADJ), (Instr.netPtpStep, Reg.NET_PTP_STEP)], ∃ (_v : W32) (s : State),
    s.Live :=
  List.forall_mem_cons.2 ⟨⟨5, on, by decide +kernel⟩,
  List.forall_mem_cons.2 ⟨⟨5, on, by decide +kernel⟩,
  fun _ h => absurd h List.not_mem_nil⟩⟩

theorem witness_ModuleTime_3 : ∃ (s : State),
    s.Live ∧ s.wholeSecond = true :=
  ⟨on.setF timePg Reg.NET_PTP_STEP 5, by decide +kernel⟩

theorem witness_ModuleTime_4 : ∃ (s : State),
    s.Live ∧ s.wholeSecond = true ∧ s.getF timePg Reg.NET_PPS_CFG_OUT_EN = 1 :=
  ⟨on.setF timePg Reg.NET_PPS_CFG_OUT_EN 1, by decide +kernel⟩

theorem witness_ModuleTime_5 : ∃ (s : State),
    s.Live ∧ s.getF timePg Reg.NET_PPS_CFG_IN_EN = 1 :=
  ⟨{ on.setF timePg Reg.NET_PPS_CFG_IN_EN 1 with modT := 3 * (10 ^ 9 * 2 ^ 16) }, by decide +kernel⟩

theorem witness_ModuleTime_6 : ∃ (_v lo : W32) (s : State),
    s.AuxOn ∧ SMap.find s.heldLo (regKey ledgPg 0x4C 0) = some lo ∧ s.rtcSetAt = none :=
  ⟨0x12345, 7, { on with heldLo := [(regKey ledgPg 0x4C 0, 7)] }, by decide +kernel⟩

theorem witness_ModuleTime_7 : ∃ (_v : Nat) (s : State),
    s.AuxOn ∧ 2 ≤ s.getF mgmtPg Reg.MGMT_BOOT_STAGE ∧ s.rtcSetAt = none :=
  ⟨2 ^ 48 + 3, (on.setF mgmtPg Reg.MGMT_BOOT_STAGE 2), by decide +kernel⟩

theorem witness_ModuleTime_8 : ∃ (s : State),
    s.Live ∧ s.getF ledgPg Reg.LEDG_RTC_CFG_PTP_EN = 1 ∧ s.ptpAt = none ∧ s.rtcSetAt = none ∧ s.timeNs / 10 ^ 9 < 2 ^ 48
      ∧ (s.timeNs / 10 ^ 9 + 1 < s.rtc ∨ s.rtc + 1 < s.timeNs / 10 ^ 9) :=
  ⟨(on.setF ledgPg Reg.LEDG_RTC_CFG_PTP_EN 1).setRtc 2, by decide +kernel⟩

theorem witness_ExchangesRun_1 : ∃ (d : Die) (n q key : Nat) (x : Desc) (s : State),
    s.PlanReady d n q 0x28 x key ∧ x.xCombine = false :=
  ⟨.T0, 0, 0, 0, plan 0x28 0, withJobs (paired 0) [plan 0x28 0], by decide +kernel⟩

theorem witness_ExchangesRun_2 : ∃ (d : Die) (n q key : Nat) (x : Desc) (s : State),
    s.PlanReady d n q 0x28 x key ∧ x.xCombine = true :=
  ⟨.T0, 0, 0, 0, plan 0x28 (1 <<< 432), withJobs (paired 0) [plan 0x28 (1 <<< 432)], by decide +kernel⟩

theorem witness_ExchangesRun_3 : ∀ p ∈ [(Instr.reduceNetBoth, 0), (Instr.reduceNetAnchor, 1), (Instr.reduceNetValue, 2), (Instr.reduceNetNrm128, 3)], ∃ (d : Die) (n q key : Nat) (x : Desc) (s : State),
    s.PlanReady d n q 0x29 x key ∧ x.rnPhase = p.2 :=
  List.forall_mem_cons.2 ⟨⟨.T0, 0, 0, 1, plan 0x29 (0 <<< 432 + 4 <<< 16), withJobs (paired 0) [plan 0x29 (0 <<< 432 + 4 <<< 16)], by decide +kernel⟩,
  List.forall_mem_cons.2 ⟨⟨.T0, 0, 0, 1, plan 0x29 (1 <<< 432 + 4 <<< 16), withJobs (paired 0) [plan 0x29 (1 <<< 432 + 4 <<< 16)], by decide +kernel⟩,
  List.forall_mem_cons.2 ⟨⟨.T0, 0, 0, 1, plan 0x29 (2 <<< 432 + 4 <<< 16), withJobs (paired 0) [plan 0x29 (2 <<< 432 + 4 <<< 16)], by decide +kernel⟩,
  List.forall_mem_cons.2 ⟨⟨.T0, 0, 0, 1, plan 0x29 (3 <<< 432 + 4 <<< 16), withJobs (paired 0) [plan 0x29 (3 <<< 432 + 4 <<< 16)], by decide +kernel⟩,
  fun _ h => absurd h List.not_mem_nil⟩⟩⟩⟩

theorem witness_ExchangesRun_4 : ∃ (d : Die) (v : Xch) (y : Desc) (s : State),
    s.XchTakes d ∧ s.xchRun (netNo d * 2 + 1) = some (v, y) :=
  ⟨.N0, ⟨0, 0, 0, 0, [], [0], 1, []⟩, plan 0x29 (1 <<< 432 + 4 <<< 16), { withJobs (paired 0) [plan 0x29 (1 <<< 432 + 4 <<< 16)] with xch := [(1, ⟨0, 0, 0, 0, [], [0], 1, []⟩)] }, ⟨by decide +kernel, by decide +kernel, fun _ h => absurd h List.not_mem_nil⟩, by decide +kernel⟩

theorem witness_ExchangesRun_5 : ∃ (d : Die) (r e i : Nat) (b : Bytes) (v : Xch) (y : Desc) (s : State),
    s.XchTakes d ∧ s.xchRun (netNo d * 2) = some (v, y) ∧ y.xCombine = false ∧ r < y.plGroup ∧ e / y.plEpm = y.plRank ∧ i < y.plSlots
      ∧ b.length = y.xBytes :=
  ⟨.N0, 1, 1, 3, List.replicate 64 7, ⟨0, 0, 0, 0, [], [0], 1, []⟩, plan 0x28 0, { withJobs (paired 0) [plan 0x28 0] with xch := [(0, ⟨0, 0, 0, 0, [], [0], 1, []⟩)] }, ⟨by decide +kernel, by decide +kernel, fun _ h => absurd h List.not_mem_nil⟩, by decide +kernel, by decide +kernel, by decide +kernel, by decide +kernel, by decide +kernel, by decide +kernel⟩

theorem witness_ExchangesRun_6 : ∃ (d : Die) (n q : Nat) (x : Desc) (s : State),
    s.RunningDesc d n q 0x12 x ∧ s.runs (xchPg (s.xchNd (gwLayer x))) = true ∧ x.aux ≠ [] :=
  ⟨.T0, 0, 0, { gather with aux := [0, 0] }, withJobs (((paired 0).setEntry 0 0).wrNat 0x10000 (64 <<< 32) 32) [{ gather with aux := [0, 0] }], by decide +kernel⟩

theorem witness_ExchangesRun_7 : ∃ (d : Die) (n q nd l : Nat) (x : Desc) (s : State),
    s.RunningDesc d n q 0x12 x ∧ nd = s.xchNd (gwLayer x) ∧ s.runs (xchPg nd) = true ∧ x.aux = []
      ∧ s.windowLot (s.ctxCpt d n) x = some l ∧ (∀ e ∈ s.wins, e.2.lot + e.2.lots ≤ l ∨ l + gwBytes x / 65536 ≤ e.2.lot)
      ∧ (s.winsOf nd).length < 64 ∧ s.absentLots (State.descLots x) = [] ∧ s.badV x.pins (x.addr 24) (32 * gwShards x) = false
      ∧ s.shardsOk (s.ctxCpt d n) x ((List.range (gwShards x)).map (s.shardAt x)) = true :=
  ⟨.T0, 0, 0, 0, 0, gather, { withJobs (((paired 0).setEntry 0 0).wrNat 0x10000 (64 <<< 32) 32) [gather] with place := { ((((paired 0).setEntry 0 0).wrNat 0x10000 (64 <<< 32) 32)).place with bufs := [(0, ⟨unifiedBase, 65536, 0, 1, 0, 0⟩)] } }, by decide +kernel⟩

theorem witness_ExchangesRun_8 : ∃ (d : Die) (v : Window) (s : State),
    s.LiveOn d ∧ isNet d = true ∧ SMap.find s.wins (netNo d * 64 + s.getF (xchPg (netNo d)) Reg.XCH_WIN_SEL_WINDOW) = some v ∧ v.st = 2 :=
  ⟨.N1, ⟨2, 0, 0, 0, 0, 1, 0⟩, { on with wins := [(64, ⟨2, 0, 0, 0, 0, 1, 0⟩)] }, by decide +kernel⟩

theorem witness_ExchangesRun_9 : ∃ (d : Die) (w : Nat) (v : Window) (s : State),
    s.LiveOn d ∧ isNet d = true ∧ SMap.find s.wins (netNo d * 64 + w % 64) = some v ∧ v.st = 3
      ∧ (∀ l < v.lots, s.lotHeld (v.lot + l) = false) :=
  ⟨.N1, 63, ⟨3, 0, 0, 0, 0, 1, 0⟩, { on.setEntry 0 0 with wins := [(127, ⟨3, 0, 0, 0, 0, 1, 0⟩)] }, by decide +kernel⟩

theorem witness_ConvoysHoldTogether_1a : ∃ (k : Nat) (s : State),
    s.ConvOn k ∧ s.cvSt k = 0 ∧ s.startOk k = true :=
  ⟨0, (convoy 0 0 0).setF (convPg 0) Reg.CONV_CFG_ROLE 1, by decide +kernel⟩

theorem witness_ConvoysHoldTogether_1b : ∃ (k : Nat) (s : State),
    s.ConvOn k ∧ s.cvSt k = 0 ∧ s.startOk k = true :=
  ⟨4, (convoy 0 0 0).setF (convPg 0) Reg.CONV_CFG_ROLE 2, by decide +kernel⟩

theorem witness_ConvoysHoldTogether_2 : ∃ (k : Nat) (s : State),
    s.ConvOn k ∧ s.cvSt k ≠ 0 :=
  ⟨0, convoy 3 1 0, by decide +kernel⟩

theorem witness_ConvoysHoldTogether_3 : ∃ (k _r : Nat) (s : State),
    s.ConvOn k ∧ s.cvMgr k = true ∧ s.cvSt k = 1 ∧ (s.conv k).applying = false :=
  ⟨0, 127, convoy 1 1 0, by decide +kernel⟩

theorem witness_ConvoysHoldTogether_4 : ∃ (k : Nat) (s : State),
    s.ConvOn k ∧ s.cvSt k = 3 :=
  ⟨0, convoy 3 1 0, by decide +kernel⟩

theorem witness_ConvoysHoldTogether_5 : ∃ (k : Nat) (s : State),
    s.ConvOn k ∧ s.cvSt k ≠ 0 ∧ s.cvMgr k = true ∧ s.cvTop k = false ∧ (s.conv k).hbAt = none :=
  ⟨0, convoy 1 1 0, by decide +kernel⟩

theorem witness_ConvoysHoldTogether_6 : ∃ (k : Nat) (m : Ctl) (s : State),
    s.LiveOn .N0 ∧ s.takes k 1 m = true ∧ s.cvMgr k = false :=
  ⟨0, ctl 1, convoy 1 0 3, by decide +kernel⟩

theorem witness_ConvoysHoldTogether_7 : ∃ (k : Nat) (m : Ctl) (s : State),
    s.LiveOn .N0 ∧ s.takes k 2 m = true ∧ s.cvMgr k = true :=
  ⟨0, ctl 2, convoy 1 1 0, by decide +kernel⟩

theorem witness_ConvoysHoldTogether_8 : ∃ (k r : Nat) (s : State),
    s.ConvOn k ∧ s.cvSt k = 1 ∧ s.cvMgr k = true ∧ r < 128 ∧ r ∈ s.others k ∧ (s.conv k).applying = false ∧ s.cvLayer k = false
      ∧ (s.conv k).arrived = [] ∧ SMap.getD (s.conv k).replied r (s.conv k).since + s.cvMiss k * s.cvPeriod k ≤ s.base :=
  ⟨0, 5, { convoy 1 1 0 with base := 2 ^ 50 }, by decide +kernel⟩

theorem witness_ConvoysHoldTogether_9 : ∃ (k : Nat) (s : State),
    s.ConvOn k ∧ s.cvSt k ≠ 0 ∧ s.cvMgr k = false ∧ (s.conv k).mgrLost = false
      ∧ SMap.getD (s.conv k).heard (s.conv k).mgr (s.conv k).since + s.cvMiss k * s.cvPeriod k ≤ s.base :=
  ⟨0, { convoy 1 0 3 with base := 2 ^ 50 }, by decide +kernel⟩

theorem witness_ConvoysHoldTogether_10 : ∃ (k : Nat) (s : State),
    s.ConvOn k ∧ s.cvMgr k = false ∧ s.cvRank k ≠ 0 ∧ s.cvSt k = 1
      ∧ ((s.conv k).heard.filter fun e => e.1 < s.cvRank k).foldl (fun a e => max a e.2) (s.conv k).since + s.cvRank k * s.cvMiss k * s.cvPeriod k ≤ s.base :=
  ⟨0, { convoy 1 0 3 with base := 2 ^ 50 }, by decide +kernel⟩

theorem witness_ConvoysHoldTogether_11 : ∃ (k : Nat) (s : State),
    s.ConvOn k ∧ s.cvSt k ≠ 0 ∧ s.cvUnder k = true ∧ (s.conv k).mgrLost = false
      ∧ SMap.getD (s.conv k).heard (128 + (s.conv k).top) (s.conv k).since + s.cvMiss k * s.cvPeriod k ≤ s.base :=
  ⟨0, { underTop with base := 2 ^ 50 }, by decide +kernel⟩

theorem witness_ConvoysHoldTogether_12 : ∃ (k : Nat) (s : State),
    s.ConvOn k ∧ s.cvUnder k = true ∧ s.cvConvoy k ≠ 0 ∧ s.cvSt k = 1
      ∧ ((s.conv k).heard.filter fun e => 128 ≤ e.1 ∧ e.1 < 128 + s.cvConvoy k).foldl (fun a e => max a e.2) (s.conv k).since + s.cvConvoy k * s.cvMiss k * s.cvPeriod k ≤ s.base :=
  ⟨0, { underTop with base := 2 ^ 50 }, by decide +kernel⟩

theorem witness_ConvoysHoldTogether_13 : ∃ (k : Nat) (s : State),
    s.ConvOn k ∧ s.cvMgr k = false ∧ s.cvRank k ≠ 0 ∧ s.cvSt k = 2 ∧ (s.conv k).takeAt + s.cvRank k * s.cvMiss k * s.cvPeriod k ≤ s.base
      ∧ State.majority (s.conv k) = false :=
  ⟨0, { (convoy 2 0 3).setConv 0 { Conv.init with prev := 2 } with base := 2 ^ 50 }, by decide +kernel⟩

theorem witness_ConvoysHoldTogether_14 : ∃ (k : Nat) (m : Ctl) (s : State),
    s.ConvOn k ∧ s.cvSt k ≠ 0 ∧ m.kind = 9 ∧ m.convoyId = s.getF (convPg k) Reg.CONV_ID ∧ s.cvEpoch k < m.epoch ∧ m.epoch < 2 ^ 32
      ∧ m.convoy = s.cvConvoy k :=
  ⟨0, { ctl 9 with epoch := 2 ^ 32 - 1 }, convoy 2 0 3, by decide +kernel⟩

theorem witness_ConvoysHoldTogether_15 : ∃ (k : Nat) (m : Ctl) (s : State),
    s.ConvOn k ∧ s.cvSt k ≠ 0 ∧ m.kind = 9 ∧ m.convoyId = s.getF (convPg k) Reg.CONV_ID ∧ s.cvEpoch k < m.epoch ∧ m.epoch < 2 ^ 32
      ∧ m.convoy ≠ s.cvConvoy k ∧ s.cvMgr k = true :=
  ⟨0, { ctl 9 with convoy := 1, epoch := 2 ^ 32 - 1 }, underTop, by decide +kernel⟩

theorem witness_ConvoysHoldTogether_16 : ∃ (k : Nat) (m : Ctl) (s : State),
    s.LiveOn .N0 ∧ s.takes k 10 m = true :=
  ⟨0, ctl 10, convoy 1 0 3, by decide +kernel⟩

theorem witness_ConvoysHoldTogether_17 : ∃ (k : Nat) (m : Ctl) (s : State),
    s.LiveOn .N0 ∧ s.takes k 11 m = true ∧ s.cvSt k = 2
      ∧ State.majority { s.conv k with states := SMap.put (s.conv k).states (s.ctlKey k m) m.committed } = false :=
  ⟨0, { ctl 11 with committed := 5 }, (convoy 2 0 3).setConv 0 { Conv.init with prev := 4 }, by decide +kernel⟩

theorem witness_StepsCommit_1 : ∃ (k : Nat) (_v : W32) (s : State),
    s.ConvOn k ∧ s.cvSt k ≠ 0 ∧ s.cvMgr k = false :=
  ⟨0, 7, convoy 1 0 3, by decide +kernel⟩

theorem witness_StepsCommit_2 : ∃ (k : Nat) (m : Ctl) (s : State),
    s.LiveOn .N0 ∧ s.takes k 3 m = true ∧ s.cvMgr k = true ∧ s.ctlKey k m < 128 :=
  ⟨0, { ctl 3 with barrier := 7 }, convoy 1 1 0, by decide +kernel⟩

theorem witness_StepsCommit_3 : ∃ (k : Nat) (m : Ctl) (s : State),
    s.LiveOn .N0 ∧ s.takes k 4 m = true ∧ s.cvMgr k = false :=
  ⟨0, { ctl 4 with barrier := 7 }, convoy 1 0 3, by decide +kernel⟩

theorem witness_StepsCommit_4 : ∃ (k : Nat) (_v : W32) (s : State),
    s.ConvOn k ∧ s.cvSt k ≠ 0 ∧ s.cvMgr k = false ∧ s.cvLayer k = false :=
  ⟨0, 1, convoy 1 0 3, by decide +kernel⟩

theorem witness_StepsCommit_5 : ∃ (k : Nat) (m : Ctl) (s : State),
    s.LiveOn .N0 ∧ s.takes k 5 m = true ∧ s.cvMgr k = true :=
  ⟨0, { ctl 5 with milestone := 1 }, convoy 1 1 0, by decide +kernel⟩

theorem witness_StepsCommit_6 : ∃ (k : Nat) (m : Ctl) (s : State),
    s.LiveOn .N0 ∧ s.takes k 6 m = true ∧ s.cvMgr k = false ∧ s.cvCommitted k < m.milestone ∧ m.milestone < 2 ^ 64 ∧ s.cvLayer k = false :=
  ⟨0, { ctl 6 with milestone := 2 ^ 64 - 1 }, convoy 1 0 3, by decide +kernel⟩

theorem witness_StepsCommit_7 : ∃ (k : Nat) (_v : W32) (s : State),
    s.ConvOn k ∧ s.cvSt k ≠ 0 ∧ s.cvMgr k = true :=
  ⟨0, 0, convoy 1 1 0, by decide +kernel⟩

theorem witness_StepsCommit_8 : ∃ (k : Nat) (m : Ctl) (s : State),
    s.LiveOn .N0 ∧ s.takes k 7 m = true ∧ s.cvMgr k = true :=
  ⟨0, ctl 7, (convoy 1 1 0).setConv 0 { Conv.init with applying := true, atCommit := [0, 5] }, by decide +kernel⟩

theorem witness_StepsCommit_9 : ∃ (k : Nat) (m : Ctl) (s : State),
    s.LiveOn .N0 ∧ s.takes k 8 m = true ∧ s.cvMgr k = false :=
  ⟨0, { ctl 8 with milestone := 1 }, convoy 1 0 3, by decide +kernel⟩

theorem witness_PrepAndInvalidation_1 : ∃ (d : Die) (n q : Nat) (x : Desc) (s : State),
    s.RunningDesc d n q 0x30 x ∧ x.aux = [] ∧ s.runs (State.prepPg s.prepPick) = true :=
  ⟨.T0, 0, 0, job 0x30, withJobs on [job 0x30], by decide +kernel⟩

theorem witness_PrepAndInvalidation_2 : ∃ (d : Die) (n q u : Nat) (x : Desc) (s : State),
    s.RunningDesc d n q 0x30 x ∧ x.aux = [u + 1] ∧ s.runs (State.prepPg u) = true ∧ (∀ y ∈ s.prepJobs u, y.aux.length ≤ 1) :=
  ⟨.T0, 0, 0, 3, { job 0x30 with aux := [4] }, withJobs on [{ job 0x30 with aux := [4] }], by decide +kernel⟩

theorem witness_PrepAndInvalidation_3 : ∃ (d : Die) (n q u k a b c : Nat) (x : Desc) (s : State),
    s.RunningDesc d n q 0x30 x ∧ x.aux = [u + 1, a, k, b, c] ∧ s.runs (State.prepPg u) = true ∧ x.pjSource = 0 :=
  ⟨.T0, 0, 0, 0, 0, 1, 0, 0, { wide 0x30 with aux := [1, 1, 0, 0, 0], layout := 1 <<< 192 + 1 <<< 320 + 1 <<< 336 }, withJobs (streamIn 1) [{ wide 0x30 with aux := [1, 1, 0, 0, 0], layout := 1 <<< 192 + 1 <<< 320 + 1 <<< 336 }], by decide +kernel⟩

theorem witness_PrepAndInvalidation_4 : ∃ (d : Die) (s : State),
    s.LiveOn d ∧ isHost d = false ∧ s.runs (State.xltPg d) = true ∧ s.getF (State.xltPg d) Reg.XLT_INV_CMD_BUSY = 0 :=
  ⟨.C3, on, by decide +kernel⟩

theorem witness_PrepAndInvalidation_5 : ∃ (d g : Die) (v : Inv) (s : State),
    s.LiveOn d ∧ SMap.find s.invs (dieCode d) = some v ∧ v.waiting = [dieCode g] ∧ s.invStreams v g = [] ∧ s.invQps v g = [] :=
  ⟨.C3, .T7, ⟨0, 0, 1, none, [7]⟩, { on with invs := [(15, ⟨0, 0, 1, none, [7]⟩)] }, by decide +kernel⟩

theorem witness_CachesStayCoherent_1 : ∀ _p ∈ [(Instr.rdShared, CohReq.rdShared), (Instr.rdUnique, CohReq.rdUnique)], ∃ (_x : Cache) (l : Nat) (s : State),
    s.Live ∧ s.lineAt l = Line.init ∧ s.cacheable l = true ∧ s.runs (cohPg (s.homeDie l)) = true :=
  List.forall_mem_cons.2 ⟨⟨.core 95, 0, on, by decide +kernel⟩,
  List.forall_mem_cons.2 ⟨⟨.l3 .H0, 7, on, by decide +kernel⟩,
  fun _ h => absurd h List.not_mem_nil⟩⟩

theorem witness_CachesStayCoherent_2 : ∃ (x : Cache) (l : Nat) (k : Copy) (s : State),
    s.Live ∧ State.copyOf (s.lineAt l) x = some k ∧ k.st = 0 ∧ (s.lineAt l).bufs = [] ∧ (s.lineAt l).trans = none
      ∧ (s.lineAt l).queue = [] ∧ s.cacheable l = true ∧ s.runs (cohPg (s.homeDie l)) = true :=
  ⟨.core 0, 0, ⟨.core 0, 0, List.replicate 64 0⟩, on.setLine 0 ⟨[⟨.core 0, 0, List.replicate 64 0⟩, ⟨.core 95, 0, List.replicate 64 0⟩], [], none, []⟩, by decide +kernel⟩

theorem witness_CachesStayCoherent_3a : ∃ (l _off : Nat) (b : Bytes) (s : State),
    s.Live ∧ (s.lineAt l).trans = none ∧ s.cacheable l = true ∧ s.runs (cohPg (s.homeDie l)) = true ∧ b.length = 64 :=
  ⟨0, 60, List.replicate 64 9, on, by decide +kernel⟩

theorem witness_CachesStayCoherent_3b : ∃ (l off : Nat) (b : Bytes) (s : State),
    s.Live ∧ (s.lineAt l).trans = none ∧ s.cacheable l = true ∧ s.runs (cohPg (s.homeDie l)) = true ∧ off + b.length ≤ 64 :=
  ⟨0, 60, List.replicate 4 9, on, by decide +kernel⟩

theorem witness_CachesStayCoherent_4a : ∃ (x y : Cache) (l : Nat) (k : Copy) (u : CohTrans) (s : State),
    s.Live ∧ (s.lineAt l).trans = some u ∧ u.phase = 0 ∧ x ≠ y ∧ x ∉ u.answered ∧ State.copyOf (s.lineAt l) x = some k
      ∧ u.req = .rdShared y :=
  ⟨.core 0, .core 95, 0, ⟨.core 0, 2, List.replicate 64 2⟩, ⟨.rdShared (.core 95), [], [], false, none, [], 0⟩, on.setLine 0 ⟨[⟨.core 0, 2, List.replicate 64 2⟩], [], some ⟨.rdShared (.core 95), [], [], false, none, [], 0⟩, []⟩, by decide +kernel⟩

theorem witness_CachesStayCoherent_4b : ∃ (x y : Cache) (l : Nat) (k : Copy) (u : CohTrans) (s : State),
    s.Live ∧ (s.lineAt l).trans = some u ∧ u.phase = 0 ∧ x ≠ y ∧ x ∉ u.answered ∧ State.copyOf (s.lineAt l) x = some k
      ∧ u.req = .rdUnique y :=
  ⟨.core 0, .core 95, 0, ⟨.core 0, 2, List.replicate 64 2⟩, ⟨.rdUnique (.core 95), [], [], false, none, [], 0⟩, on.setLine 0 ⟨[⟨.core 0, 2, List.replicate 64 2⟩], [], some ⟨.rdUnique (.core 95), [], [], false, none, [], 0⟩, []⟩, by decide +kernel⟩

theorem witness_CachesStayCoherent_4c : ∃ (x y : Cache) (l : Nat) (k : Copy) (u : CohTrans) (s : State),
    s.Live ∧ (s.lineAt l).trans = some u ∧ u.phase = 0 ∧ x ≠ y ∧ x ∉ u.answered ∧ State.copyOf (s.lineAt l) x = some k ∧ u.req = .rdOnce :=
  ⟨.core 0, .core 95, 0, ⟨.core 0, 2, List.replicate 64 2⟩, ⟨.rdOnce, [], [], false, none, [], 0⟩, on.setLine 0 ⟨[⟨.core 0, 2, List.replicate 64 2⟩], [], some ⟨.rdOnce, [], [], false, none, [], 0⟩, []⟩, by decide +kernel⟩

theorem witness_CachesStayCoherent_5 : ∃ (d : Die) (l g : Nat) (u : CohTrans) (s : State),
    s.Live ∧ (s.lineAt l).trans = some u ∧ isHost d = true ∧ u.phase = 0 ∧ u.rings = [g] ∧ g ≠ dieCode d
      ∧ (∀ x ∈ State.ringHolders (s.lineAt l) u d, x ∈ u.answered) ∧ s.movingIn (64 * l) 64 = false :=
  ⟨.H0, 0, 9, ⟨.rdOnce, [], [9], false, none, [], 0⟩, on.setLine 0 ⟨[⟨.core 95, 2, List.replicate 64 2⟩], [], some ⟨.rdOnce, [], [9], false, none, [], 0⟩, []⟩, by decide +kernel⟩

theorem witness_CachesStayCoherent_6a : ∃ (l : Nat) (x : Cache) (u : CohTrans) (s : State),
    s.Live ∧ (s.lineAt l).trans = some u ∧ u.phase = 1 ∧ u.req = .rdShared x :=
  ⟨0, .core 0, ⟨.rdShared (.core 0), [], [], true, none, [], 1⟩, on.setLine 0 ⟨[], [], some ⟨.rdShared (.core 0), [], [], true, none, [], 1⟩, []⟩, by decide +kernel⟩

theorem witness_CachesStayCoherent_6b : ∃ (l : Nat) (x : Cache) (u : CohTrans) (s : State),
    s.Live ∧ (s.lineAt l).trans = some u ∧ u.phase = 1 ∧ u.req = .rdShared x :=
  ⟨0, .core 0, ⟨.rdShared (.core 0), [], [], false, none, [], 1⟩, on.setLine 0 ⟨[], [], some ⟨.rdShared (.core 0), [], [], false, none, [], 1⟩, []⟩, by decide +kernel⟩

theorem witness_CachesStayCoherent_6c : ∃ (l : Nat) (x : Cache) (u : CohTrans) (s : State),
    s.Live ∧ (s.lineAt l).trans = some u ∧ u.phase = 1 ∧ u.req = .rdUnique x :=
  ⟨0, .core 0, ⟨.rdUnique (.core 0), [], [], false, none, [], 1⟩, on.setLine 0 ⟨[], [], some ⟨.rdUnique (.core 0), [], [], false, none, [], 1⟩, []⟩, by decide +kernel⟩

theorem witness_CachesStayCoherent_7 : ∃ (l : Nat) (b : Bytes) (u : CohTrans) (s : State),
    s.Live ∧ (s.lineAt l).trans = some u ∧ u.phase = 1 ∧ u.req = .wrLine b :=
  ⟨0, List.replicate 64 1, ⟨.wrLine (List.replicate 64 1), [], [], false, none, [], 1⟩, on.setLine 0 ⟨[], [], some ⟨.wrLine (List.replicate 64 1), [], [], false, none, [], 1⟩, [(.rdOnce, 0)]⟩, by decide +kernel⟩

theorem witness_CachesStayCoherent_8 : ∃ (l : Nat) (u : CohTrans) (s : State),
    s.Live ∧ (s.lineAt l).trans = some u ∧ u.phase = 2 :=
  ⟨0, ⟨.rdOnce, [], [], false, none, [], 2⟩, on.setLine 0 ⟨[], [], some ⟨.rdOnce, [], [], false, none, [], 2⟩, []⟩, by decide +kernel⟩

theorem witness_CachesStayCoherent_9 : ∃ (x : Cache) (l : Nat) (k : Copy) (s : State),
    s.Live ∧ State.copyOf (s.lineAt l) x = some k ∧ k.st = 2 ∧ (s.lineAt l).trans = none ∧ s.movingIn (64 * l) 64 = false :=
  ⟨.core 0, 0, ⟨.core 0, 2, List.replicate 64 2⟩, on.setLine 0 ⟨[⟨.core 0, 2, List.replicate 64 2⟩], [], none, []⟩, by decide +kernel⟩

theorem witness_CachesStayCoherent_10 : ∃ (_x : Cache) (_l : Nat) (s : State),
    s.Live :=
  ⟨.core 0, 0, on.setLine 0 ⟨[], [⟨.core 0, List.replicate 64 0, 2⟩], none, []⟩, by decide +kernel⟩

theorem witness_CachesStayCoherent_11a : ∃ (i src e : Nat) (s : State),
    s.Live ∧ s.msiq[i]? = some src ∧ s.getF (cohPg .H0) Reg.COH_MSI_CFG_EN = 1 ∧ SMap.find s.routes src = some e :=
  ⟨0, 5, 1 + 95 <<< 2 + 64 <<< 9 + 2047 <<< 16, { on.setF (cohPg .H0) Reg.COH_MSI_CFG_EN 1 with msiq := [5], routes := [(5, 1 + 95 <<< 2 + 64 <<< 9 + 2047 <<< 16)] }, by decide +kernel⟩

theorem witness_CachesStayCoherent_11b : ∃ (i src e : Nat) (s : State),
    s.Live ∧ s.msiq[i]? = some src ∧ s.getF (cohPg .H0) Reg.COH_MSI_CFG_EN = 1 ∧ SMap.find s.routes src = some e
      ∧ State.routeOk e = true ∧ e.testBit 1 = false ∧ s.hartCpt (bitsOf e 2 7) ≠ some (s.msiCpt src) :=
  ⟨0, 5, 1 + 95 <<< 2 + 64 <<< 9 + 2047 <<< 16, ({ on.setF (cohPg .H0) Reg.COH_MSI_CFG_EN 1 with msiq := [5], routes := [(5, 1 + 95 <<< 2 + 64 <<< 9 + 2047 <<< 16)] } : State).setOwner 3 95 3, by decide +kernel⟩

theorem witness_CachesStayCoherent_12 : ∃ (s : State),
    s.Live :=
  ⟨{ on with routes := [(5, 1)] }, by decide +kernel⟩

theorem witness_AccessesAnswered_1a : ∃ (h pa n : Nat) (s : State),
    s.HartRuns h ∧ s.Mapped h pa ∧ n ≠ 0 ∧ s.memoryAt pa ∧ s.allMemory pa n = true ∧ s.memReach (s.hartTag h) pa n = true
      ∧ s.absentLots (State.lotsOf pa n) = [] ∧ s.hartBad pa n = false :=
  ⟨95, unifiedBase + 60, 8, (on.setHart 95 ⟨false, false, none⟩).setEntry 0 0, by decide +kernel, by decide +kernel, by decide +kernel, .inr (.inr ⟨0, by decide +kernel⟩), by decide +kernel, by decide +kernel, by decide +kernel, by decide +kernel⟩

theorem witness_AccessesAnswered_1b : ∃ (h pa n : Nat) (s : State),
    s.HartRuns h ∧ s.Mapped h pa ∧ n ≠ 0 ∧ s.memoryAt pa ∧ s.allMemory pa n = true ∧ s.memReach (s.hartTag h) pa n = true
      ∧ s.absentLots (State.lotsOf pa n) = [] ∧ s.hartBad pa n = false :=
  ⟨0, 0x200000 - 8, 8, shared, by decide +kernel, by decide +kernel, by decide +kernel, .inl (by decide +kernel), by decide +kernel, by decide +kernel, by decide +kernel, by decide +kernel⟩

theorem witness_AccessesAnswered_2 : ∃ (h pa : Nat) (b : Bytes) (s : State),
    s.HartRuns h ∧ s.Mapped h pa ∧ b ≠ [] ∧ pa % 64 + b.length ≤ 64 ∧ s.memoryAt pa ∧ s.allMemory pa b.length = true
      ∧ s.memReach (s.hartTag h) pa b.length = true ∧ s.absentLots (State.lotsOf pa b.length) = [] ∧ s.movingIn pa b.length = false
      ∧ s.lines = [] ∧ s.partialBad pa b.length = false :=
  ⟨0, 0x200000 - 4, [1, 2, 3, 4], shared, by decide +kernel, by decide +kernel, by decide +kernel, by decide +kernel, .inl (by decide +kernel), by decide +kernel, by decide +kernel, by decide +kernel, by decide +kernel, by decide +kernel, by decide +kernel⟩

theorem witness_AccessesAnswered_3 : ∃ (pa n : Nat) (s : State),
    s.pcieUp = true ∧ s.Live ∧ n ≠ 0 ∧ pa + n ≤ 0x200000000000 ∧ s.memoryAt pa ∧ s.pcieMem pa n = true
      ∧ s.absentLots (State.lotsOf pa n) = [] ∧ s.badIn pa n = false :=
  ⟨4090, 16, ((on.setF pciePg Reg.PCIE_LINK_DL_ACTIVE 1).setOwner 5 0 0).setOwner 5 1 0, by decide +kernel, by decide +kernel, by decide +kernel, by decide +kernel, .inl (by decide +kernel), by decide +kernel, by decide +kernel, by decide +kernel⟩

theorem witness_AccessesAnswered_4 : ∃ (pa : Nat) (b : Bytes) (s : State),
    s.pcieUp = true ∧ s.Live ∧ b ≠ [] ∧ pa + b.length ≤ 0x200000000000 ∧ s.memoryAt pa ∧ s.pcieMem pa b.length = true
      ∧ s.absentLots (State.lotsOf pa b.length) = [] ∧ s.movingIn pa b.length = false ∧ s.partialBad pa b.length = false :=
  ⟨4090, List.replicate 16 5, ((on.setF pciePg Reg.PCIE_LINK_DL_ACTIVE 1).setOwner 5 0 0).setOwner 5 1 0, by decide +kernel, by decide +kernel, by decide +kernel, by decide +kernel, .inl (by decide +kernel), by decide +kernel, by decide +kernel, by decide +kernel, by decide +kernel⟩

theorem witness_AccessesAnswered_5a : ∃ (pa : Nat) (s : State),
    s.inspectOn = true ∧ s.memAnswers = true ∧ pa % 4 = 0 ∧ s.memoryAt pa ∧ s.inspectable pa = true :=
  ⟨4, { on with inspectOn := true }, by decide +kernel, by decide +kernel, by decide +kernel, .inl (by decide +kernel), by decide +kernel⟩

theorem witness_AccessesAnswered_5b : ∃ (pa : Nat) (s : State),
    s.inspectOn = true ∧ s.memAnswers = true ∧ pa % 4 = 0 ∧ s.memoryAt pa ∧ s.inspectable pa = true :=
  ⟨unifiedBase + 65532, ({ on with inspectOn := true } : State).setEntry 0 0, by decide +kernel, by decide +kernel, by decide +kernel, .inr (.inr ⟨0, by decide +kernel⟩), by decide +kernel⟩

theorem witness_AccessesAnswered_6 : ∃ (pa : Nat) (s : State),
    s.inspectOn = true ∧ pa % 4 = 0 ∧ s.locate pa = .undecoded :=
  ⟨2 ^ 46 - 4, { State.reset with inspectOn := true }, by decide +kernel⟩

theorem witness_AccessesAnswered_7 : ∃ (pa : Nat) (_v : W32) (s : State),
    s.inspectOn = true ∧ s.Live ∧ pa % 4 = 0 ∧ s.memoryAt pa ∧ s.inspectTakes pa = true :=
  ⟨4, 0x01020304, { on with inspectOn := true }, by decide +kernel, by decide +kernel, by decide +kernel, .inl (by decide +kernel), by decide +kernel⟩

theorem witness_CompartmentTable_1 : ∃ (s : State),
    s.TableFree ∧ s.cptState s.cptSel = 0 ∧ s.createOk s.cptSel = true :=
  ⟨after on [(·.setF cptPg Reg.CPT_SEL_COMPARTMENT 3), (·.setF cptPg Reg.CPT_ENT_STAT_STATE 0 3), (·.setF cptPg Reg.CPT_UNIT_KIND 0), (·.setF cptPg Reg.CPT_UNIT_INDEX 0), (·.setOwner 0 0 0x7F)], by decide +kernel⟩

theorem witness_CompartmentTable_2 : ∃ (s : State),
    s.TableFree ∧ s.cptState s.cptSel = 1 :=
  ⟨after on [(·.setF cptPg Reg.CPT_SEL_COMPARTMENT 3), (·.setF cptPg Reg.CPT_ENT_STAT_STATE 1 3), (·.setF cptPg Reg.CPT_UNIT_KIND 0), (·.setF cptPg Reg.CPT_UNIT_INDEX 0), (·.setOwner 0 0 0x7F)], by decide +kernel⟩

theorem witness_CompartmentTable_3 : ∃ (c b : Nat) (r : CptReq) (s : State),
    s.Live ∧ s.cptOp = some (r, b) ∧ s.cptQueue = [] ∧ r.cmd = 2 ∧ r.cpt = c ∧ c < 64 ∧ s.releaseQuiet c = true ∧ s.place.stalls = [] :=
  ⟨3, 0, ⟨2, 3, 0, 0⟩, { after on [(·.setF cptPg Reg.CPT_SEL_COMPARTMENT 3), (·.setF cptPg Reg.CPT_ENT_STAT_STATE 2 3), (·.setF cptPg Reg.CPT_UNIT_KIND 0), (·.setF cptPg Reg.CPT_UNIT_INDEX 799), (·.setOwner 0 799 3)] with cptOp := some (⟨2, 3, 0, 0⟩, 0) }, by decide +kernel⟩

theorem witness_CompartmentTable_4a : ∃ (s : State),
    s.TableFree ∧ s.cptState s.cptSel = 1 ∧ s.getF cptPg Reg.CPT_UNIT_KIND ≠ 4 ∧ s.getF cptPg Reg.CPT_UNIT_KIND ≠ 5
      ∧ s.getF cptPg Reg.CPT_UNIT_INDEX < unitCount (s.getF cptPg Reg.CPT_UNIT_KIND)
      ∧ s.owner (s.getF cptPg Reg.CPT_UNIT_KIND) (s.getF cptPg Reg.CPT_UNIT_INDEX) = 0x7F :=
  ⟨after on [(·.setF cptPg Reg.CPT_SEL_COMPARTMENT 3), (·.setF cptPg Reg.CPT_ENT_STAT_STATE 1 3), (·.setF cptPg Reg.CPT_UNIT_KIND 0), (·.setF cptPg Reg.CPT_UNIT_INDEX 795), (·.setOwner 0 795 0x7F)], by decide +kernel⟩

theorem witness_CompartmentTable_4b : ∃ (s : State),
    s.TableFree ∧ s.cptState s.cptSel = 1 ∧ s.getF cptPg Reg.CPT_UNIT_KIND ≠ 4 ∧ s.getF cptPg Reg.CPT_UNIT_KIND ≠ 5
      ∧ s.getF cptPg Reg.CPT_UNIT_INDEX < unitCount (s.getF cptPg Reg.CPT_UNIT_KIND)
      ∧ s.owner (s.getF cptPg Reg.CPT_UNIT_KIND) (s.getF cptPg Reg.CPT_UNIT_INDEX) = 0x7F :=
  ⟨after on [(·.setF cptPg Reg.CPT_SEL_COMPARTMENT 3), (·.setF cptPg Reg.CPT_ENT_STAT_STATE 1 3), (·.setF cptPg Reg.CPT_UNIT_KIND 1), (·.setF cptPg Reg.CPT_UNIT_INDEX 2047), (·.setOwner 1 2047 0x7F)], by decide +kernel⟩

theorem witness_CompartmentTable_4c : ∃ (s : State),
    s.TableFree ∧ s.cptState s.cptSel = 1 ∧ s.getF cptPg Reg.CPT_UNIT_KIND ≠ 4 ∧ s.getF cptPg Reg.CPT_UNIT_KIND ≠ 5
      ∧ s.getF cptPg Reg.CPT_UNIT_INDEX < unitCount (s.getF cptPg Reg.CPT_UNIT_KIND)
      ∧ s.owner (s.getF cptPg Reg.CPT_UNIT_KIND) (s.getF cptPg Reg.CPT_UNIT_INDEX) = 0x7F :=
  ⟨after on [(·.setF cptPg Reg.CPT_SEL_COMPARTMENT 3), (·.setF cptPg Reg.CPT_ENT_STAT_STATE 1 3), (·.setF cptPg Reg.CPT_UNIT_KIND 2), (·.setF cptPg Reg.CPT_UNIT_INDEX 16383), (·.setOwner 2 16383 0x7F)], by decide +kernel⟩

theorem witness_CompartmentTable_4d : ∃ (s : State),
    s.TableFree ∧ s.cptState s.cptSel = 1 ∧ s.getF cptPg Reg.CPT_UNIT_KIND ≠ 4 ∧ s.getF cptPg Reg.CPT_UNIT_KIND ≠ 5
      ∧ s.getF cptPg Reg.CPT_UNIT_INDEX < unitCount (s.getF cptPg Reg.CPT_UNIT_KIND)
      ∧ s.owner (s.getF cptPg Reg.CPT_UNIT_KIND) (s.getF cptPg Reg.CPT_UNIT_INDEX) = 0x7F :=
  ⟨after on [(·.setF cptPg Reg.CPT_SEL_COMPARTMENT 3), (·.setF cptPg Reg.CPT_ENT_STAT_STATE 1 3), (·.setF cptPg Reg.CPT_UNIT_KIND 3), (·.setF cptPg Reg.CPT_UNIT_INDEX 95), (·.setOwner 3 95 0x7F)], by decide +kernel⟩

theorem witness_CompartmentTable_4e : ∃ (s : State),
    s.TableFree ∧ s.cptState s.cptSel = 1 ∧ s.getF cptPg Reg.CPT_UNIT_KIND ≠ 4 ∧ s.getF cptPg Reg.CPT_UNIT_KIND ≠ 5
      ∧ s.getF cptPg Reg.CPT_UNIT_INDEX < unitCount (s.getF cptPg Reg.CPT_UNIT_KIND)
      ∧ s.owner (s.getF cptPg Reg.CPT_UNIT_KIND) (s.getF cptPg Reg.CPT_UNIT_INDEX) = 0x7F :=
  ⟨after on [(·.setF cptPg Reg.CPT_SEL_COMPARTMENT 3), (·.setF cptPg Reg.CPT_ENT_STAT_STATE 1 3), (·.setF cptPg Reg.CPT_UNIT_KIND 6), (·.setF cptPg Reg.CPT_UNIT_INDEX 15), (·.setOwner 6 15 0x7F)], by decide +kernel⟩

theorem witness_CompartmentTable_4f : ∃ (s : State),
    s.TableFree ∧ s.cptState s.cptSel = 1 ∧ s.getF cptPg Reg.CPT_UNIT_KIND ≠ 4 ∧ s.getF cptPg Reg.CPT_UNIT_KIND ≠ 5
      ∧ s.getF cptPg Reg.CPT_UNIT_INDEX < unitCount (s.getF cptPg Reg.CPT_UNIT_KIND)
      ∧ s.owner (s.getF cptPg Reg.CPT_UNIT_KIND) (s.getF cptPg Reg.CPT_UNIT_INDEX) = 0x7F :=
  ⟨after on [(·.setF cptPg Reg.CPT_SEL_COMPARTMENT 3), (·.setF cptPg Reg.CPT_ENT_STAT_STATE 1 3), (·.setF cptPg Reg.CPT_UNIT_KIND 7), (·.setF cptPg Reg.CPT_UNIT_INDEX 40959), (·.setOwner 7 40959 0x7F)], by decide +kernel⟩

theorem witness_CompartmentTable_5a : ∃ (k i o : Nat) (s : State),
    s.TableFree ∧ s.cptState s.cptSel = 1 ∧ k = s.getF cptPg Reg.CPT_UNIT_KIND ∧ i = s.getF cptPg Reg.CPT_UNIT_INDEX ∧ i < unitCount k
      ∧ s.granuleLocal k i = false ∧ s.owner k i = o ∧ o < 64 ∧ o ≠ s.cptSel ∧ s.getF cptPg Reg.CPT_CFG_LOCKED = 0 :=
  ⟨2, 16383, 5, after on [(·.setF cptPg Reg.CPT_SEL_COMPARTMENT 3), (·.setF cptPg Reg.CPT_ENT_STAT_STATE 1 3), (·.setF cptPg Reg.CPT_UNIT_KIND 2), (·.setF cptPg Reg.CPT_UNIT_INDEX 16383), (·.setOwner 2 16383 5)], by decide +kernel⟩

theorem witness_CompartmentTable_5b : ∃ (k i o : Nat) (s : State),
    s.TableFree ∧ s.cptState s.cptSel = 1 ∧ k = s.getF cptPg Reg.CPT_UNIT_KIND ∧ i = s.getF cptPg Reg.CPT_UNIT_INDEX ∧ i < unitCount k
      ∧ s.granuleLocal k i = false ∧ s.owner k i = o ∧ o < 64 ∧ o ≠ s.cptSel ∧ s.getF cptPg Reg.CPT_CFG_LOCKED = 0 :=
  ⟨4, 0, 63, after on [(·.setF cptPg Reg.CPT_SEL_COMPARTMENT 3), (·.setF cptPg Reg.CPT_ENT_STAT_STATE 1 3), (·.setF cptPg Reg.CPT_UNIT_KIND 4), (·.setF cptPg Reg.CPT_UNIT_INDEX 0), (·.setOwner 4 0 63)], by decide +kernel⟩

theorem witness_CompartmentTable_6a : ∃ (b : Nat) (r : CptReq) (s : State),
    s.Live ∧ s.cptOp = some (r, b) ∧ r.cmd = 3 ∧ s.granuleLots (r.kind - 4) r.index = [] :=
  ⟨0, ⟨3, 3, 4, 5⟩, { on with cptOp := some (⟨3, 3, 4, 5⟩, 0) }, by decide +kernel⟩

theorem witness_CompartmentTable_6b : ∃ (b : Nat) (r : CptReq) (s : State),
    s.Live ∧ s.cptOp = some (r, b) ∧ r.cmd = 3 ∧ s.granuleLots (r.kind - 4) r.index = [] :=
  ⟨0, ⟨3, 3, 5, 983039⟩, { on with cptOp := some (⟨3, 3, 5, 983039⟩, 0) }, by decide +kernel⟩

theorem witness_CompartmentTable_7 : ∃ (k i : Nat) (s : State),
    s.TableFree ∧ s.cptState s.cptSel = 1 ∧ k = s.getF cptPg Reg.CPT_UNIT_KIND ∧ i = s.getF cptPg Reg.CPT_UNIT_INDEX ∧ i < unitCount k
      ∧ s.granuleLocal k i = false ∧ s.owner k i = s.cptSel ∧ s.unitBusy k i = false :=
  ⟨2, 16383, after on [(·.setF cptPg Reg.CPT_SEL_COMPARTMENT 3), (·.setF cptPg Reg.CPT_ENT_STAT_STATE 1 3), (·.setF cptPg Reg.CPT_UNIT_KIND 2), (·.setF cptPg Reg.CPT_UNIT_INDEX 16383), (·.setOwner 2 16383 3)], by decide +kernel⟩

theorem witness_CompartmentTable_8 : ∃ (b : Nat) (r : CptReq) (s : State),
    s.Live ∧ s.cptOp = some (r, b) ∧ r.cmd = 4 :=
  ⟨0, ⟨4, 3, 7, 40959⟩, { on with cptOp := some (⟨4, 3, 7, 40959⟩, 0) }, by decide +kernel⟩

theorem witness_CompartmentTable_9 : ∃ (s : State),
    s.AuxOn :=
  ⟨on, by decide +kernel⟩

theorem witness_CompartmentTable_10 : ∃ (_v : W32) (s : State),
    s.AuxOn ∧ s.cptState s.cptSel = 0 :=
  ⟨0xFFFFFFFF, after on [(·.setF cptPg Reg.CPT_SEL_COMPARTMENT 3), (·.setF cptPg Reg.CPT_ENT_STAT_STATE 0 3), (·.setF cptPg Reg.CPT_UNIT_KIND 0), (·.setF cptPg Reg.CPT_UNIT_INDEX 0), (·.setOwner 0 0 0x7F)], by decide +kernel⟩

theorem witness_CompartmentTable_11 : ∃ (c e : Nat) (s : State),
    s.AuxOn ∧ e = s.getF (ownPg c) Reg.CPT_OPEN_SEL_ENTRY ∧ s.handleCheck (c % 64) (s.getF (ownPg c) Reg.CPT_OPEN_HANDLE e) = stOk :=
  ⟨0, 0, { on.setF (ownPg 0) Reg.CPT_OPEN_HANDLE 0 0 with place := { on.place with bufs := [(0, ⟨0x100000, 65536, 3, 0, 0, 0⟩)] } }, by decide +kernel⟩

theorem witness_CompartmentTable_12 : ∃ (_c : Nat) (s : State),
    s.AuxOn :=
  ⟨63, on, by decide +kernel⟩

theorem witness_PageHeaders_1a : ∃ (r : Requester) (pg : Page) (v : W32) (s : State),
    s.PageOn pg ∧ s.reaches r pg = true ∧ pageFused s.fuses pg = false ∧ s.tenant pg = false ∧ bitsOf v.toNat 16 3 = 1 :=
  ⟨.hart 0, (engPg .T0 0), 0x10001, on, by decide +kernel⟩

theorem witness_PageHeaders_1b : ∃ (r : Requester) (pg : Page) (v : W32) (s : State),
    s.PageOn pg ∧ s.reaches r pg = true ∧ pageFused s.fuses pg = false ∧ s.tenant pg = false ∧ bitsOf v.toNat 16 3 = 1 :=
  ⟨.pcie, (portPg 7), 0x10000, on, by decide +kernel⟩

theorem witness_PageHeaders_2 : ∃ (r : Requester) (pg : Page) (s : State),
    s.PageOn pg ∧ s.reaches r pg = true ∧ pageFused s.fuses pg = false ∧ s.tenant pg = false :=
  ⟨.inspect, (engPg .T0 0), { on with inspectOn := true }, by decide +kernel⟩

theorem witness_PageHeaders_3 : ∃ (pg : Page) (s : State),
    s.responds pg = true ∧ s.getF pg Reg.PAGE_STAT_RESETTING = 1 :=
  ⟨(engPg .T0 0), on.setF (engPg .T0 0) Reg.PAGE_STAT_RESETTING 1, by decide +kernel⟩

theorem witness_PageHeaders_4 : ∃ (pg : Page) (v : W32) (s : State),
    s.PageOn pg ∧ pageFused s.fuses pg = false ∧ s.getF pg Reg.PAGE_APPLY_REQ = 0 ∧ (s.word pg 8).testBit 0 = true
      ∧ bitsOf v.toNat 4 4 = bitsOf (s.word pg 8) 8 4 ∧ bitsOf v.toNat 4 4 ≠ 15 :=
  ⟨cptPg, 0x50001, on.setWord cptPg 8 1, by decide +kernel⟩

theorem witness_PageHeaders_5 : ∃ (pg : Page) (s : State),
    s.PageOn pg ∧ s.getF pg Reg.PAGE_APPLY_REQ = 1 :=
  ⟨(engPg .T0 0), on.setF (engPg .T0 0) Reg.PAGE_APPLY_REQ 1, by decide +kernel⟩

theorem witness_PageHeaders_6 : ∃ (pg : Page) (s : State),
    s.PageOn pg ∧ s.getF pg Reg.PAGE_APPLY_REQ = 1 :=
  ⟨(engPg .T0 0), on.setF (engPg .T0 0) Reg.PAGE_APPLY_REQ 1, by decide +kernel⟩

theorem witness_PageHeaders_7 : ∃ (pg : Page) (v : W32) (n : Nat) (s : State),
    s.PageOn pg ∧ pageFused s.fuses pg = false ∧ n < 16 ∧ v.toNat.testBit (16 + n) = true :=
  ⟨(engPg .T0 0), 0x80008000, 15, on, by decide +kernel⟩

theorem witness_PageHeaders_8 : ∃ (pg : Page) (s : State),
    s.PageOn pg :=
  ⟨cptPg, { on with tvB := [(regKey cptPg 0x40 0, 1)] }, by decide +kernel⟩

theorem witness_PageHeaders_9 : ∃ (r : Requester) (pg : Page) (off : Nat) (_v : W32) (s : State),
    s.PageOn pg ∧ off % 4 = 0 ∧ off < 4096 ∧ s.reaches r pg = true :=
  ⟨.hart 0, (engPg .T0 0), 4092, 5, on, by decide +kernel⟩

theorem witness_PageHeaders_10 : ∃ (r : Requester) (s : State),
    s.AuxOn ∧ s.reaches r ledgPg = true ∧ r ≠ .inspect ∧ s.getF ledgPg Reg.PAGE_CTRL_INSPECT_SAFE = 0 :=
  ⟨.pcie, on, by decide +kernel⟩

theorem witness_PageHeaders_11 : ∃ (pg : Page) (_v : W32) (s : State),
    s.PageOn pg ∧ pageFused s.fuses pg = false ∧ (s.word pg 8).testBit 0 = false :=
  ⟨(engPg .T0 0), 0xF1, on, by decide +kernel⟩

theorem witness_ClocksChange_1 : ∃ (d : Die) (i _pa : Nat) (_c : ErrClass) (s : State),
    s.LiveOn d ∧ s.clocks.locked.contains (islKey d i) = true :=
  ⟨.T0, 0, 0, .corrected, { on with clocks := { on.clocks with locked := [islKey .T0 0] } }, by decide +kernel⟩

theorem witness_ClocksChange_2 : ∀ _p ∈ [ClkSrc.crystal, ClkSrc.baseboard], ∃ (s : State),
    s.AuxOn :=
  List.forall_mem_cons.2 ⟨⟨on, by decide +kernel⟩,
  List.forall_mem_cons.2 ⟨⟨on, by decide +kernel⟩,
  fun _ h => absurd h List.not_mem_nil⟩⟩

theorem witness_ClocksChange_3 : ∃ (s : State),
    s.AuxOn ∧ s.getF srcPg Reg.CLK_SRC_BASE_OK = 1 ∧ s.getF srcPg Reg.CLK_SRC_ACTIVE = 1 :=
  ⟨after on [(·.setF srcPg Reg.CLK_SRC_BASE_OK 1), (·.setF srcPg Reg.CLK_SRC_ACTIVE 1)], by decide +kernel⟩

theorem witness_ClocksChange_4 : ∃ (b : Nat) (s : State),
    s.AuxOn ∧ s.clocks.lostAt = some b ∧ s.getF srcPg Reg.CLK_SRC_ACTIVE = 0 ∧ s.srcOk 1 = true :=
  ⟨0, { (on.setF srcPg Reg.CLK_SRC_ACTIVE 0).setF srcPg Reg.CLK_SRC_BASE_OK 1 with clocks := { on.clocks with lostAt := some 0 } }, by decide +kernel⟩

theorem witness_ClocksChange_5 : ∃ (b : Nat) (s : State),
    s.AuxOn ∧ s.clocks.lostAt = some b ∧ s.getF srcPg Reg.CLK_SRC_ACTIVE < 2 ∧ s.srcOk (1 - s.getF srcPg Reg.CLK_SRC_ACTIVE) = false :=
  ⟨0, { on.setF srcPg Reg.CLK_SRC_ACTIVE 0 with clocks := { on.clocks with lostAt := some 0 } }, by decide +kernel⟩

theorem witness_ClocksChange_6 : ∃ (s : State),
    s.AuxOn ∧ s.clocks.lostAt = none ∧ s.getF srcPg Reg.CLK_STAT_COASTING = 1 ∧ s.clocks.waiting = [] :=
  ⟨on.setF srcPg Reg.CLK_STAT_COASTING 1, by decide +kernel⟩

theorem witness_ClocksChange_7 : ∃ (v : W32) (s : State),
    s.AuxOn ∧ v.toNat % 4 < 2 :=
  ⟨0xFFFFFFFD, on, by decide +kernel⟩

theorem witness_ClocksChange_8 : ∃ (_v : W32) (s : State),
    s.AuxOn :=
  ⟨0xFFFFFFFF, on, by decide +kernel⟩

theorem witness_ClocksChange_9 : ∃ (d : Die) (_v : W32) (r : Nat × Nat) (s : State),
    s.Powered ∧ islandRange d (s.getF (clkPg d) Reg.CLK_ISL_SEL_INDEX) = some r ∧ s.getF (clkPg d) Reg.CLK_STAT_COASTING = 0 :=
  ⟨.T0, 0xFF00, (islandRange .T0 0).getD (0, 0), on, by decide +kernel⟩

theorem witness_ClocksChange_10a : ∃ (d : Die) (i : Nat) (r : Nat × Nat) (s : State),
    s.Powered ∧ islandRange d i = some r ∧ s.getF (clkPg d) Reg.CLK_STAT_COASTING = 0
      ∧ s.getF (clkPg d) Reg.CLK_ISL_CUR i < s.islandBound d i r :=
  ⟨.T0, 0, (64, 16), on.setF (clkPg .T0) Reg.CLK_ISL_CUR 0 0, by decide +kernel⟩

theorem witness_ClocksChange_10b : ∃ (d : Die) (i : Nat) (r : Nat × Nat) (s : State),
    s.Powered ∧ islandRange d i = some r ∧ s.getF (clkPg d) Reg.CLK_STAT_COASTING = 0
      ∧ s.islandBound d i r ≤ s.getF (clkPg d) Reg.CLK_ISL_CUR i :=
  ⟨.T0, 0, (64, 16), on.setF (clkPg .T0) Reg.CLK_ISL_CUR 255 0, by decide +kernel⟩

theorem witness_ClocksChange_10c : ∃ (d : Die) (i : Nat) (r : Nat × Nat) (s : State),
    s.Powered ∧ islandRange d i = some r ∧ s.getF (clkPg d) Reg.CLK_STAT_COASTING = 0 ∧ r.2 < s.getF (clkPg d) Reg.CLK_ISL_CUR i :=
  ⟨.T0, 0, (64, 16), on.setF (clkPg .T0) Reg.CLK_ISL_CUR 17 0, by decide +kernel⟩

theorem witness_ClocksChange_10d : ∃ (d : Die) (i : Nat) (r : Nat × Nat) (s : State),
    s.Powered ∧ islandRange d i = some r ∧ s.getF (clkPg d) Reg.CLK_STAT_COASTING = 0
      ∧ (∀ x ∈ partners d i (s.getF (clkPg d) Reg.CLK_ISL_CUR i - 1), s.getF (clkPg d) Reg.CLK_ISL_CUR x.1 ≤ x.2.2) :=
  ⟨.T0, 0, (64, 16), on.setF (clkPg .T0) Reg.CLK_ISL_CUR 17 0, by decide +kernel⟩

theorem witness_ClocksChange_11 : ∃ (_d : Die) (_v : W32) (s : State),
    s.Powered :=
  ⟨.C3, 0xFFFFFFFF, on, by decide +kernel⟩

theorem witness_ClocksChange_12 : ∃ (d : Die) (i : Nat) (b : Bool) (s : State),
    s.Powered ∧ i < islandCount d ∧ s.asyncHeld d = b :=
  ⟨.T0, 0, on.asyncHeld .T0, on, by decide +kernel⟩

theorem witness_PowerAndHeat_1 : ∃ (_l : List (Die × Nat)) (s : State),
    s.Powered ∧ s.getF (pwrPg .N0) Reg.PWR_ROUND = 0 :=
  ⟨[(.T0, 2000)], on, by decide +kernel⟩

theorem witness_PowerAndHeat_2 : ∃ (d e : Die) (n _k : Nat) (s : State),
    s.Powered ∧ s.active d = true ∧ s.active e = true ∧ n = s.getF (pwrPg d) Reg.PWR_ROUND :=
  ⟨.T0, .C3, 0, 300, on, by decide +kernel⟩

theorem witness_PowerAndHeat_3 : ∃ (d : Die) (c : Nat) (s : State),
    s.Powered ∧ (s.budget d).raised = some c ∧ c < 2 ^ 16 ∧ (s.budget d).tickAt + 5000 ≤ s.aon :=
  ⟨.T0, 1500, { on.setBudget .T0 { Budget.init with raised := some 1500 } with aon := 5000 }, by decide +kernel⟩

theorem witness_PowerAndHeat_4 : ∃ (d : Die) (p : Nat) (r : Nat × Nat) (s : State),
    s.Powered ∧ islandRange d (mainIsland d) = some r ∧ s.getF (pwrPg d) Reg.PWR_CAP * 105 < p * 100
      ∧ r.2 < s.getF (clkPg d) Reg.CLK_ISL_CUR (mainIsland d) :=
  ⟨.T0, 3000, (64, 16), (on.setF (pwrPg .T0) Reg.PWR_CAP 2800).setF (clkPg .T0) Reg.CLK_ISL_CUR 64 (mainIsland .T0), by decide +kernel⟩

theorem witness_PowerAndHeat_5 : ∃ (d : Die) (l : List Nat) (s : State),
    s.Powered ∧ l.length = (if isTensor d then 32 else 8) ∧ (∀ x ∈ l, x ≤ 255) ∧ s.getF (thmPg d) Reg.THM_STATE = 0 :=
  ⟨.C3, [30, 255, 40, 50, 30, 30, 30, 30], on, by decide +kernel⟩

theorem witness_PowerAndHeat_6a : ∃ (d : Die) (b : Nat) (s : State),
    s.Powered ∧ SMap.find s.coolAt (dieCode d) = some b :=
  ⟨.T0, 0, { on.setF (thmPg .T0) Reg.THM_STATE 1 with coolAt := [(0, 0)], aon := 1000000 }, by decide +kernel⟩

theorem witness_PowerAndHeat_6b : ∃ (d : Die) (b : Nat) (s : State),
    s.Powered ∧ SMap.find s.coolAt (dieCode d) = some b :=
  ⟨.T0, 0, { on.setF (thmPg .T0) Reg.THM_STATE 2 with coolAt := [(0, 0)], aon := 1000000 }, by decide +kernel⟩

theorem witness_PowerAndHeat_6c : ∃ (d : Die) (b : Nat) (s : State),
    s.Powered ∧ SMap.find s.coolAt (dieCode d) = some b :=
  ⟨.T0, 0, { on.setF (thmPg .T0) Reg.THM_STATE 3 with coolAt := [(0, 0)], aon := 10000000 }, by decide +kernel⟩

theorem witness_StartStages_1 : ∃ (s : State),
    s.getF pciePg Reg.PCIE_HP_STATE_LEVER_CLOSED = 0 ∧ s.inputOk = true ∧ s.conn.excess = false :=
  ⟨State.reset.setF pciePg Reg.PCIE_HP_STATE_LEVER_CLOSED 0, by decide +kernel⟩

theorem witness_StartStages_2 : ∃ (_i : Nat) (s : State),
    s.qualified = true ∧ s.getF pciePg Reg.PCIE_HSW_AUX_ON = 0 :=
  ⟨15, { { (State.reset.setF pciePg Reg.PCIE_HSW_AUX_ON 0).setF pciePg Reg.PCIE_HP_STATE_LEVER_CLOSED 1 with conn := { ((State.reset.setF pciePg Reg.PCIE_HSW_AUX_ON 0).setF pciePg Reg.PCIE_HP_STATE_LEVER_CLOSED 1).conn with qualAt := some 0 } } with aon := 50000000 }, by decide +kernel⟩

theorem witness_StartStages_3 : ∃ (s : State),
    s.AuxOn ∧ s.atStage 0 = true ∧ s.conn.image = none ∧ s.fuses.ctlImageOk = true :=
  ⟨State.reset, by decide +kernel⟩

theorem witness_StartStages_4 : ∃ (s : State),
    s.AuxOn ∧ s.atStage 0 = true ∧ s.conn.image = none ∧ s.fuses.ctlImageOk = false :=
  ⟨{ State.reset with fuses := { State.reset.fuses with ctlImageOk := false } }, by decide +kernel⟩

theorem witness_StartStages_5 : ∃ (s : State),
    s.AuxOn ∧ s.atStage 1 = true :=
  ⟨(State.reset.setF mgmtPg Reg.MGMT_BOOT_STAGE 1), by decide +kernel⟩

theorem witness_StartStages_6 : ∃ (s : State),
    s.AuxOn ∧ s.atStage 2 = true ∧ s.hpState < 4 ∧ s.conn.failed = false ∧ s.getF pciePg Reg.PCIE_HSW_OC_LATCHED = 0 :=
  ⟨(State.reset.setF mgmtPg Reg.MGMT_BOOT_STAGE 2), by decide +kernel⟩

theorem witness_StartStages_7 : ∃ (s : State),
    s.Live ∧ s.atStage 3 = true :=
  ⟨(on.setF mgmtPg Reg.MGMT_BOOT_STAGE 3), by decide +kernel⟩

theorem witness_StartStages_8 : ∃ (_x _y : List Nat) (s : State),
    s.Live ∧ s.atStage 4 = true :=
  ⟨[7], [15], (on.setF mgmtPg Reg.MGMT_BOOT_STAGE 4), by decide +kernel⟩

theorem witness_StartStages_9 : ∃ (_x _y : List (Die × Nat)) (s : State),
    s.Live ∧ s.atStage 5 = true :=
  ⟨[], [], (on.setF mgmtPg Reg.MGMT_BOOT_STAGE 5), by decide +kernel⟩

theorem witness_StartStages_10 : ∃ (s : State),
    s.Live ∧ s.atStage 6 = true ∧ s.fuses.hostImageOk = true :=
  ⟨(on.setF mgmtPg Reg.MGMT_BOOT_STAGE 6), by decide +kernel⟩

theorem witness_StartStages_11 : ∃ (s : State),
    s.Live ∧ s.atStage 6 = true ∧ s.fuses.hostImageOk = false :=
  ⟨{ (on.setF mgmtPg Reg.MGMT_BOOT_STAGE 6) with fuses := { on.fuses with hostImageOk := false } }, by decide +kernel⟩

theorem witness_StartStages_12 : ∃ (s : State),
    s.Live ∧ s.atStage 7 = true ∧ s.hpState = 0 :=
  ⟨(on.setF mgmtPg Reg.MGMT_BOOT_STAGE 7), by decide +kernel⟩

theorem witness_StartStages_13 : ∃ (_i : Nat) (s : State),
    s.conn.excess = true ∧ s.getF pciePg Reg.PCIE_HP_STATE_LEVER_CLOSED = 1 :=
  ⟨7, { on.setF pciePg Reg.PCIE_HP_STATE_LEVER_CLOSED 1 with conn := { (on.setF pciePg Reg.PCIE_HP_STATE_LEVER_CLOSED 1).conn with excess := true } }, by decide +kernel⟩

theorem witness_RemovalAndInput_1 : ∃ (s : State),
    s.AuxOn ∧ s.conn.failed = false ∧ s.hpState ≠ 5 :=
  ⟨on, by decide +kernel⟩

theorem witness_RemovalAndInput_2 : ∃ (mv : Nat) (s : State),
    s.AuxOn ∧ s.conn.failed = false ∧ mv < 42000 :=
  ⟨41999, on, by decide +kernel⟩

theorem witness_RemovalAndInput_3 : ∃ (mv : Nat) (s : State),
    s.AuxOn ∧ s.conn.failed = false ∧ 62000 < mv :=
  ⟨62001, on, by decide +kernel⟩

theorem witness_RemovalAndInput_4 : ∃ (ma : Nat) (s : State),
    s.AuxOn ∧ s.conn.failed = false ∧ s.getF pciePg Reg.PCIE_HSW_MAIN_ON = 1 ∧ 75000 < ma :=
  ⟨75001, on, by decide +kernel⟩

theorem witness_RemovalAndInput_5 : ∃ (mv : Nat) (s : State),
    s.AuxOn ∧ 42000 ≤ mv ∧ mv < 48000 :=
  ⟨47999, on, by decide +kernel⟩

theorem witness_RemovalAndInput_6 : ∃ (mv : Nat) (s : State),
    44000 ≤ mv ∧ mv ≤ 60000 ∧ s.conn.excess = false ∧ s.conn.qualAt = none ∧ s.getF pciePg Reg.PCIE_HP_STATE_LEVER_CLOSED = 1 :=
  ⟨44000, on.setF pciePg Reg.PCIE_HP_STATE_LEVER_CLOSED 1, by decide +kernel⟩

theorem witness_RemovalAndInput_7 : ∃ (mv : Nat) (s : State),
    s.AuxOn ∧ 48000 ≤ mv ∧ mv ≤ 62000 :=
  ⟨62000, on.setF pciePg Reg.PCIE_HSW_UV_WARN 1, by decide +kernel⟩

theorem witness_RemovalAndInput_8 : ∃ (s : State),
    s.AuxOn ∧ s.conn.failed = true :=
  ⟨{ on with conn := { (on).conn with failed := true } }, by decide +kernel⟩

theorem witness_RemovalAndInput_9a : ∃ (s : State),
    s.AuxOn ∧ s.getF mgmtPg Reg.MGMT_STANDBY_STATE = 0 :=
  ⟨(on.setF pciePg Reg.PCIE_HP_STATE_STATE 1), by decide +kernel⟩

theorem witness_RemovalAndInput_9b : ∃ (s : State),
    s.AuxOn ∧ s.getF mgmtPg Reg.MGMT_STANDBY_STATE = 0 :=
  ⟨(on.setF pciePg Reg.PCIE_HP_STATE_STATE 2), by decide +kernel⟩

theorem witness_RemovalAndInput_9c : ∃ (s : State),
    s.AuxOn ∧ s.getF mgmtPg Reg.MGMT_STANDBY_STATE = 0 :=
  ⟨(on.setF pciePg Reg.PCIE_HP_STATE_STATE 0), by decide +kernel⟩

theorem witness_RemovalAndInput_10 : ∃ (s : State),
    s.AuxOn ∧ s.hpState = 2 ∧ s.conn.windowAt + 5 * 10 ^ 9 ≤ s.base :=
  ⟨{ (on.setF pciePg Reg.PCIE_HP_STATE_STATE 2) with base := 5000000000 }, by decide +kernel⟩

theorem witness_RemovalAndInput_11 : ∃ (s : State),
    s.AuxOn ∧ s.hpState = 1 :=
  ⟨(on.setF pciePg Reg.PCIE_HP_STATE_STATE 1), by decide +kernel⟩

theorem witness_RemovalAndInput_12 : ∃ (s : State),
    s.AuxOn ∧ s.hpState = 3 :=
  ⟨(on.setF pciePg Reg.PCIE_HP_STATE_STATE 3), by decide +kernel⟩

theorem witness_RemovalAndInput_13a : ∃ (s : State),
    s.AuxOn ∧ (s.hpState = 2 ∨ s.hpState = 3) :=
  ⟨(on.setF pciePg Reg.PCIE_HP_STATE_STATE 2), by decide +kernel⟩

theorem witness_RemovalAndInput_13b : ∃ (s : State),
    s.AuxOn ∧ (s.hpState = 2 ∨ s.hpState = 3) :=
  ⟨(on.setF pciePg Reg.PCIE_HP_STATE_STATE 3), by decide +kernel⟩

theorem witness_RemovalAndInput_14 : ∃ (s : State),
    s.AuxOn ∧ s.hpState = 3 ∧ s.getF pciePg Reg.PCIE_HP_STATE_DRAIN_TIMEOUT = 0
      ∧ s.conn.drainAt + s.getF pciePg Reg.PCIE_HP_DRAIN_S * 10 ^ 9 ≤ s.base :=
  ⟨{ (on.setF pciePg Reg.PCIE_HP_STATE_STATE 3) with base := 2 ^ 50 }, by decide +kernel⟩

theorem witness_RemovalAndInput_15 : ∃ (s : State),
    s.Live ∧ s.hpState = 4 ∧ s.liveStreams = [] ∧ s.qps = [] :=
  ⟨(on.setF pciePg Reg.PCIE_HP_STATE_STATE 4), by decide +kernel⟩

theorem witness_RemovalAndInput_16 : ∃ (s : State),
    s.Live ∧ s.hpState = 4 ∧ s.conn.downAt + 10 ^ 9 ≤ s.base :=
  ⟨{ (on.setF pciePg Reg.PCIE_HP_STATE_STATE 4).setF pciePg Reg.PCIE_LINK_DL_ACTIVE 1 with base := 1000000000 }, by decide +kernel⟩

theorem witness_RemovalAndInput_17 : ∃ (s : State),
    s.Live ∧ s.hpState = 4 ∧ s.getF pciePg Reg.PCIE_LINK_DL_ACTIVE = 0 ∧ s.liveStreams = [] ∧ s.qps = [] :=
  ⟨(on.setF pciePg Reg.PCIE_HP_STATE_STATE 4), by decide +kernel⟩

theorem witness_ResetsAndPowerStates_1 : ∃ (s : State),
    s.AuxOn ∧ s.hpState < 4 :=
  ⟨(on.setF mgmtPg Reg.MGMT_BOOT_STAGE 9), by decide +kernel⟩

theorem witness_ResetsAndPowerStates_4 : ∃ (s : State),
    s.getF pciePg Reg.PCIE_HSW_MAIN_ON = 1 :=
  ⟨on.setF pciePg Reg.PCIE_LINK_DL_ACTIVE 1, by decide +kernel⟩

theorem witness_ResetsAndPowerStates_5 : ∃ (speed width : Nat) (_b : Bool) (s : State),
    s.Live ∧ s.conn.perst = false ∧ s.hpState < 4 ∧ 1 ≤ speed ∧ speed ≤ 6 ∧ width ∈ [1, 2, 4, 8, 16] :=
  ⟨6, 16, true, { on with conn := { (on).conn with perst := false } }, by decide +kernel⟩

theorem witness_ResetsAndPowerStates_6 : ∃ (k : Nat) (s : State),
    s.AuxOn ∧ k < 16 :=
  ⟨15, (on.setF mgmtPg Reg.MGMT_BOOT_STAGE 9), by decide +kernel⟩

theorem witness_ResetsAndPowerStates_7 : ∃ (d : Die) (s : State),
    s.getF pciePg Reg.PCIE_HSW_MAIN_ON = 1 ∧ s.recovering.map (·.1) = [dieCode d] :=
  ⟨.C3, { (on.setF mgmtPg Reg.MGMT_BOOT_STAGE 9) with recovering := [(15, 3)] }, by decide +kernel⟩

theorem witness_ResetsAndPowerStates_8 : ∃ (k : Nat) (s u : State),
    s.AuxOn ∧ k < 64 ∧ u = s.setF mgmtPg Reg.MGMT_RESET_CMD_TARGET k ∧ u.startRank = 0 ∧ (∀ h ∈ u.hartsOf k, (u.hart h).held = true) :=
  ⟨63, (on.setF mgmtPg Reg.MGMT_BOOT_STAGE 9), (on.setF mgmtPg Reg.MGMT_BOOT_STAGE 9).setF mgmtPg Reg.MGMT_RESET_CMD_TARGET 63, by decide +kernel, by decide +kernel, rfl, by decide +kernel, by decide +kernel⟩

theorem witness_ResetsAndPowerStates_9 : ∃ (h : Nat) (s u : State),
    s.AuxOn ∧ h < 96 ∧ u = s.setF mgmtPg Reg.MGMT_RESET_CMD_TARGET h ∧ u.startRank = 0 :=
  ⟨95, (on.setF mgmtPg Reg.MGMT_BOOT_STAGE 9), (on.setF mgmtPg Reg.MGMT_BOOT_STAGE 9).setF mgmtPg Reg.MGMT_RESET_CMD_TARGET 95, by decide +kernel, by decide +kernel, rfl, by decide +kernel⟩

theorem witness_ResetsAndPowerStates_10 : ∃ (h : Nat) (d : Die) (s u : State),
    s.AuxOn ∧ h < 96 ∧ d = (if h < 48 then Die.H0 else .H1) ∧ u = s.setF mgmtPg Reg.MGMT_RESET_CMD_TARGET h ∧ u.startRank = 0
      ∧ u.dieUnusable d = false ∧ u.dieParked d = false ∧ (dieCode d, .core h) ∉ u.unusable ∧ (u.hart h).held = true :=
  ⟨48, .H1, (on.setF mgmtPg Reg.MGMT_BOOT_STAGE 9), (on.setF mgmtPg Reg.MGMT_BOOT_STAGE 9).setF mgmtPg Reg.MGMT_RESET_CMD_TARGET 48, by decide +kernel, by decide +kernel, by decide +kernel, rfl, by decide +kernel, by decide +kernel, by decide +kernel, by decide +kernel, by decide +kernel⟩

theorem witness_ResetsAndPowerStates_11 : ∃ (d : Die) (s : State),
    s.Live ∧ s.dieParked d = false ∧ d ≠ .N0 ∧ s.gatedBusy d = false ∧ s.parkLeaves d = true :=
  ⟨.C3, on, by decide +kernel⟩

theorem witness_ResetsAndPowerStates_12 : ∃ (_d : Die) (s : State),
    s.Live :=
  ⟨.C3, on.setF mgmtPg Reg.MGMT_DIES_PARKED 0x8000, by decide +kernel⟩

theorem witness_ResetsAndPowerStates_13 : ∃ (_b : Bool) (s : State),
    s.Live ∧ s.getF mgmtPg Reg.MGMT_STANDBY_STATE = 0 ∧ s.startRank = 0 ∧ s.hpState < 4
      ∧ (∀ e ∈ s.allStreams, s.streamState e.1 e.2 = 0 ∧ (s.stream e.1 e.2).fetched = []) ∧ (∀ e ∈ s.qps, s.qpSt e.1 = 0) :=
  ⟨true, (on.setF mgmtPg Reg.MGMT_BOOT_STAGE 9), by decide +kernel⟩

theorem witness_ResetsAndPowerStates_14 : ∃ (s : State),
    s.Live ∧ s.getF mgmtPg Reg.MGMT_STANDBY_STATE = 1 :=
  ⟨(on.setF mgmtPg Reg.MGMT_STANDBY_STATE 1), by decide +kernel⟩

theorem witness_ResetsAndPowerStates_15 : ∀ _p ∈ [(Instr.standbyWake, 1), (Instr.pldmWake, 2), (Instr.h0L3Miss 0, 5)], ∃ (s : State),
    s.BusesOn ∧ s.getF mgmtPg Reg.MGMT_STANDBY_STATE = 2 ∧ s.getF mgmtPg Reg.MGMT_STANDBY_KEEP_H0 = 1 ∧ (s.hart 0).held = false :=
  List.forall_mem_cons.2 ⟨⟨((((on.setF mgmtPg Reg.MGMT_BOOT_STAGE 9).setF mgmtPg Reg.MGMT_STANDBY_STATE 2).setF mgmtPg Reg.MGMT_STANDBY_KEEP_H0 1).setHart 0 ⟨false, false, none⟩), by decide +kernel⟩,
  List.forall_mem_cons.2 ⟨⟨((((on.setF mgmtPg Reg.MGMT_BOOT_STAGE 9).setF mgmtPg Reg.MGMT_STANDBY_STATE 2).setF mgmtPg Reg.MGMT_STANDBY_KEEP_H0 1).setHart 0 ⟨false, false, none⟩), by decide +kernel⟩,
  List.forall_mem_cons.2 ⟨⟨((((on.setF mgmtPg Reg.MGMT_BOOT_STAGE 9).setF mgmtPg Reg.MGMT_STANDBY_STATE 2).setF mgmtPg Reg.MGMT_STANDBY_KEEP_H0 1).setHart 0 ⟨false, false, none⟩), by decide +kernel⟩,
  fun _ h => absurd h List.not_mem_nil⟩⟩⟩

theorem witness_ResetsAndPowerStates_16 : ∃ (s : State),
    s.AuxOn ∧ s.getF mgmtPg Reg.MGMT_STANDBY_STATE = 3 :=
  ⟨(on.setF mgmtPg Reg.MGMT_STANDBY_STATE 3), by decide +kernel⟩

theorem witness_ManagementAndPanel_1 : ∃ (n : Nat) (s : State),
    s.BusesOn ∧ 0 < n ∧ n < 2 ^ 16 :=
  ⟨65535, (on.setF mgmtPg Reg.MGMT_BOOT_STAGE 2), by decide +kernel⟩

theorem witness_ManagementAndPanel_2 : ∃ (_b : Bytes) (s : State),
    s.BusesOn :=
  ⟨[1, 2], (on.setF mgmtPg Reg.MGMT_BOOT_STAGE 2), by decide +kernel⟩

theorem witness_ManagementAndPanel_3 : ∃ (_d : Die) (s : State),
    s.BusesOn :=
  ⟨.T7, (on.setF mgmtPg Reg.MGMT_BOOT_STAGE 2), by decide +kernel⟩

theorem witness_ManagementAndPanel_4 : ∃ (s : State),
    s.BusesOn :=
  ⟨(on.setF mgmtPg Reg.MGMT_BOOT_STAGE 2), by decide +kernel⟩

theorem witness_ManagementAndPanel_5 : ∃ (_n : Nat) (s : State),
    s.BusesOn :=
  ⟨127, (on.setF mgmtPg Reg.MGMT_BOOT_STAGE 2), by decide +kernel⟩

theorem witness_ManagementAndPanel_6 : ∃ (_v : W32) (s : State),
    s.AuxOn :=
  ⟨0xFFFF, on, by decide +kernel⟩

theorem witness_ManagementAndPanel_7 : ∃ (s : State),
    s.AuxOn ∧ s.locateEnd ≤ s.aon :=
  ⟨{ on.setF svcPg Reg.SVC_LOCATE_ACTIVE 1 with locateEnd := 5, aon := 5 }, by decide +kernel⟩

theorem witness_ManagementAndPanel_8 : ∃ (s : State),
    s.AuxOn ∧ s.getF svcPg Reg.SVC_LOCATE_ACTIVE = 1 ∧ s.getF svcPg Reg.SVC_SND_LATCHED = 0 ∧ s.soundAt = 0 :=
  ⟨on.setF svcPg Reg.SVC_LOCATE_ACTIVE 1, by decide +kernel⟩

theorem witness_ManagementAndPanel_9 : ∃ (s : State),
    s.AuxOn ∧ s.soundAt ≠ 0 ∧ s.soundAt ≤ s.aon ∧ s.getF svcPg Reg.SVC_SND_RETRIES = 4 ∧ s.getF svcPg Reg.SVC_SND_LATCHED = 0 :=
  ⟨{ on.setF svcPg Reg.SVC_SND_RETRIES 4 with soundAt := 5, aon := 5 }, by decide +kernel⟩

theorem witness_ManagementAndPanel_10 : ∃ (s : State),
    s.AuxOn :=
  ⟨on.setF svcPg Reg.SVC_SND_LATCHED 1, by decide +kernel⟩

theorem witness_ManagementAndPanel_11 : ∃ (s : State),
    s.AuxOn ∧ s.getF svcPg Reg.SVC_TAG_STAT_DRAWING = 0 ∧ s.panelStale = true ∧ s.panel.drawnAt = none :=
  ⟨on.setF mgmtPg Reg.MGMT_BOOT_ERROR 1, by decide +kernel⟩

theorem witness_ManagementAndPanel_12 : ∃ (s : State),
    s.AuxOn ∧ s.getF svcPg Reg.SVC_TAG_STAT_DRAWING = 1 ∧ s.panel.drawnAt.getD 0 + 1800000000 ≤ s.aon
      ∧ s.getF svcPg Reg.SVC_TAG_DRAWS < 2 ^ 32 - 1 :=
  ⟨{ on.setF svcPg Reg.SVC_TAG_STAT_DRAWING 1 with aon := 1800000000 }, by decide +kernel⟩

theorem witness_ManagementAndPanel_13 : ∃ (s : State),
    s.AuxOn :=
  ⟨on, by decide +kernel⟩

theorem witness_LedgerAndFlash_1 : ∃ (s : State),
    s.AuxOn ∧ s.getF ledgPg Reg.LEDG_POH < 2 ^ 32 - 1 :=
  ⟨on, by decide +kernel⟩

theorem witness_LedgerAndFlash_2 : ∃ (s : State),
    s.AuxOn ∧ s.getF ledgPg Reg.LEDG_FREE_PAGES < 64 :=
  ⟨on.setF ledgPg Reg.LEDG_FREE_PAGES 63, by decide +kernel⟩

theorem witness_LedgerAndFlash_3a : ∃ (_b : Bool) (s : State),
    s.AuxOn :=
  ⟨true, on, by decide +kernel⟩

theorem witness_LedgerAndFlash_3b : ∃ (_b : Bool) (s : State),
    s.AuxOn :=
  ⟨false, on, by decide +kernel⟩

theorem witness_LedgerAndFlash_4 : ∃ (d : Die) (s : State),
    s.LiveOn d ∧ isNet d = true ∧ (s.flash (netNo d)).credit = 0 :=
  ⟨.N0, on.setFlash 0 ⟨0, 0, 0, 0, none⟩, by decide +kernel⟩

theorem witness_LedgerAndFlash_5 : ∃ (d : Die) (s : State),
    s.LiveOn d ∧ isNet d = true ∧ whcBudget ≤ (s.flash (netNo d)).prog ∧ s.getF (State.whcPg (netNo d)) Reg.WHC_STAT_WORN = 0 :=
  ⟨.N1, on.setFlash 1 ⟨whcBudget, 0, 0, 0, none⟩, by decide +kernel⟩

theorem witness_LedgerAndFlash_6 : ∃ (d : Die) (s : State),
    s.LiveOn d ∧ isNet d = true ∧ s.getF (State.whcPg (netNo d)) Reg.WHC_STAT_RESERVE_LOW = 0 :=
  ⟨.N1, on, by decide +kernel⟩

theorem witness_LedgerAndFlash_7 : ∃ (d : Die) (_n _k : Nat) (s : State),
    s.LiveOn d ∧ isNet d = true :=
  ⟨.N0, 65536, 3, on, by decide +kernel⟩

theorem witness_LedgerAndFlash_8 : ∃ (d : Die) (s : State),
    s.LiveOn d ∧ isNet d = true :=
  ⟨.N0, { on.setFlash 0 ⟨0, 0, 0, 0, some 0⟩ with aon := 1250 }, by decide +kernel⟩

theorem witness_LedgerAndFlash_9 : ∃ (s : State),
    s.getF pciePg Reg.PCIE_HSW_AUX_ON = 0 :=
  ⟨State.reset.setF pciePg Reg.PCIE_HSW_AUX_ON 0, by decide +kernel⟩

theorem witness_StepRunsFrontCommand_1 : ∃ (c : Instr) (r : List Instr) (s : State),
    s.pending = c :: r :=
  ⟨.redraw, [.mc], { on with pending := [.redraw, .mc] }, by decide +kernel⟩

theorem witness_StepRunsFrontCommand_2 : ∃ (s : State),
    s.pending = [] :=
  ⟨on, by decide +kernel⟩

theorem witness_ResetHolds_14 : ∃ (pg : Page),
    pageFused State.reset.fuses pg = false ∧ pg.blk ≠ .eng :=
  ⟨cptPg, by decide +kernel⟩

theorem witness_MemoryStaysCanonical_1 : ∃ (s t : State),
    s.mem.wf = true ∧ s.file.wf = true ∧ s.bar4.wf = true ∧ step s = .next t :=
  ⟨{ on with pending := [.entdaa 5], mem := [⟨0, 1⟩] }, { on with mem := [⟨0, 1⟩] }, by decide +kernel, by decide +kernel, by decide +kernel, rfl⟩

theorem witness_MemoryFrame_1 : ∃ (c : Instr) (s t : State),
    touchesMemory c = false ∧ exec c s = .next t :=
  ⟨.entdaa 9, (on.setF mgmtPg Reg.MGMT_BOOT_STAGE 2), { (on.setF mgmtPg Reg.MGMT_BOOT_STAGE 2) with conn := { ((on.setF mgmtPg Reg.MGMT_BOOT_STAGE 2)).conn with i3c := some 9 } }, by decide +kernel, by show execEntdaa 9 _ = _; unfold execEntdaa mcAct; rw [if_pos (by decide +kernel)]⟩

theorem witness_OwnersMoveThroughTheTable_1 : ∃ (c : Instr) (s t : State),
    movesOwners c = false ∧ exec c s = .next t :=
  ⟨.entdaa 9, (on.setF mgmtPg Reg.MGMT_BOOT_STAGE 2), { (on.setF mgmtPg Reg.MGMT_BOOT_STAGE 2) with conn := { ((on.setF mgmtPg Reg.MGMT_BOOT_STAGE 2)).conn with i3c := some 9 } }, by decide +kernel, by show execEntdaa 9 _ = _; unfold execEntdaa mcAct; rw [if_pos (by decide +kernel)]⟩

theorem witness_PartsStay_1 : ∃ (c : Instr) (s t : State),
    exec c s = .next t :=
  ⟨.entdaa 9, (on.setF mgmtPg Reg.MGMT_BOOT_STAGE 2), { (on.setF mgmtPg Reg.MGMT_BOOT_STAGE 2) with conn := { ((on.setF mgmtPg Reg.MGMT_BOOT_STAGE 2)).conn with i3c := some 9 } }, by show execEntdaa 9 _ = _; unfold execEntdaa mcAct; rw [if_pos (by decide +kernel)]⟩

theorem witness_PartsStay_2 : ∃ (c : Instr) (s t : State),
    c ≠ .rom ∧ exec c s = .next t :=
  ⟨.entdaa 9, (on.setF mgmtPg Reg.MGMT_BOOT_STAGE 2), { (on.setF mgmtPg Reg.MGMT_BOOT_STAGE 2) with conn := { ((on.setF mgmtPg Reg.MGMT_BOOT_STAGE 2)).conn with i3c := some 9 } }, by decide, by show execEntdaa 9 _ = _; unfold execEntdaa mcAct; rw [if_pos (by decide +kernel)]⟩

theorem witness_PartsStay_3 : ∃ (p : Part) (c : Instr) (s t : State),
    p.movedBy c = false ∧ exec c s = .next t :=
  ⟨.links, .entdaa 9, (on.setF mgmtPg Reg.MGMT_BOOT_STAGE 2), { (on.setF mgmtPg Reg.MGMT_BOOT_STAGE 2) with conn := { ((on.setF mgmtPg Reg.MGMT_BOOT_STAGE 2)).conn with i3c := some 9 } }, by decide +kernel, by show execEntdaa 9 _ = _; unfold execEntdaa mcAct; rw [if_pos (by decide +kernel)]⟩

theorem witness_CompartmentsAreApart_1a : ∃ (h : Nat) (op : HartOp) (pa n : Nat) (b : Bytes) (s : State),
    s.HartRuns h ∧ n ≠ 0 ∧ (b.length = n ∨ opWrites op = false) ∧ s.getF mgmtPg Reg.MGMT_BOOT_OPEN = 1
      ∧ (s.memoryAt pa ∨ ∃ d e off, s.locate pa = .cistern d e off)
      ∧ (∃ p ∈ pagesIn pa n, ∀ c, s.hartCpt h = some c → s.memOwner p ≠ some c) :=
  ⟨0, .load, 0x1FFFFC, 8, [], shared, by decide +kernel, by decide +kernel, by decide +kernel, by decide +kernel, .inl (.inl (by decide +kernel)), ⟨0x200000, by decide +kernel, fun c h e => absurd (h.trans e.symm) (by decide +kernel)⟩⟩

theorem witness_CompartmentsAreApart_1b : ∃ (h : Nat) (op : HartOp) (pa n : Nat) (b : Bytes) (s : State),
    s.HartRuns h ∧ n ≠ 0 ∧ (b.length = n ∨ opWrites op = false) ∧ s.getF mgmtPg Reg.MGMT_BOOT_OPEN = 1
      ∧ (s.memoryAt pa ∨ ∃ d e off, s.locate pa = .cistern d e off)
      ∧ (∃ p ∈ pagesIn pa n, ∀ c, s.hartCpt h = some c → s.memOwner p ≠ some c) :=
  ⟨0, .amo .add, 0x200000, 4, [1, 0, 0, 0], shared, by decide +kernel, by decide +kernel, by decide +kernel, by decide +kernel, .inl (.inl (by decide +kernel)), ⟨0x200000, by decide +kernel, fun c h e => absurd (h.trans e.symm) (by decide +kernel)⟩⟩

theorem witness_CompartmentsAreApart_1c : ∃ (h : Nat) (op : HartOp) (pa n : Nat) (b : Bytes) (s : State),
    s.HartRuns h ∧ n ≠ 0 ∧ (b.length = n ∨ opWrites op = false) ∧ s.getF mgmtPg Reg.MGMT_BOOT_OPEN = 1
      ∧ (s.memoryAt pa ∨ ∃ d e off, s.locate pa = .cistern d e off)
      ∧ (∃ p ∈ pagesIn pa n, ∀ c, s.hartCpt h = some c → s.memOwner p ≠ some c) :=
  ⟨0, .fetch, cisternBase + 64, 4, [], shared, by decide +kernel, by decide +kernel, by decide +kernel, by decide +kernel, .inr ⟨0, 0, 64, by decide +kernel⟩, ⟨cisternBase + 64, by decide +kernel, fun c h e => absurd (h.trans e.symm) (by decide +kernel)⟩⟩

theorem witness_CompartmentsAreApart_2 : ∃ (pa n : Nat) (s : State),
    s.pcieUp = true ∧ s.Live ∧ n ≠ 0 ∧ pa + n ≤ 0x200000000000 ∧ (s.memoryAt pa ∨ ∃ d e off, s.locate pa = .cistern d e off)
      ∧ (∃ p ∈ pagesIn pa n, s.memOwner p ≠ some (s.getF cptPg Reg.CPT_CFG_PCIE)) :=
  ⟨0x1FFFFC, 8, shared, by decide +kernel, by decide +kernel, by decide +kernel, by decide +kernel, .inl (.inl (by decide +kernel)), ⟨0x200000, by decide +kernel, by decide +kernel⟩⟩

theorem witness_CompartmentsAreApart_3 : ∃ (pa : Nat) (b : Bytes) (s : State),
    s.pcieUp = true ∧ s.Live ∧ b ≠ [] ∧ pa + b.length ≤ 0x200000000000 ∧ (s.memoryAt pa ∨ ∃ d e off, s.locate pa = .cistern d e off)
      ∧ (∃ p ∈ pagesIn pa b.length, s.memOwner p ≠ some (s.getF cptPg Reg.CPT_CFG_PCIE)) :=
  ⟨0x200000, [1], shared, by decide +kernel, by decide +kernel, by decide +kernel, by decide +kernel, .inl (.inl (by decide +kernel)), ⟨0x200000, by decide +kernel, by decide +kernel⟩⟩

theorem witness_WordsAreGuarded_1a : ∃ (h : Nat) (op : HartOp) (pa n : Nat) (b : Bytes) (s : State),
    s.HartRuns h ∧ n ≠ 0 ∧ (b.length = n ∨ opWrites op = false)
      ∧ (s.locate pa = .undecoded ∨ ((∃ pg off, s.locate pa = .page pg off) ∧ (n ≠ 4 ∨ pa % 4 ≠ 0 ∨ ∀ pg off, s.locate pa = .page pg off → s.reaches (.hart h) pg = false)) ∨ ((∃ t off, s.locate pa = .tally t off) ∧ s.getF mgmtPg Reg.MGMT_BOOT_OPEN = 1 ∧ ∀ t off c, s.locate pa = .tally t off → s.hartCpt h = some c → s.tallyOwner t ≠ some c) ∨ ((∃ k f off, s.locate pa = .imsic k f off) ∧ s.getF mgmtPg Reg.MGMT_BOOT_OPEN = 1 ∧ ∀ k f off c, s.locate pa = .imsic k f off → s.hartCpt h = some c → s.hartCpt k ≠ some c)) :=
  ⟨0, .load, 0x01FFFFFFFFFF, 1, [], shared, by decide +kernel, by decide +kernel, by decide +kernel, .inl (by decide +kernel)⟩

theorem witness_WordsAreGuarded_1b : ∃ (h : Nat) (op : HartOp) (pa n : Nat) (b : Bytes) (s : State),
    s.HartRuns h ∧ n ≠ 0 ∧ (b.length = n ∨ opWrites op = false)
      ∧ (s.locate pa = .undecoded ∨ ((∃ pg off, s.locate pa = .page pg off) ∧ (n ≠ 4 ∨ pa % 4 ≠ 0 ∨ ∀ pg off, s.locate pa = .page pg off → s.reaches (.hart h) pg = false)) ∨ ((∃ t off, s.locate pa = .tally t off) ∧ s.getF mgmtPg Reg.MGMT_BOOT_OPEN = 1 ∧ ∀ t off c, s.locate pa = .tally t off → s.hartCpt h = some c → s.tallyOwner t ≠ some c) ∨ ((∃ k f off, s.locate pa = .imsic k f off) ∧ s.getF mgmtPg Reg.MGMT_BOOT_OPEN = 1 ∧ ∀ k f off c, s.locate pa = .imsic k f off → s.hartCpt h = some c → s.hartCpt k ≠ some c)) :=
  ⟨0, .load, pageBase + pageNo cptPg * 4096, 4, [], shared, by decide +kernel, by decide +kernel, by decide +kernel, .inr (.inl ⟨⟨cptPg, 0, by decide +kernel⟩, .inr (.inr fun pg off h => by cases (by decide +kernel : shared.locate (pageBase + pageNo cptPg * 4096) = .page cptPg 0).symm.trans h; decide +kernel)⟩)⟩

theorem witness_WordsAreGuarded_1c : ∃ (h : Nat) (op : HartOp) (pa n : Nat) (b : Bytes) (s : State),
    s.HartRuns h ∧ n ≠ 0 ∧ (b.length = n ∨ opWrites op = false)
      ∧ (s.locate pa = .undecoded ∨ ((∃ pg off, s.locate pa = .page pg off) ∧ (n ≠ 4 ∨ pa % 4 ≠ 0 ∨ ∀ pg off, s.locate pa = .page pg off → s.reaches (.hart h) pg = false)) ∨ ((∃ t off, s.locate pa = .tally t off) ∧ s.getF mgmtPg Reg.MGMT_BOOT_OPEN = 1 ∧ ∀ t off c, s.locate pa = .tally t off → s.hartCpt h = some c → s.tallyOwner t ≠ some c) ∨ ((∃ k f off, s.locate pa = .imsic k f off) ∧ s.getF mgmtPg Reg.MGMT_BOOT_OPEN = 1 ∧ ∀ k f off c, s.locate pa = .imsic k f off → s.hartCpt h = some c → s.hartCpt k ≠ some c)) :=
  ⟨0, .load, pageBase + pageNo cptPg * 4096, 8, [], shared, by decide +kernel, by decide +kernel, by decide +kernel, .inr (.inl ⟨⟨cptPg, 0, by decide +kernel⟩, .inl (by decide)⟩)⟩

theorem witness_WordsAreGuarded_1d : ∃ (h : Nat) (op : HartOp) (pa n : Nat) (b : Bytes) (s : State),
    s.HartRuns h ∧ n ≠ 0 ∧ (b.length = n ∨ opWrites op = false)
      ∧ (s.locate pa = .undecoded ∨ ((∃ pg off, s.locate pa = .page pg off) ∧ (n ≠ 4 ∨ pa % 4 ≠ 0 ∨ ∀ pg off, s.locate pa = .page pg off → s.reaches (.hart h) pg = false)) ∨ ((∃ t off, s.locate pa = .tally t off) ∧ s.getF mgmtPg Reg.MGMT_BOOT_OPEN = 1 ∧ ∀ t off c, s.locate pa = .tally t off → s.hartCpt h = some c → s.tallyOwner t ≠ some c) ∨ ((∃ k f off, s.locate pa = .imsic k f off) ∧ s.getF mgmtPg Reg.MGMT_BOOT_OPEN = 1 ∧ ∀ k f off c, s.locate pa = .imsic k f off → s.hartCpt h = some c → s.hartCpt k ≠ some c)) :=
  ⟨0, .load, pageBase + pageNo cptPg * 4096 + 2, 4, [], shared, by decide +kernel, by decide +kernel, by decide +kernel, .inr (.inl ⟨⟨cptPg, 2, by decide +kernel⟩, .inr (.inl (by decide +kernel))⟩)⟩

theorem witness_WordsAreGuarded_1e : ∃ (h : Nat) (op : HartOp) (pa n : Nat) (b : Bytes) (s : State),
    s.HartRuns h ∧ n ≠ 0 ∧ (b.length = n ∨ opWrites op = false)
      ∧ (s.locate pa = .undecoded ∨ ((∃ pg off, s.locate pa = .page pg off) ∧ (n ≠ 4 ∨ pa % 4 ≠ 0 ∨ ∀ pg off, s.locate pa = .page pg off → s.reaches (.hart h) pg = false)) ∨ ((∃ t off, s.locate pa = .tally t off) ∧ s.getF mgmtPg Reg.MGMT_BOOT_OPEN = 1 ∧ ∀ t off c, s.locate pa = .tally t off → s.hartCpt h = some c → s.tallyOwner t ≠ some c) ∨ ((∃ k f off, s.locate pa = .imsic k f off) ∧ s.getF mgmtPg Reg.MGMT_BOOT_OPEN = 1 ∧ ∀ k f off c, s.locate pa = .imsic k f off → s.hartCpt h = some c → s.hartCpt k ≠ some c)) :=
  ⟨0, .load, tallyBase + 9 * 4096, 4, [], shared, by decide +kernel, by decide +kernel, by decide +kernel, .inr (.inr (.inl ⟨⟨9, 0, by decide +kernel⟩, by decide +kernel, fun t off c h k e => by cases (by decide +kernel : shared.locate (tallyBase + 9 * 4096) = .tally 9 0).symm.trans h; exact absurd (k.trans e.symm) (by decide +kernel)⟩))⟩

theorem witness_WordsAreGuarded_1f : ∃ (h : Nat) (op : HartOp) (pa n : Nat) (b : Bytes) (s : State),
    s.HartRuns h ∧ n ≠ 0 ∧ (b.length = n ∨ opWrites op = false)
      ∧ (s.locate pa = .undecoded ∨ ((∃ pg off, s.locate pa = .page pg off) ∧ (n ≠ 4 ∨ pa % 4 ≠ 0 ∨ ∀ pg off, s.locate pa = .page pg off → s.reaches (.hart h) pg = false)) ∨ ((∃ t off, s.locate pa = .tally t off) ∧ s.getF mgmtPg Reg.MGMT_BOOT_OPEN = 1 ∧ ∀ t off c, s.locate pa = .tally t off → s.hartCpt h = some c → s.tallyOwner t ≠ some c) ∨ ((∃ k f off, s.locate pa = .imsic k f off) ∧ s.getF mgmtPg Reg.MGMT_BOOT_OPEN = 1 ∧ ∀ k f off c, s.locate pa = .imsic k f off → s.hartCpt h = some c → s.hartCpt k ≠ some c)) :=
  ⟨0, .load, imsicBase + 1 <<< 19, 4, [], shared, by decide +kernel, by decide +kernel, by decide +kernel, .inr (.inr (.inr ⟨⟨1, 0, 0, by decide +kernel⟩, by decide +kernel, fun k f off c h e g => by cases (by decide +kernel : shared.locate (imsicBase + 1 <<< 19) = .imsic 1 0 0).symm.trans h; exact absurd (e.trans g.symm) (by decide +kernel)⟩))⟩

theorem witness_StoppedModuleHoldsStill_1a : ∃ (c : Instr) (s : State),
    s.stopped = true ∧ stopsInFreeze c = true :=
  ⟨.cohMsiFlush, { State.reset with routes := [(5, 1)] }, by decide +kernel⟩

theorem witness_StoppedModuleHoldsStill_1b : ∃ (c : Instr) (s : State),
    s.stopped = true ∧ stopsInFreeze c = true :=
  ⟨.poweringDown, { on.setF frzPg Reg.FRZ_STAT_STATE 2 with routes := [(5, 1)] }, by decide +kernel⟩

theorem witness_StoppedModuleHoldsStill_1c : ∃ (c : Instr) (s : State),
    s.stopped = true ∧ stopsInFreeze c = true :=
  ⟨.cohMsiFlush, { (on.setF mgmtPg Reg.MGMT_STANDBY_STATE 2) with routes := [(5, 1)] }, by decide +kernel⟩

theorem witness_PowerCapsFit_1a : ∃ (got : SMap Nat) (d : Die) (r sum : Nat) (s : State),
    s.active d = true ∧ r + (s.activeDies.map fun e => (s.limitsOf e).1).sum = (s.getF (pwrPg .N0) Reg.PWR_MODULE_BUDGET_W - 420) * 10
      ∧ (∀ e ∈ s.activeDies, (s.limitsOf e).1 ≤ SMap.getD got (dieCode e) 0)
      ∧ sum = (s.activeDies.map fun e => SMap.getD got (dieCode e) 0 - (s.limitsOf e).1).sum :=
  ⟨(List.range 16).map fun k => (k, 1000), .T0, (on.getF (pwrPg .N0) Reg.PWR_MODULE_BUDGET_W - 420) * 10 - (8 * 1000 + 2 * 600 + 2 * 500 + 4 * 300), 2 * 400 + 2 * 500 + 4 * 700, on, by decide +kernel⟩

theorem witness_PowerCapsFit_1b : ∃ (got : SMap Nat) (d : Die) (r sum : Nat) (s : State),
    s.active d = true ∧ r + (s.activeDies.map fun e => (s.limitsOf e).1).sum = (s.getF (pwrPg .N0) Reg.PWR_MODULE_BUDGET_W - 420) * 10
      ∧ (∀ e ∈ s.activeDies, (s.limitsOf e).1 ≤ SMap.getD got (dieCode e) 0)
      ∧ sum = (s.activeDies.map fun e => SMap.getD got (dieCode e) 0 - (s.limitsOf e).1).sum :=
  ⟨(List.range 16).map fun k => (k, 2800), .T0, (on.getF (pwrPg .N0) Reg.PWR_MODULE_BUDGET_W - 420) * 10 - (8 * 1000 + 2 * 600 + 2 * 500 + 4 * 300), 8 * 1800 + 2 * 2200 + 2 * 2300 + 4 * 2500, on, by decide +kernel⟩

theorem witness_PowerCapsFit_2 : ∃ (_got : SMap Nat) (s : State),
    (s.activeDies.map fun e => (s.limitsOf e).1).sum ≤ (s.getF (pwrPg .N0) Reg.PWR_MODULE_BUDGET_W - 420) * 10 :=
  ⟨(List.range 16).map fun k => (k, 2800), on, by decide +kernel⟩

theorem witness_PowerCapsFit_3a : ∃ (_l : List (Die × Nat)) (d : Die) (s : State),
    s.Powered ∧ s.active d = true ∧ s.getF (pwrPg d) Reg.PWR_ROUND ≠ 0
      ∧ (s.getF (pwrPg .N0) Reg.PWR_ROUND ≠ 0 → (s.budget .N0).tickAt + 50000 ≤ s.aon) ∧ s.roundWhole (s.budget d).got = true
      ∧ s.capOf (s.budget d).got d < 2 ^ 16 :=
  ⟨[], .C3, (on.setF (pwrPg .C3) Reg.PWR_ROUND 1).setBudget .C3 { Budget.init with got := (List.range 16).map fun k => (k, 300) }, by decide +kernel⟩

theorem witness_PowerCapsFit_3b : ∃ (_l : List (Die × Nat)) (d : Die) (s : State),
    s.Powered ∧ s.active d = true ∧ s.getF (pwrPg d) Reg.PWR_ROUND ≠ 0
      ∧ (s.getF (pwrPg .N0) Reg.PWR_ROUND ≠ 0 → (s.budget .N0).tickAt + 50000 ≤ s.aon) ∧ s.roundWhole (s.budget d).got = true
      ∧ s.capOf (s.budget d).got d < 2 ^ 16 :=
  ⟨[], .C3, (on.setF (pwrPg .C3) Reg.PWR_ROUND 1).setBudget .C3 { Budget.init with got := (List.range 16).map fun k => (k, 1000) }, by decide +kernel⟩

theorem witness_CodewordMapsInvert_1 : ∃ (l off g : Nat),
    l ≤ 16 ∧ off < (384 - 8 * l) * 2 ^ 30 ∧ g = off / 256 :=
  ⟨16, 0x3FFFFFFF40, 0x3FFFFFFF, by decide +kernel⟩

theorem witness_CodewordMapsInvert_2 : ∃ (l k x g : Nat),
    l ≤ 16 ∧ k < 8 ∧ x < l * 2 ^ 30 ∧ g = x / 256 :=
  ⟨16, 7, 0x3FFFFFFC0, 0x3FFFFFF, by decide +kernel⟩

theorem witness_CodewordMapsInvert_3 : ∃ (pa g c : Nat),
    g = pa / 256 ∧ c = (g % 128 ^^^ g / 2 ^ 7 % 128 ^^^ g / 2 ^ 14 % 128 ^^^ g / 2 ^ 21 % 128 ^^^ g / 2 ^ 28 % 128) :=
  ⟨0x1DFFFFFFFC0, 0x1DFFFFFFF, 0x1DFFFFFFF % 128 ^^^ 0x1DFFFFFFF / 2 ^ 7 % 128 ^^^ 0x1DFFFFFFF / 2 ^ 14 % 128 ^^^ 0x1DFFFFFFF / 2 ^ 21 % 128 ^^^ 0x1DFFFFFFF / 2 ^ 28 % 128, by decide +kernel⟩

theorem witness_CodewordMapsInvert_4 : ∃ (l off : Nat),
    l ≤ 16 ∧ off % 64 = 0 ∧ off < 384 * 2 ^ 30 :=
  ⟨3, 0x5FFFFFFFC0, by decide +kernel⟩

theorem witness_CodewordMapsInvert_5 : ∃ (pa : Nat),
    pa % 64 = 0 ∧ pa < 0x1E000000000 :=
  ⟨0x1DFFFFFFFC0, by decide +kernel⟩

theorem witness_InterruptsSendOnce_1a : ∃ (_pg : Page) (m : Nat) (_s : State),
    m < 2 ^ 16 :=
  ⟨(engPg .T0 0), 0x8001, (on.setWord (engPg .T0 0) 0x20 1).setWord (engPg .T0 0) 0x24 0x8001, by decide +kernel⟩

theorem witness_InterruptsSendOnce_1b : ∃ (_pg : Page) (m : Nat) (_s : State),
    m < 2 ^ 16 :=
  ⟨(engPg .T0 0), 0x8001, (on.setWord (engPg .T0 0) 0x20 0x8001).setWord (engPg .T0 0) 0x24 0x8001, by decide +kernel⟩

theorem witness_InterruptsSendOnce_2 : ∃ (pg : Page) (_v : W32) (s : State),
    s.PageOn pg ∧ pageFused s.fuses pg = false :=
  ⟨(engPg .T0 0), 0x80018001, (on.setWord (engPg .T0 0) 0x20 0x8000).setWord (engPg .T0 0) 0x24 0, by decide +kernel⟩

theorem witness_VotesTakeMajority_1 : ∃ (pg : Page) (off n : Nat) (x : RegRow) (a b c : Nat) (s : State),
    rowAt pg off = some x ∧ x.tv.testBit n = true ∧ a = s.word pg off
      ∧ b = ((SMap.find s.tvB (regKey pg off 0)).map BitVec.toNat).getD a
      ∧ c = ((SMap.find s.tvC (regKey pg off 0)).map BitVec.toNat).getD a :=
  ⟨(clkPg .N0), 0x44, 0, ⟨0x44, 0x1ff, 0x0, 0x0, 0x0, 0x1ff, some .N0, 0xf0⟩, 0xF0, 1, 0xF0, { on with tvB := [(regKey (clkPg .N0) 0x44 0, 1)] }, by decide +kernel⟩

theorem witness_VotesTakeMajority_2 : ∃ (pg : Page) (x : RegRow) (s : State),
    s.PageOn pg ∧ x ∈ pageRows pg ∧ x.tv ≠ 0 ∧ x.only = some pg.die :=
  ⟨(clkPg .N0), ⟨0x44, 0x1ff, 0x0, 0x0, 0x0, 0x1ff, some .N0, 0xf0⟩, { on with tvB := [(regKey (clkPg .N0) 0x44 0, 1)] }, by decide +kernel⟩

end Sys2Proof.Tests
end

/-! PROOFS. What writes of device memory and the end of a descriptor do to the streams' fetched descriptors. -/

namespace Sys2Proof.Machine.State

/-! ### Writes of device memory leave the streams as they are -/

@[simp] theorem countCoh_streams (s : State) (a n : Nat) (f : Fld) : (s.countCoh a n f).streams = s.streams := by
  simp only [countCoh, List.foldl_cons, List.foldl_nil]
  repeat' split
  all_goals simp

@[simp] theorem cohInv_streams (s : State) (a n : Nat) : (s.cohInv a n).streams = s.streams := by
  refine List.foldlRecOn (motive := fun t : State => t.streams = s.streams) _ _ rfl fun t ht e _ => ?_
  rw [setLine_streams]
  split
  · rw [wrBytes_streams, ht]
  · exact ht

@[simp] theorem dropResv_streams (s : State) (a n : Nat) : (s.dropResv a n).streams = s.streams := rfl

@[simp] theorem cohWrite_streams (s : State) (a : Nat) (bs : Bytes) : (s.cohWrite a bs).streams = s.streams := by
  simp [cohWrite]

theorem wrParts_streams (pins : SMap Nat) (ps : List (Nat × Nat)) : ∀ (s : State) (bs : Bytes),
    (s.wrParts pins bs ps).streams = s.streams := by
  induction ps with
  | nil => intros; rfl
  | cons p t ih =>
    intro s bs
    rw [wrParts, ih]
    split <;> simp

@[simp] theorem wrV_streams (s : State) (pins : SMap Nat) (va : Nat) (bs : Bytes) : (s.wrV pins va bs).streams = s.streams :=
  wrParts_streams _ _ _ _

/-! ### The end of a descriptor -/

@[simp] theorem noteIdle_streams (s : State) (d : Die) (n : Nat) : (s.noteIdle d n).streams = s.streams := by
  unfold noteIdle
  split <;> simp

@[simp] theorem vecTaken_streams (s : State) (d : Die) (n : Nat) : (s.vecTaken d n).streams = s.streams := rfl

/-- The fetched descriptors are those of the streams' data. -/
theorem desc?_of_streams {s t : State} (h : t.streams = s.streams) (d : Die) (n q : Nat) : t.desc? d n q = s.desc? d n q := by
  simp only [desc?, stream, h]

/-- A change of the descriptor in a slot that leaves its slot is what the slot then holds. -/
theorem desc?_updDesc_same {s : State} {d : Die} {n q : Nat} {x : Desc} (f : Desc → Desc) (hf : ∀ y, (f y).slot = y.slot)
    (h : s.desc? d n q = some x) : (s.updDesc d n q f).desc? d n q = some (f x) := by
  have hs : (s.updDesc d n q f).stream d n =
      { s.stream d n with fetched := (s.stream d n).fetched.map fun e => if e.slot == q then f e else e } := by
    simp [stream, updDesc, setStream, SMap.getD]
  have hp : (fun y : Desc => y.slot == q) ∘ (fun e => if e.slot == q then f e else e) = fun y => y.slot == q := by
    funext e
    by_cases he : e.slot = q <;> simp [he, hf]
  have hq : x.slot = q := by simpa using List.find?_some h
  have hx : (s.stream d n).fetched.find? (fun y => y.slot == q) = some x := h
  rw [desc?, hs, List.find?_map, hp, hx]
  simp [hq]

/-- A descriptor that ends with a status that reports no uncorrectable codeword has ended with it (R185). -/
theorem finish_ended {s : State} {d : Die} {n q st : Nat} {x : Desc} (pos operand : Nat) (hst : st ≠ stUncorr)
    (h : s.desc? d n q = some x) : (s.finish d n q st pos operand).Ended d n q st := by
  have he : s.finish d n q st pos operand = (s.endDesc d n q st pos operand).noteIdle d n := by simp [finish, hst]
  rw [he]
  refine ⟨{ x with phase := .ended, status := st, position := pos, operand := operand }, ?_, rfl, rfl⟩
  rw [desc?_of_streams (noteIdle_streams _ d n)]
  exact desc?_updDesc_same (fun y => { y with phase := .ended, status := st, position := pos, operand := operand }) (fun _ => rfl) h

/-- A descriptor of which no word is left as it is stays as it ended. -/
@[simp] theorem partEnd_none (s : State) (d : Die) (n q : Nat) : s.partEnd d n q none = s := rfl

end Sys2Proof.Machine.State

namespace Sys2Proof.Machine

/-- A command of a part of a die that is in service comes about. -/
theorem actD_of_liveOn {s : State} {d : Die} (h : s.LiveOn d) (f : State → State) : actD d s f = .next (f s) := by
  simp [actD, h.1, h.2]

namespace State

/-- On the running descriptor of a slot its operation comes about. -/
theorem withRunning_of_running {s : State} {d : Die} {n q op : Nat} {x : Desc} (h : s.RunningDesc d n q op x) (f : Desc → State) :
    s.withRunning d n q op f = f x := by
  obtain ⟨-, hx, hp, ho, hs, hm, -⟩ := h
  simp [withRunning, hx, hp, ho, hs, hm]

end State

end Sys2Proof.Machine

/-! PROOFS. REDUCE_LOCAL (R98, R99, R103, R130, R179). -/

namespace Sys2Proof.Machine.State

section Reduce

variable {s : State} {d : Die} {n q kind : Nat} {x : Desc}

/-- A REDUCE_LOCAL of its kind whose operands and output are good is its kind's operation, by the vector unit of its stream's class. -/
theorem withReduce_of_good (hx : s.RunningDesc d n q 0x09 x) (hk : x.rKind = kind) (hc : s.ClassRuns d n)
    (hr : (s.vecTaken d n).redBad x = none) (hw : (s.vecTaken d n).redWriteBad x = none) (f : Desc → State → State) :
    s.withReduce d n q kind f = f x (s.vecTaken d n) := by
  rw [withReduce, withRunning_of_running hx]
  simp [hk, show s.classRuns d n = true from hc, hr, hw]

/-- A state whose streams are as before ends the running descriptor with OK. -/
theorem finish_ok_ended {op : Nat} (hx : s.RunningDesc d n q op x) {u : State} (hu : u.streams = s.streams) :
    (u.finish d n q stOk).Ended d n q stOk := by
  obtain ⟨-, hd, -⟩ := hx
  exact finish_ended _ _ (by decide) ((desc?_of_streams hu d n q).trans hd)

/-- A REDUCE_LOCAL of its kind that is good and does nothing but write ends with OK. -/
theorem actD_withReduce_ends (hx : s.RunningDesc d n q 0x09 x) (hk : x.rKind = kind) (hc : s.ClassRuns d n)
    (hr : (s.vecTaken d n).redBad x = none) (hw : (s.vecTaken d n).redWriteBad x = none) {f : Desc → State → State} {u : State}
    (hf : f x (s.vecTaken d n) = u.finish d n q stOk) (hu : u.streams = s.streams) :
    ∃ t, actD d s (fun s => s.withReduce d n q kind f) = .next t ∧ t.Ended d n q stOk := by
  have hl : s.LiveOn d := hx.1
  refine ⟨_, actD_of_liveOn hl _, ?_⟩
  rw [withReduce_of_good hx hk hc hr hw, hf]
  exact finish_ok_ended hx hu

end Reduce

/-- A merge that is not final writes its records and ends. -/
theorem mergeWrite_of_not_final (s : State) (d : Die) (n q : Nat) (x : Desc) (ms : List PRec) (h : x.rFinal = false) :
    s.mergeWrite d n q x ms =
      (s.wrV x.pins (x.addr 24) (ms.flatMap fun r => accBytes r.acc r.ca r.cb r.chunk r.level)).finish d n q stOk := by
  simp [mergeWrite, h]

end Sys2Proof.Machine.State

namespace Sys2Proof.Machine

section Reduce

variable {s : State} {d : Die} {n q : Nat} {x : Desc}

/-- The merge of records in order is `mergeWrite` of what each element's records give (R130, R132). -/
theorem exec_partialRecordMerge_of_good (hx : s.RunningDesc d n q 0x09 x) (hk : x.rKind = 0) (hc : s.ClassRuns d n)
    (hr : (s.vecTaken d n).redBad x = none) (hw : (s.vecTaken d n).redWriteBad x = none)
    (hm : State.mergeFaults x ((List.range x.rCount).map ((s.vecTaken d n).recsAt x)) = []) :
    exec (.partialRecordMerge d n q) s =
      .next ((s.vecTaken d n).mergeWrite d n q x
        (((List.range x.rCount).map ((s.vecTaken d n).recsAt x)).filterMap (mergeRecs x.rChunks))) := by
  have hl : s.LiveOn d := hx.1
  have he : exec (.partialRecordMerge d n q) s = execPartialRecordMerge d n q s := rfl
  rw [he, execPartialRecordMerge, actD_of_liveOn hl, State.withReduce_of_good hx hk hc hr hw]
  simp [hm, leastPos]

/-- The sums, then the copy of the anchor plane, are written (R97, R99). -/
theorem exec_orfValueSum_ends (hx : s.RunningDesc d n q 0x09 x) (hk : x.rKind = 1) (hc : s.ClassRuns d n)
    (hr : (s.vecTaken d n).redBad x = none) (hw : (s.vecTaken d n).redWriteBad x = none) :
    ∃ t, exec (.orfValueSum d n q) s = .next t ∧ t.Ended d n q stOk :=
  State.actD_withReduce_ends hx hk hc hr hw rfl (by simp)

/-- The greatest anchors are written (R98). -/
theorem exec_anchorMaximum_ends (hx : s.RunningDesc d n q 0x09 x) (hk : x.rKind = 2) (hc : s.ClassRuns d n)
    (hr : (s.vecTaken d n).redBad x = none) (hw : (s.vecTaken d n).redWriteBad x = none) :
    ∃ t, exec (.anchorMaximum d n q) s = .next t ∧ t.Ended d n q stOk :=
  State.actD_withReduce_ends hx hk hc hr hw rfl (by simp)

/-- No record has a reserved bit set, so that the sums are written (R103, R104). -/
theorem exec_nrm128Sum_ends (hx : s.RunningDesc d n q 0x09 x) (hk : x.rKind = 3) (hc : s.ClassRuns d n)
    (hr : (s.vecTaken d n).redBad x = none) (hw : (s.vecTaken d n).redWriteBad x = none)
    (hn : ∀ i < x.rCount, ∀ c < x.rContrib,
      nrmReserved ((s.vecTaken d n).rdV x.pins (x.addr 16 + c * x.rStride + 32 * i) 32) = false) :
    ∃ t, exec (.nrm128Sum d n q) s = .next t ∧ t.Ended d n q stOk :=
  State.actD_withReduce_ends hx hk hc hr hw (if_neg (by simpa using hn)) (by simp)

end Reduce

end Sys2Proof.Machine

namespace Sys2Proof

open Sys2Proof.Machine

/-- Settles O9: each KIND's operation comes about by the vector unit (`withReduce_of_good`), and its writes leave the streams as they are,
so that the descriptor in the slot is the one that ends. -/
theorem reduceLocalWrites : Obligations.ReduceLocalWrites := by
  unfold Obligations.ReduceLocalWrites
  refine ⟨fun d n q x s hx hk hc hr hw hm => ?_, fun d n q x s => exec_orfValueSum_ends,
    fun d n q x s => exec_anchorMaximum_ends, fun d n q x s => exec_nrm128Sum_ends⟩
  have he := exec_partialRecordMerge_of_good hx hk hc hr hw hm
  refine ⟨he, fun hfin => ⟨_, he, ?_⟩⟩
  rw [State.mergeWrite_of_not_final _ _ _ _ _ _ hfin]
  exact State.finish_ok_ended hx (by simp)

end Sys2Proof

/-! PROOFS. What a write of device memory and a change of one array do to the engines' arrays. -/

namespace Sys2Proof.Machine.State

/-! ### Writes of device memory leave the engines as they are -/

@[simp] theorem countCoh_engines (s : State) (a n : Nat) (f : Fld) : (s.countCoh a n f).engines = s.engines := by
  simp only [countCoh, List.foldl_cons, List.foldl_nil]
  repeat' split
  all_goals simp

@[simp] theorem cohInv_engines (s : State) (a n : Nat) : (s.cohInv a n).engines = s.engines := by
  refine List.foldlRecOn (motive := fun t : State => t.engines = s.engines) _ _ rfl fun t ht e _ => ?_
  rw [setLine_engines]
  split
  · rw [wrBytes_engines, ht]
  · exact ht

@[simp] theorem dropResv_engines (s : State) (a n : Nat) : (s.dropResv a n).engines = s.engines := rfl

@[simp] theorem cohWrite_engines (s : State) (a : Nat) (bs : Bytes) : (s.cohWrite a bs).engines = s.engines := by
  simp [cohWrite]

theorem wrParts_engines (pins : SMap Nat) (ps : List (Nat × Nat)) : ∀ (s : State) (bs : Bytes),
    (s.wrParts pins bs ps).engines = s.engines := by
  induction ps with
  | nil => intros; rfl
  | cons p t ih =>
    intro s bs
    rw [wrParts, ih]
    split <;> simp

@[simp] theorem wrV_engines (s : State) (pins : SMap Nat) (va : Nat) (bs : Bytes) : (s.wrV pins va bs).engines = s.engines :=
  wrParts_engines _ _ _ _

/-! ### Arrays -/

variable (s : State) (d : Die) (e a : Nat) (f : Arr → Arr)

@[simp] theorem updArr_streams : (s.updArr d e a f).streams = s.streams := rfl
@[simp] theorem updArr_tests : (s.updArr d e a f).tests = s.tests := rfl
@[simp] theorem updArr_transients : (s.updArr d e a f).transients = s.transients := rfl

/-- The engines are those of the schedulers' data. -/
theorem engine_of_engines {s t : State} (h : t.engines = s.engines) (d : Die) (e : Nat) : t.engine d e = s.engine d e := by
  simp only [engine, h]

@[simp] theorem engine_setEngine_same (x : Engine) : (s.setEngine d e x).engine d e = x := by simp [engine, setEngine, SMap.getD]

/-- An array after a change of array `b` of its engine. -/
theorem arrays_updArr (b : Nat) :
    ((s.updArr d e b f).engine d e).arrays[a]? = if a = b then ((s.engine d e).arrays[a]?).map f else (s.engine d e).arrays[a]? := by
  rw [updArr, engine_setEngine_same]
  by_cases h : a = b <;> simp [h, Function.comp_def]

theorem arrays_updArr_same {r : Arr} (h : (s.engine d e).arrays[a]? = some r) :
    ((s.updArr d e a f).engine d e).arrays[a]? = some (f r) := by simp [arrays_updArr, h]

theorem arrays_updArr_other {a b : Nat} (h : a ≠ b) :
    ((s.updArr d e b f).engine d e).arrays[a]? = (s.engine d e).arrays[a]? := by simp [arrays_updArr, h]

end Sys2Proof.Machine.State

/-! PROOFS. MATMUL and its tiles (R113, R116, R117, R123 to R125). -/

namespace Sys2Proof.Machine.State

/-! ### The writes of a tile -/

section Writes

variable {α : Type} {π : State → α}

/-- What no write through pinned translations changes, no write of a tile's row changes. -/
theorem writeRow_frame (hπ : ∀ s pins va bs, π (s.wrV pins va bs) = π s) (s : State) (d : Die) (n : Nat) (x : Desc) (i j0 : Nat)
    (accs : List Acc) : π (s.writeRow d n x i j0 accs).1 = π s := by
  simp only [writeRow, putElems]
  split
  · exact hπ _ _ _ _
  · split <;> simp only [hπ]

theorem writeTile_frame (hπ : ∀ s pins va bs, π (s.wrV pins va bs) = π s) (s : State) (d : Die) (n : Nat) (x : Desc) (fill : Bool)
    (t : Nat) : π (s.writeTile d n x fill t).1 = π s :=
  List.foldlRecOn (motive := fun w : State × List Nat => π w.1 = π s) _ _ rfl fun _ hw _ _ => (writeRow_frame hπ _ _ _ _ _ _ _).trans hw

end Writes

@[simp] theorem writeTile_streams (s : State) (d : Die) (n : Nat) (x : Desc) (fill : Bool) (t : Nat) :
    (s.writeTile d n x fill t).1.streams = s.streams := writeTile_frame (π := State.streams) wrV_streams s d n x fill t

@[simp] theorem writeTile_engines (s : State) (d : Die) (n : Nat) (x : Desc) (fill : Bool) (t : Nat) :
    (s.writeTile d n x fill t).1.engines = s.engines := writeTile_frame (π := State.engines) wrV_engines s d n x fill t

@[simp] theorem busyFor_streams (s : State) (d : Die) (e : Nat) : (s.busyFor d e).streams = s.streams := rfl
@[simp] theorem busyFor_engines (s : State) (d : Die) (e : Nat) : (s.busyFor d e).engines = s.engines := rfl

/-! ### A MATMUL without a K (R125) -/

/-- A MATMUL without a K on an engine with a live array, none of its operands uncorrectable, ends with OK. -/
theorem runMatmul_ended_of_mmK_eq_zero {s : State} {d : Die} {n q : Nat} {x : Desc} (hx : s.desc? d n q = some x)
    (ha : x.aborting = false) (hl : s.liveMask d (s.ctxEngine d n) ≠ 0) (hk : x.mmK = 0)
    (hr : s.readBad x (allRows x) (allCols x) = none) (hw : s.writeBad x (allRows x) (allCols x) = none) :
    (s.runMatmul d n q x).Ended d n q stOk := by
  simp only [runMatmul, ha, hl, hk, hr, hw, partEnd_none, beq_iff_eq, Bool.false_eq_true, if_false, if_true]
  refine finish_ended _ _ (by decide) (desc?_updDesc_same _ (fun _ => rfl) ((desc?_of_streams ?_ d n q).trans hx))
  exact List.foldlRecOn (motive := fun w : State × List Nat => w.1.streams = s.streams) _ _ rfl
    fun w hw t _ => (writeTile_streams _ _ _ _ _ _).trans hw

/-! ### Tiles taken by arrays (R116, R117) -/

@[simp] theorem arrays_noteTurn (s : State) (d : Die) (e n : Nat) :
    ((s.noteTurn d e n).engine d e).arrays = (s.engine d e).arrays := by rw [noteTurn, engine_setEngine_same]

@[simp] theorem updDesc_engine (s : State) (d d' : Die) (n q e : Nat) (g : Desc → Desc) :
    (s.updDesc d n q g).engine d' e = s.engine d' e := rfl

/-- An offer of a tile changes nothing, starts a clearing of the array, or gives the array a tile of the descriptor. -/
theorem takeTile_cases (s : State) (d : Die) (e a n q : Nat) :
    s.takeTile d e a n q = s
      ∨ (∃ f, s.takeTile d e a n q = (s.updArr d e a f).bump (engPg d e) Reg.ENG_SWITCHES)
      ∨ ∃ f g, s.takeTile d e a n q = ((s.updArr d e a f).noteTurn d e n).updDesc d n q g := by
  unfold takeTile
  split
  · dsimp only
    split
    · split
      · split
        · exact .inr (.inl ⟨_, rfl⟩)
        · exact .inl rfl
      · exact .inr (.inr ⟨_, _, rfl⟩)
    · exact .inl rfl
  · exact .inl rfl

/-- `t` has device memory, the file area and every array of the engine but array `a` as `s` has them. -/
def ArrayOnly (d : Die) (e a : Nat) (s t : State) : Prop :=
  SameMemory s t ∧ ∀ b ≠ a, (t.engine d e).arrays[b]? = (s.engine d e).arrays[b]?

theorem takeTile_arrayOnly (s : State) (d : Die) (e a n q : Nat) : ArrayOnly d e a s (s.takeTile d e a n q) := by
  obtain h | ⟨f, h⟩ | ⟨f, g, h⟩ := takeTile_cases s d e a n q <;> rw [h]
  · exact ⟨⟨rfl, rfl, rfl⟩, fun _ _ => rfl⟩
  · exact ⟨⟨rfl, rfl, rfl⟩, fun b hb => arrays_updArr_other s d e f hb⟩
  · refine ⟨⟨rfl, rfl, rfl⟩, fun b hb => ?_⟩
    rw [updDesc_engine, arrays_noteTurn, arrays_updArr_other s d e f hb]

/-- Stream `n` may give array `r` of its engine, at rest, its descriptor's next tile (R116, R134, R138, R190). -/
structure MayTake (s : State) (d : Die) (e a n q : Nat) (x : Desc) (r : Arr) : Prop where
  desc : s.desc? d n q = some x
  arr : (s.engine d e).arrays[a]? = some r
  live : (s.liveMask d e).testBit a = true
  run : r.run = none
  next : r.next = none
  isolated : r.isolated = false
  clearing : r.clearing = false
  last : r.last = none ∨ r.last = some (s.classTag d n)
  paused : s.streamPaused d n = false
  untaken : x.untaken (s.ctxFill d n) = true
  turn : s.tileTurn d e n = true

/-- An array at rest takes the next tile. -/
theorem takeTile_run {s : State} {d : Die} {e a n q : Nat} {x : Desc} {r : Arr} (h : MayTake s d e a n q x r) :
    ∃ z u, ((s.takeTile d e a n q).engine d e).arrays[a]? = some z ∧ z.run = some u ∧ u.n = n ∧ u.seq = x.seq
      ∧ u.tile = x.rerun.headD x.next := by
  have hlast : (r.last.isSome && r.last != some (s.classTag d n)) = false := by obtain h | h := h.last <;> simp [h]
  simp only [takeTile, h.desc, h.arr, h.live, h.next, h.isolated, h.clearing, h.paused, h.untaken, h.turn, hlast, Option.isNone_none,
    Bool.not_false, Bool.and_self, if_true, Bool.false_eq_true, if_false, updDesc_engine, arrays_noteTurn, arrays_updArr_same s d e a _ h.arr,
    h.run]
  exact ⟨_, _, rfl, rfl, rfl, rfl, rfl⟩

/-- The idle arrays of a list are offered a tile, in its order: those that `idle` names. -/
def offerTiles (d : Die) (e n q : Nat) (idle : Nat → Bool) (s : State) (as : List Nat) : State :=
  as.foldl (fun t a => if idle a then t.takeTile d e a n q else t) s

theorem offerTiles_none {d : Die} {e n q : Nat} {idle : Nat → Bool} (s : State) {as : List Nat} (h : ∀ b ∈ as, idle b = false) :
    offerTiles d e n q idle s as = s :=
  List.foldlRecOn (motive := fun t : State => t = s) _ _ rfl fun t ht b hb => by simp [h b hb, ht]

/-- What arrays are offered leaves device memory and an array that is not among them. -/
theorem offerTiles_frame (d : Die) (e n q : Nat) (idle : Nat → Bool) (s : State) {as : List Nat} {a : Nat} (h : a ∉ as) :
    SameMemory s (offerTiles d e n q idle s as)
      ∧ ((offerTiles d e n q idle s as).engine d e).arrays[a]? = (s.engine d e).arrays[a]? := by
  refine List.foldlRecOn (motive := fun t : State => SameMemory s t ∧ (t.engine d e).arrays[a]? = (s.engine d e).arrays[a]?) _ _
    ⟨⟨rfl, rfl, rfl⟩, rfl⟩ fun t ⟨⟨hm, hf, hb⟩, ha⟩ b hbm => ?_
  split
  · obtain ⟨⟨hm', hf', hb'⟩, ho⟩ := takeTile_arrayOnly t d e b n q
    exact ⟨⟨hm'.trans hm, hf'.trans hf, hb'.trans hb⟩, (ho a fun hab => h (hab ▸ hbm)).trans ha⟩
  · exact ⟨⟨hm, hf, hb⟩, ha⟩

/-- The first idle array takes the next tile, and the arrays that are offered one after it leave it that. -/
theorem offerTiles_first {s : State} {d : Die} {e a n q : Nat} {x : Desc} {r : Arr} {idle : Nat → Bool} (h : MayTake s d e a n q x r)
    (ha : a < 4) (hi : idle a = true) (hb : ∀ b < a, idle b = false) :
    SameMemory s (offerTiles d e n q idle s (List.range 4))
      ∧ ∃ z u, ((offerTiles d e n q idle s (List.range 4)).engine d e).arrays[a]? = some z ∧ z.run = some u ∧ u.n = n ∧ u.seq = x.seq
        ∧ u.tile = x.rerun.headD x.next := by
  have hsplit : ∀ a < 4, List.range 4 = List.range a ++ a :: List.range' (a + 1) (3 - a) := by decide
  have he : offerTiles d e n q idle s (List.range 4)
      = offerTiles d e n q idle (s.takeTile d e a n q) (List.range' (a + 1) (3 - a)) := by
    have h0 := offerTiles_none (d := d) (e := e) (n := n) (q := q) (idle := idle) s (as := List.range a) (by simpa using hb)
    rw [offerTiles] at h0 ⊢
    rw [hsplit a ha, List.foldl_append, h0, List.foldl_cons, if_pos hi, offerTiles]
  obtain ⟨⟨hm, hf, hbad⟩, -⟩ := takeTile_arrayOnly s d e a n q
  obtain ⟨⟨hm', hf', hbad'⟩, hz'⟩ := offerTiles_frame d e n q idle (s.takeTile d e a n q) (as := List.range' (a + 1) (3 - a)) (a := a)
    (by simp only [List.mem_range'_1]; omega)
  rw [he, hz']
  exact ⟨⟨hm'.trans hm, hf'.trans hf, hbad'.trans hbad⟩, takeTile_run h⟩

/-- A MATMUL with a K, an array of its engine being idle, offers its tiles to the idle arrays. -/
theorem runMatmul_of_idle {s : State} {d : Die} {n a : Nat} {x : Desc} {r : Arr} (q : Nat)
    (hr : (s.engine d (s.ctxEngine d n)).arrays[a]? = some r) (hl : (s.liveMask d (s.ctxEngine d n)).testBit a = true)
    (hrun : r.run = none) (hiso : r.isolated = false) (ha : x.aborting = false) (hm : s.liveMask d (s.ctxEngine d n) ≠ 0)
    (hk : x.mmK ≠ 0) :
    s.runMatmul d n q x = offerTiles d (s.ctxEngine d n) n q
      (fun b => ((s.engine d (s.ctxEngine d n)).arrays[b]?).any (·.run.isNone)) s (List.range 4) := by
  have hidle : ((s.engine d (s.ctxEngine d n)).arrays.zipIdx.any fun p =>
      (s.liveMask d (s.ctxEngine d n)).testBit p.2 && p.1.run.isNone && !p.1.isolated) = true :=
    List.any_eq_true.2 ⟨(r, a), List.mem_zipIdx_iff_getElem?.2 hr, by simp [hl, hrun, hiso]⟩
  simp only [runMatmul, ha, hm, hk, hidle, beq_iff_eq, Bool.false_eq_true, if_false, if_true, offerTiles]

/-! ### Tiles that end (R116, R117) -/

theorem noteWindow_eq (x : Desc) (hits : List Nat) : ∃ l, noteWindow x hits = { x with aux := l } := by
  unfold noteWindow
  split
  · exact ⟨_, rfl⟩
  · exact ⟨x.aux, rfl⟩

/-- A MATMUL whose tiles are all written ends with OK or, where an element of it reported so, WINDOW_EXCEEDED. -/
theorem endMatmul_ended {s : State} {d : Die} {n q : Nat} {x : Desc} (h : s.desc? d n q = some x) :
    (s.endMatmul d n q).Ended d n q stOk ∨ (s.endMatmul d n q).Ended d n q stWindow := by
  simp only [endMatmul, h]
  split
  · exact .inr (finish_ended _ _ (by decide) h)
  · exact .inl (finish_ended _ _ (by decide) h)

/-- The state once the older tile `u` of array `a`, of descriptor `x`, has drained, been written and counted. -/
def tileWritten (s : State) (d : Die) (e a : Nat) (u : TileRun) (x : Desc) : State :=
  let ops := s.tileOps x (s.ctxFill d u.n) u.tile
  let w := ((s.updArr d e a fun z => arrDrained z (s.planeOf x (x.tileColSpan u.tile) (x.weightTiles - 1)) (tileAnchors x ops)
    (tileAccs x ops)).busyFor d e).writeTile d u.n x (s.ctxFill d u.n) u.tile
  w.1.updDesc d u.n x.slot fun y => noteWindow { y with finished := y.finished + 1 } w.2

section TileComplete

variable {s : State} {d : Die} {e a : Nat} {r : Arr} {u : TileRun} {x : Desc}

/-- The descriptor counts the tile. -/
theorem tileWritten_desc (h : s.desc? d u.n x.slot = some x) :
    ∃ l, (s.tileWritten d e a u x).desc? d u.n x.slot = some { x with finished := x.finished + 1, aux := l } := by
  have hkeep (hits : List Nat) (y : Desc) : (noteWindow { y with finished := y.finished + 1 } hits).slot = y.slot := by
    obtain ⟨l, hl⟩ := noteWindow_eq { y with finished := y.finished + 1 } hits
    rw [hl]
  obtain ⟨l, hl⟩ := noteWindow_eq { x with finished := x.finished + 1 } (writeTile _ d u.n x (s.ctxFill d u.n) u.tile).2
  exact ⟨l, (desc?_updDesc_same _ (hkeep _) ((desc?_of_streams (by simp) d u.n x.slot).trans h)).trans (congrArg some hl)⟩

/-- The array goes on with the tile that streams after this one. -/
theorem tileWritten_arr (h : (s.engine d e).arrays[a]? = some r) :
    ∃ z, ((s.tileWritten d e a u x).engine d e).arrays[a]? = some z ∧ z.run = r.next ∧ z.next = none := by
  rw [tileWritten, updDesc_engine, engine_of_engines (writeTile_engines _ _ _ _ _ _), engine_of_engines (busyFor_engines _ _ _)]
  exact ⟨_, arrays_updArr_same s d e a _ h, rfl, rfl⟩

/-- A tile none of whose operands or output words is uncorrectable is written, and the last one ends its descriptor. -/
theorem exec_tileComplete_of_good (hd : s.LiveOn d) (hr : (s.engine d e).arrays[a]? = some r) (hu : r.run = some u)
    (hi : r.isolated = false) (hx : ((s.stream d u.n).fetched.find? fun x => x.seq == u.seq && x.phase == .running) = some x)
    (ha : x.aborting = false) (hm : s.writesMoving x = false)
    (hrd : s.readBad x (x.tileRowSpan (s.ctxFill d u.n) u.tile) (x.tileColSpan u.tile) = none)
    (hwr : s.writeBad x (x.tileRowSpan (s.ctxFill d u.n) u.tile) (x.tileColSpan u.tile) = none) :
    exec (.tileComplete d e a) s = .next (if x.finished + 1 = x.tiles (s.ctxFill d u.n)
      then (s.tileWritten d e a u x).endMatmul d u.n x.slot else s.tileWritten d e a u x) := by
  have he : exec (.tileComplete d e a) s = execTileComplete d e a s := rfl
  rw [he, execTileComplete, actD_of_liveOn hd]
  simp only [hr, hu, hi, hx, hm, hrd, hwr, ha, beq_iff_eq, Bool.false_eq_true, if_false]
  rfl

end TileComplete

end Sys2Proof.Machine.State

namespace Sys2Proof.Machine

/-- While a descriptor runs alone on an array, the first weight tile of its stream's next MATMUL is loaded into the shadow plane, unless
the running one writes where it lies (R113). -/
theorem exec_weightPreload_of_next {s : State} {d : Die} {e a : Nat} {r : Arr} {u : TileRun} {x y : Desc} (hd : s.LiveOn d)
    (hr : (s.engine d e).arrays[a]? = some r) (hu : r.run = some u) (hn : r.next = none)
    (hx : ((s.stream d u.n).fetched.find? fun x => x.seq == u.seq) = some x)
    (hy : ((s.stream d u.n).fetched.dropWhile fun x => x.seq != u.seq)[1]? = some y) (hp : y.phase = .fetched)
    (ho : y.op = 0x01 ∨ y.op = 0x02) (hk : y.mmK ≠ 0)
    (hw : ∀ w ∈ State.firstWeights y, ∀ v ∈ State.writesOf x, w.1 + w.2 ≤ v.1 ∨ v.1 + v.2 ≤ w.1) :
    exec (.weightPreload d e a) s = .next (s.updArr d e a fun z =>
      { z with preload := some (u.n, y.seq), shadow := s.planeOf y (y.tileColSpan 0) 0, reloaded := none }) := by
  have hfree : ((State.firstWeights y).all fun w => (State.writesOf x).all fun v =>
      decide (w.1 + w.2 ≤ v.1) || decide (v.1 + v.2 ≤ w.1)) = true := by simpa using hw
  have hop : (y.op == 0x01 || y.op == 0x02) = true := by simpa using ho
  have he : exec (.weightPreload d e a) s = execWeightPreload d e a s := rfl
  rw [he, execWeightPreload, actD_of_liveOn hd]
  simp [hr, hu, hn, hx, hy, hp, hop, hk, hfree]

/-- MATMUL and MATMUL_ACC on their running descriptor are the work of `runMatmul`. -/
theorem exec_matmul_of_running {s : State} {d : Die} {n q : Nat} {x : Desc} {p : (Die → Nat → Nat → Instr) × Nat}
    (hp : p ∈ [(Instr.matmul, 0x01), (Instr.matmulAcc, 0x02)]) (h : s.RunningDesc d n q p.2 x) :
    exec (p.1 d n q) s = .next (s.runMatmul d n q x) := by
  have he : exec (p.1 d n q) s = actD d s fun s => s.withRunning d n q p.2 fun x => s.runMatmul d n q x := by
    obtain rfl | rfl : p = (Instr.matmul, 0x01) ∨ p = (Instr.matmulAcc, 0x02) := by simpa using hp
    · rfl
    · rfl
  rw [he, actD_of_liveOn h.1, State.withRunning_of_running h]

end Sys2Proof.Machine

namespace Sys2Proof

open Sys2Proof.Machine

/-- Settles O5: a MATMUL without a K writes and ends at once (`runMatmul_ended_of_mmK_eq_zero`); with one the first idle array takes the next
tile, and what the later arrays are offered leaves it (`offerTiles_first`); a tile that ends is written and counted (`tileWritten`). -/
theorem matmulRuns : Obligations.MatmulRuns := by
  unfold Obligations.MatmulRuns
  refine ⟨fun p hp d n q x s hx hab hl => ⟨fun hk hr hw => ?_, fun a r hk ha hr hbusy hlive hrun hnext hiso hclr hlast hun hturn => ?_⟩,
    fun d e a r u x y s => exec_weightPreload_of_next,
    fun d e a r u x s hd hr hu hi hf hx hab hm hrd hwr => ⟨fun hfin => ?_, fun hfin => ?_⟩⟩
  · have he := exec_matmul_of_running hp hx
    obtain ⟨-, hdesc, -⟩ := hx
    exact ⟨_, he, State.runMatmul_ended_of_mmK_eq_zero hdesc hab hl hk hr hw⟩
  · have he := (exec_matmul_of_running hp hx).trans (congrArg _ (State.runMatmul_of_idle q hr hlive hrun hiso hab hl hk))
    obtain ⟨-, hdesc, -, -, hpause, -⟩ := hx
    have hmay : s.MayTake d (s.ctxEngine d n) a n q x r := ⟨hdesc, hr, hlive, hrun, hnext, hiso, hclr, hlast, hpause, hun, hturn⟩
    have hbefore : ∀ b < a, ((s.engine d (s.ctxEngine d n)).arrays[b]?).any (·.run.isNone) = false := by
      intro b hb
      obtain ⟨z, hz⟩ : ∃ z, (s.engine d (s.ctxEngine d n)).arrays[b]? = some z :=
        ⟨_, List.getElem?_eq_getElem (Nat.lt_trans hb (List.getElem?_eq_some_iff.1 hr).1)⟩
      have hzrun := hbusy z (List.mem_of_getElem? (i := b) (by rw [List.getElem?_take_of_lt hb, hz]))
      simpa [hz, Option.isSome_iff_ne_none] using hzrun
    obtain ⟨hmem, z, v, hz, hvrun, hvn, hvseq, hvtile⟩ := State.offerTiles_first hmay ha (by simp [hr, hrun]) hbefore
    exact ⟨_, z, v, he, hz, hvrun, hvn, hvseq, hvtile, hmem⟩
  · have he := State.exec_tileComplete_of_good hd hr hu hi hf hab hm hrd hwr
    obtain ⟨l, hl⟩ := State.tileWritten_desc (e := e) (a := a) hx
    rw [if_pos hfin] at he
    exact ⟨_, he, State.endMatmul_ended hl⟩
  · have he := State.exec_tileComplete_of_good hd hr hu hi hf hab hm hrd hwr
    obtain ⟨l, hl⟩ := State.tileWritten_desc (e := e) (a := a) hx
    obtain ⟨z, hz, hzrun, hznext⟩ := State.tileWritten_arr (u := u) (x := x) hr
    obtain ⟨-, hphase⟩ : x.seq = u.seq ∧ x.phase = .running := by simpa using List.find?_some hf
    rw [if_neg hfin] at he
    exact ⟨_, _, z, he, hl, hphase, rfl, hz, hzrun, hznext⟩

end Sys2Proof

/-! PROOFS. The live masks of engines under updates of other pages, and the updates of the error log and the ledger (R136, R621). -/

namespace Sys2Proof.Machine

theorem dieOf_dieCode (d : Die) : dieOf (dieCode d) = d := by cases d <;> rfl

namespace State

@[simp] theorem logRec_transients (s : State) (r : ErrRec) : (s.logRec r).transients = s.transients := by
  unfold logRec raise raiseMask
  dsimp only
  split
  · rfl
  · split <;> rfl

@[simp] theorem bump_transients (s : State) (pg : Page) (f : Fld) (n b : Nat) : (s.bump pg f n b).transients = s.transients := rfl

/-- A page of a block other than the engines' (R518, R539). -/
abbrev OffEngine (pg : Page) : Prop := pg.blk ≠ .eng ∧ pg.inst < 256

theorem bistPg_offEngine (d : Die) : OffEngine (bistPg d) := ⟨nofun, Nat.two_pow_pos 8⟩

section LiveMask

variable {d : Die} {e : Nat} (he : e < 256) (s : State)

include he

/-- A word of a page of another block is not an engine's live mask. -/
theorem liveMask_setWord {pg : Page} (hp : OffEngine pg) {off : Nat} (ho : off < 4096) (v : Nat) :
    (s.setWord pg off v).liveMask d e = s.liveMask d e :=
  getF_setWord_other _ _ _ _ _ _ _ _ fun h =>
    hp.1 ((congrArg Page.blk (regKey_inj _ _ _ _ _ _ he hp.2 (by decide) ho (by decide) (by decide) h).1).symm)

theorem liveMask_setF {pg : Page} (hp : OffEngine pg) {f : Fld} (ho : f.off < 4096) (v : Nat) :
    (s.setF pg f v).liveMask d e = s.liveMask d e := liveMask_setWord he s hp ho _

theorem liveMask_bump {pg : Page} (hp : OffEngine pg) {f : Fld} (ho : f.off < 4096) (n : Nat) :
    (s.bump pg f n).liveMask d e = s.liveMask d e := liveMask_setF he s hp ho _

theorem liveMask_raiseMax {pg : Page} (hp : OffEngine pg) {f : Fld} (ho : f.off < 4096) (n : Nat) :
    (s.raiseMax pg f n).liveMask d e = s.liveMask d e := liveMask_setF he s hp ho _

theorem liveMask_raise {pg : Page} (hp : OffEngine pg) (n : Nat) :
    (s.raise pg n).liveMask d e = s.liveMask d e := by
  have h := fun v => liveMask_setWord (d := d) he s hp (off := 0x20) (by decide) v
  unfold raise raiseMask
  dsimp only
  split
  · exact h _
  · exact h _

theorem liveMask_logRec (r : ErrRec) : (s.logRec r).liveMask d e = s.liveMask d e := by
  unfold logRec
  dsimp only
  split
  · rfl
  · rw [liveMask_raise he _ (by decide), liveMask_bump he _ (by decide) (by decide)]
    rfl

theorem liveMask_ledg (kind : LedgKind) (about : List Nat) (err : Option ErrRec) :
    (s.ledg kind about err).liveMask d e = s.liveMask d e := by
  unfold ledg
  dsimp only
  split
  · exact liveMask_setF he _ (by decide) (by decide) _
  · rfl

theorem liveMask_drawNow : s.drawNow.liveMask d e = s.liveMask d e := by
  unfold drawNow drawStart
  split
  · exact liveMask_setF he s (by decide) (by decide) _
  · rw [liveMask_ledg he, liveMask_setF he _ (by decide) (by decide)]
    exact getF_congr s _ _ _ _ rfl rfl

theorem liveMask_lastingRec (r : ErrRec) : (s.lastingRec r).liveMask d e = s.liveMask d e := by
  rw [lastingRec, liveMask_drawNow he, liveMask_ledg he, liveMask_logRec he]

omit he

/-- The live mask that is set is read back, cut to the four arrays. -/
theorem liveMask_setLive (m : Nat) : (s.setLive d e m).liveMask d e = m % 16 := by
  rw [setLive, liveMask, getF_setF_beside _ _ Reg.ENG_CAP_LIVE_COUNT Reg.ENG_CAP_LIVE_MASK _ _ rfl (by decide) (.inl (by decide)),
    getF_setF_same _ _ _ _ _ (by decide)]
  rfl

theorem liveMask_summary (g : Ledger → Ledger) : (s.summary g).liveMask d e = s.liveMask d e := rfl

theorem liveMask_lt : s.liveMask d e < 16 := bitsOf_lt _ _ _

include he

/-- An array retired, not the last one, leaves the live mask (R138, R143). -/
theorem liveMask_retireArray {a : Nat} (hl : (s.liveMask d e).testBit a = true) (hm : s.liveMask d e ≠ 2 ^ a) :
    (s.retireArray d e a).liveMask d e = s.liveMask d e - 2 ^ a := by
  have hlt := s.liveMask_lt (d := d) (e := e)
  simp only [retireArray, hl, Nat.one_shiftLeft, beq_iff_eq, hm, Bool.not_true, Bool.false_eq_true, if_false]
  rw [liveMask_ledg he, liveMask_summary, liveMask_bump he _ (by decide) (by decide), liveMask_setLive,
    Nat.mod_eq_of_lt (Nat.lt_of_le_of_lt (Nat.sub_le _ _) hlt)]

/-- An array, not the last live one of its engine, that fails its test leaves the live mask (R138, R625). -/
theorem liveMask_failTest_array {a : Nat} (r : ErrRec) (hl : (s.liveMask d e).testBit a = true) (hm : s.liveMask d e ≠ 2 ^ a) :
    (s.failTest d (.array e a) r).liveMask d e = s.liveMask d e - 2 ^ a := by
  have hs : ((s.bump (bistPg d) Reg.BIST_TST_FAILS).lastingRec { r with cls := .lasting }).liveMask d e = s.liveMask d e := by
    rw [liveMask_lastingRec he, liveMask_bump he _ (bistPg_offEngine d) (by decide)]
  have hf : s.failTest d (.array e a) r = ((((s.bump (bistPg d) Reg.BIST_TST_FAILS).lastingRec { r with cls := .lasting }).retireArray
      d e a).raise (bistPg d) 0).pldm "unit unusable" := rfl
  rw [hf, liveMask, pldm_getF, ← liveMask, liveMask_raise he _ (bistPg_offEngine d),
    liveMask_retireArray he _ (by rw [hs]; exact hl) (by rw [hs]; exact hm), hs]

end LiveMask

/-- A bit that is set is clear in the number less its weight, of the four of a live mask. -/
theorem testBit_sub_two_pow {m a : Nat} (hm : m < 16) (ha : a < 4) (h : m.testBit a = true) : (m - 2 ^ a).testBit a = false := by
  have hall : ∀ m < 16, ∀ a < 4, m.testBit a = true → (m - 2 ^ a).testBit a = false := by decide
  exact hall m hm a ha h

end State

end Sys2Proof.Machine

/-! PROOFS. Detected errors, targeted self-tests, BIST and the live test controls (R138, R141, R621 to R632, R647). -/

namespace Sys2Proof.Machine

/-- A command comes about while the module is in service. -/
theorem act_of_live {s : State} (h : s.Live) (f : State → State) : act s f = .next (f s) := by simp [act, h]

namespace State

/-! ### Detected errors of arrays (R137, R138, R624) -/

/-- A detected error of an array, no test and no BIST being in progress, starts the array's test and isolates it. -/
theorem detect_array_of_quiet {s : State} (d : Die) (e a : Nat) (inj : Bool) (pa : Nat) (ht : s.tests = []) (hb : s.bists = []) :
    s.detect d (.array e a) inj pa = discardTile { s with
      tests := [⟨dieCode d, .array e a, s.base, structRec d (.array e a) .transient inj pa, s.streamsOn d (.array e a)⟩] } d e a := by
  have hlogic : (Struct.array e a == .testLogic) = false := rfl
  simp [detect, ht, hb, hlogic]

/-- A check that fires in an array outside a clearing is a detected error, but for the shadow plane's first one for a weight tile. -/
theorem arrayError_of_detected {s : State} (d : Die) (e a : Nat) {r : Arr} {w : ArrPart}
    (h : ∀ k, w = .shadowPlane k → r.reloaded = some k) : s.arrayError d e a r w = s.detect d (.array e a) false 0 := by
  cases w with
  | shadowPlane k => simp [arrayError, h k rfl]
  | _ => rfl

/-! ### Targeted self-tests (R624 to R627) -/

/-- The state once the test of a structure, in progress since `since`, has left those in progress and been counted. -/
def testCounted (s : State) (d : Die) (st : Struct) (since : Nat) : State :=
  let s1 : State := { s with tests := s.tests.filter fun u => !(u.die == dieCode d && u.st == st) }
  ((if s.armedFail d (structPlace d st).2 then s1.setF (bistPg d) Reg.INJ_ARM 0 else s1).bump (bistPg d) Reg.BIST_TST_RUNS).raiseMax (bistPg d)
    Reg.BIST_TST_US_MAX ((s.base - since + 999) / 1000)

section Tests

variable (s : State) (d : Die) (st : Struct) (since : Nat)

@[simp] theorem testCounted_engines : (s.testCounted d st since).engines = s.engines := by
  unfold testCounted; dsimp only; split <;> rfl
@[simp] theorem testCounted_base : (s.testCounted d st since).base = s.base := by
  unfold testCounted; dsimp only; split <;> rfl
@[simp] theorem testCounted_tests :
    (s.testCounted d st since).tests = s.tests.filter fun u => !(u.die == dieCode d && u.st == st) := by
  unfold testCounted; dsimp only; split <;> rfl

theorem liveMask_testCounted {e : Nat} (he : e < 256) : (s.testCounted d st since).liveMask d e = s.liveMask d e := by
  rw [testCounted, liveMask_raiseMax he _ (bistPg_offEngine d) (by decide), liveMask_bump he _ (bistPg_offEngine d) (by decide)]
  split
  · rw [liveMask_setF he _ (bistPg_offEngine d) (by decide)]
    rfl
  · rfl

end Tests

/-- The end of the test of a structure: it passes, unless its failure has been armed, or fails. -/
theorem exec_targetedSelfTestDone_of_test {s : State} {d : Die} {st : Struct} {u : SelfTest} (hd : s.LiveOn d)
    (hu : (s.tests.find? fun t => t.die == dieCode d && t.st == st) = some u) (pass : Bool) :
    ∃ r, exec (.targetedSelfTestDone d st pass) s = .next (if pass && !s.armedFail d (structPlace d st).2
      then (s.testCounted d st u.since).passTest d st r else (s.testCounted d st u.since).failTest d st r) := by
  obtain ⟨hdie, hst⟩ : u.die = dieCode d ∧ u.st = st := by simpa using List.find?_some hu
  have he : exec (.targetedSelfTestDone d st pass) s = execTargetedSelfTestDone d st pass s := rfl
  refine ⟨{ u.cause with injected := u.cause.injected || s.armedFail d (structPlace d st).2 }, ?_⟩
  rw [he, execTargetedSelfTestDone, actD_of_liveOn hd]
  simp only [hu, testEnd, hdie, hst, dieOf_dieCode]
  rfl

/-- A passed test puts an array back in service and counts its transient error. -/
theorem passTest_array {s : State} {d : Die} {e a : Nat} {r : Arr} (c : ErrRec) (hr : (s.engine d e).arrays[a]? = some r) :
    (((s.passTest d (.array e a) c).engine d e).arrays[a]? = some { r with isolated := false })
      ∧ (s.passTest d (.array e a) c).tests = s.tests
      ∧ (dieCode d, Struct.array e a, s.base) ∈ (s.passTest d (.array e a) c).transients := by
  refine ⟨?_, ?_, ?_⟩
  · refine arrays_updArr_same _ d e a (fun (y : Arr) => { y with isolated := false }) ?_
    rw [engine_of_engines (logRec_engines _ _)]
    exact hr
  · simp [passTest]
  · simp [passTest]

end State

end Sys2Proof.Machine

namespace Sys2Proof.Machine

section Errors

variable {s : State} {d : Die} {e a : Nat} {r : Arr}

/-- A check that fires in a live array, no test and no BIST being in progress, isolates the array and starts its test (R138, R624). -/
theorem exec_arrayDetectedError_of_quiet {w : ArrPart} (hd : s.LiveOn d) (hr : (s.engine d e).arrays[a]? = some r)
    (hon : structOn d (.array e a) = true) (hl : (s.liveMask d e).testBit a = true) (hw : w ≠ .bankSingle)
    (hs : ∀ k, w = .shadowPlane k → r.reloaded = some k) (hc : r.clearing = false) (ht : s.tests = []) (hb : s.bists = []) :
    exec (.arrayDetectedError d e a w) s = .next (State.discardTile { s with
      tests := [⟨dieCode d, .array e a, s.base, State.structRec d (.array e a) .transient false 0, s.streamsOn d (.array e a)⟩] } d e a) := by
  have he : exec (.arrayDetectedError d e a w) s = execArrayDetectedError d e a w s := rfl
  rw [he, execArrayDetectedError, actD_of_liveOn hd, ← State.detect_array_of_quiet d e a false 0 ht hb,
    ← State.arrayError_of_detected d e a hs]
  simp [hr, hon, hl, hw, hc]

/-- A clearing during which no error was detected leaves the array zeroed, with its last user (R134). -/
theorem exec_arrayClearDone_of_clean (hd : s.LiveOn d) (hr : (s.engine d e).arrays[a]? = some r) (hc : r.clearing = true)
    (hp : r.errPending = none) :
    exec (.arrayClearDone d e a) s = .next (s.updArr d e a fun (z : Arr) => { Arr.init with last := z.last, isolated := z.isolated }) := by
  have he : exec (.arrayClearDone d e a) s = execArrayClearDone d e a s := rfl
  rw [he, execArrayClearDone, actD_of_liveOn hd]
  simp [hr, hc, hp]

variable {st : Struct}

/-- An array whose test passes, no failure being armed, is in service again, and its transient error counts. -/
theorem exec_targetedSelfTestDone_array_passed {u : SelfTest} (hd : s.LiveOn d)
    (hu : (s.tests.find? fun t => t.die == dieCode d && t.st == .array e a) = some u) (hr : (s.engine d e).arrays[a]? = some r)
    (ha : s.armedFail d e = false) :
    ∃ t x, exec (.targetedSelfTestDone d (.array e a) true) s = .next t ∧ (t.engine d e).arrays[a]? = some x ∧ x.isolated = false
      ∧ (∀ v ∈ t.tests, ¬ (v.die = dieCode d ∧ v.st = .array e a)) ∧ (dieCode d, .array e a, s.base) ∈ t.transients := by
  obtain ⟨c, hc⟩ := State.exec_targetedSelfTestDone_of_test hd hu true
  have hplace : (structPlace d (.array e a)).2 = e := rfl
  have hr' : ((s.testCounted d (.array e a) u.since).engine d e).arrays[a]? = some r := by
    rw [State.engine_of_engines (State.testCounted_engines _ _ _ _)]
    exact hr
  obtain ⟨harr, htests, htrans⟩ := State.passTest_array c hr'
  rw [hplace, ha] at hc
  refine ⟨_, _, hc, harr, rfl, fun v hv => ?_, by simpa using htrans⟩
  have hv' : v ∈ (s.testCounted d (.array e a) u.since).tests := by rw [← htests]; exact hv
  rintro ⟨hdie, hst⟩
  simp [hdie, hst] at hv'

/-- An array, not the last live one of its engine, whose test fails is live no more. -/
theorem exec_targetedSelfTestDone_array_failed {u : SelfTest} (hd : s.LiveOn d) (hon : structOn d (.array e a) = true)
    (hu : (s.tests.find? fun t => t.die == dieCode d && t.st == .array e a) = some u) (hl : (s.liveMask d e).testBit a = true)
    (hm : s.liveMask d e ≠ 2 ^ a) :
    ∃ t, exec (.targetedSelfTestDone d (.array e a) false) s = .next t ∧ (t.liveMask d e).testBit a = false := by
  obtain ⟨c, hc⟩ := State.exec_targetedSelfTestDone_of_test hd hu false
  obtain ⟨⟨-, he⟩, ha⟩ : (isTensor d = true ∧ e < 100) ∧ a < 4 := by simpa [structOn] using hon
  have he' : e < 256 := by omega
  have hmask := State.liveMask_testCounted s d (.array e a) u.since he'
  refine ⟨_, hc, ?_⟩
  rw [Bool.false_and, if_neg Bool.false_ne_true,
    State.liveMask_failTest_array he' _ c (by rw [hmask]; exact hl) (by rw [hmask]; exact hm), hmask]
  exact State.testBit_sub_two_pow (State.liveMask_lt s) ha hl

/-- A structure at the limit of transient errors is handled as one that failed (R140, R626). -/
theorem exec_transientLimit_of_limit (hd : s.LiveOn d) (h : 16 ≤ s.transientsOf d st) :
    exec (.transientLimit d st) s = .next (State.failTest { s with
      transients := s.transients.filter fun t => !(t.1 == dieCode d && t.2.1 == st)
      tests := s.tests.filter fun t => !(t.die == dieCode d && t.st == st) } d st (State.structRec d st .lasting false 0)) := by
  have he : exec (.transientLimit d st) s = execTransientLimit d st s := rfl
  rw [he, execTransientLimit, actD_of_liveOn hd, if_pos h]

/-- An error at a structure of a die has the effect of its class (R621, R624). -/
theorem exec_errorDetected_of_structOn (hd : s.LiveOn d) (hon : structOn d st = true) (cls : ErrClass) (pa : Nat) :
    exec (.errorDetected d st cls pa) s = .next (match cls with
      | .corrected => s.countCorr d st
      | .transient | .lasting => s.detect d st false pa
      | .data => ((s.spoil d st pa).logRec (State.structRec d st .data false pa)).detect d st false pa
      | .fatal => s.fatal d (State.structRec d st .fatal false pa)
      | .writeLost | .refusal => s) := by
  have he : exec (.errorDetected d st cls pa) s = execErrorDetected d st cls pa s := rfl
  rw [he, execErrorDetected, actD_of_liveOn hd]
  split
  case h_1 => cases hon
  case h_2 =>
    rw [hon]
    rfl

/-- A write of a running hart that is lost gives a precise exception, or a record once it has retired (R623). -/
theorem exec_writeLost_hart {h : Nat} (hs : s.Live) (hh : h < 96) (hheld : (s.hart h).held = false) (pa : Nat) (retired : Bool) :
    exec (.writeLost (.hart h) pa retired) s = .next (if retired then
      ((s.writeLostRec (.hart h) (s.cptOf (.hart h)) pa).bump (bistPg (if h < 48 then .H0 else .H1)) Reg.BIST_WRLOST).raise
        (bistPg (if h < 48 then .H0 else .H1)) 2
      else s.answer (.hart h) .accessFault) := by
  have he : exec (.writeLost (.hart h) pa retired) s = execWriteLost (.hart h) pa retired s := rfl
  have hruns : ¬ ((decide (96 ≤ h) || (s.hart h).held) = true) := by
    simp only [hheld, Bool.or_false, decide_eq_true_eq]
    omega
  rw [he, execWriteLost, act_of_live hs]
  exact congrArg _ (if_neg hruns)

/-! ### BIST and the live test controls (R629 to R632, R647) -/

/-- The words of the BIST page once full BIST of island `i` has begun: its result is RUNNING, and BUSY is set (R629, R648). -/
def State.bistMarked (s : State) (d : Die) (i : Nat) : State :=
  (((s.setF (bistPg d) Reg.BIST_RESULT_RESULT 3 i).setF (bistPg d) Reg.BIST_RESULT_V_OUT 0 i).setF (bistPg d)
    Reg.BIST_RESULT_NO_REF 0 i).setF (bistPg d) Reg.BIST_CMD_BUSY 1

theorem State.bistMarked_busy (s : State) (d : Die) (i : Nat) : (s.bistMarked d i).getF (bistPg d) Reg.BIST_CMD_BUSY = 1 :=
  State.getF_setF_same _ _ _ _ _ (by decide)

/-- Full BIST starts on an idle island that is not under it. -/
theorem exec_bistRun_of_idle {i : Nat} (hd : s.LiveOn d) (hsel : i = s.getF (bistPg d) Reg.BIST_SEL_ISLAND) (hi : i < islandCount d)
    (hidle : s.islandIdle d i = true) (hnot : (dieCode d, i) ∉ s.bists) :
    exec (.bistRun d) s = .next { s.bistMarked d i with bists := s.bists ++ [(dieCode d, i)] } := by
  have he : exec (.bistRun d) s = execBistRun d s := rfl
  rw [he, execBistRun, actD_of_liveOn hd]
  dsimp only
  rw [← hsel, if_neg (by simp [hidle, hnot, hi])]
  rfl

/-- The last island of a die under full BIST ends it: BUSY falls, the summary follows, and the page reports it. -/
theorem exec_bistComplete_of_last {i : Nat} {v : BitVec 64} {ok : Bool} (hd : s.LiveOn d) (hi : (dieCode d, i) ∈ s.bists)
    (hlast : ∀ e ∈ (s.bistEnd d i v ok).bists, e.1 ≠ dieCode d) :
    exec (.bistComplete d i v ok) s =
      .next ((((s.bistEnd d i v ok).setF (bistPg d) Reg.BIST_CMD_BUSY 0).bistSummary d).raise (bistPg d) 1) := by
  have he : exec (.bistComplete d i v ok) s = execBistComplete d i v ok s := rfl
  have hnone : ((s.bistEnd d i v ok).bists.any fun e => e.1 == dieCode d) = false := by simpa using hlast
  rw [he, execBistComplete, actD_of_liveOn hd, if_pos (by simpa using hi)]
  simp [hnone]

/-- The armed control of a page, a correctable error being its kind, counts one in the structure that it names. -/
theorem exec_injArm_of_correctable {pg : Page} (hd : s.LiveOn pg.die) (hp : s.liveTest pg = true) (hk : s.getF pg Reg.INJ_KIND = 1) :
    exec (.injArm pg) s = .next ((s.setF pg Reg.INJ_ARM 0).countCorr pg.die (s.injTarget pg)) := by
  have he : exec (.injArm pg) s = execInjArm pg s := rfl
  rw [he, execInjArm, actD_of_liveOn hd]
  simp [hp, hk]

/-- A targeted test that a page runs, and that passes, no failure being armed, is counted and changes nothing else. -/
theorem exec_tstRun_passed {pg : Page} (hd : s.LiveOn pg.die) (hp : s.liveTest pg = true)
    (hon : structOn pg.die (s.injTarget pg) = true) (ha : s.armedFail pg.die (structPlace pg.die (s.injTarget pg)).2 = false) :
    exec (.tstRun pg true) s = .next ((s.setF pg Reg.TST_RUN 0).bump (bistPg pg.die) Reg.BIST_TST_RUNS) := by
  have he : exec (.tstRun pg true) s = execTstRun pg true s := rfl
  rw [he, execTstRun, actD_of_liveOn hd]
  simp [hp, hon, ha]

end Errors

end Sys2Proof.Machine

namespace Sys2Proof

open Sys2Proof.Machine

/-- Settles O27: each command has its rule above; of those of arrays, the ends of tests rest on what `passTest` and `failTest` do to the
array's isolation and to the live mask, which no update of the log, the ledger or the BIST page touches. -/
theorem errorsAndTests : Obligations.ErrorsAndTests := by
  unfold Obligations.ErrorsAndTests
  refine ⟨fun d e a w r s => exec_arrayDetectedError_of_quiet, fun d e a r s => exec_arrayClearDone_of_clean,
    fun d e a u r s => exec_targetedSelfTestDone_array_passed, fun d e a u s => exec_targetedSelfTestDone_array_failed,
    fun d st s => exec_transientLimit_of_limit, fun d st pa s hd hon => ?_, fun h pa s hs hh hheld => ?_, fun d i s hd hsel hi hidle hnot => ?_,
    fun d i v ok s u hd hi hu => ?_, fun pg s => exec_injArm_of_correctable, fun pg s => exec_tstRun_passed⟩
  · exact ⟨exec_errorDetected_of_structOn hd hon .corrected pa, exec_errorDetected_of_structOn hd hon .transient pa,
      exec_errorDetected_of_structOn hd hon .fatal pa⟩
  · exact ⟨exec_writeLost_hart hs hh hheld pa false, exec_writeLost_hart hs hh hheld pa true⟩
  · exact ⟨_, exec_bistRun_of_idle hd hsel hi hidle hnot, rfl,
      (State.getF_congr (s.bistMarked d i) _ _ _ _ rfl rfl).trans (s.bistMarked_busy d i)⟩
  · subst hu
    exact exec_bistComplete_of_last hd hi

end Sys2Proof

/-! PROOFS. Accesses outside the requester's compartment (R209, R440, R495, R604). -/

namespace Sys2Proof.Machine

namespace State

variable {s : State} {a n c p : Nat}

/-- Device memory and the cisterns: what the owner records and the map guard (R56, R57, R209). -/
def Guarded (s : State) (a : Nat) : Prop := s.memoryAt a ∨ ∃ d e off, s.locate a = .cistern d e off

/-! ### Pages of another compartment (R209, R495) -/

/-- An owner is one of the 64 compartments (R492). -/
theorem memOwner_lt (h : s.memOwner p = some c) : c < 64 := by
  have own (k i : Nat) (hk : (if s.owner k i < 64 then some (s.owner k i) else none) = some c) : c < 64 := by
    split at hk
    · cases hk; assumption
    · cases hk
  unfold memOwner at h
  dsimp only at h
  split at h
  · exact own _ _ h
  · exact own _ _ h
  · exact own _ _ h
  · split at h
    · cases h
    · cases h; exact bitsOf_lt _ 11 6
  · cases h

/-- A unit reaches pages of its own compartment only. -/
theorem memOwner_of_unitReach (h : s.unitReach c p = true) : s.memOwner p = some c := by
  unfold unitReach at h
  split at h <;> simp_all

/-- A range with a page of another compartment is out of reach. -/
theorem memReach_of_page (hp : p ∈ pagesIn a n) (ho : s.memOwner p ≠ some c) : s.memReach (some c) a n = false :=
  Bool.eq_false_iff.2 fun h => ho (memOwner_of_unitReach (List.all_eq_true.1 h p hp))

/-! ### Harts (R440, R604) -/

/-- Once the module is open, no tag of a hart reaches a range with a page that is not its compartment's; 64, the tag of a hart that has
none, owns nothing. -/
theorem memReach_hartTag_of_page {h : Nat} (hopen : s.getF mgmtPg Reg.MGMT_BOOT_OPEN = 1) (hp : p ∈ pagesIn a n)
    (ho : ∀ c, s.hartCpt h = some c → s.memOwner p ≠ some c) : s.memReach (s.hartTag h) a n = false := by
  have htag : s.hartTag h = some ((s.hartCpt h).getD 64) := by simp [hartTag, hopen]
  rw [htag]
  refine memReach_of_page hp ?_
  cases hc : s.hartCpt h with
  | none => exact fun h64 => absurd (memOwner_lt h64) (by decide)
  | some c => exact ho c hc

/-- An access of a hart that runs to memory or a cistern out of its reach faults. -/
theorem exec_hartAccess_of_unreached {h : Nat} (hh : s.HartRuns h) (hn : n ≠ 0) {op : HartOp} {b : Bytes}
    (hb : b.length = n ∨ opWrites op = false) (hg : s.Guarded a) (hr : s.memReach (s.hartTag h) a n = false) :
    exec (.hartAccess h op a n b) s = .next (s.hartFault h) := by
  have he : exec (.hartAccess h op a n b) s = execHartAccess h op a n b s := rfl
  obtain ⟨h96, hheld, hdebug, hfrozen, hmain, hdie, hstandby⟩ := hh
  have hsane : (decide (h < 96) && n != 0 && (b.length == n || !opWrites op)) = true := by simp [h96, hn, hb]
  have hm : s.hartMemory h (s.hartTag h) op a n b = s.hartFault h := by simp [hartMemory, hr]
  have hc : s.hartCistern h (s.hartTag h) op a n b = s.hartFault h := by simp [hartCistern, hr]
  rw [he, execHartAccess]
  obtain (hl | hl | ⟨l, hl⟩) | ⟨d, e, off, hl⟩ := hg <;>
    simp [hsane, hheld, hdebug, hfrozen, hmain, hdie, Nat.not_le.2 hstandby, hl, hm, hc]

/-! ### PCIe (R587) -/

theorem Guarded.not_isWord (hg : s.Guarded a) : s.isWord a = false := by
  obtain (hl | hl | ⟨l, hl⟩) | ⟨d, e, off, hl⟩ := hg <;> simp [isWord, hl]

/-- Inbound requests have no reach over a range with a page that is not CPT_CFG.PCIE's. -/
theorem pcieMem_of_page (hp : p ∈ pagesIn a n) (ho : s.memOwner p ≠ some (s.getF cptPg Reg.CPT_CFG_PCIE)) : s.pcieMem a n = false :=
  memReach_of_page hp ho

theorem exec_pcieInboundRead_of_unreached (hup : s.pcieUp = true) (hs : s.Live) (hn : n ≠ 0) (hend : a + n ≤ 0x200000000000)
    (hg : s.Guarded a) (hr : s.pcieMem a n = false) : exec (.pcieInboundRead 2 a n) s = .next (s.answer .pcie .unsupported) := by
  have he : exec (.pcieInboundRead 2 a n) s = execPcieInboundRead 2 a n s := rfl
  have hread : s.pcieRead a n = s.answer .pcie .unsupported := by simp [pcieRead, hr]
  rw [he, execPcieInboundRead]
  simp [hup, hn, barPa, hend, hg.not_isWord, show s.stopped = false from hs, hread]

theorem exec_pcieInboundWrite_of_unreached {b : Bytes} (hup : s.pcieUp = true) (hs : s.Live) (hb : b ≠ [])
    (hend : a + b.length ≤ 0x200000000000) (hg : s.Guarded a) (hr : s.pcieMem a b.length = false) :
    exec (.pcieInboundWrite 2 a b) s = .next (s.answer .pcie .unsupported) := by
  have he : exec (.pcieInboundWrite 2 a b) s = execPcieInboundWrite 2 a b s := rfl
  have hwrite : s.pcieWrite a b = s.answer .pcie .unsupported := by simp [pcieWrite, hr]
  rw [he, execPcieInboundWrite]
  simp [hup, hb, barPa, hend, hg.not_isWord, show s.stopped = false from hs, hwrite]

end State

end Sys2Proof.Machine

namespace Sys2Proof

open Sys2Proof.Machine

/-- Settles O54: one page of another compartment makes the range unreached (`memReach_of_page`), which every path of an access to memory
or a cistern tests before anything else. -/
theorem compartmentsAreApart : Obligations.CompartmentsAreApart := by
  unfold Obligations.CompartmentsAreApart
  refine ⟨fun h op pa n b s hh hn hb hopen hg ⟨p, hp, ho⟩ => ?_, fun pa n s hup hs hn hend hg ⟨p, hp, ho⟩ => ?_,
    fun pa b s hup hs hb hend hg ⟨p, hp, ho⟩ => ?_⟩
  · exact State.exec_hartAccess_of_unreached hh hn hb hg (State.memReach_hartTag_of_page hopen hp ho)
  · exact State.exec_pcieInboundRead_of_unreached hup hs hn hend hg (State.pcieMem_of_page hp ho)
  · exact State.exec_pcieInboundWrite_of_unreached hup hs hb hend hg (State.pcieMem_of_page hp ho)

end Sys2Proof

/-! PROOFS. What reset leaves (R207, R439, R467, R492, R522, R582, R602). -/

namespace Sys2Proof.Machine

/-- A word of the common header, but PAGE_ID and PAGE_CAP, holds the reset column of R522 on every page that is not fused off. -/
theorem resetWord_header {fz : Fuses} {pg : Page} {off : Nat} (b : Nat) (hf : pageFused fz pg = false) (h0 : off ≠ 0) (h8 : off ≠ 8)
    (hoff : off < 0x40) :
    resetWord fz pg off b = ((RegMap.header.find? fun r => r.off == off).map RegRow.reset).getD 0 := by
  have hne {x : Nat} (hx : 0x40 ≤ x) : off ≠ x := by omega
  unfold resetWord
  simp only [rowAt, if_pos hoff, hf, beq_iff_eq, h0, h8, if_false, Bool.false_eq_true]
  cases pg.blk <;> simp [hne]

namespace State

/-! ### Reset: nothing has been written -/

theorem reset_word (pg : Page) (off b : Nat) : State.reset.word pg off b = resetWord State.reset.fuses pg off b := rfl

theorem reset_entry (l : Nat) : State.reset.entry l = 3 := rfl

theorem reset_owner (k i : Nat) : State.reset.owner k i = 0x7F ∨ State.reset.owner k i = 0x7E := by
  unfold owner
  split
  · exact .inr rfl
  · split
    · exact .inr rfl
    · exact .inl rfl

/-- A page that is not fused off is enabled, unmasked and free of errors. -/
theorem reset_page {pg : Page} (hf : pageFused State.reset.fuses pg = false) :
    State.reset.getF pg Reg.PAGE_CTRL_ENABLE = 1 ∧ State.reset.word pg 0x20 = 0 ∧ State.reset.word pg 0x24 = 0
      ∧ State.reset.word pg 0x30 = 0 := by
  have hw {off : Nat} (h0 : off ≠ 0) (h8 : off ≠ 8) (hoff : off < 0x40) := resetWord_header 0 hf h0 h8 hoff
  refine ⟨?_, hw (by decide) (by decide) (by decide), hw (by decide) (by decide) (by decide), hw (by decide) (by decide) (by decide)⟩
  rw [getF, reset_word, hw (by decide) (by decide) (by decide)]
  rfl

/-- Main power is off, the auxiliary path on, and the start stands at stage 0, not open (R582, R602). -/
theorem reset_power : State.reset.stopped = true ∧ State.reset.AuxOn ∧ State.reset.getF mgmtPg Reg.MGMT_BOOT_STAGE = 0
    ∧ State.reset.getF mgmtPg Reg.MGMT_BOOT_OPEN = 0 := by decide

end State

end Sys2Proof.Machine

namespace Sys2Proof

open Sys2Proof.Machine

/-- Settles O49: every part of the state is empty at reset, so that its readers see their defaults, and every word its reset column. -/
theorem resetHolds : Obligations.ResetHolds := by
  unfold Obligations.ResetHolds
  obtain ⟨hstop, haux, hstage, hopen⟩ := State.reset_power
  exact ⟨rfl, hstop, haux, hstage, hopen, rfl, rfl, rfl, State.reset_entry, State.reset_owner, fun _ => rfl, fun _ => rfl, fun _ _ => rfl,
    fun _ hf _ => State.reset_page hf⟩

end Sys2Proof

/-! PROOFS. The map entries of lots, and what the placement unit's updates do to the placement (R207, R217 to R235). -/

namespace Sys2Proof.Machine

/-- What stands at a key of a map whose values have been changed one by one. -/
theorem SMap.find_map_value {α β : Type} (f : Nat × α → β) (k : Nat) : ∀ m : SMap α,
    SMap.find (m.map fun e => (e.1, f e)) k = (SMap.find m k).map fun v => f (k, v)
  | [] => rfl
  | (a, v) :: m => by
    by_cases h : k = a
    · subst h; simp [SMap.find]
    · simpa [SMap.find, h] using SMap.find_map_value f k m

namespace State

variable (s : State) (pg : Page) (l k : Nat)

/-! ### Updates that leave the placement as it is -/

@[simp] theorem watermark_place (off : Nat) (above : Bool) : (s.watermark pg off above).place = s.place := by
  unfold watermark
  dsimp only
  repeat' split
  all_goals simp

@[simp] theorem plcMarks_place : (s.plcMarks k).place = s.place := by simp [plcMarks]

theorem ChanOnly.place {s t : State} (h : ChanOnly s t) : t.place = s.place := by
  obtain ⟨⟨c, r, rfl⟩, -⟩ := h
  rfl

@[simp] theorem noteUe_place (w : Cw) (pa : Nat) : (s.noteUe w pa).place = s.place := rfl

@[simp] theorem noteLotUe_place : (s.noteLotUe l).place = s.place := by
  refine List.foldlRecOn (motive := fun t : State => t.place = s.place) _ _ rfl fun t ht b _ => ?_
  split
  · exact (noteUe_place _ _ _).trans ht
  · exact ht

@[simp] theorem whcProgram_place (nd bytes host : Nat) : (s.whcProgram nd bytes host).place = s.place := rfl

/-! ### Entries (R207) -/

theorem entry_of_place {s t : State} (h : t.place = s.place) (l : Nat) : t.entry l = s.entry l := by simp only [entry, h]

@[simp] theorem entry_setEntry_same (v : Nat) : (s.setEntry l v).entry l = v := by simp [entry, setEntry, SMap.getD_putD]

theorem lotTier_of_place {s t : State} (h : t.place = s.place) (l : Nat) : t.lotTier l = s.lotTier l := by
  simp only [lotTier, entry_of_place h]

theorem lotDirty_of_place {s t : State} (h : t.place = s.place) (l : Nat) : t.lotDirty l = s.lotDirty l := by
  simp only [lotDirty, entry_of_place h]

theorem lotWay_of_place {s t : State} (h : t.place = s.place) (l : Nat) : t.lotWay l = s.lotWay l := by
  simp only [lotWay, entry_of_place h]

theorem lotAge_lt : s.lotAge l < 256 := bitsOf_lt _ 3 8

theorem place1_of_place {s t : State} (h : t.place = s.place) (l tier : Nat) (dirty : Bool) (age way : Nat) :
    (t.place1 l tier dirty age way).place = (s.place1 l tier dirty age way).place := by
  simp only [place1, setEntry, lotOwner, lotGen, entry_of_place h, h]

section Place1

variable {tier : Nat} (ht : tier < 4) (dirty : Bool) (age way : Nat)
include ht

theorem lotTier_place1 : (s.place1 l tier dirty age way).lotTier l = tier := by
  simp only [lotTier, place1, entry_setEntry_same, bitsOf, Nat.shiftLeft_eq, Nat.shiftRight_eq_div_pow]
  omega

theorem lotDirty_place1 : (s.place1 l tier dirty age way).lotDirty l = dirty := by
  simp only [lotDirty, place1, entry_setEntry_same, Nat.testBit_eq_decide_div_mod_eq, Nat.shiftLeft_eq]
  cases dirty <;> simp <;> omega

theorem lotWay_place1 {age way : Nat} (ha : age < 256) (hw : way < 8192) : (s.place1 l tier dirty age way).lotWay l = way := by
  have ho : s.lotOwner l < 64 := bitsOf_lt _ 11 6
  have hg : s.lotGen l < 4 := bitsOf_lt _ 17 2
  have hd : dirty.toNat < 2 := Bool.toNat_lt dirty
  simp only [lotWay, place1, entry_setEntry_same, bitsOf, Nat.shiftLeft_eq, Nat.shiftRight_eq_div_pow]
  omega

end Place1

/-! ### Frames taken and left (R219, R223) -/

/-- A lot that leaves for the warehouse has an entry with TIER 2. -/
theorem toWarehouse_place : (s.toWarehouse l).place = (s.place1 l 2 false (s.lotAge l) 0).place := by simp [toWarehouse]

/-- A lot takes its frame with the age asked for, or with another one where no more lots may be pinned. -/
theorem takeFrame_place (tier : Nat) {age : Nat} (ha : age < 256) (dirty : Bool) (way : Nat) :
    ∃ a < 256, (s.takeFrame l tier age dirty way).place = (s.place1 l tier dirty a way).place := by
  simp only [takeFrame, plcMarks_place]
  split
  · exact ⟨0, by decide, place1_of_place rfl _ _ _ _ _⟩
  · exact ⟨age, ha, rfl⟩

theorem caravanAge_lt : s.caravanAge l < 256 := by
  unfold caravanAge
  split <;> decide

/-! ### Ageing (R217) -/

/-- A map entry after an age step of placement unit `k`. -/
def agedEntry (l v : Nat) : Nat :=
  if bitsOf v 0 2 < 2 && plcOf l == k && bitsOf v 3 8 != 0xFF then
    putBits v 3 8 (if s.place.touched.contains l then 0 else min 0xFE (bitsOf v 3 8 + 1))
  else v

/-- The state after an age step of placement unit `k`. -/
def aged : State :=
  { s with place := { s.place with
      map := s.place.map.map fun e => (e.1, s.agedEntry k e.1 e.2)
      touched := s.place.touched.filter fun l => !(plcOf l == k)
      ageAt := SMap.put s.place.ageAt k s.base } }

/-- The map lists every lot that is resident. -/
theorem find_of_lotTier_lt {s : State} {l : Nat} (h : s.lotTier l < 2) : SMap.find s.place.map l = some (s.entry l) := by
  cases hf : SMap.find s.place.map l with
  | none =>
    have h3 : s.lotTier l = 3 := by simp [lotTier, entry, SMap.getD, hf, bitsOf]
    omega
  | some v => simp [entry, SMap.getD, hf]

theorem entry_aged {s : State} {l : Nat} (h : s.lotTier l < 2) : (s.aged k).entry l = s.agedEntry k l (s.entry l) := by
  have hfind : SMap.find (s.aged k).place.map l = some (s.agedEntry k l (s.entry l)) := by
    simp only [aged, SMap.find_map_value, find_of_lotTier_lt h, Option.map_some]
  rw [entry, SMap.getD, hfind]
  rfl

/-- A resident lot of the unit that is not pinned has age 0 after a touch, and has grown older by one step up to 0xFE else. -/
theorem lotAge_aged {s : State} {k l : Nat} (ht : s.lotTier l < 2) (hk : plcOf l = k) (ha : s.lotAge l ≠ 0xFF) :
    (s.aged k).lotAge l = if s.place.touched.contains l then 0 else min 0xFE (s.lotAge l + 1) := by
  have ht' : bitsOf (s.entry l) 0 2 < 2 := ht
  have ha' : bitsOf (s.entry l) 3 8 ≠ 0xFF := ha
  have haged : s.agedEntry k l (s.entry l)
      = putBits (s.entry l) 3 8 (if s.place.touched.contains l then 0 else min 0xFE (s.lotAge l + 1)) := by
    simp [agedEntry, ht', hk, ha', lotAge]
  rw [lotAge, entry_aged k ht, haged, bitsOf_putBits]
  split <;> omega

/-! ### Caravans (R231 to R235) -/

/-- A fold that passes over done entries collects them and changes nothing else. -/
theorem foldl_of_done {σ κ : Type} {f : σ × List Nat × κ → Nat → σ × List Nat × κ}
    (hf : ∀ acc e, entSt e = 2 → f acc e = (acc.1, acc.2.1 ++ [e], acc.2.2)) : ∀ (es : List Nat) (acc : σ × List Nat × κ),
    (∀ e ∈ es, entSt e = 2) → es.foldl f acc = (acc.1, acc.2.1 ++ es, acc.2.2)
  | [], acc, _ => by simp
  | e :: es, acc, h => by
    obtain ⟨he, hes⟩ := List.forall_mem_cons.1 h
    simp [hf acc e he, foldl_of_done hf es _ hes]

/-- A caravan all of whose lots are done takes none further. -/
theorem stepCaravan_of_done (v : Nat × Nat × Nat) {x : Desc} (h : ∀ e ∈ x.aux, entSt e = 2) : s.stepCaravan v x = (s, x.aux) := by
  rw [stepCaravan, foldl_of_done _ _ _ h]
  · rfl
  · intro acc e he
    simp [he]

end State

end Sys2Proof.Machine

/-! PROOFS. The commands of the placement unit (R215 to R234, R244). -/

namespace Sys2Proof.Machine

section Placement

variable {s : State} {l way : Nat}

/-- An age step comes about once a millisecond of a unit that runs (R217). -/
theorem exec_ageStep_of_due {k : Nat} (hs : s.Live) (hk : k < 4) (hr : s.runs (State.plcDie k) = true)
    (hdue : SMap.getD s.place.ageAt k 0 + 1000000 ≤ s.base) : exec (.ageStep k) s = .next (s.aged k) := by
  have he : exec (.ageStep k) s = execAgeStep k s := rfl
  rw [he, execAgeStep, act_of_live hs]
  simp only [hk, hr, hdue, decide_true, Bool.and_self, if_true]
  rfl

/-- A bucket that no lot waits for, below PLC_LOW free frames and with no foreground request in its tier, gives up the lot chosen
(R219, R220). -/
theorem exec_evictAhead_of_low {near : Bool} {b tier : Nat} (htier : tier = if near then 0 else 1) (hs : s.Live)
    (hb : b < s.buckets tier) (hr : s.runs (plcPgOf b) = true) (hw : s.waitingFor tier b = []) (hf : s.foregroundWaits tier = false)
    (hlow : s.freeFor tier b 64 < s.getF (plcPgOf b) Reg.PLC_LOW_FRAMES) (hv : s.victim tier b 64 = some l) :
    exec (.evictAhead near b way) s = .next (s.evict tier l way) := by
  have he : exec (.evictAhead near b way) s = execEvictAhead near b way s := rfl
  rw [he, execEvictAhead, act_of_live hs]
  simp only [← htier]
  simp [hb, hr, hw, hf, hlow, hv]

/-- A write-back of a lot that no descriptor holds ends with the lot in the warehouse and its home current (R219, R226). -/
theorem exec_writebackComplete_of_unheld (hs : s.Live) (hl : l ∈ s.place.writebacks) (hh : s.lotHeld l = false) :
    ∃ t, exec (.writebackComplete l) s = .next t ∧ t.lotTier l = 2 ∧ t.lotDirty l = false ∧ l ∉ t.place.writebacks
      ∧ l ∈ t.place.homed := by
  have he : exec (.writebackComplete l) s = execWritebackComplete l s := rfl
  rw [he, execWritebackComplete, act_of_live hs, if_pos (by simp [hl, hh])]
  refine ⟨_, rfl, ?_⟩
  dsimp only
  generalize hu : State.bump _ (plcPg l) Reg.PLC_WRITEBACKS = u
  have hp := (State.whcProgram_place (u.toWarehouse l) (Config.homeOnN1 l).toNat 0x10000 0x10000).trans (State.toWarehouse_place u l)
  refine ⟨?_, ?_, ?_, ?_⟩
  · rw [State.lotTier_of_place hp, State.lotTier_place1 _ _ (by decide)]
  · rw [State.lotDirty_of_place hp, State.lotDirty_place1 _ _ (by decide)]
  · rw [hp, ← hu]
    simp [State.place1, State.setEntry, State.homeNow]
  · rw [hp, ← hu]
    simp only [State.place1, State.setEntry, State.homeNow, State.bump_place]
    split
    · rename_i h; simpa using h
    · simp

/-- A page-in that finds a free frame at its goal arrives, and what waited for it goes on (R215, R228, R229). -/
theorem exec_pageInComplete_of_free {p : PageIn} (hs : s.Live) (hp : (s.place.pageins.find? fun p => p.lot == l) = some p)
    (hfree : 0 < s.freeFor (s.pageAim p).1 (s.bucketOf (s.pageAim p).1 l) (s.lotOwner l))
    (hway : s.wayFree (s.pageAim p).1 (s.bucketOf (s.pageAim p).1 l) way = true) :
    exec (.pageInComplete l way) s = .next (s.arrive p way).serveStalls := by
  have he : exec (.pageInComplete l way) s = execPageInComplete l way s := rfl
  rw [he, execPageInComplete, act_of_live hs]
  simp [hp, hfree, hway]

/-- A move commits: the lot stands in its new frame, as dirty as it was, before the accesses that waited go on (R231, R234). -/
theorem exec_lotMoveCommit_of_move {m : LotMove} (hs : s.Live) (hm : (s.place.moves.find? fun m => m.lot == l) = some m)
    (ht : m.tier < 2) (hw : m.way < 8192) :
    ∃ t : State, exec (.lotMoveCommit l) s = .next t.serveStalls ∧ t.lotTier l = m.tier ∧ t.lotWay l = m.way
      ∧ t.lotDirty l = s.lotDirty l ∧ t.lotMoving l = false := by
  have he : exec (.lotMoveCommit l) s = execLotMoveCommit l s := rfl
  rw [he, execLotMoveCommit, act_of_live hs]
  simp only [hm]
  refine ⟨_, rfl, ?_⟩
  generalize hu : ({ s.noteLotUe l with place :=
    { (s.noteLotUe l).place with moves := (s.noteLotUe l).place.moves.filter fun v => v.lot != l } } : State) = u
  have hage : (if m.caravan = true then (s.noteLotUe l).caravanAge l else (s.noteLotUe l).lotAge l) < 256 := by
    split
    · exact State.caravanAge_lt _ _
    · exact State.lotAge_lt _ _
  have hdirty : (s.noteLotUe l).lotDirty l = s.lotDirty l := State.lotDirty_of_place (s.noteLotUe_place l) l
  obtain ⟨a, ha, hp⟩ := u.takeFrame_place l m.tier hage ((s.noteLotUe l).lotDirty l) m.way
  rw [hdirty] at hp ⊢
  generalize u.takeFrame l m.tier _ _ m.way = v at hp ⊢
  have hfin (down : Bool) : (if down = true then (v.plcMarks (State.plcOf l)).bump (plcPg l) Reg.PLC_EVICT_DOWN
      else v.plcMarks (State.plcOf l)).place = (u.place1 l m.tier (s.lotDirty l) a m.way).place := by
    split <;> simp [hp]
  have ht4 : m.tier < 4 := by omega
  refine ⟨?_, ?_, ?_, ?_⟩
  · rw [State.lotTier_of_place (hfin _), State.lotTier_place1 _ _ ht4]
  · rw [State.lotWay_of_place (hfin _), State.lotWay_place1 _ _ ht4 _ ha hw]
  · rw [State.lotDirty_of_place (hfin _), State.lotDirty_place1 _ _ ht4]
  · rw [State.lotMoving, hfin, ← hu]
    simp [State.place1, State.setEntry]

section Migrate

variable {d : Die} {n q : Nat} {x : Desc}

/-- A placement unit that runs on one of its dies is not stopped as a whole. -/
theorem State.plc_not_all_stopped {s : State} (h : ∃ k < 4, s.runs (State.plcDie k) = true) :
    (!s.runs (State.plcDie 0) && !s.runs (State.plcDie 1) && !s.runs (State.plcDie 2) && !s.runs (State.plcDie 3)) = false := by
  obtain ⟨k, hk, hr⟩ := h
  obtain rfl | rfl | rfl | rfl : k = 0 ∨ k = 1 ∨ k = 2 ∨ k = 3 := by omega
  all_goals simp only [hr, Bool.not_true, Bool.false_and, Bool.and_false]

/-- A caravan with a good list keeps its entries, each pending with the lot's GEN, and joins those that have reached the unit (R230,
R235). -/
theorem exec_migrate_of_start (hx : s.RunningDesc d n q 0x11 x) (ha : x.aux = []) (hr : ∃ k < 4, s.runs (State.plcDie k) = true)
    (hbad : s.badV x.pins (x.addr 16) (4 * x.f 24 0 13) = false) (hlist : s.badEntry (s.ctxCpt d n) (s.lotList x) = none) :
    exec (.migrate d n q) s =
      .next (((s.touchV x.pins (x.addr 16) (4 * x.f 24 0 13)).joinCaravans (State.streamKey d n, q, x.seq)).updDesc d n q fun y =>
        { y with aux := (s.lotList x).map fun e => State.mkEntry e (s.lotGen e) 0 }) := by
  have he : exec (.migrate d n q) s = execMigrate d n q s := rfl
  rw [he, execMigrate, actD_of_liveOn hx.1, State.withRunning_of_running hx]
  simp [State.plc_not_all_stopped hr, ha, hbad, hlist]

/-- A caravan whose lots are all done ends (R232). -/
theorem exec_migrate_of_done (hx : s.RunningDesc d n q 0x11 x) (ha : x.aux ≠ []) (hr : ∃ k < 4, s.runs (State.plcDie k) = true)
    (hdone : ∀ e ∈ x.aux, State.entSt e = 2) : ∃ t, exec (.migrate d n q) s = .next t ∧ t.Ended d n q stOk := by
  have he : exec (.migrate d n q) s = execMigrate d n q s := rfl
  obtain ⟨hl, hd, -⟩ := id hx
  rw [he, execMigrate, actD_of_liveOn hl, State.withRunning_of_running hx]
  simp only [State.plc_not_all_stopped hr, State.stepCaravan_of_done s _ hdone, List.isEmpty_eq_false_iff.2 ha, Bool.false_eq_true, if_false]
  rw [if_pos (by simpa using hdone)]
  exact ⟨_, rfl, State.finish_ended _ _ (by decide) (State.desc?_updDesc_same _ (fun _ => rfl) hd)⟩

end Migrate

/-- The lot that a query names (R244). -/
theorem exec_plcQueryLot_of_live {k : Nat} (v : W32) (hs : s.Live) (hk : k < 4) :
    exec (.plcQueryLot k v) s = .next (s.setF (State.plcDie k) Reg.PLC_QUERY_LOT_LOT v.toNat) := by
  have he : exec (.plcQueryLot k v) s = execPlcQueryLot k v s := rfl
  rw [he, execPlcQueryLot, act_of_live hs, if_pos hk]

end Placement

end Sys2Proof.Machine

namespace Sys2Proof

open Sys2Proof.Machine

/-- Settles O16: each command has its rule above; those of write-backs and moves rest on what `place1` makes of the lot's map entry, which
no count, watermark or error note touches. -/
theorem placementMoves : Obligations.PlacementMoves := by
  unfold Obligations.PlacementMoves
  refine ⟨fun k s hs hk hr hdue => ⟨_, exec_ageStep_of_due hs hk hr hdue, fun l => State.lotAge_aged⟩,
    fun near b way l s => exec_evictAhead_of_low rfl, fun l s => exec_writebackComplete_of_unheld,
    fun l way p s => exec_pageInComplete_of_free, fun l m s => exec_lotMoveCommit_of_move, fun d n q x s => exec_migrate_of_start,
    fun d n q x s => exec_migrate_of_done, fun k v s => exec_plcQueryLot_of_live v⟩

end Sys2Proof

/-! PROOFS. What writes of device memory and records leave of the pool manager's books and of the event log (R236, R237, R621). -/

namespace Sys2Proof.Machine.State

/-- What the pool manager keeps of buffers: those that live, the generations of their indexes, and the indexes freed (R236). -/
def poolBook (s : State) : SMap Buf × SMap Nat × List Nat := (s.place.bufs, s.place.gens, s.place.freed)

theorem poolBook_of_place {s t : State} (h : t.place = s.place) : t.poolBook = s.poolBook := by simp only [poolBook, h]

variable (s : State)

/-! ### Writes of device memory -/

@[simp] theorem setEntry_poolBook (l v : Nat) : (s.setEntry l v).poolBook = s.poolBook := rfl

@[simp] theorem touchLot_poolBook (l : Nat) (wr : Bool) : (s.touchLot l wr).poolBook = s.poolBook := by
  cases wr with
  | false => rfl
  | true =>
    simp only [touchLot, if_true]
    split <;> simp only [poolBook, setEntry]

@[simp] theorem wrBytes_poolBook (a : Nat) (bs : Bytes) : (s.wrBytes a bs).poolBook = s.poolBook :=
  List.foldlRecOn (motive := fun t : State => t.poolBook = s.poolBook) _ _ (poolBook_of_place (noteWrites_chanOnly s a bs.length).place)
    fun _ ht _ _ => (touchLot_poolBook _ _ _).trans ht

@[simp] theorem wrNat_poolBook (a v n : Nat) : (s.wrNat a v n).poolBook = s.poolBook := wrBytes_poolBook s a _

@[simp] theorem wrBytes_log (a : Nat) (bs : Bytes) : (s.wrBytes a bs).log = s.log := by
  obtain ⟨u, p, ⟨⟨c, r, rfl⟩, -⟩, h⟩ := wrBytes_eq s a bs
  rw [h]

@[simp] theorem drawFree_poolBook : s.drawFree.2.poolBook = s.poolBook := rfl
@[simp] theorem drawFree_log : s.drawFree.2.log = s.log := rfl

/-! ### Records of a pool queue (R185, R237) -/

@[simp] theorem poolRecord_poolBook (c slot seq st pos : Nat) : (s.poolRecord c slot seq st pos).poolBook = s.poolBook := by
  unfold poolRecord
  dsimp only
  split
  · rfl
  · rw [drawFree_poolBook, wrBytes_poolBook]

@[simp] theorem poolRecord_log (c slot seq st pos : Nat) : (s.poolRecord c slot seq st pos).log = s.log := by
  unfold poolRecord
  dsimp only
  split
  · rfl
  · rw [drawFree_log, wrBytes_log]

@[simp] theorem poolDone_poolBook (c st pos : Nat) : (s.poolDone c st pos).poolBook = s.poolBook := by
  unfold poolDone
  split
  · exact poolRecord_poolBook _ _ _ _ _ _
  · rfl

@[simp] theorem poolDone_log (c st pos : Nat) : (s.poolDone c st pos).log = s.log := by
  unfold poolDone
  split
  · exact poolRecord_log _ _ _ _ _ _
  · rfl

/-- The live buffers after a request is done are those from before. -/
theorem poolDone_bufs (c st pos : Nat) : (s.poolDone c st pos).place.bufs = s.place.bufs :=
  congrArg (·.1) (poolDone_poolBook s c st pos)

/-! ### Buffers -/

theorem foldl_setEntry_bufs (v : State → Nat → Nat) (ls : List Nat) :
    (ls.foldl (fun t l => t.setEntry l (v t l)) s).place.bufs = s.place.bufs :=
  List.foldlRecOn (motive := fun t : State => t.place.bufs = s.place.bufs) _ _ rfl fun _ ht _ _ => ht

/-- A buffer that comes to life is listed at its index (R210, R238). -/
theorem makeBuffer_bufs (c idx : Nat) (b : Buf) : (s.makeBuffer c idx b).place.bufs = SMap.put s.place.bufs (c * 2 ^ 18 + idx) b := by
  unfold makeBuffer
  dsimp only
  split
  · rfl
  · rw [foldl_setEntry_bufs _ fun t l => 2 + c <<< 11 + t.lotGen l <<< 17]

/-! ### Refused handles (R239, R621) -/

theorem refuseHandle_poolBook (c st seq : Nat) : (s.refuseHandle c st seq).poolBook = s.poolBook := by
  rw [refuseHandle, poolDone_poolBook]
  exact poolBook_of_place (logRec_place _ _)

/-- A log with room takes a record at its end. -/
theorem logRec_log_of_room {s : State} (h : s.log.length < 65536) (r : ErrRec) :
    (s.logRec r).log = s.log ++ [{ r with time := s.timeNs }] := by
  simp [logRec, h]

/-- The newest record of a log with room names a refused handle's status and compartment. -/
theorem refuseHandle_log {s : State} (h : s.log.length < 65536) (c st seq : Nat) :
    ∃ r, (s.refuseHandle c st seq).log = s.log ++ [r] ∧ r.cls = .refusal ∧ r.status = st ∧ r.reqCpt = c := by
  rw [refuseHandle, poolDone_log]
  exact ⟨_, logRec_log_of_room (s := s.bump _ _) h _, rfl, rfl, rfl⟩

end Sys2Proof.Machine.State

/-! PROOFS. ALLOC, FREE and SET_PLACEMENT (R236 to R242). -/

namespace Sys2Proof.Machine

section Pool

variable {s : State} {c k raw op : Nat}

/-- On the request in hand of a queue that runs, its operation comes about. -/
theorem State.withReq_of_has (h : s.PoolHas c op k raw) (f : Nat → State) : s.withReq c op f = f raw := by
  obtain ⟨-, hreq, hop, hruns, hfree⟩ := h
  simp [State.withReq, hreq, hop, hruns, hfree]

/-- An ALLOC that is good and finds its range free makes its buffer live, with the index's generation (R236 to R238). -/
theorem exec_alloc_of_free {base idx : Nat} (h : s.PoolHas c 1 k raw)
    (hstride : reqF raw 12 0 2 = 1 → strideOk (reqF raw 24 0 12) = true) (hroom : (s.liveBufs c).length < 262144)
    (hsome : ∃ a ∈ s.candidates c (reqF raw 12 0 2), s.rangeFree c (reqF raw 12 0 2) a (allocBytes raw) = true)
    (hfree : s.rangeFree c (reqF raw 12 0 2) base (allocBytes raw) = true) (hidx : s.indexOk c idx = true)
    (hgood : s.badIn (s.poolBase c + 64 * k) 64 = false) :
    ∃ t, exec (.alloc c base idx) s = .next t ∧ SMap.find t.place.bufs (c * 2 ^ 18 + idx) =
      some ⟨base, allocBytes raw, reqF raw 12 0 2, reqF raw 14 0 3, reqF raw 13 0 3, SMap.getD s.place.gens (c * 2 ^ 18 + idx) 0⟩ := by
  have he : exec (.alloc c base idx) s = execAlloc c base idx s := rfl
  obtain ⟨hlive, hreq, -⟩ := id h
  have hfit : ¬ ((reqF raw 12 0 2 == 1 && !strideOk (reqF raw 24 0 12)) || decide (262144 ≤ (s.liveBufs c).length)
      || !(s.candidates c (reqF raw 12 0 2)).any fun a => s.rangeFree c (reqF raw 12 0 2) a (allocBytes raw)) = true := by
    simpa [Nat.not_le.2 hroom] using ⟨hstride, hsome⟩
  rw [he, execAlloc, actD_of_liveOn hlive, State.withReq_of_has h]
  simp only [if_neg hfit, hfree, hidx, hreq, hgood, Bool.and_self, Bool.false_eq_true, if_true, if_false]
  refine ⟨_, rfl, ?_⟩
  rw [State.poolDone_bufs, State.makeBuffer_bufs, SMap.find_put_same]

/-- A FREE whose handle passes waits for the buffer's holders (R240). -/
theorem exec_free_of_ok (h : s.PoolHas c 2 k raw) (hok : s.handleCheck c (reqF raw 8 0 32) = stOk) :
    exec (.free c) s =
      .next { s with place := { s.place with freeing := SMap.put s.place.freeing c (reqF raw 8 0 32) } } := by
  have he : exec (.free c) s = execFree c s := rfl
  rw [he, execFree, actD_of_liveOn h.1, State.withReq_of_has h]
  simp [hok]

/-- A FREE of a buffer that no descriptor holds takes effect (R240). -/
theorem exec_freeComplete_of_unheld {v : Nat} {b : Buf} (hlive : s.LiveOn .C0) (hv : SMap.find s.place.freeing c = some v)
    (hb : SMap.find s.place.bufs (c * 2 ^ 18 + bitsOf v 0 18) = some b) (hheld : s.bufHeld b = false) :
    exec (.freeComplete c) s = .next (((s.freeBuffer c (bitsOf v 0 18) b).poolDone c stOk).serveStalls) := by
  have he : exec (.freeComplete c) s = execFreeComplete c s := rfl
  rw [he, execFreeComplete, actD_of_liveOn hlive]
  simp only [hv, hb, hheld, Bool.false_eq_true, if_false]

/-- A SET_PLACEMENT whose handle passes changes TARGET and HINT of its buffer (R242). -/
theorem exec_setPlacement_of_ok {b : Buf} (h : s.PoolHas c 3 k raw) (hok : s.handleCheck c (reqF raw 8 0 32) = stOk)
    (hb : SMap.find s.place.bufs (c * 2 ^ 18 + bitsOf (reqF raw 8 0 32) 0 18) = some b) (hkind : b.kind < 2 ∨ reqF raw 14 0 3 = 0) :
    ∃ t, exec (.setPlacement c) s = .next t ∧ SMap.find t.place.bufs (c * 2 ^ 18 + bitsOf (reqF raw 8 0 32) 0 18) =
      some { b with target := reqF raw 14 0 3, hint := reqF raw 13 0 3 } := by
  have he : exec (.setPlacement c) s = execSetPlacement c s := rfl
  have hgood : ¬ (decide (2 ≤ b.kind) && reqF raw 14 0 3 != 0) = true := by
    simp only [Bool.and_eq_true, decide_eq_true_eq, bne_iff_ne]
    omega
  rw [he, execSetPlacement, actD_of_liveOn h.1, State.withReq_of_has h]
  simp only [hok, hb, if_neg hgood, bne_self_eq_false, Bool.false_eq_true, if_false]
  exact ⟨_, rfl, by rw [State.poolDone_bufs]; exact SMap.find_put_same _ _ _⟩

/-! ### Refused handles (R239, R621) -/

theorem exec_free_of_refused (h : s.PoolHas c 2 k raw) (hbad : s.handleCheck c (reqF raw 8 0 32) ≠ stOk) :
    exec (.free c) s = .next (s.refuseHandle c (s.handleCheck c (reqF raw 8 0 32)) (bitsOf raw 32 32)) := by
  have he : exec (.free c) s = execFree c s := rfl
  rw [he, execFree, actD_of_liveOn h.1, State.withReq_of_has h]
  simp [hbad]

theorem exec_setPlacement_of_refused (h : s.PoolHas c 3 k raw) (hbad : s.handleCheck c (reqF raw 8 0 32) ≠ stOk) :
    exec (.setPlacement c) s = .next (s.refuseHandle c (s.handleCheck c (reqF raw 8 0 32)) (bitsOf raw 32 32)) := by
  have he : exec (.setPlacement c) s = execSetPlacement c s := rfl
  rw [he, execSetPlacement, actD_of_liveOn h.1, State.withReq_of_has h]
  simp [hbad]

/-- A refused handle changes no buffer, generation or freed index, and its record is the newest of a log with room. -/
theorem State.refuseHandle_keeps (s : State) (c st seq : Nat) :
    (s.refuseHandle c st seq).place.bufs = s.place.bufs ∧ (s.refuseHandle c st seq).place.gens = s.place.gens
      ∧ (s.refuseHandle c st seq).place.freed = s.place.freed
      ∧ (s.log.length < 65536 → ∃ r, (s.refuseHandle c st seq).log = s.log ++ [r] ∧ r.cls = .refusal ∧ r.status = st ∧ r.reqCpt = c) := by
  have hbook := s.refuseHandle_poolBook c st seq
  simp only [State.poolBook, Prod.mk.injEq] at hbook
  obtain ⟨hbufs, hgens, hfreed⟩ := hbook
  exact ⟨hbufs, hgens, hfreed, fun hroom => State.refuseHandle_log hroom c st seq⟩

end Pool

end Sys2Proof.Machine

namespace Sys2Proof

open Sys2Proof.Machine

/-- Settles O18: the records and memory writes of a request touch neither the buffers nor the log (`poolDone_poolBook`, `poolDone_log`), so
that what the operation itself does to them is what stands afterwards. -/
theorem poolOperations : Obligations.PoolOperations := by
  unfold Obligations.PoolOperations
  refine ⟨fun c k raw base idx s => exec_alloc_of_free, fun c k raw s => exec_free_of_ok, fun c h b s => exec_freeComplete_of_unheld,
    fun c k raw b s => exec_setPlacement_of_ok, fun p hp c k raw s h hbad => ?_⟩
  obtain rfl | rfl : p = (.free, 2) ∨ p = (.setPlacement, 3) := by simpa using hp
  · exact ⟨_, exec_free_of_refused h hbad, s.refuseHandle_keeps c _ _⟩
  · exact ⟨_, exec_setPlacement_of_refused h hbad, s.refuseHandle_keeps c _ _⟩

end Sys2Proof

/-! PROOFS. The maps of codewords (R257 to R259) and their inverses. -/

namespace Sys2Proof.Machine

/-- The groups of bits above the lowest, XORed once more, leave the lowest. -/
theorem foldXor_succ_xor (v w n : Nat) : foldXor v w (n + 1) ^^^ foldXor (v >>> w) w n = v % 2 ^ w := by
  rw [foldXor, Nat.xor_assoc, Nat.xor_self, Nat.xor_zero]

theorem dieCode_dieOf {k : Nat} (h : k < 16) : dieCode (dieOf k) = k := by
  have hall : ∀ k < 16, dieCode (dieOf k) = k := by decide
  exact hall k h

/-- The granules of a channel in the package-wide part, which lie below its die-local ones (R257, R258). -/
theorem share_eq (l : Nat) : (48 - l) * 2 ^ 30 / 32 / 256 = (48 - l) * 2 ^ 17 := by omega

/-! ### Codewords of a granule -/

/-- The number of a codeword's granule in the channel. -/
theorem cwNo_granule (g b : Nat) : (g * 4 + b % 4) / 4 = g := by omega

/-- The sector of a codeword in its granule. -/
theorem cwNo_sector (g b : Nat) : (g * 4 + b % 4) % 4 = b % 4 := by omega

/-- A granule's number in two parts, and the sector, are the codeword's address. -/
theorem granule_sector {a : Nat} (h : a % 64 = 0) (w : Nat) :
    ((a >>> 8) >>> w <<< w + (a >>> 8) % 2 ^ w) * 256 + (a >>> 6) % 4 * 64 = a := by
  have hg := Nat.div_add_mod' (a >>> 8) (2 ^ w)
  rw [Nat.shiftLeft_eq, Nat.shiftRight_eq_div_pow (a >>> 8), hg, Nat.shiftRight_eq_div_pow, Nat.shiftRight_eq_div_pow]
  omega

/-! ### The near store (R258) -/

/-- The package-wide part lies across the 256 channels by the XOR of the four bytes of the granule's number. -/
theorem nearCw_wide {l off : Nat} (h : off < (384 - 8 * l) * 2 ^ 30) :
    nearCw l off = ⟨dieOf (foldXor (off >>> 8) 8 4 >>> 5), foldXor (off >>> 8) 8 4 % 32, (off >>> 8) >>> 8 * 4 + (off >>> 6) % 4⟩ := by
  simp only [nearCw, if_pos h]

/-- The die-local part of stack `k` lies across its 32 pseudo-channels, above their share of the package-wide part. -/
theorem nearCw_local {l k x : Nat} (hk : k < 8) (hx : x < l * 2 ^ 30) :
    nearCw l ((384 - 8 * l) * 2 ^ 30 + k * (l * 2 ^ 30) + x) =
      ⟨dieOf k, foldXor (x >>> 8) 5 6, ((48 - l) * 2 ^ 17 + (x >>> 8) >>> 5) * 4 + (x >>> 6) % 4⟩ := by
  have hwide : ¬ (384 - 8 * l) * 2 ^ 30 + k * (l * 2 ^ 30) + x < (384 - 8 * l) * 2 ^ 30 := by omega
  have hoff : (384 - 8 * l) * 2 ^ 30 + k * (l * 2 ^ 30) + x - (384 - 8 * l) * 2 ^ 30 = x + l * 2 ^ 30 * k := by
    rw [Nat.mul_comm k]; omega
  have hstack : (x + l * 2 ^ 30 * k) / (l * 2 ^ 30) = k := by
    rw [Nat.add_mul_div_left _ _ (by omega), Nat.div_eq_of_lt hx, Nat.zero_add]
  have hin : (x + l * 2 ^ 30 * k) % (l * 2 ^ 30) = x := by
    rw [Nat.add_mul_mod_self_left, Nat.mod_eq_of_lt hx]
  have hsector : (((384 - 8 * l) * 2 ^ 30 + k * (l * 2 ^ 30) + x) >>> 6) % 4 = (x >>> 6) % 4 := by
    have hkl : k * (l * 2 ^ 30) = (k * l) * 2 ^ 30 := (Nat.mul_assoc k l _).symm
    simp only [Nat.shiftRight_eq_div_pow, hkl]
    omega
  simp only [nearCw, if_neg hwide, hoff, hstack, hin, hsector, share_eq, Nat.mod_eq_of_lt hk]

/-- An offset past the package-wide part is that of a byte of one stack's die-local part (R257). -/
theorem local_offset {l off : Nat} (hl : l ≤ 16) (hwide : (384 - 8 * l) * 2 ^ 30 ≤ off) (hoff : off < 384 * 2 ^ 30) :
    ∃ k < 8, ∃ x < l * 2 ^ 30, off = (384 - 8 * l) * 2 ^ 30 + k * (l * 2 ^ 30) + x := by
  have hpos : 0 < l * 2 ^ 30 := by omega
  refine ⟨(off - (384 - 8 * l) * 2 ^ 30) / (l * 2 ^ 30), (Nat.div_lt_iff_lt_mul hpos).2 (by omega),
    (off - (384 - 8 * l) * 2 ^ 30) % (l * 2 ^ 30), Nat.mod_lt _ hpos, ?_⟩
  have h := Nat.div_add_mod' (off - (384 - 8 * l) * 2 ^ 30) (l * 2 ^ 30)
  omega

/-- Of a codeword whose granule lies below the share, the offset is one of the package-wide part. -/
theorem nearOff_nearCw_wide {l off : Nat} (hal : off % 64 = 0) (h : off < (384 - 8 * l) * 2 ^ 30) :
    nearOff l (nearCw l off) = off := by
  have hc : foldXor (off >>> 8) 8 4 < 2 ^ 8 := State.foldXor_lt 8 4 _
  have hdie : dieCode (dieOf (foldXor (off >>> 8) 8 4 >>> 5)) = foldXor (off >>> 8) 8 4 >>> 5 :=
    dieCode_dieOf (by rw [Nat.shiftRight_eq_div_pow]; omega)
  have hch : foldXor (off >>> 8) 8 4 >>> 5 * 32 + foldXor (off >>> 8) 8 4 % 32 = foldXor (off >>> 8) 8 4 := by
    rw [Nat.shiftRight_eq_div_pow]; omega
  have hshare : (off >>> 8) >>> 8 < (48 - l) * 2 ^ 17 := by
    simp only [Nat.shiftRight_eq_div_pow]; omega
  rw [nearCw_wide h]
  simp only [nearOff, cwNo_granule, cwNo_sector, share_eq, if_pos hshare, hdie, hch, foldXor_succ_xor, granule_sector hal]

/-- Of a codeword whose granule lies above the share, the offset is one of its stack's die-local part. -/
theorem nearOff_nearCw_local {l k x : Nat} (hk : k < 8) (hal : x % 64 = 0) (hx : x < l * 2 ^ 30) :
    nearOff l (nearCw l ((384 - 8 * l) * 2 ^ 30 + k * (l * 2 ^ 30) + x)) = (384 - 8 * l) * 2 ^ 30 + k * (l * 2 ^ 30) + x := by
  have hshare : ¬ (48 - l) * 2 ^ 17 + (x >>> 8) >>> 5 < (48 - l) * 2 ^ 17 := Nat.not_lt.2 (Nat.le_add_right _ _)
  have hbase : (384 - 8 * l + k * l) * 2 ^ 30 = (384 - 8 * l) * 2 ^ 30 + k * (l * 2 ^ 30) := by
    rw [Nat.add_mul, Nat.mul_assoc k]
  rw [nearCw_local hk hx]
  simp only [nearOff, cwNo_granule, cwNo_sector, share_eq, if_neg hshare, dieCode_dieOf (Nat.lt_trans hk (by decide)),
    Nat.add_sub_cancel_left, foldXor_succ_xor, hbase, Nat.add_assoc _ _ ((x >>> 6) % 4 * 64), granule_sector hal]

/-- Every codeword of the near store has the offset it was found at. -/
theorem nearOff_nearCw {l off : Nat} (hl : l ≤ 16) (hal : off % 64 = 0) (hoff : off < 384 * 2 ^ 30) :
    nearOff l (nearCw l off) = off := by
  rcases Nat.lt_or_ge off ((384 - 8 * l) * 2 ^ 30) with h | h
  · exact nearOff_nearCw_wide hal h
  · obtain ⟨k, hk, x, hx, rfl⟩ := local_offset hl h hoff
    have hkl : k * (l * 2 ^ 30) = (k * l) * 2 ^ 30 := (Nat.mul_assoc k l _).symm
    exact nearOff_nearCw_local hk (by omega) hx

/-! ### The depot (R259) -/

/-- With every package set in use, the depot lies across the 128 channels by the XOR of five groups of 7 bits of the granule's number. -/
theorem depotCw_nil (pa : Nat) :
    depotCw [] pa = ⟨dieOf (12 + foldXor (pa >>> 8) 7 5 >>> 5), foldXor (pa >>> 8) 7 5 % 32, (pa >>> 8) >>> 7 * 4 + (pa >>> 6) % 4⟩ := rfl

theorem depotOff_nil (w : Cw) :
    depotOff [] w = ((w.n / 4) <<< 7 + (((dieCode w.die - 12) * 32 + w.ch) ^^^ foldXor (w.n / 4) 7 4)) * 256 + w.n % 4 * 64 := rfl

/-- Every codeword of the depot has the address it was found at. -/
theorem depotOff_depotCw {pa : Nat} (hal : pa % 64 = 0) : depotOff [] (depotCw [] pa) = pa := by
  have hc : foldXor (pa >>> 8) 7 5 < 2 ^ 7 := State.foldXor_lt 7 5 _
  have hdie : dieCode (dieOf (12 + foldXor (pa >>> 8) 7 5 >>> 5)) = 12 + foldXor (pa >>> 8) 7 5 >>> 5 :=
    dieCode_dieOf (by rw [Nat.shiftRight_eq_div_pow]; omega)
  have hch : foldXor (pa >>> 8) 7 5 >>> 5 * 32 + foldXor (pa >>> 8) 7 5 % 32 = foldXor (pa >>> 8) 7 5 := by
    rw [Nat.shiftRight_eq_div_pow]; omega
  rw [depotCw_nil, depotOff_nil]
  simp only [cwNo_granule, cwNo_sector, hdie, Nat.add_sub_cancel_left, hch, foldXor_succ_xor, granule_sector hal]

end Sys2Proof.Machine

namespace Sys2Proof

open Sys2Proof.Machine

/-- Settles O58: the maps are `foldXor` of the groups of bits, group by group; and the inverse XORs the groups above the lowest, which the
granule's number in its channel still holds, once more (`foldXor_succ_xor`). -/
theorem codewordMapsInvert : Obligations.CodewordMapsInvert := by
  unfold Obligations.CodewordMapsInvert
  refine ⟨fun l off g _ hoff hg => ?_, fun l k x g _ hk hx hg => ?_, fun pa g c hg hc => ?_, fun l off => nearOff_nearCw,
    fun pa hal _ => depotOff_depotCw hal⟩
  · subst hg
    rw [nearCw_wide hoff]
    simp [foldXor, Nat.shiftRight_eq_div_pow, Nat.div_div_eq_div_mul, Nat.xor_assoc]
  · subst hg
    rw [nearCw_local hk hx]
    simp [foldXor, Nat.shiftRight_eq_div_pow, Nat.div_div_eq_div_mul, Nat.xor_assoc]
  · subst hg hc
    rw [depotCw_nil]
    simp [foldXor, Nat.shiftRight_eq_div_pow, Nat.div_div_eq_div_mul, Nat.xor_assoc]

end Sys2Proof

/-! PROOFS. What the updates of a memory channel leave of it, and what one does of which nothing is due (R253 to R271). -/

namespace Sys2Proof.Machine

namespace State

variable {s : State} {d : Die} {ch : Nat}

/-! ### Channels -/

/-- A channel that has been set is the one that stands there, whatever other parts of the state have changed since. -/
theorem chan_of_setChan {t : State} {x : Chan} (h : t.chans = (s.setChan d ch x).chans) : t.chan d ch = x := by
  simp [chan, h, setChan, SMap.getD]

@[simp] theorem chan_setChan_same (x : Chan) : (s.setChan d ch x).chan d ch = x := chan_of_setChan rfl

@[simp] theorem setDebt_chans (v : Int) : (s.setDebt d ch v).chans = s.chans := rfl

@[simp] theorem forceRefresh_chans : (s.forceRefresh d ch).chans = s.chans := by
  unfold forceRefresh
  split <;> rfl

/-- A mark changes its channel's marked pair alone (R254). -/
theorem chan_markPair (pair : Nat) : (s.markPair d ch pair).chan d ch = { s.chan d ch with marked := some pair } :=
  chan_of_setChan (s := s) (by simp [markPair])

end State

/-! ### Calibration (R269) -/

/-- What a channel keeps of its periodic calibration: whether it is due, when a forced one began, and when it falls due. -/
def Chan.cal (c : Chan) : Bool × Option Nat × Nat := (c.calDue, c.calRun, c.calAt)

theorem Chan.cal_eq_iff {c : Chan} {due : Bool} {run : Option Nat} {at' : Nat} :
    c.cal = (due, run, at') ↔ c.calDue = due ∧ c.calRun = run ∧ c.calAt = at' := by simp [cal]

namespace State

variable {s : State} {d : Die} {ch : Nat}

/-- A channel set in what is not of its calibration keeps its calibration. -/
theorem cal_of_setChan {t : State} {x : Chan} (h : t.chans = (s.setChan d ch x).chans) (hx : x.cal = (s.chan d ch).cal) :
    (t.chan d ch).cal = (s.chan d ch).cal := by rw [chan_of_setChan h, hx]

theorem issueOwed_cal : ((s.issueOwed d ch).chan d ch).cal = (s.chan d ch).cal := by
  unfold issueOwed
  dsimp only
  split
  · rfl
  · exact cal_of_setChan (x := { s.chan d ch with owed := 0, late := 0 }) rfl rfl

theorem repairPair_cal : ((s.repairPair d ch).chan d ch).cal = (s.chan d ch).cal := by
  unfold repairPair
  dsimp only
  split
  · split
    · exact cal_of_setChan (x := { s.chan d ch with marked := none, corr := [] }) (by simp) rfl
    · rfl
  · rfl

/-! ### Narrow reads (R265) -/

/-- A narrow read that ripens waits no more, and is a foreground request. -/
theorem ripen_of_mem {p : Narrow → Bool} {x : Narrow} (hx : x ∈ (s.chan d ch).narrow) (hp : p x = true) :
    x ∉ ((s.ripen d ch p).chan d ch).narrow ∧ ∃ y ∈ ((s.ripen d ch p).chan d ch).fg, y.op = .narrow x := by
  simp only [ripen, chan_setChan_same]
  refine ⟨fun h => ?_, ⟨_, List.mem_append_right _ (List.mem_map_of_mem (List.mem_filter.2 ⟨hx, hp⟩)), rfl⟩⟩
  have hnp := (List.mem_filter.1 h).2
  simp [hp] at hnp

/-- A narrow read whose wait is over ripens, with the others of its row. -/
theorem ripeNarrow_of_due {x : Narrow} (hx : x ∈ (s.chan d ch).narrow) (hdue : x.since + s.narrowWait d ≤ s.base) :
    ∃ p : Narrow → Bool, p x = true ∧ s.ripeNarrow d ch = s.ripen d ch p := by
  have hrow : s.dramRow x.pa ∈
      ((s.chan d ch).narrow.filter fun y => decide (y.since + s.narrowWait d ≤ s.base)).map fun y => s.dramRow y.pa :=
    List.mem_map_of_mem (List.mem_filter.2 ⟨hx, by simpa using hdue⟩)
  refine ⟨_, ?_, if_neg (by simpa using List.ne_nil_of_mem hrow)⟩
  simpa using hrow

theorem ripeNarrow_of_none_due (h : ∀ x ∈ (s.chan d ch).narrow, s.base < x.since + s.narrowWait d) : s.ripeNarrow d ch = s := by
  have hnone : ((s.chan d ch).narrow.filter fun x => decide (x.since + s.narrowWait d ≤ s.base)) = [] := by simpa using h
  simp [ripeNarrow, hnone]

/-! ### Messages of requests and replies (R30) -/

/-- A request that comes to its controller's die is among the messages arrived, and changes nothing else. -/
theorem requestIn_eq (s : State) (r : Requester) (d : Die) (pa : Nat) (data : Bytes) :
    ∃ a, s.requestIn r d pa data = { s with arrived := a } := by
  unfold requestIn
  split
  · exact ⟨_, rfl⟩
  · exact ⟨s.arrived, rfl⟩

/-- A reply stands in the routers, and changes nothing else. -/
theorem replyOut_eq (s : State) (r : Requester) (d : Die) (pa : Nat) (data : Bytes) :
    ∃ a, s.replyOut r d pa data = { s with routers := a } := by
  unfold replyOut
  split
  · exact ⟨_, rfl⟩
  · exact ⟨s.routers, rfl⟩

theorem requestIn_cwOf (s : State) (r : Requester) (d : Die) (pa : Nat) (data : Bytes) (a : Nat) :
    (s.requestIn r d pa data).cwOf a = s.cwOf a := by
  obtain ⟨m, h⟩ := requestIn_eq s r d pa data
  rw [h]
  rfl

/-! ### A free channel (R262, R265) -/

theorem runChan_of_no_fg (h : (s.chan d ch).fg = []) : s.runChan d ch = s := by simp [runChan, h]

section Free

variable {w : Cw}

/-- On a free channel nothing is due before a request. -/
theorem settled_of_free (h : s.ChannelFree w) : (s.ripeNarrow w.die w.ch).runChan w.die w.ch = s := by
  obtain ⟨-, -, hfg, hnarrow⟩ := h
  rw [ripeNarrow_of_none_due hnarrow, runChan_of_no_fg hfg]

/-- A request's messages leave its channel free, which serves it at once. -/
theorem request_of_free (h : s.ChannelFree w) (r : Requester) (pa : Nat) (data : Bytes) (q : MemReq) :
    (s.requestIn r w.die pa data).request w.die w.ch q = (s.requestIn r w.die pa data).serve q := by
  obtain ⟨-, hstall, hfg, -⟩ := h
  obtain ⟨m, hm⟩ := requestIn_eq s r w.die pa data
  have hstall' : (s.requestIn r w.die pa data).calStalls w.die w.ch = false := by rw [hm]; exact hstall
  have hfg' : ((s.requestIn r w.die pa data).chan w.die w.ch).fg = [] := by rw [hm]; exact hfg
  simp [request, hstall', hfg']

/-! ### Codewords read (R251, R255) -/

section Read

variable {pa : Nat} {x : Fetch} {bad : Bool} {v : State}

/-- The bytes that the decoder delivers of a codeword are the reply. -/
theorem serveRead_of_decoded {b : Bytes} (r : Requester) (hg : x.granule = false) (hw : s.cwOf (pa / 64 * 64) = some w)
    (hb : s.readCw w (pa / 64 * 64) ((x.errs.filter fun e => e.1 == 0).flatMap (·.2)) bad = (some b, v)) :
    s.serveRead r pa x bad = ((v.touchRead (pa / 64 * 64) 64).replyOut r w.die (pa / 64 * 64) b).answer r .done b := by
  simp [serveRead, fetchSectors, hg, hw, readSectors, hb]

/-- A codeword that is uncorrectable is reported, and its requester told. -/
theorem serveRead_of_uncorrectable (r : Requester) (hg : x.granule = false) (hw : s.cwOf (pa / 64 * 64) = some w)
    (hb : s.readCw w (pa / 64 * 64) ((x.errs.filter fun e => e.1 == 0).flatMap (·.2)) bad = (none, v)) :
    s.serveRead r pa x bad = ((v.reportUncorr r (pa / 64 * 64) 0).replyOut r w.die (pa / 64 * 64) []).tellUncorr r 64 := by
  simp [serveRead, fetchSectors, hg, hw, readSectors, hb]

end Read

/-! ### Codewords written (R253, R261) -/

/-- A write within one granule is one piece. -/
theorem granulePieces_of_one {pa : Nat} {x : MemStore} (he : x.errs = []) (hd : x.data ≠ [])
    (hone : (pa + x.data.length - 1) / 256 = pa / 256) : granulePieces pa x = [(pa, x)] := by
  have hlen : 0 < x.data.length := List.length_pos_iff.2 hd
  have hcount : (pa + x.data.length + 255) / 256 - pa / 256 = 1 := by omega
  have hstart : max pa ((pa / 256 + 0) * 256) = pa := by omega
  have htake : x.data.take ((pa / 256 + 0 + 1) * 256 - pa) = x.data := List.take_of_length_le (by omega)
  obtain ⟨data, errs, tagBad⟩ := x
  subst he
  simp only [granulePieces, hcount, List.range_one, List.map_cons, List.map_nil, hstart, Nat.sub_self, List.drop_zero, htake,
    List.filter_nil]

/-- On a free channel with no narrow read of its bytes a write is served at once. -/
theorem requestWrite_of_free {pa : Nat} {x : MemStore} (r : Requester) (hw : s.cwOf (pa / 64 * 64) = some w) (hf : s.ChannelFree w)
    (hn : ∀ y ∈ (s.chan w.die w.ch).narrow, pa + x.data.length ≤ y.pa ∨ y.pa + y.ask.len ≤ pa) :
    s.requestWrite r pa x = (s.requestIn r w.die pa x.data).serveWrite r pa x := by
  have hserve := request_of_free hf r pa x.data ⟨r, pa, .write x, s.base⟩
  obtain ⟨-, -, hfg, hnarrow⟩ := hf
  have hnone : ((s.chan w.die w.ch).narrow.filter fun y => decide (pa < y.pa + y.ask.len) && decide (y.pa < pa + x.data.length)) = [] := by
    rw [List.filter_eq_nil_iff]
    intro y hy
    have := hn y hy
    simp only [Bool.and_eq_true, decide_eq_true_eq]
    omega
  simp only [requestWrite, hw, ripeNarrow_of_none_due hnarrow, hnone, List.map_nil, List.isEmpty_nil, if_true, runChan_of_no_fg hfg, hserve]
  rfl

/-- Bytes that begin and end at sectors cover each sector that they touch. -/
theorem sectorsOf_whole {a n : Nat} (ha : a % 64 = 0) (hn : n % 64 = 0) : ∀ y ∈ sectorsOf a n, y.2 = true := by
  intro y hy
  unfold sectorsOf at hy
  split at hy
  · cases hy
  · next h =>
    obtain ⟨k, hk, rfl⟩ := List.mem_map.1 hy
    have hpos : n ≠ 0 := by simpa using h
    have hlt := List.mem_range.1 hk
    simp only [Bool.and_eq_true, decide_eq_true_eq]
    omega

theorem wrBytes_answers (s : State) (a : Nat) (bs : Bytes) : (s.wrBytes a bs).answers = s.answers := by
  obtain ⟨u, p, ⟨⟨c, r, rfl⟩, -⟩, h⟩ := wrBytes_eq s a bs
  rw [h]

/-- A write of whole sectors that meets no fenced channel stores its bytes, and its requester is told so. -/
theorem serveWrite_of_whole {pa : Nat} {x : MemStore} (r : Requester) (hw : s.cwOf (pa / 64 * 64) = some w)
    (ha : pa % 64 = 0) (hn : x.data.length % 64 = 0) (hgood : s.partialBad pa x.data.length = false) :
    (s.serveWrite r pa x).mem = Memory.writeBytes s.mem pa x.data ∧ (s.serveWrite r pa x).answers = ⟨r, .done, []⟩ :: s.answers := by
  have hread : (sectorsOf pa x.data.length).zipIdx.foldl (fun t y => t.readModify x y) s = s := by
    refine List.foldlRecOn (motive := fun t : State => t = s) _ _ rfl fun t ht y hy => ?_
    have hwhole : y.1.2 = true := sectorsOf_whole ha hn y.1 (List.fst_mem_of_mem_zipIdx hy)
    rw [ht, readModify, if_pos hwhole]
  obtain ⟨m, hm⟩ := replyOut_eq s r w.die pa []
  have hgood' : ({ s with routers := m } : State).partialBad pa x.data.length = false := hgood
  have he : s.serveWrite r pa x = (({ s with routers := m } : State).wrBytes pa x.data).answer r .done := by
    simp only [serveWrite, hread, hw, hm, hgood', Bool.false_eq_true, if_false]
  rw [he, answer_mem, wrBytes_mem_of_good _ _ _ hgood', answer, wrBytes_answers]
  exact ⟨rfl, rfl⟩

end Free

end State

end Sys2Proof.Machine

/-! PROOFS. The commands of the memory controllers (R248 to R271). -/

namespace Sys2Proof.Machine

section Controllers

variable {s : State} {d : Die} {ch : Nat}

/-! ### Reads and writes -/

/-- A read of a free channel is served at once. -/
theorem exec_memRead_of_free {r : Requester} {pa : Nat} {x : Fetch} {w : Cw} {bad : Bool} (hs : s.Live)
    (hw : s.cwOf ((State.fetchSectors pa x).getD 0 0) = some w) (hf : s.ChannelFree w) :
    exec (.memRead r pa x bad) s = .next ((s.requestIn r w.die pa []).serveRead r pa x bad) := by
  have he : exec (.memRead r pa x bad) s = execMemRead r pa x bad s := rfl
  have hdie : s.dieDown w.die = false := hf.1
  rw [he, execMemRead, act_of_live hs]
  simp only [hw, hdie, Bool.false_eq_true, if_false, State.settled_of_free hf, State.request_of_free hf]
  rfl

/-- A write within a granule of a free channel, to no lot that moves, is served at once. -/
theorem exec_memWrite_of_free {r : Requester} {pa : Nat} {x : MemStore} {w : Cw} (hs : s.Live) (hw : s.cwOf (pa / 64 * 64) = some w)
    (hf : s.ChannelFree w) (hmove : s.movingIn pa x.data.length = false) (he : x.errs = []) (hd : x.data ≠ [])
    (hone : (pa + x.data.length - 1) / 256 = pa / 256)
    (hon : ((State.sectorsOf pa x.data.length).all fun y => (s.cwOf y.1).any fun v => !s.dieDown v.die) = true)
    (hn : ∀ y ∈ (s.chan w.die w.ch).narrow, pa + x.data.length ≤ y.pa ∨ y.pa + y.ask.len ≤ pa) :
    exec (.memWrite r pa x) s = .next ((s.requestIn r w.die pa x.data).serveWrite r pa x) := by
  have hx : exec (.memWrite r pa x) s = execMemWrite r pa x s := rfl
  rw [hx, execMemWrite, act_of_live hs]
  simp only [State.memWrite, hon, hmove, Bool.not_true, Bool.false_eq_true, if_false, State.granulePieces_of_one he hd hone,
    List.foldl_cons, List.foldl_nil, State.requestWrite_of_free r hw hf hn]

/-- A write of whole sectors, served, has stored its bytes. -/
theorem State.requestIn_serveWrite_of_whole {r : Requester} {pa : Nat} {x : MemStore} {w : Cw} (hw : s.cwOf (pa / 64 * 64) = some w)
    (ha : pa % 64 = 0) (hn : x.data.length % 64 = 0) (hgood : s.partialBad pa x.data.length = false) :
    ((s.requestIn r w.die pa x.data).serveWrite r pa x).mem = Memory.writeBytes s.mem pa x.data
      ∧ ((s.requestIn r w.die pa x.data).serveWrite r pa x).answers = ⟨r, .done, []⟩ :: s.answers := by
  obtain ⟨m, hm⟩ := State.requestIn_eq s r w.die pa x.data
  rw [hm]
  exact State.serveWrite_of_whole (s := { s with arrived := m }) r hw ha hn hgood

/-! ### Narrow reads (R263, R265) -/

/-- A narrow read that is aligned joins its channel's queue, if that has room. -/
theorem exec_narrowRead_of_room {k pa : Nat} {x : NarrowAsk} {w : Cw} (hs : s.Live) (hw : s.cwOf pa = some w)
    (hlen : x.len = 16 ∨ x.len = 32) (hal : pa % x.len = 0) (hroom : (s.chan w.die w.ch).narrow.length < 256) :
    exec (.narrowRead k pa x) s = .next ((s.requestIn (.unit (lkpPg k)) w.die pa []).setChan w.die w.ch { s.chan w.die w.ch with
      narrow := (s.chan w.die w.ch).narrow ++ [⟨k, pa, x, s.base, none⟩] }) := by
  have he : exec (.narrowRead k pa x) s = execNarrowRead k pa x s := rfl
  have hlen' : (x.len == 16 || x.len == 32) = true := by simpa using hlen
  rw [he, execNarrowRead, act_of_live hs]
  simp [State.askNarrow, hw, hlen', hal, hroom]

theorem exec_narrowWaitExpiry_of_liveOn (hs : s.LiveOn d) :
    exec (.narrowWaitExpiry d ch) s = .next ((s.ripeNarrow d ch).runChan d ch) := by
  have he : exec (.narrowWaitExpiry d ch) s = execNarrowWaitExpiry d ch s := rfl
  rw [he, execNarrowWaitExpiry, actD_of_liveOn hs]

/-! ### Refresh (R248, R249, R268) -/

/-- A refresh that falls due, during a stall or not, moves the next one by a tREFI. -/
theorem exec_refreshDue_of_due (hs : s.LiveOn d) (hm : hasMem d = true) (hch : ch < 32) (hdue : (s.chan d ch).refAt ≤ s.base) :
    ∃ t, exec (.refreshDue d ch) s = .next t ∧ (t.chan d ch).refAt = (s.chan d ch).refAt + s.trefi d ch := by
  have he : exec (.refreshDue d ch) s = execRefreshDue d ch s := rfl
  rw [he, execRefreshDue, actD_of_liveOn hs]
  refine ⟨_, rfl, ?_⟩
  simp only [hm, hch, hdue, decide_true, Bool.and_self, if_true]
  split
  · exact congrArg Chan.refAt (State.chan_of_setChan (State.setDebt_chans _))
  · split
    · exact congrArg Chan.refAt (State.chan_setChan_same _)
    · exact congrArg Chan.refAt (State.chan_of_setChan (State.forceRefresh_chans.trans (State.setDebt_chans _)))

/-- A free slot takes a refresh that is owed, or one ahead while nothing is sealed. -/
theorem exec_refreshPullIn_of_slot (hs : s.LiveOn d) (hm : hasMem d = true) (hch : ch < 32) (hslot : s.noSlot d ch 5 = false)
    (hdebt : -8 < s.debt d ch) (hseal : s.anySealed = false ∨ 0 < s.debt d ch) :
    exec (.refreshPullIn d ch) s = .next (s.setDebt d ch (s.debt d ch - 1)) := by
  have he : exec (.refreshPullIn d ch) s = execRefreshPullIn d ch s := rfl
  have hseal' : (!s.anySealed || decide (0 < s.debt d ch)) = true := by simpa using hseal
  rw [he, execRefreshPullIn, actD_of_liveOn hs]
  simp [hm, hch, hslot, hdebt, hseal']

/-! ### Calibration (R248, R249, R269) -/

theorem exec_calibrationDue_of_due (hs : s.LiveOn d) (hm : hasMem d = true) (hch : ch < 32) (hnot : (s.chan d ch).calDue = false)
    (hdue : (s.chan d ch).calAt ≤ s.base) :
    exec (.calibrationDue d ch) s = .next (s.setChan d ch { s.chan d ch with calDue := true }) := by
  have he : exec (.calibrationDue d ch) s = execCalibrationDue d ch s := rfl
  rw [he, execCalibrationDue, actD_of_liveOn hs]
  simp [hm, hch, hnot, hdue]

/-- A calibration 1 ms overdue, or due while a compartment is sealed, is forced. -/
theorem exec_forcedCalibration_of_overdue (hs : s.LiveOn d) (hdue : (s.chan d ch).calDue = true) (hrun : (s.chan d ch).calRun = none)
    (hlate : s.anySealed = true ∨ (s.chan d ch).calAt + 1000000 ≤ s.base) :
    exec (.forcedCalibration d ch) s =
      .next ((s.setChan d ch { s.chan d ch with calRun := some s.base }).bump (memPg d) calForcedF) := by
  have he : exec (.forcedCalibration d ch) s = execForcedCalibration d ch s := rfl
  have hlate' : (s.anySealed || decide ((s.chan d ch).calAt + 1000000 ≤ s.base)) = true := by simpa using hlate
  rw [he, execForcedCalibration, actD_of_liveOn hs]
  simp [hdue, hrun, hlate']

/-- A calibration that ends is due again 64 ms later, and what waited on its channel goes on. -/
theorem exec_calibrationEnd_of_due (hs : s.LiveOn d) (hdue : (s.chan d ch).calDue = true)
    (hrun : (s.chan d ch).calRun ≠ none ∨ s.noSlot d ch 6 = false) :
    ∃ t : State, exec (.calibrationEnd d ch) s = .next (t.runChan d ch) ∧ (t.chan d ch).calDue = false ∧ (t.chan d ch).calRun = none
      ∧ (t.chan d ch).calAt = s.base + 64000000 := by
  have he : exec (.calibrationEnd d ch) s = execCalibrationEnd d ch s := rfl
  have hrun' : ((s.chan d ch).calRun.isSome || !s.noSlot d ch 6) = true := by simpa [Option.isSome_iff_ne_none] using hrun
  rw [he, execCalibrationEnd, actD_of_liveOn hs]
  simp only [hdue, hrun', Bool.and_self, if_true]
  refine ⟨_, rfl, Chan.cal_eq_iff.1 ?_⟩
  rw [State.repairPair_cal]
  split
  · exact State.issueOwed_cal.trans (congrArg Chan.cal (State.chan_setChan_same _))
  · exact congrArg Chan.cal (State.chan_setChan_same _)

/-! ### Scrubs and marks (R254, R267, R270) -/

theorem exec_guaranteedScrub_of_due (hs : s.LiveOn d) (errs : List (Nat × List Nat)) (hm : hasMem d = true) (hch : ch < 32)
    (hdue : (s.chan d ch).scrubDue ≤ s.base) (hslot : s.noSlot d ch 3 = false) :
    exec (.guaranteedScrub d ch errs) s = .next ((s.setChan d ch { s.chan d ch with
      scrubDue := (s.chan d ch).scrubDue + State.scrubEvery d }).scrubBurst d ch errs) := by
  have he : exec (.guaranteedScrub d ch errs) s = execGuaranteedScrub d ch errs s := rfl
  rw [he, execGuaranteedScrub, actD_of_liveOn hs]
  simp [hm, hch, hdue, hslot]

theorem exec_patrolScrub_of_slot (hs : s.LiveOn d) (errs : List (Nat × List Nat)) (hm : hasMem d = true) (hch : ch < 32)
    (hen : s.getF (memPg d) (if isTensor d then Reg.HBMC_CFG_SCRUB_EN else Reg.DEPC_CFG_SCRUB_EN) = 1) (hslot : s.noSlot d ch 8 = false) :
    exec (.patrolScrub d ch errs) s = .next (s.scrubBurst d ch errs) := by
  have he : exec (.patrolScrub d ch errs) s = execPatrolScrub d ch errs s := rfl
  rw [he, execPatrolScrub, actD_of_liveOn hs]
  simp [hm, hch, hen, hslot]

/-- A pair with 16 corrections within the last second is marked. -/
theorem exec_dqPairMark_of_corrections {pair : Nat} (hs : s.LiveOn d) (ht : isTensor d = true) (hch : ch < 32) (hp : pair < 16)
    (hm : (s.chan d ch).marked = none)
    (hk : 16 ≤ ((s.chan d ch).corr.filter fun p => p.1 == pair && decide (s.base < p.2 + 10 ^ 9)).length) :
    ∃ t, exec (.dqPairMark d ch pair) s = .next t ∧ (t.chan d ch).marked = some pair := by
  have he : exec (.dqPairMark d ch pair) s = execDqPairMark d ch pair s := rfl
  rw [he, execDqPairMark, actD_of_liveOn hs]
  refine ⟨_, rfl, ?_⟩
  dsimp only
  rw [if_pos (by simpa [ht, hch, hp, hm] using hk), State.chan_markPair]

/-! ### Samples and registers (R248, R249, R260, R271) -/

/-- A sample that finds room stands last in its controller's buffer. -/
theorem exec_telemetrySample_of_room (hs : s.LiveOn d) (hm : hasMem d = true) (hdue : SMap.getD s.telemAt (dieCode d) 0 + 10000 ≤ s.base)
    (hroom : (SMap.getD s.telem (dieCode d) []).length < 1024) :
    ∃ t, exec (.telemetrySample d) s = .next t ∧ SMap.getD t.telemAt (dieCode d) 0 = s.base ∧ t.regs = s.regs
      ∧ SMap.getD t.telem (dieCode d) [] =
          (if Config.telemDrained s.free then [] else SMap.getD s.telem (dieCode d) [])
            ++ [(s.base, s.regs.filter fun e => keyPage e.1 == pageNo (memPg d))] := by
  have he : exec (.telemetrySample d) s = execTelemetrySample d s := rfl
  have hfit : (if Config.telemDrained s.drawFree.1 then [] else SMap.getD s.telem (dieCode d) []).length < 1024 := by
    split
    · decide
    · exact hroom
  rw [he, execTelemetrySample, actD_of_liveOn hs]
  refine ⟨_, rfl, ?_⟩
  simp only [hm, Nat.not_lt.2 hdue, hfit, decide_false, Bool.not_true, Bool.or_false, Bool.false_eq_true, if_false, if_true]
  exact ⟨by simp [SMap.getD], rfl, by rw [SMap.getD, SMap.find_put_same]; rfl⟩

/-- A stack's reading is held to 8 bits, and hot above 85 °C. -/
theorem exec_stackTemperatureSample_of_tensor (hs : s.LiveOn d) (ht : isTensor d = true) (c : Nat) :
    ∃ t, exec (.stackTemperatureSample d c) s = .next t ∧ t.getF (memPg d) Reg.HBMC_TEMP_TEMP_C = min c 255
      ∧ t.getF (memPg d) Reg.HBMC_TEMP_HOT = (if 85 < c then 1 else 0) := by
  have he : exec (.stackTemperatureSample d c) s = execStackTemperatureSample d c s := rfl
  rw [he, execStackTemperatureSample, actD_of_liveOn hs]
  refine ⟨_, rfl, ?_⟩
  rw [if_pos ht]
  constructor
  · rw [State.getF_setF_beside _ _ Reg.HBMC_TEMP_HOT Reg.HBMC_TEMP_TEMP_C _ _ rfl (by decide) (.inl (by decide)),
      State.getF_setF_same _ _ _ _ _ (by decide)]
    exact Nat.mod_eq_of_lt (Nat.lt_of_le_of_lt (Nat.min_le_right _ _) (by decide))
  · rw [State.getF_setF_same _ _ _ _ _ (by decide)]
    by_cases h : 85 < c <;> simp [h, Reg.HBMC_TEMP_HOT]

theorem exec_mr4Read_of_cap (hs : s.LiveOn d) (hc : isCap d = true) (hch : ch < 32) (rate : Nat) :
    exec (.mr4Read d ch rate) s = .next (s.setF (memPg d) Reg.DEPC_MR4_REF_RATE rate ch) := by
  have he : exec (.mr4Read d ch rate) s = execMr4Read d ch rate s := rfl
  rw [he, execMr4Read, actD_of_liveOn hs]
  simp [hc, hch]

theorem exec_localGibWrite_of_unlocked (hs : s.Live) (v : W32) (hl : s.getF ⟨.T0, .hbmc, 0⟩ Reg.HBMC_CFG_LOCKED = 0) :
    exec (.localGibWrite v) s = .next (s.setF ⟨.T0, .hbmc, 0⟩ Reg.HBMC_CFG_LOCAL_GIB (min 16 (v.toNat % 32))) := by
  have he : exec (.localGibWrite v) s = execLocalGibWrite v s := rfl
  rw [he, execLocalGibWrite, act_of_live hs]
  simp [hl]

end Controllers

end Sys2Proof.Machine

namespace Sys2Proof

open Sys2Proof.Machine

/-- Settles O19: each command has its rule above; a read or write of a free channel is served at once (`request_of_free`), and the messages,
marks and refreshes that go with a command leave the rest of its channel. -/
theorem memoryControllers : Obligations.MemoryControllers := by
  unfold Obligations.MemoryControllers
  refine ⟨fun r pa x w bad s u v hs hw hf hu => ?_, fun r pa x w s hs hw hf hmove he hd hone hon hn => ?_,
    fun k pa x w s => exec_narrowRead_of_room, fun d ch x s u hs hx hdue hu => ?_, fun d ch s => exec_refreshDue_of_due,
    fun d ch s => exec_refreshPullIn_of_slot, fun d ch s => exec_calibrationDue_of_due, fun d ch s => exec_forcedCalibration_of_overdue,
    fun d ch s => exec_calibrationEnd_of_due, fun d ch errs s hs => exec_guaranteedScrub_of_due hs errs,
    fun d ch errs s hs => exec_patrolScrub_of_slot hs errs, fun d ch pair s => exec_dqPairMark_of_corrections,
    fun d s => exec_telemetrySample_of_room, fun d c s hs ht => exec_stackTemperatureSample_of_tensor hs ht c,
    fun d ch rate s hs hc hch => exec_mr4Read_of_cap hs hc hch rate, fun v s hs => exec_localGibWrite_of_unlocked hs v⟩
  · subst hu
    have hread := exec_memRead_of_free (r := r) (bad := bad) hs hw hf
    have hcw (hg : x.granule = false) : (s.requestIn r w.die pa []).cwOf (pa / 64 * 64) = some w := by
      rw [State.requestIn_cwOf, ← hw]
      simp [State.fetchSectors, hg]
    refine ⟨hread, fun b hg hb => ?_, fun hg hb => ?_⟩
    · rw [hread, State.serveRead_of_decoded r hg (hcw hg) hb]
    · rw [hread, State.serveRead_of_uncorrectable r hg (hcw hg) hb]
  · have hwrite := exec_memWrite_of_free (r := r) hs hw hf hmove he hd hone hon hn
    exact ⟨hwrite, fun hal hlen hgood => ⟨_, hwrite, State.requestIn_serveWrite_of_whole hw hal hlen hgood⟩⟩
  · subst hu
    obtain ⟨p, hp, hripe⟩ := State.ripeNarrow_of_due hx hdue
    refine ⟨exec_narrowWaitExpiry_of_liveOn hs, ?_⟩
    rw [hripe]
    exact State.ripen_of_mem hx hp

end Sys2Proof

/-! PROOFS. What the end of a request for master lots, its touches and its counts leave as they are. -/

namespace Sys2Proof.Machine.State

section Requests

variable {s : State} {d : Die} {n q : Nat} {x : Desc}

/-! ### Frames -/

/-- A projection that each step of a fold keeps is as before the fold. -/
theorem foldl_frame {α β : Type} {π : State → α} {g : State → β → State} (hg : ∀ t e, π (g t e) = π t) (s : State) (l : List β) :
    π (l.foldl g s) = π s :=
  List.foldlRecOn (motive := fun t : State => π t = π s) _ _ rfl fun t ht e _ => (hg t e).trans ht

/-- A read's touches of virtual memory leave what neither a touch of a lot nor a coherent access's count changes. -/
theorem touchV_frame {α : Type} {π : State → α} (hl : ∀ (s : State) l, π (s.touchLot l false) = π s)
    (hc : ∀ (s : State) a n f, π (s.countCoh a n f) = π s) (s : State) (pins : SMap Nat) (va n : Nat) :
    π (s.touchV pins va n) = π s := by
  rw [touchV, foldl_frame (π := π), foldl_frame (π := π) fun t l => hl t l]
  intro t p
  split
  · exact hc _ _ _ _
  · rfl

@[simp] theorem touchV_streams (s : State) (pins : SMap Nat) (va n : Nat) : (s.touchV pins va n).streams = s.streams :=
  touchV_frame (π := State.streams) (fun _ _ => rfl) countCoh_streams s pins va n

@[simp] theorem touchV_mem (s : State) (pins : SMap Nat) (va n : Nat) : (s.touchV pins va n).mem = s.mem :=
  touchV_frame (π := State.mem) (fun _ _ => rfl) countCoh_mem s pins va n

/-- The count of requests of another compartment changes registers alone (R300). -/
theorem countForeign_frame {α : Type} {π : State → α} (hb : ∀ (s : State) pg f, π (s.bump pg f) = π s) (s : State) (c : Nat)
    (dsEn : Bool) (ls : List Nat) : π (s.countForeign c dsEn ls) = π s := by
  unfold countForeign
  split
  · refine foldl_frame (fun t u => ?_) s _
    split
    · exact hb _ _ _
    · rfl
  · rfl

@[simp] theorem countForeign_streams (s : State) (c : Nat) (dsEn : Bool) (ls : List Nat) :
    (s.countForeign c dsEn ls).streams = s.streams := countForeign_frame (π := State.streams) (fun _ _ _ => rfl) s c dsEn ls

@[simp] theorem countForeign_mem (s : State) (c : Nat) (dsEn : Bool) (ls : List Nat) :
    (s.countForeign c dsEn ls).mem = s.mem := countForeign_frame (π := State.mem) (fun _ _ _ => rfl) s c dsEn ls

/-! ### Ends of requests -/

theorem SameMemory.trans {t u : State} (h : SameMemory s t) (g : SameMemory t u) : SameMemory s u := by
  obtain ⟨hmem, hfile, hbad⟩ := h
  obtain ⟨gmem, gfile, gbad⟩ := g
  exact ⟨gmem.trans hmem, gfile.trans hfile, gbad.trans hbad⟩

theorem SameMemory.symm {t : State} (h : SameMemory s t) : SameMemory t s := by
  obtain ⟨hmem, hfile, hbad⟩ := h
  exact ⟨hmem.symm, hfile.symm, hbad.symm⟩

theorem noteIdle_sameMemory (s : State) (d : Die) (n : Nat) : SameMemory s (s.noteIdle d n) := by
  unfold noteIdle
  split <;> exact ⟨rfl, rfl, rfl⟩

/-- The end of a descriptor with a status that reports no uncorrectable codeword leaves every memory as it is (R185). -/
theorem finish_sameMemory {st : Nat} (hst : st ≠ stUncorr) (s : State) (d : Die) (n q pos operand : Nat) :
    SameMemory s (s.finish d n q st pos operand) := by
  have he : s.finish d n q st pos operand = (s.endDesc d n q st pos operand).noteIdle d n := by simp [finish, hst]
  rw [he]
  exact SameMemory.trans ⟨rfl, rfl, rfl⟩ (noteIdle_sameMemory _ d n)

/-- The descriptor found in a slot is the slot's. -/
theorem slot_of_desc? (hx : s.desc? d n q = some x) : x.slot = q := by simpa using List.find?_some hx

/-- A lookup engine counts its descriptors in registers alone (R341). -/
theorem lkpDone_frame {α : Type} {π : State → α} (hb : ∀ (s : State) pg f, π (s.bump pg f) = π s) (s : State) (x : Desc) (st : Nat) :
    π (s.lkpDone x st) = π s := by
  unfold lkpDone
  dsimp only
  split <;> simp only [hb]

/-- A request for master lots, of whichever opcode, ends as its descriptor does. -/
theorem reqFinish_ended {st : Nat} (hst : st ≠ stUncorr) (hx : s.desc? d n q = some x) :
    (s.reqFinish d n q st).Ended d n q st ∧ SameMemory s (s.reqFinish d n q st) := by
  have hend := finish_ended posNone opNone hst hx
  have hmem := finish_sameMemory hst s d n q posNone opNone
  by_cases hop : x.op = 0x19
  · have he : s.reqFinish d n q st = (s.finish d n q st).lkpDone x st := by simp [reqFinish, lkpFinish, hx, hop, slot_of_desc? hx]
    rw [he]
    refine ⟨?_, hmem.trans ⟨?_, ?_, ?_⟩⟩
    · rw [Ended, desc?_of_streams (lkpDone_frame (π := State.streams) (fun _ _ _ => rfl) _ _ _)]
      exact hend
    · exact lkpDone_frame (π := State.mem) (fun _ _ _ => rfl) _ _ _
    · exact lkpDone_frame (π := State.file) (fun _ _ _ => rfl) _ _ _
    · exact lkpDone_frame (π := State.bad) (fun _ _ _ => rfl) _ _ _
  · have he : s.reqFinish d n q st = s.finish d n q st := by simp [reqFinish, hx, hop]
    rw [he]
    exact ⟨hend, hmem⟩

/-! ### Checks before a request is classified -/

/-- A descriptor whose lots are all resident goes on (R228). -/
theorem whenResident_of_resident (hx : s.desc? d n q = some x) (ha : s.absentLots (descLots x) = []) (f : Desc → State) :
    s.whenResident d n q f = f x := by simp [whenResident, hx, ha]

/-- Where every lot is whole, the search for one that is not finds none (R276). -/
theorem find?_not_lotWhole (hw : ∀ l < x.uLots, s.lotWhole x l = true) :
    ((List.range x.uLots).find? fun l => !s.lotWhole x l) = none := by simpa using hw

end Requests

/-! ### UPDATEs classified (R293 to R295) -/

section Classify

variable {s : State} {d : Die} {n q : Nat} {x : Desc}

/-- A request whose lots are all in order or applied, that no other holds and that comes after none that waits, is admitted. -/
theorem classify_of_admissible (hf : s.trailerFault x = none)
    (hcls : ∀ l < x.uLots, updClass (s.trailer x l) x.uMilestone x.uPass ≠ .waits) (hheld : s.lotsHeld d n q 0x20 (reqLots x) = false)
    (hafter : s.comesAfter d n q (x.uMilestone, x.uPass) (reqLots x) = false) :
    s.classify d n q x =
      s.admitUpdate d n q x ((List.range x.uLots).map fun l => updClass (s.trailer x l) x.uMilestone x.uPass) := by
  have hall : (((List.range x.uLots).map fun l => updClass (s.trailer x l) x.uMilestone x.uPass).all (· != .waits)) = true := by
    simpa using hcls
  simp [classify, hf, hall, hheld, hafter]

/-- A new request one of whose lots is not in order waits, unless a lot has eight waiters. -/
theorem classify_of_waits {l : Nat} (hf : s.trailerFault x = none) (hp : uPhase x ≠ 1) (hl : l < x.uLots)
    (hw : updClass (s.trailer x l) x.uMilestone x.uPass = .waits) :
    s.classify d n q x =
      (((List.range x.uLots).find? fun k => 8 ≤ s.waitersOf (lotPa x k)).map fun k =>
        (s.bump (s.lotPg x k) Reg.UPD_BUSY).finish d n q stBusy).getD
        (s.updDesc d n q fun y => { y with aux := [1, s.base, 0, 0] }) := by
  have hall : (((List.range x.uLots).map fun l => updClass (s.trailer x l) x.uMilestone x.uPass).all (· != .waits)) = false := by
    simpa using ⟨l, hl, hw⟩
  simp only [classify, hf, hall, Bool.false_and, Bool.false_eq_true, if_false, beq_iff_eq, hp]
  split <;> rename_i h <;> rw [h] <;> rfl

/-- A new request that must wait joins the waiters (R294). -/
theorem classify_joins_waiters {l : Nat} (hf : s.trailerFault x = none) (hp : uPhase x ≠ 1) (hl : l < x.uLots)
    (hw : updClass (s.trailer x l) x.uMilestone x.uPass = .waits) (hroom : ∀ k < x.uLots, s.waitersOf (lotPa x k) < 8) :
    s.classify d n q x = s.updDesc d n q fun y => { y with aux := [1, s.base, 0, 0] } := by
  have hnone : ((List.range x.uLots).find? fun k => 8 ≤ s.waitersOf (lotPa x k)) = none := by simpa using hroom
  rw [classify_of_waits hf hp hl hw, hnone]
  rfl

/-- A new request that must wait for a lot with eight waiters is counted and ends with BUSY (R295). -/
theorem classify_busy {l : Nat} (hf : s.trailerFault x = none) (hp : uPhase x ≠ 1) (hl : l < x.uLots)
    (hw : updClass (s.trailer x l) x.uMilestone x.uPass = .waits) {k : Nat} (hk : k < x.uLots) (hfull : 8 ≤ s.waitersOf (lotPa x k)) :
    ∃ m, s.classify d n q x = (s.bump (s.lotPg x m) Reg.UPD_BUSY).finish d n q stBusy := by
  have hsome : ((List.range x.uLots).find? fun k => 8 ≤ s.waitersOf (lotPa x k)).isSome = true := by
    simpa using ⟨k, hk, hfull⟩
  obtain ⟨m, hm⟩ := Option.isSome_iff_exists.1 hsome
  exact ⟨m, by rw [classify_of_waits hf hp hl hw, hm]; rfl⟩

/-- What an admitted UPDATE keeps: the gate's status and factor, and of each lot whether it is to be done (R285, R294). -/
def admittedDesc (x y : Desc) (st : Nat) (c : Num) (cs : List UpdClass) : Desc :=
  { y with aux := [2, uSince x, st, encodeFloat 16 c] ++ cs.map fun k => if k == .already then 2 else 0 }

/-- Before it settles, an UPDATE that passes its gate is admitted, and its counts and reads leave the streams and device memory
(R285, R294, R300). -/
theorem admitUpdate_of_step {c : Num} {st : Nat} (hg : s.updGate x = .step st c) (cs : List UpdClass) :
    ∃ t : State, s.admitUpdate d n q x cs = t.updSettle d n q ∧ t.mem = s.mem
      ∧ t.streams = (s.updDesc d n q fun y => admittedDesc x y st c cs).streams := by
  have hcount {α : Type} {π : State → α} (hb : ∀ (s : State) pg f, π (s.bump pg f) = π s) (u : State) :
      π (cs.zipIdx.foldl (fun a k => if k.1 == .already then a.bump (s.lotPg x k.2) Reg.UPD_IDEMP_SKIPS else a) u) = π u :=
    foldl_frame (fun t k => by split <;> simp only [hb]) u _
  refine ⟨_, by rw [admitUpdate, hg], ?_, ?_⟩
  · simp only [countForeign_mem, touchV_mem, hcount (π := State.mem) fun _ _ _ => rfl]
    rfl
  · simp only [countForeign_streams, touchV_streams, hcount (π := State.streams) fun _ _ _ => rfl]
    rfl

/-- An UPDATE with a lot to be done does not end yet (R281). -/
theorem updSettle_of_lot_left {l : Nat} (hx : s.desc? d n q = some x) (hl : l < x.uLots) (h : uLotSt x l = 0) :
    s.updSettle d n q = s := by
  have hall : ((List.range x.uLots).all fun l => uLotSt x l != 0) = false := by simpa using ⟨l, hl, h⟩
  simp [updSettle, hx, hall]

/-- An UPDATE of lots in order that passes its gate is admitted with the gate's status, and no byte of memory changes. -/
theorem admitUpdate_admits {c : Num} {st : Nat} {cs : List UpdClass} (hg : s.updGate x = .step st c) (hx : s.desc? d n q = some x)
    (hn : x.uLots ≠ 0) (hcs : cs[0]? = some .inOrder) :
    (s.admitUpdate d n q x cs).desc? d n q = some (admittedDesc x x st c cs) ∧ (s.admitUpdate d n q x cs).mem = s.mem := by
  obtain ⟨t, ht, hmem, hstr⟩ := admitUpdate_of_step (d := d) (n := n) (q := q) hg cs
  have hdesc : t.desc? d n q = some (admittedDesc x x st c cs) := by
    rw [desc?_of_streams hstr]
    exact desc?_updDesc_same (fun y => admittedDesc x y st c cs) (fun _ => rfl) hx
  have hlot : uLotSt (admittedDesc x x st c cs) 0 = 0 := by simp [uLotSt, admittedDesc, hcs]
  rw [ht, updSettle_of_lot_left hdesc (Nat.pos_of_ne_zero hn) hlot]
  exact ⟨hdesc, hmem⟩

end Classify

end Sys2Proof.Machine.State

/-! PROOFS. The commands of the update units (R276, R281 to R302, R309). -/

namespace Sys2Proof.Machine

section Updates

variable {s : State} {d : Die} {n q l u : Nat} {x : Desc}

/-- On the running descriptor of a slot a command of its opcode comes about. -/
theorem actD_withRunning_of_running {op : Nat} (h : s.RunningDesc d n q op x) (f : State → Desc → State) :
    actD d s (fun s => s.withRunning d n q op (f s)) = .next (f s x) := by
  have hd : s.LiveOn d := h.1
  rw [actD_of_liveOn hd, State.withRunning_of_running h]

/-- A parameter block breaks no rule that it meets (R282, R283). -/
theorem leastPos_broken_of_met {rs : List (Bool × Nat)} (h : ∀ r ∈ rs, r.1 = true) : leastPos (broken rs) = none := by
  have hb : broken rs = [] := by simpa [broken] using h
  rw [hb, leastPos]

/-- A new UPDATE's parameter block is read and checked and its arrays translated before it is classified (R276, R282 to R284). -/
theorem exec_update_of_new {y z : Desc} {s1 : State} (hx : s.RunningDesc d n q 0x20 x) (hr : s.runs (s.lotPg x 0) = true)
    (ha : x.aux = []) (hlay : x.layout = 0) (hw : ∀ l < x.uLots, s.lotWhole x l = true) (hb : s.badV x.pins (x.addr 32) 192 = false)
    (hy : y = { x with layout := s.rdVNat x.pins (x.addr 32) 192 }) (hrules : ∀ r ∈ blockRules y, r.1 = true)
    (hpin : (s.touchV x.pins (x.addr 32) 192).pinArrays d n q y (updateArrays y) 56 = (true, s1)) (hz : s1.desc? d n q = some z)
    (habs : s1.absentLots (State.descLots z) = []) : exec (.update d n q) s = .next (s1.classify d n q z) := by
  have he : exec (.update d n q) s = execUpdate d n q s := rfl
  have hnew : x.aux.isEmpty = true := by simp [ha]
  have hrule := leastPos_broken_of_met hrules
  rw [he, execUpdate, actD_withRunning_of_running hx]
  simp only [hr, hnew, hlay, State.find?_not_lotWhole hw, hb, ← hy, hrule, hpin, State.whenResident_of_resident hz habs,
    Bool.not_true, Bool.or_self, Bool.false_eq_true, beq_self_eq_true, if_false, if_true]

/-- An UPDATE whose block has been read is classified (R293). -/
theorem exec_update_of_read (hx : s.RunningDesc d n q 0x20 x) (hr : s.runs (s.lotPg x 0) = true) (ha : x.aux = [])
    (hlay : x.layout ≠ 0) (habs : s.absentLots (State.descLots x) = []) :
    exec (.update d n q) s = .next (s.classify d n q x) := by
  have ⟨_, hdesc, _⟩ := hx
  have he : exec (.update d n q) s = execUpdate d n q s := rfl
  rw [he, execUpdate, actD_withRunning_of_running hx]
  simp [hr, ha, hlay, State.whenResident_of_resident hdesc habs]

/-- A waiting UPDATE is classified again (R294). -/
theorem exec_updateAdmit_of_waiting (hx : s.RunningDesc d n q 0x20 x) (hp : uPhase x = 1) :
    exec (.updateAdmit d n q) s = .next (s.classify d n q x) := by
  have he : exec (.updateAdmit d n q) s = execUpdateAdmit d n q s := rfl
  rw [he, execUpdateAdmit, actD_withRunning_of_running hx]
  simp [hp]

/-- A request that has waited the gap timeout of the unit of its first lot is counted and ends (R296). -/
theorem exec_orderGapTimeout_of_due (hd : s.LiveOn d) (hx : s.desc? d n q = some x) (hrun : x.phase = .running)
    (hop : x.op = 0x19 ∨ x.op = 0x20 ∨ x.op = 0x21) (hp : uPhase x = 1) (hu : u = (((reqLots x).head?).bind s.updUnit).getD 0)
    (hdue : uSince x + s.getF (updPg u) Reg.UPD_GAP_TIMEOUT_US * 1000 ≤ s.base) :
    exec (.orderGapTimeout d n q) s = .next ((s.bump (updPg u) Reg.UPD_GAP_TIMEOUTS).reqFinish d n q stGap) := by
  have he : exec (.orderGapTimeout d n q) s = execOrderGapTimeout d n q s := rfl
  have hop' : (x.op == 0x19 || x.op == 0x20 || x.op == 0x21) = true := by simpa [or_assoc] using hop
  rw [he, execOrderGapTimeout, actD_of_liveOn hd]
  simp only [hx, hrun, hop', hp, ← hu, hdue, beq_self_eq_true, decide_true, Bool.and_self, if_true]

/-- The unit of a lot to be done handles it, as the gate decided when the UPDATE was admitted (R281, R285, R286). -/
theorem exec_updateLotApply_of_lot_left (hd : s.LiveOn d) (hx : s.desc? d n q = some x) (hrun : x.phase = .running)
    (hop : x.op = 0x20) (hp : uPhase x = 2) (hu : s.updUnit (lotPa x l) = some u) (hl : l < x.uLots) (hst : uLotSt x l = 0)
    (hr : s.runs (updPg u) = true) (hm : s.writesMoving x = false) (hsnap : s.snapHolds (lotPa x l) = false) :
    exec (.updateLotApply d n q l) s = .next
      (if uStatus x == stOk then
        s.applyUpdLot d n q l u x (fun _ => true) (s.lotGrad x l) (s.lotAnchors x l) (uClip x) (fun t => t.lotDone d n q l)
       else s.skipUpdLot d n q l u x (fun t => t.lotDone d n q l)) := by
  have he : exec (.updateLotApply d n q l) s = execUpdateLotApply d n q l s := rfl
  rw [he, execUpdateLotApply, actD_of_liveOn hd]
  simp [hx, hrun, hop, hp, hu, hl, hst, hr, hm, hsnap]

/-! ### Difference streams (R300 to R302, R309) -/

/-- The producer offset of a unit in the ring of the record in progress (R302). -/
def dsHead (s : State) (k : Nat) (r : DsRec) : Nat := s.getF (updPg k) Reg.UPD_DS_HEAD % 2 ^ r.log2

/-- Where the record in progress begins: at the producer offset, or at the ring's start where it does not fit before the end (R302). -/
def dsStart (s : State) (k : Nat) (r : DsRec) : Nat := if dsHead s k r + r.bytes.length ≤ 2 ^ r.log2 then dsHead s k r else 0

/-- The state with the PAD record that goes before one that does not fit before the ring's end (R302). -/
def dsPadded (s : State) (k : Nat) (r : DsRec) : State :=
  if dsHead s k r + r.bytes.length ≤ 2 ^ r.log2 then s
  else s.wrBytes (r.base + dsHead s k r) (State.dsRecord k 4 0 0 0 0 0 [] ((2 ^ r.log2 - dsHead s k r) / 64))

/-- The record in progress of a unit is written where its ring goes on, and the producer offset passes it (R302). -/
theorem exec_dsRecordWrite_of_record {r : DsRec} (hs : s.Live) (hr : (s.dsUnit (u % 16)).out = some r) :
    exec (.dsRecordWrite u) s = .next
      ((((dsPadded s (u % 16) r).wrBytes (r.base + dsStart s (u % 16) r) r.bytes).setF (updPg (u % 16)) Reg.UPD_DS_HEAD
        ((dsStart s (u % 16) r + r.bytes.length) % 2 ^ r.log2)).setDs (u % 16) { s.dsUnit (u % 16) with out := none }) := by
  have he : exec (.dsRecordWrite u) s = execDsRecordWrite u s := rfl
  rw [he, execDsRecordWrite, act_of_live hs]
  obtain h | h := Nat.lt_or_ge (2 ^ r.log2) (dsHead s (u % 16) r + r.bytes.length) <;> rw [dsHead] at h
  · simp [hr, dsStart, dsPadded, dsHead, h, Nat.not_le.2 h]
  · simp [hr, dsStart, dsPadded, dsHead, h, Nat.not_lt.2 h]

/-- A producer offset below the size of a ring, which is at most 2^30, reads as it was written. -/
theorem head_of_dsRecordWrite (s : State) (k h : Nat) (y : DsUnit) {m : Nat} (hm : m ≤ 30) :
    ((s.setF (updPg k) Reg.UPD_DS_HEAD (h % 2 ^ m)).setDs k y).getF (updPg k) Reg.UPD_DS_HEAD = h % 2 ^ m := by
  have hlt : h % 2 ^ m < 2 ^ Reg.UPD_DS_HEAD.w :=
    Nat.lt_of_lt_of_le (Nat.mod_lt _ (Nat.two_pow_pos m)) (Nat.pow_le_pow_right (by decide) hm)
  rw [State.setDs_getF, State.getF_setF_same _ _ _ _ _ (by decide), Nat.mod_eq_of_lt hlt]

theorem dsUnit_setDs_same (s : State) (k : Nat) (y : DsUnit) : (s.setDs k y).dsUnit k = y := by
  simp [State.dsUnit, State.setDs, SMap.getD]

theorem exec_updDsTail_of_live (hs : s.Live) (u : Nat) (v : W32) :
    exec (.updDsTail u v) s = .next (s.setF (updPg (u % 16)) Reg.UPD_DS_TAIL v.toNat) := by
  have he : exec (.updDsTail u v) s = execUpdDsTail u v s := rfl
  rw [he, execUpdDsTail, act_of_live hs]

/-- While a stream's MODE is 0 the write of one of its settings' words is that of the register (R309, R527). -/
theorem exec_updDsCfgWrite_of_off (hs : s.Live) (hm : s.getF (updPg (u % 16)) Reg.UPD_DS_CFG_MODE = 0) {off : Nat}
    (ho : off = 0x44 ∨ off = 0x48 ∨ off = 0x4C) (v : W32) :
    exec (.updDsCfgWrite u off v) s = .next
      (if off = 0x48 then s.holdLo (updPg (u % 16)) off v.toNat
       else if off = 0x4C then (s.takeLo (updPg (u % 16)) 0x48).rwWrite (updPg (u % 16)) off v.toNat
       else s.rwWrite (updPg (u % 16)) off v.toNat) := by
  have he : exec (.updDsCfgWrite u off v) s = execUpdDsCfgWrite u off v s := rfl
  rw [he, execUpdDsCfgWrite, act_of_live hs]
  rcases ho with rfl | rfl | rfl <;> simp [hm]

end Updates

end Sys2Proof.Machine

namespace Sys2Proof

open Sys2Proof.Machine

/-- Settles O20: each command has its rule above, and the end of a request by the gap timeout leaves every memory as it is. -/
theorem updateRequests : Obligations.UpdateRequests := by
  unfold Obligations.UpdateRequests
  refine ⟨fun d n q x y z s s1 => exec_update_of_new, fun d n q x s => exec_update_of_read,
    fun d n q x s => exec_updateAdmit_of_waiting, fun d n q u x s hd hx hrun hop hp hu hdue => ?_⟩
  have hx' : (s.bump (updPg u) Reg.UPD_GAP_TIMEOUTS).desc? d n q = some x := hx
  obtain ⟨hend, hmem, -⟩ := State.reqFinish_ended (st := stGap) (by decide) hx'
  exact ⟨_, exec_orderGapTimeout_of_due hd hx hrun hop hp hu hdue, hend, hmem⟩

/-- Settles O21: a waiting UPDATE that may be admitted has a lot to be done, so that it stays admitted (`admitUpdate_admits`); a new one
with a lot out of order joins the waiters or ends, by whether one of its lots has eight of them. -/
theorem updateOrder : Obligations.UpdateOrder := by
  unfold Obligations.UpdateOrder
  refine ⟨fun d n q x c st s hx hp hf hcls hheld hafter hg hn hin => ?_, fun d n q l x s hx hr ha hlay habs hf hl hw => ?_⟩
  · have ⟨_, hd, hrun, _⟩ := hx
    have h0 : 0 < x.uLots := Nat.pos_of_ne_zero hn
    obtain ⟨hdesc, hmem⟩ := State.admitUpdate_admits hg hd hn
      (cs := (List.range x.uLots).map fun l => updClass (s.trailer x l) x.uMilestone x.uPass) (by simp [h0, hin 0 h0])
    rw [← State.classify_of_admissible hf hcls hheld hafter] at hdesc hmem
    exact ⟨_, _, exec_updateAdmit_of_waiting hx hp, hdesc, hrun, rfl, rfl, hmem⟩
  · have ⟨_, hd, _⟩ := hx
    have hp : uPhase x ≠ 1 := by simp [uPhase, ha]
    refine ⟨_, exec_update_of_read hx hr ha hlay habs, ?_⟩
    by_cases hroom : ∀ k < x.uLots, s.waitersOf (lotPa x k) < 8
    · rw [State.classify_joins_waiters hf hp hl hw hroom]
      refine ⟨rfl, fun _ => ⟨_, State.desc?_updDesc_same _ (fun _ => rfl) hd, rfl, rfl⟩, fun hfull => ?_⟩
      exact absurd (hroom l hl) (Nat.not_lt.2 hfull)
    · obtain ⟨k, hk, hfull⟩ : ∃ k < x.uLots, 8 ≤ s.waitersOf (lotPa x k) := by simpa using hroom
      obtain ⟨m, hm⟩ := State.classify_busy (d := d) (n := n) (q := q) hf hp hl hw hk hfull
      obtain ⟨hmem, -⟩ := State.finish_sameMemory (st := stBusy) (by decide) (s.bump (s.lotPg x m) Reg.UPD_BUSY) d n q posNone opNone
      rw [hm]
      exact ⟨hmem, fun h => absurd h hroom, fun _ => State.finish_ended _ _ (by decide) hd⟩

/-- Settles O22, by the rule for a lot that is to be done. -/
theorem updateLots : Obligations.UpdateLots := by
  unfold Obligations.UpdateLots
  exact fun d n q l u x s => exec_updateLotApply_of_lot_left

/-- Settles O23: the producer offset is within the ring, so that its field holds it. -/
theorem differenceStreams : Obligations.DifferenceStreams := by
  unfold Obligations.DifferenceStreams
  refine ⟨fun u r s hs hr hlog _ => ?_, fun u v s hs => exec_updDsTail_of_live hs u v, fun u v s hs hm => ?_⟩
  · exact ⟨_, exec_dsRecordWrite_of_record hs hr, congrArg DsUnit.out (dsUnit_setDs_same _ _ _), head_of_dsRecordWrite _ _ _ _ hlog⟩
  · have hcfg {off : Nat} := exec_updDsCfgWrite_of_off (off := off) (v := v) hs hm
    exact ⟨hcfg (.inl rfl), hcfg (.inr (.inl rfl)), hcfg (.inr (.inr rfl))⟩

end Sys2Proof

/-! PROOFS. The commands of a SNAPSHOT (R305 to R308). -/

namespace Sys2Proof.Machine

section Snapshots

variable {s : State} {d : Die} {n q l u : Nat} {x : Desc}

/-- A new SNAPSHOT's target record is read once and checked before the request is classified (R305, R306). -/
theorem exec_snapshot_of_new {y z : Desc} {s1 : State} (hx : s.RunningDesc d n q 0x21 x) (hr : s.runs (s.lotPg x 0) = true)
    (hp : uPhase x < 2) (hlay : x.layout = 0) (hw : ∀ l < x.uLots, s.lotWhole x l = true) (hb : s.badV x.pins (x.addr 24) 64 = false)
    (hy : y = { x with layout := s.rdVNat x.pins (x.addr 24) 64 + 2 ^ 512 }) (hmask : y.layout &&& (2 ^ 513 - 1 - tgtMask) = 0)
    (ht : s.targetFault d n y = none) (hs1 : s1 = s.updDesc d n q fun w => { w with layout := y.layout })
    (hz : s1.desc? d n q = some z) (habs : s1.absentLots (State.descLots z) = []) :
    exec (.snapshot d n q) s = .next (s1.snapClassify d n q z) := by
  have he : exec (.snapshot d n q) s = execSnapshot d n q s := rfl
  rw [he, execSnapshot, actD_withRunning_of_running hx]
  subst hy hs1
  dsimp only at hmask hz habs
  simp only [hr, Nat.not_le.2 hp, hlay, State.find?_not_lotWhole hw, hb, hmask, ht,
    State.whenResident_of_resident hz habs, Bool.not_true, Bool.false_or, decide_false, bne_self_eq_false, Bool.false_eq_true,
    beq_self_eq_true, if_false, if_true]

/-- A SNAPSHOT whose target record has been read is classified (R306). -/
theorem exec_snapshot_of_read (hx : s.RunningDesc d n q 0x21 x) (hr : s.runs (s.lotPg x 0) = true) (hp : uPhase x < 2)
    (hlay : x.layout ≠ 0) (habs : s.absentLots (State.descLots x) = []) :
    exec (.snapshot d n q) s = .next (s.snapClassify d n q x) := by
  have ⟨_, hdesc, _⟩ := hx
  have he : exec (.snapshot d n q) s = execSnapshot d n q s := rfl
  rw [he, execSnapshot, actD_withRunning_of_running hx]
  simp [hr, Nat.not_le.2 hp, hlay, State.whenResident_of_resident hdesc habs]

/-- Lot `l` of an admitted SNAPSHOT, resident and good, is the next of a unit that runs, and its target passes (R305, R307). -/
structure MayShip (s : State) (d : Die) (n q l : Nat) (x : Desc) : Prop where
  running : s.RunningDesc d n q 0x21 x
  phase : uPhase x = 2
  lot : l < x.uLots
  turn : s.shipTurn x l = true
  runs : s.runs (s.lotPg x l) = true
  resident : s.absentLots (State.lotsV x.pins (lotVa x l) 65536) = []
  good : s.badV x.pins (lotVa x l) 65536 = false
  target : s.targetFault d n x = none

/-- The next lot of a unit is copied to a local target (R307). -/
theorem exec_snapshotLotShip_local (h : MayShip s d n q l x) (hk : tgtKind x = 0)
    (hblk : s.blockedLots (State.lotsOf (tgtDest x + 65536 * l) 65536) = [])
    (hpart : s.partialBad (tgtDest x + 65536 * l) 65536 = false) :
    exec (.snapshotLotShip d n q l) s = .next
      (((s.touchV x.pins (lotVa x l) 65536).wrBytes (tgtDest x + 65536 * l) (s.rdV x.pins (lotVa x l) 65536)).setShip d n q l 1) := by
  obtain ⟨hx, hp, hl, hturn, hr, habs, hb, ht⟩ := h
  have he : exec (.snapshotLotShip d n q l) s = execSnapshotLotShip d n q l s := rfl
  rw [he, execSnapshotLotShip, actD_withRunning_of_running hx]
  simp [hp, Nat.not_le.2 hl, hturn, hr, habs, hb, ht, hk, hblk, hpart]

/-- The next lot of a unit is posted to a remote target's queue pair (R307, R351). -/
theorem exec_snapshotLotShip_remote (h : MayShip s d n q l x) (hk : tgtKind x = 1)
    (hq : s.qpReady (qpnKey (tgtQpn x)) (dieCode d, n, q, x.seq) 1 65536 = true) :
    exec (.snapshotLotShip d n q l) s = .next
      (((s.touchV x.pins (lotVa x l) 65536).setShip d n q l 1).post (qpnKey (tgtQpn x)) (.lot (dieCode d) n q x.seq l) 1
        (tgtDest x + 65536 * l) (tgtHandle x) none (s.rdV x.pins (lotVa x l) 65536) 65536) := by
  obtain ⟨hx, hp, hl, hturn, hr, habs, hb, ht⟩ := h
  have he : exec (.snapshotLotShip d n q l) s = execSnapshotLotShip d n q l s := rfl
  rw [he, execSnapshotLotShip, actD_withRunning_of_running hx]
  simp [hp, Nat.not_le.2 hl, hturn, hr, habs, hb, ht, hk, hq]

/-- A lot in flight that its target has acknowledged is shipped, and the last one ends the SNAPSHOT (R307, R351): the delay that it
caused is noted in a register before. -/
theorem exec_snapshotAck_of_acked (hx : s.RunningDesc d n q 0x21 x) (hp : uPhase x = 2) (hl : l < x.uLots)
    (hst : uLotSt x l % 4 = 1)
    (hsent : tgtKind x = 1 → ∀ w ∈ (s.qp (qpnKey (tgtQpn x))).sent, w.src ≠ .lot (dieCode d) n q x.seq l) :
    ∃ t : State, t.streams = s.streams ∧ State.SameMemory s t ∧ exec (.snapshotAck d n q l) s = .next
      (if ((List.range x.uLots).all fun k => k == l || uLotSt x k % 4 == 2) = true then (t.setShip d n q l 2).finish d n q stOk
       else t.setShip d n q l 2) := by
  have he : exec (.snapshotAck d n q l) s = execSnapshotAck d n q l s := rfl
  have hacked : (tgtKind x == 1 && (s.qp (qpnKey (tgtQpn x))).sent.any fun w => w.src == .lot (dieCode d) n q x.seq l) = false := by
    simpa using hsent
  rw [he, execSnapshotAck, actD_withRunning_of_running hx]
  simp only [hacked, hp, Nat.not_le.2 hl, hst, bne_self_eq_false, decide_false, Bool.or_self, Bool.false_eq_true, if_false]
  refine ⟨_, ?_, ?_, rfl⟩
  · split <;> rfl
  · split <;> exact ⟨rfl, rfl, rfl⟩

/-- A SNAPSHOT one of whose lots is delayed past the limit is counted and abandoned with BUSY (R307). -/
theorem exec_snapshotDelayLimit_of_due (hx : s.RunningDesc d n q 0x21 x) (hu : snapDelay? x l = some u) (hp : uPhase x = 2)
    (hl : l < x.uLots) (hst : uLotSt x l % 4 < 2) (hdue : u + x.f 44 0 32 * 1000 ≤ s.base) :
    exec (.snapshotDelayLimit d n q l) s = .next ((s.bump (s.lotPg x l) Reg.UPD_BUSY).finish d n q stBusy) := by
  have he : exec (.snapshotDelayLimit d n q l) s = execSnapshotDelayLimit d n q l s := rfl
  rw [he, execSnapshotDelayLimit, actD_withRunning_of_running hx]
  simp [hu, hp, hl, hst, hdue]

end Snapshots

end Sys2Proof.Machine

namespace Sys2Proof

open Sys2Proof.Machine

/-- Settles O24: each command has its rule above; the state of a lot, a count and the end of the descriptor leave every memory. -/
theorem snapshots : Obligations.Snapshots := by
  unfold Obligations.Snapshots
  refine ⟨fun d n q x y z s s1 => exec_snapshot_of_new, fun d n q x s => exec_snapshot_of_read,
    fun d n q l x s hx hp hl hturn hr habs hb ht => ?_, fun d n q l x s hx hp hl hst hsent => ?_,
    fun d n q l u x s hx hu hp hl hst hdue => ?_⟩
  · have hship : MayShip s d n q l x := ⟨hx, hp, hl, hturn, hr, habs, hb, ht⟩
    exact ⟨exec_snapshotLotShip_local hship, exec_snapshotLotShip_remote hship⟩
  · have ⟨_, hd, _⟩ := hx
    obtain ⟨t, hstr, hmem, he⟩ := exec_snapshotAck_of_acked hx hp hl hst hsent
    refine ⟨_, he, fun hlast => ?_, ?_⟩
    · have hship := State.desc?_updDesc_same (fun y => setLotSt y l (uLotSt y l / 4 * 4 + 2)) (fun _ => rfl)
        ((State.desc?_of_streams hstr d n q).trans hd)
      rw [if_pos (by simpa using hlast)]
      exact State.finish_ended _ _ (by decide) hship
    · have hset : State.SameMemory s (t.setShip d n q l 2) := hmem
      split
      · exact (hset.trans (State.finish_sameMemory (by decide) _ _ _ _ _ _)).symm
      · exact hset.symm
  · have ⟨_, hd, _⟩ := hx
    have hmem : State.SameMemory s ((s.bump (s.lotPg x l) Reg.UPD_BUSY).finish d n q stBusy) :=
      State.finish_sameMemory (by decide) (s.bump (s.lotPg x l) Reg.UPD_BUSY) d n q _ _
    exact ⟨_, exec_snapshotDelayLimit_of_due hx hu hp hl hst hdue, State.finish_ended _ _ (by decide) hd, hmem.symm⟩

end Sys2Proof

/-! PROOFS. What writes of device memory leave of the tables and of the lots' tiers, and bytes read back after them. -/

namespace Sys2Proof.Machine.State

/-! ### Frames -/

@[simp] theorem wrBytes_tables (s : State) (a : Nat) (bs : Bytes) : (s.wrBytes a bs).tables = s.tables := by
  obtain ⟨u, p, ⟨⟨c, r, rfl⟩, -⟩, h⟩ := wrBytes_eq s a bs
  rw [h]

/-- The tiers of the lots and the lots that move: what a write waits for (R228, R234). -/
def residence (s : State) : (Nat → Nat) × List LotMove := (s.lotTier, s.place.moves)

theorem residence_of_place {s t : State} (h : t.place = s.place) : t.residence = s.residence := by
  simp only [residence, h, funext (lotTier_of_place h)]

/-- Where no lot is away and none moves, no access waits. -/
theorem blockedLots_of_residence {s t : State} (h : t.residence = s.residence) (ht : ∀ a, s.lotTier a ≠ 2)
    (hm : s.place.moves = []) (ls : List Nat) : t.blockedLots ls = [] := by
  obtain ⟨htier, hmoves⟩ := Prod.ext_iff.1 h
  have htier' (a : Nat) : t.lotTier a = s.lotTier a := congrFun htier a
  have hmoves' : t.place.moves = [] := hmoves.trans hm
  simp [blockedLots, lotMoving, htier', hmoves', ht]

variable (s : State)

/-- A lot's map entry that keeps its TIER field leaves every tier (R207). -/
theorem setEntry_residence {l v : Nat} (h : bitsOf v 0 2 = s.lotTier l) : (s.setEntry l v).residence = s.residence := by
  refine Prod.ext (funext fun k => ?_) rfl
  change bitsOf (SMap.getD (SMap.putD s.place.map 3 l v) k 3) 0 2 = s.lotTier k
  rw [SMap.getD_putD]
  split
  · next hk => rw [h, hk]
  · rfl

@[simp] theorem touchLot_residence (l : Nat) (wr : Bool) : (s.touchLot l wr).residence = s.residence := by
  cases wr with
  | false => rfl
  | true =>
    have hdirty (t : State) : (t.setEntry l (putBits (t.entry l) 2 1 1)).residence = t.residence :=
      setEntry_residence t (bitsOf_putBits_below _ _ _ _ _ _ (by decide))
    have hage (t : State) : (t.setEntry l (putBits (t.entry l) 3 8 0)).residence = t.residence :=
      setEntry_residence t (bitsOf_putBits_below _ _ _ _ _ _ (by decide))
    simp only [touchLot, if_true]
    split
    · exact (hage _).trans (hdirty _)
    · exact hdirty _

@[simp] theorem touchRead_residence (a n : Nat) : (s.touchRead a n).residence = s.residence :=
  foldl_frame (fun t l => touchLot_residence t l false) s _

@[simp] theorem wrBytes_residence (a : Nat) (bs : Bytes) : (s.wrBytes a bs).residence = s.residence :=
  (foldl_frame (fun t l => touchLot_residence t l true) _ _).trans
    (residence_of_place (noteWrites_chanOnly s a bs.length).place)

@[simp] theorem wrNat_residence (a v n : Nat) : (s.wrNat a v n).residence = s.residence := wrBytes_residence s a _

/-! ### Channels under the registry's registers (R257 to R259, R342) -/

/-- A field of the registry's page is no field of another page. -/
theorem getF_setF_lkpReg {f : Fld} (hf : f.off < 4096) (v : Nat) {pg : Page} (hp : pg ≠ lkpRegPg) (hi : pg.inst < 256) {g : Fld}
    (hg : g.off < 4096) : (s.setF lkpRegPg f v).getF pg g = s.getF pg g :=
  getF_setF_other _ _ _ _ _ _ _ _ fun h =>
    hp (regKey_inj _ _ _ _ _ _ hi (by decide) hg hf (by decide) (by decide) h).1

theorem setF_lkpReg_cwOf {f : Fld} (hf : f.off < 4096) (v a : Nat) : (s.setF lkpRegPg f v).cwOf a = s.cwOf a := by
  have hmgmt {g : Fld} (hg : g.off < 4096) : (s.setF lkpRegPg f v).getF mgmtPg g = s.getF mgmtPg g :=
    getF_setF_lkpReg s hf v (by decide) (by decide) hg
  have hsets : (s.setF lkpRegPg f v).depotSets = s.depotSets := by
    simp only [depotSets, hmgmt (g := Reg.MGMT_LIMITED_ACTIVE) (by decide), hmgmt (g := Reg.MGMT_LIMITED_DEPOT_SETS) (by decide)]
  have hlost : (s.setF lkpRegPg f v).nearLost = s.nearLost := by
    simp only [nearLost, hmgmt (g := Reg.MGMT_LIMITED_ACTIVE) (by decide), hmgmt (g := Reg.MGMT_LIMITED_NS_STACKS) (by decide)]
  have hgib : (s.setF lkpRegPg f v).localGib = s.localGib := getF_setF_lkpReg s hf v (by decide) (by decide) (by decide)
  have heng (d : Die) (e : Nat) : (s.setF lkpRegPg f v).engineLive d e = s.engineLive d e := by
    by_cases he : e < 100
    · have hcap := getF_setF_lkpReg s hf v (pg := engPg d e) (g := Reg.ENG_CAP_ENABLED) nofun (Nat.lt_trans he (by decide)) (by decide)
      simp only [engineLive, setF_fuses, hcap]
    · simp [engineLive, he]
  have hloc : (s.setF lkpRegPg f v).locate a = s.locate a := by
    unfold locate depotEnd
    rw [hsets, hlost]
    simp only [heng]
  have htier (l : Nat) : (s.setF lkpRegPg f v).lotTier l = s.lotTier l := rfl
  have hway (l : Nat) : (s.setF lkpRegPg f v).lotWay l = s.lotWay l := rfl
  have hframe : (s.setF lkpRegPg f v).frameByte a = s.frameByte a := by
    simp only [frameByte, hloc, frameAddr, bucketOf, buckets, hsets, htier, hway]
  have hchans : (s.setF lkpRegPg f v).depotChans = s.depotChans := rfl
  simp only [cwOf, hframe, hgib, hchans]

/-- A write of the registry's registers changes no codeword and fences no channel. -/
theorem setF_lkpReg_partialBad {f : Fld} (hf : f.off < 4096) (v a n : Nat) :
    (s.setF lkpRegPg f v).partialBad a n = s.partialBad a n := by
  have hunus : (s.setF lkpRegPg f v).unusable = s.unusable := rfl
  simp only [partialBad, setF_bad, fencedIn, fenced, hunus, setF_lkpReg_cwOf s hf]

end Sys2Proof.Machine.State
namespace Sys2Proof.Machine

/-- A bit of the first byte is that bit of the little-endian number (R14). -/
theorem testBit_leNat_cons {i : Nat} (hi : i < 8) (b : Byte) (bs : Bytes) : (leNat (b :: bs)).testBit i = b.toNat.testBit i := by
  have hcons : leNat (b :: bs) = b.toNat + 256 * leNat bs := rfl
  have hmod : leNat (b :: bs) % 2 ^ 8 = b.toNat := by
    have := b.isLt
    omega
  rw [← hmod, Nat.testBit_mod_two_pow]
  simp [hi]

/-- A field of one bit reads as the low bit of what was put there. -/
theorem testBit_putBits_one (v lo b : Nat) : (putBits v lo 1 b).testBit lo = decide (b % 2 = 1) := by
  have hbit (w : Nat) : bitsOf w lo 1 = w / 2 ^ lo % 2 := congrArg (· % 2) (Nat.shiftRight_eq_div_pow w lo)
  have hput : bitsOf (putBits v lo 1 b) lo 1 = b % 2 := bitsOf_putBits v lo 1 b
  rw [Nat.testBit_eq_decide_div_mod_eq, ← hbit, hput]

namespace State

/-- A bit of the low byte written, read in a number of more bytes. -/
theorem testBit_rdNat_wrNat {s : State} {a : Nat} (hb : s.partialBad a 1 = false) {i : Nat} (hi : i < 8) (v n : Nat) :
    ((s.wrNat a v 1).rdNat a (n + 1)).testBit i = v.testBit i := by
  have hmem : (s.wrNat a v 1).mem = Memory.write s.mem a (BitVec.ofNat 8 v) := wrBytes_mem_of_good s a _ hb
  rw [rdNat, rdBytes, Memory.readBytes, hmem, Memory.read_write_same, testBit_leNat_cons hi]
  rw [BitVec.toNat_ofNat, Nat.testBit_mod_two_pow]
  simp [hi]

end State

end Sys2Proof.Machine

/-! PROOFS. The registry of tables (R315 to R321, R338, R339, R342). -/

namespace Sys2Proof.Machine

section Registry

variable {s : State} {v : W32} {key k e : Nat}

/-! ### Slots (R315, R316) -/

@[simp] theorem State.tblSlot_setTblSlot_same (s : State) (key : Nat) (x : TblSlot) : (s.setTblSlot key x).tblSlot key = x := by
  simp [State.tblSlot, State.setTblSlot, SMap.getD]

theorem State.tblSlot_setTblSlot_other (s : State) {j key : Nat} (x : TblSlot) (h : j ≠ key) :
    (s.setTblSlot key x).tblSlot j = s.tblSlot j := by
  simp [State.tblSlot, State.setTblSlot, SMap.getD, SMap.find_put_other _ _ _ _ h]

theorem xor_one_ne (key : Nat) : key ^^^ 1 ≠ key := fun h => by simpa [← Nat.xor_assoc] using congrArg (key ^^^ ·) h

/-- A LOAD of a free slot, none being in progress, goes on to its version record (R315). -/
theorem exec_load_of_free (hs : s.Live) (hl : s.tblLoad = none) (hst : (s.tblSlot (s.tblCmd v).1).st = 0) :
    exec (.load v) s = .next ((s.tblCmd v).2.loadTake (s.tblCmd v).1
      (s.getF lkpRegPg Reg.LKP_TBL_REC_LO_PA <<< 6 + s.getF lkpRegPg Reg.LKP_TBL_REC_HI_PA <<< 32)) := by
  have he : exec (.load v) s = execLoad v s := rfl
  rw [he, execLoad, act_of_live hs]
  simp [hl, hst]

/-- HOT cleared in the directory entries of some rows of a version (R315). -/
def clearHot (s : State) (ver : Nat) (rows : List Nat) : State :=
  rows.foldl (fun a r => a.wrNat (verDir ver + 16 * r) (putBits (a.rdNat (verDir ver + 16 * r) 1) 2 1 0) 1) s

@[simp] theorem clearHot_tables (s : State) (ver : Nat) (rows : List Nat) : (clearHot s ver rows).tables = s.tables :=
  State.foldl_frame (fun t _ => State.wrBytes_tables t _ _) s rows

/-- A LOAD whose record has been taken clears HOT in the directory, forgets the slot's hot rows and ends (R315). -/
theorem exec_loadComplete_of_taken {l : TblLoad} (hs : s.Live) (hl : s.tblLoad = some l) (ht : l.taken = true)
    (hb : s.blockedLots ((s.hotRows (s.tblSlot l.key).ver).flatMap fun r =>
      State.lotsOf (verDir (s.tblSlot l.key).ver + 16 * r) 16) = []) :
    exec .loadComplete s = .next { clearHot s (s.tblSlot l.key).ver (s.hotRows (s.tblSlot l.key).ver) with
      tblLoad := none
      hot := (clearHot s (s.tblSlot l.key).ver (s.hotRows (s.tblSlot l.key).ver)).hot.filter fun h => h.key != l.key } := by
  have he : exec .loadComplete s = execLoadComplete s := rfl
  rw [he, execLoadComplete, act_of_live hs]
  simp [hl, ht, hb, clearHot]

/-- UNLOAD frees a LOADED slot and the slot's hot rows (R316). -/
theorem exec_unload_of_loaded (hs : s.Live) (hst : (s.tblSlot (s.tblCmd v).1).st = 1) :
    exec (.unload v) s = .next { (s.tblCmd v).2.setTblSlot (s.tblCmd v).1 TblSlot.init with
      hot := s.hot.filter fun h => h.key != (s.tblCmd v).1 } := by
  have he : exec (.unload v) s = execUnload v s := rfl
  rw [he, execUnload, act_of_live hs]
  simp [hst]

/-- What becomes of a CURRENT slot when its table's other slot does: FREE when no descriptor has latched it, else DRAINING (R316). -/
def displaced (s : State) (key : Nat) : TblSlot :=
  if s.latched key = [] then TblSlot.init else { s.tblSlot key with st := 3 }

/-- SWITCH makes a LOADED slot CURRENT and displaces the other one, if that was (R316, R317). -/
theorem exec_switch_of_loaded (hs : s.Live) (hk : key = bitsOf v.toNat 0 10 * 2 + bitsOf v.toNat 10 1)
    (hst : (s.tblSlot key).st = 1) {t : State}
    (ht : t = (s.setWord lkpRegPg 0x50 (v.toNat % 2 ^ 11)).setTblSlot key { s.tblSlot key with st := 2 }) :
    exec (.switch v) s = .next
      (if (s.tblSlot (key ^^^ 1)).st = 2 then t.setTblSlot (key ^^^ 1) (displaced s (key ^^^ 1)) else t) := by
  have he : exec (.switch v) s = execSwitch v s := rfl
  rw [he, execSwitch, act_of_live hs]
  simp only [← hk, hst, ← ht, displaced, beq_iff_eq, List.isEmpty_iff]
  split
  · split <;> rfl
  · rfl

/-! ### Rows (R321) -/

/-- The registers of LKP_ROW_CMD once a command that is done has been written (R342). -/
def rowCmdTaken (s : State) (v : W32) : State :=
  ((if v.toNat.testBit 12 then s.setF lkpRegPg Reg.LKP_ROW_CMD_REJECTED 0 else s).setF lkpRegPg Reg.LKP_ROW_CMD_TABLE
    (bitsOf v.toNat 0 10)).setF lkpRegPg Reg.LKP_ROW_CMD_CMD 0

@[simp] theorem rowCmdTaken_partialBad (s : State) (v : W32) (a n : Nat) : (rowCmdTaken s v).partialBad a n = s.partialBad a n := by
  rw [rowCmdTaken, State.setF_lkpReg_partialBad _ (by decide), State.setF_lkpReg_partialBad _ (by decide)]
  split
  · exact State.setF_lkpReg_partialBad s (by decide) _ _ _
  · rfl

/-- TOMB of a resident row of the CURRENT version is written in its entry (R321, R342). -/
theorem rowCommand_of_resident {r a : Nat} (b : Nat) (hc : s.currentSlot (bitsOf v.toNat 0 10) = some key)
    (hr : s.getF lkpRegPg Reg.LKP_ROW = r) (hrow : r < verRows (s.tblSlot key).ver) (ha : verDir (s.tblSlot key).ver + 16 * r = a)
    (hb : s.blockedLots (State.lotsOf a 16) = []) :
    s.rowCommand v b = (rowCmdTaken s v).wrNat a (putBits ((rowCmdTaken s v).rdNat a 1) 3 1 b) 1 := by
  simp only [State.rowCommand, hc, hr, Nat.not_le.2 hrow, ha, hb, List.isEmpty_nil, Bool.not_true, Bool.false_eq_true, if_false]
  rfl

/-- TOMBSTONE sets, and REVIVE clears, TOMB of the row's entry (R321). -/
theorem entTomb_rowCommand {ver r : Nat} (b : Nat) (hc : s.currentSlot (bitsOf v.toNat 0 10) = some key)
    (hv : (s.tblSlot key).ver = ver) (hr : s.getF lkpRegPg Reg.LKP_ROW = r) (hrow : r < verRows ver)
    (hb : s.blockedLots (State.lotsOf (verDir ver + 16 * r) 16) = []) (hbad : s.partialBad (verDir ver + 16 * r) 1 = false) :
    entTomb ((s.rowCommand v b).rowEntry ver r) = decide (b % 2 = 1) := by
  subst hv
  have hgood := (rowCmdTaken_partialBad s v _ 1).trans hbad
  rw [entTomb, State.rowEntry, rowCommand_of_resident b hc hr hrow rfl hb, State.testBit_rdNat_wrNat hgood (by decide),
    testBit_putBits_one]

theorem exec_tombstone_of_live (hs : s.Live) (v : W32) : exec (.tombstone v) s = .next (s.rowCommand v 1) := by
  have he : exec (.tombstone v) s = execTombstone v s := rfl
  rw [he, execTombstone, act_of_live hs]

theorem exec_revive_of_live (hs : s.Live) (v : W32) : exec (.revive v) s = .next (s.rowCommand v 0) := by
  have he : exec (.revive v) s = execRevive v s := rfl
  rw [he, execRevive, act_of_live hs]

/-! ### The sweeper (R338, R339) -/

/-- The judgement of a row leaves every lot where it is. -/
@[simp] theorem State.sweepRow_residence (s : State) (k key v m r : Nat) : (s.sweepRow k key v m r).residence = s.residence := by
  simp only [State.sweepRow]
  split
  · rfl
  · split
    · split
      · rfl
      · exact (State.wrNat_residence _ _ _ _).trans (State.wrBytes_residence _ _ _)
    · split
      · exact State.wrNat_residence _ _ _ _
      · rfl

/-- Where no lot is away and none moves, a sweep comes to the end of the table. -/
theorem State.sweepRows_ends {ver m : Nat} (ht : ∀ a, s.lotTier a ≠ 2) (hm : s.place.moves = []) :
    ∀ (rows : List Nat) (t : State), t.residence = s.residence → (State.sweepRows k key ver m rows t).2 = none
  | [], _, _ => rfl
  | r :: rows, t, h => by
    have hb : t.blockedLots (t.sweepLots ver r) = [] := State.blockedLots_of_residence h ht hm _
    rw [State.sweepRows, hb]
    exact State.sweepRows_ends ht hm rows _ ((State.sweepRow_residence _ _ _ _ _ _).trans ((State.touchRead_residence _ _ _).trans h))

/-- Every row of a table judged by engine `e`, or those before the first that is not resident (R338, R341). -/
def sweepAll (s : State) (e k key : Nat) : State × Option Nat :=
  State.sweepRows e key (s.tblSlot key).ver (SMap.getD s.tblM k 0) (List.range (verRows (s.tblSlot key).ver)) s

/-- A sweep that is due on an idle engine judges every row, where no lot is away and none moves (R338). -/
theorem exec_sweep_of_due (hs : s.Live) (hk : k < 1024) (hc : s.currentSlot k = some key)
    (he : s.sweepEngine k (verOwner (s.tblSlot key).ver) = some e) (hr : s.runs (lkpPg e) = true)
    (hen : s.getF (lkpPg e) Reg.LKP_SWEEP_CFG_EN = 1) (hbusy : s.lkpBusy e = false) (hgrad : s.gradOn key = false)
    (hsw : SMap.find s.sweeps e = none) (ht : ∀ a, s.lotTier a ≠ 2) (hm : s.place.moves = [])
    (hdue : SMap.getD s.sweptAt k 0 + s.getF (lkpPg e) Reg.LKP_SWEEP_CFG_PERIOD_MS * 1000000 ≤ s.base) :
    exec (.sweep k) s = .next { (sweepAll s e k key).1 with
      sweeps := SMap.del (sweepAll s e k key).1.sweeps e, sweptAt := SMap.put (sweepAll s e k key).1.sweptAt k s.base } := by
  have hx : exec (.sweep k) s = execSweep k s := rfl
  have hstart : s.sweepStart e k key = some 0 := by simp [State.sweepStart, hsw, hdue]
  have hend : (sweepAll s e k key).2 = none := State.sweepRows_ends ht hm _ s rfl
  rw [sweepAll] at hend
  rw [hx, execSweep, act_of_live hs]
  simp [Nat.mod_eq_of_lt hk, hc, he, hr, hen, hbusy, hgrad, hstart, hend, sweepAll]

/-- The hot slot has been left by its row, and no descriptor that latched the version before has yet to complete (R339). -/
def hotGone (s : State) (key w hot : Nat) (h : HotSlot) : Bool :=
  h.key == key && h.w == w && h.hot == hot && (match h.left with | some l => l.all fun p => !(s.latched key).contains p | none => false)

theorem exec_hotSlotFree_of_live (hs : s.Live) (k sl w i : Nat) :
    exec (.hotSlotFree k sl w i) s = .next { s with hot := s.hot.filter fun h => !hotGone s (k * 2 + sl) w i h } := by
  have he : exec (.hotSlotFree k sl w i) s = execHotSlotFree k sl w i s := rfl
  rw [he, execHotSlotFree, act_of_live hs]
  rfl

end Registry

end Sys2Proof.Machine

namespace Sys2Proof

open Sys2Proof.Machine

/-- Settles O26: each command has its rule above; a sweep comes to the table's end because no judgement of a row moves a lot. -/
theorem tableRegistry : Obligations.TableRegistry := by
  unfold Obligations.TableRegistry
  refine ⟨fun v pa s hs hl hst hpa => hpa ▸ exec_load_of_free hs hl hst, fun l s hs hl ht hb => ?_, fun v s hs hst => ?_,
    fun v key s hs hk hst => ?_, fun p hp v key s hs hc hrow hb hbad => ?_,
    fun k key e s hs hk hc he hr hen hbusy hgrad hsw ht hm hdue => ?_, fun k sl w i h s hs hmem hkey hw hi hleft => ?_⟩
  · refine ⟨_, exec_loadComplete_of_taken hs hl ht hb, rfl, clearHot_tables _ _ _, fun h hh => ?_⟩
    simpa using (List.mem_filter.1 hh).2
  · exact ⟨_, exec_unload_of_loaded hs hst, congrArg TblSlot.st (State.tblSlot_setTblSlot_same _ _ _)⟩
  · have hne := xor_one_ne key
    refine ⟨_, exec_switch_of_loaded hs hk hst rfl, ?_⟩
    split
    · rw [State.tblSlot_setTblSlot_other _ _ hne.symm, State.tblSlot_setTblSlot_same, State.tblSlot_setTblSlot_same]
      refine ⟨rfl, rfl, fun _ => ?_⟩
      rw [displaced]
      split <;> rfl
    · next hother =>
      rw [State.tblSlot_setTblSlot_same]
      exact ⟨rfl, rfl, fun h => absurd h hother⟩
  · have htomb (b : Nat) := entTomb_rowCommand b hc rfl rfl hrow hb hbad
    simp only [List.mem_cons, List.not_mem_nil, or_false] at hp
    obtain rfl | rfl := hp
    · exact ⟨_, exec_tombstone_of_live hs v, htomb 1⟩
    · exact ⟨_, exec_revive_of_live hs v, htomb 0⟩
  · exact ⟨_, exec_sweep_of_due hs hk hc he hr hen hbusy hgrad hsw ht hm hdue, by simp [SMap.getD], SMap.find_del_same _ _⟩
  · refine ⟨_, exec_hotSlotFree_of_live hs k sl w i, fun hh => ?_⟩
    have hgone : hotGone s (k * 2 + sl) w i h = true := by simp [hotGone, hkey, hw, hi, hleft]
    simpa [hgone] using (List.mem_filter.1 hh).2

end Sys2Proof

/-! PROOFS. LOOKUP, LOOKUP_GRAD and the rows of an admitted LOOKUP_GRAD (R311, R317, R322, R330 to R336). -/

namespace Sys2Proof.Machine

section Lookups

variable {s s1 : State} {d : Die} {n q : Nat} {x y : Desc}

/-- A descriptor whose engine and version are latched, whose turn has come on an engine that runs, and whose arrays are resident
(R310, R311, R317). -/
structure MaySort (s : State) (d : Die) (n q op : Nat) (x : Desc) : Prop where
  running : s.RunningDesc d n q op x
  latched : x.layout ≠ 0
  turn : s.lkpTurn x = true
  runs : s.runs (lkpPg x.lkEngine) = true
  resident : s.absentLots (State.descLots x) = []

/-- The batch of a LOOKUP whose indices are good is fetched and pooled (R322 to R328). -/
theorem exec_lookup_of_rows {idx : List Nat} (hx : s.RunningDesc d n q 0x18 x)
    (hs1 : s1 = if x.layout == 0 then s.lkpLatch d n q x else s) (hy : MaySort s1 d n q 0x18 y) (hsort : s1.lkSort y = .rows idx) :
    exec (.lookup d n q) s = .next
      (((s1.touchBatch y idx).setF (lkpPg y.lkEngine) Reg.LKP_UNIQUE_LAST idx.eraseDups.length).lkRun d n y idx) := by
  obtain ⟨hrun, hlay, hturn, hr, habs⟩ := hy
  have ⟨_, hdesc, _⟩ := hrun
  have he : exec (.lookup d n q) s = execLookup d n q s := rfl
  rw [he, execLookup, actD_withRunning_of_running hx, ← hs1, State.withRunning_of_running hrun,
    State.whenResident_of_resident hdesc habs]
  simp [hlay, hturn, hr, hsort]

/-- The requests of a LOOKUP_GRAD whose parameters, indices and gradients are good are classified (R330 to R334). -/
theorem exec_lookupGrad_of_rows {z : Desc} {idx : List Nat} {s2 s3 : State} (hx : s.RunningDesc d n q 0x19 x)
    (hs1 : s1 = if x.layout == 0 then s.lkpLatch d n q x else s) (hy : MaySort s1 d n q 0x19 y) (hp : uPhase y ≠ 2)
    (hpar : s1.gradParams d n q y = (true, s2)) (hz : s2.RunningDesc d n q 0x19 z) (hsort : s2.lkSort z = .rows idx)
    (hs3 : s3 = (s2.touchBatch z idx).setF (lkpPg z.lkEngine) Reg.LKP_UNIQUE_LAST idx.eraseDups.length) {len : Nat}
    (hlen : len = z.lkBags * z.lkDim * (fmtBits (z.fmt 0) / 8)) (hb : s3.badV z.pins (z.addr 40) len = false) :
    exec (.lookupGrad d n q) s = .next ((s3.touchV z.pins (z.addr 40) len).gradClassify d n q z idx) := by
  obtain ⟨hrun, hlay, hturn, hr, habs⟩ := hy
  have ⟨_, hdesc, _⟩ := hrun
  have he : exec (.lookupGrad d n q) s = execLookupGrad d n q s := rfl
  rw [he, execLookupGrad, actD_withRunning_of_running hx, ← hs1, State.withRunning_of_running hrun,
    State.whenResident_of_resident hdesc habs]
  simp [hlay, hp, hturn, hr, hpar, State.withRunning_of_running hz, hsort, ← hs3, ← hlen, hb]

/-! ### Rows of an admitted LOOKUP_GRAD (R335, R336) -/

section Rows

variable {row key e : Nat}

/-- The state of master lot `l` in an admitted LOOKUP_GRAD: 0 to be done, 1 done, 2 found already applied (R294, R333). -/
abbrev masterSt (s : State) (x : Desc) (l : Nat) : Nat :=
  (((gradLots x).find? fun k => k / 4 == verMaster (s.lkVer x) + 65536 * l).getD 0) % 4

/-- Row entry `e` of an admitted LOOKUP_GRAD whose step passed its gate is not done yet, all of its masters have been handled, and all
that its completion reads is resident and good (R335). -/
structure RowReady (s : State) (d : Die) (n q row key e : Nat) (x : Desc) : Prop where
  running : s.RunningDesc d n q 0x19 x
  slot : x.lkSlot? = some key
  left : ((gradRows x).find? fun e => gRow e == row && !gDone e) = some e
  phase : uPhase x = 2
  passed : uStatus x = stOk
  handled : ∀ l ∈ lotsOfRow x (s.lkVer x) row, masterSt s x l ≠ 0
  tiers : ∀ a, s.lotTier a ≠ 2
  moves : s.place.moves = []
  entry : s.badIn (verDir (s.lkVer x) + 16 * row) 16 = false
  masters : ∀ k < verDim (s.lkVer x),
    s.badIn (State.paramAddr (s.lkVer x) (gradPL x (s.lkVer x)) (row * verDim (s.lkVer x) + k)) 6 = false

/-- A row noted as done (R335). -/
def rowDone (t : State) (d : Die) (n q e : Nat) : State :=
  (t.updDesc d n q fun y => { y with aux := y.aux.map fun k => if k == e then e + 2 ^ 72 else k }).gradSettle d n q

/-- A row is left alone where its masters were all found applied and its LAST_M is not before the milestone; else it gets the steps of R335
(R335, R336). -/
theorem exec_lookupRowUpdate_of_ready (h : RowReady s d n q row key e x) :
    exec (.lookupRowUpdate d n q row) s = .next (rowDone
      (if (∀ l ∈ lotsOfRow x (s.lkVer x) row, masterSt s x l = 2) ∧ s.ctxMilestone d n ≤ entLast (s.rowEntry (s.lkVer x) row) then s
       else s.updateRow x key (s.lkVer x) row (s.ctxMilestone d n) (gCount e)) d n q e) := by
  obtain ⟨hx, hslot, hleft, hp, hst, hdone, ht, hm, hent, hmas⟩ := h
  have hblk (ls : List Nat) : s.blockedLots ls = [] := State.blockedLots_of_residence rfl ht hm ls
  have hany : ((lotsOfRow x (s.lkVer x) row).map (masterSt s x)).any (· == 0) = false := by simpa using hdone
  have hbad : ((List.range (verDim (s.lkVer x))).any fun k =>
      s.badIn (State.paramAddr (s.lkVer x) (gradPL x (s.lkVer x)) (row * verDim (s.lkVer x) + k)) 6) = false := by simpa using hmas
  have hall : ((lotsOfRow x (s.lkVer x) row).map (masterSt s x)).all (· == 2) =
      decide (∀ l ∈ lotsOfRow x (s.lkVer x) row, masterSt s x l = 2) := by simp [List.all_eq]
  have he : exec (.lookupRowUpdate d n q row) s = execLookupRowUpdate d n q row s := rfl
  rw [he, execLookupRowUpdate, actD_withRunning_of_running hx]
  simp only [hslot, hleft, hp, hst, hany, hblk, hent, execLookupRowUpdate.paramAddr, hbad, hall, bne_self_eq_false,
    Bool.or_self, Bool.false_eq_true, if_false, List.isEmpty_nil, Bool.not_true, Bool.and_eq_true, decide_eq_true_eq]
  split <;> rfl

end Rows

end Lookups

end Sys2Proof.Machine

namespace Sys2Proof

open Sys2Proof.Machine

/-- Settles O25: a batch by the rules for its command, a row by the one rule for rows of which everything is resident and good. -/
theorem lookups : Obligations.Lookups := by
  unfold Obligations.Lookups
  refine ⟨fun d n q x y idx s s1 hx hs1 hy hlay hturn hr habs hsort =>
      exec_lookup_of_rows hx hs1 ⟨hy, hlay, hturn, hr, habs⟩ hsort,
    fun d n q x y z idx s s1 s2 s3 hx hs1 hy hlay hp hturn hr habs hpar hz hsort hs3 hb =>
      exec_lookupGrad_of_rows hx hs1 ⟨hy, hlay, hturn, hr, habs⟩ hp hpar hz hsort hs3 rfl hb,
    fun d n q row key e x s hx hslot hleft hp hst happlied hlast ht hm hent hmas => ?_,
    fun d n q row key e x s hx hslot hleft hp hst hdone hlast ht hm hent hmas => ?_⟩
  · have hdone : ∀ l ∈ lotsOfRow x (s.lkVer x) row, masterSt s x l ≠ 0 := fun l hl h0 => by
      have h2 : masterSt s x l = 2 := happlied l hl
      omega
    rw [exec_lookupRowUpdate_of_ready ⟨hx, hslot, hleft, hp, hst, hdone, ht, hm, hent, hmas⟩, if_pos ⟨happlied, hlast⟩, rowDone]
  · rw [exec_lookupRowUpdate_of_ready ⟨hx, hslot, hleft, hp, hst, hdone, ht, hm, hent, hmas⟩,
      if_neg fun h => Nat.not_lt.2 h.2 hlast, rowDone]

end Sys2Proof

/-! PROOFS. What a control message leaves as it is, and the fields of a coordination context's page (R383 to R387, R408). -/

namespace Sys2Proof.Machine.State

/-! ### Messages -/

/-- What the network takes a message with: queue pairs, frames sent and waiting, and words of the network's pages (R344, R346, R385). -/
def NetOnly (s t : State) : Prop :=
  (∃ q w o r, t = { s with qps := q, netWait := w, netOut := o, regs := r }) ∧
  ∀ (pg : Page) (off b : Nat), pg.inst < 256 → pg.blk ≠ .net → off < 4096 → b < 2 ^ 24 → t.word pg off b = s.word pg off b

theorem NetOnly.refl (s : State) : NetOnly s s := ⟨⟨s.qps, s.netWait, s.netOut, s.regs, rfl⟩, fun _ _ _ _ _ _ _ => rfl⟩

theorem NetOnly.trans {s t u : State} (h : NetOnly s t) (g : NetOnly t u) : NetOnly s u := by
  obtain ⟨⟨q, w, o, r, rfl⟩, h⟩ := h
  obtain ⟨⟨q', w', o', r', rfl⟩, g⟩ := g
  exact ⟨⟨q', w', o', r', rfl⟩, fun pg off b hi hp ho hb => (g pg off b hi hp ho hb).trans (h pg off b hi hp ho hb)⟩

theorem NetOnly.of_regs {s t : State} (h : ∃ q w o, t = { s with qps := q, netWait := w, netOut := o }) : NetOnly s t := by
  obtain ⟨q, w, o, rfl⟩ := h
  exact ⟨⟨q, w, o, s.regs, rfl⟩, fun _ _ _ _ _ _ _ => rfl⟩

/-- A word of a network page is no word of another block's. -/
theorem NetOnly.setF (s : State) {pg : Page} (hp : pg.blk = .net) (hi : pg.inst < 256) {f : Fld} (hf : f.off < 4096) (v : Nat) :
    NetOnly s (s.setF pg f v) :=
  ⟨⟨s.qps, s.netWait, s.netOut, _, rfl⟩, fun _ _ _ hi' hp' ho hb => word_setWord_other _ _ _ _ _ _ _ _ fun h =>
    hp' ((congrArg Page.blk (regKey_inj _ _ _ _ _ _ hi' hi ho hf hb (by decide) h).1).trans hp)⟩

theorem sendNow_netOnly (s : State) (f : Frames) : NetOnly s (s.sendNow f) := by
  have hout : NetOnly s { s with netOut := { f with stamp := s.stampNow } :: s.netOut } := .of_regs ⟨_, _, _, rfl⟩
  unfold sendNow
  split
  · next lp => exact hout.trans (.setF _ rfl (Nat.lt_trans (Nat.mod_lt _ (by decide)) (by decide)) (by decide) _)
  · exact hout

theorem sendFrames_netOnly (s : State) (f : Frames) : NetOnly s (s.sendFrames f) := by
  unfold sendFrames
  split
  · exact .of_regs ⟨_, _, _, rfl⟩
  · exact sendNow_netOnly s f

theorem sendWork_netOnly (s : State) (key : Nat) (w : Work) (psn : Nat) : NetOnly s (s.sendWork key w psn) := by
  unfold sendWork sendNet
  split
  · exact sendFrames_netOnly s _
  · exact .refl s

theorem sendOn_netOnly (s : State) (k qpn : Nat) (m : Ctl) : NetOnly s (s.sendOn k qpn m) := by
  unfold sendOn
  dsimp only
  split
  · exact NetOnly.trans (.of_regs ⟨_, _, _, rfl⟩) (sendWork_netOnly (s.setQp _ _) _ _ _)
  · exact .refl s

theorem sendCtl_netOnly (s : State) (k r : Nat) (m : Ctl) : NetOnly s (s.sendCtl k r m) := sendOn_netOnly s k _ m

theorem sendAll_netOnly (s : State) (k : Nat) (rs : List Nat) (m : Ctl) : NetOnly s (s.sendAll k rs m) :=
  List.foldlRecOn (motive := fun t : State => NetOnly s t) _ _ (.refl s) fun t ht r _ => ht.trans (sendCtl_netOnly t k r m)

theorem tellEpoch_netOnly (s : State) (k : Nat) : NetOnly s (s.tellEpoch k) := sendAll_netOnly s k _ _

/-! ### Fields of a context's page -/

section Fields

variable (s : State) (k : Nat)

theorem convPg_inst_lt : (convPg k).inst < 256 := Nat.lt_trans (Nat.mod_lt _ (by decide)) (by decide)

@[simp] theorem convState_w : Reg.CONV_STAT_STATE.w = 2 := rfl

@[simp] theorem convEpoch_w : Reg.CONV_EPOCH.w = 32 := rfl

/-- A word of a context's page is another than one at another offset. -/
theorem regKey_convPg_ne {o o' : Nat} (ho : o < 4096) (ho' : o' < 4096) (h : o / 4 ≠ o' / 4) :
    regKey (convPg k) o 0 ≠ regKey (convPg k) o' 0 := fun he =>
  h (regKey_inj _ _ _ _ _ _ (convPg_inst_lt k) (convPg_inst_lt k) ho ho' (by decide) (by decide) he).2.1

/-- A field that is written leaves those of the page's other words. -/
@[simp] theorem conv_getF_setF {f g : Fld} (hf : f.off < 4096) (hg : g.off < 4096) (h : g.off / 4 ≠ f.off / 4) (v : Nat) :
    (s.setF (convPg k) f v).getF (convPg k) g = s.getF (convPg k) g :=
  getF_setF_other _ _ _ _ _ _ _ _ (regKey_convPg_ne k hg hf h)

/-- A status bit raised changes PAGE_IRQ_STAT alone (R533). -/
@[simp] theorem conv_getF_raise {g : Fld} (hg : g.off < 4096) (h : g.off / 4 ≠ 8) (n : Nat) :
    (s.raise (convPg k) n).getF (convPg k) g = s.getF (convPg k) g := by
  have hset (v : Nat) := getF_setWord_other s (convPg k) (convPg k) g 0x20 v 0 0 (regKey_convPg_ne k hg (by decide) h)
  unfold raise raiseMask
  dsimp only
  split
  · exact hset _
  · exact hset _

@[simp] theorem cvEpoch_raise (n : Nat) : (s.raise (convPg k) n).cvEpoch k = s.cvEpoch k :=
  conv_getF_raise s k (by decide) (by decide) n

@[simp] theorem cvMgr_raise (n : Nat) : (s.raise (convPg k) n).cvMgr k = s.cvMgr k :=
  congrArg (· == 1) (conv_getF_raise s k (by decide) (by decide) n)

/-- A message leaves the context's page. -/
theorem NetOnly.conv_getF {s t : State} (h : NetOnly s t) {g : Fld} (hg : g.off < 4096) :
    t.getF (convPg k) g = s.getF (convPg k) g :=
  congrArg (bitsOf · g.lo g.w) (h.2 _ _ _ (convPg_inst_lt k) nofun hg (by decide))

@[simp] theorem conv_getF_sendCtl {g : Fld} (hg : g.off < 4096) (r : Nat) (m : Ctl) :
    (s.sendCtl k r m).getF (convPg k) g = s.getF (convPg k) g := (sendCtl_netOnly s k r m).conv_getF k hg

@[simp] theorem conv_getF_sendAll {g : Fld} (hg : g.off < 4096) (rs : List Nat) (m : Ctl) :
    (s.sendAll k rs m).getF (convPg k) g = s.getF (convPg k) g := (sendAll_netOnly s k rs m).conv_getF k hg

@[simp] theorem conv_getF_tellEpoch {g : Fld} (hg : g.off < 4096) : (s.tellEpoch k).getF (convPg k) g = s.getF (convPg k) g :=
  (tellEpoch_netOnly s k).conv_getF k hg

/-- A write of memory leaves the context's page. -/
@[simp] theorem conv_getF_wrNat {g : Fld} (hg : g.off < 4096) (a v n : Nat) :
    (s.wrNat a v n).getF (convPg k) g = s.getF (convPg k) g :=
  congrArg (bitsOf · g.lo g.w) (wrBytes_word _ _ _ _ _ _ (convPg_inst_lt k) nofun nofun hg (by decide))

end Fields

/-! ### What a context keeps beside its page -/

section Conv

variable (s : State) (k : Nat)

@[simp] theorem conv_setConv (c : Conv) : (s.setConv k c).conv k = c := by simp [conv, setConv, SMap.getD]

@[simp] theorem conv_setF (pg : Page) (f : Fld) (v : Nat) : (s.setF pg f v).conv k = s.conv k := rfl

@[simp] theorem conv_raise (pg : Page) (n : Nat) : (s.raise pg n).conv k = s.conv k := by simp [conv]

@[simp] theorem conv_wrNat (a v n : Nat) : (s.wrNat a v n).conv k = s.conv k := by simp [conv, wrNat]

theorem NetOnly.conv {s t : State} (h : NetOnly s t) : t.conv k = s.conv k := by
  obtain ⟨⟨q, w, o, r, rfl⟩, -⟩ := h
  rfl

@[simp] theorem conv_sendCtl (r : Nat) (m : Ctl) : (s.sendCtl k r m).conv k = s.conv k := (sendCtl_netOnly s k r m).conv k

@[simp] theorem conv_sendAll (rs : List Nat) (m : Ctl) : (s.sendAll k rs m).conv k = s.conv k := (sendAll_netOnly s k rs m).conv k

@[simp] theorem conv_tellEpoch : (s.tellEpoch k).conv k = s.conv k := (tellEpoch_netOnly s k).conv k

end Conv

end Sys2Proof.Machine.State

/-! PROOFS. Members, heartbeats, losses and takeovers of a coordination context (R383, R387 to R392, R406, R408, R409). -/

namespace Sys2Proof.Machine

section Convoys

variable {s : State} {k r : Nat} {m : Ctl}

open State

/-! ### Start, stop, admission, resumption -/

/-- A context that has begun, as manager where its role says so (R383). -/
def convStarted (s : State) (k : Nat) : State :=
  ((s.setCvSt k 1).setF (convPg k) Reg.CONV_STAT_IS_MANAGER (if 2 ≤ s.getF (convPg k) Reg.CONV_CFG_ROLE then 1 else 0)).setConv k
    { Conv.init with since := s.base, mgr := if 2 ≤ s.getF (convPg k) Reg.CONV_CFG_ROLE then s.cvRank k else 0 }

theorem exec_start_of_idle (hk : s.ConvOn k) (hst : s.cvSt k = 0) (hok : s.startOk k = true) :
    exec (.start k) s = .next (convStarted s k) := by
  obtain ⟨hd, hrun⟩ := hk
  have he : exec (.start k) s = execStart k s := rfl
  rw [he, execStart, actD_of_liveOn hd]
  simp [hrun, hst, hok, convStarted]

theorem convStarted_cvSt (s : State) (k : Nat) : (convStarted s k).cvSt k = 1 := by
  simp (disch := decide) [convStarted, cvSt, setCvSt, getF_setF_same, getF_setF_beside]

theorem convStarted_cvMgr (s : State) (k : Nat) : (convStarted s k).cvMgr k = decide (2 ≤ s.getF (convPg k) Reg.CONV_CFG_ROLE) := by
  by_cases hm : 2 ≤ s.getF (convPg k) Reg.CONV_CFG_ROLE <;> simp (disch := decide) [convStarted, cvMgr, getF_setF_same, hm]

/-- A context in IDLE, with nothing kept (R408). -/
def convStopped (s : State) (k : Nat) : State := ((s.setCvSt k 0).setF (convPg k) Reg.CONV_STAT_IS_MANAGER 0).setConv k Conv.init

theorem exec_stop_of_started (hk : s.ConvOn k) (hst : s.cvSt k ≠ 0) : exec (.stop k) s = .next (convStopped s k) := by
  obtain ⟨hd, hrun⟩ := hk
  have he : exec (.stop k) s = execStop k s := rfl
  rw [he, execStop, actD_of_liveOn hd]
  simp [hrun, hst, convStopped]

theorem convStopped_cvSt (s : State) (k : Nat) : (convStopped s k).cvSt k = 0 := by
  simp (disch := decide) [convStopped, cvSt, setCvSt, getF_setF_same, getF_setF_beside]

theorem convStopped_cvMgr (s : State) (k : Nat) : (convStopped s k).cvMgr k = false := by
  simp (disch := decide) [convStopped, cvMgr, getF_setF_same]

/-- Rank `r` entered in the member table, EPOCH raised, and its answers awaited from now on (R392). -/
def rankAdmitted (s : State) (k r : Nat) : State :=
  (((s.setF (convPg k) Reg.CONV_CMD_ADMIT_RANK r).setMember k r true false).bumpEpoch k).setConv k
    { s.conv k with replied := SMap.put (s.conv k).replied r s.base }

theorem exec_admitRank_of_running (hk : s.ConvOn k) (hm : s.cvMgr k = true) (hst : s.cvSt k = 1)
    (ha : (s.conv k).applying = false) (r : Nat) :
    exec (.admitRank k r) s = .next ((rankAdmitted s k (r % 128)).tellEpoch k) := by
  obtain ⟨hd, hrun⟩ := hk
  have he : exec (.admitRank k r) s = execAdmitRank k r s := rfl
  rw [he, execAdmitRank, actD_of_liveOn hd]
  simp [hrun, hm, hst, ha, rankAdmitted, bumpEpoch, setMember]

theorem rankAdmitted_cvEpoch (s : State) (k r : Nat) : (rankAdmitted s k r).cvEpoch k = (s.cvEpoch k + 1) % 2 ^ 32 := by
  simp (disch := decide) [rankAdmitted, cvEpoch, bumpEpoch, setMember, getF_setF_same]

theorem exec_resume_of_halted (hk : s.ConvOn k) (hst : s.cvSt k = 3) :
    exec (.resume k) s = .next ((s.setCvSt k 1).commitSettle k) := by
  obtain ⟨hd, hrun⟩ := hk
  have he : exec (.resume k) s = execResume k s := rfl
  rw [he, execResume, actD_of_liveOn hd]
  simp [hrun, hst]

/-! ### Heartbeats -/

/-- Convoys noted leave what is kept of the ranks. -/
theorem noteConvoy_eq (c : Conv) (f : Nat) : noteConvoy c f = { c with convoys := (noteConvoy c f).convoys } := by
  unfold noteConvoy
  split <;> rfl

@[simp] theorem noteConvoy_heard (c : Conv) (f : Nat) : (noteConvoy c f).heard = c.heard := by rw [noteConvoy_eq]
@[simp] theorem noteConvoy_replied (c : Conv) (f : Nat) : (noteConvoy c f).replied = c.replied := by rw [noteConvoy_eq]
@[simp] theorem noteConvoy_mgrLost (c : Conv) (f : Nat) : (noteConvoy c f).mgrLost = c.mgrLost := by rw [noteConvoy_eq]
@[simp] theorem noteConvoy_top (c : Conv) (f : Nat) : (noteConvoy c f).top = c.top := by rw [noteConvoy_eq]

/-- A message of a member names no convoy. -/
theorem noteConvoy_of_member {f : Nat} (hf : f < 128) (c : Conv) : noteConvoy c f = c := by
  have hlow : decide (128 ≤ f) = false := decide_eq_false (Nat.not_le.2 hf)
  simp only [noteConvoy, hlow, Bool.false_and, Bool.false_eq_true, if_false]

/-- A manager whose first period begins sends its HEARTBEATs (R388). -/
theorem exec_heartbeatSend_of_first (hk : s.ConvOn k) (hst : s.cvSt k ≠ 0) (hm : s.cvMgr k = true) (htop : s.cvTop k = false)
    (hat : (s.conv k).hbAt = none) :
    exec (.heartbeatSend k) s =
      .next ((s.sendAll k (s.others k) (s.cvMsg k 1)).setConv k { s.conv k with hbAt := some s.base }) := by
  obtain ⟨hd, hrun⟩ := hk
  have he : exec (.heartbeatSend k) s = execHeartbeatSend k s := rfl
  rw [he, execHeartbeatSend, actD_of_liveOn hd]
  simp [hrun, hst, hm, htop, hat]

/-- A worker answers a HEARTBEAT and notes when it came and who sent it (R388). -/
theorem exec_heartbeat_of_worker (hd : s.LiveOn .N0) (ht : s.takes k 1 m = true) (hm : s.cvMgr k = false) :
    exec (.heartbeat k m) s = .next ((s.sendCtl k (s.ctlKey k m) (s.cvMsg k 2)).setConv k (noteConvoy
      { s.conv k with
        heard := SMap.put (s.conv k).heard (s.ctlKey k m) s.base
        mgr := if s.ctlKey k m < 128 then s.ctlKey k m else (s.conv k).mgr
        mgrLost := false } (s.ctlKey k m))) := by
  have he : exec (.heartbeat k m) s = execHeartbeat k m s := rfl
  rw [he, execHeartbeat, actD_of_liveOn hd]
  simp [ht, hm]

/-- The manager notes when an HB_REPLY came, and the round trip (R389). -/
theorem exec_hbReply_of_manager (hd : s.LiveOn .N0) (ht : s.takes k 2 m = true) (hm : s.cvMgr k = true) :
    exec (.hbReply k m) s = .next ((s.setConv k (noteConvoy
      { s.conv k with replied := SMap.put (s.conv k).replied (s.ctlKey k m) s.base } (s.ctlKey k m))).raiseMax (convPg k)
        Reg.CONV_HB_RTT_MAX ((s.base - (s.conv k).hbAt.getD s.base) / 1000)) := by
  have he : exec (.hbReply k m) s = execHbReply k m s := rfl
  rw [he, execHbReply, actD_of_liveOn hd]
  simp [ht, hm]

/-! ### Losses (R389, R392, R401) -/

/-- A milestone of which no report is awaited leaves nothing to close. -/
theorem appliedSettle_of_not_applying (ha : (s.conv k).applying = false) : s.appliedSettle k = s := by simp [appliedSettle, ha]

/-- A barrier at which the context itself has not arrived stays. -/
theorem barrierSettle_of_not_arrived (ha : SMap.find (s.conv k).arrived (s.cvRank k) = none) : s.barrierSettle k = s := by
  simp [barrierSettle, ha]

/-- What an abort leaves of what the manager keeps: all but the reports and the count of tries (R401). -/
theorem conv_abortStep (s : State) (k m : Nat) :
    (s.abortStep k m).conv k = { s.conv k with ready := [], tries := (s.conv k).tries + 1 } := by
  simp [abortStep, abortAt, bump]

/-- An abort counts in ABORTED_M, RETRIES and PAGE_IRQ_STAT alone (R401). -/
theorem getF_abortStep {g : Fld} (hg : g.off < 4096) (hi : g.off / 4 ≠ 8) (ha : g.off / 4 ≠ 0x27) (hr : g.off / 4 ≠ 0x29)
    (s : State) (k m : Nat) : (s.abortStep k m).getF (convPg k) g = s.getF (convPg k) g := by
  have haborted {t : State} (v : Nat) := conv_getF_setF t k (f := Reg.CONV_ABORTED_M) (by decide) hg ha v
  have hretries {t : State} (v : Nat) := conv_getF_setF t k (f := Reg.CONV_RETRIES) (by decide) hg hr v
  rw [abortStep, abortAt, setConv_getF, conv_getF_raise _ _ hg hi, bump, hretries, haborted, setConv_getF, conv_getF_sendAll _ _ hg]

/-- The member table, EPOCH and what the manager keeps once member `r` is lost (R389, R392). -/
def memberDropped (s : State) (k r : Nat) : State :=
  ((((s.setMember k r false true).bumpEpoch k).setF (convPg k) Reg.CONV_LOST_RANK (r % 128)).raise (convPg k) 0).setConv k
    { s.conv k with
      ready := (s.conv k).ready.filter fun e => e.1 != r
      arrived := SMap.del (s.conv k).arrived r
      replied := SMap.del (s.conv k).replied r
      convoys := (s.conv k).convoys.filter fun j => 128 + j != r }

/-- A worker that has been silent for MISS periods is dropped and the step in progress aborted; with no milestone being applied and nobody
at a barrier that is all (R389, R401). -/
theorem exec_workerLost_of_silent (hk : s.ConvOn k) (hst : s.cvSt k = 1) (hm : s.cvMgr k = true) (hr : r < 128)
    (hmem : r ∈ s.others k) (ha : (s.conv k).applying = false) (hl : s.cvLayer k = false) (hb : (s.conv k).arrived = [])
    (hdue : SMap.getD (s.conv k).replied r (s.conv k).since + s.cvMiss k * s.cvPeriod k ≤ s.base) :
    exec (.workerLost k r) s = .next (((memberDropped s k r).tellEpoch k).abortStep k (s.cvCommitted k + 1)) := by
  obtain ⟨hd, hrun⟩ := hk
  have he : exec (.workerLost k r) s = execWorkerLost k r s := rfl
  have hs : ((((memberDropped s k r).tellEpoch k).abortStep k (s.cvCommitted k + 1)).appliedSettle k).barrierSettle k =
      ((memberDropped s k r).tellEpoch k).abortStep k (s.cvCommitted k + 1) := by
    rw [appliedSettle_of_not_applying (by simp [conv_abortStep, memberDropped, ha]),
      barrierSettle_of_not_arrived (by simp [conv_abortStep, memberDropped, hb, SMap.del, SMap.find])]
  rw [he, execWorkerLost, actD_of_liveOn hd, ← hs]
  simp [hrun, hst, hm, hr, Nat.not_le.2 hr, hdue, ha, hl, hmem, memberDropped]

theorem memberDropped_lostRank (s : State) (k : Nat) (hr : r < 128) :
    (memberDropped s k r).getF (convPg k) Reg.CONV_LOST_RANK = r := by
  rw [memberDropped, setConv_getF, conv_getF_raise _ _ (by decide) (by decide), getF_setF_same _ _ _ _ _ (by decide),
    Nat.mod_eq_of_lt hr]
  exact Nat.mod_eq_of_lt hr

theorem memberDropped_cvEpoch (s : State) (k r : Nat) : (memberDropped s k r).cvEpoch k = (s.cvEpoch k + 1) % 2 ^ 32 := by
  simp (disch := decide) [memberDropped, cvEpoch, bumpEpoch, setMember, getF_setF_same]

/-- The manager of a worker, or the top manager of a convoy's manager, is declared lost after MISS periods of silence (R389, R392). -/
theorem exec_managerLost_of_silent (hk : s.ConvOn k) (hst : s.cvSt k ≠ 0) (hm : s.cvMgr k = s.cvUnder k)
    (hl : (s.conv k).mgrLost = false)
    (hdue : SMap.getD (s.conv k).heard (if s.cvMgr k then 128 + (s.conv k).top else (s.conv k).mgr) (s.conv k).since
      + s.cvMiss k * s.cvPeriod k ≤ s.base) :
    ∃ t, exec (.managerLost k) s = .next t ∧ (t.conv k).mgrLost = true ∧ SameMemory s t := by
  obtain ⟨hd, hrun⟩ := hk
  have he : exec (.managerLost k) s = execManagerLost k s := rfl
  refine ⟨((s.setF (convPg k) Reg.CONV_LOST_RANK (if s.cvMgr k then (s.conv k).top else (s.conv k).mgr)).raise (convPg k) 0).setConv k
    { s.conv k with mgrLost := true }, ?_, by rw [conv_setConv], ?_⟩
  · rw [he, execManagerLost, actD_of_liveOn hd]
    simp [hrun, hst, ← hm, hl, hdue]
  · simp [SameMemory]

/-! ### Takeovers (R390 to R392) -/

theorem cvUnder_of_worker (hm : s.cvMgr k = false) : s.cvUnder k = false := by simp [cvUnder, hm]

theorem cvMgr_of_cvUnder (hu : s.cvUnder k = true) : s.cvMgr k = true := by
  simp only [cvUnder, Bool.and_eq_true] at hu
  obtain ⟨⟨-, hm⟩, -⟩ := hu
  exact hm

/-- The number of a context among those that may take over: of a manager its convoy's, of a worker its rank (R390, R392). -/
def takeoverRank (s : State) (k : Nat) : Nat := if s.cvMgr k then s.cvConvoy k else s.cvRank k

/-- When the context last heard one of a lower number, or when its role began (R390, R392). -/
def heardLower (s : State) (k : Nat) : Nat :=
  ((s.conv k).heard.filter fun e =>
    if s.cvMgr k then decide (128 ≤ e.1 ∧ e.1 < 128 + takeoverRank s k) else decide (e.1 < takeoverRank s k)).foldl
      (fun a e => max a e.2) (s.conv k).since

/-- The others to which a context that takes over speaks: the other convoys of a manager, the other members of a worker (R390, R392). -/
def takeoverOthers (s : State) (k : Nat) : List Nat := if s.cvMgr k then s.otherConvoys k else s.others k

/-- A context in TAKEOVER: its EPOCH raised, no answer in (R390). -/
def inTakeover (s : State) (k : Nat) : State :=
  (((s.setCvSt k 2).bumpEpoch k).raise (convPg k) 2).setConv k
    { s.conv k with
      states := []
      prev := if s.cvMgr k then (takeoverOthers s k).length + 1 else (s.members k).length
      takeAt := s.base
      mgrLost := true }

/-- TAKEOVER and QUERY sent to the others, and by a manager its EPOCH to its members (R390, R392). -/
def takeoverSent (s : State) (k : Nat) : State :=
  let s1 := inTakeover s k
  let s2 := (s1.sendAll k (takeoverOthers s k) (s1.cvMsg k 9)).sendAll k (takeoverOthers s k) (s1.cvMsg k 10)
  if s.cvMgr k then s2.tellEpoch k else s2

/-- A worker, or the manager of a convoy under another's top manager, takes over once all of a lower number have been silent for its number
times MISS periods (R390, R392). -/
theorem exec_takeoverTimer_of_silent (hk : s.ConvOn k) (hm : s.cvMgr k = s.cvUnder k) (hr : takeoverRank s k ≠ 0)
    (hst : s.cvSt k = 1) (hdue : heardLower s k + takeoverRank s k * s.cvMiss k * s.cvPeriod k ≤ s.base) :
    exec (.takeoverTimer k) s = .next (takeoverSent s k) := by
  obtain ⟨hd, hrun⟩ := hk
  have he : exec (.takeoverTimer k) s = execTakeoverTimer k s := rfl
  rw [he, execTakeoverTimer, actD_of_liveOn hd]
  cases hup : s.cvMgr k with
  | false =>
    simp only [takeoverRank, heardLower, hup, Bool.false_eq_true, if_false] at hr hdue
    simp [hrun, hup, hr, hst, hdue, takeoverSent, inTakeover, takeoverOthers]
  | true =>
    simp only [takeoverRank, heardLower, hup, if_true, Bool.decide_and] at hr hdue
    simp [hrun, hup, ← hm, hr, hst, hdue, takeoverSent, inTakeover, takeoverOthers]

theorem inTakeover_cvSt (s : State) (k : Nat) : (inTakeover s k).cvSt k = 2 := by
  simp (disch := decide) [inTakeover, cvSt, setCvSt, bumpEpoch, getF_setF_same]

theorem inTakeover_cvEpoch (s : State) (k : Nat) : (inTakeover s k).cvEpoch k = (s.cvEpoch k + 1) % 2 ^ 32 := by
  simp (disch := decide) [inTakeover, cvEpoch, setCvSt, bumpEpoch, getF_setF_same]

theorem takeoverSent_netOnly (s : State) (k : Nat) : NetOnly (inTakeover s k) (takeoverSent s k) := by
  have hsent := (sendAll_netOnly (inTakeover s k) k (takeoverOthers s k) ((inTakeover s k).cvMsg k 9)).trans
    (sendAll_netOnly _ k (takeoverOthers s k) ((inTakeover s k).cvMsg k 10))
  unfold takeoverSent
  dsimp only
  split
  · exact hsent.trans (tellEpoch_netOnly _ k)
  · exact hsent

/-- A context that takes over is in TAKEOVER with the next EPOCH, whatever it then sends (R390, R392). -/
theorem exec_takeoverTimer_enters (hk : s.ConvOn k) (hm : s.cvMgr k = s.cvUnder k) (hr : takeoverRank s k ≠ 0)
    (hst : s.cvSt k = 1) (hdue : heardLower s k + takeoverRank s k * s.cvMiss k * s.cvPeriod k ≤ s.base) :
    ∃ t, exec (.takeoverTimer k) s = .next t ∧ t.cvSt k = 2 ∧ t.cvEpoch k = (s.cvEpoch k + 1) % 2 ^ 32 := by
  have hnet := takeoverSent_netOnly s k
  exact ⟨_, exec_takeoverTimer_of_silent hk hm hr hst hdue, (hnet.conv_getF k (by decide)).trans (inTakeover_cvSt s k),
    (hnet.conv_getF k (by decide)).trans (inTakeover_cvEpoch s k)⟩

/-- A worker that has waited as long again without a majority halts (R390). -/
theorem exec_takeoverTimer_of_no_majority (hk : s.ConvOn k) (hm : s.cvMgr k = false) (hr : s.cvRank k ≠ 0) (hst : s.cvSt k = 2)
    (hdue : (s.conv k).takeAt + s.cvRank k * s.cvMiss k * s.cvPeriod k ≤ s.base) (hmaj : majority (s.conv k) = false) :
    exec (.takeoverTimer k) s = .next (s.cvHalt k) := by
  obtain ⟨hd, hrun⟩ := hk
  have he : exec (.takeoverTimer k) s = execTakeoverTimer k s := rfl
  rw [he, execTakeoverTimer, actD_of_liveOn hd]
  simp [hrun, hm, hr, hst, hdue, hmaj]

/-- A TAKEOVER is of the context's job and of a higher epoch (R387, R390). -/
structure NewEpoch (s : State) (k : Nat) (m : Ctl) : Prop where
  on : s.ConvOn k
  started : s.cvSt k ≠ 0
  kind : m.kind = 9
  job : m.convoyId = s.getF (convPg k) Reg.CONV_ID
  higher : s.cvEpoch k < m.epoch

/-- A higher epoch adopted; a context in TAKEOVER goes on (R387, R390). -/
def epochAdopted (s : State) (k : Nat) (m : Ctl) : State :=
  (s.setF (convPg k) Reg.CONV_EPOCH m.epoch).setCvSt k (if s.cvSt k == 2 then 1 else s.cvSt k)

/-- A context that follows a manager of its own convoy (R390). -/
def memberFollowed (s : State) (k : Nat) (m : Ctl) : State :=
  ((epochAdopted s k m).setF (convPg k) Reg.CONV_STAT_IS_MANAGER 0).setConv k { s.conv k with
    mgr := m.sender % 128, heard := SMap.put (s.conv k).heard (m.sender % 128) s.base, mgrLost := false }

/-- A TAKEOVER by a member of the context's convoy is followed, and reported where the manager is a new one (R390, R409). -/
theorem exec_takeover_of_member (h : NewEpoch s k m) (hc : m.convoy = s.cvConvoy k) :
    exec (.takeover k m) s = .next
      (if (s.conv k).mgr = m.sender % 128 ∧ s.cvMgr k = false then memberFollowed s k m
       else (memberFollowed s k m).raise (convPg k) 2) := by
  obtain ⟨⟨hd, hrun⟩, hst, hkind, hjob, hep⟩ := h
  have he : exec (.takeover k m) s = execTakeover k m s := rfl
  have hf : s.ctlKey k m = m.sender % 128 := by simp [ctlKey, hc]
  rw [he, execTakeover, actD_of_liveOn hd]
  simp [hrun, hst, hkind, hjob, hep, hf, Nat.mod_lt, memberFollowed, epochAdopted]

/-- The manager of a convoy that has noted a new top manager (R392). -/
def topNoted (s : State) (k : Nat) (m : Ctl) : State :=
  (epochAdopted s k m).setConv k (noteConvoy { s.conv k with
    top := m.convoy % 32, heard := SMap.put (s.conv k).heard (128 + m.convoy % 32) s.base, mgrLost := false } (128 + m.convoy % 32))

/-- A TAKEOVER by the manager of another convoy makes that the top manager's, and its epoch the members' (R392). -/
theorem exec_takeover_of_top (h : NewEpoch s k m) (hc : m.convoy ≠ s.cvConvoy k) (hm : s.cvMgr k = true) :
    exec (.takeover k m) s = .next
      (if (s.conv k).top = m.convoy % 32 then (topNoted s k m).tellEpoch k else ((topNoted s k m).tellEpoch k).raise (convPg k) 2) := by
  obtain ⟨⟨hd, hrun⟩, hst, hkind, hjob, hep⟩ := h
  have he : exec (.takeover k m) s = execTakeover k m s := rfl
  have hf : s.ctlKey k m = 128 + m.convoy % 32 := by simp [ctlKey, hc]
  have hother : ¬128 + m.convoy % 32 < 128 := Nat.not_lt.2 (Nat.le_add_right _ _)
  rw [he, execTakeover, actD_of_liveOn hd]
  simp [hrun, hst, hkind, hjob, hep, hf, hother, hm, topNoted, epochAdopted]

theorem exec_query_of_taken (hd : s.LiveOn .N0) (ht : s.takes k 10 m = true) :
    exec (.query k m) s = .next (s.sendCtl k (s.ctlKey k m) (s.cvMsg k 11)) := by
  have he : exec (.query k m) s = execQuery k m s := rfl
  rw [he, execQuery, actD_of_liveOn hd]
  simp [ht]

/-- A new manager without a majority collects an answer and goes on waiting (R390). -/
theorem exec_state_of_no_majority (hd : s.LiveOn .N0) (ht : s.takes k 11 m = true) (hst : s.cvSt k = 2)
    (hmaj : majority { s.conv k with states := SMap.put (s.conv k).states (s.ctlKey k m) m.committed } = false) :
    exec (.state k m) s =
      .next (s.setConv k { s.conv k with states := SMap.put (s.conv k).states (s.ctlKey k m) m.committed }) := by
  have he : exec (.state k m) s = execState k m s := rfl
  rw [he, execState, actD_of_liveOn hd]
  simp [ht, hst, hmaj]

/-! ### Fields after a TAKEOVER -/

theorem epochAdopted_cvEpoch (s : State) (k : Nat) (hm : m.epoch < 2 ^ 32) : (epochAdopted s k m).cvEpoch k = m.epoch := by
  rw [epochAdopted, cvEpoch, setCvSt, conv_getF_setF _ _ (by decide) (by decide) (by decide), getF_setF_same _ _ _ _ _ (by decide)]
  exact Nat.mod_eq_of_lt hm

theorem epochAdopted_cvMgr (s : State) (k : Nat) (m : Ctl) : (epochAdopted s k m).cvMgr k = s.cvMgr k := by
  simp (disch := decide) [epochAdopted, cvMgr, setCvSt, getF_setF_beside]

theorem memberFollowed_cvEpoch (s : State) (k : Nat) (hm : m.epoch < 2 ^ 32) : (memberFollowed s k m).cvEpoch k = m.epoch := by
  rw [memberFollowed, cvEpoch, setConv_getF, conv_getF_setF _ _ (by decide) (by decide) (by decide)]
  exact epochAdopted_cvEpoch s k hm

theorem memberFollowed_cvMgr (s : State) (k : Nat) (m : Ctl) : (memberFollowed s k m).cvMgr k = false := by
  simp (disch := decide) [memberFollowed, cvMgr, getF_setF_same]

theorem memberFollowed_mgr (s : State) (k : Nat) (m : Ctl) : ((memberFollowed s k m).conv k).mgr = m.sender % 128 := by
  rw [memberFollowed, conv_setConv]

theorem topNoted_cvEpoch (s : State) (k : Nat) (hm : m.epoch < 2 ^ 32) : ((topNoted s k m).tellEpoch k).cvEpoch k = m.epoch := by
  rw [cvEpoch, conv_getF_tellEpoch _ _ (by decide), topNoted, setConv_getF]
  exact epochAdopted_cvEpoch s k hm

theorem topNoted_cvMgr (s : State) (k : Nat) (m : Ctl) : ((topNoted s k m).tellEpoch k).cvMgr k = s.cvMgr k := by
  rw [cvMgr, conv_getF_tellEpoch _ _ (by decide), topNoted, setConv_getF]
  exact epochAdopted_cvMgr s k m

theorem topNoted_top (s : State) (k : Nat) (m : Ctl) : ((topNoted s k m).conv k).top = m.convoy % 32 := by
  rw [topNoted, conv_setConv, noteConvoy_top]

end Convoys

end Sys2Proof.Machine

namespace Sys2Proof

open Sys2Proof.Machine

/-- Settles O34: each command has its rule above; the messages that it sends change neither the context's page nor what the context keeps
(`NetOnly`). -/
theorem convoysHoldTogether : Obligations.ConvoysHoldTogether := by
  unfold Obligations.ConvoysHoldTogether
  refine ⟨fun k s hk hst hok => ?_, fun k s hk hst => ?_, fun k r s hk hm hst ha => ?_, fun k s => exec_resume_of_halted,
    fun k s => exec_heartbeatSend_of_first, fun k m s hd ht hm => ?_, fun k m s hd ht hm => ?_,
    fun k r s hk hst hm hr hmem ha hl hb hdue => ?_, fun k s hk hst hm hl hdue => ?_, fun k s hk hm hr hst hdue => ?_,
    fun k s hk hst hu hl hdue => ?_, fun k s hk hu hr hst hdue => ?_,
    fun k s => exec_takeoverTimer_of_no_majority, fun k m s hk hst hkind hjob hep hlt hc => ?_,
    fun k m s hk hst hkind hjob hep hlt hc hm => ?_, fun k m s => exec_query_of_taken, fun k m s => exec_state_of_no_majority⟩
  · exact ⟨_, exec_start_of_idle hk hst hok, convStarted_cvSt s k, convStarted_cvMgr s k, by rw [convStarted, State.conv_setConv],
      rfl, rfl, rfl⟩
  · exact ⟨_, exec_stop_of_started hk hst, convStopped_cvSt s k, convStopped_cvMgr s k, State.conv_setConv _ _ _, rfl, rfl, rfl⟩
  · refine ⟨_, exec_admitRank_of_running hk hm hst ha r, ?_,
      ((State.tellEpoch_netOnly _ k).conv_getF k (by decide)).trans (rankAdmitted_cvEpoch s k _)⟩
    simp [rankAdmitted]
  · exact ⟨_, exec_heartbeat_of_worker hd ht hm, by simp⟩
  · exact ⟨_, exec_hbReply_of_manager hd ht hm, by simp [State.raiseMax]⟩
  · refine ⟨_, exec_workerLost_of_silent hk hst hm hr hmem ha hl hb hdue, ?_, ?_⟩
    · rw [getF_abortStep (by decide) (by decide) (by decide) (by decide), State.conv_getF_tellEpoch _ _ (by decide),
        memberDropped_lostRank s k hr]
    · rw [State.cvEpoch, getF_abortStep (by decide) (by decide) (by decide) (by decide), State.conv_getF_tellEpoch _ _ (by decide)]
      exact memberDropped_cvEpoch s k r
  · exact exec_managerLost_of_silent hk hst (hm.trans (cvUnder_of_worker hm).symm) hl (by simpa [hm] using hdue)
  · refine exec_takeoverTimer_enters hk (hm.trans (cvUnder_of_worker hm).symm) (by simpa [takeoverRank, hm] using hr) hst ?_
    simpa [heardLower, takeoverRank, hm] using hdue
  · have hm := cvMgr_of_cvUnder hu
    exact exec_managerLost_of_silent hk hst (hm.trans hu.symm) hl (by simpa [hm] using hdue)
  · have hm := cvMgr_of_cvUnder hu
    refine exec_takeoverTimer_enters hk (hm.trans hu.symm) (by simpa [takeoverRank, hm] using hr) hst ?_
    simpa [heardLower, takeoverRank, hm] using hdue
  · refine ⟨_, exec_takeover_of_member ⟨hk, hst, hkind, hjob, hep⟩ hc, ?_⟩
    split <;> simp [memberFollowed_cvEpoch s k hlt, memberFollowed_cvMgr, memberFollowed_mgr]
  · refine ⟨_, exec_takeover_of_top ⟨hk, hst, hkind, hjob, hep⟩ hc hm, ?_⟩
    split <;> simp [topNoted_cvEpoch s k hlt, topNoted_cvMgr, hm, topNoted_top]

end Sys2Proof

/-! PROOFS. Barriers, readiness, commit, report of application and abort of a coordination context (R393, R395, R399 to R401, R404). -/

namespace Sys2Proof.Machine

namespace State

variable (s : State) (k : Nat)

/-! ### A milestone committed (R395, R399) -/

@[simp] theorem wrNat_tallyOps (a v n : Nat) : (s.wrNat a v n).tallyOps = s.tallyOps := by
  obtain ⟨u, p, ⟨⟨c, r, rfl⟩, -⟩, h⟩ := wrBytes_eq s a (leBytes v n)
  rw [wrNat, h]

@[simp] theorem cvTally_getF (t v : Nat) (pg : Page) (f : Fld) : (s.cvTally k t v).getF pg f = s.getF pg f := rfl

/-- COMMITTED whose two words hold a number of 64 bits is that number. -/
theorem cvCommitted_of_words {s : State} {k m : Nat} (hlo : s.getF (convPg k) Reg.CONV_COMMITTED_LO = m % 2 ^ 32)
    (hhi : s.getF (convPg k) Reg.CONV_COMMITTED_HI = m >>> 32 % 2 ^ 32) (hm : m < 2 ^ 64) : s.cvCommitted k = m := by
  have hwords : m % 2 ^ 32 + (m >>> 32 % 2 ^ 32) <<< 32 = m := by
    rw [Nat.shiftRight_eq_div_pow, Nat.shiftLeft_eq]
    omega
  rw [← hlo, ← hhi] at hwords
  exact hwords

/-- A commit writes COMMITTED and clears the layer mask; the page's other words stay, and the record and the tally lie elsewhere (R395, R399). -/
theorem commitAt_getF {g : Fld} (hg : g.off < 4096) (hlo : g.off / 4 ≠ 0x2B) (hhi : g.off / 4 ≠ 0x2C) (m : Nat) :
    (s.commitAt k m).getF (convPg k) g =
      ((s.setF (convPg k) Reg.CONV_COMMITTED_LO m).setF (convPg k) Reg.CONV_COMMITTED_HI (m >>> 32)).getF (convPg k) g := by
  have hmask (t : State) (v : Nat) : (t.setLmask k v).getF (convPg k) g = t.getF (convPg k) g := by
    rw [setLmask, conv_getF_setF _ k (f := Reg.CONV_LMASK_HI) (by decide) hg hhi,
      conv_getF_setF _ k (f := Reg.CONV_LMASK_LO) (by decide) hg hlo]
  rw [commitAt, setConv_getF, hmask, openRecord, conv_getF_wrNat _ _ hg, cvTally_getF]

theorem commitAt_cvCommitted {m : Nat} (hm : m < 2 ^ 64) : (s.commitAt k m).cvCommitted k = m := by
  refine cvCommitted_of_words ?_ ?_ hm
  · rw [commitAt_getF _ _ (by decide) (by decide) (by decide), conv_getF_setF _ _ (by decide) (by decide) (by decide)]
    exact getF_setF_same _ _ _ _ _ (by decide)
  · rw [commitAt_getF _ _ (by decide) (by decide) (by decide)]
    exact getF_setF_same _ _ _ _ _ (by decide)

/-- A commit asks for the COMMIT tally to be set to the milestone (R395). -/
theorem commitAt_tallyOps (m : Nat) : (s.commitAt k m).tallyOps = s.tallyOps ++
    [⟨s.getF (convPg k) Reg.CONV_TALLY_COMMIT_INDEX, true, m, (dieCode .N0, 2 ^ 14 + k % 4)⟩] := by
  have hset (t : State) (v : Nat) : (t.setLmask k v).tallyOps = t.tallyOps := rfl
  have hconv (t : State) (c : Conv) : (t.setConv k c).tallyOps = t.tallyOps := rfl
  rw [commitAt, hconv, hset, openRecord, wrNat_tallyOps]
  rfl

end State

section Steps

variable {s : State} {k : Nat} {m : Ctl}

open State

/-! ### Barriers (R393) -/

theorem exec_convBarrier_of_worker (hk : s.ConvOn k) (hst : s.cvSt k ≠ 0) (hm : s.cvMgr k = false) (v : W32) :
    exec (.convBarrier k v) s = .next ((s.setF (convPg k) Reg.CONV_BARRIER v.toNat).sendCtl k (s.conv k).mgr
      { s.cvMsg k 3 with barrier := v.toNat }) := by
  obtain ⟨hd, hrun⟩ := hk
  have he : exec (.convBarrier k v) s = execConvBarrier k v s := rfl
  rw [he, execConvBarrier, actD_of_liveOn hd]
  simp [hrun, hst, hm]

theorem exec_arrive_of_member (hd : s.LiveOn .N0) (ht : s.takes k 3 m = true) (hm : s.cvMgr k = true) (hf : s.ctlKey k m < 128) :
    exec (.arrive k m) s = .next ((s.setConv k { s.conv k with
      arrived := SMap.put (s.conv k).arrived (s.ctlKey k m) (m.barrier % 2 ^ 32) }).barrierSettle k) := by
  have he : exec (.arrive k m) s = execArrive k m s := rfl
  rw [he, execArrive, actD_of_liveOn hd]
  simp [ht, hm, noteConvoy_of_member hf]

/-- A worker's RELEASE asks for the barrier's tally to be set, and forgets who arrived (R393). -/
theorem exec_release_of_worker (hd : s.LiveOn .N0) (ht : s.takes k 4 m = true) (hm : s.cvMgr k = false) :
    exec (.release k m) s = .next
      ((s.cvTally k (s.getF (convPg k) Reg.CONV_TALLY_BAR_INDEX) (m.barrier % 2 ^ 32)).setConv k { s.conv k with
        arrived := (s.conv k).arrived.filter fun e => e.2 != m.barrier % 2 ^ 32, fwd := none }) := by
  have he : exec (.release k m) s = execRelease k m s := rfl
  rw [he, execRelease, actD_of_liveOn hd]
  simp [ht, hm]

/-! ### Readiness, commit, application, abort (R395, R399 to R401, R404) -/

/-- CONV_READY written at a worker: the milestone of its two words, which the worker reports from now on (R395). -/
def readyNoted (s : State) (k : Nat) (v : W32) : State :=
  (s.setF (convPg k) Reg.CONV_READY_HI v.toNat).setConv k
    { s.conv k with readyM := s.getF (convPg k) Reg.CONV_READY_LO + v.toNat <<< 32 }

/-- A worker without layer commits reports READY to its manager, of group 0 (R395). -/
theorem exec_convReady_of_worker (hk : s.ConvOn k) (hst : s.cvSt k ≠ 0) (hm : s.cvMgr k = false) (hl : s.cvLayer k = false) (v : W32) :
    exec (.convReady k v) s = .next ((readyNoted s k v).sendCtl k (s.conv k).mgr
      { (readyNoted s k v).cvMsg k 5 with milestone := s.getF (convPg k) Reg.CONV_READY_LO + v.toNat <<< 32, group := 0 }) := by
  obtain ⟨hd, hrun⟩ := hk
  have he : exec (.convReady k v) s = execConvReady k v s := rfl
  rw [he, execConvReady, actD_of_liveOn hd]
  simp [hrun, hst, hm, hl, readyNoted]

theorem readyNoted_readyHi (s : State) (k : Nat) (v : W32) :
    (readyNoted s k v).getF (convPg k) Reg.CONV_READY_HI = v.toNat :=
  (getF_setF_same _ _ _ _ _ (by decide)).trans (Nat.mod_eq_of_lt v.isLt)

theorem exec_ready_of_manager (hd : s.LiveOn .N0) (ht : s.takes k 5 m = true) (hm : s.cvMgr k = true) :
    exec (.ready k m) s = .next (s.noteReady k (m.sender % 128) (m.group % 64) m.milestone) := by
  have he : exec (.ready k m) s = execReady k m s := rfl
  rw [he, execReady, actD_of_liveOn hd]
  simp [ht, hm]

theorem exec_commit_of_worker (hd : s.LiveOn .N0) (ht : s.takes k 6 m = true) (hm : s.cvMgr k = false)
    (hc : s.cvCommitted k < m.milestone) (hl : s.cvLayer k = false) : exec (.commit k m) s = .next (s.commitAt k m.milestone) := by
  have he : exec (.commit k m) s = execCommit k m s := rfl
  rw [he, execCommit, actD_of_liveOn hd]
  simp [ht, hm, cvUnder_of_worker hm, hc, hl]

theorem exec_convApplied_of_manager (hk : s.ConvOn k) (hst : s.cvSt k ≠ 0) (hm : s.cvMgr k = true) (v : W32) :
    exec (.convApplied k v) s = .next ((s.setF (convPg k) Reg.CONV_APPLIED_HI v.toNat).noteApplied k (s.cvRank k)
      (s.getF (convPg k) Reg.CONV_APPLIED_LO + v.toNat <<< 32) (s.getF (convPg k) Reg.CONV_APPLY_OUT)) := by
  obtain ⟨hd, hrun⟩ := hk
  have he : exec (.convApplied k v) s = execConvApplied k v s := rfl
  rw [he, execConvApplied, actD_of_liveOn hd]
  simp [hrun, hst, hm]

theorem exec_applied_of_manager (hd : s.LiveOn .N0) (ht : s.takes k 7 m = true) (hm : s.cvMgr k = true) :
    exec (.applied k m) s = .next (s.noteApplied k (m.sender % 128) m.milestone (m.outcome % 4)) := by
  have he : exec (.applied k m) s = execApplied k m s := rfl
  rw [he, execApplied, actD_of_liveOn hd]
  simp [ht, hm]

theorem exec_abortStep_of_worker (hd : s.LiveOn .N0) (ht : s.takes k 8 m = true) (hm : s.cvMgr k = false) :
    exec (.abortStep k m) s = .next (s.abortAt k m.milestone) := by
  have he : exec (.abortStep k m) s = execAbortStep k m s := rfl
  rw [he, execAbortStep, actD_of_liveOn hd]
  simp [ht, hm, cvUnder_of_worker hm]

/-- An abort counts one more try of the milestone and leaves all else that the context keeps (R401). -/
theorem conv_abortAt (s : State) (k m : Nat) : (s.abortAt k m).conv k = { s.conv k with tries := (s.conv k).tries + 1 } := by
  simp [abortAt, bump]

end Steps

end Sys2Proof.Machine

namespace Sys2Proof

open Sys2Proof.Machine

/-- Settles O35: each command has its rule above; the record that a commit opens is a write of memory, which leaves COMMITTED and the
tallies' operations. -/
theorem stepsCommit : Obligations.StepsCommit := by
  unfold Obligations.StepsCommit
  refine ⟨fun k v s hk hst hm => exec_convBarrier_of_worker hk hst hm v, fun k m s => exec_arrive_of_member,
    fun k m s hd ht hm => ⟨_, exec_release_of_worker hd ht hm, rfl⟩, fun k v s hk hst hm hl => ?_,
    fun k m s => exec_ready_of_manager, fun k m s hd ht hm hc hlt hl => ?_,
    fun k v s hk hst hm => exec_convApplied_of_manager hk hst hm v, fun k m s => exec_applied_of_manager, fun k m s hd ht hm => ?_⟩
  · refine ⟨_, exec_convReady_of_worker hk hst hm hl v, ?_, ?_⟩
    · rw [State.conv_getF_sendCtl _ _ (by decide), readyNoted_readyHi]
    · rw [State.conv_sendCtl, readyNoted, State.conv_setConv]
  · exact ⟨_, exec_commit_of_worker hd ht hm hc hl, State.commitAt_cvCommitted s k hlt, State.commitAt_tallyOps s k _⟩
  · exact ⟨_, exec_abortStep_of_worker hd ht hm, by rw [conv_abortAt]⟩

end Sys2Proof

/-! PROOFS. Preparation batches and range invalidations (R410, R421, R446, R447). -/

namespace Sys2Proof.Machine

/-! ### Preparation batches -/

section Prep

variable {s : State} {d : Die} {n q u : Nat} {x : Desc}

/-- A batch that no unit has goes to the unit with the fewest, where that unit runs (R410). -/
theorem exec_prepBatch_of_new (hx : s.RunningDesc d n q 0x30 x) (ha : x.aux = []) (hr : s.runs (State.prepPg s.prepPick) = true) :
    exec (.prepBatch d n q) s = .next (s.updDesc d n q fun y => { y with aux := [s.prepPick + 1] }) := by
  have he : exec (.prepBatch d n q) s = execPrepBatch d n q s := rfl
  rw [he, execPrepBatch, actD_withRunning_of_running hx]
  simp [ha, hr]

/-- A unit none of whose batches has begun begins a batch that it has (R410). -/
theorem exec_prepBatch_of_given (hx : s.RunningDesc d n q 0x30 x) (ha : x.aux = [u + 1]) (hr : s.runs (State.prepPg u) = true)
    (hj : ∀ y ∈ s.prepJobs u, y.aux.length ≤ 1) :
    exec (.prepBatch d n q) s = .next (s.updDesc d n q fun y => { y with aux := [u + 1, 1, 0, 0, 0] }) := by
  have he : exec (.prepBatch d n q) s = execPrepBatch d n q s := rfl
  have hfree : ((s.prepJobs u).any fun y => 1 < y.aux.length) = false := by simpa using hj
  rw [he, execPrepBatch, actD_withRunning_of_running hx]
  simp [ha, hr, hfree]

/-- A batch of stored records that has begun comes one slot further (R421). -/
theorem exec_prepBatch_of_stored {k a b c : Nat} (hx : s.RunningDesc d n q 0x30 x) (ha : x.aux = [u + 1, a, k, b, c])
    (hr : s.runs (State.prepPg u) = true) (hs : x.pjSource = 0) :
    exec (.prepBatch d n q) s = .next (s.prepStored d n q u k x) := by
  have he : exec (.prepBatch d n q) s = execPrepBatch d n q s := rfl
  rw [he, execPrepBatch, actD_withRunning_of_running hx]
  simp [ha, hr, hs]

end Prep

/-! ### Fields of one page -/

namespace State

section Fields

variable {pg : Page} {g : Fld} (s : State)

/-- Words at different offsets of a page have different keys. -/
theorem regKey_ne_of_off (hi : pg.inst < 256) {o o' : Nat} (ho : o < 4096) (ho' : o' < 4096) (h : o / 4 ≠ o' / 4) :
    regKey pg o 0 ≠ regKey pg o' 0 := fun he =>
  h (regKey_inj _ _ _ _ _ _ hi hi ho ho' (by decide) (by decide) he).2.1

/-- A field that is written leaves those of its page's other words. -/
theorem getF_setF_beyond (hi : pg.inst < 256) {f : Fld} (hf : f.off < 4096) (hg : g.off < 4096) (h : g.off / 4 ≠ f.off / 4)
    (v : Nat) : (s.setF pg f v).getF pg g = s.getF pg g :=
  getF_setF_other _ _ _ _ _ _ _ _ (regKey_ne_of_off hi hg hf h)

/-- A status bit raised changes PAGE_IRQ_STAT alone on its page (R533). -/
theorem getF_raise_beyond (hi : pg.inst < 256) (hg : g.off < 4096) (h : g.off / 4 ≠ 8) (n : Nat) :
    (s.raise pg n).getF pg g = s.getF pg g := by
  have hset (v : Nat) : (s.setWord pg 0x20 v).getF pg g = s.getF pg g :=
    getF_setWord_other _ _ _ _ _ _ _ _ (regKey_ne_of_off hi hg (by decide) h)
  unfold raise raiseMask
  dsimp only
  split <;> exact hset _

@[simp] theorem raise_invs (pg : Page) (n : Nat) : (s.raise pg n).invs = s.invs := by
  unfold raise raiseMask
  dsimp only
  split <;> rfl

end Fields

/-! ### Range invalidations -/

/-- The invalidation that the registers of a die's page name (R446). -/
def namedInv (s : State) (d : Die) : Inv :=
  ⟨s.base, s.getF (xltPg d) Reg.XLT_INV_VA_LO_VA + s.getF (xltPg d) Reg.XLT_INV_VA_HI_VA <<< 20, s.getF (xltPg d) Reg.XLT_INV_PAGES,
    if s.getF (xltPg d) Reg.XLT_INV_ASID_ALL_ASID == 1 then none else some (s.getF (xltPg d) Reg.XLT_INV_ASID_ASID),
    xltDies.map dieCode⟩

/-- Every die with translating agents counts an invalidation. -/
def invCounted (s : State) : State := xltDies.foldl (fun t g => t.bump (xltPg g) Reg.XLT_INVALIDATIONS) s

/-- An invalidation of die `d` is outstanding, and BUSY shows it (R446). -/
def invOpened (s : State) (d : Die) (v : Inv) : State :=
  setF { s with invs := SMap.put s.invs (dieCode d) v } (xltPg d) Reg.XLT_INV_CMD_BUSY 1

/-- Die `g` drops what its walkers' caches hold of the range (R447). -/
def invDropped (s : State) (g : Die) (v : Inv) : State :=
  { s with walkers := s.walkers.filter fun e => e.die != dieCode g || !Inv.drops v e }

/-- The invalidation of die `d` is complete: BUSY reads 0, its time is kept, and status bit 0 is raised (R447). -/
def invEnded (s : State) (d : Die) (v : Inv) : State :=
  ((setF { s with invs := SMap.del s.invs (dieCode d) } (xltPg d) Reg.XLT_INV_CMD_BUSY 0).setF (xltPg d) Reg.XLT_INV_TIME_US
    (min ((s.base - v.since) / 1000) (2 ^ 32 - 1))).raise (xltPg d) 0

theorem invCounted_sameMemory (s : State) : SameMemory s s.invCounted :=
  List.foldlRecOn (motive := fun t : State => SameMemory s t) _ _ ⟨rfl, rfl, rfl⟩ fun _ ht _ _ =>
    SameMemory.trans ht ⟨rfl, rfl, rfl⟩

theorem invOpened_sameMemory (s : State) (d : Die) (v : Inv) : SameMemory s (s.invOpened d v) := ⟨rfl, rfl, rfl⟩

theorem invOpened_busy (s : State) (d : Die) (v : Inv) : (s.invOpened d v).getF (xltPg d) Reg.XLT_INV_CMD_BUSY = 1 :=
  getF_setF_same _ _ _ _ _ (by decide)

theorem invOpened_find (s : State) (d : Die) (v : Inv) : SMap.find (s.invOpened d v).invs (dieCode d) = some v :=
  SMap.find_put_same _ _ _

theorem invEnded_sameMemory (s : State) (d : Die) (v : Inv) : SameMemory s (s.invEnded d v) := by
  simp [SameMemory, invEnded]

theorem invEnded_find (s : State) (d : Die) (v : Inv) : SMap.find (s.invEnded d v).invs (dieCode d) = none := by
  rw [invEnded, raise_invs]
  exact SMap.find_del_same _ _

theorem invEnded_idle (s : State) (d : Die) (v : Inv) : (s.invEnded d v).getF (xltPg d) Reg.XLT_INV_CMD_BUSY = 0 := by
  have hi : (xltPg d).inst < 256 := Nat.two_pow_pos 8
  rw [invEnded, getF_raise_beyond _ hi (by decide) (by decide), getF_setF_beyond _ hi (by decide) (by decide) (by decide)]
  exact getF_setF_same _ _ _ _ _ (by decide)

end State

section Invalidations

variable {s : State} {d g : Die}

/-- GO on a page with none outstanding starts the invalidation that its registers name (R446). -/
theorem exec_xltInvGo_of_idle (hd : s.LiveOn d) (hh : isHost d = false) (hr : s.runs (State.xltPg d) = true)
    (hb : s.getF (State.xltPg d) Reg.XLT_INV_CMD_BUSY = 0) : exec (.xltInvGo d) s = .next (s.invCounted.invOpened d (s.namedInv d)) := by
  have he : exec (.xltInvGo d) s = execXltInvGo d s := rfl
  rw [he, execXltInvGo, actD_of_liveOn hd]
  simp [hh, hr, hb, State.invOpened, State.invCounted, State.namedInv]

/-- The acknowledgement of the one die awaited, which holds no translation of the range, ends the invalidation (R447). -/
theorem exec_invalidationAck_of_last {v : Inv} (hd : s.LiveOn d) (hv : SMap.find s.invs (dieCode d) = some v)
    (hw : v.waiting = [dieCode g]) (hs : s.invStreams v g = []) (hq : s.invQps v g = []) :
    exec (.invalidationAck d g) s = .next ((s.invDropped g v).invEnded d v) := by
  have he : exec (.invalidationAck d g) s = execInvalidationAck d g s := rfl
  have hs' : (s.invDropped g v).invStreams v g = [] := hs
  have hq' : (s.invDropped g v).invQps v g = [] := hq
  unfold State.invDropped at hs' hq'
  rw [he, execInvalidationAck, actD_of_liveOn hd]
  simp [hv, hw, hs', hq', State.invDropped, State.invEnded]

end Invalidations

end Sys2Proof.Machine

namespace Sys2Proof

open Sys2Proof.Machine

/-- Settles O36: each command has its rule above. The started invalidation awaits every die with agents, and the last acknowledgement
takes it away; both move registers and caches of walkers, never memory. That one command takes the unit and each later one prepares one
slot is the model's choice (log 62). -/
theorem prepAndInvalidation : Obligations.PrepAndInvalidation := by
  unfold Obligations.PrepAndInvalidation
  refine ⟨fun d n q x s => exec_prepBatch_of_new, fun d n q u x s => exec_prepBatch_of_given,
    fun d n q u k a b c x s => exec_prepBatch_of_stored, fun d s hd hh hr hb => ?_, fun d g v s hd hv hw hs hq => ?_⟩
  · exact ⟨_, s.namedInv d, exec_xltInvGo_of_idle hd hh hr hb, State.invOpened_busy _ d _, State.invOpened_find _ d _,
      rfl, rfl, s.invCounted_sameMemory.trans (State.invOpened_sameMemory _ d _)⟩
  · exact ⟨_, exec_invalidationAck_of_last hd hv hw hs hq, State.invEnded_find _ d v, State.invEnded_idle _ d v,
      State.SameMemory.trans ⟨rfl, rfl, rfl⟩ (State.invEnded_sameMemory _ d v)⟩

end Sys2Proof

/-! PROOFS. Tallies, waits and locks (R467 to R470, R480 to R486, R489): what the shared operations change, and their commands. -/

namespace Sys2Proof.Machine

namespace State

variable (s : State) (t : Nat)

/-! ### What the operations change -/

theorem tally_of_tallies {s u : State} (h : u.tallies = s.tallies) (t : Nat) : u.tally t = s.tally t := by simp only [tally, h]

theorem tally_setTally_other {t k : Nat} (h : k ≠ t) (x : Tally) : (s.setTally t x).tally k = s.tally k := by
  simp [tally, setTally, SMap.getD, SMap.find_put_other _ _ _ _ h]

@[simp] theorem tally_setTally_same (x : Tally) : (s.setTally t x).tally t = x := by simp [tally, setTally, SMap.getD]

/-- Only streams and engines' schedulers differ. -/
def StreamsOnly (s u : State) : Prop := ∃ xs es, u = { s with streams := xs, engines := es }

theorem StreamsOnly.trans {s u v : State} (h : StreamsOnly s u) (g : StreamsOnly u v) : StreamsOnly s v := by
  obtain ⟨xs, es, rfl⟩ := h
  obtain ⟨ys, fs, rfl⟩ := g
  exact ⟨ys, fs, rfl⟩

theorem noteIdle_streamsOnly (d : Die) (n : Nat) : StreamsOnly s (s.noteIdle d n) := by
  unfold noteIdle
  split
  · exact ⟨s.streams, s.engines, rfl⟩
  · exact ⟨s.streams, _, rfl⟩

/-- The end of a descriptor that reports no uncorrectable codeword. -/
theorem finish_streamsOnly {st : Nat} (hst : st ≠ stUncorr) (d : Die) (n q pos operand : Nat) :
    StreamsOnly s (s.finish d n q st pos operand) := by
  have he : s.finish d n q st pos operand = (s.endDesc d n q st pos operand).noteIdle d n := by simp [finish, hst]
  rw [he]
  exact StreamsOnly.trans ⟨_, s.engines, rfl⟩ (noteIdle_streamsOnly _ d n)

theorem wakeWaiter_streamsOnly (w : Waiter) (st : Nat) : StreamsOnly s (s.wakeWaiter w st) :=
  StreamsOnly.trans ⟨_, s.engines, rfl⟩ (noteIdle_streamsOnly _ _ _)

theorem wakeWaiters_streamsOnly (st : Nat) (ws : List Waiter) : StreamsOnly s (ws.foldl (fun a w => a.wakeWaiter w st) s) :=
  List.foldlRecOn (motive := StreamsOnly s) _ _ ⟨s.streams, s.engines, rfl⟩ fun _ h w _ => h.trans (wakeWaiter_streamsOnly _ w st)

theorem StreamsOnly.tallies {s u : State} (h : StreamsOnly s u) : u.tallies = s.tallies := by obtain ⟨xs, es, rfl⟩ := h; rfl
theorem StreamsOnly.tally {s u : State} (h : StreamsOnly s u) (t : Nat) : u.tally t = s.tally t := tally_of_tallies h.tallies t
theorem StreamsOnly.tallyOps {s u : State} (h : StreamsOnly s u) : u.tallyOps = s.tallyOps := by obtain ⟨xs, es, rfl⟩ := h; rfl
theorem StreamsOnly.answers {s u : State} (h : StreamsOnly s u) : u.answers = s.answers := by obtain ⟨xs, es, rfl⟩ := h; rfl

/-- A tally with the waits that its value meets gone from it (R469). -/
def Tally.unmet (x : Tally) : Tally := { x with waiters := x.waiters.filter fun w => !w.what.met x.value }

theorem testWaiters_streamsOnly : StreamsOnly (s.setTally t (Tally.unmet (s.tally t))) (s.testWaiters t) := wakeWaiters_streamsOnly _ _ _

/-- The value that an operation leaves in its tally (R468). -/
theorem tallyApply_value (o : TallyOp) :
    ((s.tallyApply o).tally o.t).value = (if o.set then o.v else (s.tally o.t).value + o.v) % 2 ^ 64 := by
  have h : (s.tallyApply o).tally o.t = _ := (testWaiters_streamsOnly _ _).tally o.t
  rw [h, tally_setTally_same, Tally.unmet, tally_of_tallies (bump_tallies _ _ _ _ _), tally_setTally_same]
  cases o.set <;> rfl

@[simp] theorem tallyApply_tallyOps (o : TallyOp) : (s.tallyApply o).tallyOps = s.tallyOps := (testWaiters_streamsOnly _ _).tallyOps

@[simp] theorem tallyApply_answers (o : TallyOp) : (s.tallyApply o).answers = s.answers := (testWaiters_streamsOnly _ _).answers

@[simp] theorem tally_grantLock (h : Holder) (c us : Nat) : (s.grantLock t h c us).tally t =
    { s.tally t with holder := some h, holderCpt := c, leaseEnd := s.base + us * 1000, paused := none } := tally_setTally_same _ _ _

theorem grantStatus_ne_uncorr : s.grantStatus t ≠ stUncorr := by
  unfold grantStatus
  split <;> decide

@[simp] theorem startPoll_tallies (w : Waiter) : (s.startPoll t w).tallies = s.tallies := by simp [startPoll, raise]

/-- A refused operation on a tally changes no tally. -/
theorem refuseTally_tallies (d : Die) (n q k : Nat) : (s.refuseTally d n q k).tallies = s.tallies :=
  (finish_streamsOnly _ (by decide) d n q _ _).tallies

/-- The lock that nobody waits for becomes free. -/
theorem freeLock_of_no_queue (h : ∀ w ∈ (s.tally t).waiters, w.what.isLock = false) :
    s.freeLock t = s.setTally t { s.tally t with holder := none, holderCpt := 0, leaseEnd := 0, paused := none } := by
  have hf : ((s.tally t).waiters.find? fun w => w.what.isLock) = none := by simpa using h
  simp [freeLock, hf]

/-- The lock goes from its holder to nobody or to the oldest queued stream, and keeps its ABANDONED bit. -/
theorem freeLock_abandoned : ((s.freeLock t).tally t).abandoned = (s.tally t).abandoned := by
  unfold freeLock
  dsimp only
  split
  · simp
  · rw [(wakeWaiter_streamsOnly _ _ _).tally]
    simp

/-- The tally that is marked abandoned, before its lock goes on. -/
def abandonMarked : State :=
  (((s.setTally t { s.tally t with abandoned := true }).bump (talPg t) Reg.TAL_ABANDONS).setF (talPg t) Reg.TAL_LAST_ABANDON_SLOT
    (talSlot t)).raise (talPg t) 1

theorem abandonLock_eq : s.abandonLock t = (s.abandonMarked t).freeLock t := rfl

theorem abandonMarked_tally : (s.abandonMarked t).tally t = { s.tally t with abandoned := true } := by
  have h : (s.abandonMarked t).tallies = (s.setTally t { s.tally t with abandoned := true }).tallies := by simp [abandonMarked, raise]
  rw [tally_of_tallies h, tally_setTally_same]

/-- The window of a tally that a hart reaches is accessed (R489, R495, R604). -/
theorem withWindow_of_open {s : State} {h k : Nat} (hw : s.WindowOpen h k) (f : State → State) : s.withWindow h k f = f s := by
  obtain ⟨-, hheld, hk, hreach⟩ := hw
  have hr : (s.getF mgmtPg Reg.MGMT_BOOT_OPEN == 0 || ((s.hartCpt h).isSome && s.hartCpt h == s.tallyOwner k)) = true := by
    simpa using hreach
  simp [withWindow, hheld, hk, hr]

@[simp] theorem notePromise_tallies (u : State) : (s.notePromise u).tallies = u.tallies := by
  unfold notePromise
  split <;> simp [raise]

@[simp] theorem notePromise_harts (u : State) : (s.notePromise u).harts = u.harts := by
  unfold notePromise
  split <;> simp [raise]

theorem hart_of_harts {s u : State} (h : u.harts = s.harts) (k : Nat) : u.hart k = s.hart k := by simp only [hart, h]

@[simp] theorem hart_setHart_same (k : Nat) (x : Hart) : (s.setHart k x).hart k = x := by simp [hart, setHart, SMap.getD]

end State

/-! ### Operations and polls -/

section Operations

variable {s : State} {i k : Nat} {w : Waiter}

/-- The oldest of its stream's operations on its tally is applied (R165, R468). -/
theorem exec_tallyOperation_of_first {o : TallyOp} (hs : s.Live) (ho : s.tallyOps[i]? = some o)
    (hfirst : ∀ p ∈ s.tallyOps.take i, p.t = o.t → p.src ≠ o.src) (hr : s.runs (talPg o.t) = true) :
    exec (.tallyOperation i) s = .next (State.tallyApply { s with tallyOps := s.tallyOps.eraseIdx i } o) := by
  have he : exec (.tallyOperation i) s = execTallyOperation i s := rfl
  have hany : (s.tallyOps.take i).any (fun p => p.t == o.t && p.src == o.src) = false := by
    rw [List.any_eq_false]
    intro p hp
    simpa using hfirst p hp
  rw [he, execTallyOperation, act_of_live hs]
  simp [ho, hany, hr]

/-- A wait that polls and is met completes; one that is not met takes a free entry (R470). -/
theorem exec_waitPoll_of_wait (hs : s.Live) (hp : s.polls[i]? = some (k, w)) (hl : w.what.isLock = false) :
    exec (.waitPoll i) s = .next (
      if w.what.met (s.tally k).value then (s.dropPoll i).wakeWaiter w stOk
      else if s.waitEntries k < 4096 then (s.dropPoll i).setTally k { s.tally k with waiters := (s.tally k).waiters ++ [w] }
      else s) := by
  have he : exec (.waitPoll i) s = execWaitPoll i s := rfl
  rw [he, execWaitPoll, act_of_live hs]
  cases hw : w.what with
  | lock us => simp [hw, WaitFor.isLock] at hl
  | _ => simp [hp, hw]

/-- A lock that has become free, with no queue, goes to the acquire that polls (R470, R480). -/
theorem exec_waitPoll_of_free_lock {us : Nat} (hs : s.Live) (hp : s.polls[i]? = some (k, w)) (hw : w.what = .lock us)
    (hh : (s.tally k).holder = none) (hq : ∀ v ∈ (s.tally k).waiters, v.what.isLock = false) :
    exec (.waitPoll i) s = .next
      (((s.dropPoll i).grantLock k (.stream w.die w.n) (s.ctxCpt (dieOf w.die) w.n) us).wakeWaiter w (s.grantStatus k)) := by
  have he : exec (.waitPoll i) s = execWaitPoll i s := rfl
  have hany : ((s.tally k).waiters.any fun v => v.what.isLock) = false := by simpa using hq
  rw [he, execWaitPoll, act_of_live hs]
  simp [hp, hw, hh, hany]

end Operations

/-! ### Locks -/

section Locks

variable {s : State} {d : Die} {n q : Nat} {x : Desc}

/-- LOCK_ACQUIRE of a lock that is free, or its stream's own (R480). -/
theorem exec_lockAcquire_of_free (hx : s.RunningDesc d n q 0x3B x) (ha : x.aux = []) (ht : s.OwnTally d n x 2)
    (hh : (s.tally (State.bodyTally x)).holder = none ∨ (s.tally (State.bodyTally x)).holder = some (.stream (dieCode d) n)) :
    exec (.lockAcquire d n q) s = .next ((s.grantLock (State.bodyTally x) (.stream (dieCode d) n) (s.ctxCpt d n) (x.f 20 0 32)).finish
      d n q (s.grantStatus (State.bodyTally x))) := by
  have he : exec (.lockAcquire d n q) s = execLockAcquire d n q s := rfl
  have hl : s.LiveOn d := hx.1
  have ht' : s.tallyIs d n (State.bodyTally x) 2 = true := ht
  rw [he, execLockAcquire, actD_of_liveOn hl, State.withRunning_of_running hx]
  rcases hh with hh | hh <;> simp [ha, ht', hh]

/-- LOCK_ACQUIRE of a lock that another holds: it queues, or polls where its spine die has no free entry (R470, R480). -/
theorem exec_lockAcquire_of_held {h : Holder} (hx : s.RunningDesc d n q 0x3B x) (ha : x.aux = []) (ht : s.OwnTally d n x 2)
    (hh : (s.tally (State.bodyTally x)).holder = some h) (hne : h ≠ .stream (dieCode d) n) :
    exec (.lockAcquire d n q) s = .next (
      if s.waitEntries (State.bodyTally x) < 4096 then
        (s.updDesc d n q fun y => { y with aux := [1] }).setTally (State.bodyTally x) { s.tally (State.bodyTally x) with
          waiters := (s.tally (State.bodyTally x)).waiters ++ [⟨dieCode d, n, x.seq, .lock (x.f 20 0 32)⟩] }
      else (s.updDesc d n q fun y => { y with aux := [1] }).startPoll (State.bodyTally x) ⟨dieCode d, n, x.seq, .lock (x.f 20 0 32)⟩) := by
  have he : exec (.lockAcquire d n q) s = execLockAcquire d n q s := rfl
  have hl : s.LiveOn d := hx.1
  have ht' : s.tallyIs d n (State.bodyTally x) 2 = true := ht
  rw [he, execLockAcquire, actD_of_liveOn hl, State.withRunning_of_running hx]
  simp [ha, ht', hh, hne]

/-- LOCK_RELEASE by the holding stream, once every earlier descriptor has ended (R476, R480). -/
theorem exec_lockRelease_of_holder (hx : s.RunningDesc d n q 0x3C x) (ht : s.OwnTally d n x 2) (hearlier : s.earlierEnded d n q = true)
    (hh : (s.tally (State.bodyTally x)).holder = some (.stream (dieCode d) n)) :
    exec (.lockRelease d n q) s = .next ((s.freeLock (State.bodyTally x)).finish d n q stOk) := by
  have he : exec (.lockRelease d n q) s = execLockRelease d n q s := rfl
  have hl : s.LiveOn d := hx.1
  have ht' : s.tallyIs d n (State.bodyTally x) 2 = true := ht
  rw [he, execLockRelease, actD_of_liveOn hl, State.withRunning_of_running hx]
  simp [hearlier, ht', hh]

/-- A lease that is over is counted, and its lock abandoned (R482, R486). -/
theorem exec_leaseLapse_of_due {k : Nat} (hs : s.Live) (hh : (s.tally k).holder ≠ none) (hp : (s.tally k).paused = none)
    (hend : (s.tally k).leaseEnd ≤ s.base / 1000 * 1000) :
    exec (.leaseLapse k) s = .next (((s.bump (talPg k) Reg.TAL_LEASE_LAPSES).raise (talPg k) 2).abandonLock k) := by
  have he : exec (.leaseLapse k) s = execLeaseLapse k s := rfl
  rw [he, execLeaseLapse, act_of_live hs]
  simp [Option.isSome_iff_ne_none, hh, hp, hend]

/-- A grant that is not refused is of another tally than one which a third holds, or it is the holder's own. -/
theorem State.grant_keeps_holder {s : State} {k t : Nat} {v me : Holder} (hv : (s.tally k).holder = some v) (hne : v ≠ me)
    (hfree : (s.tally t).holder = none ∨ (s.tally t).holder = some me) (c us : Nat) (d : Die) (n q : Nat) :
    (((s.grantLock t me c us).finish d n q (s.grantStatus t)).tally k).holder = some v := by
  have hkt : k ≠ t := by
    rintro rfl
    rcases hfree with h | h <;> simp_all
  rw [(State.finish_streamsOnly _ (s.grantStatus_ne_uncorr t) d n q _ _).tally, State.grantLock, State.tally_setTally_other _ hkt, hv]

/-- A wait that joins a lock's queue leaves every lock with its holder. -/
theorem State.queue_keeps_holder {s u : State} {k t : Nat} {v : Holder} (hu : u.tallies = s.tallies) (hv : (s.tally k).holder = some v)
    (ws : List Waiter) : ((u.setTally t { s.tally t with waiters := ws }).tally k).holder = some v := by
  by_cases hkt : k = t
  · subst hkt
    simpa using hv
  · rw [State.tally_setTally_other _ hkt, State.tally_of_tallies hu, hv]

/-- A lock that another holds keeps its holder under LOCK_ACQUIRE, whatever the stream's state (R480). -/
theorem exec_lockAcquire_keeps_holder {k : Nat} {v : Holder} (hv : (s.tally k).holder = some v) (hne : v ≠ .stream (dieCode d) n) :
    ∃ t, exec (.lockAcquire d n q) s = .next t ∧ (t.tally k).holder = some v := by
  have he : exec (.lockAcquire d n q) s = execLockAcquire d n q s := rfl
  refine ⟨_, he.trans rfl, ?_⟩
  split
  · exact hv
  dsimp only [State.withRunning]
  split
  case h_2 => exact hv
  next x _ =>
  split
  case isFalse => exact hv
  split
  · exact hv
  split
  · rw [State.tally_of_tallies (State.refuseTally_tallies _ _ _ _ _), hv]
  split
  next h0 => exact State.grant_keeps_holder hv hne (.inl h0) _ _ _ _ _
  next h hh =>
  split
  next hme => exact State.grant_keeps_holder hv hne (.inr (by rw [hh, eq_of_beq hme])) _ _ _ _ _
  split
  · exact State.queue_keeps_holder rfl hv _
  · rw [State.tally_of_tallies (State.startPoll_tallies _ _ _)]
    exact hv

end Locks

/-! ### Windows and debug mode -/

section Windows

variable {s : State} {h k : Nat}

theorem exec_talwAdd_of_counter (hw : s.WindowOpen h k) (hm : (s.tally k).mode = 1) (v : W32) :
    exec (.talwAdd h k v) s = .next ((s.tallyApply ⟨k, false, v.toNat, (0xFF, 0)⟩).answer (.hart h) .done) := by
  have he : exec (.talwAdd h k v) s = execTalwAdd h k v s := rfl
  rw [he, execTalwAdd, act_of_live hw.1, State.withWindow_of_open hw]
  simp [State.windowAdd, hm]

theorem exec_talwSetHi_of_counter (hw : s.WindowOpen h k) (hm : (s.tally k).mode = 1) (v : W32) :
    exec (.talwSetHi h k v) s = .next
      ((s.tallyApply ⟨k, true, (SMap.getD s.talwLo k 0).toNat + v.toNat <<< 32, (0xFF, 0)⟩).answer (.hart h) .done) := by
  have he : exec (.talwSetHi h k v) s = execTalwSetHi h k v s := rfl
  rw [he, execTalwSetHi, act_of_live hw.1, State.withWindow_of_open hw]
  simp [State.windowSet, hm]

theorem exec_talwTry_of_open (hw : s.WindowOpen h k) :
    exec (.talwTry h k) s = .next ((s.lockTry h k).2.answer (.hart h) .done (leBytes (s.lockTry h k).1 4)) := by
  have he : exec (.talwTry h k) s = execTalwTry h k s := rfl
  rw [he, execTalwTry, act_of_live hw.1, State.withWindow_of_open hw]

/-- TALW_TRY of a lock that is free, or the hart's own (R480). -/
theorem State.lockTry_of_free (hm : (s.tally k).mode = 2) (hh : (s.tally k).holder = none ∨ (s.tally k).holder = some (.hart h)) :
    s.lockTry h k = (if (s.tally k).abandoned then 2 else 1,
      s.grantLock k (.hart h) ((s.hartCpt h).getD 0) (s.getF (talPg k) Reg.TAL_CORE_LEASE_US (talSlot k))) := by
  rcases hh with hh | hh <;> simp [State.lockTry, hm, hh]

/-- TALW_TRY of a lock that another holds (R480). -/
theorem State.lockTry_of_held {v : Holder} (hm : (s.tally k).mode = 2) (hv : (s.tally k).holder = some v) (hne : v ≠ .hart h) :
    s.lockTry h k = (0, s) := by
  simp [State.lockTry, hm, hv, hne]

theorem exec_talwRelease_of_holder (hw : s.WindowOpen h k) (hm : (s.tally k).mode = 2) (hh : (s.tally k).holder = some (.hart h)) :
    exec (.talwRelease h k) s = .next ((s.freeLock k).answer (.hart h) .done) := by
  have he : exec (.talwRelease h k) s = execTalwRelease h k s := rfl
  rw [he, execTalwRelease, act_of_live hw.1, State.withWindow_of_open hw]
  simp [State.windowRelease, State.heldBy, hm, hh]

theorem exec_talwClearAbandoned_of_held (hw : s.WindowOpen h k) (hm : (s.tally k).mode = 2) (hh : (s.tally k).holder ≠ none) :
    exec (.talwClearAbandoned h k) s = .next ((s.setTally k { s.tally k with abandoned := false }).answer (.hart h) .done) := by
  have he : exec (.talwClearAbandoned h k) s = execTalwClearAbandoned h k s := rfl
  rw [he, execTalwClearAbandoned, act_of_live hw.1, State.withWindow_of_open hw]
  simp [State.windowClear, hm, Option.isSome_iff_ne_none, hh]

/-- TAL_CFG of a selected tally that is free and of the compartment that the write names (R488, R492). -/
theorem exec_talCfgWrite_of_free {d : Die} {v : W32} (hd : s.LiveOn d) (hh : (s.tally (s.selTally d)).holder = none)
    (hq : (s.tally (s.selTally d)).waiters = []) (ho : s.tallyOwner (s.selTally d) = some (bitsOf v.toNat 2 6)) (hv : v.toNat % 4 ≠ 3) :
    exec (.talCfgWrite d v) s = .next (s.setTally (s.selTally d) { Tally.init with mode := v.toNat % 4 }) := by
  have he : exec (.talCfgWrite d v) s = execTalCfgWrite d v s := rfl
  have hb : bitsOf v.toNat 0 2 = v.toNat % 4 := rfl
  rw [he, execTalCfgWrite, actD_of_liveOn hd, State.tallyConfig]
  simp [hh, hq, ho, hb, hv]

/-- A tally whose lease stops while hart `h`, its holder, is in debug mode (R484). -/
def leasePaused (s : State) (h : Nat) (x : Tally) : Tally :=
  if x.holder == some (.hart h) && x.paused.isNone then { x with paused := some (x.leaseEnd - s.base) } else x

/-- A tally whose lease goes on from its remaining time (R484). -/
def leaseResumed (s : State) (h : Nat) (x : Tally) : Tally :=
  match x.holder == some (.hart h), x.paused with
  | true, some r => { x with paused := none, leaseEnd := s.base + r }
  | _, _ => x

theorem State.tally_map (s : State) (f : Tally → Tally) (hf : f Tally.init = Tally.init) (k : Nat) :
    State.tally { s with tallies := s.tallies.map fun e => (e.1, f e.2) } k = f (s.tally k) := by
  have h := SMap.find_map_value (fun e : Nat × Tally => f e.2) k s.tallies
  simp only [State.tally, SMap.getD, h]
  cases SMap.find s.tallies k <;> simp [hf]

theorem exec_hartDebugEnter_of_running (hs : s.Live) (hh : h < 96) (hd : (s.hart h).debug = false) (hheld : (s.hart h).held = false) :
    exec (.hartDebugEnter h) s = .next (s.notePromise (State.setHart
      { s with tallies := s.tallies.map fun e => (e.1, leasePaused s h e.2) } h { s.hart h with debug := true, resv := none })) := by
  have he : exec (.hartDebugEnter h) s = execHartDebugEnter h s := rfl
  rw [he, execHartDebugEnter, act_of_live hs]
  simp [hh, hd, hheld, leasePaused]

theorem exec_hartDebugExit_of_debug (hs : s.Live) (hd : (s.hart h).debug = true) :
    exec (.hartDebugExit h) s = .next (s.notePromise (State.setHart
      { s with tallies := s.tallies.map fun e => (e.1, leaseResumed s h e.2) } h { s.hart h with debug := false })) := by
  have he : exec (.hartDebugExit h) s = execHartDebugExit h s := rfl
  rw [he, execHartDebugExit, act_of_live hs, if_pos hd]
  rfl

end Windows

end Sys2Proof.Machine

namespace Sys2Proof

open Sys2Proof.Machine

/-- Settles O14: TALW_TRY of another hart answers 0 and takes nothing (`lockTry_of_held`); LOCK_ACQUIRE of another stream ends refused,
grants another lock, or queues, and in none of these does the held lock's holder change. -/
theorem heldLockStaysHeld : Obligations.HeldLockStaysHeld := by
  unfold Obligations.HeldLockStaysHeld
  refine ⟨fun h k v s hw hm hv hne => ?_, fun d n q k v s => exec_lockAcquire_keeps_holder⟩
  refine ⟨_, exec_talwTry_of_open hw, ?_⟩
  rw [State.lockTry_of_held hm hv hne]
  have hzero : leBytes 0 4 = [0, 0, 0, 0] := by decide
  exact ⟨rfl, by rw [hzero]; rfl⟩

/-- Settles O12, by the value that an applied operation leaves (`tallyApply_value`), and the two rules for polls. -/
theorem tallyOperations : Obligations.TallyOperations := by
  unfold Obligations.TallyOperations
  refine ⟨fun i o s hs ho hfirst hr => ?_, fun i k w s hs hp hl => ?_, fun i k us w s hs hp hw hh hq => ?_⟩
  · exact ⟨_, exec_tallyOperation_of_first hs ho hfirst hr, State.tallyApply_tallyOps _ _, State.tallyApply_value _ _⟩
  · have he := exec_waitPoll_of_wait hs hp hl
    refine ⟨fun hmet => ?_, fun hmet hroom => ?_⟩ <;> rw [he]
    · simp [hmet]
    · simp [hmet, hroom]
  · refine ⟨_, exec_waitPoll_of_free_lock hs hp hw hh hq, ?_⟩
    rw [(State.wakeWaiter_streamsOnly _ _ _).tally, State.tally_grantLock]
    exact ⟨rfl, rfl⟩

/-- Settles O13: a grant's end leaves the tallies as the grant made them; a queue of waits for values alone frees an abandoned lock. -/
theorem locksGrantAndFree : Obligations.LocksGrantAndFree := by
  unfold Obligations.LocksGrantAndFree
  refine ⟨fun d n q x s hx ha ht hh => ?_, fun d n q x h s hx ha ht hh hne => ?_, fun d n q x s => exec_lockRelease_of_holder,
    fun k s hs _ hh hp hend => ?_⟩
  · have hst := s.grantStatus_ne_uncorr (State.bodyTally x)
    obtain ⟨-, hd, -⟩ := id hx
    refine ⟨_, exec_lockAcquire_of_free hx ha ht hh, State.finish_ended _ _ hst hd, ?_⟩
    rw [(State.finish_streamsOnly _ hst _ _ _ _ _).tally, State.tally_grantLock]
    exact ⟨rfl, rfl⟩
  · refine ⟨_, exec_lockAcquire_of_held hx ha ht hh hne, ?_⟩
    by_cases hroom : s.waitEntries (State.bodyTally x) < 4096
    · simp [hroom, hh]
    · rw [if_neg hroom, State.tally_of_tallies (State.startPoll_tallies _ _ _)]
      exact ⟨hh, fun h => absurd h hroom⟩
  · have hb : (State.tally ((s.bump (talPg k) Reg.TAL_LEASE_LAPSES).raise (talPg k) 2) k) = s.tally k :=
      State.tally_of_tallies (by simp [State.raise]) k
    refine ⟨_, exec_leaseLapse_of_due hs hh hp hend, ?_, fun hq => ?_⟩
    · rw [State.abandonLock_eq, State.freeLock_abandoned, State.abandonMarked_tally]
    · rw [State.abandonLock_eq, State.freeLock_of_no_queue, State.tally_setTally_same]
      rw [State.abandonMarked_tally, hb]
      exact hq

/-- Settles O15: each access has its rule above; a lease stops and goes on by the map of all tallies, from which the tally is read. -/
theorem tallyWindows : Obligations.TallyWindows := by
  unfold Obligations.TallyWindows
  refine ⟨fun h k v s hw hm => ?_, fun h k v s hw hm => ?_, fun h k s hw hm hh => ?_, fun h k s => exec_talwRelease_of_holder,
    fun h k s hw hm hh => ?_, fun d v s => exec_talCfgWrite_of_free, fun h s hs hh hd hheld => ?_, fun h s hs hd => ?_⟩
  · exact ⟨_, exec_talwAdd_of_counter hw hm v, State.tallyApply_value _ _, by simp [State.answer]⟩
  · refine ⟨_, exec_talwSetHi_of_counter hw hm v, (State.tallyApply_value _ _).trans ?_⟩
    have hlo := (SMap.getD s.talwLo k 0).isLt
    have hhi := v.isLt
    rw [Nat.shiftLeft_eq]
    exact Nat.mod_eq_of_lt (show (SMap.getD s.talwLo k 0).toNat + v.toNat * 2 ^ 32 < 2 ^ 64 by omega)
  · refine ⟨_, exec_talwTry_of_open hw, ?_⟩
    rw [State.lockTry_of_free hm hh, State.tally_of_tallies (State.answer_tallies _ _ _ _), State.tally_grantLock]
    exact ⟨rfl, rfl⟩
  · refine ⟨_, exec_talwClearAbandoned_of_held hw hm hh, ?_⟩
    rw [State.tally_of_tallies (State.answer_tallies _ _ _ _), State.tally_setTally_same]
    exact ⟨rfl, rfl⟩
  · refine ⟨_, exec_hartDebugEnter_of_running hs hh hd hheld, ?_, ?_, fun k hk hp => ?_⟩
    · rw [State.hart_of_harts (State.notePromise_harts _ _), State.hart_setHart_same]
    · rw [State.hart_of_harts (State.notePromise_harts _ _), State.hart_setHart_same]
    · rw [State.tally_of_tallies (State.notePromise_tallies _ _)]
      exact (congrArg Tally.paused (s.tally_map (leasePaused s h) rfl k)).trans (by simp [leasePaused, hk, hp])
  · refine ⟨_, exec_hartDebugExit_of_debug hs hd, ?_, fun k r hk hp => ?_⟩
    · rw [State.hart_of_harts (State.notePromise_harts _ _), State.hart_setHart_same]
    · rw [State.tally_of_tallies (State.notePromise_tallies _ _)]
      have ht := s.tally_map (leaseResumed s h) rfl k
      have hr : leaseResumed s h (s.tally k) = { s.tally k with paused := none, leaseEnd := s.base + r } := by simp [leaseResumed, hk, hp]
      rw [hr] at ht
      exact ⟨congrArg Tally.paused ht, congrArg Tally.leaseEnd ht⟩

end Sys2Proof

/-! PROOFS. The coherence of host caches (R450 to R458) and the MSI router (R459 to R462, R497). -/

namespace Sys2Proof.Machine

namespace State

variable {s : State} {l : Nat} {x y : Cache} {k : Copy} {u : CohTrans}

@[simp] theorem lineAt_setLine_same (s : State) (l : Nat) (v : Line) : (s.setLine l v).lineAt l = v := by
  simp [lineAt, setLine, SMap.getD_putD]

/-! ### Requests (R450, R454) -/

/-- A request of a device for a line without a transaction starts. -/
theorem cohRequest_of_device {r : CohReq} (hr : r.agent = none) (ht : (s.lineAt l).trans = none) (hc : s.cacheable l = true)
    (hrun : s.runs (cohPg (s.homeDie l)) = true) : s.cohRequest l r = s.cohStart l r s.base := by
  simp [cohRequest, hr, ht, hc, hrun]

/-- A request of a cache for a line that has no transaction, no request waiting and no writeback starts. -/
theorem cohRequest_of_cache {r : CohReq} (hb : (s.lineAt l).bufs = []) (ht : (s.lineAt l).trans = none) (hq : (s.lineAt l).queue = [])
    (hc : s.cacheable l = true) (hrun : s.runs (cohPg (s.homeDie l)) = true) : s.cohRequest l r = s.cohStart l r s.base := by
  cases hr : r.agent <;> simp [cohRequest, hr, bufOf, hb, ht, hq, hc, hrun]

/-- A miss on a line that no cache has starts its request. -/
theorem cohMiss_of_init {r : CohReq} (hi : s.lineAt l = Line.init) (hc : s.cacheable l = true)
    (hrun : s.runs (cohPg (s.homeDie l)) = true) : s.cohMiss x l r = s.cohStart l r s.base := by
  have hcopy : copyOf (s.lineAt l) x = none := by rw [hi]; rfl
  rw [cohMiss, hcopy]
  exact cohRequest_of_cache (by rw [hi]; rfl) (by rw [hi]; rfl) (by rw [hi]; rfl) hc hrun

/-! ### Snoops (R452) -/

/-- The copies of a line once a snoop has reached cache `x`, which keeps of its own what `keep` says. -/
theorem snoop_copies {ok : CohReq → Bool} (keep : Copy → Option Copy) (hu : (s.lineAt l).trans = some u) (hp : u.phase = 0)
    (hok : ok u.req = true) (ha : u.req.agent ≠ some x) (hx : x ∉ u.answered) :
    ((s.snoop l x ok keep).lineAt l).copies =
      (s.lineAt l).copies.filterMap fun k => if k.cache == x then keep k else some k := by
  simp [snoop, hu, hp, hok, ha, hx]

/-- A cache whose copy is changed and stays its own has the changed copy. -/
theorem copyOf_filterMap_some {f : Copy → Copy} (hf : ∀ c, (f c).cache = c.cache) {v w : Line} (hk : copyOf v x = some k)
    (hw : w.copies = v.copies.filterMap fun c => if c.cache == x then some (f c) else some c) : copyOf w x = some (f k) := by
  have hm : w.copies = v.copies.map fun c => if c.cache == x then f c else c := by
    rw [hw, ← List.filterMap_eq_map]
    congr 1
    funext c
    simp only [Function.comp_apply]
    split <;> rfl
  have hp : (fun c : Copy => c.cache == x) ∘ (fun c => if c.cache == x then f c else c) = fun c => c.cache == x := by
    funext c
    by_cases hc : c.cache = x <;> simp [hc, hf]
  have hfind : v.copies.find? (fun c => c.cache == x) = some k := hk
  have hkx : k.cache = x := by simpa using List.find?_some hfind
  rw [copyOf, hm, List.find?_map, hp, hfind]
  simp [hkx]

/-- A cache whose copies have gone has none. -/
theorem copyOf_filterMap_none {v w : Line} (hw : w.copies = v.copies.filterMap fun c => if c.cache == x then none else some c) :
    copyOf w x = none := by
  rw [copyOf, hw, List.find?_eq_none]
  intro c hc
  obtain ⟨a, -, ha⟩ := List.mem_filterMap.1 hc
  split at ha
  · cases ha
  · next hne =>
    cases ha
    simpa using hne

theorem copyOf_filter_ne (v : Line) (bufs : List WbBuf) :
    copyOf { v with copies := v.copies.filter (·.cache != x), bufs := bufs } x = none := by
  simp [copyOf]

end State

section Coherence

variable {s : State} {l : Nat} {x : Cache} {u : CohTrans}

theorem exec_upgrade_of_shared {k : Copy} (hs : s.Live) (hk : State.copyOf (s.lineAt l) x = some k) (hst : k.st = 0)
    (hb : (s.lineAt l).bufs = []) (ht : (s.lineAt l).trans = none) (hq : (s.lineAt l).queue = []) (hc : s.cacheable l = true)
    (hrun : s.runs (cohPg (s.homeDie l)) = true) : exec (.upgrade x l) s = .next (s.cohStart l (.upgrade x) s.base) := by
  have he : exec (.upgrade x l) s = execUpgrade x l s := rfl
  rw [he, execUpgrade, act_of_live hs]
  simp [hk, hst, State.cohRequest_of_cache hb ht hq hc hrun]

theorem exec_snpShared_of_live (hs : s.Live) : exec (.snpShared x l) s =
    .next (s.snoop l x (fun r => match r with | .rdShared _ => true | _ => false) fun k => some { k with st := 0 }) :=
  (show exec (.snpShared x l) s = execSnpShared x l s from rfl).trans (act_of_live hs _)

theorem exec_snpInv_of_live (hs : s.Live) : exec (.snpInv x l) s =
    .next (s.snoop l x (fun r => match r with | .rdShared _ | .rdOnce => false | _ => true) fun _ => none) :=
  (show exec (.snpInv x l) s = execSnpInv x l s from rfl).trans (act_of_live hs _)

theorem exec_snpOnce_of_live (hs : s.Live) : exec (.snpOnce x l) s =
    .next (s.snoop l x (fun r => match r with | .rdOnce => true | _ => false) some) :=
  (show exec (.snpOnce x l) s = execSnpOnce x l s from rfl).trans (act_of_live hs _)

/-- The second ring's answer, once every holder of the ring has answered, lets the home act (R452). -/
theorem exec_snpResp_of_second {d : Die} {g : Nat} (hs : s.Live) (hu : (s.lineAt l).trans = some u) (hd : isHost d = true)
    (hp : u.phase = 0) (hr : u.rings = [g]) (hg : g ≠ dieCode d) (ha : ∀ x ∈ State.ringHolders (s.lineAt l) u d, x ∈ u.answered)
    (hm : s.movingIn (64 * l) 64 = false) :
    exec (.snpResp d l) s = .next (s.cohAction l { u with rings := [dieCode d, g] }) := by
  have he : exec (.snpResp d l) s = execSnpResp d l s := rfl
  have hall : (State.ringHolders (s.lineAt l) u d).all u.answered.contains = true := by simpa using ha
  rw [he, execSnpResp, act_of_live hs]
  simp [hu, hd, hp, hr, hg.symm, hall, hm]

/-- The copy that a cache gets from DATA, and the line it is in (R452). -/
def State.dataTaken (s : State) (l : Nat) (u : CohTrans) (c : Cache) (st : Nat) : State :=
  s.setLine l { s.lineAt l with
    copies := (s.lineAt l).copies.filter (·.cache != c) ++ [⟨c, st, u.taken.getD (s.rdBytes (64 * l) 64)⟩], trans := some { u with phase := 2 } }

theorem exec_data_of_rdShared (hs : s.Live) (hu : (s.lineAt l).trans = some u) (hp : u.phase = 1) (hr : u.req = .rdShared x) :
    exec (.data l) s = .next (s.dataTaken l u x (if u.found then 0 else 1)) := by
  have he : exec (.data l) s = execData l s := rfl
  rw [he, execData, act_of_live hs]
  simp [hu, hp, hr, State.dataTaken]

theorem exec_data_of_rdUnique (hs : s.Live) (hu : (s.lineAt l).trans = some u) (hp : u.phase = 1) (hr : u.req = .rdUnique x) :
    exec (.data l) s = .next (s.dataTaken l u x 2) := by
  have he : exec (.data l) s = execData l s := rfl
  rw [he, execData, act_of_live hs]
  simp [hu, hp, hr, State.dataTaken]

theorem State.mem_dataTaken (s : State) (l : Nat) (u : CohTrans) (c : Cache) (st : Nat) :
    ⟨c, st, u.taken.getD (s.rdBytes (64 * l) 64)⟩ ∈ ((s.dataTaken l u c st).lineAt l).copies := by
  simp [State.dataTaken]

theorem exec_comp_of_wrLine {b : Bytes} (hs : s.Live) (hu : (s.lineAt l).trans = some u) (hp : u.phase = 1) (hr : u.req = .wrLine b) :
    exec (.comp l) s = .next ((s.bump (cohPg (s.homeDie l)) Reg.COH_DEV_WR).cohEnd l) := by
  have he : exec (.comp l) s = execComp l s := rfl
  rw [he, execComp, act_of_live hs]
  simp [hu, hp, hr]

theorem exec_compAck_of_data (hs : s.Live) (hu : (s.lineAt l).trans = some u) (hp : u.phase = 2) :
    exec (.compAck l) s = .next (s.cohEnd l) := by
  have he : exec (.compAck l) s = execCompAck l s := rfl
  rw [he, execCompAck, act_of_live hs]
  simp [hu, hp]

/-- A dirty line without a transaction is written at its home, and leaves its cache (R457). -/
theorem exec_wbDirty_of_idle {k : Copy} (hs : s.Live) (hk : State.copyOf (s.lineAt l) x = some k) (hst : k.st = 2)
    (ht : (s.lineAt l).trans = none) (hm : s.movingIn (64 * l) 64 = false) :
    exec (.wbDirty x l) s = .next ((s.setLine l { s.lineAt l with
      copies := (s.lineAt l).copies.filter (·.cache != x), bufs := (s.lineAt l).bufs ++ [⟨x, k.data, 2⟩] }).wrBytes (64 * l) k.data) := by
  have he : exec (.wbDirty x l) s = execWbDirty x l s := rfl
  rw [he, execWbDirty, act_of_live hs]
  simp [hk, hst, ht, hm]

/-- An MSI is routed by its cached entry (R461, R462). -/
theorem exec_msiDelivery_of_cached {i src e : Nat} (hs : s.Live) (hi : s.msiq[i]? = some src)
    (hen : s.getF (cohPg .H0) Reg.COH_MSI_CFG_EN = 1) (he : SMap.find s.routes src = some e) :
    exec (.msiDelivery i true) s = .next (State.msiRoute { s with msiq := s.msiq.eraseIdx i } src e) := by
  have hx : exec (.msiDelivery i true) s = execMsiDelivery i true s := rfl
  have hen' : State.getF { s with msiq := s.msiq.eraseIdx i } (cohPg .H0) Reg.COH_MSI_CFG_EN = 1 := hen
  rw [hx, execMsiDelivery, act_of_live hs]
  simp [hi, hen', he]

/-- An MSI for a hart of another compartment is dropped (R497). -/
theorem State.msiRoute_of_foreign {src e : Nat} (hok : State.routeOk e = true) (hh : e.testBit 1 = false)
    (hf : s.hartCpt (bitsOf e 2 7) ≠ some (s.msiCpt src)) : s.msiRoute src e = s.msiDrop src := by
  simp [State.msiRoute, hok, hh, hf]

end Coherence

end Sys2Proof.Machine

namespace Sys2Proof

open Sys2Proof.Machine

/-- Settles O37: requests by `cohRequest_of_device` and `cohRequest_of_cache`; a snoop by what it makes of the line's copies
(`snoop_copies`); a write of memory leaves the lines as they are. -/
theorem cachesStayCoherent : Obligations.CachesStayCoherent := by
  unfold Obligations.CachesStayCoherent
  refine ⟨fun p hp x l s hs hi hc hr => ?_, fun x l k s => exec_upgrade_of_shared, fun l off b s hs ht hc hr => ?_,
    fun x y l k u s hs hu hp hxy hx hk => ⟨fun hy => ?_, fun hy => ?_, fun hy => ?_⟩, fun d l g u s => exec_snpResp_of_second,
    fun l x u s hs hu hp => ⟨fun hr => ?_, fun hr => ?_⟩, fun l b u s => exec_comp_of_wrLine, fun l u s => exec_compAck_of_data,
    fun x l k s hs hk hst ht hm => ?_, fun x l s hs => ?_, fun i src e s hs hi hen he => ?_, fun s hs => ?_⟩
  · simp only [List.mem_cons, List.not_mem_nil, or_false] at hp
    rcases hp with rfl | rfl
    · have he : exec (.rdShared x l) s = execRdShared x l s := rfl
      rw [he, execRdShared, act_of_live hs, State.cohMiss_of_init hi hc hr]
    · have he : exec (.rdUnique x l) s = execRdUnique x l s := rfl
      rw [he, execRdUnique, act_of_live hs, State.cohMiss_of_init hi hc hr]
  · refine ⟨?_, fun hb => ?_, fun hb => ?_⟩
    · have he : exec (.rdOnce l) s = execRdOnce l s := rfl
      rw [he, execRdOnce, act_of_live hs, State.cohRequest_of_device rfl ht hc hr]
    · have he : exec (.wrLine l b) s = execWrLine l b s := rfl
      rw [he, execWrLine, act_of_live hs, if_pos (by simpa using hb), State.cohRequest_of_device rfl ht hc hr]
    · have he : exec (.wrPart l off b) s = execWrPart l off b s := rfl
      rw [he, execWrPart, act_of_live hs, if_pos hb, State.cohRequest_of_device rfl ht hc hr]
  · have ha : u.req.agent ≠ some x := by simp [hy, CohReq.agent, hxy.symm]
    exact ⟨_, { k with st := 0 }, exec_snpShared_of_live hs,
      State.copyOf_filterMap_some (f := fun c => { c with st := 0 }) (fun _ => rfl) hk (State.snoop_copies _ hu hp (by simp [hy]) ha hx), rfl, rfl⟩
  · have ha : u.req.agent ≠ some x := by simp [hy, CohReq.agent, hxy.symm]
    exact ⟨_, exec_snpInv_of_live hs, State.copyOf_filterMap_none (State.snoop_copies _ hu hp (by simp [hy]) ha hx)⟩
  · have ha : u.req.agent ≠ some x := by simp [hy, CohReq.agent]
    refine ⟨_, exec_snpOnce_of_live hs, (State.snoop_copies _ hu hp (by simp [hy]) ha hx).trans ?_⟩
    simp
  · exact ⟨_, _, exec_data_of_rdShared hs hu hp hr, s.mem_dataTaken l u x _, rfl, rfl, rfl⟩
  · exact ⟨_, _, exec_data_of_rdUnique hs hu hp hr, s.mem_dataTaken l u x _, rfl, rfl, rfl⟩
  · refine ⟨_, exec_wbDirty_of_idle hs hk hst ht hm, ?_, ?_⟩
    · have hl : ∀ (t : State) (b : Bytes), (t.wrBytes (64 * l) b).lineAt l = t.lineAt l := fun t b => by
        simp [State.lineAt]
      rw [hl, State.lineAt_setLine_same]
      exact State.copyOf_filter_ne _ _
    · rw [State.wrBytes_mem, State.wrBytes_mem]
      rfl
  · have he : exec (.wbAck x l) s = execWbAck x l s := rfl
    rw [he, execWbAck, act_of_live hs]
  · have hx := exec_msiDelivery_of_cached hs hi hen he
    exact ⟨hx, fun hok hh hf => hx.trans (congrArg _ (State.msiRoute_of_foreign hok hh hf))⟩
  · have he : exec .cohMsiFlush s = execCohMsiFlush s := rfl
    rw [he, execCohMsiFlush, act_of_live hs]

end Sys2Proof

/-! PROOFS. Fields of registers after the shared updates: another key, another field of the word, the field itself. -/

namespace Sys2Proof.Machine

/-- Words at different offsets have different keys. -/
theorem regKey_ne_of_word {p q : Page} {o o' b b' : Nat} (hp : p.inst < 256) (hq : q.inst < 256) (ho : o < 4096) (ho' : o' < 4096)
    (hb : b < 2 ^ 24) (hb' : b' < 2 ^ 24) (h : o / 4 ≠ o' / 4) : regKey p o b ≠ regKey q o' b' := fun he =>
  h (regKey_inj _ _ _ _ _ _ hp hq ho ho' hb hb' he).2.1

/-- Words of different pages have different keys. -/
theorem regKey_ne_of_page {p q : Page} {o o' b b' : Nat} (hp : p.inst < 256) (hq : q.inst < 256) (ho : o < 4096) (ho' : o' < 4096)
    (hb : b < 2 ^ 24) (hb' : b' < 2 ^ 24) (h : p ≠ q) : regKey p o b ≠ regKey q o' b' := fun he =>
  h (regKey_inj _ _ _ _ _ _ hp hq ho ho' hb hb' he).1

namespace State

section Fields

variable (s : State) (pg pg' : Page) (f g : Fld) (n b b' : Nat)

/-- A counter reads as it has been raised, up to its largest value. -/
theorem getF_bump_same (hf : f.lo + f.w ≤ 32) : (s.bump pg f n b).getF pg f b = min (s.getF pg f b + n) (2 ^ f.w - 1) := by
  have hpos : 0 < 2 ^ f.w := Nat.two_pow_pos _
  rw [bump, getF_setF_same _ _ _ _ _ hf, Nat.mod_eq_of_lt (by omega)]

theorem getF_bump_other (h : regKey pg' g.off b' ≠ regKey pg f.off b) : (s.bump pg f n b).getF pg' g b' = s.getF pg' g b' :=
  getF_setF_other _ _ _ _ _ _ _ _ h

theorem getF_bump_beside (ho : g.off = f.off) (hg : g.lo + g.w ≤ 32) (h : g.lo + g.w ≤ f.lo ∨ f.lo + f.w ≤ g.lo) :
    (s.bump pg f n b).getF pg g b = s.getF pg g b := getF_setF_beside _ _ _ _ _ _ ho hg h

theorem word_setF_other (off v : Nat) (h : regKey pg' off b' ≠ regKey pg f.off b) :
    (s.setF pg f v b).word pg' off b' = s.word pg' off b' := word_setWord_other _ _ _ _ _ _ _ _ h

/-- A status bit raised changes PAGE_IRQ_STAT of its page alone (R533). -/
theorem word_raise_other (off : Nat) (h : regKey pg' off b' ≠ regKey pg 0x20 0) : (s.raise pg n).word pg' off b' = s.word pg' off b' := by
  unfold raise raiseMask
  dsimp only
  split <;> exact word_setWord_other _ _ _ _ _ _ _ _ h

theorem getF_raise_other (h : regKey pg' g.off b' ≠ regKey pg 0x20 0) : (s.raise pg n).getF pg' g b' = s.getF pg' g b' := by
  unfold getF
  rw [word_raise_other _ _ _ _ _ _ h]

/-- The status bit that is raised reads 1 (R533). -/
theorem testBit_raise (hn : n < 32) : ((s.raise pg n).word pg 0x20).testBit n = true := by
  have hw : (s.raise pg n).word pg 0x20 = (s.word pg 0x20 ||| 1 <<< n) % 2 ^ 32 := by
    unfold raise raiseMask
    dsimp only
    split <;> exact word_setWord_same _ _ _ _ _
  rw [hw, Nat.testBit_mod_two_pow]
  simp [hn, Nat.testBit_shiftLeft]

/-- An error record changes LEDG_LOG_LOST and PAGE_IRQ_STAT of the ledger's page alone (R622, R665). -/
theorem getF_logRec_other (r : ErrRec) (h1 : regKey pg' g.off b' ≠ regKey ledgPg Reg.LEDG_LOG_LOST.off 0)
    (h2 : regKey pg' g.off b' ≠ regKey ledgPg 0x20 0) : (s.logRec r).getF pg' g b' = s.getF pg' g b' := by
  unfold logRec
  dsimp only
  split
  · rfl
  · rw [getF_raise_other _ _ _ _ _ _ h2, getF_bump_other _ _ _ _ _ _ _ _ h1]
    rfl

/-- A ledger record changes LEDG_FREE_PAGES alone (R657). -/
theorem getF_ledg_other (k : LedgKind) (la : List Nat) (e : Option ErrRec)
    (h : regKey pg' g.off b' ≠ regKey ledgPg Reg.LEDG_FREE_PAGES.off 0) : (s.ledg k la e).getF pg' g b' = s.getF pg' g b' := by
  unfold ledg
  dsimp only
  split
  · rw [getF_setF_other _ _ _ _ _ _ _ _ h]
    rfl
  · rfl

/-- What `notePromise` adds is a status bit of the administration page (R516). -/
theorem getF_notePromise_other (u : State) (h : regKey pg' g.off b' ≠ regKey cptPg 0x20 0) :
    (s.notePromise u).getF pg' g b' = u.getF pg' g b' := by
  unfold notePromise
  split
  · rfl
  · exact getF_raise_other _ _ _ _ _ _ h

end Fields

/-! ### Memory under the shared updates -/

theorem SameMemory.refl (s : State) : SameMemory s s := ⟨rfl, rfl, rfl⟩

theorem raise_sameMemory (s : State) (pg : Page) (n : Nat) : SameMemory s (s.raise pg n) := by
  unfold raise raiseMask
  dsimp only
  split <;> exact ⟨rfl, rfl, rfl⟩

theorem notePromise_sameMemory (s u : State) : SameMemory u (s.notePromise u) := by
  unfold notePromise
  split
  · exact ⟨rfl, rfl, rfl⟩
  · exact raise_sameMemory _ _ _

theorem ledg_sameMemory (s : State) (k : LedgKind) (la : List Nat) (e : Option ErrRec) : SameMemory s (s.ledg k la e) := by
  unfold ledg
  dsimp only
  split <;> exact ⟨rfl, rfl, rfl⟩

theorem logRec_sameMemory (s : State) (r : ErrRec) : SameMemory s (s.logRec r) := by
  unfold logRec
  dsimp only
  split
  · exact ⟨rfl, rfl, rfl⟩
  · exact SameMemory.trans ⟨rfl, rfl, rfl⟩ (raise_sameMemory _ _ _)

end State

/-! ### Commands of the always-on island -/

/-- A command of the always-on island, which has power, comes about (R582, R640). -/
theorem auxAct_of_auxOn {s : State} (h : s.AuxOn) (f : State → State) : auxAct s f = .next (f s) := by
  have h' : s.getF pciePg Reg.PCIE_HSW_AUX_ON = 1 := h
  simp [auxAct, h']

/-- A command of the management controller, which answers, comes about (R584, R602). -/
theorem mcAct_of_busesOn {s : State} (h : s.BusesOn) (f : State → State) : mcAct s f = .next (f s) := by
  have h' : s.getF pciePg Reg.PCIE_HSW_AUX_ON = 1 := h.1
  simp [mcAct, h', h.2]

end Sys2Proof.Machine

/-! PROOFS. The compartment table (R492 to R505, R514). -/

namespace Sys2Proof.Machine

namespace State

/-! ### What waits at the table and for lots, under the end of a release -/

/-- The commands that wait at the table, and the accesses that wait for lots. -/
def waitBook (s : State) : List CptReq × List Stalled := (s.cptQueue, s.place.stalls)

section WaitBook

variable (s : State)

theorem setEntry_waitBook (l v : Nat) : (s.setEntry l v).waitBook = s.waitBook := rfl

theorem zeroBytes_waitBook (a n : Nat) : (s.zeroBytes a n).waitBook = s.waitBook := rfl

theorem setOwner_waitBook (k i c : Nat) : (s.setOwner k i c).waitBook = s.waitBook := rfl

theorem setF_waitBook (pg : Page) (f : Fld) (v b : Nat) : (s.setF pg f v b).waitBook = s.waitBook := rfl

theorem raise_waitBook (pg : Page) (n : Nat) : (s.raise pg n).waitBook = s.waitBook := by
  unfold raise raiseMask
  dsimp only
  split <;> rfl

theorem touchLot_waitBook (l : Nat) (wr : Bool) : (s.touchLot l wr).waitBook = s.waitBook := by
  cases wr with
  | false => rfl
  | true =>
    simp only [touchLot, if_true]
    split <;> rfl

theorem ChanOnly.waitBook {s t : State} (h : ChanOnly s t) : t.waitBook = s.waitBook := by
  obtain ⟨⟨c, r, rfl⟩, -⟩ := h
  rfl

theorem wrBytes_waitBook (a : Nat) (bs : Bytes) : (s.wrBytes a bs).waitBook = s.waitBook :=
  List.foldlRecOn (motive := fun t : State => t.waitBook = s.waitBook) _ _ (noteWrites_chanOnly s a bs.length).waitBook
    fun _ ht _ _ => (touchLot_waitBook _ _ _).trans ht

theorem watermark_waitBook (pg : Page) (off : Nat) (above : Bool) : (s.watermark pg off above).waitBook = s.waitBook := by
  unfold watermark
  dsimp only
  split
  · rfl
  · split
    · rfl
    · exact raise_waitBook _ _ _

theorem plcMarks_waitBook (k : Nat) : (s.plcMarks k).waitBook = s.waitBook := by
  simp only [plcMarks, watermark_waitBook]

theorem freeLot_waitBook (l : Nat) : (s.freeLot l).waitBook = s.waitBook := by
  unfold freeLot
  rw [plcMarks_waitBook, zeroBytes_waitBook, setEntry_waitBook]
  rfl

theorem freeBuffer_waitBook (c i : Nat) (b : Buf) : (s.freeBuffer c i b).waitBook = s.waitBook := by
  unfold freeBuffer
  dsimp only
  split
  · exact foldl_frame (π := waitBook) (fun t l => freeLot_waitBook t l) _ _
  · rfl

theorem flushCore_waitBook (h : Nat) : (s.flushCore h).waitBook = s.waitBook := by
  refine foldl_frame (π := waitBook) (fun t e => ?_) s _
  dsimp only
  split
  · exact wrBytes_waitBook _ _ _
  · split
    · exact wrBytes_waitBook _ _ _
    · rfl

/-- A scrub of a unit leaves what waits (R492). -/
theorem scrub_waitBook (kind i : Nat) : (s.scrub kind i).waitBook = s.waitBook := by
  have hunits (t : State) : ((s.unitSet kind i).foldl (fun u g => u.setOwner kind g 0x7F) t).waitBook = t.waitBook :=
    foldl_frame (π := waitBook) (fun u g => setOwner_waitBook u kind g 0x7F) _ _
  unfold scrub
  refine (hunits _).trans ?_
  split
  case h_2 => exact foldl_frame (π := waitBook) (g := fun t k => t.zeroContext (dieOf (i / 256)) (i % 256 * 64 + k)) (fun _ _ => rfl) _ _
  case h_4 => exact flushCore_waitBook s i
  case h_5 => exact foldl_frame (π := waitBook) (fun t g => zeroBytes_waitBook t (nearBase + g * 0x200000) 0x200000) _ _
  all_goals rfl

end WaitBook

/-! ### The commands' passage through the table (R498) -/

/-- A command, with what the registers name for it. -/
def cptReq (s : State) (cmd : Nat) : CptReq := ⟨cmd, s.cptSel, s.getF cptPg Reg.CPT_UNIT_KIND, s.getF cptPg Reg.CPT_UNIT_INDEX⟩

/-- With no command under way or waiting, a command is applied at once. -/
theorem cptCommand_of_free {s : State} (h : s.TableFree) (cmd : Nat) : s.cptCommand cmd = s.cptApply (s.cptReq cmd) := by
  obtain ⟨-, hop, hq⟩ := h
  have hs : ({ s with cptQueue := [] } : State) = s := by rw [← hq]
  unfold cptCommand
  simp only [hq, List.nil_append]
  unfold cptPump
  simp only [hop]
  refine (congrArg (fun t : State => cptPump 0 (t.cptApply (s.cptReq cmd))) (?_ : _ = s)).trans rfl
  rw [← hop, ← hq]

theorem cptState_withOp (s : State) (o : Option (CptReq × Nat)) (c : Nat) : State.cptState { s with cptOp := o } c = s.cptState c := rfl

theorem cptSel_lt (s : State) : s.cptSel < 64 := bitsOf_lt _ _ _

/-- The state of a compartment, once it has been set. -/
theorem cptState_setF (s : State) (v c : Nat) (hv : v < 4) : (s.setF cptPg Reg.CPT_ENT_STAT_STATE v c).cptState c = v :=
  (getF_setF_same _ _ _ _ _ (by decide)).trans (Nat.mod_eq_of_lt hv)

/-- A compartment's entry and any word at another offset have different keys. -/
theorem regKey_entry_ne {pg : Page} {o c : Nat} (hi : pg.inst < 256) (ho : o < 4096) (hc : c < 64) (h : o / 4 ≠ 0x13) :
    regKey cptPg Reg.CPT_ENT_STAT_STATE.off c ≠ regKey pg o 0 :=
  regKey_ne_of_word (by decide) hi (by decide) ho (by omega) (by decide) fun he => h (he.symm.trans rfl)

/-- The end of a command with none behind it. -/
theorem cptEnd_of_no_queue {s : State} (hq : s.cptQueue = []) (b : Nat) : s.cptEnd true b =
    ((State.setF { s with cptOp := none } cptPg Reg.CPT_LAST_SCRUB_US (min ((s.base - b) / 1000) (2 ^ 32 - 1))).raise cptPg 0) := by
  have h : ((State.setF { s with cptOp := none } cptPg Reg.CPT_LAST_SCRUB_US (min ((s.base - b) / 1000) (2 ^ 32 - 1))).raise
      cptPg 0).cptQueue = [] := (congrArg Prod.fst (raise_waitBook _ _ _)).trans hq
  unfold cptEnd
  dsimp only
  rw [if_pos rfl, h]
  rfl

theorem serveStalls_of_none {s : State} (h : s.place.stalls = []) : s.serveStalls = s := by
  have hs : ({ s with place := { s.place with stalls := [] } } : State) = s := by rw [← h]
  simp [serveStalls, h, hs]

theorem waitBook_eq_none {s : State} : s.waitBook = ([], []) ↔ s.cptQueue = [] ∧ s.place.stalls = [] := by simp [waitBook]

/-- The end of a command with none behind it leaves that no access waits for a lot. -/
theorem cptEnd_stalls {s : State} (hq : s.cptQueue = []) (h : s.place.stalls = []) (b : Nat) : (s.cptEnd true b).place.stalls = [] := by
  rw [cptEnd_of_no_queue hq]
  exact (congrArg Prod.snd (raise_waitBook _ _ _)).trans h

/-- The buffers of a compartment freed (R240, R500). -/
def freeBuffers (s : State) (c : Nat) : State := (s.liveBufs c).foldl (fun t e => t.freeBuffer c e.1 e.2) s

/-- The memory regions of a compartment gone (R500). -/
def dropRegions (s : State) (c : Nat) : State :=
  { s with mrs := s.mrs.filter fun e => s.mrF (e.1 >>> 16) (e.1 % 2 ^ 16) 24 0 6 != c }

/-- The units of a compartment scrubbed and returned (R492). -/
def returnUnits (s : State) (c : Nat) : State := (s.unitsOf c).foldl (fun t u => t.scrub u.1 u.2) s

/-- The positions of the schedule that a sealed compartment had given back (R505). -/
def dropPositions (s : State) (c : Nat) : State := { s with sealPos := s.sealPos.filter fun e => e.2 != c }

/-- The entry of a compartment made FREE, with the next generation of its key, which is destroyed (R500, R502). -/
def freeEntry (s : State) (c : Nat) : State :=
  ((s.setF cptPg Reg.CPT_ENT_STAT_KEY_GEN (s.getF cptPg Reg.CPT_ENT_STAT_KEY_GEN c + 1) c).setF cptPg Reg.CPT_ENT_STAT_STATE 0 c).dropKeys c

/-- A compartment released: what is done at the end of its release, before the table goes on (R500, R505). -/
def released (s : State) (c : Nat) : State :=
  (((((s.freeBuffers c).dropRegions c).setF (poolPg c) Reg.POOL_Q_CFG_ENABLE 0).returnUnits c).dropPositions c).freeEntry c

theorem freeBuffers_waitBook (s : State) (c : Nat) : (s.freeBuffers c).waitBook = s.waitBook :=
  foldl_frame (π := waitBook) (g := fun t (e : Nat × Buf) => t.freeBuffer c e.1 e.2) (fun t e => freeBuffer_waitBook t c e.1 e.2) s _

theorem returnUnits_waitBook (s : State) (c : Nat) : (s.returnUnits c).waitBook = s.waitBook :=
  foldl_frame (π := waitBook) (g := fun t (u : Nat × Nat) => t.scrub u.1 u.2) (fun t u => scrub_waitBook t u.1 u.2) s _

theorem dropRegions_waitBook (s : State) (c : Nat) : (s.dropRegions c).waitBook = s.waitBook := rfl

theorem dropPositions_waitBook (s : State) (c : Nat) : (s.dropPositions c).waitBook = s.waitBook := rfl

theorem freeEntry_waitBook (s : State) (c : Nat) : (s.freeEntry c).waitBook = s.waitBook := rfl

theorem released_waitBook (s : State) (c : Nat) : (s.released c).waitBook = s.waitBook := by
  rw [released, freeEntry_waitBook, dropPositions_waitBook, returnUnits_waitBook, setF_waitBook, dropRegions_waitBook, freeBuffers_waitBook]

theorem released_none {s : State} (hq : s.cptQueue = []) (h : s.place.stalls = []) (c : Nat) :
    (s.released c).cptQueue = [] ∧ (s.released c).place.stalls = [] :=
  waitBook_eq_none.1 ((s.released_waitBook c).trans (waitBook_eq_none.2 ⟨hq, h⟩))

theorem cptState_released (s : State) (c : Nat) : (s.released c).cptState c = 0 := by
  unfold released
  exact cptState_setF _ 0 c (by decide)

end State

section Table

variable {s : State}

/-- CREATE (R498, R499). -/
theorem exec_create_of_free (h : s.TableFree) (hst : s.cptState s.cptSel = 0) (hok : s.createOk s.cptSel = true) :
    exec .create s = .next (((s.takeSlots s.cptSel).drawKeys s.cptSel).setF cptPg Reg.CPT_ENT_STAT_STATE 1 s.cptSel) := by
  have he : exec .create s = execCreate s := rfl
  rw [he, execCreate, auxAct_of_auxOn h.1, State.cptCommand_of_free h]
  simp [State.cptApply, State.cptReq, hst, hok]

theorem State.takeSlots_sameMemory (s : State) (c : Nat) : State.SameMemory s (s.takeSlots c) := by
  unfold State.takeSlots
  split <;> exact ⟨rfl, rfl, rfl⟩

/-- The compartment reset and shut, in RELEASING (R500). -/
def State.releasing (s : State) (c : Nat) : State :=
  (((s.cptReset c).closeOpenings c).setF cptPg Reg.CPT_ENT_STAT_STATE 2 c).noteReset 3 6 c

theorem State.cptState_releasing {c : Nat} (s : State) (hc : c < 64) : (s.releasing c).cptState c = 2 := by
  have hk {f : Fld} (hf : f.off < 4096) (h : f.off / 4 ≠ 0x13) :
      regKey cptPg Reg.CPT_ENT_STAT_STATE.off c ≠ regKey mgmtPg f.off 0 := State.regKey_entry_ne (by decide) hf hc h
  unfold State.releasing State.noteReset State.cptState
  rw [State.getF_setF_other _ _ _ _ _ _ _ _ (hk (by decide) (by decide)), State.getF_setF_other _ _ _ _ _ _ _ _ (hk (by decide) (by decide)),
    State.getF_setF_other _ _ _ _ _ _ _ _ (hk (by decide) (by decide))]
  exact State.cptState_setF _ 2 c (by decide)

theorem exec_compartmentRelease_of_active (h : s.TableFree) (hst : s.cptState s.cptSel = 1) :
    exec .compartmentRelease s = .next { s.releasing s.cptSel with cptOp := some (s.cptReq 2, s.base) } := by
  have he : exec .compartmentRelease s = execCompartmentRelease s := rfl
  rw [he, execCompartmentRelease, auxAct_of_auxOn h.1, State.cptCommand_of_free h]
  simp [State.cptApply, State.cptReq, hst, State.releasing]

/-- A release that nothing holds up, with no command behind it and no access waiting for a lot, ends (R498, R500). -/
theorem exec_releaseComplete_of_quiet {c b : Nat} {r : CptReq} (hs : s.Live) (hop : s.cptOp = some (r, b)) (hq : s.cptQueue = [])
    (hcmd : r.cmd = 2) (hc : r.cpt = c) (hquiet : s.releaseQuiet c = true) (hstalls : s.place.stalls = []) :
    exec (.releaseComplete c) s = .next ((s.released c).cptEnd true b) := by
  have he : exec (.releaseComplete c) s = execReleaseComplete c s := rfl
  obtain ⟨hq', hstalls'⟩ := State.released_none hq hstalls c
  have hend := State.cptEnd_stalls hq' hstalls' b
  have hcond : (r.cmd == 2 && r.cpt == c && s.releaseQuiet c) = true := by simp [hcmd, hc, hquiet]
  rw [he, execReleaseComplete, act_of_live hs, hop]
  dsimp only
  rw [if_pos hcond, ← State.serveStalls_of_none hend]
  simp only [State.released, State.freeBuffers, State.dropRegions, State.returnUnits, State.dropPositions, State.freeEntry]

/-- GRANT of a unit other than a granule that is unassigned (R493, R498). -/
theorem exec_grant_of_unassigned (h : s.TableFree) (hst : s.cptState s.cptSel = 1) (h4 : s.getF cptPg Reg.CPT_UNIT_KIND ≠ 4)
    (h5 : s.getF cptPg Reg.CPT_UNIT_KIND ≠ 5) (hi : s.getF cptPg Reg.CPT_UNIT_INDEX < unitCount (s.getF cptPg Reg.CPT_UNIT_KIND))
    (ho : s.owner (s.getF cptPg Reg.CPT_UNIT_KIND) (s.getF cptPg Reg.CPT_UNIT_INDEX) = 0x7F) :
    exec .grant s = .next (s.setOwner (s.getF cptPg Reg.CPT_UNIT_KIND) (s.getF cptPg Reg.CPT_UNIT_INDEX) s.cptSel) := by
  have he : exec .grant s = execGrant s := rfl
  rw [he, execGrant, auxAct_of_auxOn h.1, State.cptCommand_of_free h]
  simp [State.cptApply, State.cptReq, hst, State.granuleLocal, h4, h5, hi, ho, State.grantBreaks, State.grantNow, State.unitSet]

/-- The owner record of a unit that can be granted, once it has been set (R492). -/
theorem State.owner_setOwner_same {k i : Nat} (h : s.owner k i = 0x7F) (c : Nat) : (s.setOwner k i c).owner k i = c := by
  have hl (d : Die) (e : Nat) : (s.setOwner k i c).engineLive d e = s.engineLive d e := rfl
  have hd : (s.setOwner k i c).depotEnd = s.depotEnd := rfl
  have hget : SMap.getD (s.setOwner k i c).owners (k * 2 ^ 21 + i) 0x7F = c := by
    simp [State.setOwner, SMap.getD_putD]
  unfold State.owner at h ⊢
  rw [hl, hd, hget]
  split
  · next hk => rw [if_pos hk] at h; cases h
  · next hk =>
    rw [if_neg hk] at h
    split
    · next hk5 => rw [if_pos hk5] at h; cases h
    · rfl

/-- GRANT, before LOCK, of a unit that another compartment owns (R498, R501). -/
theorem exec_grant_of_owned {k i o : Nat} (h : s.TableFree) (hst : s.cptState s.cptSel = 1) (hk : k = s.getF cptPg Reg.CPT_UNIT_KIND)
    (hi : i = s.getF cptPg Reg.CPT_UNIT_INDEX) (hcount : i < unitCount k) (hloc : s.granuleLocal k i = false) (ho : s.owner k i = o)
    (ho' : o < 64) (hne : o ≠ s.cptSel) (hlock : s.getF cptPg Reg.CPT_CFG_LOCKED = 0) :
    exec .grant s = .next ((s.unitSet k i).foldl (fun t g => t.setOwner k g s.cptSel) (s.handOver o s.cptSel k i)) := by
  have he : exec .grant s = execGrant s := rfl
  have h7 : o ≠ 0x7F := by omega
  subst hk hi
  rw [he, execGrant, auxAct_of_auxOn h.1, State.cptCommand_of_free h]
  simp [State.cptApply, State.cptReq, hst, hloc, hcount, ho, ho', hne, h7, hlock]

theorem exec_grantComplete_of_empty {b : Nat} {r : CptReq} (hs : s.Live) (hop : s.cptOp = some (r, b)) (hcmd : r.cmd = 3)
    (hlots : s.granuleLots (r.kind - 4) r.index = []) :
    exec .grantComplete s = .next ((s.grantNow r.cpt r.kind r.index).cptEnd false b) := by
  have he : exec .grantComplete s = execGrantComplete s := rfl
  rw [he, execGrantComplete, act_of_live hs]
  simp [hop, hcmd, hlots]

/-- RETURN of a unit of the selected compartment that nothing uses begins its scrub (R492, R498). -/
theorem exec_returnUnit_of_idle {k i : Nat} (h : s.TableFree) (hst : s.cptState s.cptSel = 1) (hk : k = s.getF cptPg Reg.CPT_UNIT_KIND)
    (hi : i = s.getF cptPg Reg.CPT_UNIT_INDEX) (hcount : i < unitCount k) (hloc : s.granuleLocal k i = false)
    (ho : s.owner k i = s.cptSel) (hbusy : s.unitBusy k i = false) :
    exec .returnUnit s = .next { s with cptOp := some (s.cptReq 4, s.base) } := by
  have he : exec .returnUnit s = execReturnUnit s := rfl
  subst hk hi
  rw [he, execReturnUnit, auxAct_of_auxOn h.1, State.cptCommand_of_free h]
  simp [State.cptApply, State.cptReq, hst, hloc, hcount, ho, hbusy]

theorem exec_returnComplete_of_return {b : Nat} {r : CptReq} (hs : s.Live) (hop : s.cptOp = some (r, b)) (hcmd : r.cmd = 4) :
    exec .returnComplete s = .next ((s.scrub r.kind r.index).cptEnd true b) := by
  have he : exec .returnComplete s = execReturnComplete s := rfl
  rw [he, execReturnComplete, act_of_live hs]
  simp [hop, hcmd]

theorem exec_cptLock_of_auxOn (h : s.AuxOn) : exec .cptLock s = .next (s.notePromise (s.setF cptPg Reg.CPT_CFG_LOCKED 1)) :=
  (show exec .cptLock s = execCptLock s from rfl).trans (auxAct_of_auxOn h _)

theorem exec_cptEntCfgWrite_of_free (h : s.AuxOn) (hst : s.cptState s.cptSel = 0) (v : W32) :
    exec (.cptEntCfgWrite v) s = .next (s.setWord cptPg 0x48 (v.toNat % 2 ^ 30) s.cptSel) := by
  have he : exec (.cptEntCfgWrite v) s = execCptEntCfgWrite v s := rfl
  rw [he, execCptEntCfgWrite, auxAct_of_auxOn h, if_pos (by simpa using hst)]

theorem exec_openBuf_of_good {c : Nat} (h : s.AuxOn)
    (hok : s.handleCheck (c % 64) (s.getF (ownPg c) Reg.CPT_OPEN_HANDLE (s.getF (ownPg c) Reg.CPT_OPEN_SEL_ENTRY)) = stOk) :
    exec (.openBuf c) s = .next (s.setF (ownPg c) Reg.CPT_OPEN_TO_VALID 1 (s.getF (ownPg c) Reg.CPT_OPEN_SEL_ENTRY)) := by
  have he : exec (.openBuf c) s = execOpenBuf c s := rfl
  rw [he, execOpenBuf, auxAct_of_auxOn h]
  simp [hok]

end Table

end Sys2Proof.Machine

namespace Sys2Proof

open Sys2Proof.Machine

/-- Settles O39: with no command under way each is applied at once (`cptCommand_of_free`). The end of a release frees and scrubs, which
leaves what waits (`released_waitBook`), so that nothing comes after it. That memory handed over reads under its new owner's keys is the
model's choice (log 77). -/
theorem compartmentTable : Obligations.CompartmentTable := by
  unfold Obligations.CompartmentTable
  refine ⟨fun s h hst hok => ?_, fun s h hst => ?_, fun c b r s hs hop hq hcmd hc hlt hquiet hstalls => ?_, fun s h hst h4 h5 hi ho => ?_,
    fun k i o s => exec_grant_of_owned, fun b r s => exec_grantComplete_of_empty, fun k i s h hst hk hi hcount hloc ho hbusy => ?_,
    fun b r s => exec_returnComplete_of_return, fun s h => ?_, fun v s h hst => exec_cptEntCfgWrite_of_free h hst v,
    fun c e s h he hok => ?_, fun c s h => ?_⟩
  · exact ⟨_, exec_create_of_free h hst hok, State.cptState_setF _ 1 _ (by decide),
      (s.takeSlots_sameMemory s.cptSel).trans ⟨rfl, rfl, rfl⟩⟩
  · exact ⟨_, s.cptReq 2, exec_compartmentRelease_of_active h hst, (State.cptState_withOp _ _ _).trans (s.cptState_releasing s.cptSel_lt), rfl, rfl, rfl⟩
  · have hq' := (State.released_none hq hstalls c).1
    refine ⟨_, exec_releaseComplete_of_quiet hs hop hq hcmd hc hquiet hstalls, ?_, ?_⟩
    · rw [State.cptEnd_of_no_queue hq', State.cptState, State.getF_raise_other _ _ _ _ _ _ (State.regKey_entry_ne (by decide) (by decide) hlt (by decide)),
        State.getF_setF_other _ _ _ _ _ _ _ _ (State.regKey_entry_ne (by decide) (by decide) hlt (by decide))]
      exact s.cptState_released c
    · rw [State.cptEnd_of_no_queue hq', State.raise_cptOp]
      rfl
  · exact ⟨_, exec_grant_of_unassigned h hst h4 h5 hi ho, State.owner_setOwner_same ho _, rfl, rfl, rfl⟩
  · exact ⟨_, _, exec_returnUnit_of_idle h hst hk hi hcount hloc ho hbusy, rfl, rfl, hk.symm, hi.symm⟩
  · refine ⟨_, exec_cptLock_of_auxOn h, ?_, State.SameMemory.trans ⟨rfl, rfl, rfl⟩ (State.notePromise_sameMemory _ _)⟩
    rw [State.getF_notePromise_other _ _ _ _ _ (by decide), State.getF_setF_same _ _ _ _ _ (by decide)]
    rfl
  · subst he
    exact exec_openBuf_of_good h hok
  · exact (show exec (.closeBuf c) s = execCloseBuf c s from rfl).trans (auxAct_of_auxOn h _)

end Sys2Proof

/-! PROOFS. A step runs the front command, and a stopped module holds still (R582, R615, R640). -/

namespace Sys2Proof.Machine

/-- A part that is held does not act. -/
theorem next_of_held {p : Bool} (hp : p = true) (s t : State) :
    (Host.Outcome.next (if p then s else t) : Host.Outcome State Fault Refusal) = .next s := by rw [if_pos hp]

/-- Every command of a part that a freeze stops is one of `act` or `actD`, whose condition holds of a stopped module. -/
theorem exec_of_stopped (c : Instr) (s : State) (h : s.stopped = true) (hc : stopsInFreeze c = true) : exec c s = .next s := by
  cases c <;> cases hc <;> exact next_of_held (by simp [h]) _ _

/-- The PHY of a port answers in a freeze as in service (R640). -/
theorem ethLaneLockLoss_total (d : Die) (p lane : Nat) (s : State) : ∃ t, exec (.ethLaneLockLoss d p lane) s = .next t := by
  have he : exec (.ethLaneLockLoss d p lane) s = execEthLaneLockLoss d p lane s := rfl
  rw [he, execEthLaneLockLoss]
  dsimp only
  split
  · exact ⟨_, rfl⟩
  · exact ⟨_, rfl⟩

/-- Every other command's arm is a next state by definition. -/
theorem exec_total (c : Instr) (s : State) : ∃ t, exec c s = .next t := by
  cases c
  case ethLaneLockLoss d p lane => exact ethLaneLockLoss_total d p lane s
  all_goals exact ⟨_, rfl⟩

end Sys2Proof.Machine

namespace Sys2Proof

open Sys2Proof.Machine

/-- Settles O48: the definition of `step`, and a case per command. -/
theorem stepRunsFrontCommand : Obligations.StepRunsFrontCommand := by
  refine ⟨fun c r s h => ?_, fun s h => ?_, exec_total⟩
  · rw [step, h]
  · rw [step, h]

/-- Settles O56: a case per command (`exec_of_stopped`). -/
theorem stoppedModuleHoldsStill : Obligations.StoppedModuleHoldsStill := fun c s => exec_of_stopped c s

end Sys2Proof

/-! PROOFS. Interrupts of a page, and the vote of its triplicated words (R527, R533). -/

namespace Sys2Proof.Machine

/-- Words of one page at different offsets have different keys. -/
theorem regKey_ne_of_offset {pg : Page} {o o' : Nat} (h : o / 4 ≠ o' / 4) : regKey pg o 0 ≠ regKey pg o' 0 := by
  unfold regKey
  omega

/-! ### Bits of masked words -/

theorem testBit_bitsOf (v lo w n : Nat) : (bitsOf v lo w).testBit n = (decide (n < w) && v.testBit (lo + n)) := by
  rw [bitsOf, Nat.testBit_mod_two_pow, Nat.testBit_shiftRight]

/-- A mask keeps all of a word exactly where it covers its bits. -/
theorem and_eq_left_iff (x y : Nat) : x &&& y = x ↔ ∀ n, x.testBit n = true → y.testBit n = true := by
  refine ⟨fun h n hn => ?_, fun h => Nat.eq_of_testBit_eq fun n => ?_⟩
  · rw [← h, Nat.testBit_and, Bool.and_eq_true] at hn
    exact hn.2
  · rw [Nat.testBit_and]
    cases hx : x.testBit n with
    | false => rfl
    | true => rw [h n hx]; rfl

/-- The bits of `a` outside mask `m`, and those of `c` in it. -/
theorem testBit_merge (a c m n : Nat) :
    ((a ^^^ (a &&& m)) ||| (c &&& m)).testBit n = if m.testBit n = true then c.testBit n else a.testBit n := by
  rw [Nat.testBit_or, Nat.testBit_xor, Nat.testBit_and, Nat.testBit_and]
  cases m.testBit n <;> simp

namespace State

/-! ### Interrupts (R533) -/

/-- A bit that is enabled and 0 rises under mask `m`. -/
def rises (s : State) (pg : Page) (m : Nat) : Prop :=
  ∃ n, m.testBit n = true ∧ (s.word pg 0x24).testBit n = true ∧ (s.word pg 0x20).testBit n = false

theorem not_rises_iff (s : State) (pg : Page) (m : Nat) :
    ¬ s.rises pg m ↔ (m &&& s.word pg 0x24) &&& s.word pg 0x20 = m &&& s.word pg 0x24 := by
  rw [and_eq_left_iff, rises]
  simp only [Nat.testBit_and, Bool.and_eq_true, not_exists, not_and, Bool.not_eq_false, and_imp]

theorem raiseMask_of_rises {s : State} {pg : Page} {m : Nat} (h : s.rises pg m) :
    s.raiseMask pg m = (s.setWord pg 0x20 (s.word pg 0x20 ||| m)).sendMsi (pageNo pg) := by
  have hne := fun he => (not_rises_iff s pg m).2 he h
  unfold raiseMask
  dsimp only
  rw [if_pos (bne_iff_ne.2 hne)]

theorem raiseMask_of_not_rises {s : State} {pg : Page} {m : Nat} (h : ¬ s.rises pg m) :
    s.raiseMask pg m = s.setWord pg 0x20 (s.word pg 0x20 ||| m) := by
  unfold raiseMask
  dsimp only
  rw [if_neg]
  simpa using (not_rises_iff s pg m).1 h

theorem word_raiseMask (s : State) (pg : Page) {m : Nat} (hm : m < 2 ^ 16) :
    (s.raiseMask pg m).word pg 0x20 = s.word pg 0x20 % 2 ^ 32 ||| m := by
  have hw : (s.setWord pg 0x20 (s.word pg 0x20 ||| m)).word pg 0x20 = s.word pg 0x20 % 2 ^ 32 ||| m := by
    rw [word_setWord_same, Nat.or_mod_two_pow, Nat.mod_eq_of_lt (show m < 2 ^ 32 by omega)]
  by_cases h : s.rises pg m
  · rw [raiseMask_of_rises h]
    exact hw
  · rw [raiseMask_of_not_rises h]
    exact hw

/-- The interrupt enables after a write under its mask (R533). -/
def irqEnables (s : State) (pg : Page) (v : Nat) : Nat :=
  (s.word pg 0x24 ^^^ (s.word pg 0x24 &&& bitsOf v 16 16)) ||| (v &&& bitsOf v 16 16)

/-- A write of the enables masks bit `n`. -/
def irqMasked (v n : Nat) : Prop := n < 16 ∧ v.testBit (16 + n) = true

theorem testBit_irqEnables (s : State) (pg : Page) (v n : Nat) [Decidable (irqMasked v n)] :
    (s.irqEnables pg v).testBit n = if irqMasked v n then v.testBit n else (s.word pg 0x24).testBit n := by
  rw [irqEnables, testBit_merge, testBit_bitsOf]
  simp only [Bool.and_eq_true, decide_eq_true_eq, irqMasked]
  congr

/-- A bit whose status is 1 becomes enabled (R533). -/
def enablesPending (s : State) (pg : Page) (v : Nat) : Prop :=
  ∃ n, n < 16 ∧ (s.word pg 0x20).testBit n = true ∧ (s.word pg 0x24).testBit n = false ∧ v.testBit (16 + n) = true ∧ v.testBit n = true

open Classical in
theorem enablesPending_iff (s : State) (pg : Page) (v : Nat) : s.enablesPending pg v ↔
    (s.word pg 0x20 &&& s.irqEnables pg v) ≠ (s.word pg 0x20 &&& s.word pg 0x24 &&& s.irqEnables pg v) := by
  have hac : s.word pg 0x20 &&& s.word pg 0x24 &&& s.irqEnables pg v = (s.word pg 0x20 &&& s.irqEnables pg v) &&& s.word pg 0x24 := by
    rw [Nat.and_assoc, Nat.and_assoc, Nat.and_comm (s.word pg 0x24)]
  rw [hac, ne_comm, ne_eq, and_eq_left_iff, enablesPending]
  simp only [Nat.testBit_and, testBit_irqEnables, Bool.and_eq_true, and_imp, not_forall, Bool.not_eq_true]
  refine exists_congr fun n => ⟨fun ⟨hn, hst, hen, hm, hv⟩ => ⟨hst, by rw [if_pos ⟨hn, hm⟩, hv], hen⟩, fun ⟨hst, hv, hen⟩ => ?_⟩
  by_cases hm : irqMasked v n
  · rw [if_pos hm] at hv
    exact ⟨hm.1, hst, hen, hm.2, hv⟩
  · rw [if_neg hm, hen] at hv
    cases hv

/-- A write of the enables of a page that is not fused off: the word, and one MSI where a pending status bit becomes enabled. -/
theorem irqEnWrite_of_pending {s : State} {pg : Page} {v : Nat} (hf : pageFused s.fuses pg = false) (h : s.enablesPending pg v) :
    s.irqEnWrite pg v = (s.setWord pg 0x24 (s.irqEnables pg v)).sendMsi (pageNo pg) := by
  obtain ⟨n, hn, -, -, hm, -⟩ := id h
  have hne : bitsOf v 16 16 ≠ 0 := fun h0 => by
    have hb : (bitsOf v 16 16).testBit n = true := by rw [testBit_bitsOf, hm, decide_eq_true hn]; rfl
    rw [h0, Nat.zero_testBit] at hb
    cases hb
  have hc := (enablesPending_iff s pg v).1 h
  rw [irqEnables] at hc ⊢
  simp [irqEnWrite, hf, hne, hc]

theorem irqEnWrite_of_not_pending {s : State} {pg : Page} {v : Nat} (hf : pageFused s.fuses pg = false) (h : ¬ s.enablesPending pg v) :
    s.irqEnWrite pg v = if bitsOf v 16 16 = 0 then s else s.setWord pg 0x24 (s.irqEnables pg v) := by
  have hc := not_not.1 (mt (enablesPending_iff s pg v).2 h)
  rw [irqEnables] at hc ⊢
  simp only [irqEnWrite, hf, Bool.false_or, beq_iff_eq, bne_iff_ne, ne_eq, hc, not_true, if_false]

/-- The enables of a page that is not fused off are one word. -/
theorem irqEnable_lt {s : State} {pg : Page} (hf : pageFused s.fuses pg = false) : s.word pg 0x24 < 2 ^ 32 := by
  unfold word
  split
  · exact BitVec.isLt _
  · rw [resetWord_header 0 hf (by decide) (by decide) (by decide)]
    decide

open Classical in
theorem testBit_irqEnWrite {s : State} {pg : Page} (v n : Nat) (hf : pageFused s.fuses pg = false) :
    ((s.irqEnWrite pg v).word pg 0x24).testBit n =
      if irqMasked v n then v.testBit n else decide (n < 32) && (s.word pg 0x24).testBit n := by
  have hset : ((s.setWord pg 0x24 (s.irqEnables pg v)).word pg 0x24).testBit n =
      if irqMasked v n then v.testBit n else decide (n < 32) && (s.word pg 0x24).testBit n := by
    rw [word_setWord_same, Nat.testBit_mod_two_pow, testBit_irqEnables]
    split
    · next hm => rw [decide_eq_true (show n < 32 by have := hm.1; omega), Bool.true_and]
    · rfl
  by_cases h : s.enablesPending pg v
  · rw [irqEnWrite_of_pending hf h]
    exact hset
  · rw [irqEnWrite_of_not_pending hf h]
    split
    · next h0 =>
      have hm : ¬ irqMasked v n := fun hm => by
        have hb : (bitsOf v 16 16).testBit n = true := by rw [testBit_bitsOf, hm.2, decide_eq_true hm.1]; rfl
        rw [h0, Nat.zero_testBit] at hb
        cases hb
      rw [if_neg hm]
      by_cases hn : n < 32
      · rw [decide_eq_true hn, Bool.true_and]
      · rw [decide_eq_false hn, Bool.false_and]
        exact Nat.testBit_lt_two_pow ((irqEnable_lt hf).trans_le (Nat.pow_le_pow_right (by decide) (by omega)))
    · exact hset

open Classical in
theorem irqEnWrite_msiq {s : State} {pg : Page} (v : Nat) (hf : pageFused s.fuses pg = false) :
    (s.irqEnWrite pg v).msiq = if s.enablesPending pg v then s.msiq ++ [pageNo pg] else s.msiq := by
  split
  · next h => rw [irqEnWrite_of_pending hf h]; rfl
  · next h =>
    rw [irqEnWrite_of_not_pending hf h]
    split <;> rfl

/-! ### Votes (R527) -/

/-- The bits of a word that are triplicated. -/
def tvMask (pg : Page) (off : Nat) : Nat := ((rowAt pg off).map RegRow.tv).getD 0

/-- The first copy of a triplicated word, and the two others where they differ from it. -/
def copies (s : State) (pg : Page) (off : Nat) : Nat × Option W32 × Option W32 :=
  (s.word pg off, SMap.find s.tvB (regKey pg off 0), SMap.find s.tvC (regKey pg off 0))

/-- A copy that does not stand apart agrees with the first. -/
def tvCopy (a : Nat) (x : Option W32) : Nat :=
  match x with
  | some w => w.toNat
  | none => a

theorem tvCopy_eq (a : Nat) (x : Option W32) : tvCopy a x = (x.map BitVec.toNat).getD a := by cases x <;> rfl

theorem tvWord_eq (s : State) (pg : Page) (off : Nat) : s.tvWord pg off =
    (s.word pg off ^^^ (s.word pg off &&& tvMask pg off)) |||
      (vote3 (s.word pg off) (tvCopy (s.word pg off) (s.copies pg off).2.1) (tvCopy (s.word pg off) (s.copies pg off).2.2) &&& tvMask pg off) := rfl

theorem tvWord_congr {s t : State} {pg : Page} {off : Nat} (h : t.copies pg off = s.copies pg off) : t.tvWord pg off = s.tvWord pg off := by
  have hw : t.word pg off = s.word pg off := congrArg Prod.fst h
  rw [tvWord_eq, tvWord_eq, h, hw]

theorem testBit_vote3 (a b c n : Nat) :
    (vote3 a b c).testBit n = true ↔ 2 ≤ (a.testBit n).toNat + (b.testBit n).toNat + (c.testBit n).toNat := by
  simp only [vote3, Nat.testBit_or, Nat.testBit_and]
  cases a.testBit n <;> cases b.testBit n <;> cases c.testBit n <;> decide

/-- Every copy of the word agrees, in the triplicated bits, with `v`, as which it reads. -/
def Agreed (s : State) (pg : Page) (off v : Nat) : Prop :=
  s.tvWord pg off = v ∧ s.word pg off &&& tvMask pg off = v &&& tvMask pg off
    ∧ (∀ w, SMap.find s.tvB (regKey pg off 0) = some w → w.toNat &&& tvMask pg off = v &&& tvMask pg off)
    ∧ (∀ w, SMap.find s.tvC (regKey pg off 0) = some w → w.toNat &&& tvMask pg off = v &&& tvMask pg off)

theorem agreed_congr {s t : State} {pg : Page} {off v : Nat} (h : t.copies pg off = s.copies pg off) (ha : s.Agreed pg off v) :
    t.Agreed pg off v := by
  have hw : t.word pg off = s.word pg off := congrArg Prod.fst h
  have hb : SMap.find t.tvB (regKey pg off 0) = SMap.find s.tvB (regKey pg off 0) := congrArg (fun x => x.2.1) h
  have hc : SMap.find t.tvC (regKey pg off 0) = SMap.find s.tvC (regKey pg off 0) := congrArg (fun x => x.2.2) h
  unfold Agreed at ha ⊢
  rwa [tvWord_congr h, hw, hb, hc]

/-- An error noted in a page's header leaves its other words. -/
theorem word_pageErr_other (s : State) (pg : Page) (n : Nat) {off : Nat} (h : 0x40 ≤ off) :
    (s.pageErr pg n).word pg off = s.word pg off := by
  have hk (x : Nat) (hx : x < 0x40) : regKey pg off 0 ≠ regKey pg x 0 := regKey_ne_of_offset (by omega)
  have hbase : ((s.setWord pg 0x30 (s.word pg 0x30 ||| 1 <<< n)).bump pg Reg.PAGE_ERRCNT).word pg off = s.word pg off := by
    rw [bump, word_setF_other _ _ _ _ _ _ _ _ (hk _ (by decide)), word_setWord_other _ _ _ _ _ _ _ _ (hk _ (by decide))]
  unfold pageErr
  dsimp only
  split
  · exact hbase
  · rw [word_raise_other _ _ _ _ _ _ (hk _ (by decide)), hbase]

/-- The word as a vote leaves it: the majority in all three copies, counted and reported. -/
def voted (s : State) (pg : Page) (off count : Nat) : State :=
  let k := regKey pg off 0
  ((((State.setWord { s with tvB := SMap.del s.tvB k, tvC := SMap.del s.tvC k } pg off (s.tvWord pg off)).bump pg Reg.PAGE_VOTE_COUNT
    count).setF pg Reg.PAGE_VOTE_LAST_WORD (off / 4)).pageErr pg 2)

/-- A vote leaves a word whose copies agree, and repairs one whose copies do not. -/
theorem voteWord_cases (s : State) (pg : Page) (off : Nat) :
    (s.voteWord pg off = s ∧ ∀ x ∈ [s.word pg off, tvCopy (s.word pg off) (s.copies pg off).2.1, tvCopy (s.word pg off) (s.copies pg off).2.2],
      x &&& tvMask pg off = s.tvWord pg off &&& tvMask pg off) ∨ ∃ n, s.voteWord pg off = s.voted pg off n := by
  have he : s.voteWord pg off = if (([s.word pg off, tvCopy (s.word pg off) (s.copies pg off).2.1,
      tvCopy (s.word pg off) (s.copies pg off).2.2].filter fun x =>
        x &&& tvMask pg off != s.tvWord pg off &&& tvMask pg off).isEmpty) then s else s.voted pg off _ := rfl
  rw [he]
  split
  · next h =>
    refine .inl ⟨rfl, fun x hx => ?_⟩
    simpa using List.filter_eq_nil_iff.1 (List.isEmpty_iff.1 h) x hx
  · exact .inr ⟨_, rfl⟩

theorem copies_voted_other (s : State) (pg : Page) {off off' : Nat} (n : Nat) (ho : 0x40 ≤ off) (h : off / 4 ≠ off' / 4) :
    (s.voted pg off' n).copies pg off = s.copies pg off := by
  have hk : regKey pg off 0 ≠ regKey pg off' 0 := regKey_ne_of_offset h
  have hh (x : Nat) (hx : x < 0x40) : regKey pg off 0 ≠ regKey pg x 0 := regKey_ne_of_offset (by omega)
  unfold voted copies
  dsimp only
  rw [word_pageErr_other _ _ _ ho, word_setF_other _ _ _ _ _ _ _ _ (hh _ (by decide)), bump, word_setF_other _ _ _ _ _ _ _ _ (hh _ (by decide)),
    word_setWord_other _ _ _ _ _ _ _ _ hk, pageErr_tvB, pageErr_tvC]
  exact congrArg₂ _ rfl (congrArg₂ _ (SMap.find_del_other _ _ _ hk) (SMap.find_del_other _ _ _ hk))

theorem copies_voted_same (s : State) (pg : Page) {off : Nat} (n : Nat) (ho : 0x40 ≤ off) :
    (s.voted pg off n).copies pg off = (s.tvWord pg off % 2 ^ 32, none, none) := by
  have hh (x : Nat) (hx : x < 0x40) : regKey pg off 0 ≠ regKey pg x 0 := regKey_ne_of_offset (by omega)
  unfold voted copies
  dsimp only
  rw [word_pageErr_other _ _ _ ho, word_setF_other _ _ _ _ _ _ _ _ (hh _ (by decide)), bump, word_setF_other _ _ _ _ _ _ _ _ (hh _ (by decide)),
    word_setWord_same, pageErr_tvB, pageErr_tvC]
  exact congrArg₂ _ rfl (congrArg₂ _ (SMap.find_del_same _ _) (SMap.find_del_same _ _))

theorem vote3_self (a : Nat) : vote3 a a a = a := by simp [vote3]

theorem merge_self (a m : Nat) : (a ^^^ (a &&& m)) ||| (a &&& m) = a :=
  Nat.eq_of_testBit_eq fun n => by rw [testBit_merge, ite_self]

/-- A vote of another word changes nothing of this one's copies. -/
theorem copies_voteWord_other (s : State) (pg : Page) {off off' : Nat} (ho : 0x40 ≤ off) (h : off / 4 ≠ off' / 4) :
    (s.voteWord pg off').copies pg off = s.copies pg off := by
  obtain ⟨he, -⟩ | ⟨n, he⟩ := s.voteWord_cases pg off'
  · rw [he]
  · rw [he, copies_voted_other s pg n ho h]

theorem tvWord_lt {s : State} {pg : Page} {off : Nat} (ha : s.word pg off < 2 ^ 32) (hm : tvMask pg off < 2 ^ 32) :
    s.tvWord pg off < 2 ^ 32 := by
  rw [tvWord_eq]
  exact Nat.or_lt_two_pow (Nat.xor_lt_two_pow ha (Nat.and_lt_two_pow _ hm)) (Nat.and_lt_two_pow _ hm)

/-- A vote makes the copies of its word agree with what the word read (R527). -/
theorem agreed_voteWord {s : State} {pg : Page} {off : Nat} (ho : 0x40 ≤ off) (ha : s.word pg off < 2 ^ 32)
    (hm : tvMask pg off < 2 ^ 32) : (s.voteWord pg off).Agreed pg off (s.tvWord pg off) := by
  obtain ⟨he, hall⟩ | ⟨n, he⟩ := s.voteWord_cases pg off
  · rw [he]
    refine ⟨rfl, hall _ (by simp), fun w hw => ?_, fun w hw => ?_⟩
    · exact hall w.toNat (by simp [copies, hw, tvCopy])
    · exact hall w.toNat (by simp [copies, hw, tvCopy])
  · have hc := s.copies_voted_same pg n ho
    rw [Nat.mod_eq_of_lt (tvWord_lt ha hm)] at hc
    have hw : (s.voted pg off n).word pg off = s.tvWord pg off := congrArg Prod.fst hc
    have hb : SMap.find (s.voted pg off n).tvB (regKey pg off 0) = none := congrArg (fun x => x.2.1) hc
    have hcc : SMap.find (s.voted pg off n).tvC (regKey pg off 0) = none := congrArg (fun x => x.2.2) hc
    rw [he]
    refine ⟨?_, by rw [hw], fun w h => ?_, fun w h => ?_⟩
    · rw [tvWord_eq, hc, hw, tvCopy, vote3_self, merge_self]
    · rw [hb] at h; cases h
    · rw [hcc] at h; cases h

/-- What a page's map says of a triplicated word: its place above the header, its mask and its reset value. -/
def TvPlace (pg : Page) (x : RegRow) : Prop :=
  0x40 ≤ x.off ∧ x.off % 4 = 0 ∧ tvMask pg x.off = x.tv ∧ x.tv < 2 ^ 32 ∧ ∀ fz, resetWord fz pg x.off 0 < 2 ^ 32

/-- Only the clock, power and sensor controllers have triplicated words. -/
theorem tv_of_blk {pg : Page} (hc : pg.blk ≠ .clk) (hp : pg.blk ≠ .pwr) (ht : pg.blk ≠ .thm) : ∀ x ∈ pageRows pg, x.tv = 0 := by
  unfold pageRows
  cases hb : pg.blk <;> dsimp only
  case clk => exact absurd hb hc
  case pwr => exact absurd hb hp
  case thm => exact absurd hb ht
  case eng | net =>
    split
    · decide
    · split <;> decide
  case lkp | cpt => split <;> decide
  all_goals decide

theorem tvPlace {pg : Page} {x : RegRow} (hx : x ∈ pageRows pg) (h : x.tv ≠ 0) : TvPlace pg x := by
  have hclk : ∀ x ∈ RegMap.clk, x.tv ≠ 0 → x.off = 0x40 ∧ x.tv = 3 ∨ x.off = 0x44 ∧ x.tv = 0x1FF := by decide
  have hpwr : ∀ x ∈ RegMap.pwr, x.tv ≠ 0 → x.off = 0x40 ∧ x.tv = 0xFFF := by decide
  have hthm : ∀ x ∈ RegMap.thm, x.tv ≠ 0 → x.off = 0x44 ∧ x.tv = 0xFFFF := by decide
  obtain ⟨d, b, i⟩ := pg
  have hb : b = .clk ∨ b = .pwr ∨ b = .thm := by
    by_contra hb
    simp only [not_or] at hb
    exact h (tv_of_blk hb.1 hb.2.1 hb.2.2 x hx)
  unfold TvPlace
  obtain rfl | rfl | rfl := hb
  · obtain ⟨ho, ht⟩ | ⟨ho, ht⟩ := hclk x hx h
    · rw [ho, ht]
      exact ⟨by decide, rfl, rfl, by decide, fun fz => lt_of_eq_of_lt (show resetWord fz ⟨d, .clk, i⟩ 0x40 0 = 0x20 from rfl) (by decide)⟩
    · rw [ho, ht]
      exact ⟨by decide, rfl, rfl, by decide, fun fz => lt_of_eq_of_lt (show resetWord fz ⟨d, .clk, i⟩ 0x44 0 = 0xF0 from rfl) (by decide)⟩
  · obtain ⟨ho, ht⟩ := hpwr x hx h
    rw [ho, ht]
    exact ⟨by decide, rfl, rfl, by decide, fun fz => lt_of_eq_of_lt (show resetWord fz ⟨d, .pwr, i⟩ 0x40 0 = 0xC80 from rfl) (by decide)⟩
  · obtain ⟨ho, ht⟩ := hthm x hx h
    rw [ho, ht]
    exact ⟨by decide, rfl, rfl, by decide, fun fz => lt_of_eq_of_lt (show resetWord fz ⟨d, .thm, i⟩ 0x44 0 = 0x6E69645F from rfl) (by decide)⟩

theorem word_lt_of_tvPlace {pg : Page} {x : RegRow} (h : TvPlace pg x) (s : State) : s.word pg x.off < 2 ^ 32 := by
  obtain ⟨-, -, -, -, hr⟩ := h
  unfold word
  split
  · exact BitVec.isLt _
  · exact hr _

section Page

variable {pg : Page} {x : RegRow}

/-- The vote of a triplicated word leaves what each of the page's reads as. -/
theorem tvWord_voteWord (hx : TvPlace pg x) {y : RegRow} (hy : TvPlace pg y) (s : State) :
    (s.voteWord pg y.off).tvWord pg x.off = s.tvWord pg x.off := by
  obtain ⟨hxo, hx4, hxm, hxt, -⟩ := id hx
  obtain ⟨-, hy4, -, -, -⟩ := id hy
  by_cases h : y.off = x.off
  · rw [h]
    exact (agreed_voteWord hxo (word_lt_of_tvPlace hx s) (hxm ▸ hxt)).1
  · exact tvWord_congr (s.copies_voteWord_other pg hxo (by omega))

theorem agreed_voteWord_any (hx : TvPlace pg x) {y : RegRow} (hy : TvPlace pg y) {s : State} {v : Nat} (ha : s.Agreed pg x.off v) :
    (s.voteWord pg y.off).Agreed pg x.off v := by
  obtain ⟨hxo, hx4, hxm, hxt, -⟩ := id hx
  obtain ⟨-, hy4, -, -, -⟩ := id hy
  by_cases h : y.off = x.off
  · rw [h, ← ha.1]
    exact agreed_voteWord hxo (word_lt_of_tvPlace hx s) (hxm ▸ hxt)
  · exact agreed_congr (s.copies_voteWord_other pg hxo (by omega)) ha

theorem tvWord_votes (hx : TvPlace pg x) (l : List RegRow) (hl : ∀ y ∈ l, TvPlace pg y) (s : State) :
    (l.foldl (fun t y => t.voteWord pg y.off) s).tvWord pg x.off = s.tvWord pg x.off :=
  List.foldlRecOn (motive := fun t : State => t.tvWord pg x.off = s.tvWord pg x.off) _ _ rfl
    fun t ht y hy => (tvWord_voteWord hx (hl y hy) t).trans ht

theorem agreed_votes (hx : TvPlace pg x) (l : List RegRow) (hl : ∀ y ∈ l, TvPlace pg y) {s : State} {v : Nat} (ha : s.Agreed pg x.off v) :
    (l.foldl (fun t y => t.voteWord pg y.off) s).Agreed pg x.off v :=
  List.foldlRecOn (motive := fun t : State => t.Agreed pg x.off v) _ _ ha fun _ ht y hy => agreed_voteWord_any hx (hl y hy) ht

/-- Once a page has been revoted, the copies of each of its triplicated words agree with what it read (R527). -/
theorem agreed_votePage (hx : x ∈ pageRows pg) (ht : x.tv ≠ 0) (ho : x.only = some pg.die) (s : State) :
    (s.votePage pg).Agreed pg x.off (s.tvWord pg x.off) := by
  have hp := tvPlace hx ht
  obtain ⟨hxo, -, hxm, hxt, -⟩ := id hp
  have hmem : x ∈ (pageRows pg).filter fun x => x.tv != 0 && x.only == some pg.die :=
    List.mem_filter.2 ⟨hx, by simp [ht, ho]⟩
  have hall : ∀ y ∈ (pageRows pg).filter fun x => x.tv != 0 && x.only == some pg.die, TvPlace pg y := fun y hy => by
    obtain ⟨hy, hc⟩ := List.mem_filter.1 hy
    simp only [Bool.and_eq_true, bne_iff_ne] at hc
    exact tvPlace hy hc.1
  unfold votePage
  obtain ⟨l, r, hlr⟩ := List.append_of_mem hmem
  rw [hlr] at hall ⊢
  have hl := fun y hy => hall y (List.mem_append_left _ hy)
  have hr := fun y hy => hall y (List.mem_append_right _ (List.mem_cons_of_mem _ hy))
  rw [List.foldl_append, List.foldl_cons, ← tvWord_votes hp l hl s]
  exact agreed_votes hp r hr (agreed_voteWord hxo (word_lt_of_tvPlace hp _) (hxm ▸ hxt))

end Page

/-- Each triplicated bit reads as the majority of its copies (R527). -/
theorem testBit_tvWord {s : State} {pg : Page} {off n : Nat} (h : (tvMask pg off).testBit n = true) : (s.tvWord pg off).testBit n =
    (vote3 (s.word pg off) (tvCopy (s.word pg off) (s.copies pg off).2.1) (tvCopy (s.word pg off) (s.copies pg off).2.2)).testBit n := by
  rw [tvWord_eq, testBit_merge, if_pos h]

end State

theorem exec_pageIrqEnWrite_of_pageOn {s : State} {pg : Page} (h : s.PageOn pg) (v : W32) :
    exec (.pageIrqEnWrite pg v) s = .next (s.irqEnWrite pg v.toNat) := by
  have he : exec (.pageIrqEnWrite pg v) s = execPageIrqEnWrite pg v s := rfl
  rw [he, execPageIrqEnWrite, h.1, h.2]
  rfl

theorem exec_tvRevote_of_pageOn {s : State} {pg : Page} (h : s.PageOn pg) : exec (.tvRevote pg) s = .next (s.votePage pg) := by
  have he : exec (.tvRevote pg) s = execTvRevote pg s := rfl
  rw [he, execTvRevote, h.1, h.2]
  rfl

end Sys2Proof.Machine

namespace Sys2Proof

open Sys2Proof.Machine

/-- Settles O59: `raiseMask` sends exactly where some bit rises (`not_rises_iff`), and `irqEnWrite` exactly where one becomes enabled that is
pending (`enablesPending_iff`). -/
theorem interruptsSendOnce : Obligations.InterruptsSendOnce := by
  unfold Obligations.InterruptsSendOnce
  refine ⟨fun pg m s hm => ⟨State.word_raiseMask s pg hm, fun h => ?_, fun h => ?_⟩, fun pg v s hp hf =>
    ⟨_, exec_pageIrqEnWrite_of_pageOn hp v, fun n => (State.testBit_irqEnWrite _ n hf).trans ?_,
      (State.irqEnWrite_msiq _ hf).trans ?_⟩⟩
  · rw [State.raiseMask_of_rises h]
    rfl
  · rw [State.raiseMask_of_not_rises fun ⟨n, hn, hen, hst⟩ => by simp [h n hn hen] at hst]
    rfl
  · congr
  · congr

/-- Settles O60: the majority bit by bit (`testBit_tvWord`), and the votes of a page one after another, each of which repairs its word and
leaves the others (`agreed_votePage`). -/
theorem votesTakeMajority : Obligations.VotesTakeMajority := by
  unfold Obligations.VotesTakeMajority
  refine ⟨fun pg off n x a b c s hx hn ha hb hc => ?_, fun pg x s hp hx ht ho => ?_⟩
  · subst ha hb hc
    have hm : (State.tvMask pg off).testBit n = true := by rw [State.tvMask, hx]; exact hn
    rw [State.testBit_tvWord hm, State.testBit_vote3, State.tvCopy_eq, State.tvCopy_eq]
    rfl
  · obtain ⟨hr, hw, hb, hc⟩ := State.agreed_votePage hx ht ho s
    obtain ⟨-, -, hm, -, -⟩ := State.tvPlace hx ht
    rw [hm] at hw hb hc
    exact ⟨_, exec_tvRevote_of_pageOn hp, hr, hw, hb, hc⟩

end Sys2Proof

/-! PROOFS. The words that a command may change, and the rounds of the power budget (R558 to R562). -/

namespace Sys2Proof.Machine

theorem mem_allDies (d : Die) : d ∈ allDies := by cases d <;> decide

theorem allDies_nodup : allDies.Nodup := by decide

namespace State

/-! ### The words that change -/

/-- Every word that has changed has a key in `K`. -/
def WordsIn (K : Nat → Prop) (s t : State) : Prop := ∀ pg off b, ¬ K (regKey pg off b) → t.word pg off b = s.word pg off b

section WordsIn

variable {K : Nat → Prop} {s t u : State}

theorem WordsIn.refl (s : State) : WordsIn K s s := fun _ _ _ _ => rfl

theorem WordsIn.trans (h : WordsIn K s t) (h' : WordsIn K t u) : WordsIn K s u := fun pg off b hk =>
  (h' pg off b hk).trans (h pg off b hk)

theorem WordsIn.mono {K' : Nat → Prop} (h : WordsIn K s t) (hk : ∀ k, K k → K' k) : WordsIn K' s t := fun pg off b hn =>
  h pg off b fun h => hn (hk _ h)

theorem WordsIn.getF (h : WordsIn K s t) {pg : Page} {f : Fld} {b : Nat} (hk : ¬ K (regKey pg f.off b)) : t.getF pg f b = s.getF pg f b := by
  unfold State.getF
  rw [h pg f.off b hk]

/-- A change of what is not a register. -/
theorem wordsIn_of_regs (hr : t.regs = s.regs) (hf : t.fuses = s.fuses) : WordsIn K s t := fun pg off b _ => by
  unfold word
  rw [hr, hf]

theorem WordsIn.withWord (h : WordsIn K s t) {pg : Page} {off v b : Nat} (hk : K (regKey pg off b)) : WordsIn K s (t.setWord pg off v b) := by
  intro pg' off' b' hn
  rw [word_setWord_other _ _ _ _ _ _ _ _ fun he => hn (by rw [he]; exact hk), h pg' off' b' hn]

theorem WordsIn.withField (h : WordsIn K s t) {pg : Page} {f : Fld} {v b : Nat} (hk : K (regKey pg f.off b)) : WordsIn K s (t.setF pg f v b) :=
  h.withWord hk

theorem WordsIn.withBump (h : WordsIn K s t) {pg : Page} {f : Fld} {n b : Nat} (hk : K (regKey pg f.off b)) : WordsIn K s (t.bump pg f n b) :=
  h.withField hk

theorem WordsIn.withRaise (h : WordsIn K s t) {pg : Page} {n : Nat} (hk : K (regKey pg 0x20 0)) : WordsIn K s (t.raise pg n) := by
  intro pg' off' b' hn
  rw [word_raise_other _ _ _ _ _ _ fun he => hn (by rw [he]; exact hk), h pg' off' b' hn]

theorem WordsIn.withRaiseIf (h : WordsIn K s t) (c : Prop) [Decidable c] {pg : Page} {n : Nat} (hk : K (regKey pg 0x20 0)) :
    WordsIn K s (if c then t.raise pg n else t) := by
  split
  · exact h.withRaise hk
  · exact h

end WordsIn

/-! ### Rounds: what a die's tick may change -/

/-- The words of a die's power page but the budget and its enables of the module. -/
def powerKeys (d : Die) (k : Nat) : Prop := ∃ o, o < 4096 ∧ o / 4 ≠ 0x10 ∧ k = regKey (pwrPg d) o 0

theorem powerKeys_intro {d : Die} (o : Nat) (ho : o < 4096) (h : o / 4 ≠ 0x10) : powerKeys d (regKey (pwrPg d) o 0) := ⟨o, ho, h, rfl⟩

theorem not_powerKeys_of_page {d : Die} {pg : Page} {o : Nat} (hp : pg ≠ pwrPg d) (hi : pg.inst < 256) (ho : o < 4096) :
    ¬ powerKeys d (regKey pg o 0) := fun ⟨_, ho', _, he⟩ =>
  regKey_ne_of_page (q := pwrPg d) hi (show 0 < 256 by decide) ho ho' (by decide) (by decide) hp he

theorem not_powerKeys_budget (d : Die) {pg : Page} (hi : pg.inst < 256) : ¬ powerKeys d (regKey pg 0x40 0) := fun ⟨_, ho', hne, he⟩ =>
  regKey_ne_of_word (q := pwrPg d) hi (show 0 < 256 by decide) (by decide) ho' (by decide) (by decide) (Ne.symm hne) he

section Ticks

variable (s : State) (d e : Die)

theorem budget_setBudget_same (x : Budget) : (s.setBudget d x).budget d = x := by
  simp [budget, setBudget, SMap.getD]

theorem budget_setBudget_other (x : Budget) (h : d ≠ e) : (s.setBudget e x).budget d = s.budget d := by
  simp [budget, setBudget, SMap.getD, SMap.find_put_other _ _ _ _ (fun he => h (dieCode_inj _ _ he))]

theorem setWord_budget (pg : Page) (o v b : Nat) : (s.setWord pg o v b).budget d = s.budget d := rfl

theorem setF_budget (pg : Page) (f : Fld) (v b : Nat) : (s.setF pg f v b).budget d = s.budget d := rfl

theorem getF_setBudget (x : Budget) (pg : Page) (f : Fld) (b : Nat) : (s.setBudget e x).getF pg f b = s.getF pg f b := rfl

theorem noteCause_budget (m : Bool) : (s.noteCause e m).budget d = s.budget d := rfl

theorem raise_budget (pg : Page) (n : Nat) : (s.raise pg n).budget d = s.budget d := by
  unfold raise raiseMask
  dsimp only
  split <;> rfl

theorem raiseIf_budget (c : Prop) [Decidable c] (pg : Page) (n : Nat) : (if c then s.raise pg n else s).budget d = s.budget d := by
  split
  · exact raise_budget _ _ _ _
  · rfl

theorem noteCause_words (m : Bool) : WordsIn (powerKeys d) s (s.noteCause d m) := by
  unfold noteCause
  exact (WordsIn.refl s).withField (powerKeys_intro _ (by decide) (by decide))

theorem takeCap_words (cap : Nat) (m : Bool) : WordsIn (powerKeys d) s (s.takeCap d cap m) := by
  have hcap : WordsIn (powerKeys d) s (if decide (s.getF (pwrPg d) Reg.PWR_CAP < cap) then s else s.setF (pwrPg d) Reg.PWR_CAP cap) := by
    split
    · exact .refl s
    · exact (WordsIn.refl s).withField (powerKeys_intro _ (by decide) (by decide))
  have hset (x : Budget) := hcap.trans (wordsIn_of_regs (K := powerKeys d) (setBudget_regs _ d x) (setBudget_fuses _ d x))
  unfold takeCap
  dsimp only
  exact ((hset _).withRaiseIf _ (powerKeys_intro _ (by decide) (by decide))).trans (noteCause_words _ d m)

/-- A cap that is lower takes effect at once, and one that is higher waits (R562). -/
theorem takeCap_takes (cap : Nat) (m : Bool) :
    if s.getF (pwrPg d) Reg.PWR_CAP < cap then ((s.takeCap d cap m).budget d).raised = some cap
    else (s.takeCap d cap m).getF (pwrPg d) Reg.PWR_CAP = cap % 2 ^ 16 := by
  have hcause (t : State) : (t.noteCause d m).getF (pwrPg d) Reg.PWR_CAP = t.getF (pwrPg d) Reg.PWR_CAP := by
    unfold noteCause
    exact getF_setF_other _ _ _ _ _ _ _ _ (regKey_ne_of_offset (by decide))
  have hraise (t : State) (c : Prop) [Decidable c] (n : Nat) :
      (if c then t.raise (pwrPg d) n else t).getF (pwrPg d) Reg.PWR_CAP = t.getF (pwrPg d) Reg.PWR_CAP := by
    split
    · exact getF_raise_other _ _ _ _ _ _ (regKey_ne_of_offset (by decide))
    · rfl
  unfold takeCap
  dsimp only
  split
  · next h =>
    simp only [h, decide_true, if_true]
    rw [noteCause_budget, raiseIf_budget, budget_setBudget_same]
  · next h =>
    simp only [h, decide_false, if_false, Bool.false_eq_true]
    rw [hcause, hraise]
    exact getF_setF_same s _ Reg.PWR_CAP _ _ (by decide)

theorem roundTick_words (l : List (Die × Nat)) : WordsIn (powerKeys d) s (s.roundTick l d) := by
  have hk (o : Nat) (ho : o < 4096) (h : o / 4 ≠ 0x10) : powerKeys d (regKey (pwrPg d) o 0) := powerKeys_intro o ho h
  have hcap : WordsIn (powerKeys d) s (if (s.getF (pwrPg d) Reg.PWR_ROUND == 0) = true then s
      else if s.roundWhole (s.budget d).got then s.takeCap d (s.capOf (s.budget d).got d) false
      else ((s.bump (pwrPg d) Reg.PWR_MISSED).raise (pwrPg d) 0).takeCap d (s.limitsOf d).1 true) := by
    split
    · exact .refl s
    · split
      · exact takeCap_words _ _ _ _
      · exact (((WordsIn.refl s).withBump (hk _ (by decide) (by decide))).withRaise (hk _ (by decide) (by decide))).trans (takeCap_words _ _ _ _)
  unfold roundTick
  dsimp only
  exact (((hcap.withField (hk _ (by decide) (by decide))).withField (hk _ (by decide) (by decide))).withWord
    (hk _ (by decide) (by decide))).trans (wordsIn_of_regs (setBudget_regs _ d _) (setBudget_fuses _ d _))

variable {d e}

theorem takeCap_budget_other (h : d ≠ e) (cap : Nat) (m : Bool) : (s.takeCap e cap m).budget d = s.budget d := by
  unfold takeCap
  dsimp only
  rw [noteCause_budget, raiseIf_budget, budget_setBudget_other _ _ _ _ h]
  split <;> rfl

/-- The tick of one die leaves the rounds of the others. -/
theorem roundTick_budget_other (h : d ≠ e) (l : List (Die × Nat)) : (s.roundTick l e).budget d = s.budget d := by
  unfold roundTick
  dsimp only
  rw [budget_setBudget_other _ _ _ _ h]
  change (if _ then _ else if _ then _ else _ : State).budget d = _
  split
  · rfl
  · split
    · exact takeCap_budget_other _ h _ _
    · rw [takeCap_budget_other _ h, raise_budget]
      rfl

/-- A die whose round is whole takes the cap that its messages give (R560, R562). -/
theorem roundTick_takes (l : List (Die × Nat)) (hr : s.getF (pwrPg d) Reg.PWR_ROUND ≠ 0) (hw : s.roundWhole (s.budget d).got = true) :
    if s.getF (pwrPg d) Reg.PWR_CAP < s.capOf (s.budget d).got d
    then ((s.roundTick l d).budget d).raised = some (s.capOf (s.budget d).got d)
    else (s.roundTick l d).getF (pwrPg d) Reg.PWR_CAP = s.capOf (s.budget d).got d % 2 ^ 16 := by
  have hne : (s.getF (pwrPg d) Reg.PWR_ROUND == 0) = false := by simpa using hr
  have hcap := s.takeCap_takes d (s.capOf (s.budget d).got d) false
  unfold roundTick
  dsimp only
  simp only [hne, Bool.false_eq_true, if_false, hw, if_true]
  split
  · next h =>
    rw [if_pos h] at hcap
    rw [budget_setBudget_same]
    dsimp only
    rw [setWord_budget, setF_budget, setF_budget]
    exact hcap
  · next h =>
    rw [if_neg h] at hcap
    have hk {o o' : Nat} (h : o / 4 ≠ o' / 4) : regKey (pwrPg d) o 0 ≠ regKey (pwrPg d) o' 0 := regKey_ne_of_offset h
    rw [getF_setBudget, getF_setWord_other _ _ _ Reg.PWR_CAP _ _ _ _ (hk (by decide)),
      getF_setF_other _ _ _ Reg.PWR_MEAS Reg.PWR_CAP _ _ _ (hk (by decide)),
      getF_setF_other _ _ _ Reg.PWR_DEMAND Reg.PWR_CAP _ _ _ (hk (by decide))]
    exact hcap

end Ticks

/-! ### A round of all dies -/

/-- What a die's tick reads of the state, so far as the ticks of other dies leave it. -/
def SameRound (s t : State) (d : Die) : Prop :=
  t.budget d = s.budget d ∧ (∀ pg f b, ¬ (∃ e, e ≠ d ∧ powerKeys e (regKey pg f.off b)) → t.getF pg f b = s.getF pg f b)

theorem sameRound_of_tick {s t : State} {d e : Die} (he : e ≠ d) (l : List (Die × Nat)) (h : SameRound s t d) : SameRound s (t.roundTick l e) d := by
  obtain ⟨hb, hw⟩ := h
  exact ⟨(roundTick_budget_other t he.symm l).trans hb, fun pg f b hk =>
    ((roundTick_words t e l).getF fun h => hk ⟨e, he, h⟩).trans (hw pg f b hk)⟩

theorem sameRound_of_ticks {s : State} {d : Die} (l : List (Die × Nat)) (es : List Die) (h : d ∉ es) :
    SameRound s (es.foldl (fun t e => t.roundTick l e) s) d :=
  List.foldlRecOn (motive := fun t : State => SameRound s t d) _ _ ⟨rfl, fun _ _ _ _ => rfl⟩
    fun _ ht e he => sameRound_of_tick (fun hde : e = d => h (hde ▸ he)) l ht

section SameRound

variable {s t : State} {d : Die}

theorem SameRound.ofDie (h : SameRound s t d) (f : Fld) (ho : f.off < 4096) : t.getF (pwrPg d) f = s.getF (pwrPg d) f :=
  h.2 _ _ _ fun ⟨e, he, hk⟩ => not_powerKeys_of_page (fun hp => he (by injection hp with h; exact h.symm)) (show 0 < 256 by decide) ho hk

theorem SameRound.ofMgmt (h : SameRound s t d) (f : Fld) (ho : f.off < 4096) : t.getF mgmtPg f = s.getF mgmtPg f :=
  h.2 _ _ _ fun ⟨e, _, hk⟩ => not_powerKeys_of_page (by unfold pwrPg mgmtPg; simp) (by decide) ho hk

theorem SameRound.ofBudget (h : SameRound s t d) : t.getF (pwrPg .N0) Reg.PWR_MODULE_BUDGET_W = s.getF (pwrPg .N0) Reg.PWR_MODULE_BUDGET_W :=
  h.2 _ _ _ fun ⟨e, _, hk⟩ => not_powerKeys_budget e (by decide) hk

theorem SameRound.activeDies (h : SameRound s t d) : t.activeDies = s.activeDies := by
  unfold State.activeDies State.active State.dieUnusable
  rw [h.ofMgmt _ (by decide)]

theorem SameRound.limitsOf (h : SameRound s t d) : t.limitsOf = s.limitsOf := by
  funext e
  unfold State.limitsOf State.dieParked
  rw [h.ofMgmt _ (by decide)]

theorem SameRound.capOf (h : SameRound s t d) (got : SMap Nat) (e : Die) : t.capOf got e = s.capOf got e := by
  unfold State.capOf
  rw [h.activeDies, h.limitsOf, h.ofBudget]

theorem SameRound.roundWhole (h : SameRound s t d) (got : SMap Nat) : t.roundWhole got = s.roundWhole got := by
  unfold State.roundWhole
  rw [h.activeDies]

end SameRound

/-- The round's tick brings a die's cap to it (R560 to R562). -/
theorem round_takes {s : State} {d : Die} (l : List (Die × Nat)) (ha : s.active d = true) (hr : s.getF (pwrPg d) Reg.PWR_ROUND ≠ 0)
    (hw : s.roundWhole (s.budget d).got = true) :
    if s.getF (pwrPg d) Reg.PWR_CAP < s.capOf (s.budget d).got d
    then ((s.activeDies.foldl (fun t d => t.roundTick l d) s).budget d).raised = some (s.capOf (s.budget d).got d)
    else (s.activeDies.foldl (fun t d => t.roundTick l d) s).getF (pwrPg d) Reg.PWR_CAP = s.capOf (s.budget d).got d % 2 ^ 16 := by
  have hmem : d ∈ s.activeDies := List.mem_filter.2 ⟨mem_allDies d, ha⟩
  have hnd : s.activeDies.Nodup := allDies_nodup.filter _
  obtain ⟨es, fs, hes⟩ := List.append_of_mem hmem
  rw [hes] at hnd ⊢
  have hd := List.nodup_middle.1 hnd
  rw [List.nodup_cons, List.mem_append, not_or] at hd
  obtain ⟨⟨hde, hdf⟩, -⟩ := hd
  rw [List.foldl_append, List.foldl_cons]
  have hpre := sameRound_of_ticks (s := s) l es hde
  generalize es.foldl (fun t d => t.roundTick l d) s = t at hpre ⊢
  have hpost := sameRound_of_ticks (s := t.roundTick l d) l fs hdf
  have htick := t.roundTick_takes (d := d) l
  rw [hpre.ofDie _ (by decide), hpre.ofDie _ (by decide), hpre.roundWhole, hpre.capOf, hpre.1] at htick
  rw [hpost.1, hpost.ofDie _ (by decide)]
  exact htick hr hw

/-! ### The rule of R560 -/

theorem foldl_add_eq_sum (f : Die → Nat) (l : List Die) : l.foldl (fun a e => a + f e) 0 = (l.map f).sum := by
  rw [← List.foldl_map (f := f) (g := fun a b => a + b), List.sum_eq_foldl]

/-- The floors of the dies that take part. -/
def floors (s : State) : Nat := (s.activeDies.map fun e => (s.limitsOf e).1).sum

/-- What a die asks for above its floor. -/
def excess (s : State) (got : SMap Nat) (e : Die) : Nat := SMap.getD got (dieCode e) 0 - (s.limitsOf e).1

/-- What the budget leaves above the floors, in units of 0.1 W (R560). -/
def spare (s : State) : Nat := (s.getF (pwrPg .N0) Reg.PWR_MODULE_BUDGET_W - 420) * 10 - s.floors

theorem capOf_eq (s : State) (got : SMap Nat) (d : Die) : s.capOf got d =
    if (s.activeDies.map (s.excess got)).sum ≤ s.spare then SMap.getD got (dieCode d) 0
    else (s.limitsOf d).1 + s.excess got d * s.spare / (s.activeDies.map (s.excess got)).sum := by
  unfold capOf spare floors
  rw [← foldl_add_eq_sum, ← foldl_add_eq_sum]
  rfl

/-- Shares of a number, each rounded down, come to no more than it. -/
theorem sum_shares_le (f : Die → Nat) (r n : Nat) (l : List Die) (h : (l.map f).sum ≤ n) :
    (l.map fun e => f e * r / n).sum ≤ r := by
  have hdiv : ∀ l : List Die, (l.map fun e => f e * r / n).sum ≤ (l.map f).sum * r / n := fun l => by
    induction l with
    | nil => simp
    | cons e l ih =>
      rw [List.map_cons, List.map_cons, List.sum_cons, List.sum_cons, Nat.add_mul]
      exact (Nat.add_le_add_left ih _).trans Nat.div_add_div_le_add_div
  refine (hdiv l).trans ?_
  rcases Nat.eq_zero_or_pos n with rfl | hn
  · simp
  · exact (Nat.div_le_div_right (Nat.mul_le_mul_right r h)).trans_eq (Nat.mul_div_cancel_left r hn)

/-- The caps of a round fit the budget less 420 W, where the floors do (R560, R561). -/
theorem sum_capOf_le (s : State) (got : SMap Nat) (h : s.floors ≤ (s.getF (pwrPg .N0) Reg.PWR_MODULE_BUDGET_W - 420) * 10) :
    (s.activeDies.map fun e => s.capOf got e).sum ≤ (s.getF (pwrPg .N0) Reg.PWR_MODULE_BUDGET_W - 420) * 10 := by
  have hspare : s.floors + s.spare = (s.getF (pwrPg .N0) Reg.PWR_MODULE_BUDGET_W - 420) * 10 := Nat.add_sub_cancel' h
  rw [← hspare]
  by_cases hfit : (s.activeDies.map (s.excess got)).sum ≤ s.spare
  · have hle : (s.activeDies.map fun e => s.capOf got e).sum ≤ (s.activeDies.map fun e => (s.limitsOf e).1 + s.excess got e).sum :=
      List.sum_le_sum fun e _ => by
        rw [capOf_eq, if_pos hfit, excess]
        omega
    rw [List.sum_map_add] at hle
    exact hle.trans (Nat.add_le_add_left hfit _)
  · have heq : (s.activeDies.map fun e => s.capOf got e) =
        s.activeDies.map fun e => (s.limitsOf e).1 + s.excess got e * s.spare / (s.activeDies.map (s.excess got)).sum :=
      List.map_congr_left fun e _ => by rw [capOf_eq, if_neg hfit]
    rw [heq, List.sum_map_add]
    exact Nat.add_le_add_left (sum_shares_le _ _ _ _ le_rfl) _

end State

/-- A command of the power controllers, which run, comes about (R559, R615). -/
theorem powerAct_of_powered {s : State} (h : s.Powered) (f : State → State) : powerAct s f = .next (f s) := by
  obtain ⟨hm, hb⟩ := h
  simp [powerAct, hm, hb]

/-- A round's tick that is due (R559). -/
theorem exec_powerRound_of_due {s : State} (h : s.Powered) (l : List (Die × Nat))
    (hdue : s.getF (pwrPg .N0) Reg.PWR_ROUND ≠ 0 → (s.budget .N0).tickAt + 50000 ≤ s.aon) :
    exec (.powerRound l) s = .next (s.activeDies.foldl (fun t d => t.roundTick l d) s) := by
  have he : exec (.powerRound l) s = execPowerRound l s := rfl
  rw [he, execPowerRound, powerAct_of_powered h, if_neg]
  simpa using hdue

end Sys2Proof.Machine

namespace Sys2Proof

open Sys2Proof.Machine

/-- Settles O57: the rule is `capOf` with its sums written out (`capOf_eq`), the shares rounded down come to no more than what they share
(`sum_shares_le`), and the tick of one die leaves what the tick of another reads (`sameRound_of_ticks`). -/
theorem powerCapsFit : Obligations.PowerCapsFit := by
  unfold Obligations.PowerCapsFit
  refine ⟨fun got d r sum s _ hr _ hsum => ?_, fun got s => s.sum_capOf_le got, fun l d s hp ha hround hdue hw hcap =>
    ⟨_, exec_powerRound_of_due hp l hdue, ?_⟩⟩
  · have hspare : s.spare = r := by
      unfold State.spare State.floors
      omega
    rw [s.capOf_eq, hspare, hsum]
    rfl
  · have h := State.round_takes l ha hround hw
    rwa [Nat.mod_eq_of_lt hcap] at h

end Sys2Proof

/-! PROOFS. Freezes, the ledger, the flash and the service panel (R584, R585, R638 to R645, R653 to R675). -/

namespace Sys2Proof.Machine

namespace State

/-! ### What the shared updates leave -/

/-- A status bit raised changes the page's word and what is sent to the interrupt routes alone (R533). -/
theorem raise_eq (s : State) (pg : Page) (n : Nat) : ∃ r m, s.raise pg n = { s with regs := r, msiq := m } := by
  unfold raise raiseMask
  dsimp only
  split <;> exact ⟨_, _, rfl⟩

theorem raise_frozenAt (s : State) (pg : Page) (n : Nat) : (s.raise pg n).frozenAt = s.frozenAt := by
  obtain ⟨r, m, h⟩ := s.raise_eq pg n
  rw [h]

theorem pldm_sameMemory (s : State) (e : String) : SameMemory s (s.pldm e) := ⟨rfl, rfl, rfl⟩

theorem setF_sameMemory (s : State) (pg : Page) (f : Fld) (v b : Nat) : SameMemory s (s.setF pg f v b) := ⟨rfl, rfl, rfl⟩

theorem bump_sameMemory (s : State) (pg : Page) (f : Fld) (n b : Nat) : SameMemory s (s.bump pg f n b) := ⟨rfl, rfl, rfl⟩

theorem getF_lt (s : State) (pg : Page) (f : Fld) (b : Nat) : s.getF pg f b < 2 ^ f.w := bitsOf_lt _ _ _

/-- Another word of the same page stays. -/
theorem getF_setF_offset (s : State) (pg : Page) (f g : Fld) (v : Nat) (h : g.off / 4 ≠ f.off / 4) :
    (s.setF pg f v).getF pg g = s.getF pg g := getF_setF_other _ _ _ _ _ _ _ _ (regKey_ne_of_offset h)

theorem getF_bump_offset (s : State) (pg : Page) (f g : Fld) (n : Nat) (h : g.off / 4 ≠ f.off / 4) :
    (s.bump pg f n).getF pg g = s.getF pg g := getF_setF_offset _ _ _ _ _ h

theorem getF_raise_offset (s : State) (pg : Page) (g : Fld) (n : Nat) (h : g.off / 4 ≠ 8) : (s.raise pg n).getF pg g = s.getF pg g :=
  getF_raise_other _ _ _ _ _ _ (regKey_ne_of_offset h)

/-! ### Freezes (R639 to R645) -/

/-- A module that runs freezes: the kind and the source stand in FRZ_STAT, and the time is noted (R639). -/
theorem freezeStart_freezes {s : State} (hm : s.getF pciePg Reg.PCIE_HSW_MAIN_ON = 1) (hf : s.frozen = false) {kind source : Nat}
    (hk : kind < 2) (hs : source < 8) :
    (s.freezeStart kind source).getF frzPg Reg.FRZ_STAT_STATE = 2 ∧ (s.freezeStart kind source).getF frzPg Reg.FRZ_STAT_KIND = kind
      ∧ (s.freezeStart kind source).getF frzPg Reg.FRZ_STAT_SOURCE = source ∧ (s.freezeStart kind source).frozenAt = s.aon
      ∧ SameMemory s (s.freezeStart kind source) := by
  have hcond : ¬ (s.frozen || s.getF pciePg Reg.PCIE_HSW_MAIN_ON != 1) = true := by simp [hf, hm]
  have hwith (t : State) (a : Nat) (b : Bool) (f : Fld) :
      State.getF { t with frozenAt := a, thawBarred := b } frzPg f = t.getF frzPg f := rfl
  unfold freezeStart
  rw [if_neg hcond]
  dsimp only
  refine ⟨?_, ?_, ?_, ?_, ?_⟩
  · rw [pldm_getF, getF_raise_offset _ _ _ _ (by decide), getF_bump_offset _ _ _ _ _ (by decide), hwith,
      getF_setF_beside _ _ _ _ _ _ (by decide) (by decide) (by decide), getF_setF_beside _ _ _ _ _ _ (by decide) (by decide) (by decide),
      getF_setF_same _ _ _ _ _ (by decide)]
    rfl
  · rw [pldm_getF, getF_raise_offset _ _ _ _ (by decide), getF_bump_offset _ _ _ _ _ (by decide), hwith,
      getF_setF_beside _ _ _ _ _ _ (by decide) (by decide) (by decide), getF_setF_same _ _ _ _ _ (by decide)]
    exact Nat.mod_eq_of_lt hk
  · rw [pldm_getF, getF_raise_offset _ _ _ _ (by decide), getF_bump_offset _ _ _ _ _ (by decide), hwith,
      getF_setF_same _ _ _ _ _ (by decide)]
    exact Nat.mod_eq_of_lt hs
  · exact raise_frozenAt _ _ _
  · refine SameMemory.trans ?_ (pldm_sameMemory _ _)
    refine SameMemory.trans ?_ (raise_sameMemory _ _ _)
    exact ⟨rfl, rfl, rfl⟩

/-- A debug freeze that lost no link and whose state stands unmodified thaws (R645). -/
theorem thawNow_thaws {s : State} (hst : s.getF frzPg Reg.FRZ_STAT_STATE = 2) (hb : s.thawBarred = false)
    (hk : s.getF frzPg Reg.FRZ_STAT_KIND = 0) (ht : s.getF frzPg Reg.FRZ_STAT_TIMEOUTS = 0)
    (hm : s.getF frzPg Reg.FRZ_STAT_MODIFIED = 0) :
    s.thawNow.getF frzPg Reg.FRZ_STAT_STATE = 0 ∧ SameMemory s s.thawNow := by
  unfold thawNow
  rw [if_pos (by simp [hst, hb, hk, ht, hm])]
  constructor
  · rw [getF_raise_offset _ _ _ _ (by decide), getF_setF_offset _ _ _ _ _ (by decide), getF_setF_same _ _ _ _ _ (by decide)]
    rfl
  · exact SameMemory.trans ⟨rfl, rfl, rfl⟩ (raise_sameMemory _ _ _)

/-- Any other freeze does not (R645). -/
theorem thawNow_rejected {s : State} (h : s.getF frzPg Reg.FRZ_STAT_KIND ≠ 0 ∨ s.getF frzPg Reg.FRZ_STAT_TIMEOUTS ≠ 0
    ∨ s.getF frzPg Reg.FRZ_STAT_MODIFIED ≠ 0) : s.thawNow = s.setF frzPg Reg.FRZ_CMD_REJECTED 1 := by
  unfold thawNow
  rw [if_neg]
  rcases h with h | h | h <;> simp [h]

end State

section Freezes

variable {s : State}

theorem exec_freezeDebug_of_auxOn (h : s.AuxOn) : exec .freezeDebug s = .next (s.freezeStart 0 2) :=
  (show exec .freezeDebug s = execFreezeDebug s from rfl).trans (auxAct_of_auxOn h _)

theorem exec_freezeCapture_of_auxOn (h : s.AuxOn) : exec .freezeCapture s = .next (s.freezeStart 1 2) :=
  (show exec .freezeCapture s = execFreezeCapture s from rfl).trans (auxAct_of_auxOn h _)

theorem exec_pldmFreeze_of_busesOn (h : s.BusesOn) : exec .pldmFreeze s = .next (s.freezeStart 0 3) :=
  (show exec .pldmFreeze s = execPldmFreeze s from rfl).trans (mcAct_of_busesOn h _)

theorem exec_freezeN_of_auxOn (h : s.AuxOn) : exec .freezeN s = .next (s.freezeStart (1 - s.getF frzPg Reg.FRZ_CFG_PIN_MODE) 1) :=
  (show exec .freezeN s = execFreezeN s from rfl).trans (auxAct_of_auxOn h _)

/-- THAW of software and of the baseboard act alike (R645). -/
theorem exec_thaw_of_busesOn (h : s.BusesOn) {c : Instr} (hc : c ∈ [Instr.thaw, Instr.pldmThaw]) : exec c s = .next s.thawNow := by
  simp only [List.mem_cons, List.not_mem_nil, or_false] at hc
  rcases hc with rfl | rfl
  · exact (show exec .thaw s = execThaw s from rfl).trans (auxAct_of_auxOn h.1 _)
  · exact (show exec .pldmThaw s = execPldmThaw s from rfl).trans (mcAct_of_busesOn h _)

/-- A shift that changes the state and an instrument's write are noted (R643). -/
theorem exec_modify_of_inspectOn (h : s.AuxOn) (hi : s.inspectOn = true) {c : Instr} (hc : c ∈ [Instr.scanShift false, Instr.instrumentWrite]) :
    exec c s = .next (s.setF frzPg Reg.FRZ_STAT_MODIFIED 1) := by
  simp only [List.mem_cons, List.not_mem_nil, or_false] at hc
  rcases hc with rfl | rfl
  · have he : exec (.scanShift false) s = execScanShift false s := rfl
    rw [he, execScanShift, auxAct_of_auxOn h, hi]
    rfl
  · have he : exec .instrumentWrite s = execInstrumentWrite s := rfl
    rw [he, execInstrumentWrite, auxAct_of_auxOn h, if_pos hi]

theorem exec_scanShift_recirculate : exec (.scanShift true) s = .next s := by
  have he : exec (.scanShift true) s = execScanShift true s := rfl
  rw [he, execScanShift, auxAct]
  simp

theorem exec_thawLimitExpiry_of_past (h : s.AuxOn) (hf : s.frozen = true)
    (hp : s.frozenAt + s.getF frzPg Reg.FRZ_THAW_LIMIT_MS * 10 ^ 6 < s.aon) : exec .thawLimitExpiry s = .next (s.linkTimeout 3) := by
  have he : exec .thawLimitExpiry s = execThawLimitExpiry s := rfl
  rw [he, execThawLimitExpiry, auxAct_of_auxOn h, if_pos (by rw [hf, decide_eq_true hp]; rfl)]

theorem notePromise_inspectOn (u : State) : (s.notePromise u).inspectOn = u.inspectOn := by
  unfold State.notePromise
  split
  · rfl
  · obtain ⟨r, m, h⟩ := u.raise_eq cptPg 1
    simp

end Freezes

end Sys2Proof.Machine

namespace Sys2Proof

open Sys2Proof.Machine

/-- Settles O28: a freeze is `freezeStart` and a thaw `thawNow`, whichever command asks. That the pin is a pulse, so that no THAW waits for it, and
that a module that is not frozen refuses a THAW whose other conditions fail are the model's choice (log 56). -/
theorem freezesThaw : Obligations.FreezesThaw := by
  unfold Obligations.FreezesThaw
  refine ⟨fun p hp s h h2 hm hf => ?_, fun s h hm hf => ?_, fun p hp s h h2 hst hb hk ht hmod => ?_, fun p hp s h h2 hno => ?_,
    fun s h hf hpast => exec_thawLimitExpiry_of_past h hf hpast, fun p hp s h hi => exec_modify_of_inspectOn h hi hp,
    fun s => exec_scanShift_recirculate, fun v s h => ?_⟩
  · simp only [List.mem_cons, List.not_mem_nil, or_false] at hp
    rcases hp with rfl | rfl | rfl
    · exact ⟨_, exec_freezeDebug_of_auxOn h, State.freezeStart_freezes hm hf (by decide) (by decide)⟩
    · exact ⟨_, exec_freezeCapture_of_auxOn h, State.freezeStart_freezes hm hf (by decide) (by decide)⟩
    · exact ⟨_, exec_pldmFreeze_of_busesOn ⟨h, h2⟩, State.freezeStart_freezes hm hf (by decide) (by decide)⟩
  · obtain ⟨hst, hk, hs, -, -⟩ := State.freezeStart_freezes hm hf (kind := 1 - s.getF frzPg Reg.FRZ_CFG_PIN_MODE) (source := 1)
      (by omega) (by decide)
    exact ⟨_, exec_freezeN_of_auxOn h, hst, hk, hs⟩
  · exact ⟨_, exec_thaw_of_busesOn ⟨h, h2⟩ hp, State.thawNow_thaws hst hb hk ht hmod⟩
  · rw [exec_thaw_of_busesOn ⟨h, h2⟩ hp, State.thawNow_rejected hno]
  · exact ⟨_, (show exec (.inspectEn v) s = execInspectEn v s from rfl).trans (auxAct_of_auxOn h _), notePromise_inspectOn _⟩

end Sys2Proof

/-! PROOFS. Management buses, service panel, ledger and flash (R584, R585, R653 to R675). -/

namespace Sys2Proof.Machine

namespace State

/-! ### Locate and sounder (R670) -/

/-- A locate of `n` seconds, which 0 stops (R670). -/
def locateFor (s : State) (n : Nat) : State :=
  State.setF { s with locateEnd := s.aon + n * 10 ^ 9 } svcPg Reg.SVC_LOCATE_ACTIVE (if n = 0 then 0 else 1)

theorem locateFor_active (s : State) (n : Nat) : (s.locateFor n).getF svcPg Reg.SVC_LOCATE_ACTIVE = if n = 0 then 0 else 1 := by
  unfold locateFor
  rw [getF_setF_same _ _ _ _ _ (by decide)]
  split <;> rfl

/-- The sounder latched off after its fifth retry (R670). -/
def latchOff (s : State) : State :=
  (((s.setF svcPg Reg.SVC_SND_RETRIES 5).setF svcPg Reg.SVC_SND_LATCHED 1).raise svcPg 0).pldm "sounder latched off"

theorem latchOff_latched (s : State) : s.latchOff.getF svcPg Reg.SVC_SND_LATCHED = 1 ∧ s.latchOff.getF svcPg Reg.SVC_SND_RETRIES = 5 := by
  unfold latchOff
  rw [pldm_getF, pldm_getF, getF_raise_offset _ _ _ _ (by decide), getF_raise_offset _ _ _ _ (by decide),
    getF_setF_same _ _ _ _ _ (by decide), getF_setF_beside _ _ _ _ _ _ (by decide) (by decide) (by decide),
    getF_setF_same _ _ _ _ _ (by decide)]
  exact ⟨rfl, rfl⟩

/-- The sounder's faults cleared (R670). -/
def soundClear (s : State) : State :=
  ((State.setF { s with soundAt := 0 } svcPg Reg.SVC_SND_FAULT 0).setF svcPg Reg.SVC_SND_RETRIES 0).setF svcPg Reg.SVC_SND_LATCHED 0

theorem soundClear_clear (s : State) : s.soundClear.getF svcPg Reg.SVC_SND_FAULT = 0 ∧ s.soundClear.getF svcPg Reg.SVC_SND_RETRIES = 0
    ∧ s.soundClear.getF svcPg Reg.SVC_SND_LATCHED = 0 := by
  unfold soundClear
  refine ⟨?_, ?_, getF_setF_same _ _ _ _ _ (by decide)⟩
  · rw [getF_setF_beside _ _ _ _ _ _ (by decide) (by decide) (by decide), getF_setF_beside _ _ _ _ _ _ (by decide) (by decide) (by decide)]
    exact getF_setF_same _ _ _ _ _ (by decide)
  · rw [getF_setF_beside _ _ _ _ _ _ (by decide) (by decide) (by decide)]
    exact getF_setF_same _ _ _ _ _ (by decide)

/-! ### The tag (R668) -/

theorem ledg_draws (s : State) (k : LedgKind) (la : List Nat) : (s.ledg k la).getF svcPg Reg.SVC_TAG_DRAWS = s.getF svcPg Reg.SVC_TAG_DRAWS :=
  getF_ledg_other _ _ _ _ _ _ _ (by decide)

theorem withPanel_getF (s : State) (p : Panel) (pg : Page) (f : Fld) (b : Nat) : State.getF { s with panel := p } pg f b = s.getF pg f b := rfl

theorem drawStart_draws (s : State) : s.drawStart.getF svcPg Reg.SVC_TAG_DRAWS = s.getF svcPg Reg.SVC_TAG_DRAWS := by
  unfold drawStart
  dsimp only
  rw [ledg_draws, getF_setF_offset _ _ _ _ _ (by decide), withPanel_getF]

/-- The image of a drawing that has ended is whole and counted (R668). -/
def tagWhole (s : State) : State :=
  ((State.setF { s with panel := { s.panel with band := true } } svcPg Reg.SVC_TAG_STAT_DRAWING 0).bump svcPg Reg.SVC_TAG_DRAWS).ledg
    .refreshDone []

theorem tagWhole_draws {s : State} (h : s.getF svcPg Reg.SVC_TAG_DRAWS < 2 ^ 32 - 1) :
    s.tagWhole.getF svcPg Reg.SVC_TAG_DRAWS = s.getF svcPg Reg.SVC_TAG_DRAWS + 1 := by
  unfold tagWhole
  rw [ledg_draws, getF_bump_same _ _ _ _ _ (by decide), getF_setF_offset _ _ _ _ _ (by decide), withPanel_getF]
  change min _ (2 ^ 32 - 1) = _
  omega

/-- What follows a drawing: the latch unlocks in SAFE, and a change that came meanwhile is drawn (R592, R668). -/
def tagNext (s : State) : State :=
  let t := if s.panel.safe && s.hpState == 5 then s.setF pciePg Reg.PCIE_HP_STATE_LATCH_LOCKED 0 else s
  if t.getF svcPg Reg.SVC_TAG_STAT_QUEUED == 1 || t.panelStale then (t.setF svcPg Reg.SVC_TAG_STAT_QUEUED 0).drawStart else t

theorem tagNext_draws (s : State) : s.tagNext.getF svcPg Reg.SVC_TAG_DRAWS = s.getF svcPg Reg.SVC_TAG_DRAWS := by
  have hlatch : (if s.panel.safe && s.hpState == 5 then s.setF pciePg Reg.PCIE_HP_STATE_LATCH_LOCKED 0 else s).getF svcPg Reg.SVC_TAG_DRAWS =
      s.getF svcPg Reg.SVC_TAG_DRAWS := by
    split
    · exact getF_setF_other _ _ _ _ _ _ _ _ (by decide)
    · rfl
  unfold tagNext
  generalize (if s.panel.safe && s.hpState == 5 then s.setF pciePg Reg.PCIE_HP_STATE_LATCH_LOCKED 0 else s) = t at hlatch ⊢
  dsimp only
  split
  · rw [drawStart_draws, getF_setF_offset _ _ _ _ _ (by decide), hlatch]
  · exact hlatch

end State

section Panel

variable {s : State}

theorem exec_pldmIdentify_of_busesOn (h : s.BusesOn) {n : Nat} (hn : n < 2 ^ 16) : exec (.pldmIdentify n) s = .next (s.locateFor n) := by
  have he : exec (.pldmIdentify n) s = execPldmIdentify n s := rfl
  rw [he, execPldmIdentify, mcAct_of_busesOn h, Nat.min_eq_left (by omega)]
  simp only [beq_iff_eq, State.locateFor]

theorem exec_svcLocate_of_auxOn (h : s.AuxOn) (v : W32) : exec (.svcLocate v) s = .next (s.locateFor (v.toNat % 2 ^ 16)) := by
  have he : exec (.svcLocate v) s = execSvcLocate v s := rfl
  rw [he, execSvcLocate, auxAct_of_auxOn h]
  simp only [beq_iff_eq, State.locateFor]

theorem exec_locateExpiry_of_past (h : s.AuxOn) (hp : s.locateEnd ≤ s.aon) :
    exec .locateExpiry s = .next (s.setF svcPg Reg.SVC_LOCATE_ACTIVE 0) := by
  have he : exec .locateExpiry s = execLocateExpiry s := rfl
  rw [he, execLocateExpiry, auxAct_of_auxOn h, if_pos hp]

theorem exec_sounderShort_of_sounding (h : s.AuxOn) (ha : s.getF svcPg Reg.SVC_LOCATE_ACTIVE = 1) (hl : s.getF svcPg Reg.SVC_SND_LATCHED = 0)
    (hs : s.soundAt = 0) :
    exec .sounderShort s = .next (State.setF { s with soundAt := s.aon + 2 * 10 ^ 9 } svcPg Reg.SVC_SND_FAULT 1) := by
  have he : exec .sounderShort s = execSounderShort s := rfl
  rw [he, execSounderShort, auxAct_of_auxOn h, if_pos (by rw [ha, hl, hs]; rfl)]

theorem exec_sounderRetry_fifth (h : s.AuxOn) (hs : s.soundAt ≠ 0) (hp : s.soundAt ≤ s.aon) (hr : s.getF svcPg Reg.SVC_SND_RETRIES = 4)
    (hl : s.getF svcPg Reg.SVC_SND_LATCHED = 0) : exec (.sounderRetry true) s = .next s.latchOff := by
  have he : exec (.sounderRetry true) s = execSounderRetry true s := rfl
  rw [he, execSounderRetry, auxAct_of_auxOn h]
  dsimp only
  rw [if_pos (by simp [hs, hp, hr, hl]), hr]
  rfl

theorem exec_serviceTagDraw_first (h : s.AuxOn) (hd : s.getF svcPg Reg.SVC_TAG_STAT_DRAWING = 0) (hp : s.panelStale = true)
    (hn : s.panel.drawnAt = none) : exec .serviceTagDraw s = .next s.drawStart := by
  have he : exec .serviceTagDraw s = execServiceTagDraw s := rfl
  rw [he, execServiceTagDraw, auxAct_of_auxOn h]
  dsimp only
  rw [if_pos (by rw [hd, hp, hn]; rfl)]

theorem exec_tagRefreshDone_of_drawn (h : s.AuxOn) (hd : s.getF svcPg Reg.SVC_TAG_STAT_DRAWING = 1)
    (hp : s.panel.drawnAt.getD 0 + 1800000000 ≤ s.aon) : exec .tagRefreshDone s = .next s.tagWhole.tagNext := by
  have he : exec .tagRefreshDone s = execTagRefreshDone s := rfl
  rw [he, execTagRefreshDone, auxAct_of_auxOn h, if_pos (by simp [hd, hp])]
  rfl

theorem exec_svcSndClear_of_auxOn (h : s.AuxOn) : exec .svcSndClear s = .next s.soundClear :=
  (show exec .svcSndClear s = execSvcSndClear s from rfl).trans (auxAct_of_auxOn h _)

end Panel

namespace State

/-! ### The hourly record (R653, R654, R656) -/

/-- The wear of both dies' flash brought to their registers. -/
def noteWear (s : State) : State :=
  [0, 1].foldl (fun (t : State) nd =>
    (t.setF (whcPg nd) Reg.WHC_PE_MEAN ((t.flash nd).prog / (32 * 2 ^ 40))).setF (whcPg nd) Reg.WHC_PE_MAX (Config.peMax nd t.free).toNat) s

theorem noteWear_poh (s : State) : s.noteWear.getF ledgPg Reg.LEDG_POH = s.getF ledgPg Reg.LEDG_POH := by
  simp only [noteWear, List.foldl_cons, List.foldl_nil]
  rw [getF_setF_other _ _ _ _ _ _ _ _ (by decide), getF_setF_other _ _ _ _ _ _ _ _ (by decide),
    getF_setF_other _ _ _ _ _ _ _ _ (by decide), getF_setF_other _ _ _ _ _ _ _ _ (by decide)]

theorem noteWear_ledger (s : State) : s.noteWear.ledger = s.ledger := rfl

theorem noteWear_sameMemory (s : State) : SameMemory s s.noteWear := ⟨rfl, rfl, rfl⟩

/-- The hourly record of the integrals `vt` written, with the counts of uncorrectable codewords. -/
def writeHour (s : State) (vt : SMap Nat) : State :=
  s.drawFree.2.summary fun l => { l with
    hourly := (⟨s.getF ledgPg Reg.LEDG_POH, vt⟩ :: l.hourly).take 131072, uncorr := s.uncorrLife }

theorem writeHour_getF (s : State) (vt : SMap Nat) (pg : Page) (f : Fld) (b : Nat) : (s.writeHour vt).getF pg f b = s.getF pg f b := rfl

theorem writeHour_hourly (s : State) (vt : SMap Nat) : (s.writeHour vt).ledger.hourly.length = min (s.ledger.hourly.length + 1) 131072 := by
  have h : (s.writeHour vt).ledger.hourly = (⟨s.getF ledgPg Reg.LEDG_POH, vt⟩ :: s.ledger.hourly).take 131072 := rfl
  rw [h, List.length_take, List.length_cons, Nat.min_comm]

theorem writeHour_sameMemory (s : State) (vt : SMap Nat) : SameMemory s (s.writeHour vt) := ⟨rfl, rfl, rfl⟩

/-! ### Flash (R661 to R663) -/

theorem flash_setFlash (s : State) (nd : Nat) (x : Flash) : (s.setFlash nd x).flash nd = x := by
  have h : (s.setFlash nd x).whc = SMap.put s.whc nd x := rfl
  unfold flash
  rw [h, SMap.getD, SMap.find_put_same]
  rfl

theorem setF_flash (s : State) (pg : Page) (f : Fld) (v b nd : Nat) : (s.setF pg f v b).flash nd = s.flash nd := rfl

theorem startPacing_frame (s : State) (nd : Nat) : (s.startPacing nd).ledger = s.ledger
    ∧ (s.startPacing nd).getF (whcPg nd) Reg.WHC_STAT_WORN = s.getF (whcPg nd) Reg.WHC_STAT_WORN := by
  unfold startPacing
  split
  · exact ⟨rfl, rfl⟩
  · refine ⟨by rw [raise_ledger]; rfl, ?_⟩
    rw [getF_raise_offset _ _ _ _ (by show (20 : Nat) ≠ 8; decide), getF_setF_beside _ _ _ _ _ _ (by decide) (by decide) (by decide), setFlash]
    dsimp only
    rw [getF_setF_offset _ _ _ _ _ (by decide), getF_setF_offset _ _ _ _ _ (by decide), getF_setF_offset _ _ _ _ _ (by decide)]
    rfl

end State

section Ledger

variable {s : State}

/-- The record of an hour in which no voltage-time integral has grown (R653). -/
theorem exec_hourlyRecord_of_auxOn (h : s.AuxOn) : ∃ vt, exec (.hourlyRecord []) s =
    .next (if 131072 ≤ s.ledger.hourly.length
      then ((s.bump ledgPg Reg.LEDG_POH).noteWear.writeHour vt).setF ledgPg Reg.LEDG_STAT_HOURLY_WRAPPED 1
      else (s.bump ledgPg Reg.LEDG_POH).noteWear.writeHour vt) := by
  have he : exec (.hourlyRecord []) s = execHourlyRecord [] s := rfl
  rw [he, execHourlyRecord, auxAct_of_auxOn h]
  simp only [decide_eq_true_eq]
  exact ⟨_, rfl⟩

theorem exec_eraseAhead_of_few (h : s.AuxOn) (hf : s.getF ledgPg Reg.LEDG_FREE_PAGES < 64) :
    exec .eraseAhead s = .next (s.setF ledgPg Reg.LEDG_FREE_PAGES (s.getF ledgPg Reg.LEDG_FREE_PAGES + 16)) := by
  have he : exec .eraseAhead s = execEraseAhead s := rfl
  rw [he, execEraseAhead, auxAct_of_auxOn h, if_pos hf]

/-- A program that fails is reported, whether an erase failed before it or not (R658). -/
theorem exec_pageProgramFail_of_auxOn (h : s.AuxOn) (b : Bool) :
    ∃ u : State, exec (.pageProgramFail b) s = .next ((u.setF ledgPg Reg.LEDG_STAT_WRITE_FAIL 1).raise ledgPg 1) :=
  ⟨_, (show exec (.pageProgramFail b) s = execPageProgramFail b s from rfl).trans (auxAct_of_auxOn h _)⟩

end Ledger

section Flash

variable {s : State} {d : Die}

theorem exec_warehouseCreditExhausted_of_none (h : s.LiveOn d) (hn : isNet d = true) (hc : (s.flash (netNo d)).credit = 0) :
    exec (.warehouseCreditExhausted d) s = .next (s.startPacing (netNo d)) := by
  have he : exec (.warehouseCreditExhausted d) s = execWarehouseCreditExhausted d s := rfl
  rw [he, execWarehouseCreditExhausted, actD_of_liveOn h, if_pos (by rw [hn, hc]; rfl)]

/-- The flash is worn: its bit, the summary, the event's record and what is sent (R662). -/
def State.wearOut (s : State) (nd : Nat) : State :=
  ((((s.setF (State.whcPg nd) Reg.WHC_STAT_WORN 1).summary fun l => { l with worn := [nd] :: l.worn }).ledg .worn [nd]).raise
    (State.whcPg nd) 1).pldm "warehouse worn"

theorem exec_warehouseWorn_of_budget (h : s.LiveOn d) (hn : isNet d = true) (hb : whcBudget ≤ (s.flash (netNo d)).prog)
    (hw : s.getF (State.whcPg (netNo d)) Reg.WHC_STAT_WORN = 0) :
    exec (.warehouseWorn d) s = .next ((s.wearOut (netNo d)).startPacing (netNo d)) := by
  have he : exec (.warehouseWorn d) s = execWarehouseWorn d s := rfl
  rw [he, execWarehouseWorn, actD_of_liveOn h, if_pos (by rw [hn, hw, decide_eq_true hb]; rfl)]
  rfl

theorem State.ledg_worn (s : State) (k : LedgKind) (la : List Nat) : (s.ledg k la).ledger.worn = s.ledger.worn := by
  unfold State.ledg
  dsimp only
  split <;> rfl

theorem State.wearOut_worn (s : State) (nd : Nat) :
    (s.wearOut nd).ledger.worn = [nd] :: s.ledger.worn ∧ (s.wearOut nd).getF (State.whcPg nd) Reg.WHC_STAT_WORN = 1 := by
  have hother (f : Fld) (hf : f.off < 4096) : regKey (State.whcPg nd) Reg.WHC_STAT_WORN.off 0 ≠ regKey ledgPg f.off 0 :=
    regKey_ne_of_page (q := ledgPg) (show 0 < 256 by decide) (by decide) (by decide) hf (by decide) (by decide) (by unfold State.whcPg ledgPg; simp)
  unfold State.wearOut
  constructor
  · rw [State.pldm_ledger, State.raise_ledger, State.ledg_worn]
    rfl
  · rw [State.pldm_getF, State.getF_raise_offset _ _ _ _ (by decide), State.getF_ledg_other _ _ _ _ _ _ _ (hother _ (by decide))]
    exact State.getF_setF_same _ _ _ _ _ (by decide)

theorem exec_reserveLow_of_high (h : s.LiveOn d) (hn : isNet d = true)
    (hr : s.getF (State.whcPg (netNo d)) Reg.WHC_STAT_RESERVE_LOW = 0) : exec (.reserveLow d) s =
      .next ((s.setF (State.whcPg (netNo d)) Reg.WHC_STAT_RESERVE_LOW 1).raise (State.whcPg (netNo d)) 2) := by
  have he : exec (.reserveLow d) s = execReserveLow d s := rfl
  rw [he, execReserveLow, actD_of_liveOn h, if_pos (by rw [hn, hr]; rfl)]

/-- Bytes collected are programmed, and none of them is the host's (R661, R663). -/
def State.collected (s : State) (nd moved freed : Nat) : State :=
  let t := (s.whcProgram nd moved 0).bump (State.whcPg nd) Reg.WHC_FREE_BLOCKS freed
  if freed == 0 then t else t.setF (State.whcPg nd) Reg.WHC_STAT_RESERVE_LOW 0

theorem State.collected_flash (s : State) (nd moved freed : Nat) : (s.collected nd moved freed).flash nd = (s.whcProgram nd moved 0).flash nd := by
  unfold State.collected
  dsimp only
  split
  · rw [State.bump, State.setF_flash]
  · rw [State.setF_flash, State.bump, State.setF_flash]

theorem State.collected_sameMemory (s : State) (nd moved freed : Nat) : State.SameMemory s (s.collected nd moved freed) := by
  have hb : State.SameMemory s ((s.whcProgram nd moved 0).bump (State.whcPg nd) Reg.WHC_FREE_BLOCKS freed) :=
    State.SameMemory.trans ⟨rfl, rfl, rfl⟩ (State.bump_sameMemory (s.whcProgram nd moved 0) _ _ _ _)
  unfold State.collected
  dsimp only
  split
  · exact hb
  · exact hb.trans (State.setF_sameMemory _ _ _ _ _)

theorem exec_garbageCollection_of_net (h : s.LiveOn d) (hn : isNet d = true) (moved freed : Nat) :
    exec (.garbageCollection d moved freed) s = .next (s.collected (netNo d) moved freed) := by
  have he : exec (.garbageCollection d moved freed) s = execGarbageCollection d moved freed s := rfl
  rw [he, execGarbageCollection, actD_of_liveOn h, if_neg (by simp [hn])]
  rfl

theorem exec_creditAccrual_of_net (h : s.LiveOn d) (hn : isNet d = true) : exec (.creditAccrual d) s = .next (s.accrue (netNo d)) := by
  have he : exec (.creditAccrual d) s = execCreditAccrual d s := rfl
  rw [he, execCreditAccrual, actD_of_liveOn h, if_pos hn]

end Flash

end Sys2Proof.Machine

namespace Sys2Proof

open Sys2Proof.Machine

/-- Settles O46: a case per command. The form of the sensors' answers, four bytes least significant first, is the model's choice (log 58), and that
REDRAW is not held to 60 s is deduced (log 64). -/
theorem managementAndPanel : Obligations.ManagementAndPanel := by
  unfold Obligations.ManagementAndPanel
  refine ⟨fun n s h hpos hn => ?_, fun b s h => ?_, fun d s h => ⟨?_, ?_, ?_⟩, fun s h => ?_, fun n s h => ?_, fun v s h => ?_,
    fun s h hp => exec_locateExpiry_of_past h hp, fun s h ha hl hs => exec_sounderShort_of_sounding h ha hl hs,
    fun s h hs hp hr hl => ⟨_, exec_sounderRetry_fifth h hs hp hr hl, s.latchOff_latched⟩, fun s h => ?_,
    fun s h hd hp hn => exec_serviceTagDraw_first h hd hp hn, fun s h hd hp hlt => ?_, fun s h => ?_⟩
  · exact ⟨_, exec_pldmIdentify_of_busesOn h hn, rfl, (s.locateFor_active n).trans (if_neg (by omega))⟩
  · exact (show exec (.pldmFirmwareUpdate b) s = execPldmFirmwareUpdate b s from rfl).trans (mcAct_of_busesOn h _)
  · exact (show exec (.pldmSensorRead .inputVoltage) s = execPldmSensorRead .inputVoltage s from rfl).trans (mcAct_of_busesOn h _)
  · exact (show exec (.pldmSensorRead (.tj d)) s = execPldmSensorRead (.tj d) s from rfl).trans (mcAct_of_busesOn h _)
  · exact (show exec (.pldmSensorRead (.power d)) s = execPldmSensorRead (.power d) s from rfl).trans (mcAct_of_busesOn h _)
  · exact ⟨_, _, (show exec .pldmFruRead s = execPldmFruRead s from rfl).trans (mcAct_of_busesOn h _), rfl, rfl, rfl, rfl⟩
  · exact (show exec (.entdaa n) s = execEntdaa n s from rfl).trans (mcAct_of_busesOn h _)
  · exact ⟨_, exec_svcLocate_of_auxOn h v, rfl, s.locateFor_active _⟩
  · obtain ⟨hf, hr, hl⟩ := s.soundClear_clear
    exact ⟨_, exec_svcSndClear_of_auxOn h, hf, hr, hl, rfl, rfl, rfl⟩
  · exact ⟨_, exec_tagRefreshDone_of_drawn h hd hp, (State.tagNext_draws _).trans (State.tagWhole_draws hlt)⟩
  · exact (show exec .redraw s = execRedraw s from rfl).trans (auxAct_of_auxOn h _)

/-- Settles O47: the hour's record goes through `noteWear` and `writeHour`, the flash through `startPacing` and `wearOut`. That ERASE_AHEAD adds a
sector of 16 pages is deduced (log 64). -/
theorem ledgerAndFlash : Obligations.LedgerAndFlash := by
  unfold Obligations.LedgerAndFlash
  refine ⟨fun s h hpoh => ?_, fun s h hf => exec_eraseAhead_of_few h hf, fun b s h => ?_,
    fun d s h hn hc => exec_warehouseCreditExhausted_of_none h hn hc, fun d s h hn hb hw => ?_,
    fun d s h hn hr => exec_reserveLow_of_high h hn hr, fun d n k s h hn => ?_, fun d s h hn => exec_creditAccrual_of_net h hn, fun s h => ?_⟩
  · obtain ⟨vt, he⟩ := exec_hourlyRecord_of_auxOn h
    have hg : ((s.bump ledgPg Reg.LEDG_POH).noteWear.writeHour vt).getF ledgPg Reg.LEDG_POH = s.getF ledgPg Reg.LEDG_POH + 1 := by
      rw [State.writeHour_getF, State.noteWear_poh, State.getF_bump_same _ _ _ _ _ (by decide)]
      exact Nat.min_eq_left (by change _ ≤ 2 ^ 32 - 1; omega)
    have hl := (s.bump ledgPg Reg.LEDG_POH).noteWear.writeHour_hourly vt
    rw [State.noteWear_ledger, State.bump_ledger] at hl
    have hm : State.SameMemory s ((s.bump ledgPg Reg.LEDG_POH).noteWear.writeHour vt) :=
      ((State.bump_sameMemory _ _ _ _ _).trans (State.noteWear_sameMemory _)).trans (State.writeHour_sameMemory _ _)
    refine ⟨_, he, ?_⟩
    split
    · rw [State.getF_setF_offset _ _ _ _ _ (by decide), State.setF_ledger]
      exact ⟨hg, hl, hm.trans (State.setF_sameMemory _ _ _ _ _)⟩
    · exact ⟨hg, hl, hm⟩
  · obtain ⟨u, he⟩ := exec_pageProgramFail_of_auxOn h b
    refine ⟨_, he, ?_, State.testBit_raise _ _ _ (by decide)⟩
    rw [State.getF_raise_offset _ _ _ _ (by decide), State.getF_setF_same _ _ _ _ _ (by decide)]
    rfl
  · obtain ⟨hworn, hstat⟩ := s.wearOut_worn (netNo d)
    obtain ⟨hl, hg⟩ := (s.wearOut (netNo d)).startPacing_frame (netNo d)
    exact ⟨_, exec_warehouseWorn_of_budget h hn hb hw, hg.trans hstat, hl ▸ hworn⟩
  · refine ⟨_, exec_garbageCollection_of_net h hn n k, ?_, ?_, s.collected_sameMemory _ _ _⟩
    · rw [State.collected_flash, State.whcProgram, State.flash_setFlash]
    · rw [State.collected_flash, State.whcProgram, State.flash_setFlash]
      rfl
  · have he : exec .supercapacitorRunDown s = execSupercapacitorRunDown s := rfl
    rw [he, execSupercapacitorRunDown, h]
    rfl

end Sys2Proof

/-! PROOFS. The common header of the register pages (R522 to R538, R612, R665). -/

namespace Sys2Proof.Machine

namespace State

section Apply

variable (s : State) (pg : Page)

/-- A request accepted and pending until the boundary of its kind (R529). -/
def applyPend (v : Nat) : State :=
  ((s.setF pg Reg.PAGE_APPLY_REQ 1).setF pg Reg.PAGE_APPLY_KIND (bitsOf v 4 4)).setF pg Reg.PAGE_APPLY_GEN (bitsOf v 16 16)

theorem applyPend_pending (v : Nat) :
    (s.applyPend pg v).getF pg Reg.PAGE_APPLY_REQ = 1 ∧ (s.applyPend pg v).getF pg Reg.PAGE_APPLY_GEN = bitsOf v 16 16 := by
  unfold applyPend
  constructor
  · rw [getF_setF_beside _ _ _ _ _ _ (by decide) (by decide) (by decide), getF_setF_beside _ _ _ _ _ _ (by decide) (by decide) (by decide)]
    exact getF_setF_same _ _ _ _ _ (by decide)
  · rw [getF_setF_same _ _ _ _ _ (by decide)]
    exact Nat.mod_eq_of_lt (bitsOf_lt _ _ _)

variable {s pg}

theorem applyAsk_accepted {v : Nat} (hr : s.getF pg Reg.PAGE_APPLY_REQ = 0) (hc : (s.word pg 8).testBit 0 = true)
    (hk : bitsOf v 4 4 = bitsOf (s.word pg 8) 8 4) (hi : bitsOf v 4 4 ≠ 15) : s.applyAsk pg v = s.applyPend pg v := by
  unfold applyAsk applyPend
  dsimp only
  rw [if_neg (by rw [hr, hc, hk, beq_self_eq_true, beq_self_eq_true, Bool.true_or]; decide), if_neg (by simpa using hi)]

/-- A page without PAGE_CAP.APPLY refuses every request (R529, R678). -/
theorem applyAsk_incapable (hc : (s.word pg 8).testBit 0 = false) (v : Nat) : s.applyAsk pg v = s.pageErr pg 1 := by
  unfold applyAsk
  dsimp only
  rw [if_pos (by simp [hc])]

variable (s pg)

/-- A pending request cancelled (R530). -/
def applyCancelled : State := (s.setF pg Reg.PAGE_APPLY_REQ 0).setF pg Reg.PAGE_APPLIED_CANCELLED 1

theorem applyDrop_pending (h : s.getF pg Reg.PAGE_APPLY_REQ = 1) : s.applyDrop pg = s.applyCancelled pg := by
  unfold applyDrop
  rw [if_pos (by simpa using h)]
  rfl

theorem applyCancelled_cancelled : (s.applyCancelled pg).getF pg Reg.PAGE_APPLY_REQ = 0 ∧ (s.applyCancelled pg).getF pg Reg.PAGE_APPLIED_CANCELLED = 1
    ∧ (s.applyCancelled pg).getF pg Reg.PAGE_APPLIED_GEN = s.getF pg Reg.PAGE_APPLIED_GEN := by
  unfold applyCancelled
  refine ⟨?_, getF_setF_same _ _ _ _ _ (by decide), ?_⟩
  · rw [getF_setF_offset _ _ _ _ _ (by decide)]
    exact getF_setF_same _ _ _ _ _ (by decide)
  · rw [getF_setF_beside _ _ _ _ _ _ (by decide) (by decide) (by decide), getF_setF_offset _ _ _ _ _ (by decide)]

/-- What is applied stands with its generation, and the page reports it (R529). -/
theorem applyNow_applied : (s.applyNow pg).getF pg Reg.PAGE_APPLY_REQ = 0
    ∧ (s.applyNow pg).getF pg Reg.PAGE_APPLIED_GEN = s.getF pg Reg.PAGE_APPLY_GEN ∧ (s.applyNow pg).getF pg Reg.PAGE_APPLIED_CANCELLED = 0
    ∧ ((s.applyNow pg).word pg 0x20).testBit 13 = true := by
  unfold applyNow
  refine ⟨?_, ?_, ?_, testBit_raise _ _ _ (by decide)⟩
  · rw [getF_raise_offset _ _ _ _ (by decide), getF_setF_offset _ _ _ _ _ (by decide), getF_setF_offset _ _ _ _ _ (by decide)]
    exact getF_setF_same _ _ _ _ _ (by decide)
  · rw [getF_raise_offset _ _ _ _ (by decide), getF_setF_beside _ _ _ _ _ _ (by decide) (by decide) (by decide),
      getF_setF_same _ _ _ _ _ (by decide)]
    exact Nat.mod_eq_of_lt (bitsOf_lt _ _ _)
  · rw [getF_raise_offset _ _ _ _ (by decide)]
    exact getF_setF_same _ _ _ _ _ (by decide)

/-! ### PAGE_CTRL (R522, R524 to R526, R612) -/

variable {s pg}

/-- A write that masks ENABLE alone (R524). -/
theorem ctrlWrite_enable {v : Nat} (hf : pageFused s.fuses pg = false) (ht : s.tenant pg = false) (hm : bitsOf v 16 3 = 1) :
    s.ctrlWrite pg v = s.setF pg Reg.PAGE_CTRL_ENABLE (bitsOf v 0 1) := by
  unfold ctrlWrite
  rw [hf, ht, hm]
  rfl

/-- A write of 1 to RESET begins a block reset (R612). -/
theorem ctrlWrite_reset (hf : pageFused s.fuses pg = false) (ht : s.tenant pg = false) : s.ctrlWrite pg 0x20002 = s.blockResetStart pg := by
  have hm : bitsOf 0x20002 16 3 = 2 := by decide
  unfold ctrlWrite
  rw [hf, ht, hm]
  rfl

theorem blockResetStart_resetting : (s.blockResetStart pg).getF pg Reg.PAGE_STAT_RESETTING = 1 := by
  unfold blockResetStart
  split
  · next h => simpa using h
  · exact getF_setF_same _ _ _ _ _ (by decide)

end Apply

end State

section Commands

variable {s : State} {pg : Page}

theorem exec_pageEnable_of_reached {r : Requester} (h : s.PageOn pg) (hr : s.reaches r pg = true) (v : W32) :
    exec (.pageEnable r pg v) s = .next (s.ctrlWrite pg v.toNat) := by
  have he : exec (.pageEnable r pg v) s = execPageEnable r pg v s := rfl
  rw [he, execPageEnable, h.1, h.2, hr]
  rfl

theorem exec_blockReset_of_reached {r : Requester} (h : s.PageOn pg) (hr : s.reaches r pg = true) :
    exec (.blockReset r pg) s = .next (s.ctrlWrite pg 0x20002) := by
  have he : exec (.blockReset r pg) s = execBlockReset r pg s := rfl
  rw [he, execBlockReset, h.1, h.2, hr]
  rfl

theorem exec_blockResetEnd_of_resetting (h : s.responds pg = true) (hr : s.getF pg Reg.PAGE_STAT_RESETTING = 1) :
    exec (.blockResetEnd pg) s = .next (s.clearRegs (· == pg) State.resetKeep) := by
  have he : exec (.blockResetEnd pg) s = execBlockResetEnd pg s := rfl
  rw [he, execBlockResetEnd, h, hr]
  rfl

theorem exec_applyRequest_of_pageOn (h : s.PageOn pg) (hf : pageFused s.fuses pg = false) (v : W32) :
    exec (.applyRequest pg v) s = .next (s.applyAsk pg v.toNat) := by
  have he : exec (.applyRequest pg v) s = execApplyRequest pg v s := rfl
  rw [he, execApplyRequest, h.1, h.2, hf]
  rfl

theorem exec_applyCancel_of_pageOn (h : s.PageOn pg) : exec (.applyCancel pg) s = .next (s.applyDrop pg) := by
  have he : exec (.applyCancel pg) s = execApplyCancel pg s := rfl
  rw [he, execApplyCancel, h.1, h.2]
  rfl

theorem exec_applyAtBoundary_of_pending (h : s.PageOn pg) (hr : s.getF pg Reg.PAGE_APPLY_REQ = 1) :
    exec (.applyAtBoundary pg) s = .next (s.applyNow pg) := by
  have he : exec (.applyAtBoundary pg) s = execApplyAtBoundary pg s := rfl
  rw [he, execApplyAtBoundary, h.1, h.2, hr]
  rfl

theorem exec_registerWrite_of_reached {r : Requester} {off : Nat} (h : s.PageOn pg) (ho : off % 4 = 0) (hl : off < 4096)
    (hr : s.reaches r pg = true) (v : W32) : exec (.registerWrite r pg off v) s = .next (s.writeReg pg off v) := by
  have he : exec (.registerWrite r pg off v) s = execRegisterWrite r pg off v s := rfl
  rw [he, execRegisterWrite, h.1, h.2, hr, ho]
  simp [Nat.not_le.2 hl]

/-- The read that takes the oldest record (R665). -/
theorem exec_ledgLogData7_of_reached {r : Requester} (h : s.AuxOn) (hr : s.reaches r ledgPg = true) (hi : r ≠ .inspect)
    (hs : s.getF ledgPg Reg.PAGE_CTRL_INSPECT_SAFE = 0) : exec (.ledgLogData7 r) s =
      .next { s.answer r .done (leBytes (s.logWord 7) 4) with log := (s.answer r .done (leBytes (s.logWord 7) 4)).log.drop 1 } := by
  have he : exec (.ledgLogData7 r) s = execLedgLogData7 r s := rfl
  rw [he, execLedgLogData7, auxAct_of_auxOn h, if_neg (by simp [hr])]
  dsimp only
  rw [if_neg (by simp [hi, hs])]

end Commands

end Sys2Proof.Machine

namespace Sys2Proof

open Sys2Proof.Machine

/-- Settles O40: a case per command of the header; the interrupt enables bit by bit (`testBit_irqEnWrite`). -/
theorem pageHeaders : Obligations.PageHeaders := by
  unfold Obligations.PageHeaders
  refine ⟨fun r pg v s h hr hf ht hm => ?_, fun r pg s h hr hf ht => ?_, fun pg s h hr => exec_blockResetEnd_of_resetting h hr,
    fun pg v s h hf hr hc hk hi => ?_, fun pg s h hr => ?_, fun pg s h hr => ⟨_, exec_applyAtBoundary_of_pending h hr, s.applyNow_applied pg⟩,
    fun pg v n s h hf hn hm => ⟨_, exec_pageIrqEnWrite_of_pageOn h v, ?_⟩, fun pg s h => exec_tvRevote_of_pageOn h,
    fun r pg off v s h ho hl hr => exec_registerWrite_of_reached h ho hl hr v,
    fun r s h hr hi hs => ⟨_, exec_ledgLogData7_of_reached h hr hi hs, rfl, rfl⟩, fun pg v s h hf hc => ?_⟩
  · rw [exec_pageEnable_of_reached h hr, State.ctrlWrite_enable hf ht hm]
  · refine ⟨_, exec_blockReset_of_reached h hr, ?_⟩
    rw [State.ctrlWrite_reset hf ht]
    exact State.blockResetStart_resetting
  · refine ⟨_, exec_applyRequest_of_pageOn h hf v, ?_⟩
    rw [State.applyAsk_accepted hr hc hk hi]
    exact s.applyPend_pending pg v.toNat
  · refine ⟨_, exec_applyCancel_of_pageOn h, ?_⟩
    rw [State.applyDrop_pending s pg hr]
    exact s.applyCancelled_cancelled pg
  · classical
    rw [State.testBit_irqEnWrite _ _ hf, if_pos ⟨hn, hm⟩]
  · rw [exec_applyRequest_of_pageOn h hf, State.applyAsk_incapable hc]

end Sys2Proof

/-! PROOFS. Clock sources, islands and crossings (R541 to R556, R566). -/

namespace Sys2Proof.Machine

/-- Items of one register with different banks have different keys. -/
theorem regKey_ne_of_bank {pg : Page} {o b b' : Nat} (h : b ≠ b') : regKey pg o b ≠ regKey pg o b' := by
  unfold regKey
  omega

/-- The frequencies of a variable island: the lowest stands above 0, and the nominal one in a byte (R545). -/
theorem islandRange_bounds {d : Die} {i : Nat} {r : Nat × Nat} (h : islandRange d i = some r) : r.2 ≤ r.1 ∧ r.1 < 256 := by
  unfold islandRange at h
  dsimp only at h
  split at h
  · split at h
    · cases h; decide
    · split at h <;> cases h; decide
  · split at h
    · split at h
      · cases h; decide
      · split at h
        · cases h; decide
        · split at h <;> cases h; decide
    · split at h
      · split at h
        · cases h; decide
        · split at h <;> cases h; decide
      · split at h
        · cases h; decide
        · split at h <;> cases h; decide

namespace State

/-! ### The words that clocks change -/

/-- The words of a die's clock and power pages but those that hold the module's common fields. -/
def clockKeys (d : Die) (k : Nat) : Prop :=
  ∃ pg o b, (pg = clkPg d ∨ pg = pwrPg d) ∧ o < 4096 ∧ o / 4 ≠ 0x10 ∧ b < 2 ^ 24 ∧ k = regKey pg o b

theorem clockKeys_clk (d : Die) (o : Nat) {b : Nat} (ho : o < 4096) (h : o / 4 ≠ 0x10) (hb : b < 2 ^ 24) :
    clockKeys d (regKey (clkPg d) o b) := ⟨_, o, b, .inl rfl, ho, h, hb, rfl⟩

theorem clockKeys_pwr (d : Die) (o : Nat) (ho : o < 4096) (h : o / 4 ≠ 0x10) : clockKeys d (regKey (pwrPg d) o 0) :=
  ⟨_, o, 0, .inr rfl, ho, h, by decide, rfl⟩

theorem not_clockKeys_common (d : Die) : ¬ clockKeys d (regKey srcPg 0x40 0) := fun ⟨pg, o, b, hp, ho, hne, hb, he⟩ => by
  have hi : pg.inst < 256 := by rcases hp with rfl | rfl <;> exact (by decide : 0 < 256)
  exact regKey_ne_of_word (by decide) hi (by decide) ho (by decide) hb (Ne.symm hne) he

theorem not_clockKeys_die {d e : Die} (h : d ≠ e) {o : Nat} (ho' : o < 4096) : ¬ clockKeys e (regKey (clkPg d) o 0) :=
  fun ⟨pg, o, b, hp, ho, hne, hb, he⟩ => by
    rcases hp with rfl | rfl
    · exact regKey_ne_of_page (p := clkPg d) (q := clkPg e) (by exact (by decide : 0 < 256)) (by exact (by decide : 0 < 256)) ho' ho (by decide) hb
        (by unfold clkPg; simpa using h) he
    · exact regKey_ne_of_page (p := clkPg d) (q := pwrPg e) (by exact (by decide : 0 < 256)) (by exact (by decide : 0 < 256)) ho' ho (by decide) hb
        (by unfold clkPg pwrPg; simp) he

theorem noteCause_clockWords (s : State) (d : Die) (m : Bool) : WordsIn (clockKeys d) s (s.noteCause d m) := by
  unfold noteCause
  exact (WordsIn.refl s).withField (clockKeys_pwr d _ (by decide) (by decide))

theorem WordsIn.foldl {K : Nat → Prop} {β : Type} {g : State → β → State} (l : List β) (hg : ∀ t, ∀ e ∈ l, WordsIn K t (g t e)) (s : State) :
    WordsIn K s (l.foldl g s) :=
  List.foldlRecOn (motive := fun t : State => WordsIn K s t) _ _ (.refl s) fun t ht e he => ht.trans (hg t e he)

theorem islandCount_lt (d : Die) : islandCount d < 256 := by cases d <;> decide

theorem coastDie_words (s : State) (d : Die) : WordsIn (clockKeys d) s (s.coastDie d) := by
  unfold coastDie
  refine (WordsIn.foldl _ (fun t i hi => ?_) s).withField (clockKeys_clk d _ (by decide) (by decide) (by decide))
  have hb := (List.mem_range.1 hi).trans (islandCount_lt d)
  split
  · exact (WordsIn.refl t).withField (clockKeys_clk d _ (by decide) (by decide) (by omega))
  · exact .refl t

theorem coastDie_coasting (s : State) (d : Die) : (s.coastDie d).getF (clkPg d) Reg.CLK_STAT_COASTING = 1 :=
  getF_setF_same _ _ _ _ _ (by decide)

theorem coastDie_clocks (s : State) (d : Die) : (s.coastDie d).clocks = s.clocks := by
  refine (setF_clocks _ _ _ _ _).trans (foldl_frame (π := clocks) (fun t i => ?_) s _)
  split <;> rfl

/-- What each die's own step brings about, and the steps of the others leave, holds of every die after all of them. -/
theorem foldl_forall {P : Die → State → Prop} {g : State → Die → State} (hset : ∀ t d, P d (g t d))
    (hkeep : ∀ t d e, d ≠ e → P d t → P d (g t e)) (l : List Die) (s : State) : ∀ d ∈ l, P d (l.foldl g s) := by
  induction l using List.reverseRecOn with
  | nil => simp
  | append_singleton l e ih =>
    intro d hd
    rw [List.foldl_append, List.foldl_cons, List.foldl_nil]
    rcases eq_or_ne d e with rfl | hne
    · exact hset _ _
    · rw [List.mem_append, List.mem_singleton] at hd
      exact hkeep _ _ _ hne (ih d (hd.resolve_right hne))

/-! ### Sources (R542, R543, R553, R554) -/

theorem seekSource_getF (s : State) (pg : Page) (f : Fld) (b : Nat) : s.seekSource.getF pg f b = s.getF pg f b := rfl

theorem seekSource_sameMemory (s : State) : SameMemory s s.seekSource := ⟨rfl, rfl, rfl⟩

theorem setTv_getF (s : State) (pg pg' : Page) (f g : Fld) (v b : Nat) : (s.setTv pg f v).getF pg' g b = (s.setF pg f v).getF pg' g b := rfl

/-- A die that loses its clock coasts, and counts the loss (R553, R555). -/
def loseClock (t : State) (d : Die) : State :=
  ((((t.coastDie d).setF (clkPg d) Reg.CLK_STAT_CLK_LOSS 1).bump (clkPg d) Reg.CLK_LOSS_CNT).raise (clkPg d) 0).noteCause d false

theorem loseClock_words (t : State) (d : Die) : WordsIn (clockKeys d) t (t.loseClock d) := by
  have hk (o : Nat) (ho : o < 4096) (h : o / 4 ≠ 0x10) := clockKeys_clk d o ho h (by decide : 0 < 2 ^ 24)
  unfold loseClock
  exact ((((coastDie_words t d).withField (hk _ (by decide) (by decide))).withBump (hk _ (by decide) (by decide))).withRaise
    (hk _ (by decide) (by decide))).trans (noteCause_clockWords _ d false)

theorem noteCause_getF_clk (s : State) (d : Die) (m : Bool) (f : Fld) (hf : f.off < 4096) (b : Nat) (hb : b < 2 ^ 24) :
    (s.noteCause d m).getF (clkPg d) f b = s.getF (clkPg d) f b := by
  unfold noteCause
  exact getF_setF_other _ _ _ _ _ _ _ _ (regKey_ne_of_page (p := clkPg d) (q := pwrPg d) (by exact (by decide : 0 < 256))
    (by exact (by decide : 0 < 256)) hf (by decide) hb (by decide) (by unfold clkPg pwrPg; simp))

theorem loseClock_lost (t : State) (d : Die) :
    (t.loseClock d).getF (clkPg d) Reg.CLK_STAT_CLK_LOSS = 1 ∧ (t.loseClock d).getF (clkPg d) Reg.CLK_STAT_COASTING = 1 := by
  unfold loseClock
  rw [noteCause_getF_clk _ _ _ _ (by decide) _ (by decide), noteCause_getF_clk _ _ _ _ (by decide) _ (by decide),
    getF_raise_offset _ _ _ _ (by decide), getF_raise_offset _ _ _ _ (by decide), getF_bump_offset _ _ _ _ _ (by decide),
    getF_bump_offset _ _ _ _ _ (by decide), getF_setF_same _ _ _ _ _ (by decide),
    getF_setF_beside _ _ _ _ _ _ (by decide) (by decide) (by decide), coastDie_coasting]
  exact ⟨rfl, rfl⟩

theorem loseClock_clocks (t : State) (d : Die) : (t.loseClock d).clocks = t.clocks := by
  unfold loseClock noteCause
  rw [setF_clocks, raise_clocks, bump_clocks, setF_clocks, coastDie_clocks]

/-- Every die loses its clock. -/
def loseClocks (s : State) : State := allDies.foldl loseClock s

theorem loseClocks_lost (s : State) (d : Die) :
    s.loseClocks.getF (clkPg d) Reg.CLK_STAT_CLK_LOSS = 1 ∧ s.loseClocks.getF (clkPg d) Reg.CLK_STAT_COASTING = 1 :=
  foldl_forall (P := fun d t => t.getF (clkPg d) Reg.CLK_STAT_CLK_LOSS = 1 ∧ t.getF (clkPg d) Reg.CLK_STAT_COASTING = 1) loseClock_lost
    (fun t d e hne ⟨hl, hc⟩ => by
      rw [(t.loseClock_words e).getF (not_clockKeys_die hne (by decide)), (t.loseClock_words e).getF (not_clockKeys_die hne (by decide))]
      exact ⟨hl, hc⟩) allDies s d (mem_allDies d)

theorem loseClocks_common (s : State) (f : Fld) (hf : f.off = 0x40) : s.loseClocks.getF srcPg f = s.getF srcPg f :=
  foldl_frame (π := fun t => t.getF srcPg f) (fun t d => (t.loseClock_words d).getF (hf ▸ not_clockKeys_common d)) s _

theorem loseClocks_clocks (s : State) : s.loseClocks.clocks = s.clocks := foldl_frame (π := clocks) (fun t d => t.loseClock_clocks d) s _

/-- The switch to source `k`: the dies coast until their PLLs lock (R543, R554). -/
def switchTo (s : State) (k : Nat) : State :=
  (allDies.foldl State.coastDie { s with clocks := { s.clocks with lostAt := none, target := none } }).setF srcPg Reg.CLK_SRC_ACTIVE k

theorem coasts_common (s : State) (f : Fld) (hf : f.off = 0x40) : (allDies.foldl coastDie s).getF srcPg f = s.getF srcPg f :=
  foldl_frame (π := fun t => t.getF srcPg f) (fun t d => (t.coastDie_words d).getF (hf ▸ not_clockKeys_common d)) s _

theorem switchTo_switched (s : State) {k : Nat} (hk : k < 4) : (s.switchTo k).getF srcPg Reg.CLK_SRC_ACTIVE = k
    ∧ (s.switchTo k).getF srcPg Reg.CLK_SRC_SEL = s.getF srcPg Reg.CLK_SRC_SEL ∧ (s.switchTo k).clocks.lostAt = none := by
  unfold switchTo
  refine ⟨?_, ?_, ?_⟩
  · rw [getF_setF_same _ _ _ _ _ (by decide)]
    exact Nat.mod_eq_of_lt hk
  · rw [getF_setF_beside _ _ _ _ _ _ (by decide) (by decide) (by decide), coasts_common _ _ rfl]
    rfl
  · rw [setF_clocks, foldl_frame (π := clocks) (fun t d => t.coastDie_clocks d)]

/-- A die's PLL locks (R554, R555). -/
def lockPll (t : State) (d : Die) : State := (t.setF (clkPg d) Reg.CLK_STAT_COASTING 0).noteCause d false

theorem lockPll_words (t : State) (d : Die) : WordsIn (clockKeys d) t (t.lockPll d) := by
  unfold lockPll
  exact ((WordsIn.refl t).withField (clockKeys_clk d _ (by decide) (by decide) (by decide))).trans (noteCause_clockWords _ d false)

theorem lockPlls_locked (s : State) (d : Die) : (allDies.foldl lockPll s).getF (clkPg d) Reg.CLK_STAT_COASTING = 0 :=
  foldl_forall (P := fun d t => t.getF (clkPg d) Reg.CLK_STAT_COASTING = 0)
    (fun t d => by
      unfold lockPll
      rw [noteCause_getF_clk _ _ _ _ (by decide) _ (by decide), getF_setF_same _ _ _ _ _ (by decide)]
      rfl)
    (fun t d e hne h => ((t.lockPll_words e).getF (not_clockKeys_die hne (by decide))).trans h) allDies s d (mem_allDies d)

end State

end Sys2Proof.Machine

/-! PROOFS. Islands step, and the clocks' commands (R541 to R556, R566). -/

namespace Sys2Proof.Machine

namespace State

/-! ### Steps of islands (R547, R548) -/

section Islands

variable (s : State) (d : Die) (i : Nat)

/-- What follows an island's step leaves an island that may not move. -/
theorem follow_held {d : Die} {i : Nat} {up : Bool} {may : Nat → Bool} (hm : may i = false) : ∀ (k : Nat) (l : List Nat) (s : State),
    (follow d up may k l s).getF (clkPg d) Reg.CLK_ISL_CUR i = s.getF (clkPg d) Reg.CLK_ISL_CUR i
  | 0, _, _ => rfl
  | k + 1, l, s => by
    let cur (t : State) : Nat := t.getF (clkPg d) Reg.CLK_ISL_CUR i
    have hstep (b : State × List Nat) (x : Nat × Nat × Nat) :
        cur (if (!may x.1 || b.1.beside d up x == b.1.getF (clkPg d) Reg.CLK_ISL_CUR x.1) = true then b
          else (b.1.setF (clkPg d) Reg.CLK_ISL_CUR (b.1.beside d up x) x.1, x.1 :: b.2)).1 = cur b.1 := by
      split
      · rfl
      · next hc =>
        have hne : i ≠ x.1 := by rintro rfl; simp [hm] at hc
        exact getF_setF_other _ _ _ _ _ _ _ _ (regKey_ne_of_bank hne)
    have hisle (a : State × List Nat) (j : Nat) :
        cur ((partners d j (a.1.getF (clkPg d) Reg.CLK_ISL_CUR j)).foldl (fun (b : State × List Nat) x =>
          if (!may x.1 || b.1.beside d up x == b.1.getF (clkPg d) Reg.CLK_ISL_CUR x.1) = true then b
          else (b.1.setF (clkPg d) Reg.CLK_ISL_CUR (b.1.beside d up x) x.1, x.1 :: b.2)) a).1 = cur a.1 :=
      List.foldlRecOn (motive := fun b : State × List Nat => cur b.1 = cur a.1) _ _ rfl fun b hb x _ => (hstep b x).trans hb
    have hall : cur (l.foldl (fun (a : State × List Nat) j =>
        (partners d j (a.1.getF (clkPg d) Reg.CLK_ISL_CUR j)).foldl (fun (b : State × List Nat) x =>
          if (!may x.1 || b.1.beside d up x == b.1.getF (clkPg d) Reg.CLK_ISL_CUR x.1) = true then b
          else (b.1.setF (clkPg d) Reg.CLK_ISL_CUR (b.1.beside d up x) x.1, x.1 :: b.2)) a) (s, [])).1 = cur s :=
      List.foldlRecOn (motive := fun a : State × List Nat => cur a.1 = cur s) _ _ rfl fun a ha j _ => (hisle a j).trans ha
    unfold follow
    dsimp only
    split
    · exact hall
    · exact (follow_held hm k _ _).trans hall

theorem moveIsland_cur (up : Bool) : (s.moveIsland d i up).getF (clkPg d) Reg.CLK_ISL_CUR i =
    (if up then s.getF (clkPg d) Reg.CLK_ISL_CUR i + 1 else s.getF (clkPg d) Reg.CLK_ISL_CUR i - 1) % 2 ^ 8 := by
  unfold moveIsland
  dsimp only
  rw [follow_held (by simp), getF_setF_same _ _ _ _ _ (by decide)]
  rfl

variable {s d i}

/-- An island beside one that goes down stays where its ratio's limits let it (R547, R548). -/
theorem beside_down_of_le {x : Nat × Nat × Nat} (h : s.getF (clkPg d) Reg.CLK_ISL_CUR x.1 ≤ x.2.2) :
    s.beside d false x = s.getF (clkPg d) Reg.CLK_ISL_CUR x.1 := by
  unfold beside
  dsimp only
  split
  · exact Nat.min_eq_left (h.trans (Nat.le_max_right _ _))
  · rfl

/-- An island goes down alone where no partner must follow (R547). -/
theorem moveIsland_down_alone (h : ∀ x ∈ partners d i (s.getF (clkPg d) Reg.CLK_ISL_CUR i - 1), s.getF (clkPg d) Reg.CLK_ISL_CUR x.1 ≤ x.2.2) :
    s.moveIsland d i false = s.setF (clkPg d) Reg.CLK_ISL_CUR (s.getF (clkPg d) Reg.CLK_ISL_CUR i - 1) i := by
  have hlt := s.getF_lt (clkPg d) Reg.CLK_ISL_CUR i
  have hcur : (s.setF (clkPg d) Reg.CLK_ISL_CUR (s.getF (clkPg d) Reg.CLK_ISL_CUR i - 1) i).getF (clkPg d) Reg.CLK_ISL_CUR i =
      s.getF (clkPg d) Reg.CLK_ISL_CUR i - 1 := by
    rw [getF_setF_same _ _ _ _ _ (by decide)]
    exact Nat.mod_eq_of_lt (by omega)
  unfold moveIsland
  dsimp only
  simp only [Bool.false_eq_true, if_false]
  generalize hu : s.setF (clkPg d) Reg.CLK_ISL_CUR (s.getF (clkPg d) Reg.CLK_ISL_CUR i - 1) i = u at hcur ⊢
  have hstay (b : State × List Nat) (x : Nat × Nat × Nat) (hx : x ∈ partners d i (s.getF (clkPg d) Reg.CLK_ISL_CUR i - 1)) (hb : b.1 = u) :
      (!(x.1 != i) || b.1.beside d false x == b.1.getF (clkPg d) Reg.CLK_ISL_CUR x.1) = true := by
    rcases eq_or_ne x.1 i with he | hne
    · simp [he]
    · have hsame : u.getF (clkPg d) Reg.CLK_ISL_CUR x.1 = s.getF (clkPg d) Reg.CLK_ISL_CUR x.1 := by
        rw [← hu]
        exact getF_setF_other _ _ _ _ _ _ _ _ (regKey_ne_of_bank hne)
      rw [hb, beside_down_of_le (hsame ▸ h x hx)]
      simp
  unfold follow
  simp only [List.foldl_cons, List.foldl_nil, hcur]
  have hfold : (partners d i (s.getF (clkPg d) Reg.CLK_ISL_CUR i - 1)).foldl (fun (b : State × List Nat) x =>
      if (!(x.1 != i) || b.1.beside d false x == b.1.getF (clkPg d) Reg.CLK_ISL_CUR x.1) = true then b
      else (b.1.setF (clkPg d) Reg.CLK_ISL_CUR (b.1.beside d false x) x.1, x.1 :: b.2)) (u, []) = (u, []) :=
    List.foldlRecOn (motive := fun b : State × List Nat => b = (u, [])) _ _ rfl fun b hb x hx => by
      rw [if_pos (hstay b x hx (congrArg Prod.fst hb)), hb]
  rw [hfold]
  rfl

variable (s d i)

theorem islandBound_le {r : Nat × Nat} (h : islandRange d i = some r) : s.islandBound d i r ≤ r.1 := by
  obtain ⟨hr, -⟩ := islandRange_bounds h
  unfold islandBound
  omega

/-! ### CLK_ISL.MAX (R547, R566) -/

theorem clampIslands_max (i : Nat) (hi : i < 2 ^ 24) :
    (s.clampIslands d).getF (clkPg d) Reg.CLK_ISL_MAX i = s.getF (clkPg d) Reg.CLK_ISL_MAX i := by
  have hop (t : State) : (t.noteOp d).getF (clkPg d) Reg.CLK_ISL_MAX i = t.getF (clkPg d) Reg.CLK_ISL_MAX i := by
    have hk (o : Nat) (ho : o < 4096) : regKey (clkPg d) Reg.CLK_ISL_MAX.off i ≠ regKey (pwrPg d) o 0 :=
      regKey_ne_of_page (by exact (by decide : 0 < 256)) (by exact (by decide : 0 < 256)) (by decide) ho hi (by decide) (by unfold clkPg pwrPg; simp)
    unfold noteOp
    dsimp only
    rw [getF_setF_other _ _ _ _ _ _ _ _ (hk _ (by decide)), getF_setF_other _ _ _ _ _ _ _ _ (hk _ (by decide))]
  unfold clampIslands
  rw [hop]
  refine foldl_frame (π := fun t => t.getF (clkPg d) Reg.CLK_ISL_MAX i) (fun t j => ?_) s _
  dsimp only
  split
  · split
    · rcases eq_or_ne i j with rfl | hne
      · exact getF_setF_beside _ _ _ _ _ _ rfl (by decide) (by decide)
      · exact getF_setF_other _ _ _ _ _ _ _ _ (regKey_ne_of_bank hne)
    · rfl
  · rfl

theorem setMax_max {r : Nat × Nat} (h : islandRange d i = some r) (hi : i < 2 ^ 24) {v : Nat} (hv : v < 256) :
    (s.setMax d i v).getF (clkPg d) Reg.CLK_ISL_MAX i = max r.2 v := by
  obtain ⟨hr, hr'⟩ := islandRange_bounds h
  unfold setMax
  rw [h]
  dsimp only
  rw [noteCause_getF_clk _ _ _ _ (by decide) _ hi, clampIslands_max _ _ _ hi, getF_setF_same _ _ _ _ _ (by decide)]
  exact Nat.mod_eq_of_lt (by change max r.2 v < 256; omega)

end Islands

theorem withClocks_getF (s : State) (c : Clocks) (pg : Page) (f : Fld) (b : Nat) : State.getF { s with clocks := c } pg f b = s.getF pg f b := rfl

end State

/-! ### Commands -/

section Clocks

variable {s : State}

theorem exec_crossing_errorDetected {d : Die} (h : s.LiveOn d) (i : Nat) (c : ErrClass) (pa : Nat) :
    exec (.errorDetected d (.crossing i) c pa) s = .next (s.crossParity d i) :=
  (show exec (.errorDetected d (.crossing i) c pa) s = execErrorDetected d (.crossing i) c pa s from rfl).trans (actD_of_liveOn h _)

/-- A parity mismatch of a ratio-locked crossing is counted (R550). -/
theorem State.crossParity_counts {d : Die} {i : Nat} (h : s.clocks.locked.contains (islKey d i) = true) :
    (s.crossParity d i).getF (clkPg d) Reg.CLK_STAT_XPARITY = 1
      ∧ (s.crossParity d i).getF (clkPg d) Reg.CLK_XPAR_CNT = min (s.getF (clkPg d) Reg.CLK_XPAR_CNT + 1) (2 ^ 32 - 1)
      ∧ State.SameMemory s (s.crossParity d i) := by
  have he : s.crossParity d i = (s.setF (clkPg d) Reg.CLK_STAT_XPARITY 1).bump (clkPg d) Reg.CLK_XPAR_CNT := if_pos h
  rw [he]
  refine ⟨?_, ?_, (State.setF_sameMemory s _ _ _ _).trans (State.bump_sameMemory _ _ _ _ _)⟩
  · rw [State.getF_bump_offset _ _ _ _ _ (by decide)]
    exact State.getF_setF_same _ _ _ _ _ (by decide)
  · exact (State.getF_bump_same _ _ _ _ _ (by decide)).trans
      (congrArg (fun x => min (x + 1) (2 ^ 32 - 1)) (State.getF_setF_offset _ _ _ _ _ (by decide)))

theorem exec_sourceQualified_of_external (h : s.AuxOn) {p : ClkSrc} (hp : p ≠ .oscillator) :
    exec (.sourceQualified p) s = .next (s.setF srcPg (State.srcOkF p) 1).seekSource := by
  have he : exec (.sourceQualified p) s = execSourceQualified p s := rfl
  rw [he, execSourceQualified, auxAct_of_auxOn h, if_neg (by simpa using hp)]

/-- The baseboard reference in use is lost: every die coasts (R553, R555). -/
theorem exec_sourceLoss_of_used (h : s.AuxOn) (hok : s.getF srcPg Reg.CLK_SRC_BASE_OK = 1) (ha : s.getF srcPg Reg.CLK_SRC_ACTIVE = 1) :
    exec (.sourceLoss .baseboard) s = .next (State.loseClocks { s.setF srcPg Reg.CLK_SRC_BASE_OK 0 with
      clocks := { s.clocks with lostAt := some s.aon, target := none } }) := by
  have he : exec (.sourceLoss .baseboard) s = execSourceLoss .baseboard s := rfl
  have hok' : s.getF srcPg (State.srcOkF .baseboard) = 1 := hok
  rw [he, execSourceLoss, auxAct_of_auxOn h, if_neg (by rw [hok']; decide)]
  dsimp only
  rw [if_neg (by decide), if_pos (by rw [ha]; rfl)]
  rfl

theorem exec_clockSourceSwitch_of_other {b : Nat} (h : s.AuxOn) (hl : s.clocks.lostAt = some b)
    (hok : s.srcOk (1 - s.getF srcPg Reg.CLK_SRC_ACTIVE) = true) : exec .clockSourceSwitch s =
      .next ((s.setTv srcPg Reg.CLK_SRC_SEL (1 - s.getF srcPg Reg.CLK_SRC_ACTIVE)).switchTo (1 - s.getF srcPg Reg.CLK_SRC_ACTIVE)) := by
  have he : exec .clockSourceSwitch s = execClockSourceSwitch s := rfl
  rw [he, execClockSourceSwitch, auxAct_of_auxOn h, hl]
  dsimp only
  rw [if_pos hok]
  rfl

theorem exec_clockSourceSwitch_of_none {b : Nat} (h : s.AuxOn) (hl : s.clocks.lostAt = some b)
    (hok : s.srcOk (1 - s.getF srcPg Reg.CLK_SRC_ACTIVE) = false) : exec .clockSourceSwitch s = .next (s.switchTo 2) := by
  have he : exec .clockSourceSwitch s = execClockSourceSwitch s := rfl
  rw [he, execClockSourceSwitch, auxAct_of_auxOn h, hl]
  dsimp only
  rw [if_neg (by rw [hok]; decide)]
  rfl

theorem exec_pllLock_of_coasting (h : s.AuxOn) (hl : s.clocks.lostAt = none) (hc : s.getF srcPg Reg.CLK_STAT_COASTING = 1)
    (hw : s.clocks.waiting = []) : exec .pllLock s =
      .next (State.seekSource { allDies.foldl State.lockPll s with clocks := { (allDies.foldl State.lockPll s).clocks with waiting := [] } }) := by
  have he : exec .pllLock s = execPllLock s := rfl
  rw [he, execPllLock, auxAct_of_auxOn h, if_neg (by rw [hl, hc]; decide), hw]
  rfl

theorem exec_clkSrcSelWrite_of_external (h : s.AuxOn) {v : W32} (hv : v.toNat % 4 < 2) :
    exec (.clkSrcSelWrite v) s = .next (s.setTv srcPg Reg.CLK_SRC_SEL (v.toNat % 4)).seekSource := by
  have he : exec (.clkSrcSelWrite v) s = execClkSrcSelWrite v s := rfl
  rw [he, execClkSrcSelWrite, auxAct_of_auxOn h, if_pos hv]

theorem exec_clkSscWrite_of_auxOn (h : s.AuxOn) (v : W32) : exec (.clkSscWrite v) s =
    .next ((s.setTv srcPg Reg.CLK_SSC_SPREAD (min 10 (bitsOf v.toNat 0 4))).setTv srcPg Reg.CLK_SSC_RATE (min 30 (bitsOf v.toNat 4 5))) :=
  (show exec (.clkSscWrite v) s = execClkSscWrite v s from rfl).trans (auxAct_of_auxOn h _)

theorem exec_clkIslMaxWrite_of_locked {d : Die} {r : Nat × Nat} (h : s.Powered)
    (hr : islandRange d (s.getF (clkPg d) Reg.CLK_ISL_SEL_INDEX) = some r) (hc : s.getF (clkPg d) Reg.CLK_STAT_COASTING = 0) (v : W32) :
    exec (.clkIslMaxWrite d v) s = .next (s.setMax d (s.getF (clkPg d) Reg.CLK_ISL_SEL_INDEX) (bitsOf v.toNat 8 8)) := by
  have he : exec (.clkIslMaxWrite d v) s = execClkIslMaxWrite d v s := rfl
  rw [he, execClkIslMaxWrite, powerAct_of_powered h]
  dsimp only
  rw [if_neg (by simp [hr]), if_neg (by rw [hc]; decide)]

/-- A step of a variable island while the PLLs do not coast (R547, R553). -/
theorem exec_frequencyStep_of_locked {d : Die} {i : Nat} {r : Nat × Nat} (h : s.Powered) (hr : islandRange d i = some r)
    (hc : s.getF (clkPg d) Reg.CLK_STAT_COASTING = 0) (up : Bool) : exec (.frequencyStep d i up) s =
      .next (if (if up then decide (s.getF (clkPg d) Reg.CLK_ISL_CUR i < s.islandBound d i r) else decide (r.2 < s.getF (clkPg d) Reg.CLK_ISL_CUR i))
        then (s.moveIsland d i up).noteOp d else s) := by
  have he : exec (.frequencyStep d i up) s = execFrequencyStep d i up s := rfl
  rw [he, execFrequencyStep, powerAct_of_powered h, hr]
  dsimp only
  rw [if_neg (by rw [hc]; decide)]
  cases up <;> simp

theorem exec_crossingModeChange_of_held {d : Die} {i : Nat} {b : Bool} (h : s.Powered) (hi : i < islandCount d) (hb : s.asyncHeld d = b) :
    exec (.crossingModeChange d i b) s = .next (s.setCrossing d i b) := by
  have he : exec (.crossingModeChange d i b) s = execCrossingModeChange d i b s := rfl
  rw [he, execCrossingModeChange, powerAct_of_powered h, if_pos (by simp [hi, hb])]

end Clocks

end Sys2Proof.Machine

namespace Sys2Proof

open Sys2Proof.Machine

/-- Settles O41: what a source's loss and a lock do to every die (`loseClocks_lost`, `lockPlls_locked`), and what an island's step does to it and to
those beside it (`moveIsland_cur`, `moveIsland_down_alone`). The parity mismatch as an error of a crossing (log 76) and the partners that follow
an island (log 57) are the model's choice. -/
theorem clocksChange : Obligations.ClocksChange := by
  unfold Obligations.ClocksChange
  refine ⟨fun d i pa c s h hl => ⟨_, exec_crossing_errorDetected h i c pa, State.crossParity_counts hl⟩, fun p hp s h => ?_,
    fun s h hok ha => ?_, fun b s h hl ha hok => ?_, fun b s h hl ha hok => ?_, fun s h hl hc hw => ?_, fun v s h hv => ?_, fun v s h => ?_,
    fun d v r s h hr hc => ⟨_, exec_clkIslMaxWrite_of_locked h hr hc v, ?_⟩, fun d i r s h hr hc => ⟨fun hlt => ?_, fun hle => ?_, fun hlt => ?_,
      State.moveIsland_down_alone⟩, fun d v s h => ?_, fun d i b s h hi hb => exec_crossingModeChange_of_held h hi hb⟩
  · have hne : p ≠ .oscillator := by
      rintro rfl
      simp at hp
    refine ⟨_, exec_sourceQualified_of_external h hne, ?_, (State.setF_sameMemory s _ _ _ _).trans (State.seekSource_sameMemory _)⟩
    rw [State.seekSource_getF]
    cases p <;> exact State.getF_setF_same _ _ _ _ _ (by decide)
  · refine ⟨_, exec_sourceLoss_of_used h hok ha, ?_, ?_, State.loseClocks_lost _⟩
    · rw [State.loseClocks_common _ _ rfl]
      exact State.getF_setF_same s srcPg Reg.CLK_SRC_BASE_OK _ _ (by decide)
    · rw [State.loseClocks_clocks]
  · have he := exec_clockSourceSwitch_of_other h hl (by rw [ha]; exact hok)
    rw [ha] at he
    obtain ⟨hact, hsel, hlost⟩ := (s.setTv srcPg Reg.CLK_SRC_SEL (1 - 0)).switchTo_switched (k := 1 - 0) (by decide)
    refine ⟨_, he, hact, hsel.trans ?_, hlost⟩
    rw [State.setTv_getF, State.getF_setF_same _ _ _ _ _ (by decide)]
    rfl
  · obtain ⟨hact, hsel, -⟩ := s.switchTo_switched (k := 2) (by decide)
    exact ⟨_, exec_clockSourceSwitch_of_none h hl hok, hact, hsel⟩
  · refine ⟨_, exec_pllLock_of_coasting h hl hc hw, fun d => ?_⟩
    rw [State.seekSource_getF, State.withClocks_getF]
    exact State.lockPlls_locked s d
  · refine ⟨_, exec_clkSrcSelWrite_of_external h hv, ?_⟩
    rw [State.seekSource_getF, State.setTv_getF, State.getF_setF_same _ _ _ _ _ (by decide)]
    exact Nat.mod_mod _ _
  · refine ⟨_, exec_clkSscWrite_of_auxOn h v, ?_, ?_⟩
    · rw [State.setTv_getF, State.getF_setF_beside _ _ _ _ _ _ (by decide) (by decide) (by decide), State.setTv_getF,
        State.getF_setF_same _ _ _ _ _ (by decide)]
      exact Nat.mod_eq_of_lt (by change _ < 16; omega)
    · rw [State.setTv_getF, State.getF_setF_same _ _ _ _ _ (by decide)]
      exact Nat.mod_eq_of_lt (by change _ < 32; omega)
  · exact s.setMax_max d _ hr ((s.getF_lt _ _ _).trans (by decide)) (bitsOf_lt _ _ _)
  · have hb := (s.islandBound_le d i hr)
    obtain ⟨-, hr'⟩ := islandRange_bounds hr
    refine ⟨?_, ?_⟩
    · rw [exec_frequencyStep_of_locked h hr hc true, if_pos (by simpa using hlt)]
    · rw [State.moveIsland_cur, if_pos rfl]
      exact Nat.mod_eq_of_lt (by change _ < 256; omega)
  · rw [exec_frequencyStep_of_locked h hr hc true, if_neg (by simpa using hle)]
  · have hcur : s.getF (clkPg d) Reg.CLK_ISL_CUR i < 256 := s.getF_lt (clkPg d) Reg.CLK_ISL_CUR i
    refine ⟨?_, ?_⟩
    · rw [exec_frequencyStep_of_locked h hr hc false, if_pos (by simpa using hlt)]
    · rw [State.moveIsland_cur, if_neg (by decide)]
      exact Nat.mod_eq_of_lt (by change _ < 256; omega)
  · exact (show exec (.clkModeWrite d v) s = execClkModeWrite d v s from rfl).trans (powerAct_of_powered h _)

end Sys2Proof

/-! PROOFS. Power rounds, caps and temperature (R558 to R568). -/

namespace Sys2Proof.Machine

theorem mainIsland_lt (d : Die) : mainIsland d < islandCount d := by cases d <;> decide

namespace State

section Heat

variable (s : State) (d : Die)

/-! ### A measurement over the cap (R563) -/

theorem noteOp_cur (i : Nat) (hi : i < 2 ^ 24) : (s.noteOp d).getF (clkPg d) Reg.CLK_ISL_CUR i = s.getF (clkPg d) Reg.CLK_ISL_CUR i := by
  have hk (o : Nat) (ho : o < 4096) : regKey (clkPg d) Reg.CLK_ISL_CUR.off i ≠ regKey (pwrPg d) o 0 :=
    regKey_ne_of_page (by exact (by decide : 0 < 256)) (by exact (by decide : 0 < 256)) (by decide) ho hi (by decide) (by unfold clkPg pwrPg; simp)
  unfold noteOp
  dsimp only
  rw [getF_setF_other _ _ _ _ _ _ _ _ (hk _ (by decide)), getF_setF_other _ _ _ _ _ _ _ _ (hk _ (by decide))]

/-- Each of the islands of a list a step down from where it stands in `s`. -/
def stepDown (l : List Nat) (t : State) : State :=
  l.foldl (fun t i => t.setF (clkPg d) Reg.CLK_ISL_CUR (s.getF (clkPg d) Reg.CLK_ISL_CUR i - 1) i) t

theorem stepDown_cur {l : List Nat} {i : Nat} (hi : i ∈ l) (t : State) :
    (s.stepDown d l t).getF (clkPg d) Reg.CLK_ISL_CUR i = s.getF (clkPg d) Reg.CLK_ISL_CUR i - 1 := by
  have hlt : s.getF (clkPg d) Reg.CLK_ISL_CUR i < 256 := s.getF_lt _ Reg.CLK_ISL_CUR _
  have hset (u : State) : (u.setF (clkPg d) Reg.CLK_ISL_CUR (s.getF (clkPg d) Reg.CLK_ISL_CUR i - 1) i).getF (clkPg d) Reg.CLK_ISL_CUR i =
      s.getF (clkPg d) Reg.CLK_ISL_CUR i - 1 := by
    rw [getF_setF_same _ _ _ _ _ (by decide)]
    exact Nat.mod_eq_of_lt (by change _ < 256; omega)
  unfold stepDown
  obtain ⟨pre, post, rfl⟩ := List.append_of_mem hi
  rw [List.foldl_append, List.foldl_cons]
  refine List.foldlRecOn (motive := fun u : State => u.getF (clkPg d) Reg.CLK_ISL_CUR i = s.getF (clkPg d) Reg.CLK_ISL_CUR i - 1) _ _ (hset _)
    fun u hu j _ => ?_
  rcases eq_or_ne i j with rfl | hne
  · exact hset _
  · rw [getF_setF_other _ _ _ _ _ _ _ _ (regKey_ne_of_bank hne)]
    exact hu

/-! ### Samples of temperature (R564, R568) -/

theorem clockWords_thm {d : Die} {s t : State} (h : WordsIn (clockKeys d) s t) (f : Fld) (hf : f.off < 4096) :
    t.getF (thmPg d) f = s.getF (thmPg d) f :=
  h.getF fun ⟨pg, o, b, hp, ho, _, hb, he⟩ => by
    have hne : thmPg d ≠ pg := by rcases hp with rfl | rfl <;> (unfold thmPg; simp [clkPg, pwrPg])
    have hi : pg.inst < 256 := by rcases hp with rfl | rfl <;> exact (by decide : 0 < 256)
    exact regKey_ne_of_page (p := thmPg d) (by exact (by decide : 0 < 256)) hi hf ho (by decide) hb hne he

theorem clampIslands_words : WordsIn (clockKeys d) s (s.clampIslands d) := by
  unfold clampIslands noteOp
  dsimp only
  refine ((WordsIn.foldl _ (fun t i hi => ?_) s).withField (clockKeys_pwr d _ (by decide) (by decide))).withField
    (clockKeys_pwr d _ (by decide) (by decide))
  have hb := (List.mem_range.1 hi).trans (islandCount_lt d)
  split
  · split
    · exact (WordsIn.refl t).withField (clockKeys_clk d _ (by decide) (by decide) (by omega))
    · exact .refl t
  · exact .refl t

theorem raiseMask_tj (m : Nat) : (s.raiseMask (thmPg d) m).getF (thmPg d) Reg.THM_TJ_TEMP_C = s.getF (thmPg d) Reg.THM_TJ_TEMP_C := by
  have hw : (s.setWord (thmPg d) 0x20 (s.word (thmPg d) 0x20 ||| m)).getF (thmPg d) Reg.THM_TJ_TEMP_C = s.getF (thmPg d) Reg.THM_TJ_TEMP_C :=
    getF_setWord_other _ _ _ _ _ _ _ _ (regKey_ne_of_offset (by decide))
  unfold raiseMask
  dsimp only
  split
  · exact hw
  · exact hw

/-- A change of the thermal state leaves Tj. -/
theorem setThermal_tj (k : Nat) : (s.setThermal d k).getF (thmPg d) Reg.THM_TJ_TEMP_C = s.getF (thmPg d) Reg.THM_TJ_TEMP_C := by
  have hclamp (t : State) (m : Bool) : ((t.clampIslands d).noteCause d m).getF (thmPg d) Reg.THM_TJ_TEMP_C = t.getF (thmPg d) Reg.THM_TJ_TEMP_C :=
    clockWords_thm ((t.clampIslands_words d).trans (noteCause_clockWords _ d m)) _ (by decide)
  have hbar (t : State) (c : Prop) [Decidable c] :
      State.getF (if c then { t with thawBarred := true } else t) (thmPg d) Reg.THM_TJ_TEMP_C = t.getF (thmPg d) Reg.THM_TJ_TEMP_C := by
    split <;> rfl
  have hcool (t : State) (m : SMap Nat) : State.getF { t with coolAt := m } (thmPg d) Reg.THM_TJ_TEMP_C = t.getF (thmPg d) Reg.THM_TJ_TEMP_C := rfl
  unfold setThermal
  dsimp only
  rw [hclamp, hbar]
  split
  · rw [raiseMask_tj, hcool, getF_setF_offset _ _ _ _ _ (by decide)]
  · rw [raise, raiseMask_tj, hcool, getF_setF_offset _ _ _ _ _ (by decide)]

theorem noteSwing_thm (f : Fld) (hf : f.off < 4096) : s.noteSwing.getF (thmPg d) f = s.getF (thmPg d) f := by
  have hk : regKey (thmPg d) f.off 0 ≠ regKey ledgPg Reg.LEDG_THERM_CYCLES.off 0 :=
    regKey_ne_of_page (p := thmPg d) (q := ledgPg) (by exact (by decide : 0 < 256)) (by decide) hf (by decide) (by decide) (by decide)
      (by unfold thmPg ledgPg; simp)
  have hswing (w : Swing) : State.getF { s with swing := w } (thmPg d) f = s.getF (thmPg d) f := rfl
  unfold noteSwing
  dsimp only
  split
  · split
    · rw [summary_getF, getF_bump_other _ _ _ _ _ _ _ _ hk, hswing]
    · exact hswing _
  · split
    · exact hswing _
    · exact hswing _

/-- The readings of a die's sensors, and the highest of them, in their registers (R568). -/
def noteReadings (rs : List Nat) : State :=
  (((rs.zipIdx.foldl (fun t e => t.setF (thmPg d) Reg.THM_SENSOR e.1 e.2) s).setF (thmPg d) Reg.THM_TJ_TEMP_C (rs.foldl max 0)).setF (thmPg d)
    Reg.THM_TJ_SENSOR (rs.idxOf (rs.foldl max 0))).raiseMax (thmPg d) Reg.THM_MAX_SEEN (rs.foldl max 0)

theorem noteReadings_tj {rs : List Nat} (h : rs.foldl max 0 < 256) :
    (s.noteReadings d rs).getF (thmPg d) Reg.THM_TJ_TEMP_C = rs.foldl max 0 := by
  unfold noteReadings raiseMax
  rw [getF_setF_offset _ _ _ _ _ (by decide), getF_setF_beside _ _ _ _ _ _ (by decide) (by decide) (by decide),
    getF_setF_same _ _ _ _ _ (by decide)]
  exact Nat.mod_eq_of_lt h

theorem noteReadings_state {rs : List Nat} (h : rs.length < 2 ^ 24) :
    (s.noteReadings d rs).getF (thmPg d) Reg.THM_STATE = s.getF (thmPg d) Reg.THM_STATE := by
  unfold noteReadings raiseMax
  rw [getF_setF_offset _ _ _ _ _ (by decide), getF_setF_offset _ _ _ _ _ (by decide), getF_setF_offset _ _ _ _ _ (by decide)]
  refine List.foldlRecOn (motive := fun t : State => t.getF (thmPg d) Reg.THM_STATE = s.getF (thmPg d) Reg.THM_STATE) _ _ rfl fun t ht e he => ?_
  have hlt : e.2 < 2 ^ 24 := by
    have := (List.mem_zipIdx' he).1
    omega
  rw [getF_setF_other _ _ _ _ _ _ _ _ (regKey_ne_of_word (by exact (by decide : 0 < 256)) (by exact (by decide : 0 < 256)) (by decide) (by decide)
    (by decide) hlt (by decide))]
  exact ht

/-- A die in its normal state takes a sample: its thermal state rises at most to the first step. -/
theorem thermalRise_normal (t : Nat) (h : s.getF (thmPg d) Reg.THM_STATE = 0) :
    (s.thermalRise d t).getF (thmPg d) Reg.THM_TJ_TEMP_C = s.getF (thmPg d) Reg.THM_TJ_TEMP_C := by
  have he : s.thermalRise d t = if s.getF (thmPg .N0) Reg.THM_LIMITS_STEP1 ≤ t then s.setThermal d 1 else s := by
    unfold thermalRise
    rw [h]
    rfl
  rw [he]
  split
  · exact s.setThermal_tj d 1
  · rfl

end Heat

end State

section Power

variable {s : State} {d : Die}

theorem exec_budgetMessage_of_round {e : Die} {n : Nat} (h : s.Powered) (hd : s.active d = true) (he : s.active e = true)
    (hn : n = s.getF (pwrPg d) Reg.PWR_ROUND) (k : Nat) : exec (.budgetMessage d e n k) s =
      .next (s.setBudget d { s.budget d with got := SMap.put (s.budget d).got (dieCode e) k }) := by
  have hx : exec (.budgetMessage d e n k) s = execBudgetMessage d e n k s := rfl
  rw [hx, execBudgetMessage, powerAct_of_powered h, if_pos (by simp [hd, he, hn])]

theorem exec_capRaise_of_due {c : Nat} (h : s.Powered) (hr : (s.budget d).raised = some c) (ht : (s.budget d).tickAt + 5000 ≤ s.aon) :
    exec (.capRaise d) s =
      .next (((s.setF (pwrPg d) Reg.PWR_CAP c).setBudget d { s.budget d with raised := none }).noteCause d false) := by
  have hx : exec (.capRaise d) s = execCapRaise d s := rfl
  rw [hx, execCapRaise, powerAct_of_powered h, hr]
  dsimp only
  rw [if_pos ht]

/-- A measurement over the cap lowers the islands of the main class, among them the main island (R563). -/
theorem exec_powerMeasure_of_over {p : Nat} {r : Nat × Nat} (h : s.Powered) (hr : islandRange d (mainIsland d) = some r)
    (hp : s.getF (pwrPg d) Reg.PWR_CAP * 105 < p * 100) (hlow : r.2 < s.getF (clkPg d) Reg.CLK_ISL_CUR (mainIsland d)) :
    ∃ (may : Nat → Bool) (low : List Nat) (u : State), may (mainIsland d) = false ∧ mainIsland d ∈ low ∧
      exec (.powerMeasure d p) s = .next ((State.follow d false may 4 low (s.stepDown d low u)).noteOp d) := by
  have hx : exec (.powerMeasure d p) s = execPowerMeasure d p s := rfl
  rw [hx, execPowerMeasure, powerAct_of_powered h, if_pos hp]
  refine ⟨_, _, _, ?_, ?_, rfl⟩
  · simp
  · refine List.mem_filter.2 ⟨List.mem_range.2 (mainIsland_lt d), ?_⟩
    rw [hr]
    simp [hlow, hr]

theorem exec_thermalSample_of_normal {l : List Nat} (h : s.Powered) (hlen : l.length = if isTensor d then 32 else 8) (hl : ∀ x ∈ l, x ≤ 255)
    (hst : s.getF (thmPg d) Reg.THM_STATE = 0) :
    ∃ m, exec (.thermalSample d l) s = .next (State.thermalRise { (s.noteReadings d l).noteSwing with coolAt := m } d (l.foldl max 0)) := by
  have hx : exec (.thermalSample d l) s = execThermalSample d l s := rfl
  have hmin : (l.map fun r => min r 255) = l := by
    conv_rhs => rw [← List.map_id l]
    exact List.map_congr_left fun x hx => Nat.min_eq_left (hl x hx)
  rw [hx, execThermalSample, powerAct_of_powered h, if_neg (by simp [hlen])]
  dsimp only
  rw [hmin, if_pos (by rw [hst]; rfl)]
  exact ⟨_, rfl⟩

theorem exec_thermalHysteresisTimer_of_step {b : Nat} (h : s.Powered) (hc : SMap.find s.coolAt (dieCode d) = some b)
    (hk : s.getF (thmPg d) Reg.THM_STATE = 1 ∨ s.getF (thmPg d) Reg.THM_STATE = 2) (ht : b + 10 ^ 6 ≤ s.aon) :
    exec (.thermalHysteresisTimer d) s = .next (s.setThermal d (s.getF (thmPg d) Reg.THM_STATE - 1)) := by
  have hx : exec (.thermalHysteresisTimer d) s = execThermalHysteresisTimer d s := rfl
  rw [hx, execThermalHysteresisTimer, powerAct_of_powered h]
  dsimp only
  rw [hc]
  dsimp only
  rw [if_pos (by rcases hk with hk | hk <;> (rw [hk, decide_eq_true ht]; rfl))]

theorem exec_thermalHysteresisTimer_of_limit {b : Nat} (h : s.Powered) (hc : SMap.find s.coolAt (dieCode d) = some b)
    (hk : s.getF (thmPg d) Reg.THM_STATE = 3) (ht : b + 10 ^ 7 ≤ s.aon) : exec (.thermalHysteresisTimer d) s = .next (s.setThermal d 2) := by
  have hx : exec (.thermalHysteresisTimer d) s = execThermalHysteresisTimer d s := rfl
  rw [hx, execThermalHysteresisTimer, powerAct_of_powered h]
  dsimp only
  rw [hc, hk]
  dsimp only
  rw [if_neg (by simp), if_pos (by rw [decide_eq_true ht]; rfl)]

end Power

/-- The highest of readings that fit a byte fits one. -/
theorem foldl_max_lt {l : List Nat} (hl : ∀ x ∈ l, x ≤ 255) : l.foldl max 0 < 256 :=
  List.foldlRecOn (motive := fun m => m < 256) _ _ (by decide) fun m hm x hx => by
    have := hl x hx
    omega

end Sys2Proof.Machine

namespace Sys2Proof

open Sys2Proof.Machine

/-- Settles O42: a case per command. A measurement over the cap lowers the islands of the main class, which R563 does not name: that the main island is
among them is deduced (log 68). -/
theorem powerAndHeat : Obligations.PowerAndHeat := by
  unfold Obligations.PowerAndHeat
  refine ⟨fun l s h h0 => exec_powerRound_of_due h l fun hne => absurd h0 hne, fun d e n k s h hd he hn => ?_, fun d c s h hr hc ht => ?_,
    fun d p r s h hr hp hlow => ?_, fun d l s h hlen hl hst => ?_, fun d b s h hc => ⟨fun hk ht => exec_thermalHysteresisTimer_of_step h hc hk ht,
      fun hk ht => exec_thermalHysteresisTimer_of_limit h hc hk ht⟩⟩
  · refine ⟨_, exec_budgetMessage_of_round h hd he hn k, ?_, rfl, rfl, rfl⟩
    rw [State.budget_setBudget_same]
    exact SMap.find_put_same _ _ _
  · refine ⟨_, exec_capRaise_of_due h hr ht, ?_, ?_⟩
    · rw [State.noteCause, State.getF_setF_offset _ _ _ _ _ (by decide), State.getF_setBudget, State.getF_setF_same _ _ _ _ _ (by decide)]
      exact Nat.mod_eq_of_lt hc
    · rw [State.noteCause_budget, State.budget_setBudget_same]
  · obtain ⟨may, low, u, hmay, hmem, he⟩ := exec_powerMeasure_of_over h hr hp hlow
    have hi : mainIsland d < 2 ^ 24 := ((mainIsland_lt d).trans (State.islandCount_lt d)).trans (by decide)
    exact ⟨_, he, by rw [State.noteOp_cur _ _ _ hi, State.follow_held hmay, State.stepDown_cur _ _ hmem]⟩
  · obtain ⟨m, he⟩ := exec_thermalSample_of_normal h hlen hl hst
    have hcool (t : State) (f : Fld) : State.getF { t with coolAt := m } (thmPg d) f = t.getF (thmPg d) f := rfl
    have hlt : l.length < 2 ^ 24 := by
      rw [hlen]
      split <;> decide
    refine ⟨_, he, ?_⟩
    rw [State.thermalRise_normal, hcool, State.noteSwing_thm _ _ _ (by decide), State.noteReadings_tj _ _ (foldl_max_lt hl)]
    rw [hcool, State.noteSwing_thm _ _ _ (by decide), State.noteReadings_state _ _ hlt, hst]

end Sys2Proof

/-! PROOFS. The stages of the start (R582, R583, R592, R602 to R607). -/

namespace Sys2Proof.Machine

namespace State

/-! ### Stages (R602, R605) -/

theorem getF_setStage_same (s : State) {k : Nat} (hk : k < 16) : (s.setStage k).getF mgmtPg Reg.MGMT_BOOT_STAGE = k := by
  rw [setStage, getF_setF_same _ _ _ _ _ (by decide)]
  exact Nat.mod_eq_of_lt hk

theorem getF_setStage_other (s : State) (k : Nat) (pg : Page) (f : Fld) (b : Nat) (h : regKey pg f.off b ≠ regKey mgmtPg 0x40 0) :
    (s.setStage k).getF pg f b = s.getF pg f b := getF_setF_other _ _ _ _ _ _ _ _ h

theorem noteReset_stage (s : State) (kind cause target : Nat) :
    (s.noteReset kind cause target).getF mgmtPg Reg.MGMT_BOOT_STAGE = s.getF mgmtPg Reg.MGMT_BOOT_STAGE := by
  unfold noteReset
  rw [getF_setF_offset _ _ _ _ _ (by decide), getF_setF_offset _ _ _ _ _ (by decide), getF_setF_offset _ _ _ _ _ (by decide)]

/-- An error of the start leaves its stage. -/
theorem setError_stage (s : State) (e : Nat) :
    (s.setF mgmtPg Reg.MGMT_BOOT_ERROR e).getF mgmtPg Reg.MGMT_BOOT_STAGE = s.getF mgmtPg Reg.MGMT_BOOT_STAGE :=
  getF_setF_beside _ _ _ _ _ _ rfl (by decide) (by decide)

/-! ### Stage 2: the insertion is counted (R599, R602) -/

theorem ledg_getF (s : State) (k : LedgKind) (la : List Nat) (pg : Page) (f : Fld) (h : regKey pg f.off 0 ≠ regKey ledgPg Reg.LEDG_FREE_PAGES.off 0) :
    (s.ledg k la).getF pg f = s.getF pg f := getF_ledg_other _ _ _ _ _ _ _ h

theorem drawStart_getF (s : State) (pg : Page) (f : Fld) (h : regKey pg f.off 0 ≠ regKey ledgPg Reg.LEDG_FREE_PAGES.off 0)
    (h' : regKey pg f.off 0 ≠ regKey svcPg 0x40 0) : s.drawStart.getF pg f = s.getF pg f := by
  unfold drawStart
  dsimp only
  rw [ledg_getF _ _ _ _ _ h, getF_setF_other _ _ _ Reg.SVC_TAG_STAT_DRAWING _ _ _ _ h', withPanel_getF]

theorem drawNow_getF (s : State) (pg : Page) (f : Fld) (h : regKey pg f.off 0 ≠ regKey ledgPg Reg.LEDG_FREE_PAGES.off 0)
    (h' : regKey pg f.off 0 ≠ regKey svcPg 0x40 0) : s.drawNow.getF pg f = s.getF pg f := by
  unfold drawNow
  split
  · exact getF_setF_other _ _ _ Reg.SVC_TAG_STAT_QUEUED _ _ _ _ h'
  · exact drawStart_getF _ _ _ h h'

/-- How often the module has been inserted and coupled. -/
def mated (s : State) : Nat × Nat := (s.ledger.insertions, s.ledger.couplings)

theorem ledg_mated (s : State) (k : LedgKind) (la : List Nat) : (s.ledg k la).mated = s.mated := by
  unfold ledg
  dsimp only
  split <;> rfl

theorem drawNow_mated (s : State) : s.drawNow.mated = s.mated := by
  unfold drawNow
  split
  · rfl
  · unfold drawStart
    dsimp only
    exact ledg_mated _ _ _

/-- The insertion and the coupling counted, recorded and shown in PCIE_INSERTIONS (R599). -/
def countMating (s : State) : State :=
  let s2 := s.summary fun l => { l with insertions := l.insertions + 1, couplings := l.couplings + 1 }
  let n := s2.ledger.insertions
  let c := s2.ledger.couplings
  let s3 := (s2.ledg .insertion [n]).ledg .coupling [c]
  let s4 := (s3.setF pciePg Reg.PCIE_INSERTIONS_INSERTIONS (min n 0xFFFF)).setF pciePg Reg.PCIE_INSERTIONS_COUPLINGS (min c 0xFFFF)
  let s5 := if n == 180 then s4.pldm "180 insertions" else s4
  if c == 900 then s5.pldm "900 coupling connections" else s5

theorem pldmIf_getF (s : State) (c : Prop) [Decidable c] (e : String) (pg : Page) (f : Fld) :
    (if c then s.pldm e else s).getF pg f = s.getF pg f := by
  split <;> rfl

theorem pldmIf_mated (s : State) (c : Prop) [Decidable c] (e : String) : (if c then s.pldm e else s).mated = s.mated := by
  split <;> rfl

theorem setF_mated (s : State) (pg : Page) (f : Fld) (v b : Nat) : (s.setF pg f v b).mated = s.mated := rfl

theorem countMating_getF (s : State) (pg : Page) (f : Fld) (h : regKey pg f.off 0 ≠ regKey ledgPg Reg.LEDG_FREE_PAGES.off 0)
    (h' : regKey pg f.off 0 ≠ regKey pciePg 0x6C 0) : s.countMating.getF pg f = s.getF pg f := by
  unfold countMating
  dsimp only
  rw [pldmIf_getF, pldmIf_getF, getF_setF_other _ _ _ Reg.PCIE_INSERTIONS_COUPLINGS _ _ _ _ h',
    getF_setF_other _ _ _ Reg.PCIE_INSERTIONS_INSERTIONS _ _ _ _ h', ledg_getF _ _ _ _ _ h, ledg_getF _ _ _ _ _ h, summary_getF]

theorem countMating_mated (s : State) : s.countMating.mated = (s.ledger.insertions + 1, s.ledger.couplings + 1) := by
  unfold countMating
  dsimp only
  rw [pldmIf_mated, pldmIf_mated, setF_mated, setF_mated, ledg_mated, ledg_mated]
  rfl

/-- A calendar clock whose supercapacitor ran down starts unset (R660). -/
def clockUnset (s : State) : State :=
  if s.rtcLost then ((s.setRtc 0).setF ledgPg Reg.LEDG_RTC_HI_VALID 0).setF ledgPg Reg.LEDG_RTC_HI_SRC 0 else s

theorem clockUnset_getF (s : State) (pg : Page) (f : Fld) (h : regKey pg f.off 0 ≠ regKey ledgPg 0x4C 0) (h' : regKey pg f.off 0 ≠ regKey ledgPg 0x50 0) :
    s.clockUnset.getF pg f = s.getF pg f := by
  unfold clockUnset
  split
  · rw [getF_setF_other _ _ _ Reg.LEDG_RTC_HI_SRC _ _ _ _ h', getF_setF_other _ _ _ Reg.LEDG_RTC_HI_VALID _ _ _ _ h', setRtc,
      getF_setF_other _ _ _ Reg.LEDG_RTC_HI_SEC _ _ _ _ h', getF_setF_other _ _ _ Reg.LEDG_RTC_LO _ _ _ _ h]
  · rfl

theorem clockUnset_mated (s : State) : s.clockUnset.mated = s.mated := by
  unfold clockUnset
  split <;> rfl

/-- Stage 2 done (R599, R602, R669). -/
def mcStarted (s : State) : State :=
  ((((s.setStage 2).setF pciePg Reg.PCIE_HP_STATE_LATCH_LOCKED 1).countMating.clockUnset).setF ledgPg Reg.LEDG_STAT_TAG_TORN
    s.tagTorn.toNat).drawNow

theorem mcStarted_started (s : State) : s.mcStarted.getF mgmtPg Reg.MGMT_BOOT_STAGE = 2
    ∧ s.mcStarted.getF pciePg Reg.PCIE_HP_STATE_LATCH_LOCKED = 1 ∧ s.mcStarted.mated = (s.ledger.insertions + 1, s.ledger.couplings + 1) := by
  unfold mcStarted
  refine ⟨?_, ?_, ?_⟩
  · rw [drawNow_getF _ _ _ (by decide) (by decide), getF_setF_other _ _ _ _ _ _ _ _ (by decide), clockUnset_getF _ _ _ (by decide) (by decide),
      countMating_getF _ _ _ (by decide) (by decide), getF_setF_other _ _ _ _ _ _ _ _ (by decide), getF_setStage_same _ (by decide)]
  · rw [drawNow_getF _ _ _ (by decide) (by decide), getF_setF_other _ _ _ _ _ _ _ _ (by decide), clockUnset_getF _ _ _ (by decide) (by decide),
      countMating_getF _ _ _ (by decide) (by decide), getF_setF_same _ _ _ _ _ (by decide)]
    rfl
  · rw [drawNow_mated, setF_mated, clockUnset_mated, countMating_mated]
    rfl

/-! ### Stage 7: islands at their frequencies, and the first hart (R602) -/

theorem setCrossing_words (s : State) (d : Die) (i : Nat) (b : Bool) : WordsIn (clockKeys d) s (s.setCrossing d i b) := by
  unfold setCrossing
  dsimp only
  exact WordsIn.withField (wordsIn_of_regs rfl rfl) (clockKeys_clk d _ (by decide) (by decide) (by decide))

theorem toService_words (s : State) (d : Die) : WordsIn (clockKeys d) s (s.toService d) := by
  unfold toService noteOp
  dsimp only
  refine ((WordsIn.foldl _ (fun t i hi => ?_) s).withField (clockKeys_pwr d _ (by decide) (by decide))).withField
    (clockKeys_pwr d _ (by decide) (by decide))
  have hb := (List.mem_range.1 hi).trans (islandCount_lt d)
  refine WordsIn.trans ?_ (setCrossing_words _ d i false)
  split
  · exact (WordsIn.refl t).withField (clockKeys_clk d _ (by decide) (by decide) (by omega))
  · exact .refl t

/-- The clocks' words lie on pages of clocks and power. -/
theorem not_clockKeys_of_blk {pg : Page} (hc : pg.blk ≠ .clk) (hp : pg.blk ≠ .pwr) (hi : pg.inst < 256) {o : Nat} (ho : o < 4096) (d : Die) :
    ¬ clockKeys d (regKey pg o 0) := fun ⟨q, o', b, hq, ho', _, hb, he⟩ => by
  have hqi : q.inst < 256 := by rcases hq with rfl | rfl <;> exact (by decide : 0 < 256)
  refine regKey_ne_of_page hi hqi ho ho' (by decide) hb ?_ he
  rintro rfl
  rcases hq with rfl | rfl
  · exact hc rfl
  · exact hp rfl

theorem toService_getF (s : State) {pg : Page} (hc : pg.blk ≠ .clk) (hp : pg.blk ≠ .pwr) (hi : pg.inst < 256) {f : Fld} (hf : f.off < 4096) :
    (allDies.foldl toService s).getF pg f = s.getF pg f :=
  foldl_frame (π := fun t => t.getF pg f) (fun t d => (t.toService_words d).getF (not_clockKeys_of_blk hc hp hi hf d)) s _

/-- A hart is freed: MGMT_CORE_HELD alone changes. -/
theorem freeHart_getF (s : State) {h : Nat} (hh : h < 96) (pg : Page) (f : Fld)
    (hk : ∀ o, o / 4 = 0x16 ∨ o / 4 = 0x17 ∨ o / 4 = 0x18 → regKey pg f.off 0 ≠ regKey mgmtPg o 0) :
    (s.freeHart h).getF pg f = s.getF pg f :=
  (getF_setWord_other _ _ _ _ _ _ _ _ (hk _ (by omega))).trans rfl

theorem firstHart_lt {s : State} {h : Nat} (hf : s.firstHart = some h) : h < 96 := List.mem_range.1 (List.mem_of_find?_eq_some hf)

/-- Stage 7 done with good firmware (R602, R605). -/
def hostStarted (s : State) : State :=
  let s1 := s.setStage 7
  let s2 := if s1.getF srcPg Reg.CLK_STAT_COASTING == 1 then s1 else allDies.foldl State.toService s1
  let s3 := s2.notePromise (s2.setF cptPg Reg.CPT_CFG_FW_SIGNED 1)
  match s3.firstHart with
  | some h => s3.freeHart h
  | none => s3

theorem hostStarted_started (s : State) :
    s.hostStarted.getF mgmtPg Reg.MGMT_BOOT_STAGE = 7 ∧ s.hostStarted.getF cptPg Reg.CPT_CFG_FW_SIGNED = 1 := by
  have hfree (t : State) (f : Fld) (pg : Page) (hk : ∀ o, o / 4 = 0x16 ∨ o / 4 = 0x17 ∨ o / 4 = 0x18 → regKey pg f.off 0 ≠ regKey mgmtPg o 0) :
      (match t.firstHart with | some h => t.freeHart h | none => t).getF pg f = t.getF pg f := by
    cases hh : t.firstHart with
    | none => rfl
    | some h => exact t.freeHart_getF (firstHart_lt hh) pg f hk
  have hclk (t : State) (c : Prop) [Decidable c] :
      (if c then t else allDies.foldl State.toService t).getF mgmtPg Reg.MGMT_BOOT_STAGE = t.getF mgmtPg Reg.MGMT_BOOT_STAGE := by
    split
    · rfl
    · exact t.toService_getF (by decide) (by decide) (by decide) (by decide)
  have hkm : ∀ o, o / 4 = 0x16 ∨ o / 4 = 0x17 ∨ o / 4 = 0x18 → regKey mgmtPg Reg.MGMT_BOOT_STAGE.off 0 ≠ regKey mgmtPg o 0 := fun o ho =>
    regKey_ne_of_offset (by change 0x40 / 4 ≠ _; omega)
  have hkc : ∀ o, o / 4 = 0x16 ∨ o / 4 = 0x17 ∨ o / 4 = 0x18 → regKey cptPg Reg.CPT_CFG_FW_SIGNED.off 0 ≠ regKey mgmtPg o 0 := fun o ho =>
    regKey_ne_of_word (by decide) (by decide) (by decide) (by omega) (by decide) (by decide) (by change 0x40 / 4 ≠ _; omega)
  unfold hostStarted
  dsimp only
  constructor
  · refine (hfree _ _ _ hkm).trans ?_
    rw [getF_notePromise_other _ _ _ _ _ (by decide), getF_setF_other _ _ _ _ _ _ _ _ (by decide), hclk, getF_setStage_same _ (by decide)]
  · refine (hfree _ _ _ hkc).trans ?_
    rw [getF_notePromise_other _ _ _ _ _ (by decide), getF_setF_same _ _ _ _ _ (by decide)]
    rfl

end State

section Start

variable {s : State}

theorem exec_leverSwitchClose_of_good (hl : s.getF pciePg Reg.PCIE_HP_STATE_LEVER_CLOSED = 0) (hi : s.inputOk = true) (hx : s.conn.excess = false) :
    exec .leverSwitchClose s = .next { s.setF pciePg Reg.PCIE_HP_STATE_LEVER_CLOSED 1 with
      conn := { (s.setF pciePg Reg.PCIE_HP_STATE_LEVER_CLOSED 1).conn with qualAt := some s.aon } } := by
  have he : exec .leverSwitchClose s = execLeverSwitchClose s := rfl
  rw [he, execLeverSwitchClose]
  dsimp only
  rw [if_pos (by rw [hl, hi, hx]; rfl)]

theorem exec_auxPathOn_of_qualified (hq : s.qualified = true) (ha : s.getF pciePg Reg.PCIE_HSW_AUX_ON = 0) (i : Nat) :
    exec (.auxPathOn i) s = .next (s.coldStart (i % 16)) := by
  have he : exec (.auxPathOn i) s = execAuxPathOn i s := rfl
  rw [he, execAuxPathOn, if_pos (by rw [hq, ha]; rfl)]

theorem exec_overvoltageRecovery_of_excess (hx : s.conn.excess = true) (hl : s.getF pciePg Reg.PCIE_HP_STATE_LEVER_CLOSED = 1) (i : Nat) :
    exec (.overvoltageRecovery i) s = .next (s.coldStart (i % 16)) := by
  have he : exec (.overvoltageRecovery i) s = execOvervoltageRecovery i s := rfl
  rw [he, execOvervoltageRecovery, if_pos (by rw [hx, hl]; rfl)]

/-- Stage 1 of a module that no image waits for (R602, R605). -/
theorem exec_rom_of_own (h : s.AuxOn) (h0 : s.atStage 0 = true) (hi : s.conn.image = none) : ∃ u : State, exec .rom s =
    .next (if s.fuses.ctlImageOk = true then (u.setStage 1).noteReset 6 0 0
      else ((u.setStage 1).noteReset 6 0 0).setF mgmtPg Reg.MGMT_BOOT_ERROR 1) := by
  have he : exec .rom s = execRom s := rfl
  rw [he, execRom, auxAct_of_auxOn h, if_neg (by rw [h0]; decide), hi]
  exact ⟨_, rfl⟩

theorem exec_mc_of_stage (h : s.AuxOn) (h1 : s.atStage 1 = true) : exec .mc s = .next s.mcStarted := by
  have he : exec .mc s = execMc s := rfl
  rw [he, execMc, auxAct_of_auxOn h, if_neg (by rw [h1]; decide)]
  rfl

/-- The main path on, and the credit of each flash counted from now (R602, R661). -/
def State.mainOn (s : State) : State :=
  let on (t : State) (nd : Nat) : State := t.setFlash nd { t.flash nd with accrued := t.aon }
  on (on (s.setF pciePg Reg.PCIE_HSW_MAIN_ON 1) 0) 1

theorem State.setFlash_main (s : State) (nd : Nat) (x : Flash) :
    (s.setFlash nd x).getF pciePg Reg.PCIE_HSW_MAIN_ON = s.getF pciePg Reg.PCIE_HSW_MAIN_ON := by
  have hk (f : Fld) (hf : f.off < 4096) : regKey pciePg Reg.PCIE_HSW_MAIN_ON.off 0 ≠ regKey (State.whcPg nd) f.off 0 :=
    regKey_ne_of_page (q := State.whcPg nd) (by decide) (show 0 < 256 by decide) (by decide) hf (by decide) (by decide)
      (by unfold State.whcPg pciePg; simp)
  unfold State.setFlash
  dsimp only
  rw [State.getF_setF_other _ _ _ _ _ _ _ _ (hk _ (by decide)), State.getF_setF_other _ _ _ _ _ _ _ _ (hk _ (by decide)),
    State.getF_setF_other _ _ _ _ _ _ _ _ (hk _ (by decide))]
  rfl

theorem State.mainOn_main (s : State) : s.mainOn.getF pciePg Reg.PCIE_HSW_MAIN_ON = 1 := by
  unfold State.mainOn
  dsimp only
  rw [State.setFlash_main, State.setFlash_main, State.getF_setF_same _ _ _ _ _ (by decide)]
  rfl

theorem exec_mainPower_of_stage (h : s.AuxOn) (h2 : s.atStage 2 = true) (hp : s.hpState < 4) (hf : s.conn.failed = false)
    (ho : s.getF pciePg Reg.PCIE_HSW_OC_LATCHED = 0) : exec .mainPower s = .next (s.mainOn.setStage 3) := by
  have he : exec .mainPower s = execMainPower s := rfl
  rw [he, execMainPower, auxAct_of_auxOn h, if_pos (by rw [h2, hf, ho, decide_eq_true hp]; rfl)]
  rfl

theorem exec_links_of_good (h : s.Live) (h3 : s.atStage 3 = true) : exec (.links []) s = .next ((allDies.foldl State.trainLinks s).setStage 4) := by
  have he : exec (.links []) s = execLinks [] s := rfl
  rw [he, execLinks, act_of_live h, if_neg (by rw [h3]; decide)]
  simp only [List.filter_nil, List.foldl_nil]

theorem exec_memory_of_stage (h : s.Live) (h4 : s.atStage 4 = true) (x y : List Nat) : ∃ u : State, exec (.memory x y) s = .next (u.setStage 5) := by
  have he : exec (.memory x y) s = execMemory x y s := rfl
  rw [he, execMemory, act_of_live h, if_neg (by rw [h4]; decide)]
  exact ⟨_, rfl⟩

/-- Stage 6 is left with or without an error, by what passed (R606). -/
theorem exec_bist_of_stage (h : s.Live) (h5 : s.atStage 5 = true) (x y : List (Die × Nat)) : ∃ u : State, exec (.bist x y) s =
    .next (if (u.setStage 6).minimumMet x then u.setStage 6 else (u.setStage 6).setF mgmtPg Reg.MGMT_BOOT_ERROR 3) := by
  have he : exec (.bist x y) s = execBist x y s := rfl
  rw [he, execBist, act_of_live h, if_neg (by rw [h5]; decide)]
  exact ⟨_, rfl⟩

theorem exec_host_of_good (h : s.Live) (h6 : s.atStage 6 = true) (hi : s.fuses.hostImageOk = true) : exec .host s = .next s.hostStarted := by
  have he : exec .host s = execHost s := rfl
  rw [he, execHost, act_of_live h, if_neg (by rw [h6]; decide)]
  dsimp only
  rw [if_neg (by rw [hi]; decide)]
  rfl

theorem exec_host_of_bad (h : s.Live) (h6 : s.atStage 6 = true) (hi : s.fuses.hostImageOk = false) :
    exec .host s = .next ((s.setStage 7).setF mgmtPg Reg.MGMT_BOOT_ERROR 2) := by
  have he : exec .host s = execHost s := rfl
  rw [he, execHost, act_of_live h, if_neg (by rw [h6]; decide)]
  dsimp only
  rw [if_pos (by rw [hi]; rfl)]

/-- The module open: accesses are checked, the pool is open (R604). -/
def State.opened (s : State) : State := ((s.setF mgmtPg Reg.MGMT_BOOT_OPEN 1).setF ⟨.T0, .hbmc, 0⟩ Reg.HBMC_CFG_LOCKED 1).setStage 9

theorem State.opened_open (s : State) : s.opened.getF mgmtPg Reg.MGMT_BOOT_OPEN = 1 ∧ s.opened.hpState = s.hpState := by
  unfold State.opened State.hpState State.setStage
  constructor
  · rw [State.getF_setF_beside _ _ _ _ _ _ (by decide) (by decide) (by decide), State.getF_setF_other _ _ _ _ _ _ _ _ (by decide),
      State.getF_setF_same _ _ _ _ _ (by decide)]
    rfl
  · rw [State.getF_setF_other _ _ _ _ _ _ _ _ (by decide), State.getF_setF_other _ _ _ _ _ _ _ _ (by decide),
      State.getF_setF_other _ _ _ _ _ _ _ _ (by decide)]

theorem exec_openBoot_of_stage (h : s.Live) (h7 : s.atStage 7 = true) (h0 : s.hpState = 0) :
    exec .openBoot s = .next (s.opened.setF pciePg Reg.PCIE_HP_STATE_STATE 1) := by
  have he : exec .openBoot s = execOpenBoot s := rfl
  have hhp := s.opened_open.2
  rw [State.opened] at hhp
  rw [he, execOpenBoot, act_of_live h, if_neg (by rw [h7]; decide)]
  dsimp only
  rw [hhp, h0]
  rfl

end Start

end Sys2Proof.Machine

namespace Sys2Proof

open Sys2Proof.Machine

/-- Settles O43: a case per stage; each sets MGMT_BOOT.STAGE last or leaves it. -/
theorem startStages : Obligations.StartStages := by
  unfold Obligations.StartStages
  refine ⟨fun s hl hi hx => ?_, fun i s hq ha => exec_auxPathOn_of_qualified hq ha i, fun s h h0 hi hok => ?_, fun s h h0 hi hok => ?_,
    fun s h h1 => ?_, fun s h h2 hp hf ho => ?_, fun s h h3 => exec_links_of_good h h3, fun x y s h h4 => ?_, fun x y s h h5 => ?_,
    fun s h h6 hi => ⟨_, exec_host_of_good h h6 hi, s.hostStarted_started⟩, fun s h h6 hi => exec_host_of_bad h h6 hi, fun s h h7 h0 => ?_,
    fun i s hx hl => exec_overvoltageRecovery_of_excess hx hl i⟩
  · exact ⟨_, exec_leverSwitchClose_of_good hl hi hx, State.getF_setF_same s _ Reg.PCIE_HP_STATE_LEVER_CLOSED 1 _ (by decide), rfl⟩
  · obtain ⟨u, he⟩ := exec_rom_of_own h h0 hi
    rw [if_pos hok] at he
    exact ⟨_, he, by rw [State.noteReset_stage, State.getF_setStage_same _ (by decide)]⟩
  · obtain ⟨u, he⟩ := exec_rom_of_own h h0 hi
    rw [if_neg (by rw [hok]; decide)] at he
    exact ⟨_, he, State.getF_setF_same _ _ Reg.MGMT_BOOT_ERROR _ _ (by decide)⟩
  · obtain ⟨hst, hlatch, hmated⟩ := s.mcStarted_started
    exact ⟨_, exec_mc_of_stage h h1, hst, hlatch, congrArg Prod.fst hmated, congrArg Prod.snd hmated⟩
  · refine ⟨_, exec_mainPower_of_stage h h2 hp hf ho, State.getF_setStage_same _ (by decide), ?_⟩
    rw [State.getF_setStage_other _ _ _ _ _ (by decide), State.mainOn_main]
  · obtain ⟨u, he⟩ := exec_memory_of_stage h h4 x y
    exact ⟨_, he, State.getF_setStage_same _ (by decide)⟩
  · obtain ⟨u, he⟩ := exec_bist_of_stage h h5 x y
    refine ⟨_, he, ?_⟩
    split
    · exact State.getF_setStage_same _ (by decide)
    · rw [State.setError_stage, State.getF_setStage_same _ (by decide)]
  · refine ⟨_, exec_openBoot_of_stage h h7 h0, ?_, State.getF_setF_same _ _ Reg.PCIE_HP_STATE_STATE _ _ (by decide)⟩
    rw [State.getF_setF_other _ _ _ _ _ _ _ _ (by decide), s.opened_open.1]

end Sys2Proof

/-! PROOFS. What the loss of main power leaves of the registers (R597, R608, R618). -/

namespace Sys2Proof.Machine

/-- An entry that a filter keeps under its key is found with its new value. -/
theorem find_filterMap {α : Type} (m : SMap α) (g : Nat × α → Option (Nat × α)) (k : Nat) (f : α → α)
    (hk : ∀ v, g (k, v) = some (k, f v)) (ho : ∀ e e', g e = some e' → e'.1 = e.1) :
    SMap.find (m.filterMap g) k = (SMap.find m k).map f := by
  induction m with
  | nil => rfl
  | cons e t ih =>
    obtain ⟨a, v⟩ := e
    by_cases hak : k = a
    · subst hak
      simp [hk v, SMap.find]
    · cases hg : g (a, v) with
      | none => simp [hg, SMap.find, hak, ih]
      | some e' =>
        have ha : e'.1 = a := ho _ _ hg
        have hne : ¬ k = e'.1 := ha ▸ hak
        simp [hg, SMap.find, hak, hne, ih]

namespace State

/-- A register word after a reset that keeps the bits of `m`. -/
def keptWord (w r m : Nat) : Nat := (BitVec.ofNat 32 (w &&& m ||| r &&& (m ^^^ 0xFFFFFFFF))).toNat

theorem testBit_keptWord (w r : Nat) {m i : Nat} (hi : i < 32) (hm : m.testBit i = true) : (keptWord w r m).testBit i = w.testBit i := by
  have h1 : (m ^^^ 0xFFFFFFFF).testBit i = false := by
    rw [Nat.testBit_xor, hm, show (0xFFFFFFFF : Nat) = 2 ^ 32 - 1 by norm_num, Nat.testBit_two_pow_sub_one]
    simp [hi]
  rw [keptWord, BitVec.toNat_ofNat, Nat.testBit_mod_two_pow, Nat.testBit_or, Nat.testBit_and, Nat.testBit_and, hm, h1]
  simp [hi]

section Cleared

variable (s : State) (p : Page → Bool) (keep : Page → Nat → Nat) (pg : Page) (off : Nat)

/-- An entry some of whose bits a reset keeps is found where it was (R608). -/
theorem find_clearRegs {k : Nat} (hg : pageAt (keyPage k) = some pg) (ho : keyOff k = off) (hp : p pg = true) (hm : keep pg off ≠ 0) :
    SMap.find (s.clearRegs p keep).regs k = (SMap.find s.regs k).map fun v =>
      BitVec.ofNat 32 (v.toNat &&& keep pg off ||| resetWord s.fuses pg off (keyBank k) &&& (keep pg off ^^^ 0xFFFFFFFF)) := by
  refine find_filterMap _ _ _ _ (fun v => ?_) fun e e' he => ?_
  · simp [hg, hp, ho, hm, Option.filter]
  · dsimp only at he
    split at he
    · rw [← Option.some.inj he]
    · split at he
      · cases he
      · rw [← Option.some.inj he]

/-- A bit that a reset keeps reads as before (R608). -/
theorem testBit_clearRegs {i : Nat} (hg : pageAt (keyPage (regKey pg off 0)) = some pg) (ho : keyOff (regKey pg off 0) = off)
    (hp : p pg = true) (hi : i < 32) (hm : (keep pg off).testBit i = true) :
    ((s.clearRegs p keep).word pg off).testBit i = (s.word pg off).testBit i := by
  have h0 : keep pg off ≠ 0 := fun h => by simp [h] at hm
  unfold word
  rw [find_clearRegs s p keep pg off hg ho hp h0]
  cases SMap.find s.regs (regKey pg off 0) with
  | none => rfl
  | some v => exact testBit_keptWord _ _ hi hm

/-- A field whose bits a reset keeps reads as before (R608). -/
theorem getF_clearRegs (f : Fld) (hg : pageAt (keyPage (regKey pg f.off 0)) = some pg) (ho : keyOff (regKey pg f.off 0) = f.off)
    (hp : p pg = true) (hf : f.lo + f.w ≤ 32) (hm : ∀ i < f.w, (keep pg f.off).testBit (f.lo + i) = true) :
    (s.clearRegs p keep).getF pg f = s.getF pg f := by
  refine Nat.eq_of_testBit_eq fun i => ?_
  unfold getF
  rw [testBit_bitsOf, testBit_bitsOf]
  by_cases hi : i < f.w
  · rw [testBit_clearRegs s p keep pg f.off hg ho hp (by omega) (hm i hi)]
  · simp [hi]

end Cleared

/-! ### The main path goes off (R596, R597) -/

/-- The word of a field is none of those that the retired arrays and engines show. -/
abbrev NotEngine (f : Fld) : Prop := f.off / 4 % 1024 ≠ 16 ∧ f.off / 4 % 1024 ≠ 17 ∧ f.off / 4 % 1024 ≠ 5

/-- Words at different places of their pages have different keys, whatever the pages. -/
theorem regKey_ne_of_place {p q : Page} {o o' : Nat} (h : o / 4 % 1024 ≠ o' / 4 % 1024) : regKey p o 0 ≠ regKey q o' 0 := by
  unfold regKey
  omega

theorem setLive_getF (s : State) (d : Die) (e m : Nat) (pg : Page) (f : Fld) (h : NotEngine f) : (s.setLive d e m).getF pg f = s.getF pg f := by
  unfold setLive
  rw [getF_setF_other _ _ _ Reg.ENG_CAP_LIVE_COUNT _ _ _ _ (regKey_ne_of_place h.1),
    getF_setF_other _ _ _ Reg.ENG_CAP_LIVE_MASK _ _ _ _ (regKey_ne_of_place h.1)]

/-- What the ledger retired is shown on the engines' pages alone (R143). -/
theorem applyRetired_getF (s : State) (pg : Page) (f : Fld) (h : NotEngine f) : s.applyRetired.getF pg f = s.getF pg f := by
  unfold applyRetired
  dsimp only
  rw [foldl_frame (π := fun t : State => t.getF pg f), foldl_frame (π := fun t : State => t.getF pg f)]
  · exact fun t r => setLive_getF _ _ _ _ _ _ h
  · intro t u
    rw [getF_setF_other _ _ _ Reg.PAGE_STAT_UNUSABLE _ _ _ _ (regKey_ne_of_place h.2.2),
      getF_setF_other _ _ _ Reg.ENG_STATUS_RETIRED _ _ _ _ (regKey_ne_of_place h.2.1),
      getF_setF_other _ _ _ Reg.ENG_CAP_ENABLED _ _ _ _ (regKey_ne_of_place h.1)]

/-- What a reset of the module keeps of a field: its place, its bits, and no engine's word (R608, R618). -/
structure MainKept (pg : Page) (f : Fld) : Prop where
  page : pageAt (keyPage (regKey pg f.off 0)) = some pg
  place : keyOff (regKey pg f.off 0) = f.off
  width : f.lo + f.w ≤ 32
  bits : ∀ i < f.w, (moduleKept pg f.off).testBit (f.lo + i) = true
  engine : NotEngine f
  freeze : regKey pg f.off 0 ≠ regKey frzPg Reg.FRZ_STAT_STATE.off 0

theorem clearMain_getF (s : State) {pg : Page} {f : Fld} (h : MainKept pg f) : s.clearMain.getF pg f = s.getF pg f := by
  have hc := getF_clearRegs (s.zeroBytes cisternBase 0x800000000) (fun _ => true) moduleKept pg f h.page h.place rfl h.width h.bits
  have hf := getF_setF_other ((s.zeroBytes cisternBase 0x800000000).clearRegs (fun _ => true) moduleKept) frzPg pg Reg.FRZ_STAT_STATE f
    0 0 0 h.freeze
  exact (applyRetired_getF _ pg f h.engine).trans (hf.trans hc)

theorem applyRetired_conn (s : State) : s.applyRetired.conn = s.conn := by
  unfold applyRetired
  dsimp only
  rw [foldl_frame (π := State.conn), foldl_frame (π := State.conn)]
  · exact fun _ _ => rfl
  · exact fun _ _ => rfl

theorem clearMain_conn (s : State) : s.clearMain.conn = s.conn := applyRetired_conn _

section Accrual

variable (s : State) (nd : Nat) (pg : Page) (f : Fld)

theorem regKey_ne_whc (hp : pg.blk ≠ .whc) (hi : pg.inst < 256) (hf : f.off < 4096) {o : Nat} (ho : o < 4096) :
    regKey pg f.off 0 ≠ regKey (whcPg nd) o 0 :=
  regKey_ne_of_page hi (q := whcPg nd) (by exact (by decide : 0 < 256)) hf ho (by decide) (by decide) fun h => hp (h ▸ rfl)

theorem setFlash_getF (x : Flash) (hp : pg.blk ≠ .whc) (hi : pg.inst < 256) (hf : f.off < 4096) :
    (s.setFlash nd x).getF pg f = s.getF pg f := by
  unfold setFlash
  dsimp only
  rw [getF_setF_other _ _ _ Reg.WHC_CREDIT_GIB _ _ _ _ (regKey_ne_whc nd pg f hp hi hf (by decide)),
    getF_setF_other _ _ _ Reg.WHC_HOST_GIB _ _ _ _ (regKey_ne_whc nd pg f hp hi hf (by decide)),
    getF_setF_other _ _ _ Reg.WHC_PROGRAMMED_GIB _ _ _ _ (regKey_ne_whc nd pg f hp hi hf (by decide))]
  rfl

/-- The end of pacing changes the warehouse's page alone (R661). -/
theorem endPacing_getF (hp : pg.blk ≠ .whc) (hi : pg.inst < 256) (hf : f.off < 4096) : (s.endPacing nd).getF pg f = s.getF pg f := by
  unfold endPacing
  dsimp only
  split
  · rfl
  · rw [getF_bump_other _ _ _ Reg.WHC_PACED_US _ _ _ _ (regKey_ne_whc nd pg f hp hi hf (by decide)),
      getF_setF_other _ _ _ Reg.WHC_STAT_PACED _ _ _ _ (regKey_ne_whc nd pg f hp hi hf (by decide)), setFlash_getF _ _ _ _ _ hp hi hf]

/-- Accruing credit changes the warehouse's pages alone (R661). -/
theorem accrue_getF (hp : pg.blk ≠ .whc) (hi : pg.inst < 256) (hf : f.off < 4096) : (s.accrue nd).getF pg f = s.getF pg f := by
  unfold accrue
  dsimp only
  split
  · rw [endPacing_getF _ _ _ _ hp hi hf, setFlash_getF _ _ _ _ _ hp hi hf]
  · exact setFlash_getF _ _ _ _ _ hp hi hf

theorem setFlash_conn (x : Flash) : (s.setFlash nd x).conn = s.conn := by
  unfold setFlash
  simp

theorem endPacing_conn : (s.endPacing nd).conn = s.conn := by
  unfold endPacing
  split
  · rfl
  · simp [setFlash_conn]

theorem accrue_conn : (s.accrue nd).conn = s.conn := by
  unfold accrue
  dsimp only
  split
  · rw [endPacing_conn, setFlash_conn]
  · exact setFlash_conn _ _ _

end Accrual

/-- The credit of both network dies accrued, where the main path is on (R661). -/
def accrued (s : State) : State := if s.getF pciePg Reg.PCIE_HSW_MAIN_ON == 1 then (s.accrue 0).accrue 1 else s

theorem accrued_getF (s : State) (pg : Page) (f : Fld) (hp : pg.blk ≠ .whc) (hi : pg.inst < 256) (hf : f.off < 4096) :
    s.accrued.getF pg f = s.getF pg f := by
  unfold accrued
  split
  · rw [accrue_getF _ _ _ _ hp hi hf, accrue_getF _ _ _ _ hp hi hf]
  · rfl

theorem accrued_conn (s : State) : s.accrued.conn = s.conn := by
  unfold accrued
  split
  · rw [accrue_conn, accrue_conn]
  · rfl

theorem withBytes_getF (s : State) (m : Memory) (b : List (Nat × Nat)) (pg : Page) (f : Fld) :
    State.getF { s with mem := m, bad := b } pg f = s.getF pg f := rfl

/-- The main path off, and the management controller in stage 2, over a state without what the main path fed. -/
theorem mainOff_eq (s : State) : s.mainOff =
    (State.setF { s.accrued.clearMain with mem := [], bad := [] } pciePg Reg.PCIE_HSW_MAIN_ON 0).setF mgmtPg Reg.MGMT_BOOT_STAGE 2 := rfl

theorem mainOff_main (s : State) : s.mainOff.getF pciePg Reg.PCIE_HSW_MAIN_ON = 0 := by
  rw [mainOff_eq, getF_setF_other _ _ _ _ _ _ _ _ (by decide), getF_setF_same _ _ _ _ _ (by decide)]
  rfl

theorem mainOff_conn (s : State) : s.mainOff.conn = s.conn := by
  rw [mainOff_eq]
  exact (clearMain_conn _).trans s.accrued_conn

theorem mainOff_getF (s : State) {f : Fld} (h : MainKept pciePg f) (hf : f.off < 4096)
    (hm : ∀ t : State, (t.setF pciePg Reg.PCIE_HSW_MAIN_ON 0).getF pciePg f = t.getF pciePg f)
    (hs : regKey pciePg f.off 0 ≠ regKey mgmtPg 0x40 0) : s.mainOff.getF pciePg f = s.getF pciePg f := by
  rw [mainOff_eq, getF_setF_other _ _ _ Reg.MGMT_BOOT_STAGE _ _ _ _ hs, hm, withBytes_getF, clearMain_getF _ h,
    accrued_getF _ _ _ (by decide) (by decide) hf]

theorem pageAt_pcie : pageAt (pageNo pciePg) = some pciePg := by decide

theorem leverKept : MainKept pciePg Reg.PCIE_HP_STATE_LEVER_CLOSED :=
  ⟨(congrArg pageAt (by decide)).trans pageAt_pcie, rfl, by decide, fun i hi => by obtain rfl := Nat.lt_one_iff.1 hi; rfl, by decide, by decide⟩

theorem latchedKept : MainKept pciePg Reg.PCIE_HSW_OC_LATCHED :=
  ⟨(congrArg pageAt (by decide)).trans pageAt_pcie, rfl, by decide, fun i hi => by obtain rfl := Nat.lt_one_iff.1 hi; rfl, by decide, by decide⟩

theorem mainOff_lever (s : State) : s.mainOff.getF pciePg Reg.PCIE_HP_STATE_LEVER_CLOSED = s.getF pciePg Reg.PCIE_HP_STATE_LEVER_CLOSED :=
  s.mainOff_getF leverKept (by decide) (fun t => getF_setF_other _ _ _ Reg.PCIE_HSW_MAIN_ON _ _ _ _ (by decide)) (by decide)

theorem mainOff_latched (s : State) : s.mainOff.getF pciePg Reg.PCIE_HSW_OC_LATCHED = s.getF pciePg Reg.PCIE_HSW_OC_LATCHED :=
  s.mainOff_getF latchedKept (by decide) (fun t => getF_setF_beside _ _ Reg.PCIE_HSW_MAIN_ON _ _ _ (by decide) (by decide) (by decide)) (by decide)

/-! ### The power-fail sequence (R597) -/

/-- The removal record written, the main path off, and the failure noted (R597). -/
def failNow (s : State) (cause : Nat) : State :=
  let s2 := (s.ledg .removal [cause, s.hpState, s.ledger.insertions]).mainOff
  { s2 with conn := { s2.conn with failed := true } }

theorem powerFail_of_first (s : State) (cause : Nat) (hf : s.conn.failed = false) (ha : s.AuxOn) : s.powerFail cause = s.failNow cause := by
  have ha' : s.getF pciePg Reg.PCIE_HSW_AUX_ON = 1 := ha
  rw [powerFail, hf, ha']
  rfl

theorem failNow_conn (s : State) (cause : Nat) : (s.failNow cause).conn = { s.conn with failed := true } := by
  unfold failNow
  dsimp only
  rw [mainOff_conn, ledg_conn]

theorem withConn_getF (s : State) (c : Conn) (pg : Page) (f : Fld) : State.getF { s with conn := c } pg f = s.getF pg f := rfl

theorem failNow_main (s : State) (cause : Nat) : (s.failNow cause).getF pciePg Reg.PCIE_HSW_MAIN_ON = 0 := by
  unfold failNow
  dsimp only
  rw [withConn_getF, mainOff_main]

theorem failNow_lever (s : State) (cause : Nat) :
    (s.failNow cause).getF pciePg Reg.PCIE_HP_STATE_LEVER_CLOSED = s.getF pciePg Reg.PCIE_HP_STATE_LEVER_CLOSED := by
  unfold failNow
  dsimp only
  rw [withConn_getF, mainOff_lever, ledg_getF _ _ _ _ _ (by decide)]

theorem failNow_latched (s : State) (cause : Nat) :
    (s.failNow cause).getF pciePg Reg.PCIE_HSW_OC_LATCHED = s.getF pciePg Reg.PCIE_HSW_OC_LATCHED := by
  unfold failNow
  dsimp only
  rw [withConn_getF, mainOff_latched, ledg_getF _ _ _ _ _ (by decide)]

end State

end Sys2Proof.Machine

/-! PROOFS. The connector: input, lever, button and power-down (R574 to R601). -/

namespace Sys2Proof.Machine

namespace State

/-! ### The hot-plug state (R592, R600) -/

theorem hpState_setHp (s : State) {k : Nat} (hk : k < 8) : (s.setHp k).hpState = k := by
  rw [hpState, setHp, getF_setF_same _ _ _ _ _ (by decide)]
  exact Nat.mod_eq_of_lt hk

theorem hpState_of_getF {s t : State} (h : t.getF pciePg Reg.PCIE_HP_STATE_STATE = s.getF pciePg Reg.PCIE_HP_STATE_STATE) :
    t.hpState = s.hpState := h

theorem setVolt_getF (s : State) (mv : Nat) (f : Fld) (h : f.off / 4 ≠ 0x60 / 4) : (s.setVolt mv).getF pciePg f = s.getF pciePg f :=
  getF_setF_offset _ _ Reg.PCIE_IN_VOLT _ _ h

theorem setVolt_conn (s : State) (mv : Nat) : (s.setVolt mv).conn = s.conn := setF_conn _ _ _ _ _

theorem hpState_pldm (s : State) (e : String) : (s.pldm e).hpState = s.hpState := rfl

theorem hpState_raise (s : State) (n : Nat) : (s.raise pciePg n).hpState = s.hpState := getF_raise_offset _ _ _ _ (by decide)

theorem hpState_press (s : State) : (s.bump pciePg Reg.PCIE_HP_BTN_PRESSES).hpState = s.hpState := getF_bump_offset _ _ _ _ _ (by decide)

theorem hpState_enterDrain (s : State) : s.enterDrain.hpState = 3 := by
  unfold enterDrain
  rw [hpState_pldm, hpState_raise, hpState_setHp _ (by decide)]

theorem enterDrain_drainAt (s : State) : s.enterDrain.conn.drainAt = s.base := by
  unfold enterDrain setHp
  simp

theorem hpState_enterDown (s : State) : s.enterDown.hpState = 4 := hpState_setHp _ (by decide)

/-! ### The link goes down (R600, R601, R644) -/

theorem linkTimeout_getF (s : State) (k : Nat) (f : Fld) (hf : f.off < 4096) : (s.linkTimeout k).getF pciePg f = s.getF pciePg f := by
  have hk (o : Nat) (ho : o < 4096) : regKey pciePg f.off 0 ≠ regKey frzPg o 0 :=
    regKey_ne_of_page (by decide) (by decide) hf ho (by decide) (by decide) (by decide)
  unfold linkTimeout
  split
  · rfl
  · rw [pldm_getF, getF_raise_other _ _ _ _ _ _ (hk _ (by decide)), getF_setF_other _ _ _ Reg.FRZ_TIMEOUT_CAUSE _ _ _ _ (hk _ (by decide)),
      getF_setF_other _ _ _ Reg.FRZ_STAT_TIMEOUTS _ _ _ _ (hk _ (by decide))]

/-- The fields of the link read 0 once it is down (R600). -/
theorem dropLink_down (s : State) : s.dropLink.getF pciePg Reg.PCIE_LINK_DL_ACTIVE = 0 := by
  unfold dropLink
  split
  next h => exact eq_of_beq h
  next h =>
    rw [linkTimeout_getF _ _ _ (by decide), getF_raise_offset _ _ _ _ (by decide), getF_bump_offset _ _ _ _ _ (by decide)]
    unfold getF
    rw [show Reg.PCIE_LINK_DL_ACTIVE.off = 0x40 from rfl, word_setWord_same]
    rfl

end State

/-! ### Input and lever (R574, R581 to R583, R597) -/

section Input

variable {s : State}

/-- A state whose qualification is given up. -/
def State.unqualified (s : State) : State := { s with conn := { s.conn with qualAt := none } }

theorem exec_leverSwitchOpen_of_first (ha : s.AuxOn) (hf : s.conn.failed = false) (h5 : s.hpState ≠ 5) :
    exec .leverSwitchOpen s = .next ((s.unqualified.setF pciePg Reg.PCIE_HP_STATE_LEVER_CLOSED 0).failNow 1) := by
  have he : exec .leverSwitchOpen s = execLeverSwitchOpen s := rfl
  have h5' : (s.hpState == 5) = false := beq_false_of_ne h5
  have hon : (s.unqualified.setF pciePg Reg.PCIE_HP_STATE_LEVER_CLOSED 0).AuxOn :=
    (State.getF_setF_offset _ _ _ _ _ (by decide)).trans ha
  rw [he, execLeverSwitchOpen, h5', ← State.powerFail_of_first _ 1 (by rw [State.setF_conn]; exact hf) hon]
  rfl

theorem exec_inputUndervoltage_of_first {mv : Nat} (ha : s.AuxOn) (hf : s.conn.failed = false) (hv : mv < 42000) :
    exec (.inputUndervoltage mv) s = .next ((s.unqualified.setVolt mv).failNow 2) := by
  have he : exec (.inputUndervoltage mv) s = execInputUndervoltage mv s := rfl
  have hon : (s.unqualified.setVolt mv).AuxOn := (State.setVolt_getF _ _ _ (by decide)).trans ha
  rw [he, execInputUndervoltage, if_neg (by omega), ← State.powerFail_of_first _ 2 (by rw [State.setVolt_conn]; exact hf) hon]
  rfl

/-- The input measured above its range: no qualification, and the excess noted (R583). -/
def State.overVolt (s : State) (mv : Nat) : State :=
  (State.setVolt { s with conn := { s.conn with qualAt := none, excess := true } } mv).setF pciePg Reg.PCIE_HSW_OV 1

theorem State.overVolt_conn (s : State) (mv : Nat) : (s.overVolt mv).conn = { s.conn with qualAt := none, excess := true } := by
  rw [overVolt, setF_conn, setVolt_conn]

theorem exec_inputOvervoltage_of_first {mv : Nat} (ha : s.AuxOn) (hf : s.conn.failed = false) (hv : 62000 < mv) :
    exec (.inputOvervoltage mv) s = .next (((s.overVolt mv).failNow 3).setF pciePg Reg.PCIE_HSW_AUX_ON 0) := by
  have he : exec (.inputOvervoltage mv) s = execInputOvervoltage mv s := rfl
  have hon : (s.overVolt mv).AuxOn :=
    (State.getF_setF_beside _ _ _ _ _ _ (by decide) (by decide) (by decide)).trans ((State.setVolt_getF _ _ _ (by decide)).trans ha)
  rw [he, execInputOvervoltage, if_neg (by omega), ← State.powerFail_of_first _ 3 (by rw [State.overVolt_conn]; exact hf) hon]
  rfl

/-- The main path's current measured, and its latch set (R583). -/
def State.tripped (s : State) (ma : Nat) : State :=
  (s.setF pciePg Reg.PCIE_IN_CURR (min (ma / 10) 0xFFFF)).setF pciePg Reg.PCIE_HSW_OC_LATCHED 1

theorem exec_mainOvercurrent_of_first {ma : Nat} (ha : s.AuxOn) (hf : s.conn.failed = false) (hm : s.getF pciePg Reg.PCIE_HSW_MAIN_ON = 1)
    (hi : 75000 < ma) : exec (.mainOvercurrent ma) s = .next ((s.tripped ma).failNow 4) := by
  have he : exec (.mainOvercurrent ma) s = execMainOvercurrent ma s := rfl
  have hon : (s.tripped ma).AuxOn :=
    (State.getF_setF_beside _ _ _ _ _ _ (by decide) (by decide) (by decide)).trans ((State.getF_setF_offset _ _ _ _ _ (by decide)).trans ha)
  rw [he, execMainOvercurrent, hm, if_neg (by simp; omega),
    ← State.powerFail_of_first _ 4 (by rw [State.tripped, State.setF_conn, State.setF_conn]; exact hf) hon]
  rfl

/-- The warning of a low input, at its beginning (R581, R601). -/
def State.warnVolt (s : State) (mv : Nat) : State :=
  let s1 := s.setVolt mv
  if s.getF pciePg Reg.PCIE_HSW_UV_WARN == 1 then s1 else (s1.setF pciePg Reg.PCIE_HSW_UV_WARN 1).raise pciePg 3

theorem State.warnVolt_warned (s : State) (mv : Nat) :
    (s.warnVolt mv).getF pciePg Reg.PCIE_HSW_UV_WARN = 1 ∧ State.SameMemory s (s.warnVolt mv) := by
  unfold warnVolt
  dsimp only
  split
  next h => exact ⟨(setVolt_getF _ _ _ (by decide)).trans (eq_of_beq h), setF_sameMemory _ _ _ _ _⟩
  next h =>
    refine ⟨?_, (setF_sameMemory _ _ _ _ _).trans ((setF_sameMemory _ _ _ _ _).trans (raise_sameMemory _ _ _))⟩
    rw [getF_raise_offset _ _ _ _ (by decide), getF_setF_same _ _ _ _ _ (by decide)]
    rfl

theorem exec_uvWarn_of_low {mv : Nat} (ha : s.AuxOn) (h1 : 42000 ≤ mv) (h2 : mv < 48000) : exec (.uvWarn mv) s = .next (s.warnVolt mv) := by
  have he : exec (.uvWarn mv) s = execUvWarn mv s := rfl
  rw [he, execUvWarn, auxAct_of_auxOn ha, if_neg (by simp; omega)]
  rfl

theorem exec_undervoltageLockoutRelease_of_good {mv : Nat} (h1 : 44000 ≤ mv) (h2 : mv ≤ 60000) (hx : s.conn.excess = false)
    (hq : s.conn.qualAt = none) (hl : s.getF pciePg Reg.PCIE_HP_STATE_LEVER_CLOSED = 1) :
    exec (.undervoltageLockoutRelease mv) s =
      .next { s.setVolt mv with conn := { (s.setVolt mv).conn with qualAt := some s.aon } } := by
  have he : exec (.undervoltageLockoutRelease mv) s = execUndervoltageLockoutRelease mv s := rfl
  have h2' : ¬ 60000 < mv := by omega
  rw [he, execUndervoltageLockoutRelease, if_neg (by simp [hx]; omega), hl, hq]
  rfl

theorem exec_reducedRangeExit_of_good {mv : Nat} (ha : s.AuxOn) (h1 : 48000 ≤ mv) (h2 : mv ≤ 62000) :
    exec (.reducedRangeExit mv) s = .next ((s.setVolt mv).setF pciePg Reg.PCIE_HSW_UV_WARN 0) := by
  have he : exec (.reducedRangeExit mv) s = execReducedRangeExit mv s := rfl
  rw [he, execReducedRangeExit, auxAct_of_auxOn ha, if_pos (by simp [h1, h2])]

theorem exec_auxiliaryPathOff_of_failed (ha : s.AuxOn) (hf : s.conn.failed = true) : exec .auxiliaryPathOff s =
    .next ((s.setF pciePg Reg.PCIE_HSW_AUX_ON 0).setF pciePg Reg.PCIE_HP_STATE_LATCH_LOCKED 0) := by
  have he : exec .auxiliaryPathOff s = execAuxiliaryPathOff s := rfl
  rw [he, execAuxiliaryPathOff, auxAct_of_auxOn ha, if_pos (by simp [hf])]

end Input

/-! ### Hot-plug (R592, R594, R595, R598) -/

section HotPlug

variable {s : State}

/-- The button is pressed in service: the window to abort opens (R592). -/
def State.openWindow (s : State) : State := State.setHp { s with conn := { s.conn with windowAt := s.base } } 2

theorem exec_attentionButtonPress_of_awake (ha : s.AuxOn) (hs : s.getF mgmtPg Reg.MGMT_STANDBY_STATE = 0) :
    (s.hpState = 1 → exec .attentionButtonPress s = .next (s.openWindow.bump pciePg Reg.PCIE_HP_BTN_PRESSES)) ∧
    (s.hpState = 2 → exec .attentionButtonPress s = .next ((s.setHp 1).bump pciePg Reg.PCIE_HP_BTN_PRESSES)) ∧
    (s.hpState = 0 → exec .attentionButtonPress s = .next (s.bump pciePg Reg.PCIE_HP_BTN_IGNORED)) := by
  have he : exec .attentionButtonPress s = execAttentionButtonPress s := rfl
  rw [he, execAttentionButtonPress, auxAct_of_auxOn ha]
  dsimp only
  rw [if_neg (by simp [hs])]
  exact ⟨fun h => by rw [h]; rfl, fun h => by rw [h]; rfl, fun h => by rw [h]; rfl⟩

theorem exec_abortWindowExpiry_of_due (ha : s.AuxOn) (h2 : s.hpState = 2) (hw : s.conn.windowAt + 5 * 10 ^ 9 ≤ s.base) :
    exec .abortWindowExpiry s = .next s.enterDrain := by
  have he : exec .abortWindowExpiry s = execAbortWindowExpiry s := rfl
  rw [he, execAbortWindowExpiry, auxAct_of_auxOn ha, if_pos (by simp [h2]; omega)]

theorem exec_startDrain_of_inService (ha : s.AuxOn) (h1 : s.hpState = 1) : exec .startDrain s = .next s.enterDrain := by
  have he : exec .startDrain s = execStartDrain s := rfl
  rw [he, execStartDrain, auxAct_of_auxOn ha, if_pos (by simp [h1])]

theorem exec_drainDone_of_draining (ha : s.AuxOn) (h3 : s.hpState = 3) : exec .drainDone s = .next s.enterDown := by
  have he : exec .drainDone s = execDrainDone s := rfl
  rw [he, execDrainDone, auxAct_of_auxOn ha, if_pos (by simp [h3])]

theorem exec_cancel_of_leaving (ha : s.AuxOn) (h : s.hpState = 2 ∨ s.hpState = 3) : exec .cancel s = .next (s.setHp 1) := by
  have he : exec .cancel s = execCancel s := rfl
  rw [he, execCancel, auxAct_of_auxOn ha, if_pos (by simpa using h)]

theorem exec_drainTimeout_of_due (ha : s.AuxOn) (h3 : s.hpState = 3) (hd : s.getF pciePg Reg.PCIE_HP_STATE_DRAIN_TIMEOUT = 0)
    (hw : s.conn.drainAt + s.getF pciePg Reg.PCIE_HP_DRAIN_S * 10 ^ 9 ≤ s.base) : exec .drainTimeout s =
      .next (((s.setF pciePg Reg.PCIE_HP_STATE_DRAIN_TIMEOUT 1).raise pciePg 1).pldm "drain timeout") := by
  have he : exec .drainTimeout s = execDrainTimeout s := rfl
  rw [he, execDrainTimeout, auxAct_of_auxOn ha, if_pos (by simp [h3, hd]; omega)]

/-- A module without queue pairs has no file writes to complete (R595). -/
theorem State.flushAll_nil (hq : s.qps = []) : (s.qps.map (·.1)).foldl State.flushWrites s = s := by
  rw [hq, List.map_nil, List.foldl_nil]

theorem exec_poweringDown_of_idle (hl : s.Live) (h4 : s.hpState = 4) (hs : s.liveStreams = []) (hq : s.qps = []) :
    exec .poweringDown s = .next { s with conn := { s.conn with downAt := s.base } } := by
  have he : exec .poweringDown s = execPoweringDown s := rfl
  rw [he, execPoweringDown, act_of_live hl, if_pos (by simp [h4]), hs]
  dsimp only [List.foldl_nil]
  rw [State.flushAll_nil hq]

theorem exec_powerDownLinkTimeout_of_due (hl : s.Live) (h4 : s.hpState = 4) (hw : s.conn.downAt + 10 ^ 9 ≤ s.base) :
    exec .powerDownLinkTimeout s = .next s.dropLink := by
  have he : exec .powerDownLinkTimeout s = execPowerDownLinkTimeout s := rfl
  rw [he, execPowerDownLinkTimeout, act_of_live hl, if_pos (by simp [h4]; omega)]

/-- The module in SAFE: the removal record written, the main path off, and the tag drawn (R592, R595). -/
def State.safeNow (s : State) : State := (((s.ledg .removal [0, 4, s.ledger.insertions]).mainOff).setHp 5).drawNow

theorem exec_powerDownComplete_of_quiet (hl : s.Live) (h4 : s.hpState = 4) (hd : s.getF pciePg Reg.PCIE_LINK_DL_ACTIVE = 0)
    (hs : s.liveStreams = []) (hq : s.qps = []) : exec .powerDownComplete s = .next s.safeNow := by
  have he : exec .powerDownComplete s = execPowerDownComplete s := rfl
  rw [he, execPowerDownComplete, act_of_live hl, if_pos (by simp [h4, hd, hs, hq])]
  rfl

theorem State.safeNow_safe (s : State) : s.safeNow.hpState = 5 ∧ s.safeNow.getF pciePg Reg.PCIE_HSW_MAIN_ON = 0 := by
  unfold safeNow
  refine ⟨?_, ?_⟩
  · rw [hpState_of_getF (drawNow_getF _ _ _ (by decide) (by decide)), hpState_setHp _ (by decide)]
  · rw [drawNow_getF _ _ _ (by decide) (by decide), setHp, getF_setF_offset _ _ _ _ _ (by decide), mainOff_main]

end HotPlug

end Sys2Proof.Machine

namespace Sys2Proof

open Sys2Proof.Machine

/-- Settles O44: a case per command; what the power-fail sequence leaves of the lever and the latch stands in `mainOff_getF`. -/
theorem removalAndInput : Obligations.RemovalAndInput := by
  unfold Obligations.RemovalAndInput
  refine ⟨fun s ha hf h5 => ⟨_, exec_leverSwitchOpen_of_first ha hf h5, ?_, ?_, ?_, State.failNow_main _ _⟩,
    fun mv s ha hf hv => ⟨_, exec_inputUndervoltage_of_first ha hf hv, ?_, State.failNow_main _ _⟩,
    fun mv s ha hf hv => ⟨_, exec_inputOvervoltage_of_first ha hf hv, ?_, ?_, ?_⟩,
    fun ma s ha hf hm hi => ⟨_, exec_mainOvercurrent_of_first ha hf hm hi, ?_, State.failNow_main _ _⟩,
    fun mv s ha h1 h2 => ⟨_, exec_uvWarn_of_low ha h1 h2, s.warnVolt_warned mv⟩,
    fun mv s h1 h2 hx hq hl => ⟨_, exec_undervoltageLockoutRelease_of_good h1 h2 hx hq hl, rfl⟩,
    fun mv s ha h1 h2 => exec_reducedRangeExit_of_good ha h1 h2, fun s ha hf => exec_auxiliaryPathOff_of_failed ha hf,
    fun s ha hs => ⟨fun h => ?_, fun h => ?_, fun h => ?_⟩,
    fun s ha h2 hw => ⟨_, exec_abortWindowExpiry_of_due ha h2 hw, s.hpState_enterDrain⟩,
    fun s ha h1 => ⟨_, exec_startDrain_of_inService ha h1, s.hpState_enterDrain, s.enterDrain_drainAt⟩,
    fun s ha h3 => ⟨_, exec_drainDone_of_draining ha h3, s.hpState_enterDown, ?_⟩,
    fun s ha h => ⟨_, exec_cancel_of_leaving ha h, State.hpState_setHp _ (by decide)⟩,
    fun s ha h3 hd hw => ⟨_, exec_drainTimeout_of_due ha h3 hd hw, ?_, ?_⟩,
    fun s hl h4 hs hq => exec_poweringDown_of_idle hl h4 hs hq,
    fun s hl h4 hw => ⟨_, exec_powerDownLinkTimeout_of_due hl h4 hw, s.dropLink_down⟩,
    fun s hl h4 hd hs hq => ⟨_, exec_powerDownComplete_of_quiet hl h4 hd hs hq, s.safeNow_safe⟩⟩
  · rw [State.failNow_conn]
  · rw [State.failNow_conn, State.setF_conn]
    rfl
  · rw [State.failNow_lever, State.getF_setF_same _ _ _ _ _ (by decide)]
    rfl
  · rw [State.failNow_conn]
  · rw [State.setF_conn, State.failNow_conn, State.overVolt_conn]
  · rw [State.getF_setF_beside _ _ _ _ _ _ (by decide) (by decide) (by decide), State.failNow_main]
  · rw [State.getF_setF_same _ _ _ _ _ (by decide)]
    rfl
  · rw [State.failNow_latched, State.tripped, State.getF_setF_same _ _ _ _ _ (by decide)]
    rfl
  · refine ⟨_, (exec_attentionButtonPress_of_awake ha hs).1 h, ?_, ?_⟩
    · rw [State.hpState_press, State.openWindow, State.hpState_setHp _ (by decide)]
    · rw [State.bump_conn, State.openWindow, State.setHp, State.setF_conn]
  · refine ⟨_, (exec_attentionButtonPress_of_awake ha hs).2.1 h, ?_⟩
    rw [State.hpState_press, State.hpState_setHp _ (by decide)]
  · exact (exec_attentionButtonPress_of_awake ha hs).2.2 h
  · rw [State.enterDown, State.setHp, State.setF_conn]
  · rw [State.pldm_getF, State.getF_raise_offset _ _ _ _ (by decide), State.getF_setF_same _ _ _ _ _ (by decide)]
    rfl
  · rw [State.hpState_pldm, State.hpState_raise, ← h3]
    exact State.hpState_of_getF (State.getF_setF_beside _ _ _ _ _ _ (by decide) (by decide) (by decide))

end Sys2Proof

/-! PROOFS. What a reset of idle queue pairs and the park of a die leave of the registers (R615, R618). -/

namespace Sys2Proof.Machine

namespace State

/-! ### Queue pairs without work (R349, R618) -/

/-- A descriptor that ends aborted changes neither a register nor a queue pair. -/
theorem finish_frame {α : Type} {π : State → α} (hs : ∀ (s : State) d n x, π (s.setStream d n x) = π s)
    (he : ∀ (s : State) d n x, π (s.setEngine d n x) = π s) (s : State) (d : Die) (n q : Nat) : π (s.finish d n q stAborted) = π s := by
  have hf : s.finish d n q stAborted = (s.endDesc d n q stAborted).noteIdle d n := rfl
  have hd : π (s.endDesc d n q stAborted) = π s := hs _ _ _ _
  rw [hf, noteIdle]
  split
  · exact hd
  · exact (he _ _ _ _).trans hd

theorem endExchanges_frame {α : Type} {π : State → α} (hs : ∀ (s : State) d n x, π (s.setStream d n x) = π s)
    (he : ∀ (s : State) d n x, π (s.setEngine d n x) = π s) (s : State) (key : Nat) : π (s.endExchanges key) = π s := by
  unfold endExchanges
  refine foldl_frame (π := π) (fun t e => ?_) _ _
  split
  · split
    · exact finish_frame hs he _ _ _ _
    · rfl
  · rfl

/-- No queue pair of a network die has work elements sent or receives posted. -/
def QpsIdle (s : State) (nd : Nat) : Prop := ∀ e ∈ s.qps, e.1 >>> 14 = nd → e.2.sent = [] ∧ e.2.recvs = []

theorem QpsIdle.qp {s : State} {nd key : Nat} (h : s.QpsIdle nd) (hk : key >>> 14 = nd) : (s.qp key).sent = [] ∧ (s.qp key).recvs = [] := by
  have hmem : ∀ (m : SMap Qp) (v : Qp), SMap.find m key = some v → (key, v) ∈ m := by
    intro m v hv
    induction m with
    | nil => cases hv
    | cons e t ih =>
      obtain ⟨a, w⟩ := e
      rw [SMap.find] at hv
      split at hv
      next ha => rw [eq_of_beq ha, Option.some.inj hv]; exact List.mem_cons_self
      next => exact List.mem_cons_of_mem _ (ih hv)
  unfold State.qp SMap.getD
  cases hf : SMap.find s.qps key with
  | none => exact ⟨rfl, rfl⟩
  | some v => exact h _ (hmem _ _ hf) hk

/-- The words of the queue pairs' states. -/
def qpKeys (k : Nat) : Prop := ∃ key b, b < 2 ^ 24 ∧ k = regKey (rdmaPg key) Reg.NET_QP_STATE_STATE.off b

/-- A queue pair in RESET, without its place among the stalls. -/
def qpGone (s : State) (key : Nat) : State :=
  (State.setQpSt { s with qps := SMap.del s.qps key, place := { s.place with stalls := s.place.stalls.filter fun w => stalledQp w != some key } }
    key 0).setF (rdmaPg key) Reg.NET_QP_STATE_PORT 0 (key % 2 ^ 14)

theorem qpReset_of_idle (s : State) (key : Nat) (h : (s.qp key).sent = [] ∧ (s.qp key).recvs = []) :
    s.qpReset key = (s.qpGone key).endExchanges key := by
  obtain ⟨hsent, hrecvs⟩ := h
  unfold qpReset
  dsimp only
  rw [hsent, hrecvs]
  rfl

theorem qpGone_words (s : State) (key : Nat) : WordsIn qpKeys s (s.qpGone key) := by
  have hb : key % 2 ^ 14 < 2 ^ 24 := by omega
  unfold qpGone setQpSt
  exact ((wordsIn_of_regs rfl rfl).withField ⟨key, _, hb, rfl⟩).withField ⟨key, _, hb, rfl⟩

theorem qpReset_idle_words (s : State) {nd key : Nat} (h : s.QpsIdle nd) (hk : key >>> 14 = nd) :
    WordsIn qpKeys s (s.qpReset key) ∧ (s.qpReset key).QpsIdle nd := by
  rw [qpReset_of_idle s key (h.qp hk)]
  refine ⟨(qpGone_words s key).trans (wordsIn_of_regs (endExchanges_frame (π := State.regs) (fun _ _ _ _ => rfl) (fun _ _ _ _ => rfl) _ _)
    (endExchanges_frame (π := State.fuses) (fun _ _ _ _ => rfl) (fun _ _ _ _ => rfl) _ _)), ?_⟩
  have hq : ((s.qpGone key).endExchanges key).qps = SMap.del s.qps key :=
    endExchanges_frame (π := State.qps) (fun _ _ _ _ => rfl) (fun _ _ _ _ => rfl) _ _
  intro e he
  rw [hq] at he
  exact h e (List.mem_of_mem_filter he)

/-- The reset of idle queue pairs changes the words of their states alone (R618). -/
theorem resetRdma_words (s : State) {nd : Nat} (h : s.QpsIdle nd) : WordsIn qpKeys s (s.resetRdma nd) := by
  have hl : ∀ key ∈ s.qpsOf nd, key >>> 14 = nd := by
    intro key hk
    obtain ⟨e, he, rfl⟩ := List.mem_map.1 hk
    simpa using (List.mem_filter.1 he).2
  have hfold : ∀ (l : List Nat) (t : State), (∀ key ∈ l, key >>> 14 = nd) → t.QpsIdle nd → WordsIn qpKeys t (l.foldl qpReset t) := by
    intro l
    induction l with
    | nil => exact fun t _ _ => .refl t
    | cons key l ih =>
      intro t hl ht
      obtain ⟨hw, hi⟩ := qpReset_idle_words t ht (hl key List.mem_cons_self)
      exact hw.trans (ih _ (fun k hk => hl k (List.mem_cons_of_mem _ hk)) hi)
  unfold resetRdma
  exact (hfold _ s hl h).trans (wordsIn_of_regs rfl rfl)

theorem not_qpKeys {pg : Page} {o : Nat} (hp : pg.blk ≠ .net) (hi : pg.inst < 256) (ho : o < 4096) : ¬ qpKeys (regKey pg o 0) :=
  fun ⟨key, _, hb, he⟩ => regKey_ne_of_page hi (q := rdmaPg key) (by exact (by decide : 8 < 256)) ho (by decide) (by decide) hb
    (fun h => hp (h ▸ rfl)) he

/-! ### A reset of other pages -/

/-- The words of a page that a reset does not take in are found as they were (R608). -/
theorem find_clearRegs_other (s : State) (p : Page → Bool) (keep : Page → Nat → Nat) {pg : Page} {k : Nat} (hg : pageAt (keyPage k) = some pg)
    (hp : p pg = false) : SMap.find (s.clearRegs p keep).regs k = SMap.find s.regs k := by
  have hk : SMap.find (s.clearRegs p keep).regs k = (SMap.find s.regs k).map id := by
    refine find_filterMap _ _ _ _ (fun v => ?_) fun e e' he => ?_
    · simp [hg, hp, Option.filter]
    · dsimp only at he
      split at he
      · rw [← Option.some.inj he]
      · split at he
        · cases he
        · rw [← Option.some.inj he]
  rw [hk, Option.map_id, id]

theorem getF_clearRegs_other (s : State) (p : Page → Bool) (keep : Page → Nat → Nat) {pg : Page} (f : Fld)
    (hg : pageAt (keyPage (regKey pg f.off 0)) = some pg) (hp : p pg = false) : (s.clearRegs p keep).getF pg f = s.getF pg f := by
  unfold getF word
  rw [find_clearRegs_other s p keep hg hp]
  rfl

/-! ### Bits of the parked dies (R615, R619) -/

/-- A bit of MGMT_DIES_PARKED. -/
theorem dieParked_eq (s : State) (d : Die) : s.dieParked d = (s.getF mgmtPg Reg.MGMT_DIES_PARKED).testBit (dieCode d) := by
  rw [dieParked, Nat.testBit_eq_decide_div_mod_eq, Nat.shiftRight_eq_div_pow]
  rfl

theorem getF_setDies_bit (s : State) (x v : Nat) (d e : Die) :
    ((s.setF mgmtPg Reg.MGMT_DIES_PARKED (putBits x (dieCode d) 1 v)).getF mgmtPg Reg.MGMT_DIES_PARKED).testBit (dieCode e) =
      if d = e then decide (v % 2 = 1) else x.testBit (dieCode e) := by
  rw [getF_setF_same _ _ _ _ _ (by decide), Nat.testBit_mod_two_pow, decide_eq_true (show dieCode e < Reg.MGMT_DIES_PARKED.w from dieCode_lt e),
    Bool.true_and]
  split
  next h => rw [h, testBit_putBits_one]
  next h =>
    have hne : dieCode d ≠ dieCode e := fun he => h (dieCode_inj _ _ he)
    have hb : bitsOf (putBits x (dieCode d) 1 v) (dieCode e) 1 = bitsOf x (dieCode e) 1 := by
      rcases Nat.lt_or_gt_of_ne hne with hlt | hlt
      · exact bitsOf_putBits_above _ _ _ _ _ _ hlt
      · exact bitsOf_putBits_below _ _ _ _ _ _ hlt
    have ht := congrArg (fun n => n.testBit 0) hb
    rw [testBit_bitsOf, testBit_bitsOf] at ht
    exact ht

/-! ### The park (R615, R618) -/

/-- What a park takes from a die before it is marked: its queue pairs, its cisterns, and the status of its pages. -/
def parkCleared (s : State) (d : Die) : State := ((if d == .N1 then s.resetRdma 1 else s).loseCisterns d).dropStatus (parkPage d)

/-- A die marked parked. -/
def markParked (s : State) (d : Die) (v : Nat) : State :=
  let t := s.setF mgmtPg Reg.MGMT_PARK_REQ (putBits (s.getF mgmtPg Reg.MGMT_PARK_REQ) (dieCode d) 1 v)
  t.setF mgmtPg Reg.MGMT_DIES_PARKED (putBits (t.getF mgmtPg Reg.MGMT_DIES_PARKED) (dieCode d) 1 v)

theorem parkNow_eq (s : State) (d : Die) : s.parkNow d = { (s.parkCleared d).markParked d 1 with
    engines := ((s.parkCleared d).markParked d 1).engines.filter fun e => e.1 >>> 7 != dieCode d } := rfl

theorem markParked_bit (s : State) (d e : Die) (v : Nat) :
    ((s.markParked d v).getF mgmtPg Reg.MGMT_DIES_PARKED).testBit (dieCode e) =
      if d = e then decide (v % 2 = 1) else (s.getF mgmtPg Reg.MGMT_DIES_PARKED).testBit (dieCode e) := by
  unfold markParked
  dsimp only
  rw [getF_setDies_bit, getF_setF_offset _ _ Reg.MGMT_PARK_REQ _ _ (by decide)]

theorem loseCisterns_getF (s : State) (d : Die) (pg : Page) (f : Fld) : (s.loseCisterns d).getF pg f = s.getF pg f := by
  unfold loseCisterns
  split <;> rfl

theorem pageAt_mgmt : pageAt (pageNo mgmtPg) = some mgmtPg := by decide

theorem parkPage_mgmt (d : Die) : parkPage d mgmtPg = false := by
  unfold parkPage
  exact Bool.and_false _

theorem qpsIdle_of_gatedBusy {s : State} (h : s.gatedBusy .N1 = false) : s.QpsIdle 1 := by
  intro e he hk
  have hq : s.qps.any (fun e => e.1 >>> 14 == 1 && (!e.2.sent.isEmpty || !e.2.recvs.isEmpty || !e.2.cmds.isEmpty || !e.2.writes.isEmpty)) = false := by
    have hg := h
    rw [gatedBusy, if_neg (by decide), if_neg (by decide), if_pos (by decide)] at hg
    simp only [Bool.or_eq_false_iff] at hg
    obtain ⟨⟨⟨⟨hq, -⟩, -⟩, -⟩, -⟩ := hg
    exact hq
  have he' := List.any_eq_false.1 hq e he
  simp only [hk, beq_self_eq_true, Bool.true_and, Bool.or_eq_true, not_or, Bool.not_eq_true', Bool.not_eq_false, List.isEmpty_iff] at he'
  obtain ⟨⟨⟨hs, hr⟩, -⟩, -⟩ := he'
  exact ⟨hs, hr⟩

theorem parkCleared_parked (s : State) (d : Die) (h : s.gatedBusy d = false) :
    (s.parkCleared d).getF mgmtPg Reg.MGMT_DIES_PARKED = s.getF mgmtPg Reg.MGMT_DIES_PARKED := by
  unfold parkCleared dropStatus
  rw [getF_clearRegs_other _ _ _ _ ((congrArg pageAt (by decide)).trans pageAt_mgmt) (parkPage_mgmt d), loseCisterns_getF]
  split
  next hd =>
    obtain rfl := eq_of_beq hd
    exact (resetRdma_words s (qpsIdle_of_gatedBusy h)).getF (not_qpKeys (by decide) (by decide) (by decide))
  next => rfl

theorem withEngines_getF (s : State) (l : SMap Engine) (pg : Page) (f : Fld) : State.getF { s with engines := l } pg f = s.getF pg f := rfl

/-- After a park the die reads parked, and every other die as before (R615). -/
theorem parkNow_bit (s : State) (d e : Die) (h : s.gatedBusy d = false) :
    ((s.parkNow d).getF mgmtPg Reg.MGMT_DIES_PARKED).testBit (dieCode e) =
      if d = e then true else (s.getF mgmtPg Reg.MGMT_DIES_PARKED).testBit (dieCode e) := by
  rw [parkNow_eq, withEngines_getF, markParked_bit, parkCleared_parked s d h]
  rfl

end State

end Sys2Proof.Machine

/-! PROOFS. Resets, parks and standby (R586, R589, R590, R608 to R620). -/

namespace Sys2Proof.Machine

namespace State

/-! ### The PCIe link (R589, R590) -/

theorem linkTimeout_sameMemory (s : State) (k : Nat) : SameMemory s (s.linkTimeout k) := by
  unfold linkTimeout
  split
  · exact .refl s
  · exact ((setF_sameMemory _ _ _ _ _).trans ((setF_sameMemory _ _ _ _ _).trans (raise_sameMemory _ _ _))).trans (pldm_sameMemory _ _)

theorem linkTimeout_conn (s : State) (k : Nat) : (s.linkTimeout k).conn = s.conn := by
  unfold linkTimeout
  split <;> simp

theorem dropLink_sameMemory (s : State) : SameMemory s s.dropLink := by
  unfold dropLink
  split
  · exact .refl s
  · refine SameMemory.trans ?_ (linkTimeout_sameMemory _ _)
    have h0 : SameMemory s (s.dropInbound.setWord pciePg 0x40 0) := ⟨rfl, rfl, rfl⟩
    exact h0.trans ((bump_sameMemory _ _ _ _ _).trans (raise_sameMemory _ _ _))

theorem dropLink_conn (s : State) : s.dropLink.conn = s.conn := by
  unfold dropLink
  split
  · rfl
  · rw [linkTimeout_conn]
    simp [dropInbound]

theorem withBar4_getF (s : State) (m : Memory) (pg : Page) (f : Fld) : State.getF { s with bar4 := m } pg f = s.getF pg f := rfl

theorem wake_conn (s : State) (k : Nat) : (s.wake k).conn = s.conn := by
  unfold wake
  split <;> simp

/-- The link up at a speed and a width (R586, R600). -/
def linkTrained (s : State) (speed width : Nat) (b : Bool) : State :=
  (((s.setF pciePg Reg.PCIE_LINK_SPEED speed).setF pciePg Reg.PCIE_LINK_WIDTH width).setF pciePg Reg.PCIE_LINK_DL_ACTIVE 1).setF pciePg
    Reg.PCIE_LINK_FLIT b.toNat

theorem linkTrained_up (s : State) {speed width : Nat} (b : Bool) (hs : speed ≤ 6) (hw : width ≤ 16) :
    (s.linkTrained speed width b).getF pciePg Reg.PCIE_LINK_DL_ACTIVE = 1
      ∧ (s.linkTrained speed width b).getF pciePg Reg.PCIE_LINK_SPEED = speed
      ∧ (s.linkTrained speed width b).getF pciePg Reg.PCIE_LINK_WIDTH = width := by
  unfold linkTrained
  refine ⟨?_, ?_, ?_⟩
  · rw [getF_setF_beside _ _ _ _ _ _ (by decide) (by decide) (by decide), getF_setF_same _ _ _ _ _ (by decide)]
    rfl
  · rw [getF_setF_beside _ _ _ _ _ _ (by decide) (by decide) (by decide), getF_setF_beside _ _ _ _ _ _ (by decide) (by decide) (by decide),
      getF_setF_beside _ _ _ _ _ _ (by decide) (by decide) (by decide), getF_setF_same _ _ _ _ _ (by decide)]
    exact Nat.mod_eq_of_lt (show speed < 2 ^ 3 by omega)
  · rw [getF_setF_beside _ _ _ _ _ _ (by decide) (by decide) (by decide), getF_setF_beside _ _ _ _ _ _ (by decide) (by decide) (by decide),
      getF_setF_same _ _ _ _ _ (by decide)]
    exact Nat.mod_eq_of_lt (show width < 2 ^ 5 by omega)

/-! ### A die's recovery completes (R610, R620) -/

/-- One end of a link trained from its fused map (R42). -/
def trainEnd (t : State) (d : Die) (p : Nat) : State :=
  let pg := d2dPg d p
  let t1 := (List.range 4).foldl (fun u m => u.setWord pg 0x48 (resetWord u.fuses pg 0x48 m) m) (t.setLink d p Link.init)
  ((t1.setWord pg 0x40 2).setF (tfabPg d) Reg.TFAB_LINKS_DOWN (putBits (t1.getF (tfabPg d) Reg.TFAB_LINKS_DOWN) p 1 0)).countSpares d p

theorem trainLink_eq (s : State) (d : Die) (p : Nat) :
    s.trainLink d p = (s.trainEnd d p).trainEnd (peerOf d p).1 (peerOf d p).2 := by
  unfold trainLink trainEnd
  rfl

theorem trainEnd_recovering (s : State) (d : Die) (p : Nat) : (s.trainEnd d p).recovering = s.recovering := by
  unfold trainEnd countSpares
  dsimp only
  rw [setF_recovering, setF_recovering, setWord_recovering, foldl_frame (π := State.recovering) fun _ _ => setWord_recovering _ _ _ _ _,
    setLink_recovering]

theorem trainLink_recovering (s : State) (d : Die) (p : Nat) : (s.trainLink d p).recovering = s.recovering := by
  rw [trainLink_eq, trainEnd_recovering, trainEnd_recovering]

theorem trainLinks_recovering (s : State) (d : Die) : (s.trainLinks d).recovering = s.recovering :=
  foldl_frame (π := State.recovering) (fun _ _ => trainLink_recovering _ _ _) _ _

theorem repairPair_recovering (s : State) (d : Die) (ch : Nat) : (s.repairPair d ch).recovering = s.recovering := by
  unfold repairPair
  dsimp only
  split
  · split
    · simp
    · rfl
  · rfl

theorem trainMemory_recovering (s : State) (d : Die) : (s.trainMemory d).recovering = s.recovering := by
  unfold trainMemory
  split
  · unfold trainLanes
    dsimp only
    rw [foldl_frame (π := State.recovering)]
    · simp
    · exact fun t m => (repairPair_recovering _ _ _).trans (setChan_recovering _ _ _ _)
  · rfl

/-- A die's recovery off the list. -/
def recovered (s : State) (d : Die) : State := { s with recovering := s.recovering.eraseP fun r => r.1 == dieCode d }

theorem recovered_empty (s : State) (d : Die) (h : s.recovering.map (·.1) = [dieCode d]) : (s.recovered d).recovering = [] := by
  obtain ⟨r, hr⟩ : ∃ r, s.recovering = [r] := List.length_eq_one_iff.1 (by simpa using congrArg List.length h)
  rw [hr] at h
  have hd : (r.1 == dieCode d) = true := by simpa using h
  simp [recovered, hr, hd]

/-! ### Harts held and released (R613) -/

theorem setHeldBit_hart (s : State) (h v k : Nat) : (s.setHeldBit h v).hart k = s.hart k := rfl

theorem noteReset_hart (s : State) (a b c k : Nat) : (s.noteReset a b c).hart k = s.hart k := rfl

theorem holdHart_held (s : State) (h : Nat) : ((s.holdHart h).hart h).held = true := by
  unfold holdHart
  rw [setHeldBit_hart, hart_setHart_same]

theorem freeHart_held (s : State) (h : Nat) : ((s.freeHart h).hart h).held = false := by
  unfold freeHart
  rw [setHeldBit_hart, hart_setHart_same]

/-! ### Standby (R615) -/

theorem withGated_getF (s : State) (e : SMap Engine) (p : SMap Nat) (n : List Frames) (pg : Page) (f : Fld) :
    State.getF { s with engines := e, paused := p, netWait := n } pg f = s.getF pg f := rfl

end State

section Commands

variable {s : State}

theorem exec_functionLevelReset_eq (ha : s.AuxOn) : exec .functionLevelReset s = .next (s.requestedReset 2) :=
  (show exec .functionLevelReset s = execFunctionLevelReset s from rfl).trans (auxAct_of_auxOn ha _)

theorem exec_resetCmdModule_eq (ha : s.AuxOn) : exec .resetCmdModule s = .next (s.requestedReset 3) :=
  (show exec .resetCmdModule s = execResetCmdModule s from rfl).trans (auxAct_of_auxOn ha _)

theorem exec_pldmReset_eq (ha : s.BusesOn) : exec .pldmReset s = .next (s.requestedReset 7) :=
  (show exec .pldmReset s = execPldmReset s from rfl).trans (mcAct_of_busesOn ha _)

theorem exec_modResetN_of_up (ha : s.AuxOn) (h : s.hpState < 4) : exec .modResetN s = .next (s.moduleReset 1) := by
  have he : exec .modResetN s = execModResetN s := rfl
  rw [he, execModResetN, auxAct_of_auxOn ha, if_neg (by simp; omega), if_neg (by simp; omega)]

theorem State.requestedReset_of_up (h : s.hpState < 4) (cause : Nat) : s.requestedReset cause = s.moduleReset cause :=
  if_neg (by omega)

theorem exec_hotReset_of_main (h : s.getF pciePg Reg.PCIE_HSW_MAIN_ON = 1) : exec .hotReset s = .next s.pcieReset := by
  have he : exec .hotReset s = execHotReset s := rfl
  rw [he, execHotReset, h]
  rfl

theorem exec_pcieLinkDown_of_main (h : s.getF pciePg Reg.PCIE_HSW_MAIN_ON = 1) : exec .pcieLinkDown s = .next s.dropLink := by
  have he : exec .pcieLinkDown s = execPcieLinkDown s := rfl
  rw [he, execPcieLinkDown, h]
  rfl

theorem exec_pcieLinkUp_of_trained {speed width : Nat} {b : Bool} (hl : s.Live) (hp : s.conn.perst = false) (h : s.hpState < 4)
    (h1 : 1 ≤ speed) (h6 : speed ≤ 6) (hw : width ∈ [1, 2, 4, 8, 16]) :
    exec (.pcieLinkUp speed width b) s = .next (s.linkTrained speed width b) := by
  have he : exec (.pcieLinkUp speed width b) s = execPcieLinkUp speed width b s := rfl
  have hw' : [1, 2, 4, 8, 16].contains width = true := List.contains_iff_mem.2 hw
  rw [he, execPcieLinkUp, act_of_live hl, hp, hw', if_neg (by simp; omega)]
  rfl

theorem exec_resetCmdDie_of_die {k : Nat} (ha : s.AuxOn) (hk : k < 16) :
    exec (.resetCmdDie k) s = .next ((s.setF mgmtPg Reg.MGMT_RESET_CMD_TARGET k).dieReset (dieOf k) 3) := by
  have he : exec (.resetCmdDie k) s = execResetCmdDie k s := rfl
  rw [he, execResetCmdDie, auxAct_of_auxOn ha]
  dsimp only
  rw [if_neg (by omega)]

theorem exec_dieRecoveryComplete_of_only {d : Die} (hm : s.getF pciePg Reg.PCIE_HSW_MAIN_ON = 1) (h : s.recovering.map (·.1) = [dieCode d]) :
    exec (.dieRecoveryComplete d) s = .next ((State.trainMemory ((s.recovered d).trainLinks d) d).raise mgmtPg 0) := by
  have he : exec (.dieRecoveryComplete d) s = execDieRecoveryComplete d s := rfl
  have hin : (s.recovering.any fun r => r.1 == dieCode d) = true := by
    obtain ⟨r, hr, hd⟩ := List.mem_map.1 (h ▸ List.mem_cons_self : dieCode d ∈ s.recovering.map (·.1))
    exact List.any_eq_true.2 ⟨r, hr, beq_iff_eq.2 hd⟩
  have hout : ((s.recovered d).recovering.any fun r => r.1 == dieCode d) = false := by rw [s.recovered_empty d h]; rfl
  rw [he, execDieRecoveryComplete, hm, hin, if_neg (by decide)]
  dsimp only
  exact congrArg Host.Outcome.next (if_neg fun hc => Bool.false_ne_true (hout.symm.trans hc))

theorem exec_resetCmdCompartment_of_held {k : Nat} {u : State} (ha : s.AuxOn) (hk : k < 64) (hu : u = s.setF mgmtPg Reg.MGMT_RESET_CMD_TARGET k)
    (hr : u.startRank = 0) (hh : ∀ h ∈ u.hartsOf k, (u.hart h).held = true) :
    exec (.resetCmdCompartment k) s = .next ((u.cptReset k).noteReset 3 3 k) := by
  have he : exec (.resetCmdCompartment k) s = execResetCmdCompartment k s := rfl
  have hran : ((u.hartsOf k).filter fun h => !(u.hart h).held) = [] := List.filter_eq_nil_iff.2 fun h hm => by simp [hh h hm]
  rw [he, execResetCmdCompartment, auxAct_of_auxOn ha, ← hu]
  dsimp only
  rw [if_neg (by omega), if_neg (by simp [hr]), hran, List.foldl_nil]

theorem exec_coreHold_of_up {h : Nat} {u : State} (ha : s.AuxOn) (hh : h < 96) (hu : u = s.setF mgmtPg Reg.MGMT_RESET_CMD_TARGET h)
    (hr : u.startRank = 0) : exec (.coreHold h) s = .next ((u.holdHart h).noteReset 4 3 h) := by
  have he : exec (.coreHold h) s = execCoreHold h s := rfl
  rw [he, execCoreHold, auxAct_of_auxOn ha, ← hu]
  dsimp only
  rw [if_neg (by omega), if_neg (by simp [hr])]

theorem exec_coreRelease_of_good {h : Nat} {d : Die} {u : State} (ha : s.AuxOn) (hh : h < 96) (hd : d = if h < 48 then Die.H0 else .H1)
    (hu : u = s.setF mgmtPg Reg.MGMT_RESET_CMD_TARGET h) (hr : u.startRank = 0) (h1 : u.dieUnusable d = false) (h2 : u.dieParked d = false)
    (h3 : (dieCode d, .core h) ∉ u.unusable) (hx : (u.hart h).held = true) :
    exec (.coreRelease h) s = .next ((u.freeHart h).noteReset 5 3 h) := by
  have he : exec (.coreRelease h) s = execCoreRelease h s := rfl
  have h3' : u.unusable.contains (dieCode d, .core h) = false := by simpa using h3
  have h96 : decide (96 ≤ h) = false := decide_eq_false (by omega)
  rw [he, execCoreRelease, auxAct_of_auxOn ha, ← hu, ← hd]
  dsimp only
  rw [h1, h2, h3', h96, if_neg (by decide), if_neg (by simp [hr]), if_pos hx]

theorem exec_park_of_idle {d : Die} (hl : s.Live) (hp : s.dieParked d = false) (hd : d ≠ .N0) (hb : s.gatedBusy d = false)
    (hk : s.parkLeaves d = true) : exec (.park d) s = .next (s.parkNow d) := by
  have he : exec (.park d) s = execPark d s := rfl
  rw [he, execPark, act_of_live hl, hp, hb, hk, beq_false_of_ne hd]
  rfl

theorem exec_unpark_eq (d : Die) (hl : s.Live) : exec (.unpark d) s = .next (s.markParked d 0) :=
  (show exec (.unpark d) s = execUnpark d s from rfl).trans (act_of_live hl _)

theorem exec_standbyEnter_of_quiet {b : Bool} (hl : s.Live) (h0 : s.getF mgmtPg Reg.MGMT_STANDBY_STATE = 0) (hr : s.startRank = 0)
    (hp : s.hpState < 4) (hs : ∀ e ∈ s.allStreams, s.streamState e.1 e.2 = 0 ∧ (s.stream e.1 e.2).fetched = [])
    (hq : ∀ e ∈ s.qps, s.qpSt e.1 = 0) : exec (.standbyEnter b) s =
      .next ((s.setF mgmtPg Reg.MGMT_STANDBY_STATE 1).setF mgmtPg Reg.MGMT_STANDBY_KEEP_H0 b.toNat) := by
  have he : exec (.standbyEnter b) s = execStandbyEnter b s := rfl
  have hs' : (s.allStreams.all fun e => s.streamState e.1 e.2 == 0 && (s.stream e.1 e.2).fetched.isEmpty) = true :=
    List.all_eq_true.2 fun e hm => by simp [hs e hm]
  have hq' : (s.qps.all fun e => s.qpSt e.1 == 0) = true := List.all_eq_true.2 fun e hm => beq_iff_eq.2 (hq e hm)
  rw [he, execStandbyEnter, act_of_live hl]
  dsimp only
  rw [hs', hq', h0, hr, decide_eq_true hp]
  rfl

theorem exec_standbyEntryComplete_of_entering (hl : s.Live) (h1 : s.getF mgmtPg Reg.MGMT_STANDBY_STATE = 1) :
    exec .standbyEntryComplete s = .next s.standbyNow := by
  have he : exec .standbyEntryComplete s = execStandbyEntryComplete s := rfl
  rw [he, execStandbyEntryComplete, act_of_live hl, h1]
  rfl

/-- Standby ends with the link down and the state shown (R615). -/
theorem State.standbyNow_entered (s : State) : s.standbyNow.getF mgmtPg Reg.MGMT_STANDBY_STATE = 2
    ∧ s.standbyNow.getF pciePg Reg.PCIE_LINK_DL_ACTIVE = 0 := by
  unfold standbyNow
  refine ⟨?_, ?_⟩
  · rw [withGated_getF, getF_setF_same _ _ _ _ _ (by decide)]
    rfl
  · rw [withGated_getF, getF_setF_other _ _ _ _ _ _ _ _ (by decide), getF_setF_same _ _ _ _ _ (by decide)]
    rfl

/-- A wake from standby (R579, R615). -/
theorem State.wake_woken (s : State) {k : Nat} (h2 : s.getF mgmtPg Reg.MGMT_STANDBY_STATE = 2) (hk : k < 8) :
    (s.wake k).getF mgmtPg Reg.MGMT_STANDBY_STATE = 3 ∧ (s.wake k).getF mgmtPg Reg.MGMT_STANDBY_WAKE_CAUSE = k
      ∧ (s.wake k).wakeAsserted = (s.getF pciePg Reg.PCIE_LINK_DL_ACTIVE == 0 && !s.conn.perst) ∧ State.SameMemory s (s.wake k) := by
  have hw : s.wake k = (s.setF mgmtPg Reg.MGMT_STANDBY_STATE 3).setF mgmtPg Reg.MGMT_STANDBY_WAKE_CAUSE k := by rw [wake, h2]; rfl
  have h3 : (s.wake k).getF mgmtPg Reg.MGMT_STANDBY_STATE = 3 := by
    rw [hw, getF_setF_beside _ _ _ _ _ _ (by decide) (by decide) (by decide), getF_setF_same _ _ _ _ _ (by decide)]
    rfl
  refine ⟨h3, ?_, ?_, ?_⟩
  · rw [hw, getF_setF_same _ _ _ _ _ (by decide)]
    exact Nat.mod_eq_of_lt hk
  · rw [wakeAsserted, h3, wake_conn, hw, getF_setF_other _ _ _ _ _ _ _ _ (by decide), getF_setF_other _ _ _ _ _ _ _ _ (by decide)]
    rfl
  · rw [hw]
    exact (setF_sameMemory _ _ _ _ _).trans (setF_sameMemory _ _ _ _ _)

theorem exec_h0L3Miss_of_kept {h : Nat} (ha : s.AuxOn) (hh : h < 48) (hk : s.getF mgmtPg Reg.MGMT_STANDBY_KEEP_H0 = 1)
    (hf : (s.hart h).held = false) : exec (.h0L3Miss h) s = .next (s.wake 5) := by
  have he : exec (.h0L3Miss h) s = execH0L3Miss h s := rfl
  rw [he, execH0L3Miss, auxAct_of_auxOn ha, if_pos (by simp [hh, hk, hf])]

theorem exec_wake_eq (hb : s.BusesOn) (hk : s.getF mgmtPg Reg.MGMT_STANDBY_KEEP_H0 = 1) (hf : (s.hart 0).held = false) {p : Instr × Nat}
    (hp : p ∈ [(Instr.standbyWake, 1), (Instr.pldmWake, 2), (Instr.h0L3Miss 0, 5)]) : exec p.1 s = .next (s.wake p.2) ∧ p.2 < 8 := by
  rcases List.mem_cons.1 hp with rfl | hp
  · exact ⟨(show exec .standbyWake s = execStandbyWake s from rfl).trans (auxAct_of_auxOn hb.1 _), by decide⟩
  rcases List.mem_cons.1 hp with rfl | hp
  · exact ⟨(show exec .pldmWake s = execPldmWake s from rfl).trans (mcAct_of_busesOn hb _), by decide⟩
  · obtain rfl := List.mem_singleton.1 hp
    exact ⟨exec_h0L3Miss_of_kept hb.1 (by decide) hk hf, by decide⟩

/-- The module in service again (R615, R620). -/
def State.awake (s : State) : State :=
  (((allDies.foldl State.trainLinks s).allBankRefresh).setF mgmtPg Reg.MGMT_STANDBY_STATE 0).raise mgmtPg 2

theorem exec_wakeComplete_of_waking (ha : s.AuxOn) (h3 : s.getF mgmtPg Reg.MGMT_STANDBY_STATE = 3) : exec .wakeComplete s = .next s.awake := by
  have he : exec .wakeComplete s = execWakeComplete s := rfl
  rw [he, execWakeComplete, auxAct_of_auxOn ha, h3]
  rfl

theorem exec_perstNDeassert_perst (s : State) : ∃ t, exec .perstNDeassert s = .next t ∧ t.conn.perst = false := by
  have he : exec .perstNDeassert s = execPerstNDeassert s := rfl
  rw [he, execPerstNDeassert]
  dsimp only
  refine ⟨_, rfl, ?_⟩
  split
  · rw [State.wake_conn]
  · rfl

end Commands

end Sys2Proof.Machine

namespace Sys2Proof

open Sys2Proof.Machine

/-- Settles O45: a case per command; a park's marks stand in `parkNow_bit`, a wake's in `wake_woken`. -/
theorem resetsAndPowerStates : Obligations.ResetsAndPowerStates := by
  unfold Obligations.ResetsAndPowerStates
  refine ⟨fun s ha h => ⟨exec_modResetN_of_up ha h, ?_, ?_, fun h2 => ?_⟩, fun s => ⟨_, rfl, ?_, rfl, ?_, ?_⟩, exec_perstNDeassert_perst,
    fun s h => ⟨exec_hotReset_of_main h, exec_pcieLinkDown_of_main h⟩,
    fun speed width b s hl hp h h1 h6 hw => ⟨_, exec_pcieLinkUp_of_trained hl hp h h1 h6 hw, s.linkTrained_up b h6 ?_⟩,
    fun k s ha hk => exec_resetCmdDie_of_die ha hk, fun d s hm h => ⟨_, exec_dieRecoveryComplete_of_only hm h, ?_⟩,
    fun k s u ha hk hu hr hh => exec_resetCmdCompartment_of_held ha hk hu hr hh,
    fun h s u ha hh hu hr => ⟨_, exec_coreHold_of_up ha hh hu hr, ?_⟩,
    fun h d s u ha hh hd hu hr h1 h2 h3 hx => ⟨_, exec_coreRelease_of_good ha hh hd hu hr h1 h2 h3 hx, ?_⟩,
    fun d s hl hp hd hb hk => ⟨_, exec_park_of_idle hl hp hd hb hk, ?_, ?_⟩,
    fun d s hl => ⟨_, exec_unpark_eq d hl, ?_, (State.setF_sameMemory _ _ _ _ _).trans (State.setF_sameMemory _ _ _ _ _)⟩,
    fun b s hl h0 hr hp hs hq => exec_standbyEnter_of_quiet hl h0 hr hp hs hq,
    fun s hl h1 => ⟨_, exec_standbyEntryComplete_of_entering hl h1, s.standbyNow_entered⟩,
    fun p hp s hb h2 hk hf => ⟨_, (exec_wake_eq hb hk hf hp).1, s.wake_woken h2 (exec_wake_eq hb hk hf hp).2⟩,
    fun s ha h3 => ⟨_, exec_wakeComplete_of_waking ha h3, ?_⟩⟩
  · rw [exec_functionLevelReset_eq ha, State.requestedReset_of_up h]
  · rw [exec_resetCmdModule_eq ha, State.requestedReset_of_up h]
  · rw [exec_pldmReset_eq ⟨ha, h2⟩, State.requestedReset_of_up h]
  · exact congrArg Conn.perst (State.dropLink_conn _)
  · exact State.dropLink_down _
  · exact State.dropLink_sameMemory { s with conn := { s.conn with perst := true } }
  · have hall : ∀ w ∈ [1, 2, 4, 8, 16], w ≤ 16 := by decide
    exact hall width hw
  · rw [State.raise_recovering, State.trainMemory_recovering, State.trainLinks_recovering, State.recovered_empty _ _ h]
  · rw [State.noteReset_hart, State.holdHart_held]
  · rw [State.noteReset_hart, State.freeHart_held]
  · rw [State.dieParked_eq, State.parkNow_bit _ _ _ hb, if_pos rfl]
  · have hbit := State.parkNow_bit s d .N0 hb
    rw [if_neg hd, Nat.testBit_eq_decide_div_mod_eq, Nat.testBit_eq_decide_div_mod_eq, decide_eq_decide] at hbit
    rw [Nat.shiftRight_eq_div_pow, Nat.shiftRight_eq_div_pow]
    omega
  · rw [State.dieParked_eq, State.markParked_bit, if_pos rfl]
    rfl
  · rw [State.awake, State.getF_raise_offset _ _ _ _ (by decide), State.getF_setF_same _ _ _ _ _ (by decide)]
    rfl

end Sys2Proof

/-! PROOFS. What leaves the owner records of the compartment table: every function of the model below the commands (R492, R498). -/

namespace Sys2Proof.Machine.State

/-! ### Folds, tests and matches -/

/-- A fold of steps that each leave the owner records leaves them. -/
theorem foldl_owners {β : Type} {g : State → β → State} (hg : ∀ t e, (g t e).owners = t.owners) (s : State) (l : List β) :
    (l.foldl g s).owners = s.owners := foldl_frame (π := State.owners) hg s l

/-- The same for a fold that carries a result beside the state. -/
theorem foldl_fst_owners {α β : Type} {g : State × α → β → State × α} (hg : ∀ a e, (g a e).1.owners = a.1.owners) (a : State × α)
    (l : List β) :
    (l.foldl g a).1.owners = a.1.owners :=
  List.foldlRecOn (motive := fun b : State × α => b.1.owners = a.1.owners) _ _ rfl fun b hb e _ => (hg b e).trans hb

/-- The owner records behind a match on a result and a state. -/
theorem snd_owners {α : Type} {p : α × State} {s t : State} {r : α} (hp : p.2.owners = s.owners) (h : p = (r, t)) :
    t.owners = s.owners := by
  rw [← hp, h]

/-- Either branch of a test leaves the owner records. -/
theorem ite_owners {c : Prop} [Decidable c] {a b s : State} (ha : a.owners = s.owners) (hb : b.owners = s.owners) :
    (if c then a else b).owners = s.owners := by
  split
  · exact ha
  · exact hb

/-- Either branch of a test that also answers a result leaves the owner records. -/
theorem ite_snd_owners {α : Type} {c : Prop} [Decidable c] {a b : α × State} {s : State} (ha : a.2.owners = s.owners)
    (hb : b.2.owners = s.owners) :
    (if c then a else b).2.owners = s.owners := by
  split
  · exact ha
  · exact hb

/-- The owner records, as a function of the state that only the lemmas below unfold. Where a state is a long chain of updates under a
binding, a goal about `owning` keeps the kernel from evaluating the chain when it compares two of them. -/
def owning (s : State) : SMap Nat := s.owners

/-- Into the form with `owning`. -/
theorem owning_of {s t : State} (h : t.owners = s.owners) : t.owning = s.owning := h

/-- Out of the form with `owning`. -/
theorem owners_of {s t : State} (h : t.owning = s.owning) : t.owners = s.owners := h

/-- `ite_owners` in the form with `owning`. -/
theorem ite_owning {c : Prop} [Decidable c] {a b s : State} (ha : a.owning = s.owning) (hb : b.owning = s.owning) :
    (if c then a else b).owning = s.owning := by
  split
  · exact ha
  · exact hb

/-! ### Register pages (R517 to R540): page numbers, the map of each page, reset values, and the one home of every register word, with the
reads and writes of fields that every block uses. -/

theorem drawFree_owners (s : State) : (s.drawFree).2.owners = s.owners := rfl

/-! ### The flags of a register page: status bits and their interrupts (R522, R533), error bits (R522, R535) and watermarks (R534). -/

theorem watermark_owners (s : State) (pg : Page) (off : Nat) (above : Bool) : (s.watermark pg off above).owners = s.owners := by
  simp only [watermark, setWord_owners, raise_owners, apply_ite owners, ite_self]

/-! ### The named operations on memory: the address map (R55 to R58), who owns what (R209, R492, R495), lots (R204, R207), reads and
writes of bytes, uncorrectable codewords (R148, R255), and error records (R622). -/

theorem touchLot_owners (s : State) (l : Nat) (write : Bool) : (s.touchLot l write).owners = s.owners := by
  simp only [touchLot, setEntry_owners, apply_ite owners, ite_self]
theorem touchRead_owners (s : State) (a n : Nat) : (s.touchRead a n).owners = s.owners := by
  simp only [touchRead, touchLot_owners, foldl_owners, implies_true]
theorem noteUe_owners (s : State) (w : Cw) (pa : Nat) : (s.noteUe w pa).owners = s.owners := by
  simp only [noteUe, bump_owners, setF_owners]
theorem wrNat_owners (s : State) (a v n : Nat) : (s.wrNat a v n).owners = s.owners := by
  simp only [wrNat, wrBytes_owners]
theorem zeroBytes_owners (s : State) (a n : Nat) : (s.zeroBytes a n).owners = s.owners := by
  simp only [zeroBytes]

theorem cohInv_owners (s : State) (a n : Nat) : (s.cohInv a n).owners = s.owners := by
  unfold cohInv
  refine foldl_owners (fun t e => ?_) _ _
  dsimp only
  split <;> simp only [wrBytes_owners, setLine_owners]

theorem rwWrite_owners (s : State) (pg : Page) (off v : Nat) (bank : Nat) : (s.rwWrite pg off v bank).owners = s.owners := by
  simp only [rwWrite, setWord_owners]
theorem holdLo_owners (s : State) (pg : Page) (off v : Nat) : (s.holdLo pg off v).owners = s.owners := rfl

theorem takeLo_owners (s : State) (pg : Page) (off : Nat) : (s.takeLo pg off).owners = s.owners := by
  unfold takeLo
  dsimp only
  split <;> simp only [rwWrite_owners]

theorem dropResv_owners (s : State) (a n : Nat) : (s.dropResv a n).owners = s.owners := by
  simp only [dropResv]
theorem countCoh_owners (s : State) (a n : Nat) (f : Fld) : (s.countCoh a n f).owners = s.owners := by
  simp only [countCoh, bump_owners, foldl_owners, implies_true, apply_ite owners, ite_self]
theorem cohWrite_owners (s : State) (a : Nat) (bs : Bytes) : (s.cohWrite a bs).owners = s.owners := by
  simp only [cohWrite, cohInv_owners, dropResv_owners, countCoh_owners, wrBytes_owners]
theorem setFlash_owners (s : State) (nd : Nat) (x : Flash) : (s.setFlash nd x).owners = s.owners := by
  simp only [setFlash, setF_owners]
theorem whcProgram_owners (s : State) (nd bytes host : Nat) : (s.whcProgram nd bytes host).owners = s.owners := by
  simp only [whcProgram, setFlash_owners]
theorem notePromise_owners (s t : State) : (s.notePromise t).owners = t.owners := by
  simp only [notePromise, raise_owners, apply_ite owners, ite_self]
theorem writeLostRec_owners (s : State) (r : Requester) (cpt pa : Nat) : (s.writeLostRec r cpt pa).owners = s.owners := by
  simp only [writeLostRec, logRec_owners]
theorem linkTimeout_owners (s : State) (cause : Nat) : (s.linkTimeout cause).owners = s.owners := by
  simp only [linkTimeout, setF_owners, raise_owners, pldm_owners, apply_ite owners, ite_self]

/-! ### Translation for the device (R441 to R445, R496): the Sv57 walk, the check of a translated page against its requester's compartment
(R162, R195, R209, R226), and accesses through pinned translations (R163). -/

theorem walkHeld_owners (s : State) (d : Die) (c root va : Nat) (reads : List (Nat × Nat × Nat)) :
    (s.walkHeld d c root va reads).2.owners = s.owners := by
  unfold walkHeld
  dsimp only
  split <;> simp only [drawFree_owners]

theorem walk_owners (s : State) (d : Die) (c root va : Nat) (rd wr : Bool) : (s.walk d c root va rd wr).2.owners = s.owners := by
  unfold walk
  dsimp only
  repeat' split
  all_goals simp only [walkHeld_owners, touchRead_owners, countCoh_owners, foldl_owners, implies_true]

theorem countWalk_owners (s : State) (d : Die) (va cause : Nat) : (s.countWalk d va cause).owners = s.owners := by
  simp only [countWalk, bump_owners, setF_owners, apply_ite owners, ite_self]

theorem xlatePages_owners (d : Die) (c root : Nat) (reach : State → Nat → Bool) (l : List (Nat × Bool × Bool)) (pins : SMap Nat)
    (s : State) :
    (xlatePages d c root reach l pins s).2.owners = s.owners := by
  induction l generalizing pins s with
  | nil => rfl
  | cons e t ih =>
    obtain ⟨p, rd, wr⟩ := e
    unfold xlatePages
    dsimp only
    split <;> simp only [ih, countWalk_owners, walk_owners, apply_ite Prod.snd, apply_ite owners, ite_self]

theorem wrParts_owners (s : State) (pins : SMap Nat) (bs : Bytes) (l : List (Nat × Nat)) : (s.wrParts pins bs l).owners = s.owners := by
  induction l generalizing s bs with
  | nil => rfl
  | cons e t ih =>
    obtain ⟨va, n⟩ := e
    unfold wrParts
    simp only [ih, cohWrite_owners, wrBytes_owners, apply_ite owners, ite_self]

theorem wrV_owners (s : State) (pins : SMap Nat) (va : Nat) (bs : Bytes) : (s.wrV pins va bs).owners = s.owners := by
  simp only [wrV, wrParts_owners]
theorem touchV_owners (s : State) (pins : SMap Nat) (va n : Nat) : (s.touchV pins va n).owners = s.owners := by
  simp only [touchV, countCoh_owners, touchLot_owners, foldl_owners, implies_true, apply_ite owners, ite_self]

/-! ### Streams and their fetched descriptors (R152, R156, R160 to R165, R167): contexts, fields, phases. -/

theorem updDesc_owners (s : State) (d : Die) (n q : Nat) (f : Desc → Desc) : (s.updDesc d n q f).owners = s.owners := by
  simp only [updDesc, setStream_owners]
theorem setCtxWord_owners (s : State) (d : Die) (n k v : Nat) : (s.setCtxWord d n k v).owners = s.owners := by
  simp only [setCtxWord, setWord_owners]
theorem setHead_owners (s : State) (d : Die) (n v : Nat) : (s.setHead d n v).owners = s.owners := by
  simp only [setHead, setCtxWord_owners]
theorem setTail_owners (s : State) (d : Die) (n v : Nat) : (s.setTail d n v).owners = s.owners := by
  simp only [setTail, setCtxWord_owners]
theorem setNextSeq_owners (s : State) (d : Die) (n v : Nat) : (s.setNextSeq d n v).owners = s.owners := by
  simp only [setNextSeq, setCtxWord_owners]
theorem setDoneSeq_owners (s : State) (d : Die) (n v : Nat) : (s.setDoneSeq d n v).owners = s.owners := by
  simp only [setDoneSeq, setCtxWord_owners]
theorem setStreamState_owners (s : State) (d : Die) (n v : Nat) : (s.setStreamState d n v).owners = s.owners := by
  simp only [setStreamState, setF_owners, apply_ite owners, ite_self]
theorem updArr_owners (s : State) (d : Die) (e a : Nat) (f : Arr → Arr) : (s.updArr d e a f).owners = s.owners := by
  simp only [updArr, setEngine_owners]
theorem setLive_owners (s : State) (d : Die) (e m : Nat) : (s.setLive d e m).owners = s.owners := by
  simp only [setLive, setF_owners]
theorem noteIdle_owners (s : State) (d : Die) (n : Nat) : (s.noteIdle d n).owners = s.owners := by
  simp only [noteIdle, setEngine_owners, apply_ite owners, ite_self]
theorem endDesc_owners (s : State) (d : Die) (n q st : Nat) (pos : Nat) (operand : Nat) :
    (s.endDesc d n q st pos operand).owners = s.owners := by
  simp only [endDesc, updDesc_owners]

/-! ### Tallies, waits and locks (R466 to R471, R476 to R486, R489): the operations that the commands of several families share. -/

theorem wakeWaiter_owners (s : State) (w : Waiter) (st : Nat) : (s.wakeWaiter w st).owners = s.owners := by
  simp only [wakeWaiter, noteIdle_owners, setStream_owners]
theorem testWaiters_owners (s : State) (t : Nat) : (s.testWaiters t).owners = s.owners := by
  simp only [testWaiters, wakeWaiter_owners, setTally_owners, foldl_owners, implies_true]
theorem tallyApply_owners (s : State) (o : TallyOp) : (s.tallyApply o).owners = s.owners := by
  simp only [tallyApply, setTally_owners, bump_owners, testWaiters_owners]
theorem startPoll_owners (s : State) (t : Nat) (w : Waiter) : (s.startPoll t w).owners = s.owners := by
  simp only [startPoll, bump_owners, raise_owners]
theorem registerWait_owners (s : State) (t : Nat) (w : Waiter) : (s.registerWait t w).owners = s.owners := by
  simp only [registerWait, wakeWaiter_owners, setTally_owners, startPoll_owners, apply_ite owners, ite_self]
theorem grantLock_owners (s : State) (t : Nat) (h : Holder) (cpt leaseUs : Nat) : (s.grantLock t h cpt leaseUs).owners = s.owners := by
  simp only [grantLock, setTally_owners]

theorem freeLock_owners (s : State) (t : Nat) : (s.freeLock t).owners = s.owners := by
  unfold freeLock
  dsimp only
  split <;> simp only [setTally_owners, grantLock_owners, wakeWaiter_owners]

theorem abandonLock_owners (s : State) (t : Nat) : (s.abandonLock t).owners = s.owners := by
  simp only [abandonLock, setTally_owners, bump_owners, setF_owners, raise_owners, freeLock_owners]
theorem abandonWhere_owners (s : State) (p : Holder → Bool) : (s.abandonWhere p).owners = s.owners := by
  simp only [abandonWhere, abandonLock_owners, foldl_owners, implies_true]
theorem dropWaits_owners (s : State) (d : Die) (n : Nat) : (s.dropWaits d n).owners = s.owners := rfl

theorem lockTry_owners (s : State) (h t : Nat) : (s.lockTry h t).2.owners = s.owners := by
  unfold lockTry
  dsimp only
  repeat' split
  all_goals simp only [grantLock_owners]

/-! ### Placement operations that several families share (R203 to R230): buckets, frames, held lots, targets, page-ins. -/

theorem startPageInAt_owners (s : State) (l : Nat) (goal : Option Nat) : (s.startPageInAt l goal).owners = s.owners := by
  simp only [startPageInAt, bump_owners, apply_ite owners, ite_self]
theorem startPageIn_owners (s : State) (l : Nat) : (s.startPageIn l).owners = s.owners := by
  simp only [startPageIn, startPageInAt_owners, apply_ite owners, ite_self]

theorem withRunning_owners (s : State) (d : Die) (n q op : Nat) (f : Desc → State) (hf : ∀ x, (f x).owners = s.owners) :
    (s.withRunning d n q op f).owners = s.owners := by
  unfold withRunning
  split
  · split
    · exact hf _
    · rfl
  · rfl

theorem stall_owners (s : State) (w : Stalled) : (s.stall w).owners = s.owners := rfl
theorem pageInAll_owners (s : State) (ls : List Nat) : (s.pageInAll ls).owners = s.owners := by
  simp only [pageInAll, startPageIn_owners, foldl_owners, implies_true]

/-! ### Where the bytes of the near store and the depot lie (R246, R247, R257 to R259), and what an uncorrectable codeword leaves behind
(R148, R255, R621, R622). -/

theorem devWrite_owners (s : State) (a : Nat) (bs : Bytes) : (s.devWrite a bs).owners = s.owners := by
  unfold devWrite
  split
  · exact owners_of (foldl_frame (π := owning) (fun t b => ite_owning (owning_of (setEntry_owners _ _ _)) rfl) _ _)
  · exact cohWrite_owners _ _ _

theorem reportUncorr_owners (s : State) (r : Requester) (pa seq : Nat) : (s.reportUncorr r pa seq).owners = s.owners := by
  unfold reportUncorr
  dsimp only
  repeat' split
  all_goals simp only [logRec_owners, noteUe_owners]

/-! ### What the end of a descriptor settles: the table registry's slots (R314, R316, R317) and the gather windows (R373). -/

theorem tablesSettle_owners (s : State) : (s.tablesSettle).owners = s.owners := by
  simp only [tablesSettle, setTblSlot_owners, setF_owners, raise_owners, foldl_owners, implies_true]
theorem windowsDone_owners (s : State) (ws : List Nat) : (s.windowsDone ws).owners = s.owners := by
  simp only [windowsDone]

theorem fillDone_owners (s : State) (x : Desc) : (s.fillDone x).owners = s.owners := by
  unfold fillDone
  split
  · split
    · split <;> rfl
    · rfl
  · rfl

/-! ### Streams and the scheduler (R152 to R166, R185 to R199, R510): context commands, doorbells, fetch, start, completion records and
FILL work. -/

theorem ctxReject_owners (s : State) (d : Die) : (s.ctxReject d).owners = s.owners := by
  simp only [ctxReject, setF_owners]

theorem haltStream_owners (s : State) (d : Die) (n cause : Nat) (irq : Bool) : (s.haltStream d n cause irq).owners = s.owners := by
  unfold haltStream
  dsimp only
  split <;> simp only [setStreamState_owners, setF_owners, raise_owners]

theorem ringXlate_owners (s : State) (d : Die) (n va : Nat) (wr : Bool) : (s.ringXlate d n va wr).2.owners = s.owners := by
  unfold ringXlate
  dsimp only
  repeat' split
  all_goals simp only [walk_owners, countWalk_owners, reportUncorr_owners]

theorem headerSignal_owners (s : State) (d : Die) (n : Nat) (x : Desc) : (s.headerSignal d n x).owners = s.owners := by
  simp only [headerSignal, apply_ite owners, ite_self]
theorem recordIrq_owners (s : State) (d : Die) (n : Nat) (x : Desc) : (s.recordIrq d n x).owners = s.owners := by
  simp only [recordIrq, raise_owners, sendMsi_owners, apply_ite owners, ite_self]

theorem dropOldest_owners (s : State) (d : Die) (n : Nat) : (s.dropOldest d n).owners = s.owners := by
  unfold dropOldest
  dsimp only
  repeat' split
  all_goals simp only [setStream_owners, tablesSettle_owners, windowsDone_owners, fillDone_owners, setStreamState_owners]

theorem holdRecords_owners (s : State) (d : Die) (n cause : Nat) : (s.holdRecords d n cause).owners = s.owners := by
  simp only [holdRecords, setStream_owners, haltStream_owners]

theorem writeRecord_owners (s : State) (d : Die) (n : Nat) (x : Desc) : (s.writeRecord d n x).2.owners = s.owners := by
  have hx := s.ringXlate_owners d n (s.ctxCompletion d n + 16 * x.slot) true
  unfold writeRecord
  dsimp only
  split
  next h =>
    split
    · exact (holdRecords_owners _ _ _ _).trans ((reportUncorr_owners _ _ _ _).trans (snd_owners hx h))
    · refine (dropOldest_owners _ _ _).trans ((recordIrq_owners _ _ _ _).trans ((headerSignal_owners _ _ _ _).trans
        ((setDoneSeq_owners _ _ _ _).trans ?_)))
      repeat' split
      all_goals simp only [cohWrite_owners, wrBytes_owners, drawFree_owners, snd_owners hx h]
  next h => exact (holdRecords_owners _ _ _ _).trans (snd_owners hx h)
  next h => exact (holdRecords_owners _ _ _ _).trans (snd_owners hx h)
  next h => exact (startPageIn_owners _ _).trans (snd_owners hx h)

theorem settleHeld_owners (s : State) (d : Die) (n : Nat) : (s.settleHeld d n).owners = s.owners := by
  simp only [settleHeld, setStream_owners, apply_ite owners, ite_self]

theorem flushHeld_owners (d : Die) (n k : Nat) (s : State) : (flushHeld d n k s).owners = s.owners := by
  induction k generalizing s with
  | zero => rfl
  | succ k ih =>
    unfold flushHeld
    split
    next x l _ =>
      have hw := s.writeRecord_owners d n x
      split
      · split
        next h => rw [ih, snd_owners hw h]
        next h => exact snd_owners hw h
      · rfl
    · rfl

theorem finish_owners (s : State) (d : Die) (n q st : Nat) (pos : Nat) (operand : Nat) :
    (s.finish d n q st pos operand).owners = s.owners := by
  unfold finish
  dsimp only
  repeat' split
  all_goals simp only [endDesc_owners, noteIdle_owners, reportUncorr_owners]

theorem partEnd_owners (s : State) (d : Die) (n q : Nat) (b : Option BadOp) : (s.partEnd d n q b).owners = s.owners := by
  simp only [partEnd]
  split <;> simp only [finish_owners, apply_ite owners, ite_self]
theorem abortStream_owners (s : State) (d : Die) (n : Nat) : (s.abortStream d n).owners = s.owners := by
  simp only [abortStream, setStream_owners, noteIdle_owners, dropWaits_owners, abandonWhere_owners, setStreamState_owners]

theorem retireStream_owners (s : State) (d : Die) (n : Nat) : (s.retireStream d n).owners = s.owners := by
  unfold retireStream
  dsimp only
  repeat' split
  all_goals simp only [setStream_owners, dropWaits_owners, setHead_owners, setNextSeq_owners, haltStream_owners]

theorem pushDesc_owners (s : State) (d : Die) (n : Nat) (x : Desc) : (s.pushDesc d n x).owners = s.owners := by
  simp only [pushDesc, setStream_owners]
theorem consume_owners (s : State) (d : Die) (n : Nat) : (s.consume d n).owners = s.owners := by
  simp only [consume, setHead_owners, setNextSeq_owners]
theorem xlateFor_owners (s : State) (d : Die) (n : Nat) (rs : List VRange) : (s.xlateFor d n rs).2.owners = s.owners := by
  simp only [xlateFor, xlatePages_owners]
theorem failFetch_owners (s : State) (d : Die) (n : Nat) (x : Desc) (st pos : Nat) : (s.failFetch d n x st pos).owners = s.owners := by
  simp only [failFetch, pushDesc_owners, consume_owners]
theorem failFoot_owners (s : State) (d : Die) (n : Nat) (x : Desc) (r : FootRes) : (s.failFoot d n x r).owners = s.owners := by
  simp only [failFoot]
  split <;> simp only [failFetch_owners, reportUncorr_owners, startPageIn_owners]

theorem fetchPages_owners (s : State) (d : Die) (n : Nat) (x : Desc) : (s.fetchPages d n x).owners = s.owners := by
  have hx := s.xlateFor_owners d n (footprint x)
  unfold fetchPages
  split
  · exact failFetch_owners _ _ _ _ _ _
  · split
    next h =>
      dsimp only
      split <;> simp only [registerWait_owners, pageInAll_owners, consume_owners, pushDesc_owners, snd_owners hx h]
    next h => rw [failFoot_owners, snd_owners hx h]

theorem readRecord_owners {s : State} {d : Die} {n va len : Nat} {t : State} :
    (∀ v, s.readRecord d n va len = .ok v t → t.owners = s.owners) ∧ (∀ r, s.readRecord d n va len = .fail r t → t.owners = s.owners) := by
  have hx := s.xlateFor_owners d n [⟨va, len, false⟩]
  unfold readRecord
  split
  next h =>
    split
    · refine ⟨fun v h => (nomatch h), fun r h => ?_⟩
      injection h with _ ht
      rw [← ht]
    · split
      · exact ⟨fun v h => (nomatch h), fun r h => (nomatch h)⟩
      · refine ⟨fun v h => ?_, fun r h => (nomatch h)⟩
        injection h with _ ht
        rw [← ht, touchV_owners]
  next h =>
    have hs := snd_owners hx h
    refine ⟨fun v h => (nomatch h), fun r h => ?_⟩
    injection h with _ ht
    rw [← ht, hs]

theorem fetchFoot_owners (s : State) (d : Die) (n : Nat) (x : Desc) : (s.fetchFoot d n x).owners = s.owners := by
  unfold fetchFoot
  split
  · exact fetchPages_owners _ _ _ _
  · split
    next h => rw [fetchPages_owners, readRecord_owners.1 _ h]
    next h => rw [startPageIn_owners, readRecord_owners.2 _ h]
    next h => exact fetchPages_owners _ _ _ _
    next h => exact fetchPages_owners _ _ _ _

theorem fetchLayout_owners (s : State) (d : Die) (n : Nat) (x : Desc) (fs : List Nat) : (s.fetchLayout d n x fs).owners = s.owners := by
  unfold fetchLayout
  dsimp only
  split
  next h _ =>
    have hs := readRecord_owners.1 _ ‹_›
    split
    · rw [failFetch_owners, hs]
    · split
      · rw [failFetch_owners, hs]
      · rw [fetchFoot_owners, hs]
  next h => rw [startPageIn_owners, readRecord_owners.2 _ ‹_›]
  next => exact failFetch_owners _ _ _ _ _ _
  next => rw [failFoot_owners, xlateFor_owners]
  next => rw [failFetch_owners, reportUncorr_owners]

theorem fetchDesc_owners (s : State) (d : Die) (n raw : Nat) : (s.fetchDesc d n raw).owners = s.owners := by
  unfold fetchDesc
  dsimp only
  repeat' split
  all_goals simp only [pushDesc_owners, haltStream_owners, fetchLayout_owners, failFetch_owners, fetchFoot_owners]

theorem noteTurn_owners (s : State) (d : Die) (e n : Nat) : (s.noteTurn d e n).owners = s.owners := by
  simp only [noteTurn, setEngine_owners]
theorem fillPart_owners (s : State) (d : Die) (e c : Nat) : (s.fillPart d e c).owners = s.owners := by
  simp only [fillPart, setEngine_owners, zeroBytes_owners, apply_ite owners, ite_self]

/-! ### The matrix arrays at work (R107 to R134, R173 to R175): tiles, their results, preloads and clearings. -/

theorem putElems_owners (s : State) (pins : SMap Nat) (row b j : Nat) (cs : List Nat) : (s.putElems pins row b j cs).owners = s.owners := by
  simp only [putElems, wrV_owners]

theorem writeRow_owners (s : State) (d : Die) (n : Nat) (x : Desc) (i j0 : Nat) (accs : List Acc) :
    (s.writeRow d n x i j0 accs).1.owners = s.owners := by
  unfold writeRow
  dsimp only
  repeat' split
  all_goals simp only [wrV_owners, putElems_owners]

theorem writeTile_owners (s : State) (d : Die) (n : Nat) (x : Desc) (fill : Bool) (t : Nat) :
    (s.writeTile d n x fill t).1.owners = s.owners := by
  unfold writeTile
  refine foldl_fst_owners (fun acc p => ?_) _ _
  exact writeRow_owners _ _ _ _ _ _ _

theorem endMatmul_owners (s : State) (d : Die) (n q : Nat) : (s.endMatmul d n q).owners = s.owners := by
  unfold endMatmul
  split
  · split <;> exact finish_owners _ _ _ _ _ _ _
  · rfl

theorem dropTiles_owners (s : State) (d : Die) (e n seq : Nat) : (s.dropTiles d e n seq).owners = s.owners := by
  simp only [dropTiles, setEngine_owners]

theorem takeTile_owners (s : State) (d : Die) (e a n q : Nat) : (s.takeTile d e a n q).owners = s.owners := by
  unfold takeTile
  dsimp only
  split <;> simp only [updArr_owners, bump_owners, noteTurn_owners, updDesc_owners, apply_ite owners, ite_self]

theorem runMatmul_owners (s : State) (d : Die) (n q : Nat) (x : Desc) : (s.runMatmul d n q x).owners = s.owners := by
  unfold runMatmul
  dsimp only
  split
  · rfl
  · split
    · exact finish_owners _ _ _ _ _ _ _
    · split
      · split
        · exact finish_owners _ _ _ _ _ _ _
        · rw [partEnd_owners, finish_owners, updDesc_owners]
          refine foldl_fst_owners (fun acc t => ?_) _ _
          exact writeTile_owners _ _ _ _ _ _
      · split
        · exact foldl_owners (fun t a => ite_owners (takeTile_owners _ _ _ _ _ _) rfl) _ _
        · exact foldl_owners (fun t a => takeTile_owners _ _ _ _ _ _) _ _

theorem busyFor_owners (s : State) (d : Die) (e : Nat) : (s.busyFor d e).owners = s.owners := by
  simp only [busyFor, setWord_owners, drawFree_owners]

/-! ### The vector unit (R91 to R96, R176 to R178): element operations, functions, conversions and reductions. -/

theorem vecPut_owners (s : State) (x : Desc) (codes scales : List Nat) (lo n : Nat) : (s.vecPut x codes scales lo n).owners = s.owners := by
  unfold vecPut
  dsimp only
  split <;> simp only [putElems_owners, wrV_owners]

theorem vecWrite_owners (s : State) (x : Desc) (outs : List (Num × RMode)) : (s.vecWrite x outs).owners = s.owners := by
  simp only [vecWrite, vecPut_owners]
theorem vecTaken_owners (s : State) (d : Die) (n : Nat) : (s.vecTaken d n).owners = s.owners := by
  simp only [vecTaken, setEngine_owners]
theorem vecLeaves_owners (s : State) (d : Die) (n : Nat) (x : Desc) (outs : List (Num × RMode)) :
    (s.vecLeaves d n x outs).owners = s.owners := by
  simp only [vecLeaves, setEngine_owners]
theorem vecFill_owners (s : State) (d : Die) (n q : Nat) (x : Desc) : (s.vecFill d n q x).owners = s.owners := by
  simp only [vecFill, vecLeaves_owners, vecPut_owners, updDesc_owners, finish_owners, partEnd_owners, apply_ite owners, ite_self]

theorem runVector_owners (s : State) (d : Die) (n q vop : Nat) : (s.runVector d n q vop).owners = s.owners := by
  unfold runVector
  refine withRunning_owners _ _ _ _ _ _ fun x => ?_
  split
  · rfl
  · dsimp only
    generalize (if x.next == 0 then (s.vecTaken d n).vecBad x else none) = b
    cases b with
    | some b => rw [finish_owners, vecTaken_owners]
    | none =>
      dsimp only
      split <;> simp only [vecFill_owners, partEnd_owners, finish_owners, vecLeaves_owners, vecWrite_owners, vecTaken_owners]

/-! ### REDUCE_LOCAL (R99, R100, R103, R104, R128 to R133, R179): merges of partial records, ORF value sums, anchor maxima and NRM128
sums. -/

theorem withReduce_owners (s : State) (d : Die) (n q kind : Nat) (f : Desc → State → State) (hf : ∀ x t, (f x t).owners = t.owners) :
    (s.withReduce d n q kind f).owners = s.owners := by
  unfold withReduce
  refine withRunning_owners _ _ _ _ _ _ fun x => ?_
  split
  · rfl
  · dsimp only
    split <;> simp only [finish_owners, partEnd_owners, hf, vecTaken_owners]

theorem mergeWrite_owners (s : State) (d : Die) (n q : Nat) (x : Desc) (ms : List PRec) : (s.mergeWrite d n q x ms).owners = s.owners := by
  unfold mergeWrite
  dsimp only
  repeat' split
  all_goals simp only [finish_owners, putElems_owners, wrV_owners]

/-! ### MOVE (R180, R181). -/

theorem movePut_owners (s : State) (x : Desc) (row : Nat → Bytes) (lo n : Nat) : (s.movePut x row lo n).owners = s.owners := by
  simp only [movePut, wrV_owners, foldl_owners, implies_true]

theorem withMove_owners (s : State) (d : Die) (n q mode : Nat) (row : Desc → State → Nat → Bytes) :
    (s.withMove d n q mode row).owners = s.owners := by
  unfold withMove
  refine withRunning_owners _ _ _ _ _ _ fun x => ?_
  split
  · rfl
  · dsimp only
    split <;> simp only [finish_owners, partEnd_owners, updDesc_owners, movePut_owners, apply_ite owners, ite_self]

/-! ### The placement unit (R200 to R235, R243, R244): frames, ages, evictions, page-ins, caravans and its queries. -/

theorem plcMarks_owners (s : State) (k : Nat) : (s.plcMarks k).owners = s.owners := by
  simp only [plcMarks, watermark_owners]
theorem place1_owners (s : State) (l tier : Nat) (dirty : Bool) (age way : Nat) : (s.place1 l tier dirty age way).owners = s.owners := by
  simp only [place1, setEntry_owners]

theorem noteLotUe_owners (s : State) (l : Nat) : (s.noteLotUe l).owners = s.owners := by
  unfold noteLotUe
  refine foldl_owners (fun t b => ?_) _ _
  split
  · exact noteUe_owners _ _ _
  · rfl

theorem homeNow_owners (s : State) (l : Nat) : (s.homeNow l).owners = s.owners := by
  simp only [homeNow]
theorem trimHome_owners (s : State) (l : Nat) : (s.trimHome l).owners = s.owners := rfl
theorem toWarehouse_owners (s : State) (l : Nat) : (s.toWarehouse l).owners = s.owners := by
  simp only [toWarehouse, place1_owners, plcMarks_owners]
theorem startWriteback_owners (s : State) (l : Nat) : (s.startWriteback l).owners = s.owners := rfl
theorem startMove_owners (s : State) (l tier way : Nat) (caravan : Bool) : (s.startMove l tier way caravan).owners = s.owners := rfl
theorem countWait_owners (s : State) (l : Nat) : (s.countWait l).owners = s.owners := by
  simp only [countWait, bump_owners, apply_ite owners, ite_self]
theorem evictDepot_owners (s : State) (l : Nat) : (s.evictDepot l).owners = s.owners := by
  simp only [evictDepot, startWriteback_owners, bump_owners, toWarehouse_owners, apply_ite owners, ite_self]

theorem evictNear_owners (s : State) (l way : Nat) : (s.evictNear l way).owners = s.owners := by
  unfold evictNear
  dsimp only
  repeat' split
  all_goals simp only [bump_owners, toWarehouse_owners, startWriteback_owners, startMove_owners, evictDepot_owners, countWait_owners]

theorem evict_owners (s : State) (tier l way : Nat) : (s.evict tier l way).owners = s.owners := by
  simp only [evict, evictDepot_owners, evictNear_owners, apply_ite owners, ite_self]
theorem dropPageIn_owners (s : State) (l : Nat) : (s.dropPageIn l).owners = s.owners := rfl
theorem updPageIn_owners (s : State) (l : Nat) (f : PageIn → PageIn) : (s.updPageIn l f).owners = s.owners := by
  simp only [updPageIn]
theorem takeFrame_owners (s : State) (l tier age : Nat) (dirty : Bool) (way : Nat) :
    (s.takeFrame l tier age dirty way).owners = s.owners := by
  simp only [takeFrame, bump_owners, place1_owners, plcMarks_owners, apply_ite owners, ite_self]
theorem arrive_owners (s : State) (p : PageIn) (way : Nat) : (s.arrive p way).owners = s.owners := by
  simp only [arrive, zeroBytes_owners, dropPageIn_owners, takeFrame_owners, apply_ite owners, ite_self]
theorem skipLot_owners (s : State) (l : Nat) : (s.skipLot l).owners = s.owners := by
  simp only [skipLot, bump_owners]

theorem moveLot_owners (s : State) (t l gen : Nat) : (s.moveLot t l gen).1.owners = s.owners := by
  unfold moveLot
  dsimp only
  repeat' split
  all_goals simp only [skipLot_owners, place1_owners, startPageInAt_owners, startWriteback_owners, bump_owners, toWarehouse_owners,
    startMove_owners, countWait_owners]

theorem stepEntry_owners (s : State) (t e : Nat) : (s.stepEntry t e).1.owners = s.owners := by
  unfold stepEntry
  dsimp only
  repeat' split
  all_goals simp only [moveLot_owners, skipLot_owners]

theorem joinCaravans_owners (s : State) (v : Nat × Nat × Nat) : (s.joinCaravans v).owners = s.owners := rfl

theorem stepCaravan_owners (s : State) (v : Nat × Nat × Nat) (x : Desc) : (s.stepCaravan v x).1.owners = s.owners := by
  unfold stepCaravan
  refine foldl_fst_owners (fun acc e => ?_) _ _
  dsimp only
  split
  · rfl
  · exact stepEntry_owners _ _ _

/-! ### The pool manager (R236 to R242, R245): its queues, ALLOC, FREE and SET_PLACEMENT. -/

theorem poolHalt_owners (s : State) (c cause : Nat) : (s.poolHalt c cause).owners = s.owners := by
  simp only [poolHalt, setF_owners]
theorem poolRecord_owners (s : State) (c slot seq st pos : Nat) : (s.poolRecord c slot seq st pos).owners = s.owners := by
  simp only [poolRecord, poolHalt_owners, setF_owners, wrBytes_owners, drawFree_owners, apply_ite owners, ite_self]

theorem poolDone_owners (s : State) (c st : Nat) (pos : Nat) : (s.poolDone c st pos).owners = s.owners := by
  unfold poolDone
  dsimp only
  split <;> simp only [poolRecord_owners]

theorem makeBuffer_owners (s : State) (c idx : Nat) (b : Buf) : (s.makeBuffer c idx b).owners = s.owners := by
  unfold makeBuffer
  dsimp only
  split
  · exact zeroBytes_owners _ _ _
  · exact foldl_owners (fun t l => setEntry_owners _ _ _) _ _

theorem refuseHandle_owners (s : State) (c st seq : Nat) : (s.refuseHandle c st seq).owners = s.owners := by
  simp only [refuseHandle, bump_owners, logRec_owners, poolDone_owners]
theorem freeLot_owners (s : State) (l : Nat) : (s.freeLot l).owners = s.owners := by
  simp only [freeLot, trimHome_owners, setEntry_owners, zeroBytes_owners, plcMarks_owners]
theorem freeBuffer_owners (s : State) (c idx : Nat) (b : Buf) : (s.freeBuffer c idx b).owners = s.owners := by
  simp only [freeBuffer, freeLot_owners, foldl_owners, implies_true, apply_ite owners, ite_self]

theorem withReq_owners (s : State) (c op : Nat) (f : Nat → State) (hf : ∀ r, (f r).owners = s.owners) :
    (s.withReq c op f).owners = s.owners := by
  unfold withReq
  split
  · split
    · exact hf _
    · rfl
  · rfl

/-! ### The memory channels (R246 to R273): codewords, marks, narrow reads, refresh, calibration, scrubs and telemetry. -/

theorem noteCorr_owners (s : State) (w : Cw) (errs : List Nat) : (s.noteCorr w errs).owners = s.owners := by
  simp only [noteCorr, bump_owners, setChan_owners, apply_ite owners, ite_self]
theorem markBad_owners (s : State) (a : Nat) : (s.markBad a).owners = s.owners := by
  simp only [markBad, apply_ite owners, ite_self]
theorem tellUncorr_owners (s : State) (r : Requester) (n : Nat) : (s.tellUncorr r n).owners = s.owners := by
  simp only [tellUncorr]
  split <;> simp only [answer_owners]
theorem activate_owners (s : State) (w : Cw) (tagBad : Bool) : (s.activate w tagBad).2.owners = s.owners := by
  simp only [activate, setChan_owners]

theorem readCw_owners (s : State) (w : Cw) (a : Nat) (errs : List Nat) (tagBad : Bool) :
    (s.readCw w a errs tagBad).2.owners = s.owners := by
  unfold readCw
  dsimp only
  repeat' split
  all_goals simp only [bump_owners, noteCorr_owners, markBad_owners, drawFree_owners, activate_owners]

theorem setDebt_owners (s : State) (d : Die) (ch : Nat) (v : Int) : (s.setDebt d ch v).owners = s.owners := by
  simp only [setDebt, setF_owners, raiseMax_owners]
theorem forceRefresh_owners (s : State) (d : Die) (ch : Nat) : (s.forceRefresh d ch).owners = s.owners := by
  simp only [forceRefresh, setDebt_owners, bump_owners, apply_ite owners, ite_self]
theorem issueOwed_owners (s : State) (d : Die) (ch : Nat) : (s.issueOwed d ch).owners = s.owners := by
  simp only [issueOwed, setChan_owners, setDebt_owners, bump_owners, apply_ite owners, ite_self]

theorem scrubCw_owners (s : State) (d : Die) (ch n : Nat) (errs : List Nat) (tagBad : Bool) :
    (s.scrubCw d ch n errs tagBad).owners = s.owners := by
  have hx := s.readCw_owners ⟨d, ch, n⟩ (s.cwAddr ⟨d, ch, n⟩) errs tagBad
  unfold scrubCw
  dsimp only
  split
  next h => exact ite_owners (snd_owners hx h) (snd_owners hx h :)
  next h => rw [reportUncorr_owners, snd_owners hx h]

theorem scrubBurst_owners (s : State) (d : Die) (ch : Nat) (errs : List (Nat × List Nat)) : (s.scrubBurst d ch errs).owners = s.owners := by
  simp only [scrubBurst, scrubCw_owners, setF_owners, setChan_owners, foldl_owners, implies_true, apply_ite owners, ite_self]
theorem markPair_owners (s : State) (d : Die) (ch pair : Nat) : (s.markPair d ch pair).owners = s.owners := by
  simp only [markPair, setChan_owners, bump_owners, logRec_owners, summary_owners, ledg_owners]

theorem repairPair_owners (s : State) (d : Die) (ch : Nat) : (s.repairPair d ch).owners = s.owners := by
  unfold repairPair
  dsimp only
  split <;> simp only [setChan_owners, bump_owners, setF_owners, summary_owners, ledg_owners, apply_ite owners, ite_self]

theorem requestIn_owners (s : State) (r : Requester) (d : Die) (pa : Nat) (data : Bytes) : (s.requestIn r d pa data).owners = s.owners := by
  unfold requestIn
  dsimp only
  split <;> rfl

theorem replyOut_owners (s : State) (r : Requester) (d : Die) (pa : Nat) (data : Bytes) : (s.replyOut r d pa data).owners = s.owners := by
  unfold replyOut
  dsimp only
  split <;> rfl

theorem serveNarrow_owners (s : State) (xs : List Narrow) : (s.serveNarrow xs).owners = s.owners := by
  unfold serveNarrow
  dsimp only
  repeat' split
  all_goals simp only [readCw_owners, touchRead_owners, replyOut_owners, answer_owners, reportUncorr_owners, tellUncorr_owners,
    foldl_owners, implies_true]

theorem readSectors_owners (w0 : Cw) (x : Fetch) (tagBad : Bool) (l : List (Nat × Nat)) (r : Except Nat Bytes) (s : State) :
    (readSectors w0 x tagBad l r s).2.owners = s.owners := by
  induction l generalizing r s with
  | nil => rfl
  | cons e t ih =>
    obtain ⟨a, i⟩ := e
    unfold readSectors
    split
    · exact ih _ _
    · exact (ih _ _).trans (readCw_owners _ _ _ _ _)

theorem serveRead_owners (s : State) (r : Requester) (pa : Nat) (x : Fetch) (tagBad : Bool) :
    (s.serveRead r pa x tagBad).owners = s.owners := by
  unfold serveRead
  dsimp only
  split
  · rfl
  next w _ =>
    have hx := readSectors_owners w x tagBad (fetchSectors pa x).zipIdx (.ok []) s
    split
    next h => rw [answer_owners, replyOut_owners, touchRead_owners, snd_owners hx h]
    next h => rw [tellUncorr_owners, replyOut_owners, reportUncorr_owners, snd_owners hx h]

theorem readModify_owners (s : State) (x : MemStore) (y : (Nat × Bool) × Nat) : (s.readModify x y).owners = s.owners := by
  unfold readModify
  split
  · rfl
  · split
    · rfl
    next w _ =>
      have hx := s.readCw_owners w y.1.1 ((x.errs.filter fun e => e.1 == y.2).flatMap (·.2)) x.tagBad
      split
      next h => exact ite_owners (snd_owners hx h) (snd_owners hx h :)
      next h => rw [markBad_owners, snd_owners hx h]

theorem serveWrite_owners (s : State) (r : Requester) (pa : Nat) (x : MemStore) : (s.serveWrite r pa x).owners = s.owners := by
  unfold serveWrite
  dsimp only
  repeat' split
  all_goals simp only [readModify_owners, replyOut_owners, wrBytes_owners, answer_owners, writeLostRec_owners, bump_owners, foldl_owners,
    implies_true]

theorem serve_owners (s : State) (q : MemReq) : (s.serve q).owners = s.owners := by
  simp only [serve]
  split <;> simp only [serveRead_owners, serveWrite_owners, serveNarrow_owners]

theorem issue_owners (s : State) (d : Die) (ch i : Nat) : (s.issue d ch i).owners = s.owners := by
  unfold issue
  dsimp only
  repeat' split
  all_goals simp only [setChan_owners, serveNarrow_owners, serve_owners]

theorem drainFg_owners (d : Die) (ch k pos : Nat) (s : State) : (drainFg d ch k pos s).owners = s.owners := by
  induction k generalizing pos s with
  | zero => rfl
  | succ k ih =>
    unfold drainFg
    split <;> simp only [ih, issue_owners, apply_ite owners, ite_self]

theorem runChan_owners (s : State) (d : Die) (ch : Nat) : (s.runChan d ch).owners = s.owners := by
  simp only [runChan, drainFg_owners, apply_ite owners, ite_self]
theorem request_owners (s : State) (d : Die) (ch : Nat) (q : MemReq) : (s.request d ch q).owners = s.owners := by
  simp only [request, setChan_owners, runChan_owners, serve_owners, apply_ite owners, ite_self]
theorem ripen_owners (s : State) (d : Die) (ch : Nat) (p : Narrow → Bool) : (s.ripen d ch p).owners = s.owners := by
  simp only [ripen, setChan_owners]
theorem ripeNarrow_owners (s : State) (d : Die) (ch : Nat) : (s.ripeNarrow d ch).owners = s.owners := by
  simp only [ripeNarrow, ripen_owners, apply_ite owners, ite_self]

theorem askNarrow_owners (s : State) (k pa : Nat) (x : NarrowAsk) : (s.askNarrow k pa x).owners = s.owners := by
  unfold askNarrow
  dsimp only
  split <;> simp only [requestIn_owners, setChan_owners, apply_ite owners, ite_self]

theorem requestWrite_owners (s : State) (r : Requester) (pa : Nat) (x : MemStore) : (s.requestWrite r pa x).owners = s.owners := by
  unfold requestWrite
  dsimp only
  split <;> simp only [ripeNarrow_owners, ripen_owners, runChan_owners, requestIn_owners, request_owners, apply_ite owners, ite_self]

theorem memWrite_owners (s : State) (r : Requester) (pa : Nat) (x : MemStore) : (s.memWrite r pa x).owners = s.owners := by
  simp only [memWrite, stall_owners, requestWrite_owners, foldl_owners, implies_true, apply_ite owners, ite_self]
theorem trainLanes_owners (s : State) (k : Nat) : (s.trainLanes k).owners = s.owners := by
  simp only [trainLanes, setF_owners, setChan_owners, repairPair_owners, foldl_owners, implies_true]
theorem trainMemory_owners (s : State) (d : Die) : (s.trainMemory d).owners = s.owners := by
  simp only [trainMemory, trainLanes_owners, apply_ite owners, ite_self]
theorem applyLanes_owners (s : State) : (s.applyLanes).owners = s.owners := by
  simp only [applyLanes, trainLanes_owners, foldl_owners, implies_true]
theorem allBankRefresh_owners (s : State) : (s.allBankRefresh).owners = s.owners := by
  simp only [allBankRefresh, setF_owners, foldl_owners, implies_true, apply_ite owners, ite_self]

/-! ### The update units (R274 to R302, R309): parameter blocks, order, the gate, the algorithms, delay accumulators, trailers and
difference streams. -/

theorem countTorn_owners (s : State) (x : Desc) : (s.countTorn x).owners = s.owners := by
  simp only [countTorn, bump_owners, foldl_owners, implies_true, apply_ite owners, ite_self]
theorem lkpDone_owners (s : State) (x : Desc) (st : Nat) : (s.lkpDone x st).owners = s.owners := by
  simp only [lkpDone, bump_owners, apply_ite owners, ite_self]
theorem lkpFinish_owners (s : State) (d : Die) (n : Nat) (x : Desc) (st : Nat) (pos : Nat) (operand : Nat) :
    (s.lkpFinish d n x st pos operand).owners = s.owners := by
  simp only [lkpFinish, finish_owners, lkpDone_owners]

theorem reqFinish_owners (s : State) (d : Die) (n q st : Nat) (pos : Nat) (operand : Nat) :
    (s.reqFinish d n q st pos operand).owners = s.owners := by
  simp only [reqFinish]
  split <;> simp only [lkpFinish_owners, finish_owners, apply_ite owners, ite_self]

theorem countForeign_owners (s : State) (c : Nat) (dsEn : Bool) (ls : List Nat) : (s.countForeign c dsEn ls).owners = s.owners := by
  simp only [countForeign, bump_owners, foldl_owners, implies_true, apply_ite owners, ite_self]
theorem updSettle_owners (s : State) (d : Die) (n q : Nat) : (s.updSettle d n q).owners = s.owners := by
  simp only [updSettle]
  split <;> simp only [finish_owners, apply_ite owners, ite_self]

theorem admitUpdate_owners (s : State) (d : Die) (n q : Nat) (x : Desc) (cs : List UpdClass) :
    (s.admitUpdate d n q x cs).owners = s.owners := by
  unfold admitUpdate
  dsimp only
  split <;> simp only [finish_owners, updDesc_owners, bump_owners, touchV_owners, countForeign_owners, updSettle_owners, foldl_owners,
    implies_true, apply_ite owners, ite_self]

theorem classify_owners (s : State) (d : Die) (n q : Nat) (x : Desc) : (s.classify d n q x).owners = s.owners := by
  unfold classify
  dsimp only
  repeat' split
  all_goals simp only [countTorn_owners, finish_owners, admitUpdate_owners, bump_owners, updDesc_owners]

theorem pinArrays_owners (s : State) (d : Die) (n q : Nat) (y : Desc) (rs : List VRange) (pos : Nat) :
    (s.pinArrays d n q y rs pos).2.owners = s.owners := by
  have hx := s.xlateFor_owners d n rs
  unfold pinArrays
  split
  · rfl
  · split
    · exact finish_owners _ _ _ _ _ _ _
    · split
      next h => exact (finish_owners _ _ _ _ _ _ _).trans (snd_owners hx h)
      next h => rw [noteIdle_owners, endDesc_owners, reportUncorr_owners, snd_owners hx h]
      next h => exact (startPageIn_owners _ _).trans (snd_owners hx h)
      next h =>
        dsimp only
        split
        · exact (updDesc_owners _ _ _ _ _).trans (snd_owners hx h)
        · rfl

theorem whenResident_owners (s : State) (d : Die) (n q : Nat) (f : Desc → State) (hf : ∀ x, (f x).owners = s.owners) :
    (s.whenResident d n q f).owners = s.owners := by
  unfold whenResident
  split <;> simp only [hf, pageInAll_owners, apply_ite owners, ite_self]

theorem writeCopy_owners (s : State) (x : Desc) (l : Nat) (ws : List Num) : (s.writeCopy x l ws).owners = s.owners := by
  simp only [writeCopy, putElems_owners, wrV_owners, foldl_owners, implies_true, apply_ite owners, ite_self]
theorem touchLotOps_owners (s : State) (x : Desc) (l : Nat) : (s.touchLotOps x l).owners = s.owners := by
  simp only [touchLotOps, touchV_owners, foldl_owners, implies_true]
theorem putRecord_owners (s : State) (u : Nat) (bytes : Bytes) : (s.putRecord u bytes).owners = s.owners := by
  simp only [putRecord, setDs_owners, bump_owners, apply_ite owners, ite_self]
theorem snapReached_owners (s : State) (pa : Nat) : (s.snapReached pa).owners = s.owners := by
  simp only [snapReached]
theorem lotDone_owners (s : State) (d : Die) (n q l : Nat) : (s.lotDone d n q l).owners = s.owners := by
  simp only [lotDone, updDesc_owners, updSettle_owners]

theorem skipUpdLot_owners (s : State) (d : Die) (n q l u : Nat) (x : Desc) (settle : State → State)
    (hf : ∀ t, (settle t).owners = t.owners) : (s.skipUpdLot d n q l u x settle).owners = s.owners := by
  refine owners_of ?_
  unfold skipUpdLot
  extract_lets t bytes t' s1
  have h1 : s1.owning = s.owning := owning_of ((bump_owners _ _ _ _ _).trans (wrV_owners _ _ _ _))
  refine ite_owning (owning_of (reqFinish_owners _ _ _ _ _ _ _)) (ite_owning rfl ((owning_of (hf _)).trans (ite_owning ?_ h1)))
  exact (owning_of (putRecord_owners _ _ _)).trans h1

theorem tearTrailer_owners (s : State) (x : Desc) (l : Nat) : (s.tearTrailer x l).owners = s.owners := by
  simp only [tearTrailer, wrV_owners]

theorem applyUpdLot_owners (s : State) (d : Die) (n q l u : Nat) (x : Desc) (on : Nat → Bool) (xs : List Num) (anchors : List Nat) (c : Num)
    (settle : State → State) (hf : ∀ t, (settle t).owners = t.owners) :
    (s.applyUpdLot d n q l u x on xs anchors c settle).owners = s.owners := by
  refine owners_of ?_
  unfold applyUpdLot
  split
  · exact owning_of (reqFinish_owners _ _ _ _ _ _ _)
  · split
    · exact owning_of (reqFinish_owners _ _ _ _ _ _ _)
    · extract_lets o bytes recs start b0 added s1 s2 s3 t' s4 s5 s6
      have h1 : s1.owning = s.owning := owning_of
        ((foldl_owners (fun _ _ => wrV_owners _ _ _ _) _ _).trans ((tearTrailer_owners _ _ _).trans (touchLotOps_owners _ _ _)))
      have h2 : s2.owning = s.owning := ite_owning ((owning_of (writeCopy_owners _ _ _ _)).trans h1) h1
      have h3 : s3.owning = s.owning := ite_owning h2 ((owning_of (wrV_owners _ _ _ _)).trans h2)
      have h4 : s4.owning = s.owning := (owning_of (bump_owners _ _ _ _ _)).trans ((owning_of (wrV_owners _ _ _ _)).trans h3)
      have h5 : s5.owning = s.owning := ite_owning ((owning_of (bump_owners _ _ _ _ _)).trans h4) h4
      have h6 : s6.owning = s.owning := (owning_of (bump_owners _ _ _ _ _)).trans h5
      exact ite_owning rfl ((owning_of (hf _)).trans (ite_owning ((owning_of (putRecord_owners _ _ _)).trans h6) h6))

/-! ### The embedding lookup engines (R310 to R342): the registry, LOOKUP, LOOKUP_GRAD, row updates and the sweeper. -/

theorem tblReject_owners (s : State) : (s.tblReject).owners = s.owners := by
  simp only [tblReject, setF_owners]
theorem loadTake_owners (s : State) (key pa : Nat) : (s.loadTake key pa).owners = s.owners := by
  simp only [loadTake, pageInAll_owners, touchRead_owners, setTblSlot_owners, tblReject_owners, apply_ite owners, ite_self]
theorem tblCmd_owners (s : State) (v : W32) : (s.tblCmd v).2.owners = s.owners := by
  simp only [tblCmd, setF_owners, apply_ite owners, ite_self]

theorem rowCommand_owners (s : State) (v : W32) (b : Nat) : (s.rowCommand v b).owners = s.owners := by
  unfold rowCommand
  dsimp only
  split <;> simp only [setF_owners, pageInAll_owners, wrNat_owners, apply_ite owners, ite_self]

theorem lkpLatch_owners (s : State) (d : Die) (n q : Nat) (x : Desc) : (s.lkpLatch d n q x).owners = s.owners := by
  unfold lkpLatch
  refine ite_owners (finish_owners _ _ _ _ _ _ _) ?_
  split
  · rfl
  · extract_lets stop tr t grad mask
    have hstop (u : State) (st pos : Nat) : (stop u st pos).owners = u.owners := (bump_owners _ _ _ _ _).trans (finish_owners _ _ _ _ _ _ _)
    have ht : t.owners = s.owners := touchV_owners _ _ _ _
    clear_value stop mask t
    refine ite_owners (hstop _ _ _) ?_
    split
    · exact (hstop _ _ _).trans ht
    · extract_lets v
      refine ite_owners ((hstop _ _ _).trans ht) ?_
      split
      next h => exact (pageInAll_owners _ _).trans ((snd_owners (pinArrays_owners _ _ _ _ _ _ _) h).trans ht)
      next h =>
        have hs := (snd_owners (pinArrays_owners _ _ _ _ _ _ _) h).trans ht
        exact ite_owners ((bump_owners _ _ _ _ _).trans hs) hs

theorem touchBatch_owners (s : State) (x : Desc) (rows : List Nat) : (s.touchBatch x rows).owners = s.owners := by
  unfold touchBatch
  dsimp only
  rw [foldl_owners fun t i => touchRead_owners _ _ _]
  split <;> simp only [touchV_owners]

theorem lkPool_owners (s : State) (d : Die) (n : Nat) (x : Desc) (idx : List Nat) (addrs : List (Nat × Nat)) :
    (s.lkPool d n x idx addrs).owners = s.owners := by
  simp only [lkPool, touchRead_owners, bump_owners, wrV_owners, lkpFinish_owners, foldl_owners, implies_true, apply_ite owners, ite_self]

theorem askRows_owners (s : State) (k : Nat) (rows : List (Nat × Nat)) : (s.askRows k rows).1.owners = s.owners := by
  unfold askRows
  refine foldl_fst_owners (fun acc p => ?_) _ _
  split
  · split
    · exact askNarrow_owners _ _ _ _
    · rfl
  · rfl

theorem lkRun_owners (s : State) (d : Die) (n : Nat) (x : Desc) (idx : List Nat) : (s.lkRun d n x idx).owners = s.owners := by
  unfold lkRun
  dsimp only
  repeat' split
  all_goals simp only [pageInAll_owners, reportUncorr_owners, lkpFinish_owners, askRows_owners, lkPool_owners, updDesc_owners]

theorem setBitmap_owners (s : State) (v l : Nat) (b : Bool) : (s.setBitmap v l b).owners = s.owners := by
  simp only [setBitmap, wrNat_owners]

theorem gradSettle_owners (s : State) (d : Die) (n q : Nat) : (s.gradSettle d n q).owners = s.owners := by
  unfold gradSettle
  dsimp only
  repeat' split
  all_goals simp only [lkpFinish_owners]

theorem gradAdmit_owners (s : State) (d : Die) (n q : Nat) (x : Desc) (st : Nat) (c : Num) (w : List Nat × List (Nat × Nat)) :
    (s.gradAdmit d n q x st c w).owners = s.owners := by
  unfold gradAdmit
  dsimp only
  repeat' split
  all_goals simp only [lkpFinish_owners, bump_owners, updDesc_owners, countForeign_owners, gradSettle_owners, foldl_owners, implies_true,
    apply_ite owners, ite_self]

theorem gradClassify_owners (s : State) (d : Die) (n q : Nat) (x : Desc) (idx : List Nat) :
    (s.gradClassify d n q x idx).owners = s.owners := by
  unfold gradClassify
  dsimp only
  split <;> simp only [lkpFinish_owners, pageInAll_owners, gradAdmit_owners, apply_ite owners, ite_self]

theorem gradParams_owners (s : State) (d : Die) (n q : Nat) (x : Desc) : (s.gradParams d n q x).2.owners = s.owners := by
  unfold gradParams
  dsimp only
  repeat' split
  all_goals simp only [lkpFinish_owners, updDesc_owners]

theorem gradLotApply_owners (s : State) (d : Die) (n q l : Nat) (x : Desc) : (s.gradLotApply d n q l x).owners = s.owners := by
  unfold gradLotApply
  extract_lets v pa map lots y z mine
  split
  · extract_lets settling
    have hset (t : State) : (settling t).owners = t.owners := (gradSettle_owners _ _ _ _).trans (updDesc_owners _ _ _ _ _)
    refine ite_owners rfl (ite_owners (snapReached_owners _ _) (ite_owners (pageInAll_owners _ _)
      (ite_owners (skipUpdLot_owners _ _ _ _ _ _ _ _ hset) ?_)))
    exact applyUpdLot_owners _ _ _ _ _ _ _ _ _ _ _ _ fun t => (hset _).trans
      (ite_owners rfl (ite_owners (setBitmap_owners _ _ _ _) (ite_owners (setBitmap_owners _ _ _ _) rfl)))
  · rfl

theorem leaveHot_owners (s : State) (key w hot : Nat) : (s.leaveHot key w hot).owners = s.owners := by
  simp only [leaveHot]
theorem updateRow_owners (s : State) (x : Desc) (key v r m h : Nat) : (s.updateRow x key v r m h).owners = s.owners := by
  simp only [updateRow, wrBytes_owners, wrNat_owners, bump_owners, leaveHot_owners, apply_ite owners, ite_self]

theorem sweepRow_owners (s : State) (k key v m r : Nat) : (s.sweepRow k key v m r).owners = s.owners := by
  unfold sweepRow
  dsimp only
  repeat' split
  all_goals simp only [drawFree_owners, wrBytes_owners, wrNat_owners, bump_owners, leaveHot_owners]

theorem sweepRows_owners (k key v m : Nat) (l : List Nat) (s : State) : (sweepRows k key v m l s).1.owners = s.owners := by
  induction l generalizing s with
  | nil => rfl
  | cons r t ih =>
    unfold sweepRows
    simp only [ih, sweepRow_owners, touchRead_owners, pageInAll_owners, apply_ite Prod.fst, apply_ite owners, ite_self]

theorem tearLot_owners (s : State) (u : Nat) (t : State) (h : s.tearLot u = some t) : t.owners = s.owners := by
  unfold tearLot at h
  dsimp only at h
  split at h
  · cases h
  · split at h
    · cases h
    · rw [← Option.some.inj h]
      simp only [foldl_owners, implies_true, wrV_owners, tearTrailer_owners, drawFree_owners]

theorem tearLots_owners (s : State) (p : Page → Bool) : (s.tearLots p).1.owners = s.owners := by
  unfold tearLots
  refine foldl_fst_owners (fun acc u => ?_) _ _
  split
  next h => exact tearLot_owners _ _ _ h
  next => rfl

theorem countTears_owners (s : State) (us : List Nat) :
    (s.countTears us).owners = s.owners := foldl_owners (fun _ _ => bump_owners _ _ _ _ _) _ _

/-! ### The Ethernet ports (R343, R344, R359, R360): frames, flow control, time stamps and PTP messages. -/

theorem sendNow_owners (s : State) (f : Frames) : (s.sendNow f).owners = s.owners := by
  unfold sendNow
  dsimp only
  split <;> simp only [bump_owners]

theorem sendFrames_owners (s : State) (f : Frames) : (s.sendFrames f).owners = s.owners := by
  simp only [sendFrames, sendNow_owners, apply_ite owners, ite_self]
theorem drainFrames_owners (s : State) : (s.drainFrames).owners = s.owners := by
  simp only [drainFrames, sendNow_owners, foldl_owners, implies_true, apply_ite owners, ite_self]
theorem setPtp_owners (s : State) (lp : Nat) (x : Ptp) : (s.setPtp lp x).owners = s.owners := rfl
theorem sendPtp_owners (s : State) (lp : Nat) (m : PtpMsg) : (s.sendPtp lp m).owners = s.owners := by
  simp only [sendPtp, sendNow_owners]
theorem ptpAsk_owners (s : State) (lp : Nat) : (s.ptpAsk lp).owners = s.owners := by
  simp only [ptpAsk, setPtp_owners, sendPtp_owners]
theorem ptpSynced_owners (s : State) (lp : Nat) (origin : Int) (receipt : Nat) : (s.ptpSynced lp origin receipt).owners = s.owners := by
  simp only [ptpSynced, setPtp_owners, ptpAsk_owners]
theorem ptpDelay_owners (s : State) (lp : Nat) (d : Int) : (s.ptpDelay lp d).owners = s.owners := by
  simp only [ptpDelay, setPtp_owners]

theorem ptpIn_owners (s : State) (lp : Nat) (m : PtpMsg) : (s.ptpIn lp m).owners = s.owners := by
  unfold ptpIn
  dsimp only
  repeat' split
  all_goals simp only [ptpSynced_owners, setPtp_owners, sendPtp_owners, ptpDelay_owners]

/-! ### Queue pairs, ports and memory regions (R343 to R355, R374 to R379): the operations that the commands of the network families
share. -/

theorem setQpSt_owners (s : State) (key v : Nat) : (s.setQpSt key v).owners = s.owners := by
  simp only [setQpSt, setF_owners]
theorem setQpPort_owners (s : State) (key : Nat) (p : Option Nat) : (s.setQpPort key p).owners = s.owners := by
  simp only [setQpPort, setQp_owners, setF_owners]
theorem sendNet_owners (s : State) (key frames : Nat) (m : NetMsg) : (s.sendNet key frames m).owners = s.owners := by
  simp only [sendNet]
  split <;> simp only [sendFrames_owners]
theorem sendWork_owners (s : State) (key : Nat) (w : Work) (psn : Nat) : (s.sendWork key w psn).owners = s.owners := by
  simp only [sendWork, sendNet_owners]
theorem resend_owners (s : State) (key : Nat) : (s.resend key).owners = s.owners := by
  simp only [resend, sendWork_owners, bump_owners, setQp_owners, foldl_owners, implies_true]
theorem steer_owners (s0 : State) (lp : Nat) : (s0.steer lp).owners = s0.owners := by
  simp only [steer, setQpPort_owners, resend_owners, drawFree_owners, setF_owners, bump_owners, raiseMax_owners, foldl_owners, implies_true,
    apply_ite owners, ite_self]
theorem postN_owners (s : State) (key : Nat) (src : WorkSrc) (verb remote rkey : Nat) (imm : Option Nat) (data : Bytes) (len k : Nat) :
    (s.postN key src verb remote rkey imm data len k).owners = s.owners := by
  simp only [postN, setQp_owners, sendWork_owners]
theorem post_owners (s : State) (key : Nat) (src : WorkSrc) (verb remote rkey : Nat) (imm : Option Nat) (data : Bytes) (len : Nat) :
    (s.post key src verb remote rkey imm data len).owners = s.owners := by
  simp only [post, postN_owners]

theorem endWork_owners (s : State) (w : Work) (st : Nat) (pos : Nat) : (s.endWork w st pos).owners = s.owners := by
  unfold endWork
  dsimp only
  repeat' split
  all_goals simp only [finish_owners]

theorem endRecv_owners (s : State) (r : Nat × Nat × Nat × Nat) (st : Nat) (pos : Nat) : (s.endRecv r st pos).owners = s.owners := by
  simp only [endRecv]
  split <;> simp only [finish_owners, apply_ite owners, ite_self]
theorem endExchanges_owners (s : State) (key : Nat) :
    (s.endExchanges key).owners = s.owners := endExchanges_frame (π := State.owners) (fun _ _ _ _ => rfl) (fun _ _ _ _ => rfl) s key

theorem qpError_owners (s : State) (key st : Nat) : (s.qpError key st).owners = s.owners := by
  unfold qpError
  dsimp only
  split <;> simp only [bump_owners, setQpSt_owners, setQp_owners, endWork_owners, endRecv_owners, endExchanges_owners, foldl_owners,
    implies_true]

theorem qpReset_owners (s : State) (key : Nat) : (s.qpReset key).owners = s.owners := by
  simp only [qpReset, setQpSt_owners, setF_owners, endWork_owners, endRecv_owners, endExchanges_owners, foldl_owners, implies_true]

theorem xlateRange_owners (s : State) (d : Die) (c root va len : Nat) (wr : Bool) :
    (s.xlateRange d c root va len wr).2.owners = s.owners := by
  have hx := xlatePages_owners d c root (fun t pa => t.unitReach c pa) (footPages [⟨va, len, wr⟩]) [] s
  unfold xlateRange
  split
  next h => exact ite_snd_owners (snd_owners hx h) (snd_owners hx h)
  next h => exact snd_owners hx h
  next h => exact snd_owners hx h

theorem mrCheck_owners (s : State) (key rkey va len : Nat) (wr : Bool) : (s.mrCheck key rkey va len wr).2.owners = s.owners := by
  unfold mrCheck
  dsimp only
  repeat' split
  all_goals simp only [xlateRange_owners]

/-! ### The passing of time (R360, R544, R641). -/

theorem setRtc_owners (s : State) (v : Nat) : (s.setRtc v).owners = s.owners := by
  simp only [setRtc, setF_owners]

/-! ### The network ports and the RDMA engine (R343 to R355, R374 to R379): ports, queue pairs, SEND and RECV, what comes in, congestion,
and the time page (R360, R361, R380). -/

theorem qpReject_owners (s : State) (d : Die) : (s.qpReject d).owners = s.owners := by
  simp only [qpReject, setF_owners]
theorem mrReject_owners (s : State) (d : Die) : (s.mrReject d).owners = s.owners := by
  simp only [mrReject, setF_owners]

theorem postSend_owners (s : State) (d : Die) (n q verb : Nat) : (s.postSend d n q verb).owners = s.owners := by
  unfold postSend
  refine withRunning_owners _ _ _ _ _ _ fun x => ?_
  dsimp only
  repeat' split
  all_goals simp only [finish_owners, post_owners, updDesc_owners, touchV_owners]

theorem packetIn_owners (s : State) (key port : Nat) (ce : Bool) : (s.packetIn key port ce).owners = s.owners := by
  simp only [packetIn, bump_owners, setQp_owners, sendNet_owners, apply_ite owners, ite_self]
theorem inOrder_owners (s : State) (key psn : Nat) (f : State → State) (hf : ∀ t, (f t).owners = t.owners) :
    (s.inOrder key psn f).owners = s.owners := by
  simp only [inOrder, hf, sendNet_owners, apply_ite owners, ite_self]
theorem accept_owners (s : State) (key psn count : Nat) : (s.accept key psn count).owners = s.owners := by
  simp only [accept, setQp_owners, sendNet_owners]
theorem nakAccess_owners (s : State) (key psn : Nat) : (s.nakAccess key psn).owners = s.owners := by
  simp only [nakAccess, bump_owners, sendNet_owners]
theorem takeRecv_owners (s : State) (key len : Nat) (imm : Option W32) (r : Nat × Nat × Nat × Nat) (x : Desc) :
    (s.takeRecv key len imm r x).owners = s.owners := by
  simp only [takeRecv, wrV_owners, setQp_owners, endRecv_owners]

theorem pauseSender_owners (s : State) (key : Nat) : (s.pauseSender key).owners = s.owners := by
  unfold pauseSender
  dsimp only
  split <;> simp only [drawFree_owners, sendNow_owners, apply_ite owners, ite_self]

theorem takePacket_owners (s : State) (key : Nat) (pk : Packet) (w : Stalled) (f : State → State) (hf : ∀ t, (f t).owners = t.owners) :
    (s.takePacket key pk w f).owners = s.owners := by
  simp only [takePacket, hf, stall_owners, pauseSender_owners, inOrder_owners, sendNet_owners, implies_true, apply_ite owners, ite_self]

theorem rdmaWriteIn_owners (s : State) (key : Nat) (pk : Packet) : (s.rdmaWriteIn key pk).owners = s.owners := by
  unfold rdmaWriteIn
  refine takePacket_owners _ _ _ _ _ fun t => ?_
  have hx := t.mrCheck_owners key pk.rkey pk.va pk.payload.length true
  dsimp only
  split
  · exact sendNet_owners _ _ _ _
  · split
    next h => rw [nakAccess_owners, snd_owners hx h]
    next h => rw [stall_owners, pageInAll_owners, snd_owners hx h]
    next h =>
      split
      · rw [sendNet_owners, snd_owners hx h]
      · repeat' split
        all_goals simp only [takeRecv_owners, setQp_owners, accept_owners, wrV_owners, snd_owners hx h]

theorem rdmaReadIn_owners (s : State) (key : Nat) (pk : Packet) : (s.rdmaReadIn key pk).owners = s.owners := by
  unfold rdmaReadIn
  refine takePacket_owners _ _ _ _ _ fun t => ?_
  have hx := t.mrCheck_owners key pk.rkey pk.va pk.len false
  split
  next h => rw [nakAccess_owners, snd_owners hx h]
  next h => rw [stall_owners, pageInAll_owners, snd_owners hx h]
  next h =>
    split
    · split <;> simp only [sendNet_owners, reportUncorr_owners, snd_owners hx h]
    · simp only [sendNet_owners, setQp_owners, touchV_owners, snd_owners hx h]

theorem rdmaSendIn_owners (s : State) (key : Nat) (pk : Packet) : (s.rdmaSendIn key pk).owners = s.owners := by
  unfold rdmaSendIn
  refine takePacket_owners _ _ _ _ _ fun t => ?_
  dsimp only
  repeat' split
  all_goals simp only [accept_owners, sendNet_owners, endRecv_owners, setQp_owners, stall_owners, takeRecv_owners, wrV_owners]

theorem frameIn_owners (s : State) (d : Die) (i : Nat) (pk : Packet) (f : State → Nat → State) (hf : ∀ t k, (f t k).owners = t.owners) :
    (s.frameIn d i pk f).owners = s.owners := by
  unfold frameIn
  dsimp only
  split
  · rfl
  · split <;> simp only [hf, bump_owners, ptpIn_owners, packetIn_owners, apply_ite owners, ite_self]

theorem ackUpTo_owners (s : State) (key psn : Nat) : (s.ackUpTo key psn).owners = s.owners := by
  simp only [ackUpTo, setQp_owners, endWork_owners, foldl_owners, implies_true, apply_ite owners, ite_self]
theorem retry_owners (s : State) (key : Nat) : (s.retry key).owners = s.owners := by
  simp only [retry, qpError_owners, setQp_owners, resend_owners, apply_ite owners, ite_self]

/-! ### NVMe over Fabrics and the warehouse file queues (R356 to R358): rings, submission entries, completion entries. The fields of the
entries and the status codes are those of the NVM Express Base Specification 2.0, which R356 names (PRESUMED, notes/assumptions/45.md). -/

theorem stallPump_owners (s : State) (key : Nat) : (s.stallPump key).owners = s.owners := by
  simp only [stallPump, stall_owners, apply_ite owners, ite_self]

theorem headSqe_owners (s : State) (key : Nat) : (s.headSqe key).2.owners = s.owners := by
  unfold headSqe
  extract_lets x va
  refine ite_snd_owners rfl ?_
  split
  next h =>
    have hs := snd_owners (xlateRange_owners _ _ _ _ _ _ _) h
    exact ite_snd_owners hs ((touchV_owners _ _ _ _).trans hs)
  next h =>
    dsimp only
    rw [stallPump_owners, pageInAll_owners, snd_owners (xlateRange_owners _ _ _ _ _ _ _) h]
  next h => exact snd_owners (xlateRange_owners _ _ _ _ _ _ _) h

theorem popSqe_owners (s : State) (key : Nat) : (s.popSqe key).owners = s.owners := by
  simp only [popSqe, setQp_owners]

theorem postCqe_owners (s : State) (key cid result status : Nat) : (s.postCqe key cid result status).owners = s.owners := by
  have hx := s.xlateRange_owners (netDie (key >>> 14)) (s.qpCpt key) (s.qpRoot key) (s.qpF key 56 0 57 + 16 * (s.qp key).cqTail) 16 true
  unfold postCqe
  dsimp only
  split
  · exact stall_owners _ _
  · split
    next h => rw [sendMsi_owners, setQp_owners, wrV_owners, snd_owners hx h]
    next h => rw [stall_owners, pageInAll_owners, snd_owners hx h]
    next h => exact snd_owners hx h

theorem postCapsule_owners (s : State) (key v : Nat) (data : Bytes) : (s.postCapsule key v data).owners = s.owners := by
  simp only [postCapsule, postN_owners]

theorem sendCapsule_owners (s : State) (key v : Nat) : (s.sendCapsule key v).owners = s.owners := by
  unfold sendCapsule
  extract_lets dir len s0
  have h0 : s0.owners = s.owners := popSqe_owners _ _
  clear_value len s0
  refine ite_owners ((postCapsule_owners _ _ _ _).trans ((setQp_owners _ _ _).trans h0))
    (ite_owners ((postCqe_owners _ _ _ _ _).trans h0) ?_)
  split
  next h => rw [postCqe_owners, snd_owners (xlateRange_owners _ _ _ _ _ _ _) h, h0]
  next h => rw [stallPump_owners, setQp_owners, pageInAll_owners, snd_owners (xlateRange_owners _ _ _ _ _ _ _) h, h0]
  next h =>
    have hs := (snd_owners (xlateRange_owners _ _ _ _ _ _ _) h).trans h0
    exact ite_owners ((postCqe_owners _ _ _ _ _).trans hs) ((postCapsule_owners _ _ _ _).trans ((setQp_owners _ _ _).trans hs))

theorem pumpNvme_owners (key k : Nat) (s : State) : (pumpNvme key k s).owners = s.owners := by
  refine owners_of ?_
  induction k generalizing s with
  | zero => rfl
  | succ k ih =>
    have hh := s.headSqe_owners key
    unfold pumpNvme
    split
    next h =>
      extract_lets s2
      have h1 := owning_of (snd_owners hh h)
      have h2 : s2.owning = s.owning := ite_owning ((owning_of (sendCapsule_owners _ _ _)).trans h1) h1
      exact ite_owning h2 ((ih _).trans h2)
    next h => exact owning_of (snd_owners hh h)

theorem nvmeDone_owners (s : State) (key cid status : Nat) (result : W32) (data : Bytes) :
    (s.nvmeDone key cid status result data).owners = s.owners := by
  unfold nvmeDone
  dsimp only
  split
  · rfl
  next c _ =>
    split
    · rfl
    · split
      · split
        next h =>
          have hs := snd_owners (xlateRange_owners _ _ _ _ _ _ _) h
          split <;> rw [pumpNvme_owners, postCqe_owners, wrV_owners, hs, setQp_owners]
        next h => rw [stall_owners, setQp_owners, pageInAll_owners, snd_owners (xlateRange_owners _ _ _ _ _ _ _) h, setQp_owners]
        next h => rw [pumpNvme_owners, postCqe_owners, snd_owners (xlateRange_owners _ _ _ _ _ _ _) h, setQp_owners]
      · rw [pumpNvme_owners, postCqe_owners, setQp_owners]

theorem withFile_owners (s : State) (d : Die) (i op : Nat) (f : Nat → State → State) (hf : ∀ v t, (f v t).owners = t.owners) :
    (s.withFile d i op f).owners = s.owners := by
  have hh := s.headSqe_owners (qpKey d i)
  unfold withFile
  dsimp only
  split
  · rfl
  · split
    next h => exact snd_owners hh h
    next h => simp only [hf, popSqe_owners, postCqe_owners, snd_owners hh h, apply_ite owners, ite_self]

theorem withData_owners (s : State) (key v len : Nat) (wr : Bool) (f : SMap Nat → State → State) (hf : ∀ p t, (f p t).owners = t.owners) :
    (s.withData key v len wr f).owners = s.owners := by
  have hx := s.xlateRange_owners (netDie (key >>> 14)) (s.qpCpt key) (s.qpRoot key) (sqeVa v) len wr
  unfold withData
  split
  next h => simp only [hf, popSqe_owners, postCqe_owners, snd_owners hx h, apply_ite owners, ite_self]
  next h => rw [pageInAll_owners, snd_owners hx h]
  next h => rw [postCqe_owners, popSqe_owners, snd_owners hx h]

theorem setBlocks_owners (s : State) (parts : List (Nat × Bytes)) : (s.setBlocks parts).owners = s.owners := by
  simp only [setBlocks]

/-! ### SNAPSHOT (R305 to R308): admission, the lots shipped one at a time to each unit, the delay of the updates that a snapshot holds
up. -/

theorem snapClassify_owners (s : State) (d : Die) (n q : Nat) (x : Desc) : (s.snapClassify d n q x).owners = s.owners := by
  unfold snapClassify
  dsimp only
  repeat' split
  all_goals simp only [countTorn_owners, finish_owners, updDesc_owners, bump_owners]

theorem setShip_owners (s : State) (d : Die) (n q l v : Nat) : (s.setShip d n q l v).owners = s.owners := by
  simp only [setShip, updDesc_owners]

/-! ### The exchange engines (R362 to R373, R381): plans, expert token exchange, order-free reductions over the network, gather windows.
-/

theorem sendX_owners (s : State) (dn : Nat × Nat) (x : Desc) (r : Nat) (m : XMsg) : (s.sendX dn x r m).owners = s.owners := by
  simp only [sendX, post_owners, apply_ite owners, ite_self]

theorem faultMarks_owners (s : State) (d : Die) (n : Nat) (x : Desc) : (s.faultMarks d n x).owners = s.owners := by
  have hx := s.xlateFor_owners d n [⟨x.plPeer, 32 * min x.plGroup 4096, false⟩]
  unfold faultMarks
  split
  next h => exact (foldl_owners (fun a r => sendX_owners _ _ _ _ _) _ _).trans (snd_owners hx h)
  next => rfl

/-- A plan's arm of `withPlan`, once it is known where the plan starts. -/
theorem planGo_owners (t : State) (d : Die) (n q op at0 : Nat) (f : State → Nat → Desc → State) (hf : ∀ t k x, (f t k x).owners = t.owners)
    (y : Desc) : (let nd := t.xchNd y.plNdie
      let key := nd * 2 + (decide (op == 0x29)).toNat
      if !t.runs (xchPg nd) || (t.xchRun key).isSome then t
      else if t.badV y.pins y.plPeer (32 * y.plGroup) then t.finish d n q stUncorr
      else if !(peersOf y).all (t.peerOk (t.ctxCpt d n) y) then
        (if op == 0x28 then t.faultMarks d n y else t).finish d n q stDescFault at0
      else f (t.updDesc d n q fun w => { w with aux := [1] }) key y).owners = t.owners := by
  dsimp only
  repeat' split
  all_goals simp only [hf, finish_owners, faultMarks_owners, updDesc_owners]

theorem withPlan_owners (s : State) (d : Die) (n q op : Nat) (ok : Desc → Bool) (f : State → Nat → Desc → State)
    (hf : ∀ t k x, (f t k x).owners = t.owners) : (s.withPlan d n q op ok f).owners = s.owners := by
  unfold withPlan
  refine withRunning_owners _ _ _ _ _ _ fun x => owners_of ?_
  extract_lets at0 go y
  have hgo (t : State) (z : Desc) : (go t z).owners = t.owners := planGo_owners t d n q op at0 f hf z
  refine ite_owning rfl (ite_owning (ite_owning (owning_of (finish_owners _ _ _ _ _ _ _)) ?_) ?_)
  · generalize leastPos (broken (planRules y)) = b
    cases b with
    | some p => exact (owning_of (finish_owners _ _ _ _ _ _ _)).trans (ite_owning (owning_of (faultMarks_owners _ _ _ _)) rfl)
    | none =>
      have hp := s.pinArrays_owners d n q y (footprint y) at0
      generalize s.pinArrays d n q y (footprint y) at0 = r at hp
      obtain ⟨_ | _, s1⟩ := r
      · exact owning_of hp
      · exact owning_of ((whenResident_owners _ _ _ _ _ fun z => hgo _ z).trans hp)
  · exact owning_of (whenResident_owners _ _ _ _ _ fun z => hgo _ z)

theorem exchangeSettle_owners (s : State) (key : Nat) : (s.exchangeSettle key).owners = s.owners := by
  unfold exchangeSettle
  dsimp only
  split <;> simp only [finish_owners, wrV_owners, apply_ite owners, ite_self]

theorem takeRow_owners (s : State) (key e i : Nat) (data : Bytes) : (s.takeRow key e i data).owners = s.owners := by
  unfold takeRow
  split
  · rfl
  · split
    · rw [setXch_owners, wrV_owners]
    · rfl

theorem dispatchTokens_owners (s : State) (d : Die) (n q : Nat) (key : Nat) (x : Desc) :
    (s.dispatchTokens d n q key x).owners = s.owners := by
  unfold dispatchTokens
  dsimp only
  split <;> simp only [finish_owners, faultMarks_owners, wrV_owners, sendX_owners, bump_owners, setXch_owners, exchangeSettle_owners,
    foldl_owners, implies_true, apply_ite owners, ite_self]

theorem combineTokens_owners (s : State) (d : Die) (n q : Nat) (key : Nat) (x : Desc) :
    (s.combineTokens d n q key x).owners = s.owners := by
  unfold combineTokens
  dsimp only
  repeat' split
  all_goals simp only [finish_owners, faultMarks_owners, setXch_owners, takeRow_owners, sendX_owners, exchangeSettle_owners, foldl_owners,
    implies_true, apply_ite owners, ite_self]

theorem rnFinal_owners (s : State) (key : Nat) (v : Xch) (x : Desc) : (s.rnFinal key v x).owners = s.owners := by
  simp only [rnFinal, wrV_owners, bump_owners, finish_owners]
theorem rnKick_owners (s : State) (key : Nat) (v : Xch) (x : Desc) (done : State → Xch → State) (hf : ∀ t u, (done t u).owners = t.owners) :
    (s.rnKick key v x done).owners = s.owners := by
  simp only [rnKick, hf, setXch_owners, sendX_owners, foldl_owners, implies_true, apply_ite owners, ite_self]

theorem rnDone_owners (s : State) (key : Nat) (x : Desc) (v : Xch) : (s.rnDone key x v).owners = s.owners := by
  unfold rnDone
  split
  · dsimp only
    rw [rnKick_owners _ _ _ _ _ fun t u => rnFinal_owners _ _ _ _, wrV_owners]
  · exact rnFinal_owners _ _ _ _

theorem rnPlan_owners (s : State) (key : Nat) (v : Xch) (x : Desc) (src group : Nat) (ring : Bool) (fanin : Nat) :
    (s.rnPlan key v x src group ring fanin).owners = s.owners := by
  simp only [rnPlan, finish_owners, sendX_owners, apply_ite owners, ite_self]

theorem startReduce_owners (s : State) (d : Die) (n q phase key : Nat) (x : Desc) :
    (s.startReduce d n q phase key x).owners = s.owners := by
  unfold startReduce
  dsimp only
  split <;> (repeat' split) <;> simp only [finish_owners, wrV_owners, sendX_owners, rnKick_owners, rnDone_owners, foldl_owners,
    implies_true]

theorem reduceNet_owners (s : State) (d : Die) (n q phase : Nat) : (s.reduceNet d n q phase).owners = s.owners := by
  unfold reduceNet
  exact withPlan_owners _ _ _ _ _ _ _ fun t k x => startReduce_owners _ _ _ _ _ _ _

theorem rnPart_owners (s : State) (key : Nat) (v : Xch) (x : Desc) (phase : Nat) (ranks : List Nat) (data : Bytes) :
    (s.rnPart key v x phase ranks data).owners = s.owners := by
  unfold rnPart
  extract_lets me h g prev ok vs s1 next w s2
  clear_value ok
  refine ite_owners rfl (ite_owners (ite_owners (ite_owners ?_ ?_) (sendX_owners _ _ _ _ _)) ?_)
  · rw [rnDone_owners, sendX_owners, setXch_owners]
  · rw [sendX_owners, setXch_owners]
  · exact rnKick_owners _ _ _ _ _ fun t u => rnDone_owners _ _ _ _

theorem rnResult_owners (s : State) (key : Nat) (v : Xch) (x : Desc) (phase g : Nat) (data : Bytes) :
    (s.rnResult key v x phase g data).owners = s.owners := by
  simp only [rnResult, setXch_owners, sendX_owners, rnDone_owners, foldl_owners, implies_true, apply_ite owners, ite_self]

theorem exchangeIn_owners (s : State) (nd : Nat) (m : XMsg) : (s.exchangeIn nd m).owners = s.owners := by
  unfold exchangeIn
  dsimp only
  repeat' split
  all_goals simp only [stall_owners, rnPlan_owners, rnPart_owners, rnResult_owners, wrV_owners, takeRow_owners, exchangeSettle_owners,
    finish_owners, sendX_owners, setXch_owners, foldl_owners, implies_true]

theorem postShards_owners (d : Die) (n q k : Nat) (s : State) : (postShards d n q k s).owners = s.owners := by
  induction k generalizing s with
  | zero => rfl
  | succ k ih =>
    unfold postShards
    split
    · rfl
    · simp only [ih, post_owners, updDesc_owners, apply_ite owners, ite_self]

/-! ### Convoys and step commit (R382 to R409): the coordination contexts of N0, their messages, heartbeats, takeover, barriers,
milestones. -/

theorem setCvSt_owners (s : State) (k v : Nat) : (s.setCvSt k v).owners = s.owners := by
  simp only [setCvSt, setF_owners]
theorem bumpEpoch_owners (s : State) (k : Nat) : (s.bumpEpoch k).owners = s.owners := by
  simp only [bumpEpoch, setF_owners]
theorem setLmask_owners (s : State) (k v : Nat) : (s.setLmask k v).owners = s.owners := by
  simp only [setLmask, setF_owners]
theorem setMember_owners (s : State) (k r : Nat) (present lost : Bool) : (s.setMember k r present lost).owners = s.owners := by
  simp only [setMember, wrNat_owners]
theorem sendOn_owners (s : State) (k qpn : Nat) (m : Ctl) : (s.sendOn k qpn m).owners = s.owners := by
  simp only [sendOn, post_owners, apply_ite owners, ite_self]
theorem sendCtl_owners (s : State) (k r : Nat) (m : Ctl) : (s.sendCtl k r m).owners = s.owners := by
  simp only [sendCtl, sendOn_owners]
theorem sendAll_owners (s : State) (k : Nat) (rs : List Nat) (m : Ctl) : (s.sendAll k rs m).owners = s.owners := by
  simp only [sendAll, sendCtl_owners, foldl_owners, implies_true]
theorem tellEpoch_owners (s : State) (k : Nat) : (s.tellEpoch k).owners = s.owners := by
  simp only [tellEpoch, sendAll_owners]
theorem cvTally_owners (s : State) (k t v : Nat) : (s.cvTally k t v).owners = s.owners := rfl
theorem openRecord_owners (s : State) (k m : Nat) : (s.openRecord k m).owners = s.owners := by
  simp only [openRecord, wrNat_owners]
theorem closeRecord_owners (s : State) (k m outcome : Nat) : (s.closeRecord k m outcome).owners = s.owners := by
  simp only [closeRecord, wrNat_owners]

theorem commitAt_owners (s : State) (k m : Nat) : (s.commitAt k m).owners = s.owners := by
  show (s.commitAt k m).owning = s.owning
  unfold commitAt
  extract_lets pg s1 s2
  have h1 : s1.owning = s.owning := (setF_owners _ _ _ _ _).trans (setF_owners _ _ _ _ _)
  have h2 : s2.owning = s.owning := (setLmask_owners _ _ _).trans ((openRecord_owners _ _ _).trans ((cvTally_owners _ _ _ _).trans h1))
  exact (setConv_owners _ _ _).trans h2

theorem commitGroup_owners (s : State) (k m g : Nat) : (s.commitGroup k m g).owners = s.owners := by
  simp only [commitGroup, cvTally_owners, setLmask_owners, commitAt_owners, apply_ite owners, ite_self]

theorem commitSettle_owners (s : State) (k : Nat) : (s.commitSettle k).owners = s.owners := by
  show (s.commitSettle k).owning = s.owning
  unfold commitSettle
  extract_lets c m sent opened gs s1
  have hsent (a : State) (g : Nat) : (sent a g).owners = a.owners := sendAll_owners _ _ _ _
  have hopen (a : State) : (opened a).owners = a.owners := setConv_owners _ _ _
  have h1 : s1.owning = s.owning := foldl_owners (fun a g => (commitGroup_owners _ _ _ _).trans (hsent _ _)) _ _
  clear_value s1 sent opened
  exact ite_owning rfl (ite_owning (ite_owning ((hopen _).trans h1) h1)
    (ite_owning ((hopen _).trans ((commitAt_owners _ _ _).trans (hsent _ _))) rfl))

theorem appliedSettle_owners (s : State) (k : Nat) : (s.appliedSettle k).owners = s.owners := by
  simp only [appliedSettle, closeRecord_owners, setConv_owners, commitSettle_owners, apply_ite owners, ite_self]
theorem abortAt_owners (s : State) (k m : Nat) : (s.abortAt k m).owners = s.owners := by
  simp only [abortAt, setF_owners, bump_owners, raise_owners, setConv_owners]
theorem abortStep_owners (s : State) (k m : Nat) : (s.abortStep k m).owners = s.owners := by
  simp only [abortStep, sendAll_owners, setConv_owners, abortAt_owners]
theorem cvHalt_owners (s : State) (k : Nat) : (s.cvHalt k).owners = s.owners := by
  simp only [cvHalt, setCvSt_owners, raise_owners]

theorem barrierSettle_owners (s : State) (k : Nat) : (s.barrierSettle k).owners = s.owners := by
  unfold barrierSettle
  dsimp only
  split <;> simp only [setConv_owners, sendCtl_owners, sendAll_owners, cvTally_owners, apply_ite owners, ite_self]

theorem convReject_owners (s : State) (k : Nat) : (s.convReject k).owners = s.owners := by
  simp only [convReject, setF_owners]
theorem sendCommit_owners (s : State) (k m : Nat) (rs : List Nat) : (s.sendCommit k m rs).owners = s.owners := by
  simp only [sendCommit, sendAll_owners, foldl_owners, implies_true]

theorem catchUp_owners (s : State) (k m : Nat) : (s.catchUp k m).owners = s.owners := by
  unfold catchUp
  split
  · rfl
  · split
    · rw [commitAt_owners]
      exact foldl_owners (fun a g => cvTally_owners _ _ _ _) _ _
    · exact commitAt_owners _ _ _

theorem takeoverDone_owners (s : State) (k : Nat) : (s.takeoverDone k).owners = s.owners := by
  simp only [takeoverDone, sendCommit_owners, catchUp_owners, setCvSt_owners, setF_owners, setConv_owners, sendAll_owners, abortStep_owners,
    apply_ite owners, ite_self]
theorem noteReady_owners (s : State) (k r g m : Nat) : (s.noteReady k r g m).owners = s.owners := by
  simp only [noteReady, setConv_owners, commitSettle_owners, apply_ite owners, ite_self]
theorem noteApplied_owners (s : State) (k r m out : Nat) : (s.noteApplied k r m out).owners = s.owners := by
  simp only [noteApplied, setConv_owners, appliedSettle_owners, apply_ite owners, ite_self]

/-! ### The preparation units (R410 to R438): sample order, position walk, decoded images, cache, geometry, colour, output, live rings. A
PREP_BATCH command brings the batch one slot further, a live slot in two steps: entry and delivery. -/

theorem prepXlates_owners (s : State) (d : Die) (n : Nat) (rs : List (Nat × Nat)) (wr : Bool) :
    (s.prepXlates d n rs wr).2.owners = s.owners := by
  unfold prepXlates
  dsimp only
  split
  next h =>
    have hs := snd_owners (xlatePages_owners _ _ _ _ _ _ _) h
    repeat' split
    all_goals exact hs
  next h => exact snd_owners (xlatePages_owners _ _ _ _ _ _ _) h
  next h => exact snd_owners (xlatePages_owners _ _ _ _ _ _ _) h
  next h => exact (reportUncorr_owners _ _ _ _).trans (snd_owners (xlatePages_owners _ _ _ _ _ _ _) h)

theorem prepXlate_owners (s : State) (d : Die) (n va len : Nat) (wr : Bool) : (s.prepXlate d n va len wr).2.owners = s.owners := by
  simp only [prepXlate, prepXlates_owners]

theorem cacheGet_owners (s : State) (d : Die) (n u : Nat) (x : Desc) (key : Bytes) : (s.cacheGet d n u x key).2.owners = s.owners := by
  unfold cacheGet
  extract_lets pg va miss
  have hmiss (t : State) : (miss t).2.owners = t.owners := bump_owners _ _ _ _ _
  split
  next h =>
    have hs := snd_owners (prepXlate_owners _ _ _ _ _ _) h
    extract_lets hd w hh np bits len
    clear_value bits
    refine ite_snd_owners ((hmiss _).trans hs) ?_
    split
    next h2 =>
      have hs2 := (snd_owners (prepXlate_owners _ _ _ _ _ _) h2).trans hs
      exact ite_snd_owners ((hmiss _).trans ((bump_owners _ _ _ _ _).trans hs2)) ((bump_owners _ _ _ _ _).trans hs2)
    next h2 => exact (hmiss _).trans ((bump_owners _ _ _ _ _).trans ((snd_owners (prepXlate_owners _ _ _ _ _ _) h2).trans hs))
  next h => exact (hmiss _).trans ((bump_owners _ _ _ _ _).trans (snd_owners (prepXlate_owners _ _ _ _ _ _) h))
  next h => exact (hmiss _).trans (snd_owners (prepXlate_owners _ _ _ _ _ _) h)

theorem cachePut_owners (s : State) (d : Die) (n : Nat) (x : Desc) (key : Bytes) (i : Img) :
    (s.cachePut d n x key i).owners = s.owners := by
  unfold cachePut
  dsimp only
  split
  next h => exact (wrV_owners _ _ _ _).trans (snd_owners (xlatePages_owners _ _ _ _ _ _ _) h)
  next h => exact snd_owners (xlatePages_owners _ _ _ _ _ _ _) h

theorem prepRecord_owners (s : State) (d : Die) (n u : Nat) (x : Desc) (p : Nat) : (s.prepRecord d n u x p).2.owners = s.owners := by
  unfold prepRecord
  extract_lets idx
  split
  next h => exact snd_owners (prepXlate_owners _ _ _ _ _ _) h
  next h => exact snd_owners (prepXlate_owners _ _ _ _ _ _) h
  next h => exact snd_owners (prepXlate_owners _ _ _ _ _ _) h
  next h =>
    have hs := snd_owners (prepXlate_owners _ _ _ _ _ _) h
    extract_lets e va len frame key wait c
    have hc : c.2.owners = s.owners := ite_snd_owners ((cacheGet_owners _ _ _ _ _ _).trans hs) hs
    clear_value c wait
    refine ite_snd_owners hs (ite_snd_owners hs ?_)
    split
    · exact hc
    · split
      next h2 => exact (snd_owners (prepXlate_owners _ _ _ _ _ _) h2).trans hc
      next h2 => exact (snd_owners (prepXlate_owners _ _ _ _ _ _) h2).trans hc
      next h2 => exact (snd_owners (prepXlate_owners _ _ _ _ _ _) h2).trans hc
      next h2 =>
        have hs2 := (snd_owners (prepXlate_owners _ _ _ _ _ _) h2).trans hc
        exact ite_snd_owners hs2 (ite_owners ((cachePut_owners _ _ _ _ _ _).trans hs2) hs2)

theorem prepTry_owners (d : Die) (n u : Nat) (x : Desc) (p0 m k first : Nat) (s : State) :
    (prepTry d n u x p0 m k first s).2.owners = s.owners := by
  induction m generalizing k first s with
  | zero => rfl
  | succ m ih =>
    have hr := s.prepRecord_owners d n u x ((p0 + k) % x.pjCount)
    unfold prepTry
    split
    next h => rw [ih, setF_owners, snd_owners hr h]
    next h => exact snd_owners hr h

theorem prepInfo_owners (s : State) (x : Desc) (slot idx reason walked capture : Nat) :
    (s.prepInfo x slot idx reason walked capture).owners = s.owners := by
  simp only [prepInfo, wrV_owners]
theorem prepRow_owners (s : State) (x : Desc) (slot i : Nat) (vs : List Num) : (s.prepRow x slot i vs).owners = s.owners := by
  simp only [prepRow, putElems_owners, wrV_owners, apply_ite owners, ite_self]
theorem prepZero_owners (s : State) (x : Desc) (slot : Nat) : (s.prepZero x slot).owners = s.owners := by
  simp only [prepZero, prepRow_owners, foldl_owners, implies_true]
theorem prepImage_owners (s : State) (x : Desc) (slot a : Nat) (i : Img) (pins : SMap Nat) :
    (s.prepImage x slot a i pins).owners = s.owners := by
  simp only [prepImage, prepRow_owners, foldl_owners, implies_true]
theorem prepEnd_owners (s : State) (d : Die) (n q u st : Nat) (pos : Nat) : (s.prepEnd d n q u st pos).owners = s.owners := by
  simp only [prepEnd, bump_owners, finish_owners]
theorem prepNext_owners (s : State) (d : Die) (n q u slot : Nat) (x : Desc) : (s.prepNext d n q u slot x).owners = s.owners := by
  simp only [prepNext, bump_owners, setF_owners, prepEnd_owners, updDesc_owners, apply_ite owners, ite_self]

theorem prepMesh_owners (s : State) (d : Die) (n : Nat) (x : Desc) : (s.prepMesh d n x).2.owners = s.owners := by
  unfold prepMesh
  split
  · exact prepXlate_owners _ _ _ _ _ _
  · rfl

theorem prepStored_owners (s : State) (d : Die) (n q u slot : Nat) (x : Desc) : (s.prepStored d n q u slot x).owners = s.owners := by
  unfold prepStored
  split
  next h => rw [pageInAll_owners, snd_owners (prepMesh_owners _ _ _ _) h]
  next h => rw [prepEnd_owners, snd_owners (prepMesh_owners _ _ _ _) h]
  next h => rw [prepEnd_owners, snd_owners (prepMesh_owners _ _ _ _) h]
  next h =>
    have hs := snd_owners (prepMesh_owners _ _ _ _) h
    split
    next h2 => rw [pageInAll_owners, hs]
    next h2 => rw [prepEnd_owners, snd_owners (prepTry_owners _ _ _ _ _ _ _ _ _) h2, hs]
    next h2 =>
      rw [prepNext_owners, raise_owners, bump_owners, prepInfo_owners, prepZero_owners, snd_owners (prepTry_owners _ _ _ _ _ _ _ _ _) h2,
        hs]
    next h2 => rw [prepNext_owners, prepInfo_owners, prepImage_owners, snd_owners (prepTry_owners _ _ _ _ _ _ _ _ _) h2, hs]

theorem clearValid_owners (s : State) (x : Desc) (pins : SMap Nat) (cam k : Nat) : (s.clearValid x pins cam k).owners = s.owners := by
  simp only [clearValid, wrV_owners]
theorem liveFail_owners (s : State) (d : Die) (n q u slot cam reason capture : Nat) (x : Desc) :
    (s.liveFail d n q u slot cam reason capture x).owners = s.owners := by
  simp only [liveFail, bump_owners, prepZero_owners, prepInfo_owners, prepNext_owners]

theorem liveEntry_owners (s : State) (d : Die) (n q u slot : Nat) (x : Desc) : (s.liveEntry d n q u slot x).owners = s.owners := by
  have hx := s.prepXlates_owners d n ((List.range x.pjLiveSlots).map fun k => (liveVa x (x.pbFirst + slot) k, 64)) true
  unfold liveEntry
  dsimp only
  split
  next h => rw [pageInAll_owners, snd_owners hx h]
  next h => rw [prepEnd_owners, snd_owners hx h]
  next h => rw [liveFail_owners, snd_owners hx h]
  next h =>
    split
    · rw [liveFail_owners, snd_owners hx h]
    · split
      · rw [liveFail_owners, raise_owners, bump_owners, clearValid_owners, foldl_owners fun a k => by rw [bump_owners, clearValid_owners],
          snd_owners hx h]
      · rw [updDesc_owners, foldl_owners fun a k => by rw [bump_owners, clearValid_owners], snd_owners hx h]

theorem liveDeliver_owners (s : State) (d : Die) (n q u slot k : Nat) (x : Desc) : (s.liveDeliver d n q u slot k x).owners = s.owners := by
  unfold liveDeliver
  extract_lets cam pg
  split
  next => rw [pageInAll_owners, snd_owners (prepMesh_owners _ _ _ _) ‹_›]
  next => rw [prepEnd_owners, snd_owners (prepMesh_owners _ _ _ _) ‹_›]
  next => rw [prepEnd_owners, snd_owners (prepMesh_owners _ _ _ _) ‹_›]
  next => rw [pageInAll_owners, snd_owners (prepXlate_owners _ _ _ _ _ _) ‹_›]
  next => rw [prepEnd_owners, snd_owners (prepXlate_owners _ _ _ _ _ _) ‹_›]
  next => rw [liveFail_owners, snd_owners (prepXlate_owners _ _ _ _ _ _) ‹_›]
  next =>
    extract_lets h cap len s2 r
    have hs : s2.owners = s.owners := (clearValid_owners _ _ _ _ _).trans (snd_owners (prepXlate_owners _ _ _ _ _ _) ‹_›)
    clear_value s2 r
    repeat' split
    all_goals simp only [liveFail_owners, raise_owners, bump_owners, prepNext_owners, raiseMax_owners, prepInfo_owners, prepImage_owners,
      hs]

/-! ### Range invalidations (R446 to R448), the coherence of host caches (R450 to R458), and the MSI router (R459 to R463). -/

theorem cohStart_owners (s : State) (l : Nat) (r : CohReq) (came : Nat) : (s.cohStart l r came).owners = s.owners := by
  unfold cohStart
  dsimp only
  split <;> simp only [setLine_owners, bump_owners, raiseMax_owners]

theorem cohRequest_owners (s : State) (l : Nat) (r : CohReq) : (s.cohRequest l r).owners = s.owners := by
  simp only [cohRequest, cohStart_owners, setLine_owners, apply_ite owners, ite_self]

theorem cohEnd_owners (s : State) (l : Nat) : (s.cohEnd l).owners = s.owners := by
  unfold cohEnd
  dsimp only
  split <;> simp only [setLine_owners, cohStart_owners]

theorem snoop_owners (s : State) (l : Nat) (c : Cache) (ok : CohReq → Bool) (keep : Copy → Option Copy) :
    (s.snoop l c ok keep).owners = s.owners := by
  unfold snoop
  dsimp only
  repeat' split
  all_goals simp only [setLine_owners]

theorem cohAction_owners (s : State) (l : Nat) (t : CohTrans) : (s.cohAction l t).owners = s.owners := by
  unfold cohAction
  dsimp only
  repeat' split
  all_goals simp only [wrBytes_owners, setLine_owners, bump_owners, drawFree_owners, dropResv_owners, foldl_owners, implies_true]

theorem cohMiss_owners (s : State) (x : Cache) (line : Nat) (r : CohReq) : (s.cohMiss x line r).owners = s.owners := by
  unfold cohMiss
  dsimp only
  split <;> simp only [cohRequest_owners, setLine_owners, apply_ite owners, ite_self]

theorem msiDrop_owners (s : State) (src : Nat) :
    (s.msiDrop src).owners = s.owners := foldl_owners (fun _ _ => by rw [setF_owners, bump_owners]) _ _
theorem imsicSet_owners (s : State) (h f id : Nat) : (s.imsicSet h f id).owners = s.owners := rfl
theorem msiRoute_owners (s : State) (src e : Nat) : (s.msiRoute src e).owners = s.owners := by
  simp only [msiRoute, msiDrop_owners, imsicSet_owners, bump_owners, apply_ite owners, ite_self]

/-! ### The die-to-die links (R20 to R53, R633 to R636): flits, replay, credits, routes, and the loss of lanes. -/

theorem emit_owners (s : State) (d : Die) (p : Nat) (f : Bytes) : (s.emit d p f).owners = s.owners := rfl
theorem sendPlain_owners (s : State) (d : Die) (p ty seq : Nat) : (s.sendPlain d p ty seq).owners = s.owners := by
  simp only [sendPlain, setLink_owners, emit_owners]
theorem askRetry_owners (s : State) (d : Die) (p : Nat) : (s.askRetry d p).owners = s.owners := by
  simp only [askRetry, setLink_owners, sendPlain_owners, bump_owners, setF_owners, apply_ite owners, ite_self]
theorem discard_owners (s : State) (d : Die) (p : Nat) (f : Bytes) : (s.discard d p f).owners = s.owners := by
  simp only [discard, askRetry_owners, apply_ite owners, ite_self]
theorem retrain_owners (s : State) (d : Die) (p : Nat) : (s.retrain d p).owners = s.owners := by
  simp only [retrain, setF_owners, apply_ite owners, ite_self]
theorem msgIn_owners (s : State) (d : Die) (p : Nat) (m : Msg) : (s.msgIn d p m).owners = s.owners := by
  simp only [msgIn, setLink_owners, apply_ite owners, ite_self]

theorem chunksIn_owners (s : State) (d : Die) (p : Nat) (cs : List (Bool × Bytes)) : (s.chunksIn d p cs).owners = s.owners := by
  unfold chunksIn
  refine foldl_owners (fun t e => ?_) _ _
  dsimp only
  repeat' split
  all_goals simp only [setLink_owners, msgIn_owners]

theorem acceptFlit_owners (s : State) (d : Die) (p : Nat) (f : Bytes) : (s.acceptFlit d p f).owners = s.owners := by
  simp only [acceptFlit, setLink_owners, chunksIn_owners, sendPlain_owners, apply_ite owners, ite_self]
theorem flitIn_owners (s : State) (d : Die) (p ty : Nat) (f : Bytes) (bad good : State → State) (hb : ∀ t, (bad t).owners = t.owners)
    (hg : ∀ t, (good t).owners = t.owners) : (s.flitIn d p ty f bad good).owners = s.owners := by
  simp only [flitIn, hb, hg, bump_owners, retrain_owners, apply_ite owners, ite_self]
theorem countSpares_owners (s : State) (d : Die) (p : Nat) : (s.countSpares d p).owners = s.owners := by
  simp only [countSpares, setF_owners]

theorem halfMap_owners (s : State) (d : Die) (p m h : Nat) : (s.halfMap d p m h).owners = s.owners := by
  unfold halfMap
  dsimp only
  refine (foldl_owners (fun t e => ?_) _ _).trans ?_
  all_goals simp only [setWord_owners]

theorem mapRecord_owners (s : State) (d : Die) (p m : Nat) : (s.mapRecord d p m).owners = s.owners := by
  simp only [mapRecord, summary_owners, ledg_owners]
theorem resume_owners (s : State) (d : Die) (p : Nat) : (s.resume d p).owners = s.owners := by
  simp only [resume, setLink_owners, setF_owners, apply_ite owners, ite_self]
theorem settle_owners (s : State) (d : Die) (p : Nat) : (s.settle d p).owners = s.owners := by
  simp only [settle, resume_owners, apply_ite owners, ite_self]

theorem loseLane_owners (s : State) (d : Die) (p m l : Nat) : (s.loseLane d p m l).owners = s.owners := by
  unfold loseLane
  dsimp only
  split <;> simp only [bump_owners, setF_owners, setLink_owners]

theorem giveBack_owners (s : State) (d : Die) (p : Nat) : (s.giveBack d p).owners = s.owners := by
  simp only [giveBack, setLink_owners]
theorem linkFall_owners (s : State) (d : Die) (p : Nat) : (s.linkFall d p).owners = s.owners := by
  simp only [linkFall, setF_owners, raise_owners, linkTimeout_owners, giveBack_owners, apply_ite owners, ite_self]
theorem linkHalf_owners (s : State) (d : Die) (p : Nat) : (s.linkHalf d p).owners = s.owners := by
  simp only [linkHalf, halfMap_owners, mapRecord_owners, setLink_owners, setF_owners, countSpares_owners, raise_owners, resume_owners,
    foldl_owners, implies_true, apply_ite owners, ite_self]

/-! ### The commands on tallies (R467 to R491): waits, signals, locks, windows and debug halts. -/

theorem refuseTally_owners (s : State) (d : Die) (n q t : Nat) : (s.refuseTally d n q t).owners = s.owners := by
  simp only [refuseTally, bump_owners, finish_owners]
theorem signal_owners (s : State) (d : Die) (n q : Nat) (x : Desc) (set : Bool) : (s.signal d n q x set).owners = s.owners := by
  simp only [signal, finish_owners, refuseTally_owners, apply_ite owners, ite_self]
theorem withWindow_owners (s : State) (h t : Nat) (f : State → State) (hf : (f s).owners = s.owners) :
    (s.withWindow h t f).owners = s.owners := by
  simp only [withWindow, hf, answer_owners, apply_ite owners, ite_self]
theorem windowAdd_owners (s : State) (t v : Nat) : (s.windowAdd t v).owners = s.owners := by
  simp only [windowAdd, tallyApply_owners, bump_owners, apply_ite owners, ite_self]
theorem windowSet_owners (s : State) (t v : Nat) : (s.windowSet t v).owners = s.owners := by
  simp only [windowSet, tallyApply_owners, bump_owners, apply_ite owners, ite_self]
theorem windowRelease_owners (s : State) (t : Nat) (h : Option Nat) : (s.windowRelease t h).owners = s.owners := by
  simp only [windowRelease, freeLock_owners, bump_owners, apply_ite owners, ite_self]
theorem windowClear_owners (s : State) (t : Nat) : (s.windowClear t).owners = s.owners := by
  simp only [windowClear, bump_owners, setTally_owners, apply_ite owners, ite_self]
theorem tallyConfig_owners (s : State) (d : Die) (v : Nat) : (s.tallyConfig d v).owners = s.owners := by
  simp only [tallyConfig, pageErr_owners, setTally_owners, apply_ite owners, ite_self]
theorem dropPoll_owners (s : State) (i : Nat) : (s.dropPoll i).owners = s.owners := rfl

/-! ### What the resets share (R538, R608 to R613, R618): which register bits survive, the ends of a block's work, the abort of a
compartment, a core's hold, and what a die loses. -/

theorem clearRegs_owners (s : State) (p : Page → Bool) (keep : Page → Nat → Nat) : (s.clearRegs p keep).owners = s.owners := by
  simp only [clearRegs]
theorem endRunning_owners (s : State) (pg : Page) : (s.endRunning pg).owners = s.owners := by
  simp only [endRunning, finish_owners, foldl_owners, implies_true]
theorem resetRdma_owners (s : State) (nd : Nat) : (s.resetRdma nd).owners = s.owners := by
  simp only [resetRdma, qpReset_owners, foldl_owners, implies_true]
theorem convStop_owners (s : State) (k : Nat) : (s.convStop k).owners = s.owners := by
  simp only [convStop, setCvSt_owners, setF_owners, setConv_owners]
theorem abortDie_owners (s : State) (d : Die) : (s.abortDie d).owners = s.owners := by
  simp only [abortDie, flushHeld_owners, abortStream_owners, foldl_owners, implies_true]

theorem clearBlock_owners (s : State) (pg : Page) : (s.clearBlock pg).owners = s.owners := by
  unfold clearBlock
  dsimp only
  split <;> simp only [endRunning_owners, setEngine_owners, abortStream_owners, resetRdma_owners, setF_owners, steer_owners,
    convStop_owners, poolDone_owners, foldl_owners, implies_true, apply_ite owners, ite_self]

theorem flushCache_owners (s : State) (k : Cache) : (s.flushCache k).owners = s.owners := by
  unfold flushCache
  refine foldl_owners (fun t e => ?_) _ _
  dsimp only
  repeat' split
  all_goals simp only [wrBytes_owners, setLine_owners]

theorem flushCore_owners (s : State) (h : Nat) : (s.flushCore h).owners = s.owners := by
  simp only [flushCore, flushCache_owners]
theorem setHeldBit_owners (s : State) (h v : Nat) : (s.setHeldBit h v).owners = s.owners := by
  simp only [setHeldBit, setWord_owners]
theorem holdHart_owners (s : State) (h : Nat) : (s.holdHart h).owners = s.owners := by
  simp only [holdHart, flushCore_owners, abandonWhere_owners, setHart_owners, setHeldBit_owners]
theorem freeHart_owners (s : State) (h : Nat) : (s.freeHart h).owners = s.owners := by
  simp only [freeHart, setHart_owners, setHeldBit_owners]
theorem noteReset_owners (s : State) (kind cause target : Nat) : (s.noteReset kind cause target).owners = s.owners := by
  simp only [noteReset, setF_owners]
theorem cptReset_owners (s : State) (c : Nat) : (s.cptReset c).owners = s.owners := by
  simp only [cptReset, abortStream_owners, qpReset_owners, convStop_owners, holdHart_owners, abandonLock_owners, foldl_owners, implies_true]
theorem loseCaches_owners (s : State) (d : Die) : (s.loseCaches d).owners = s.owners := by
  simp only [loseCaches]
theorem loseCisterns_owners (s : State) (d : Die) : (s.loseCisterns d).owners = s.owners := by
  simp only [loseCisterns, zeroBytes_owners, apply_ite owners, ite_self]

theorem loseDie_owners (s : State) (d : Die) : (s.loseDie d).owners = s.owners := by
  simp only [loseDie, tearLots_owners, endRunning_owners, abortDie_owners, resetRdma_owners, abandonWhere_owners, setHart_owners,
    setHeldBit_owners, loseCaches_owners, loseCisterns_owners, clearRegs_owners, countTears_owners, foldl_owners, implies_true,
    apply_ite owners, ite_self]

/-! ### The event log, the ledger, the calendar clock, the wear of the warehouse, and the service panel (R653 to R675). -/

theorem startPacing_owners (s : State) (nd : Nat) : (s.startPacing nd).owners = s.owners := by
  simp only [startPacing, setFlash_owners, setF_owners, raise_owners, apply_ite owners, ite_self]
theorem endPacing_owners (s : State) (nd : Nat) : (s.endPacing nd).owners = s.owners := by
  simp only [endPacing, setFlash_owners, setF_owners, bump_owners, apply_ite owners, ite_self]
theorem accrue_owners (s : State) (nd : Nat) : (s.accrue nd).owners = s.owners := by
  simp only [accrue, setFlash_owners, endPacing_owners, apply_ite owners, ite_self]
theorem drawStart_owners (s : State) : (s.drawStart).owners = s.owners := by
  simp only [drawStart, setF_owners, ledg_owners]
theorem drawNow_owners (s : State) : (s.drawNow).owners = s.owners := by
  simp only [drawNow, setF_owners, drawStart_owners, apply_ite owners, ite_self]
theorem lastingRec_owners (s : State) (r : ErrRec) : (s.lastingRec r).owners = s.owners := by
  simp only [lastingRec, logRec_owners, ledg_owners, drawNow_owners]
theorem rtcSet_owners (s : State) (k v : Nat) : (s.rtcSet k v).owners = s.owners := by
  simp only [rtcSet, setRtc_owners, setF_owners, apply_ite owners, ite_self]

/-! ### Resets, parks and standby (R608 to R620). -/

theorem applyRetired_owners (s : State) : (s.applyRetired).owners = s.owners := by
  unfold applyRetired
  dsimp only
  refine (foldl_owners (fun t e => ?_) _ _).trans ?_
  all_goals simp only [setLive_owners, setF_owners, foldl_owners, implies_true]

theorem clearMain_owners (s : State) : (s.clearMain).owners = s.owners := by
  simp only [clearMain, zeroBytes_owners, clearRegs_owners, setF_owners, applyRetired_owners]
theorem absorb_owners (s : State) : (s.absorb).owners = s.owners := by
  simp only [absorb, bump_owners]
theorem moduleReset_owners (s : State) (cause : Nat) : (s.moduleReset cause).owners = s.owners := by
  simp only [moduleReset, absorb_owners, tearLots_owners, clearMain_owners, countTears_owners, setF_owners, noteReset_owners, bump_owners,
    apply_ite owners, ite_self]
theorem mainOff_owners (s : State) : (s.mainOff).owners = s.owners := by
  simp only [mainOff, accrue_owners, clearMain_owners, setF_owners, apply_ite owners, ite_self]
theorem mainRestart_owners (s : State) : (s.mainRestart).owners = s.owners := by
  simp only [mainRestart, clearMain_owners, setF_owners, noteReset_owners]
theorem requestedReset_owners (s : State) (cause : Nat) : (s.requestedReset cause).owners = s.owners := by
  simp only [requestedReset, moduleReset_owners, apply_ite owners, ite_self]
theorem dieReset_owners (s : State) (d : Die) (cause : Nat) : (s.dieReset d cause).owners = s.owners := by
  simp only [dieReset, absorb_owners, linkFall_owners, loseDie_owners, setF_owners, noteReset_owners, bump_owners, foldl_owners,
    implies_true, apply_ite owners, ite_self]

theorem trainLink_owners (s : State) (d : Die) (p : Nat) : (s.trainLink d p).owners = s.owners := by
  have hone (t : State) (d : Die) (p : Nat) : (t.trainEnd d p).owners = t.owners := by
    unfold trainEnd countSpares
    dsimp only
    rw [setF_owners, setF_owners, setWord_owners, foldl_owners fun _ _ => setWord_owners _ _ _ _ _, setLink_owners]
  rw [trainLink_eq, hone, hone]

theorem trainLinks_owners (s : State) (d : Die) : (s.trainLinks d).owners = s.owners := by
  simp only [trainLinks, trainLink_owners, foldl_owners, implies_true]
theorem dropStatus_owners (s : State) (p : Page → Bool) : (s.dropStatus p).owners = s.owners := by
  simp only [dropStatus, clearRegs_owners]
theorem parkNow_owners (s : State) (d : Die) : (s.parkNow d).owners = s.owners := by
  simp only [parkNow, setF_owners, resetRdma_owners, loseCisterns_owners, dropStatus_owners, apply_ite owners, ite_self]

theorem standbyNow_owners (s : State) : s.standbyNow.owners = s.owners := by
  unfold standbyNow
  dsimp only
  rw [setF_owners, setF_owners, foldl_owners fun t nd => foldl_owners (fun u p => setF_owners _ _ _ _ _) _ _, dropStatus_owners,
    foldl_owners fun t d => loseCisterns_owners _ _, resetRdma_owners, resetRdma_owners, foldl_owners fun t d => flushCache_owners _ _,
    foldl_owners fun t h => holdHart_owners _ _, allBankRefresh_owners]

theorem wake_owners (s : State) (cause : Nat) : (s.wake cause).owners = s.owners := by
  simp only [wake, setF_owners, apply_ite owners, ite_self]
theorem resetReject_owners (s : State) : (s.resetReject).owners = s.owners := by
  simp only [resetReject, setF_owners]

/-! ### Faults, self-tests, BIST, live test controls, freeze and debug access (R137 to R143, R621 to R652). -/

theorem freezeStart_owners (s : State) (kind source : Nat) : (s.freezeStart kind source).owners = s.owners := by
  simp only [freezeStart, setF_owners, bump_owners, raise_owners, pldm_owners, apply_ite owners, ite_self]
theorem thawNow_owners (s : State) : (s.thawNow).owners = s.owners := by
  simp only [thawNow, setF_owners, raise_owners, apply_ite owners, ite_self]
theorem fatal_owners (s : State) (d : Die) (r : ErrRec) : (s.fatal d r).owners = s.owners := by
  simp only [fatal, lastingRec_owners, freezeStart_owners, dieReset_owners, apply_ite owners, ite_self]
theorem rerunTile_owners (s : State) (d : Die) (e : Nat) (t : TileRun) : (s.rerunTile d e t).owners = s.owners := by
  simp only [rerunTile]
  split <;> simp only [finish_owners, updDesc_owners, apply_ite owners, ite_self]

theorem discardTile_owners (s : State) (d : Die) (e a : Nat) : (s.discardTile d e a).owners = s.owners := by
  unfold discardTile
  dsimp only
  split <;> simp only [updArr_owners, rerunTile_owners, foldl_owners, implies_true]

theorem detect_owners (s : State) (d : Die) (st : Struct) (inj : Bool) (pa : Nat) : (s.detect d st inj pa).owners = s.owners := by
  unfold detect
  dsimp only
  repeat' split
  all_goals simp only [setF_owners, fatal_owners, discardTile_owners]

theorem spoil_owners (s : State) (d : Die) (st : Struct) (pa : Nat) : (s.spoil d st pa).owners = s.owners := by
  simp only [spoil]
  split <;> simp only [markBad_owners, apply_ite owners, ite_self]
theorem countCorr_owners (s : State) (d : Die) (st : Struct) : (s.countCorr d st).owners = s.owners := by
  simp only [countCorr]
  split <;> simp only [bump_owners]
theorem endMatmuls_owners (s : State) (d : Die) (e : Nat) : (s.endMatmuls d e).owners = s.owners := by
  simp only [endMatmuls, finish_owners, foldl_owners, implies_true]
theorem retireArray_owners (s : State) (d : Die) (e a : Nat) : (s.retireArray d e a).owners = s.owners := by
  simp only [retireArray, discardTile_owners, updArr_owners, setLive_owners, bump_owners, summary_owners, ledg_owners, endMatmuls_owners,
    apply_ite owners, ite_self]
theorem retireEngine_owners (s : State) (d : Die) (e : Nat) : (s.retireEngine d e).owners = s.owners := by
  simp only [retireEngine, retireArray_owners, setF_owners, retireStream_owners, summary_owners, ledg_owners, foldl_owners, implies_true]
theorem markUnit_owners (s : State) (pg : Page) : (s.markUnit pg).owners = s.owners := by
  simp only [markUnit, setF_owners, summary_owners, ledg_owners]
theorem fenceChan_owners (s : State) (d : Die) (ch : Nat) : (s.fenceChan d ch).owners = s.owners := by
  simp only [fenceChan, summary_owners, ledg_owners, apply_ite owners, ite_self]

theorem loseExchange_owners (s : State) (nd : Nat) : (s.loseExchange nd).owners = s.owners := by
  unfold loseExchange
  dsimp only
  rw [foldl_owners, markUnit_owners, endRunning_owners, foldl_owners]
  · intro t k
    split
    · rw [finish_owners]
      exact foldl_owners (fun u r => sendX_owners _ _ _ _ _) _ _
    · rfl
  · intro t e
    split <;> rfl

theorem loseRdma_owners (s : State) (nd : Nat) : (s.loseRdma nd).owners = s.owners := by
  simp only [loseRdma, markUnit_owners, setQpPort_owners, resend_owners, foldl_owners, implies_true, apply_ite owners, ite_self]
theorem loseUpdate_owners (s : State) (pg : Page) : (s.loseUpdate pg).owners = s.owners := by
  simp only [loseUpdate, tearLots_owners, countTears_owners, finish_owners, markUnit_owners, foldl_owners, implies_true]

theorem failStruct_owners (s : State) (d : Die) (st : Struct) (r : ErrRec) : (s.failStruct d st r).owners = s.owners := by
  unfold failStruct
  dsimp only
  split <;> simp only [retireArray_owners, zeroBytes_owners, retireEngine_owners, dieReset_owners, fatal_owners, setF_owners,
    fenceChan_owners, bump_owners, summary_owners, ledg_owners, loseUpdate_owners, endRunning_owners, markUnit_owners, loseExchange_owners,
    loseRdma_owners, holdHart_owners, noteReset_owners, loseLane_owners, apply_ite owners, ite_self]

theorem failTest_owners (s : State) (d : Die) (st : Struct) (r : ErrRec) : (s.failTest d st r).owners = s.owners := by
  simp only [failTest, bump_owners, failStruct_owners, lastingRec_owners, raise_owners, pldm_owners, apply_ite owners, ite_self]

theorem passTest_owners (s : State) (d : Die) (st : Struct) (r : ErrRec) : (s.passTest d st r).owners = s.owners := by
  unfold passTest
  dsimp only
  split <;> simp only [logRec_owners, updArr_owners, bump_owners]

theorem testEnd_owners (s : State) (t : SelfTest) (pass : Bool) : (s.testEnd t pass).owners = s.owners := by
  simp only [testEnd, setF_owners, bump_owners, raiseMax_owners, passTest_owners, failTest_owners, apply_ite owners, ite_self]
theorem arrayError_owners (s : State) (d : Die) (e a : Nat) (r : Arr) (w : ArrPart) : (s.arrayError d e a r w).owners = s.owners := by
  simp only [arrayError]
  split <;> simp only [updArr_owners, detect_owners, apply_ite owners, ite_self]
theorem crossParity_owners (s : State) (d : Die) (i : Nat) : (s.crossParity d i).owners = s.owners := by
  simp only [crossParity, setF_owners, bump_owners, apply_ite owners, ite_self]
theorem bistSummary_owners (s : State) (d : Die) : (s.bistSummary d).owners = s.owners := by
  simp only [bistSummary, setF_owners]
theorem loseIsland_owners (s : State) (d : Die) (i : Nat) : (s.loseIsland d i).owners = s.owners := by
  simp only [loseIsland, setF_owners, linkFall_owners, failStruct_owners, foldl_owners, implies_true, apply_ite owners, ite_self]

theorem bistEnd_owners (s : State) (d : Die) (i : Nat) (sig : BitVec 64) (vOk : Bool) : (s.bistEnd d i sig vOk).owners = s.owners := by
  unfold bistEnd
  dsimp only
  repeat' split
  all_goals simp only [setF_owners, setWord_owners, clearBlock_owners, clearRegs_owners, lastingRec_owners, loseIsland_owners, raise_owners,
    pldm_owners]

/-! ### Clocks, power and temperature (R541 to R569). -/

theorem setTv_owners (s : State) (pg : Page) (f : Fld) (v : Nat) : (s.setTv pg f v).owners = s.owners := by
  simp only [setTv, setF_owners]
theorem seekSource_owners (s : State) : (s.seekSource).owners = s.owners := by
  simp only [seekSource]

theorem coastDie_owners (s : State) (d : Die) : (s.coastDie d).owners = s.owners := by
  unfold coastDie
  rw [setF_owners]
  refine foldl_owners (fun t i => ?_) _ _
  split <;> rfl

theorem follow_owners (d : Die) (up : Bool) (may : Nat → Bool) (k : Nat) (l : List Nat) (s : State) :
    (follow d up may k l s).owners = s.owners := by
  induction k generalizing l s with
  | zero => rfl
  | succ k ih =>
    have hr : (l.foldl (fun (a : State × List Nat) i =>
        (partners d i (a.1.getF (clkPg d) Reg.CLK_ISL_CUR i)).foldl (fun (b : State × List Nat) x =>
          let c := b.1.beside d up x
          if !may x.1 || c == b.1.getF (clkPg d) Reg.CLK_ISL_CUR x.1 then b
          else (b.1.setF (clkPg d) Reg.CLK_ISL_CUR c x.1, x.1 :: b.2)) a) (s, [])).1.owners = s.owners :=
      foldl_fst_owners (fun a i => foldl_fst_owners (fun b x => by dsimp only; split <;> rfl) _ _) _ _
    unfold follow
    dsimp only at hr ⊢
    split
    · exact hr
    · rw [ih, hr]

theorem moveIsland_owners (s : State) (d : Die) (i : Nat) (up : Bool) : (s.moveIsland d i up).owners = s.owners := by
  simp only [moveIsland, follow_owners, setF_owners]
theorem noteOp_owners (s : State) (d : Die) : (s.noteOp d).owners = s.owners := by
  simp only [noteOp, setF_owners]
theorem noteCause_owners (s : State) (d : Die) (missed : Bool) : (s.noteCause d missed).owners = s.owners := by
  simp only [noteCause, setF_owners]

theorem clampIslands_owners (s : State) (d : Die) : (s.clampIslands d).owners = s.owners := by
  unfold clampIslands
  refine foldl_owners (fun t e => ?_) _ _
  dsimp only
  repeat' split
  all_goals simp only [setF_owners]

theorem portsDown_owners (s : State) : (s.portsDown).owners = s.owners := by
  simp only [portsDown, setF_owners, linkTimeout_owners, steer_owners, foldl_owners, implies_true, apply_ite owners, ite_self]
theorem setCrossing_owners (s : State) (d : Die) (i : Nat) (async : Bool) : (s.setCrossing d i async).owners = s.owners := by
  simp only [setCrossing, setF_owners]
theorem setMax_owners (s : State) (d : Die) (i v : Nat) : (s.setMax d i v).owners = s.owners := by
  simp only [setMax]
  split <;> simp only [setF_owners, clampIslands_owners, noteCause_owners]
theorem takeCap_owners (s : State) (d : Die) (cap : Nat) (missed : Bool) : (s.takeCap d cap missed).owners = s.owners := by
  simp only [takeCap, setF_owners, setBudget_owners, raise_owners, noteCause_owners, apply_ite owners, ite_self]
theorem roundTick_owners (s : State) (demands : List (Die × Nat)) (d : Die) : (s.roundTick demands d).owners = s.owners := by
  simp only [roundTick, takeCap_owners, bump_owners, raise_owners, setF_owners, setWord_owners, setBudget_owners, apply_ite owners,
    ite_self]
theorem noteSwing_owners (s : State) : (s.noteSwing).owners = s.owners := by
  simp only [noteSwing, bump_owners, summary_owners, apply_ite owners, ite_self]
theorem setThermal_owners (s : State) (d : Die) (k : Nat) : (s.setThermal d k).owners = s.owners := by
  simp only [setThermal, setF_owners, raiseMask_owners, raise_owners, clampIslands_owners, noteCause_owners, apply_ite owners, ite_self]
theorem shutDown_owners (s : State) (d : Die) : (s.shutDown d).owners = s.owners := by
  simp only [shutDown, setThermal_owners, ledg_owners, standbyNow_owners, abortDie_owners, parkNow_owners, apply_ite owners, ite_self]
theorem thermalRise_owners (s : State) (d : Die) (t : Nat) : (s.thermalRise d t).owners = s.owners := by
  simp only [thermalRise]
  split <;> simp only [setThermal_owners, shutDown_owners, apply_ite owners, ite_self]

/-! ### The start (R602 to R607). -/

theorem setStage_owners (s : State) (k : Nat) : (s.setStage k).owners = s.owners := by
  simp only [setStage, setF_owners]

theorem startLane_owners (s : State) (d : Die) (p m l : Nat) : (s.startLane d p m l).owners = s.owners := by
  unfold startLane
  dsimp only
  split <;> simp only [setLink_owners, setWord_owners, countSpares_owners, mapRecord_owners, linkHalf_owners, linkFall_owners,
    apply_ite owners, ite_self]

theorem limitMemory_owners (s : State) (badStacks badSets : List Nat) : (s.limitMemory badStacks badSets).owners = s.owners := by
  simp only [limitMemory, setF_owners]
theorem startBist_owners (s : State) (failed notRun : List (Die × Nat)) (d : Die) : (s.startBist failed notRun d).owners = s.owners := by
  simp only [startBist, setF_owners, summary_owners, ledg_owners, loseIsland_owners, bistSummary_owners, foldl_owners, implies_true,
    apply_ite owners, ite_self]

theorem loseDies_owners (s : State) (failed : List (Die × Nat)) : (s.loseDies failed).owners = s.owners := by
  unfold loseDies
  dsimp only
  rw [foldl_owners fun t d => foldl_owners (fun u e => setF_owners _ _ _ _ _) _ _]
  split <;> rfl

theorem toService_owners (s : State) (d : Die) : (s.toService d).owners = s.owners := by
  unfold toService
  refine foldl_owners (fun t e => ?_) _ _
  dsimp only
  split <;> simp only [setF_owners, setCrossing_owners]

/-! ### The module's connector, its input, hot-plug, the PCIe link and the management buses (R570 to R601). -/

theorem setVolt_owners (s : State) (mv : Nat) : (s.setVolt mv).owners = s.owners := by
  simp only [setVolt, setF_owners]
theorem dropInbound_owners (s : State) : (s.dropInbound).owners = s.owners := by
  simp only [dropInbound]
theorem dropLink_owners (s : State) : (s.dropLink).owners = s.owners := by
  simp only [dropLink, dropInbound_owners, setWord_owners, bump_owners, raise_owners, linkTimeout_owners, apply_ite owners, ite_self]
theorem pcieReset_owners (s : State) : (s.pcieReset).owners = s.owners := by
  simp only [pcieReset, dropLink_owners]
theorem powerFail_owners (s : State) (cause : Nat) : (s.powerFail cause).owners = s.owners := by
  simp only [powerFail, ledg_owners, mainOff_owners, apply_ite owners, ite_self]
theorem setHp_owners (s : State) (k : Nat) : (s.setHp k).owners = s.owners := by
  simp only [setHp, setF_owners]
theorem hpReject_owners (s : State) : (s.hpReject).owners = s.owners := by
  simp only [hpReject, setF_owners]
theorem enterDrain_owners (s : State) : (s.enterDrain).owners = s.owners := by
  simp only [enterDrain, setHp_owners, raise_owners, pldm_owners]
theorem enterDown_owners (s : State) : (s.enterDown).owners = s.owners := by
  simp only [enterDown, setHp_owners]
theorem flushWrites_owners (s : State) (key : Nat) : (s.flushWrites key).owners = s.owners := by
  simp only [flushWrites, whcProgram_owners, setBlocks_owners, postCqe_owners, setQp_owners, foldl_owners, implies_true]

/-! ### The common header of the register pages (R522 to R535): enables, block resets, applications of buffered fields, interrupt enables
and votes. -/

theorem refuse_owners (s : State) (r : Requester) : (s.refuse r).owners = s.owners := by
  simp only [refuse]
  split <;> simp only [answer_owners]
theorem blockResetStart_owners (s : State) (pg : Page) : (s.blockResetStart pg).owners = s.owners := by
  simp only [blockResetStart, tearLots_owners, clearBlock_owners, clearRegs_owners, countTears_owners, setF_owners, apply_ite owners,
    ite_self]
theorem ctrlWrite_owners (s : State) (pg : Page) (v : Nat) : (s.ctrlWrite pg v).owners = s.owners := by
  simp only [ctrlWrite, pageErr_owners, setF_owners, blockResetStart_owners, apply_ite owners, ite_self]
theorem applyNow_owners (s : State) (pg : Page) : (s.applyNow pg).owners = s.owners := by
  simp only [applyNow, setF_owners, raise_owners]
theorem applyAsk_owners (s : State) (pg : Page) (v : Nat) : (s.applyAsk pg v).owners = s.owners := by
  simp only [applyAsk, pageErr_owners, setF_owners, applyNow_owners, apply_ite owners, ite_self]
theorem applyDrop_owners (s : State) (pg : Page) : (s.applyDrop pg).owners = s.owners := by
  simp only [applyDrop, setF_owners, pageErr_owners, apply_ite owners, ite_self]
theorem irqEnWrite_owners (s : State) (pg : Page) (v : Nat) : (s.irqEnWrite pg v).owners = s.owners := by
  simp only [irqEnWrite, setWord_owners, sendMsi_owners, apply_ite owners, ite_self]
theorem voteWord_owners (s : State) (pg : Page) (off : Nat) : (s.voteWord pg off).owners = s.owners := by
  simp only [voteWord, setWord_owners, bump_owners, setF_owners, pageErr_owners, apply_ite owners, ite_self]
theorem votePage_owners (s : State) (pg : Page) : (s.votePage pg).owners = s.owners := by
  simp only [votePage, voteWord_owners, foldl_owners, implies_true]

/-! ### What a read of a register page returns (R522 to R536 and the maps of the chapters): registers that report what the state holds
elsewhere, registers of a selected item, and the latches of the _LO and _HI pairs. -/

theorem readReg_owners (s : State) (pg : Page) (off : Nat) (inspect : Bool) : (s.readReg pg off inspect).2.owners = s.owners := by
  unfold readReg
  dsimp only
  repeat' split
  all_goals simp only [votePage_owners]

/-! ### Accesses to the device map by harts, by inbound PCIe requests and by the inspection port (R59, R228, R255, R440, R463, R489, R490,
R495, R536, R537, R587, R604). -/

theorem windowRead_owners (s : State) (h : Option Nat) (t off : Nat) : (s.windowRead h t off).2.owners = s.owners := by
  unfold windowRead
  split
  · split
    · exact lockTry_owners _ _ _
    · rfl
  · repeat' split
    all_goals rfl

theorem readWord_owners (s : State) (h : Option Nat) (a : Nat) : (s.readWord h a).2.owners = s.owners := by
  simp only [readWord]
  split <;> simp only [readReg_owners, windowRead_owners]

theorem storePiece_owners (s : State) (h : Nat) (p : Nat × Bytes) : (s.storePiece h p).owners = s.owners := by
  unfold storePiece
  dsimp only
  split <;> simp only [touchLot_owners, setLine_owners, cohInv_owners, wrBytes_owners, foldl_owners, implies_true, apply_ite owners,
    ite_self]

theorem hartStore_owners (s : State) (h a : Nat) (bs : Bytes) : (s.hartStore h a bs).1.owners = s.owners := by
  simp only [hartStore, storePiece_owners, foldl_owners, implies_true]
theorem storeAnswer_owners (s : State) (h a : Nat) (bs : Bytes) (d : Bytes) : (s.storeAnswer h a bs d).owners = s.owners := by
  simp only [storeAnswer, hartStore_owners, answer_owners, apply_ite owners, ite_self]
theorem hartFault_owners (s : State) (h : Nat) : (s.hartFault h).owners = s.owners := by
  simp only [hartFault, answer_owners]
theorem plcEvent_owners (s : State) (h l : Nat) : (s.plcEvent h l).owners = s.owners := by
  simp only [plcEvent, logRec_owners]

theorem hartPerform_owners (s : State) (h : Nat) (op : HartOp) (pa size : Nat) (data : Bytes) :
    (s.hartPerform h op pa size data).owners = s.owners := by
  unfold hartPerform
  dsimp only
  split <;> simp only [touchRead_owners, answer_owners, reportUncorr_owners, hartFault_owners, sendMsi_owners, storeAnswer_owners,
    setHart_owners, apply_ite owners, ite_self]

theorem hartDirect_owners (s : State) (h : Nat) (op : HartOp) (pa size : Nat) (data : Bytes) :
    (s.hartDirect h op pa size data).owners = s.owners := by
  refine owners_of ?_
  unfold hartDirect
  refine ite_owning (ite_owning (owning_of (hartPerform_owners _ _ _ _ _ _)) (owning_of (hartPerform_owners _ _ _ _ _ _))) ?_
  split
  · exact owning_of (answer_owners _ _ _ _)
  · exact owning_of (answer_owners _ _ _ _)
  · exact owning_of ((answer_owners _ _ _ _).trans (devWrite_owners _ _ _))
  · exact owning_of (hartFault_owners _ _)

theorem hartMemory_owners (s : State) (h : Nat) (c : Option Nat) (op : HartOp) (pa size : Nat) (data : Bytes) :
    (s.hartMemory h c op pa size data).owners = s.owners := by
  unfold hartMemory
  split
  · exact hartFault_owners _ _
  · split
    · exact hartDirect_owners _ _ _ _ _ _
    · split
      · split
        · exact stall_owners _ _
        · exact hartPerform_owners _ _ _ _ _ _
      · rw [hartFault_owners]
        exact foldl_owners (fun t l => (plcEvent_owners _ _ _).trans (startPageIn_owners _ _)) _ _

theorem pcieLost_owners (s : State) (pa : Nat) : (s.pcieLost pa).owners = s.owners := by
  simp only [pcieLost, writeLostRec_owners, bump_owners]
theorem pcieRead_owners (s : State) (pa len : Nat) : (s.pcieRead pa len).owners = s.owners := by
  simp only [pcieRead, answer_owners, pageInAll_owners, stall_owners, reportUncorr_owners, touchRead_owners, countCoh_owners,
    apply_ite owners, ite_self]
theorem pcieWrite_owners (s : State) (pa : Nat) (data : Bytes) : (s.pcieWrite pa data).owners = s.owners := by
  simp only [pcieWrite, answer_owners, pageInAll_owners, stall_owners, cohWrite_owners, pcieLost_owners, apply_ite owners, ite_self]
theorem inspectFail_owners (s : State) : (s.inspectFail).owners = s.owners := by
  simp only [inspectFail, answer_owners]

/-! ### What ends the waits of accesses (R228, R234, R240): a lot that arrives, a move that commits, a buffer that is freed, by FREE or by
a release. -/

theorem serveStall_owners (s : State) (w : Stalled) : (s.serveStall w).owners = s.owners := by
  unfold serveStall
  split
  · exact pcieRead_owners _ _ _
  · exact pcieWrite_owners _ _ _
  · exact ite_owners rfl (hartMemory_owners _ _ _ _ _ _ _)
  · exact rdmaWriteIn_owners _ _ _
  · exact rdmaReadIn_owners _ _ _
  · exact rdmaSendIn_owners _ _ _
  · exact nvmeDone_owners _ _ _ _ _ _
  · exact pumpNvme_owners _ _ _
  · exact postCqe_owners _ _ _ _ _
  · exact exchangeIn_owners _ _ _
  · exact memWrite_owners _ _ _ _

theorem serveStalls_owners (s : State) : (s.serveStalls).owners = s.owners := by
  simp only [serveStalls, serveStall_owners, foldl_owners, implies_true]

end Sys2Proof.Machine.State

/-! PROOFS. The commands that leave the owner records of the compartment table (R492, R498). -/

namespace Sys2Proof.Machine

open State

/-! ### What a command answers -/

/-- What a command answers leaves the owner records as they are in `s`. -/
def OwnersStay (s : State) (o : Host.Outcome State Fault Refusal) : Prop := ∀ t, o = .next t → t.owners = s.owners

/-- A next state with the owner records of `s`. -/
theorem ownersStay_next {s t : State} (h : t.owners = s.owners) : OwnersStay s (.next t) := by
  intro u hu
  cases hu
  exact h

/-- A command of a part that a freeze stops. -/
theorem ownersStay_act {s : State} {f : State → State} (h : (f s).owners = s.owners) : OwnersStay s (act s f) :=
  ownersStay_next (State.ite_owners rfl h)

/-- A command of a part of a die, which the die's own stop holds too. -/
theorem ownersStay_actD {d : Die} {s : State} {f : State → State} (h : (f s).owners = s.owners) : OwnersStay s (actD d s f) :=
  ownersStay_next (State.ite_owners rfl h)

/-- A command that needs auxiliary power only. -/
theorem ownersStay_auxAct {s : State} {f : State → State} (h : (f s).owners = s.owners) : OwnersStay s (auxAct s f) :=
  ownersStay_next (State.ite_owners h rfl)

/-- A command of the management controller. -/
theorem ownersStay_mcAct {s : State} {f : State → State} (h : (f s).owners = s.owners) : OwnersStay s (mcAct s f) :=
  ownersStay_next (State.ite_owners h rfl)

/-- A command that needs main power. -/
theorem ownersStay_powerAct {s : State} {f : State → State} (h : (f s).owners = s.owners) : OwnersStay s (powerAct s f) :=
  ownersStay_next (State.ite_owners h rfl)

/-! ### Streams and the scheduler (R152 to R166, R185 to R199, R510): context commands, doorbells, fetch, start, completion records and
FILL work. -/

theorem execFeCtxEnable_owners (d : Die) (s : State) : OwnersStay s (execFeCtxEnable d s) := by
  refine ownersStay_actD ?_
  simp only [setStreamState_owners, setF_owners, flushHeld_owners, settleHeld_owners, ctxReject_owners, apply_ite owners, ite_self]
theorem execFeCtxDrain_owners (d : Die) (s : State) : OwnersStay s (execFeCtxDrain d s) := by
  refine ownersStay_actD ?_
  simp only [setStreamState_owners, ctxReject_owners, apply_ite owners, ite_self]
theorem execFeCtxAbort_owners (d : Die) (s : State) : OwnersStay s (execFeCtxAbort d s) := by
  refine ownersStay_actD ?_
  simp only [abortStream_owners, ctxReject_owners, apply_ite owners, ite_self]
theorem execFeCtxDataWrite_owners (d : Die) (w : Nat) (v : W32) (s : State) : OwnersStay s (execFeCtxDataWrite d w v s) := by
  refine ownersStay_actD ?_
  simp only [setCtxWord_owners, ctxReject_owners, apply_ite owners, ite_self]
theorem execDbRing_owners (d : Die) (c : Nat) (v : W32) (s : State) : OwnersStay s (execDbRing d c v s) := by
  refine ownersStay_actD ?_
  simp only [setTail_owners, setWord_owners, bump_owners, apply_ite owners, ite_self]

theorem execDescriptorFetch_owners (d : Die) (n : Nat) (s : State) : OwnersStay s (execDescriptorFetch d n s) := by
  refine ownersStay_actD (ite_owners ?_ rfl)
  have hx := s.ringXlate_owners d n (s.ctxManifest d n + 64 * s.ctxHead d n) false
  split
  next h => simp only [haltStream_owners, reportUncorr_owners, fetchDesc_owners, touchRead_owners, snd_owners hx h, apply_ite owners,
    ite_self]
  next h => rw [haltStream_owners, snd_owners hx h]
  next h => rw [haltStream_owners, snd_owners hx h]
  next h => rw [startPageIn_owners, snd_owners hx h]

theorem execDescriptorStart_owners (d : Die) (n q : Nat) (s : State) : OwnersStay s (execDescriptorStart d n q s) := by
  refine ownersStay_actD ?_
  dsimp only
  repeat' split
  all_goals simp only [fillPart_owners, noteTurn_owners, updDesc_owners, finish_owners]

theorem execCompletionRecordWrite_owners (d : Die) (n : Nat) (s : State) : OwnersStay s (execCompletionRecordWrite d n s) := by
  refine ownersStay_actD ?_
  split <;> simp only [writeRecord_owners, settleHeld_owners, apply_ite owners, ite_self]
theorem execFillStart_owners (d : Die) (e : Nat) (s : State) : OwnersStay s (execFillStart d e s) := by
  refine ownersStay_actD ?_
  simp only [setEngine_owners, apply_ite owners, ite_self]
theorem execFillPreempt_owners (d : Die) (e : Nat) (s : State) : OwnersStay s (execFillPreempt d e s) := by
  refine ownersStay_actD ?_
  simp only [setEngine_owners, bump_owners, apply_ite owners, ite_self]
theorem execFillResume_owners (d : Die) (e : Nat) (s : State) : OwnersStay s (execFillResume d e s) := by
  refine ownersStay_actD ?_
  simp only [setEngine_owners, apply_ite owners, ite_self]
theorem execEngFillCistWrite_owners (d : Die) (e : Nat) (v : W32) (s : State) : OwnersStay s (execEngFillCistWrite d e v s) := by
  refine ownersStay_actD ?_
  simp only [pageErr_owners, setF_owners, apply_ite owners, ite_self]

theorem execNop_owners (d : Die) (n q : Nat) (s : State) : OwnersStay s (execNop d n q s) := by
  refine ownersStay_actD (withRunning_owners _ _ _ _ _ _ fun x => ?_)
  simp only [finish_owners]

/-! ### The matrix arrays at work (R107 to R134, R173 to R175): tiles, their results, preloads and clearings. -/

theorem execMatmul_owners (d : Die) (n q : Nat) (s : State) : OwnersStay s (execMatmul d n q s) := by
  refine ownersStay_actD (withRunning_owners _ _ _ _ _ _ fun x => ?_)
  simp only [runMatmul_owners]

theorem execMatmulAcc_owners (d : Die) (n q : Nat) (s : State) : OwnersStay s (execMatmulAcc d n q s) := by
  refine ownersStay_actD (withRunning_owners _ _ _ _ _ _ fun x => ?_)
  simp only [runMatmul_owners]

theorem execWeightPreload_owners (d : Die) (e a : Nat) (s : State) : OwnersStay s (execWeightPreload d e a s) := by
  refine ownersStay_actD ?_
  dsimp only
  repeat' split
  all_goals simp only [updArr_owners]

theorem execTileComplete_owners (d : Die) (e a : Nat) (s : State) : OwnersStay s (execTileComplete d e a s) := by
  refine ownersStay_actD ?_
  dsimp only
  repeat' split
  all_goals simp only [updArr_owners, busyFor_owners, dropTiles_owners, finish_owners, writeTile_owners, updDesc_owners, endMatmul_owners]

/-! ### The vector unit (R91 to R96, R176 to R178): element operations, functions, conversions and reductions. -/

theorem execAdd_owners (d : Die) (n q : Nat) (s : State) : OwnersStay s (execAdd d n q s) :=
  ownersStay_actD (runVector_owners _ _ _ _ _)
theorem execSub_owners (d : Die) (n q : Nat) (s : State) : OwnersStay s (execSub d n q s) :=
  ownersStay_actD (runVector_owners _ _ _ _ _)
theorem execMul_owners (d : Die) (n q : Nat) (s : State) : OwnersStay s (execMul d n q s) :=
  ownersStay_actD (runVector_owners _ _ _ _ _)
theorem execFma_owners (d : Die) (n q : Nat) (s : State) : OwnersStay s (execFma d n q s) :=
  ownersStay_actD (runVector_owners _ _ _ _ _)
theorem execDiv_owners (d : Die) (n q : Nat) (s : State) : OwnersStay s (execDiv d n q s) :=
  ownersStay_actD (runVector_owners _ _ _ _ _)
theorem execSqrt_owners (d : Die) (n q : Nat) (s : State) : OwnersStay s (execSqrt d n q s) :=
  ownersStay_actD (runVector_owners _ _ _ _ _)
theorem execMax_owners (d : Die) (n q : Nat) (s : State) : OwnersStay s (execMax d n q s) :=
  ownersStay_actD (runVector_owners _ _ _ _ _)
theorem execMin_owners (d : Die) (n q : Nat) (s : State) : OwnersStay s (execMin d n q s) :=
  ownersStay_actD (runVector_owners _ _ _ _ _)
theorem execExp_owners (d : Die) (n q : Nat) (s : State) : OwnersStay s (execExp d n q s) :=
  ownersStay_actD (runVector_owners _ _ _ _ _)
theorem execLog_owners (d : Die) (n q : Nat) (s : State) : OwnersStay s (execLog d n q s) :=
  ownersStay_actD (runVector_owners _ _ _ _ _)
theorem execRecip_owners (d : Die) (n q : Nat) (s : State) : OwnersStay s (execRecip d n q s) :=
  ownersStay_actD (runVector_owners _ _ _ _ _)
theorem execRsqrt_owners (d : Die) (n q : Nat) (s : State) : OwnersStay s (execRsqrt d n q s) :=
  ownersStay_actD (runVector_owners _ _ _ _ _)
theorem execTanh_owners (d : Die) (n q : Nat) (s : State) : OwnersStay s (execTanh d n q s) :=
  ownersStay_actD (runVector_owners _ _ _ _ _)
theorem execSigmoid_owners (d : Die) (n q : Nat) (s : State) : OwnersStay s (execSigmoid d n q s) :=
  ownersStay_actD (runVector_owners _ _ _ _ _)
theorem execErf_owners (d : Die) (n q : Nat) (s : State) : OwnersStay s (execErf d n q s) :=
  ownersStay_actD (runVector_owners _ _ _ _ _)
theorem execConvert_owners (d : Die) (n q : Nat) (s : State) : OwnersStay s (execConvert d n q s) :=
  ownersStay_actD (runVector_owners _ _ _ _ _)
theorem execSum_owners (d : Die) (n q : Nat) (s : State) : OwnersStay s (execSum d n q s) :=
  ownersStay_actD (runVector_owners _ _ _ _ _)
theorem execSumsq_owners (d : Die) (n q : Nat) (s : State) : OwnersStay s (execSumsq d n q s) :=
  ownersStay_actD (runVector_owners _ _ _ _ _)
theorem execDot_owners (d : Die) (n q : Nat) (s : State) : OwnersStay s (execDot d n q s) :=
  ownersStay_actD (runVector_owners _ _ _ _ _)
theorem execRmax_owners (d : Die) (n q : Nat) (s : State) : OwnersStay s (execRmax d n q s) :=
  ownersStay_actD (runVector_owners _ _ _ _ _)

/-! ### REDUCE_LOCAL (R99, R100, R103, R104, R128 to R133, R179): merges of partial records, ORF value sums, anchor maxima and NRM128
sums. -/

theorem execPartialRecordMerge_owners (d : Die) (n q : Nat) (s : State) : OwnersStay s (execPartialRecordMerge d n q s) := by
  refine ownersStay_actD (withReduce_owners _ _ _ _ _ _ fun x t => ?_)
  dsimp only
  repeat' split
  all_goals simp only [finish_owners, mergeWrite_owners]

theorem execOrfValueSum_owners (d : Die) (n q : Nat) (s : State) : OwnersStay s (execOrfValueSum d n q s) := by
  refine ownersStay_actD (withReduce_owners _ _ _ _ _ _ fun x t => ?_)
  simp only [wrV_owners, finish_owners]

theorem execAnchorMaximum_owners (d : Die) (n q : Nat) (s : State) : OwnersStay s (execAnchorMaximum d n q s) := by
  refine ownersStay_actD (withReduce_owners _ _ _ _ _ _ fun x t => ?_)
  simp only [wrV_owners, finish_owners]

theorem execNrm128Sum_owners (d : Die) (n q : Nat) (s : State) : OwnersStay s (execNrm128Sum d n q s) := by
  refine ownersStay_actD (withReduce_owners _ _ _ _ _ _ fun x t => ?_)
  simp only [finish_owners, wrV_owners, apply_ite owners, ite_self]

/-! ### MOVE (R180, R181). -/

theorem execMoveCopy_owners (d : Die) (n q : Nat) (s : State) : OwnersStay s (execMoveCopy d n q s) := by
  refine ownersStay_actD ?_
  simp only [withMove_owners]
theorem execMoveFill_owners (d : Die) (n q : Nat) (s : State) : OwnersStay s (execMoveFill d n q s) := by
  refine ownersStay_actD ?_
  simp only [withMove_owners]

/-! ### The placement unit (R200 to R235, R243, R244): frames, ages, evictions, page-ins, caravans and its queries. -/

theorem execMigrate_owners (d : Die) (n q : Nat) (s : State) : OwnersStay s (execMigrate d n q s) := by
  refine ownersStay_actD (withRunning_owners _ _ _ _ _ _ fun x => ?_)
  dsimp only
  repeat' split
  all_goals simp only [finish_owners, setF_owners, touchV_owners, joinCaravans_owners, updDesc_owners, stepCaravan_owners]

theorem execAgeStep_owners (k : Nat) (s : State) : OwnersStay s (execAgeStep k s) := by
  refine ownersStay_act ?_
  simp only [apply_ite owners, ite_self]

theorem execEvictAhead_owners (near : Bool) (bucket way : Nat) (s : State) : OwnersStay s (execEvictAhead near bucket way s) := by
  refine ownersStay_act ?_
  dsimp only
  repeat' split
  all_goals simp only [evict_owners]

theorem execWritebackComplete_owners (lot : Nat) (s : State) : OwnersStay s (execWritebackComplete lot s) := by
  refine ownersStay_act ?_
  simp only [noteLotUe_owners, homeNow_owners, bump_owners, toWarehouse_owners, whcProgram_owners, apply_ite owners, ite_self]
theorem execPlcQueryLot_owners (k : Nat) (v : W32) (s : State) : OwnersStay s (execPlcQueryLot k v s) := by
  refine ownersStay_act ?_
  simp only [setF_owners, apply_ite owners, ite_self]

/-! ### The pool manager (R236 to R242, R245): its queues, ALLOC, FREE and SET_PLACEMENT. -/

theorem execPoolQTail_owners (c : Nat) (v : W32) (s : State) : OwnersStay s (execPoolQTail c v s) := by
  refine ownersStay_actD ?_
  simp only [setF_owners, bump_owners, apply_ite owners, ite_self]
theorem execPoolQEnable_owners (c : Nat) (v : W32) (s : State) : OwnersStay s (execPoolQEnable c v s) := by
  refine ownersStay_actD ?_
  simp only [setF_owners, pageErr_owners, apply_ite owners, ite_self]

theorem execPoolRequestFetch_owners (c : Nat) (s : State) : OwnersStay s (execPoolRequestFetch c s) := by
  refine ownersStay_actD ?_
  dsimp only
  repeat' split
  all_goals simp only [poolRecord_owners, poolHalt_owners, setF_owners, poolDone_owners]

theorem execAlloc_owners (c base idx : Nat) (s : State) : OwnersStay s (execAlloc c base idx s) := by
  refine ownersStay_actD (withReq_owners _ _ _ _ fun r => ?_)
  split <;> simp only [poolDone_owners, wrNat_owners, makeBuffer_owners, apply_ite owners, ite_self]

theorem execFree_owners (c : Nat) (s : State) : OwnersStay s (execFree c s) := by
  refine ownersStay_actD (withReq_owners _ _ _ _ fun r => ?_)
  simp only [refuseHandle_owners, apply_ite owners, ite_self]

theorem execSetPlacement_owners (c : Nat) (s : State) : OwnersStay s (execSetPlacement c s) := by
  refine ownersStay_actD (withReq_owners _ _ _ _ fun r => ?_)
  dsimp only
  repeat' split
  all_goals simp only [refuseHandle_owners, poolDone_owners]

/-! ### The memory channels (R246 to R273): codewords, marks, narrow reads, refresh, calibration, scrubs and telemetry. -/

theorem execMemRead_owners (r : Requester) (pa : Nat) (x : Fetch) (tagBad : Bool) (s : State) :
    OwnersStay s (execMemRead r pa x tagBad s) := by
  refine ownersStay_act ?_
  split <;> simp only [ripeNarrow_owners, runChan_owners, requestIn_owners, request_owners, apply_ite owners, ite_self]

theorem execMemWrite_owners (r : Requester) (pa : Nat) (x : MemStore) (s : State) : OwnersStay s (execMemWrite r pa x s) :=
  ownersStay_act (memWrite_owners _ _ _ _)
theorem execNarrowRead_owners (k pa : Nat) (x : NarrowAsk) (s : State) : OwnersStay s (execNarrowRead k pa x s) :=
  ownersStay_act (askNarrow_owners _ _ _ _)
theorem execNarrowWaitExpiry_owners (d : Die) (ch : Nat) (s : State) : OwnersStay s (execNarrowWaitExpiry d ch s) := by
  refine ownersStay_actD ?_
  simp only [ripeNarrow_owners, runChan_owners]
theorem execRefreshDue_owners (d : Die) (ch : Nat) (s : State) : OwnersStay s (execRefreshDue d ch s) := by
  refine ownersStay_actD ?_
  simp only [setChan_owners, setDebt_owners, forceRefresh_owners, apply_ite owners, ite_self]
theorem execRefreshPullIn_owners (d : Die) (ch : Nat) (s : State) : OwnersStay s (execRefreshPullIn d ch s) := by
  refine ownersStay_actD ?_
  simp only [setDebt_owners, apply_ite owners, ite_self]
theorem execCalibrationDue_owners (d : Die) (ch : Nat) (s : State) : OwnersStay s (execCalibrationDue d ch s) := by
  refine ownersStay_actD ?_
  simp only [setChan_owners, apply_ite owners, ite_self]
theorem execForcedCalibration_owners (d : Die) (ch : Nat) (s : State) : OwnersStay s (execForcedCalibration d ch s) := by
  refine ownersStay_actD ?_
  simp only [setChan_owners, bump_owners, apply_ite owners, ite_self]

theorem execCalibrationEnd_owners (d : Die) (ch : Nat) (s : State) : OwnersStay s (execCalibrationEnd d ch s) := by
  refine ownersStay_actD ?_
  dsimp only
  repeat' split
  all_goals simp only [setChan_owners, issueOwed_owners, raiseMax_owners, repairPair_owners, runChan_owners]

theorem execGuaranteedScrub_owners (d : Die) (ch : Nat) (errs : List (Nat × List Nat)) (s : State) :
    OwnersStay s (execGuaranteedScrub d ch errs s) := by
  refine ownersStay_actD ?_
  simp only [setChan_owners, scrubBurst_owners, apply_ite owners, ite_self]

theorem execPatrolScrub_owners (d : Die) (ch : Nat) (errs : List (Nat × List Nat)) (s : State) :
    OwnersStay s (execPatrolScrub d ch errs s) := by
  refine ownersStay_actD ?_
  simp only [scrubBurst_owners, apply_ite owners, ite_self]

theorem execDqPairMark_owners (d : Die) (ch pair : Nat) (s : State) : OwnersStay s (execDqPairMark d ch pair s) := by
  refine ownersStay_actD ?_
  simp only [markPair_owners, apply_ite owners, ite_self]
theorem execTelemetrySample_owners (d : Die) (s : State) : OwnersStay s (execTelemetrySample d s) := by
  refine ownersStay_actD ?_
  simp only [drawFree_owners, bump_owners, apply_ite owners, ite_self]
theorem execStackTemperatureSample_owners (d : Die) (temp : Nat) (s : State) : OwnersStay s (execStackTemperatureSample d temp s) := by
  refine ownersStay_actD ?_
  simp only [setF_owners, apply_ite owners, ite_self]
theorem execMr4Read_owners (d : Die) (ch rate : Nat) (s : State) : OwnersStay s (execMr4Read d ch rate s) := by
  refine ownersStay_actD ?_
  simp only [setF_owners, apply_ite owners, ite_self]
theorem execLocalGibWrite_owners (v : W32) (s : State) : OwnersStay s (execLocalGibWrite v s) := by
  refine ownersStay_act ?_
  simp only [setF_owners, apply_ite owners, ite_self]

/-! ### The update units (R274 to R302, R309): parameter blocks, order, the gate, the algorithms, delay accumulators, trailers and
difference streams. -/

theorem execUpdate_owners (d : Die) (n q : Nat) (s : State) : OwnersStay s (execUpdate d n q s) := by
  refine ownersStay_actD (withRunning_owners _ _ _ _ _ _ fun x => ite_owners rfl (ite_owners ?_ ?_))
  · split
    · exact finish_owners _ _ _ _ _ _ _
    · refine ite_owners (finish_owners _ _ _ _ _ _ _) ?_
      dsimp only
      split
      · exact finish_owners _ _ _ _ _ _ _
      · split
        next h =>
          have ht := snd_owners (pinArrays_owners _ _ _ _ _ _ _) h
          exact (whenResident_owners _ _ _ _ _ fun z => classify_owners _ _ _ _ _).trans (ht.trans (touchV_owners _ _ _ _))
        next h => exact (snd_owners (pinArrays_owners _ _ _ _ _ _ _) h).trans (touchV_owners _ _ _ _)
  · exact whenResident_owners _ _ _ _ _ fun z => classify_owners _ _ _ _ _

theorem execUpdateAdmit_owners (d : Die) (n q : Nat) (s : State) : OwnersStay s (execUpdateAdmit d n q s) := by
  refine ownersStay_actD (withRunning_owners _ _ _ _ _ _ fun x => ?_)
  simp only [classify_owners, apply_ite owners, ite_self]

theorem execDsRecordWrite_owners (u : Nat) (s : State) : OwnersStay s (execDsRecordWrite u s) := by
  refine ownersStay_act ?_
  dsimp only
  repeat' split
  all_goals simp only [wrBytes_owners, setF_owners, setDs_owners]

theorem execUpdDsTail_owners (u : Nat) (v : W32) (s : State) : OwnersStay s (execUpdDsTail u v s) :=
  ownersStay_act rfl
theorem execUpdDsCfgWrite_owners (u off : Nat) (v : W32) (s : State) : OwnersStay s (execUpdDsCfgWrite u off v s) := by
  refine ownersStay_act ?_
  simp only [pageErr_owners, holdLo_owners, takeLo_owners, rwWrite_owners, apply_ite owners, ite_self]
theorem execOrderGapTimeout_owners (d : Die) (n q : Nat) (s : State) : OwnersStay s (execOrderGapTimeout d n q s) := by
  refine ownersStay_actD ?_
  split <;> simp only [bump_owners, reqFinish_owners, apply_ite owners, ite_self]

/-! ### The embedding lookup engines (R310 to R342): the registry, LOOKUP, LOOKUP_GRAD, row updates and the sweeper. -/

theorem execLoad_owners (v : W32) (s : State) : OwnersStay s (execLoad v s) := by
  refine ownersStay_act ?_
  simp only [tblCmd_owners, tblReject_owners, loadTake_owners, apply_ite owners, ite_self]
theorem execLoadComplete_owners (s : State) : OwnersStay s (execLoadComplete s) := by
  refine ownersStay_act ?_
  split <;> simp only [loadTake_owners, pageInAll_owners, wrNat_owners, foldl_owners, implies_true, apply_ite owners, ite_self]
theorem execUnload_owners (v : W32) (s : State) : OwnersStay s (execUnload v s) := by
  refine ownersStay_act ?_
  simp only [tblCmd_owners, setTblSlot_owners, tblReject_owners, apply_ite owners, ite_self]

theorem execSwitch_owners (v : W32) (s : State) : OwnersStay s (execSwitch v s) := by
  refine ownersStay_act ?_
  dsimp only
  repeat' split
  all_goals simp only [setWord_owners, setTblSlot_owners, tblReject_owners]

theorem execTombstone_owners (v : W32) (s : State) : OwnersStay s (execTombstone v s) :=
  ownersStay_act (rowCommand_owners _ _ _)
theorem execRevive_owners (v : W32) (s : State) : OwnersStay s (execRevive v s) :=
  ownersStay_act (rowCommand_owners _ _ _)

theorem execLookup_owners (d : Die) (n q : Nat) (s : State) : OwnersStay s (execLookup d n q s) := by
  refine ownersStay_actD (withRunning_owners _ _ _ _ _ _ fun x0 => ?_)
  refine (withRunning_owners _ _ _ _ _ _ fun x => ite_owners rfl (whenResident_owners _ _ _ _ _ fun y => ?_)).trans
    (ite_owners (lkpLatch_owners _ _ _ _ _) rfl)
  split
  · rw [lkpFinish_owners, touchBatch_owners]
  · exact pageInAll_owners _ _
  · rw [lkRun_owners, setF_owners, touchBatch_owners]

theorem execLookupGrad_owners (d : Die) (n q : Nat) (s : State) : OwnersStay s (execLookupGrad d n q s) := by
  refine ownersStay_actD (withRunning_owners _ _ _ _ _ _ fun x0 => ?_)
  refine (withRunning_owners _ _ _ _ _ _ fun x => ite_owners rfl (whenResident_owners _ _ _ _ _ fun y => ?_)).trans
    (ite_owners (lkpLatch_owners _ _ _ _ _) rfl)
  split
  next h => exact snd_owners (gradParams_owners _ _ _ _ _) h
  next h =>
    refine (withRunning_owners _ _ _ _ _ _ fun z => ?_).trans (snd_owners (gradParams_owners _ _ _ _ _) h)
    dsimp only
    split
    · rw [lkpFinish_owners, touchBatch_owners]
    · exact pageInAll_owners _ _
    · simp only [lkpFinish_owners, gradClassify_owners, touchV_owners, setF_owners, touchBatch_owners, apply_ite owners, ite_self]

theorem execLookupRowUpdate_owners (d : Die) (n q row : Nat) (s : State) : OwnersStay s (execLookupRowUpdate d n q row s) := by
  refine ownersStay_actD (withRunning_owners _ _ _ _ _ _ fun x => ?_)
  split <;> simp only [updDesc_owners, gradSettle_owners, pageInAll_owners, lkpFinish_owners, updateRow_owners, apply_ite owners, ite_self]

theorem execUpdateLotApply_owners (d : Die) (n q l : Nat) (s : State) : OwnersStay s (execUpdateLotApply d n q l s) := by
  refine ownersStay_actD ?_
  split
  · rfl
  · refine ite_owners rfl (ite_owners (gradLotApply_owners _ _ _ _ _ _) (ite_owners rfl ?_))
    split
    · rfl
    · exact ite_owners rfl (ite_owners (snapReached_owners _ _) (ite_owners
        (applyUpdLot_owners _ _ _ _ _ _ _ _ _ _ _ _ fun t => lotDone_owners _ _ _ _ _)
        (skipUpdLot_owners _ _ _ _ _ _ _ _ fun t => lotDone_owners _ _ _ _ _)))

theorem execSweep_owners (tbl : Nat) (s : State) : OwnersStay s (execSweep tbl s) := by
  refine ownersStay_act ?_
  dsimp only
  repeat' split
  all_goals simp only [sweepRows_owners]

theorem execHotSlotFree_owners (tbl sl w hot : Nat) (s : State) : OwnersStay s (execHotSlotFree tbl sl w hot s) :=
  ownersStay_act rfl

/-! ### The network ports and the RDMA engine (R343 to R355, R374 to R379): ports, queue pairs, SEND and RECV, what comes in, congestion,
and the time page (R360, R361, R380). -/

theorem execNetPortModeWrite_owners (d : Die) (p : Nat) (v : W32) (s : State) : OwnersStay s (execNetPortModeWrite d p v s) := by
  refine ownersStay_actD ?_
  simp only [setF_owners, steer_owners, apply_ite owners, ite_self]
theorem execPortLinkUp_owners (d : Die) (p sub : Nat) (s : State) : OwnersStay s (execPortLinkUp d p sub s) := by
  refine ownersStay_actD ?_
  simp only [setQpPort_owners, resend_owners, setF_owners, foldl_owners, implies_true, apply_ite owners, ite_self]

theorem execEthLaneLockLoss_owners (d : Die) (p lane : Nat) (s : State) : OwnersStay s (execEthLaneLockLoss d p lane s) := by
  unfold execEthLaneLockLoss
  dsimp only
  split
  · refine ownersStay_next (ite_owners rfl ?_)
    simp only [linkTimeout_owners, steer_owners, setF_owners, bump_owners, apply_ite owners, ite_self]
  · refine ownersStay_actD (ite_owners rfl ?_)
    simp only [linkTimeout_owners, steer_owners, setF_owners, bump_owners, apply_ite owners, ite_self]

theorem execPfcPauseFrameReceive_owners (d : Die) (p : Nat) (prio : BitVec 8) (quanta : Nat) (s : State) :
    OwnersStay s (execPfcPauseFrameReceive d p prio quanta s) := by
  refine ownersStay_actD ?_
  simp only [bump_owners, drainFrames_owners, foldl_owners, implies_true, apply_ite owners, ite_self]

theorem execQpEnable_owners (d : Die) (s : State) : OwnersStay s (execQpEnable d s) := by
  refine ownersStay_actD ?_
  simp only [setQp_owners, setQpSt_owners, setQpPort_owners, qpReject_owners, apply_ite owners, ite_self]
theorem execQpReset_owners (d : Die) (s : State) : OwnersStay s (execQpReset d s) := by
  refine ownersStay_actD ?_
  simp only [qpReject_owners, qpReset_owners, apply_ite owners, ite_self]
theorem execRegister_owners (d : Die) (s : State) : OwnersStay s (execRegister d s) := by
  refine ownersStay_actD ?_
  simp only [mrReject_owners, apply_ite owners, ite_self]
theorem execDeregister_owners (d : Die) (s : State) : OwnersStay s (execDeregister d s) := by
  refine ownersStay_actD ?_
  simp only [mrReject_owners, apply_ite owners, ite_self]
theorem execSend_owners (d : Die) (n q : Nat) (s : State) : OwnersStay s (execSend d n q s) :=
  ownersStay_actD (postSend_owners _ _ _ _ _)
theorem execRdmaWrite_owners (d : Die) (n q : Nat) (s : State) : OwnersStay s (execRdmaWrite d n q s) :=
  ownersStay_actD (postSend_owners _ _ _ _ _)
theorem execRdmaRead_owners (d : Die) (n q : Nat) (s : State) : OwnersStay s (execRdmaRead d n q s) :=
  ownersStay_actD (postSend_owners _ _ _ _ _)

theorem execRecv_owners (d : Die) (n q : Nat) (s : State) : OwnersStay s (execRecv d n q s) := by
  refine ownersStay_actD (withRunning_owners _ _ _ _ _ _ fun x => ?_)
  simp only [finish_owners, updDesc_owners, setQp_owners, apply_ite owners, ite_self]

theorem execInboundRdmaWrite_owners (d : Die) (i : Nat) (pk : Packet) (s : State) : OwnersStay s (execInboundRdmaWrite d i pk s) := by
  refine ownersStay_actD (frameIn_owners _ _ _ _ _ fun t k => ?_)
  simp only [rdmaWriteIn_owners]

theorem execInboundRdmaRead_owners (d : Die) (i : Nat) (pk : Packet) (s : State) : OwnersStay s (execInboundRdmaRead d i pk s) := by
  refine ownersStay_actD (frameIn_owners _ _ _ _ _ fun t k => ?_)
  simp only [rdmaReadIn_owners]

theorem execInboundSend_owners (d : Die) (i : Nat) (pk : Packet) (s : State) : OwnersStay s (execInboundSend d i pk s) := by
  refine ownersStay_actD (frameIn_owners _ _ _ _ _ fun t k => ?_)
  simp only [rdmaSendIn_owners]

theorem execRdmaAck_owners (d : Die) (i psn : Nat) (s : State) : OwnersStay s (execRdmaAck d i psn s) := by
  refine ownersStay_actD ?_
  simp only [ackUpTo_owners, apply_ite owners, ite_self]
theorem execRdmaNak_owners (d : Die) (i psn : Nat) (kind : NakKind) (s : State) : OwnersStay s (execRdmaNak d i psn kind s) := by
  refine ownersStay_actD ?_
  split <;> simp only [ackUpTo_owners, retry_owners, resend_owners, qpError_owners, setQp_owners, apply_ite owners, ite_self]

theorem execRdmaReadResponse_owners (d : Die) (i : Nat) (pk : Packet) (s : State) : OwnersStay s (execRdmaReadResponse d i pk s) := by
  refine ownersStay_actD ?_
  dsimp only
  repeat' split
  all_goals simp only [packetIn_owners, ackUpTo_owners, setQp_owners, finish_owners, wrV_owners, endWork_owners]

theorem execAckTimeout_owners (d : Die) (i : Nat) (s : State) : OwnersStay s (execAckTimeout d i s) := by
  refine ownersStay_actD ?_
  simp only [retry_owners, apply_ite owners, ite_self]

theorem execCnpReceive_owners (d : Die) (i : Nat) (s : State) : OwnersStay s (execCnpReceive d i s) := by
  refine ownersStay_actD ?_
  dsimp only
  repeat' split
  all_goals simp only [setQp_owners, bump_owners]

theorem execDcqcnRateIncrease_owners (d : Die) (i : Nat) (s : State) : OwnersStay s (execDcqcnRateIncrease d i s) := by
  refine ownersStay_actD ?_
  simp only [setQp_owners, apply_ite owners, ite_self]
theorem execNetPtpAdj_owners (v : W32) (s : State) : OwnersStay s (execNetPtpAdj v s) :=
  ownersStay_act rfl
theorem execNetPtpStep_owners (v : W32) (s : State) : OwnersStay s (execNetPtpStep v s) :=
  ownersStay_act rfl
theorem execApplyAtSecond_owners (s : State) : OwnersStay s (execApplyAtSecond s) := by
  refine ownersStay_act ?_
  simp only [setF_owners, apply_ite owners, ite_self]
theorem execPpsOutEdge_owners (s : State) : OwnersStay s (execPpsOutEdge s) := by
  refine ownersStay_act ?_
  simp only [apply_ite owners, ite_self]
theorem execPpsInEdge_owners (s : State) : OwnersStay s (execPpsInEdge s) := by
  refine ownersStay_act ?_
  simp only [setF_owners, apply_ite owners, ite_self]

/-! ### NVMe over Fabrics and the warehouse file queues (R356 to R358): rings, submission entries, completion entries. The fields of the
entries and the status codes are those of the NVM Express Base Specification 2.0, which R356 names (PRESUMED, notes/assumptions/45.md). -/

theorem execNetQpDb_owners (d : Die) (v : W32) (s : State) : OwnersStay s (execNetQpDb d v s) := by
  refine ownersStay_actD ?_
  simp only [setWord_owners, setQp_owners, pumpNvme_owners, apply_ite owners, ite_self]

theorem execNvmeCompletion_owners (d : Die) (i cid status : Nat) (result : W32) (data : Bytes) (s : State) :
    OwnersStay s (execNvmeCompletion d i cid status result data s) := by
  refine ownersStay_act ?_
  simp only [nvmeDone_owners]

theorem execFileQueueRead_owners (d : Die) (i : Nat) (s : State) : OwnersStay s (execFileQueueRead d i s) := by
  refine ownersStay_actD (withFile_owners _ _ _ _ _ fun v t => ite_owners ?_ (withData_owners _ _ _ _ _ _ fun p u => ?_))
  · rw [postCqe_owners, popSqe_owners]
  · rw [postCqe_owners, popSqe_owners, wrV_owners]

theorem execFileQueueWrite_owners (d : Die) (i : Nat) (s : State) : OwnersStay s (execFileQueueWrite d i s) := by
  refine ownersStay_actD (withFile_owners _ _ _ _ _ fun v t => ite_owners ?_ (withData_owners _ _ _ _ _ _ fun p u => ?_))
  · rw [postCqe_owners, popSqe_owners]
  · rw [setQp_owners, popSqe_owners, touchV_owners]

theorem execFileQueueWriteDone_owners (d : Die) (i : Nat) (s : State) : OwnersStay s (execFileQueueWriteDone d i s) := by
  refine ownersStay_actD ?_
  dsimp only
  repeat' split
  all_goals simp only [setQp_owners, whcProgram_owners, setBlocks_owners, postCqe_owners, foldl_owners, implies_true]

theorem execFileQueueFlush_owners (d : Die) (i : Nat) (s : State) : OwnersStay s (execFileQueueFlush d i s) := by
  refine ownersStay_actD (withFile_owners _ _ _ _ _ fun v t => ?_)
  simp only [popSqe_owners, postCqe_owners]

theorem execFileQueueWriteZeroes_owners (d : Die) (i : Nat) (s : State) : OwnersStay s (execFileQueueWriteZeroes d i s) := by
  refine ownersStay_actD (withFile_owners _ _ _ _ _ fun v t => ?_)
  simp only [popSqe_owners, postCqe_owners]

theorem execFileQueueDeallocate_owners (d : Die) (i : Nat) (s : State) : OwnersStay s (execFileQueueDeallocate d i s) := by
  have hp (t : State) (k c r st : Nat) : ((t.popSqe k).postCqe k c r st).owners = t.owners := by rw [postCqe_owners, popSqe_owners]
  refine ownersStay_actD (withFile_owners _ _ _ _ _ fun v t => ite_owners (hp _ _ _ _ _) (ite_owners (hp _ _ _ _ _)
    (ite_owners (hp _ _ _ _ _) (withData_owners _ _ _ _ _ _ fun p u => ite_owners (hp _ _ _ _ _) ((hp _ _ _ _ _).trans ?_)))))
  simp only [setBlocks_owners]

/-! ### SNAPSHOT (R305 to R308): admission, the lots shipped one at a time to each unit, the delay of the updates that a snapshot holds
up. -/

theorem execSnapshot_owners (d : Die) (n q : Nat) (s : State) : OwnersStay s (execSnapshot d n q s) := by
  refine ownersStay_actD (withRunning_owners _ _ _ _ _ _ fun x => owners_of (ite_owning rfl (ite_owning ?_ ?_)))
  · split
    · exact owning_of (finish_owners _ _ _ _ _ _ _)
    · refine ite_owning (owning_of (finish_owners _ _ _ _ _ _ _)) (ite_owning (owning_of (finish_owners _ _ _ _ _ _ _)) ?_)
      split
      · exact owning_of (finish_owners _ _ _ _ _ _ _)
      · extract_lets s1
        exact owning_of ((whenResident_owners _ _ _ _ _ fun z => snapClassify_owners _ _ _ _ _).trans (updDesc_owners _ _ _ _ _))
  · exact owning_of (whenResident_owners _ _ _ _ _ fun z => snapClassify_owners _ _ _ _ _)

theorem execSnapshotLotShip_owners (d : Die) (n q l : Nat) (s : State) : OwnersStay s (execSnapshotLotShip d n q l s) := by
  refine ownersStay_actD (withRunning_owners _ _ _ _ _ _ fun x => ?_)
  dsimp only
  repeat' split
  all_goals simp only [pageInAll_owners, finish_owners, touchV_owners, wrBytes_owners, setShip_owners, post_owners]

theorem execSnapshotAck_owners (d : Die) (n q l : Nat) (s : State) : OwnersStay s (execSnapshotAck d n q l s) := by
  refine ownersStay_actD (withRunning_owners _ _ _ _ _ _ fun x => ?_)
  split <;> simp only [raiseMax_owners, setShip_owners, finish_owners, apply_ite owners, ite_self]

theorem execSnapshotDelayLimit_owners (d : Die) (n q l : Nat) (s : State) : OwnersStay s (execSnapshotDelayLimit d n q l s) := by
  refine ownersStay_actD (withRunning_owners _ _ _ _ _ _ fun x => ?_)
  split <;> simp only [bump_owners, finish_owners, apply_ite owners, ite_self]

/-! ### The exchange engines (R362 to R373, R381): plans, expert token exchange, order-free reductions over the network, gather windows.
-/

theorem execExchangeDispatch_owners (d : Die) (n q : Nat) (s : State) : OwnersStay s (execExchangeDispatch d n q s) :=
  ownersStay_actD (withPlan_owners _ _ _ _ _ _ _ fun t k x => dispatchTokens_owners t d n q k x)
theorem execExchangeCombine_owners (d : Die) (n q : Nat) (s : State) : OwnersStay s (execExchangeCombine d n q s) :=
  ownersStay_actD (withPlan_owners _ _ _ _ _ _ _ fun t k x => combineTokens_owners t d n q k x)
theorem execExchangeMessage_owners (x : Die) (m : XMsg) (s : State) : OwnersStay s (execExchangeMessage x m s) := by
  refine ownersStay_actD ?_
  simp only [exchangeIn_owners, apply_ite owners, ite_self]
theorem execReduceNetBoth_owners (d : Die) (n q : Nat) (s : State) : OwnersStay s (execReduceNetBoth d n q s) :=
  ownersStay_actD (reduceNet_owners _ _ _ _ _)
theorem execReduceNetAnchor_owners (d : Die) (n q : Nat) (s : State) : OwnersStay s (execReduceNetAnchor d n q s) :=
  ownersStay_actD (reduceNet_owners _ _ _ _ _)
theorem execReduceNetValue_owners (d : Die) (n q : Nat) (s : State) : OwnersStay s (execReduceNetValue d n q s) :=
  ownersStay_actD (reduceNet_owners _ _ _ _ _)
theorem execReduceNetNrm128_owners (d : Die) (n q : Nat) (s : State) : OwnersStay s (execReduceNetNrm128 d n q s) :=
  ownersStay_actD (reduceNet_owners _ _ _ _ _)

theorem execGatherWindow_owners (d : Die) (n q : Nat) (s : State) : OwnersStay s (execGatherWindow d n q s) := by
  refine ownersStay_actD (withRunning_owners _ _ _ _ _ _ fun x => ite_owners rfl (ite_owners (postShards_owners _ _ _ _ _) ?_))
  split
  · exact finish_owners _ _ _ _ _ _ _
  · refine ite_owners (finish_owners _ _ _ _ _ _ _) (ite_owners (finish_owners _ _ _ _ _ _ _)
      (whenResident_owners _ _ _ _ _ fun y => ite_owners (finish_owners _ _ _ _ _ _ _) (ite_owners (finish_owners _ _ _ _ _ _ _) ?_)))
    rw [postShards_owners, updDesc_owners]

theorem execWindowRelease_owners (x : Die) (w : Nat) (s : State) : OwnersStay s (execWindowRelease x w s) := by
  refine ownersStay_actD ?_
  dsimp only
  repeat' split
  all_goals simp only [toWarehouse_owners, trimHome_owners, zeroBytes_owners, foldl_owners, implies_true]

theorem execXchWinRelease_owners (x : Die) (s : State) : OwnersStay s (execXchWinRelease x s) := by
  refine ownersStay_actD ?_
  dsimp only
  repeat' split
  all_goals rfl

/-! ### FENCE (R472 to R475). A write of the model is performed at every scope when it is made, so a fence waits for the ends of earlier
descriptors and, at NETWORK scope, for the remote acknowledgements. -/

theorem execFence_owners (d : Die) (n q : Nat) (s : State) : OwnersStay s (execFence d n q s) := by
  refine ownersStay_actD (withRunning_owners _ _ _ _ _ _ fun x => ?_)
  simp only [updDesc_owners, apply_ite owners, ite_self]

theorem execFenceComplete_owners (d : Die) (n q : Nat) (s : State) : OwnersStay s (execFenceComplete d n q s) := by
  refine ownersStay_actD (withRunning_owners _ _ _ _ _ _ fun x => ?_)
  simp only [finish_owners, apply_ite owners, ite_self]

/-! ### Convoys and step commit (R382 to R409): the coordination contexts of N0, their messages, heartbeats, takeover, barriers,
milestones. -/

theorem execStart_owners (k : Nat) (s : State) : OwnersStay s (execStart k s) := by
  refine ownersStay_actD ?_
  simp only [setCvSt_owners, setF_owners, setConv_owners, convReject_owners, apply_ite owners, ite_self]
theorem execStop_owners (k : Nat) (s : State) : OwnersStay s (execStop k s) := by
  refine ownersStay_actD ?_
  simp only [convReject_owners, setCvSt_owners, setF_owners, setConv_owners, apply_ite owners, ite_self]

theorem execAdmitRank_owners (k r : Nat) (s : State) : OwnersStay s (execAdmitRank k r s) := by
  refine ownersStay_actD ?_
  simp only [setF_owners, setMember_owners, bumpEpoch_owners, setConv_owners, tellEpoch_owners, convReject_owners, apply_ite owners,
    ite_self]

theorem execResume_owners (k : Nat) (s : State) : OwnersStay s (execResume k s) := by
  refine ownersStay_actD ?_
  simp only [setCvSt_owners, commitSettle_owners, convReject_owners, apply_ite owners, ite_self]
theorem execHeartbeatSend_owners (k : Nat) (s : State) : OwnersStay s (execHeartbeatSend k s) := by
  refine ownersStay_actD ?_
  simp only [sendAll_owners, setConv_owners, apply_ite owners, ite_self]
theorem execHeartbeat_owners (k : Nat) (m : Ctl) (s : State) : OwnersStay s (execHeartbeat k m s) := by
  refine ownersStay_actD ?_
  simp only [sendCtl_owners, setConv_owners, apply_ite owners, ite_self]
theorem execHbReply_owners (k : Nat) (m : Ctl) (s : State) : OwnersStay s (execHbReply k m s) := by
  refine ownersStay_actD ?_
  simp only [setConv_owners, raiseMax_owners, apply_ite owners, ite_self]

theorem execWorkerLost_owners (k r : Nat) (s : State) : OwnersStay s (execWorkerLost k r s) := by
  refine ownersStay_actD ?_
  simp only [setMember_owners, bumpEpoch_owners, setF_owners, raise_owners, setConv_owners, tellEpoch_owners, cvHalt_owners,
    abortStep_owners, appliedSettle_owners, barrierSettle_owners, apply_ite owners, ite_self]

theorem execManagerLost_owners (k : Nat) (s : State) : OwnersStay s (execManagerLost k s) := by
  refine ownersStay_actD ?_
  simp only [setF_owners, raise_owners, setConv_owners, apply_ite owners, ite_self]

theorem execTakeoverTimer_owners (k : Nat) (s : State) : OwnersStay s (execTakeoverTimer k s) := by
  refine ownersStay_actD ?_
  simp only [setCvSt_owners, bumpEpoch_owners, raise_owners, setConv_owners, sendAll_owners, tellEpoch_owners, takeoverDone_owners,
    cvHalt_owners, apply_ite owners, ite_self]

theorem execTakeover_owners (k : Nat) (m : Ctl) (s : State) : OwnersStay s (execTakeover k m s) := by
  refine ownersStay_actD ?_
  simp only [setF_owners, setCvSt_owners, setConv_owners, raise_owners, tellEpoch_owners, apply_ite owners, ite_self]
theorem execQuery_owners (k : Nat) (m : Ctl) (s : State) : OwnersStay s (execQuery k m s) := by
  refine ownersStay_actD ?_
  simp only [sendCtl_owners, apply_ite owners, ite_self]
theorem execState_owners (k : Nat) (m : Ctl) (s : State) : OwnersStay s (execState k m s) := by
  refine ownersStay_actD ?_
  simp only [setConv_owners, takeoverDone_owners, sendCtl_owners, apply_ite owners, ite_self]
theorem execConvBarrier_owners (k : Nat) (v : W32) (s : State) : OwnersStay s (execConvBarrier k v s) := by
  refine ownersStay_actD ?_
  simp only [setF_owners, setConv_owners, barrierSettle_owners, sendCtl_owners, apply_ite owners, ite_self]
theorem execArrive_owners (k : Nat) (m : Ctl) (s : State) : OwnersStay s (execArrive k m s) := by
  refine ownersStay_actD ?_
  simp only [setConv_owners, barrierSettle_owners, apply_ite owners, ite_self]
theorem execRelease_owners (k : Nat) (m : Ctl) (s : State) : OwnersStay s (execRelease k m s) := by
  refine ownersStay_actD ?_
  simp only [sendAll_owners, cvTally_owners, setConv_owners, apply_ite owners, ite_self]
theorem execConvReady_owners (k : Nat) (v : W32) (s : State) : OwnersStay s (execConvReady k v s) := by
  refine ownersStay_actD ?_
  simp only [setF_owners, setConv_owners, noteReady_owners, sendCtl_owners, apply_ite owners, ite_self]
theorem execReady_owners (k : Nat) (m : Ctl) (s : State) : OwnersStay s (execReady k m s) := by
  refine ownersStay_actD ?_
  simp only [noteReady_owners, apply_ite owners, ite_self]
theorem execCommit_owners (k : Nat) (m : Ctl) (s : State) : OwnersStay s (execCommit k m s) := by
  refine ownersStay_actD ?_
  simp only [sendCommit_owners, catchUp_owners, commitGroup_owners, commitAt_owners, apply_ite owners, ite_self]
theorem execConvApplied_owners (k : Nat) (v : W32) (s : State) : OwnersStay s (execConvApplied k v s) := by
  refine ownersStay_actD ?_
  simp only [setF_owners, noteApplied_owners, sendCtl_owners, closeRecord_owners, apply_ite owners, ite_self]
theorem execApplied_owners (k : Nat) (m : Ctl) (s : State) : OwnersStay s (execApplied k m s) := by
  refine ownersStay_actD ?_
  simp only [noteApplied_owners, apply_ite owners, ite_self]
theorem execAbortStep_owners (k : Nat) (m : Ctl) (s : State) : OwnersStay s (execAbortStep k m s) := by
  refine ownersStay_actD ?_
  simp only [abortStep_owners, abortAt_owners, apply_ite owners, ite_self]

/-! ### The preparation units (R410 to R438): sample order, position walk, decoded images, cache, geometry, colour, output, live rings. A
PREP_BATCH command brings the batch one slot further, a live slot in two steps: entry and delivery. -/

theorem execPrepBatch_owners (d : Die) (n q : Nat) (s : State) : OwnersStay s (execPrepBatch d n q s) := by
  refine ownersStay_actD (withRunning_owners _ _ _ _ _ _ fun x => ?_)
  dsimp only
  repeat' split
  all_goals simp only [updDesc_owners, prepStored_owners, liveEntry_owners, liveDeliver_owners]

/-- The invalidations under way are no part of the owner records. -/
theorem invs_owners {s t : State} (h : t.owners = s.owners) (m : SMap Inv) : State.owners { t with invs := m } = s.owners := h

/-! ### Range invalidations (R446 to R448), the coherence of host caches (R450 to R458), and the MSI router (R459 to R463). -/

theorem execXltInvGo_owners (d : Die) (s : State) : OwnersStay s (execXltInvGo d s) := by
  refine ownersStay_actD (owners_of (ite_owning rfl (ite_owning (owning_of (setF_owners ..)) (owning_of ?_))))
  exact (setF_owners ..).trans (invs_owners (foldl_owners (fun t g => bump_owners ..) _ _) _)
theorem execInvalidationAck_owners (d g : Die) (s : State) : OwnersStay s (execInvalidationAck d g s) := by
  refine ownersStay_actD ?_
  split <;> simp only [setF_owners, raise_owners, apply_ite owners, ite_self]
theorem execRdShared_owners (x : Cache) (line : Nat) (s : State) : OwnersStay s (execRdShared x line s) := by
  refine ownersStay_act ?_
  simp only [cohMiss_owners]
theorem execRdUnique_owners (x : Cache) (line : Nat) (s : State) : OwnersStay s (execRdUnique x line s) := by
  refine ownersStay_act ?_
  simp only [cohMiss_owners]
theorem execUpgrade_owners (x : Cache) (line : Nat) (s : State) : OwnersStay s (execUpgrade x line s) := by
  refine ownersStay_act ?_
  split <;> simp only [cohRequest_owners, apply_ite owners, ite_self]
theorem execRdOnce_owners (line : Nat) (s : State) : OwnersStay s (execRdOnce line s) := by
  refine ownersStay_act ?_
  simp only [cohRequest_owners]
theorem execWrLine_owners (line : Nat) (data : Bytes) (s : State) : OwnersStay s (execWrLine line data s) := by
  refine ownersStay_act ?_
  simp only [cohRequest_owners, apply_ite owners, ite_self]
theorem execWrPart_owners (line off : Nat) (data : Bytes) (s : State) : OwnersStay s (execWrPart line off data s) := by
  refine ownersStay_act ?_
  simp only [cohRequest_owners, apply_ite owners, ite_self]
theorem execSnpShared_owners (x : Cache) (line : Nat) (s : State) : OwnersStay s (execSnpShared x line s) := by
  refine ownersStay_act ?_
  simp only [snoop_owners]
theorem execSnpInv_owners (x : Cache) (line : Nat) (s : State) : OwnersStay s (execSnpInv x line s) := by
  refine ownersStay_act ?_
  simp only [snoop_owners]
theorem execSnpOnce_owners (x : Cache) (line : Nat) (s : State) : OwnersStay s (execSnpOnce x line s) := by
  refine ownersStay_act ?_
  simp only [snoop_owners]

theorem execSnpResp_owners (ring : Die) (line : Nat) (s : State) : OwnersStay s (execSnpResp ring line s) := by
  refine ownersStay_act ?_
  dsimp only
  repeat' split
  all_goals simp only [cohAction_owners, setLine_owners]

theorem execData_owners (line : Nat) (s : State) : OwnersStay s (execData line s) := by
  refine ownersStay_act ?_
  dsimp only
  repeat' split
  all_goals simp only [setLine_owners, bump_owners, answer_owners]

theorem execComp_owners (line : Nat) (s : State) : OwnersStay s (execComp line s) := by
  refine ownersStay_act ?_
  dsimp only
  repeat' split
  all_goals simp only [setLine_owners, cohEnd_owners, bump_owners]

theorem execCompAck_owners (line : Nat) (s : State) : OwnersStay s (execCompAck line s) := by
  refine ownersStay_act ?_
  split <;> simp only [cohEnd_owners, apply_ite owners, ite_self]

theorem execWbDirty_owners (x : Cache) (line : Nat) (s : State) : OwnersStay s (execWbDirty x line s) := by
  refine ownersStay_act ?_
  dsimp only
  repeat' split
  all_goals simp only [setLine_owners, wrBytes_owners]

theorem execWbAck_owners (x : Cache) (line : Nat) (s : State) : OwnersStay s (execWbAck x line s) :=
  ownersStay_act rfl

theorem execMsiDelivery_owners (i : Nat) (keep : Bool) (s : State) : OwnersStay s (execMsiDelivery i keep s) := by
  refine ownersStay_act ?_
  dsimp only
  repeat' split
  all_goals simp only [msiDrop_owners, msiRoute_owners, reportUncorr_owners]

theorem execCohMsiFlush_owners (s : State) : OwnersStay s (execCohMsiFlush s) :=
  ownersStay_act rfl

/-! ### The die-to-die links (R20 to R53, R633 to R636): flits, replay, credits, routes, and the loss of lanes. -/

theorem execDataFlitReceive_owners (d : Die) (p : Nat) (flit : Bytes) (s : State) : OwnersStay s (execDataFlitReceive d p flit s) := by
  refine ownersStay_actD (flitIn_owners _ _ _ _ _ _ _ (fun t => discard_owners _ _ _ _) fun t => ?_)
  exact ite_owners (acceptFlit_owners _ _ _ _) (discard_owners _ _ _ _)
theorem execIdleFlitReceive_owners (d : Die) (p : Nat) (flit : Bytes) (s : State) : OwnersStay s (execIdleFlitReceive d p flit s) :=
  ownersStay_actD (flitIn_owners _ _ _ _ _ _ _ (fun _ => rfl) fun _ => rfl)
theorem execRetryRequest_owners (d : Die) (p : Nat) (flit : Bytes) (s : State) : OwnersStay s (execRetryRequest d p flit s) :=
  ownersStay_actD (flitIn_owners _ _ _ _ _ _ _ (fun _ => rfl) fun _ => rfl)
theorem execLinkControlFlit_owners (d : Die) (p : Nat) (flit : Bytes) (s : State) : OwnersStay s (execLinkControlFlit d p flit s) :=
  ownersStay_actD (flitIn_owners _ _ _ _ _ _ _ (fun _ => rfl) fun _ => rfl)
theorem execAckTimer_owners (d : Die) (p : Nat) (s : State) : OwnersStay s (execAckTimer d p s) := by
  refine ownersStay_actD ?_
  simp only [sendPlain_owners, apply_ite owners, ite_self]

theorem execFlitSend_owners (d : Die) (p : Nat) (s : State) : OwnersStay s (execFlitSend d p s) := by
  refine ownersStay_actD ?_
  dsimp only
  repeat' split
  all_goals simp only [setLink_owners, emit_owners, sendPlain_owners]

theorem execMessageSend_owners (x : Die) (m : Msg) (s : State) : OwnersStay s (execMessageSend x m s) := by
  refine ownersStay_actD ?_
  dsimp only
  repeat' split
  all_goals simp only [setLink_owners, bump_owners, raise_owners]

theorem execLaneDiagnosis_owners (d : Die) (p : Nat) (bad : List (Nat × Nat)) (s : State) : OwnersStay s (execLaneDiagnosis d p bad s) := by
  refine ownersStay_next (ite_owners rfl (ite_owners ?_ ?_))
  · rw [resume_owners, bump_owners]
  · exact foldl_owners (fun t e => loseLane_owners _ _ _ _ _) _ _

theorem execLaneLoss_owners (d : Die) (p m l : Nat) (s : State) : OwnersStay s (execLaneLoss d p m l s) := by
  refine ownersStay_next ?_
  simp only [loseLane_owners, linkTimeout_owners, apply_ite owners, ite_self]

theorem execSpareSubstitution_owners (d : Die) (p m l : Nat) (s : State) : OwnersStay s (execSpareSubstitution d p m l s) := by
  refine ownersStay_next ?_
  dsimp only
  repeat' split
  all_goals simp only [setWord_owners, setLink_owners, countSpares_owners, raiseMax_owners, mapRecord_owners, raise_owners, settle_owners]

theorem execHalfWidthEntry_owners (d : Die) (p : Nat) (s : State) : OwnersStay s (execHalfWidthEntry d p s) := by
  refine ownersStay_next ?_
  simp only [linkHalf_owners, apply_ite owners, ite_self]
theorem execLinkDown_owners (d : Die) (p : Nat) (s : State) : OwnersStay s (execLinkDown d p s) := by
  refine ownersStay_next ?_
  simp only [linkFall_owners, apply_ite owners, ite_self]

/-! ### The commands on tallies (R467 to R491): waits, signals, locks, windows and debug halts. -/

theorem execTallyWait_owners (d : Die) (n q : Nat) (s : State) : OwnersStay s (execTallyWait d n q s) := by
  refine ownersStay_actD (withRunning_owners _ _ _ _ _ _ fun x => ?_)
  simp only [updDesc_owners, registerWait_owners, refuseTally_owners, apply_ite owners, ite_self]

theorem execTallySignalAdd_owners (d : Die) (n q : Nat) (s : State) : OwnersStay s (execTallySignalAdd d n q s) := by
  refine ownersStay_actD (withRunning_owners _ _ _ _ _ _ fun x => ?_)
  simp only [signal_owners, apply_ite owners, ite_self]

theorem execTallySignalSet_owners (d : Die) (n q : Nat) (s : State) : OwnersStay s (execTallySignalSet d n q s) := by
  refine ownersStay_actD (withRunning_owners _ _ _ _ _ _ fun x => ?_)
  simp only [signal_owners, apply_ite owners, ite_self]

theorem execTallyOperation_owners (i : Nat) (s : State) : OwnersStay s (execTallyOperation i s) := by
  refine ownersStay_act ?_
  split <;> simp only [tallyApply_owners, apply_ite owners, ite_self]

theorem execWaitPoll_owners (i : Nat) (s : State) : OwnersStay s (execWaitPoll i s) := by
  refine ownersStay_act ?_
  dsimp only
  repeat' split
  all_goals simp only [dropPoll_owners, grantLock_owners, wakeWaiter_owners, setTally_owners]

theorem execLockAcquire_owners (d : Die) (n q : Nat) (s : State) : OwnersStay s (execLockAcquire d n q s) := by
  refine ownersStay_actD (withRunning_owners _ _ _ _ _ _ fun x => ?_)
  dsimp only
  repeat' split
  all_goals simp only [refuseTally_owners, grantLock_owners, finish_owners, updDesc_owners, setTally_owners, startPoll_owners]

theorem execLockRelease_owners (d : Die) (n q : Nat) (s : State) : OwnersStay s (execLockRelease d n q s) := by
  refine ownersStay_actD (withRunning_owners _ _ _ _ _ _ fun x => ?_)
  simp only [freeLock_owners, finish_owners, refuseTally_owners, apply_ite owners, ite_self]

theorem execLeaseLapse_owners (t : Nat) (s : State) : OwnersStay s (execLeaseLapse t s) := by
  refine ownersStay_act ?_
  simp only [bump_owners, raise_owners, abandonLock_owners, apply_ite owners, ite_self]

theorem execTalwAdd_owners (h t : Nat) (v : W32) (s : State) : OwnersStay s (execTalwAdd h t v s) := by
  refine ownersStay_act (withWindow_owners _ _ _ _ ?_)
  simp only [windowAdd_owners, answer_owners]

theorem execTalwSetHi_owners (h t : Nat) (v : W32) (s : State) : OwnersStay s (execTalwSetHi h t v s) := by
  refine ownersStay_act (withWindow_owners _ _ _ _ ?_)
  simp only [windowSet_owners, answer_owners]

theorem execTalwTry_owners (h t : Nat) (s : State) : OwnersStay s (execTalwTry h t s) := by
  refine ownersStay_act (withWindow_owners _ _ _ _ ?_)
  simp only [lockTry_owners, answer_owners]

theorem execTalwRelease_owners (h t : Nat) (s : State) : OwnersStay s (execTalwRelease h t s) := by
  refine ownersStay_act (withWindow_owners _ _ _ _ ?_)
  simp only [windowRelease_owners, answer_owners]

theorem execTalwClearAbandoned_owners (h t : Nat) (s : State) : OwnersStay s (execTalwClearAbandoned h t s) := by
  refine ownersStay_act (withWindow_owners _ _ _ _ ?_)
  simp only [windowClear_owners, answer_owners]

theorem execTalCfgWrite_owners (d : Die) (v : W32) (s : State) : OwnersStay s (execTalCfgWrite d v s) := by
  refine ownersStay_actD ?_
  simp only [tallyConfig_owners]
theorem execHartDebugEnter_owners (h : Nat) (s : State) : OwnersStay s (execHartDebugEnter h s) := by
  refine ownersStay_act ?_
  simp only [notePromise_owners, setHart_owners, apply_ite owners, ite_self]
theorem execHartDebugExit_owners (h : Nat) (s : State) : OwnersStay s (execHartDebugExit h s) := by
  refine ownersStay_act ?_
  simp only [notePromise_owners, setHart_owners, apply_ite owners, ite_self]

/-! ### The event log, the ledger, the calendar clock, the wear of the warehouse, and the service panel (R653 to R675). -/

theorem execHourlyRecord_owners (mvh : List (Die × Nat)) (s : State) : OwnersStay s (execHourlyRecord mvh s) := by
  refine ownersStay_auxAct (owners_of ?_)
  extract_lets s1 vt full s2 s3
  have h1 : s1.owners = s.owners := foldl_owners (fun t e => bump_owners _ _ _ _ _) _ _
  have h2 : s2.owners = s1.owners := foldl_owners (fun t nd => by rw [setF_owners, setF_owners]) _ _
  have h3 : s3.owners = s2.owners := (summary_owners ..).trans (drawFree_owners _)
  have h : s3.owners = s.owners := h3.trans (h2.trans h1)
  exact ite_owning (owning_of ((setF_owners ..).trans h)) (owning_of h)

theorem execEraseAhead_owners (s : State) : OwnersStay s (execEraseAhead s) := by
  refine ownersStay_auxAct ?_
  simp only [setF_owners, apply_ite owners, ite_self]
theorem execPageProgramFail_owners (erase : Bool) (s : State) : OwnersStay s (execPageProgramFail erase s) := by
  refine ownersStay_auxAct ?_
  simp only [setF_owners, raise_owners, apply_ite owners, ite_self]
theorem execLedgRtcHi_owners (v : W32) (s : State) : OwnersStay s (execLedgRtcHi v s) := by
  refine ownersStay_auxAct ?_
  simp only [rtcSet_owners]
theorem execPtpRtcSet_owners (s : State) : OwnersStay s (execPtpRtcSet s) := by
  refine ownersStay_act ?_
  simp only [rtcSet_owners, apply_ite owners, ite_self]
theorem execLedgLogData7_owners (r : Requester) (s : State) : OwnersStay s (execLedgLogData7 r s) := by
  refine ownersStay_auxAct ?_
  simp only [answer_owners, apply_ite owners, ite_self]
theorem execWarehouseCreditExhausted_owners (d : Die) (s : State) : OwnersStay s (execWarehouseCreditExhausted d s) := by
  refine ownersStay_actD ?_
  simp only [startPacing_owners, apply_ite owners, ite_self]
theorem execWarehouseWorn_owners (d : Die) (s : State) : OwnersStay s (execWarehouseWorn d s) := by
  refine ownersStay_actD ?_
  simp only [setF_owners, summary_owners, ledg_owners, raise_owners, pldm_owners, startPacing_owners, apply_ite owners, ite_self]
theorem execReserveLow_owners (d : Die) (s : State) : OwnersStay s (execReserveLow d s) := by
  refine ownersStay_actD ?_
  simp only [setF_owners, raise_owners, apply_ite owners, ite_self]
theorem execGarbageCollection_owners (d : Die) (moved freed : Nat) (s : State) : OwnersStay s (execGarbageCollection d moved freed s) := by
  refine ownersStay_actD ?_
  simp only [whcProgram_owners, bump_owners, setF_owners, apply_ite owners, ite_self]
theorem execCreditAccrual_owners (d : Die) (s : State) : OwnersStay s (execCreditAccrual d s) := by
  refine ownersStay_actD ?_
  simp only [accrue_owners, apply_ite owners, ite_self]
theorem execServiceTagDraw_owners (s : State) : OwnersStay s (execServiceTagDraw s) := by
  refine ownersStay_auxAct ?_
  simp only [drawStart_owners, apply_ite owners, ite_self]
theorem execTagRefreshDone_owners (s : State) : OwnersStay s (execTagRefreshDone s) := by
  refine ownersStay_auxAct ?_
  simp only [setF_owners, bump_owners, ledg_owners, drawStart_owners, apply_ite owners, ite_self]
theorem execRedraw_owners (s : State) : OwnersStay s (execRedraw s) :=
  ownersStay_auxAct (drawNow_owners _)
theorem execSvcLocate_owners (v : W32) (s : State) : OwnersStay s (execSvcLocate v s) :=
  ownersStay_auxAct rfl
theorem execLocateExpiry_owners (s : State) : OwnersStay s (execLocateExpiry s) := by
  refine ownersStay_auxAct ?_
  simp only [setF_owners, apply_ite owners, ite_self]
theorem execSounderShort_owners (s : State) : OwnersStay s (execSounderShort s) := by
  refine ownersStay_auxAct ?_
  simp only [setF_owners, apply_ite owners, ite_self]
theorem execSounderRetry_owners (short : Bool) (s : State) : OwnersStay s (execSounderRetry short s) := by
  refine ownersStay_auxAct ?_
  simp only [setF_owners, raise_owners, pldm_owners, apply_ite owners, ite_self]
theorem execSvcSndClear_owners (s : State) : OwnersStay s (execSvcSndClear s) :=
  ownersStay_auxAct rfl
theorem execSupercapacitorRunDown_owners (s : State) : OwnersStay s (execSupercapacitorRunDown s) := by
  refine ownersStay_next ?_
  simp only [apply_ite owners, ite_self]

/-! ### The compartment table (R492 to R516): CREATE, RELEASE, GRANT, RETURN, scrubs, openings. -/

theorem execCptLock_owners (s : State) : OwnersStay s (execCptLock s) := by
  refine ownersStay_auxAct ?_
  simp only [notePromise_owners, setF_owners]
theorem execCptEntCfgWrite_owners (v : W32) (s : State) : OwnersStay s (execCptEntCfgWrite v s) := by
  refine ownersStay_auxAct ?_
  simp only [setWord_owners, pageErr_owners, apply_ite owners, ite_self]
theorem execOpenBuf_owners (c : Nat) (s : State) : OwnersStay s (execOpenBuf c s) := by
  refine ownersStay_auxAct ?_
  simp only [setF_owners, apply_ite owners, ite_self]
theorem execCloseBuf_owners (c : Nat) (s : State) : OwnersStay s (execCloseBuf c s) :=
  ownersStay_auxAct rfl

/-! ### Resets, parks and standby (R608 to R620). -/

theorem execModResetN_owners (s : State) : OwnersStay s (execModResetN s) := by
  refine ownersStay_auxAct ?_
  simp only [mainRestart_owners, moduleReset_owners, apply_ite owners, ite_self]
theorem execFunctionLevelReset_owners (s : State) : OwnersStay s (execFunctionLevelReset s) :=
  ownersStay_auxAct (requestedReset_owners _ _)
theorem execPldmReset_owners (s : State) : OwnersStay s (execPldmReset s) :=
  ownersStay_mcAct (requestedReset_owners _ _)
theorem execResetCmdModule_owners (s : State) : OwnersStay s (execResetCmdModule s) :=
  ownersStay_auxAct (requestedReset_owners _ _)
theorem execResetCmdDie_owners (target : Nat) (s : State) : OwnersStay s (execResetCmdDie target s) := by
  refine ownersStay_auxAct ?_
  simp only [setF_owners, resetReject_owners, dieReset_owners, apply_ite owners, ite_self]
theorem execDieRecoveryComplete_owners (d : Die) (s : State) : OwnersStay s (execDieRecoveryComplete d s) := by
  refine ownersStay_next ?_
  simp only [loseDie_owners, bump_owners, trainMemory_owners, trainLinks_owners, raise_owners, apply_ite owners, ite_self]

theorem execResetCmdCompartment_owners (target : Nat) (s : State) : OwnersStay s (execResetCmdCompartment target s) := by
  refine ownersStay_auxAct ?_
  simp only [setF_owners, resetReject_owners, absorb_owners, freeHart_owners, cptReset_owners, noteReset_owners, foldl_owners, implies_true,
    apply_ite owners, ite_self]

theorem execCoreHold_owners (target : Nat) (s : State) : OwnersStay s (execCoreHold target s) := by
  refine ownersStay_auxAct ?_
  simp only [setF_owners, resetReject_owners, absorb_owners, holdHart_owners, noteReset_owners, apply_ite owners, ite_self]
theorem execCoreRelease_owners (target : Nat) (s : State) : OwnersStay s (execCoreRelease target s) := by
  refine ownersStay_auxAct ?_
  simp only [setF_owners, resetReject_owners, absorb_owners, freeHart_owners, noteReset_owners, apply_ite owners, ite_self]
theorem execPark_owners (d : Die) (s : State) : OwnersStay s (execPark d s) := by
  refine ownersStay_act ?_
  simp only [setF_owners, parkNow_owners, apply_ite owners, ite_self]
theorem execUnpark_owners (d : Die) (s : State) : OwnersStay s (execUnpark d s) :=
  ownersStay_act rfl
theorem execStandbyEnter_owners (keepH0 : Bool) (s : State) : OwnersStay s (execStandbyEnter keepH0 s) := by
  refine ownersStay_act ?_
  simp only [setF_owners, apply_ite owners, ite_self]
theorem execStandbyEntryComplete_owners (s : State) : OwnersStay s (execStandbyEntryComplete s) := by
  refine ownersStay_act ?_
  simp only [standbyNow_owners, apply_ite owners, ite_self]
theorem execStandbyWake_owners (s : State) : OwnersStay s (execStandbyWake s) :=
  ownersStay_auxAct (wake_owners _ _)
theorem execPldmWake_owners (s : State) : OwnersStay s (execPldmWake s) :=
  ownersStay_mcAct (wake_owners _ _)
theorem execH0L3Miss_owners (h : Nat) (s : State) : OwnersStay s (execH0L3Miss h s) := by
  refine ownersStay_auxAct ?_
  simp only [wake_owners, apply_ite owners, ite_self]
theorem execWakeComplete_owners (s : State) : OwnersStay s (execWakeComplete s) := by
  refine ownersStay_auxAct ?_
  simp only [trainLinks_owners, allBankRefresh_owners, setF_owners, raise_owners, foldl_owners, implies_true, apply_ite owners, ite_self]

/-! ### Faults, self-tests, BIST, live test controls, freeze and debug access (R137 to R143, R621 to R652). -/

theorem execArrayDetectedError_owners (d : Die) (e a : Nat) (w : ArrPart) (s : State) :
    OwnersStay s (execArrayDetectedError d e a w s) := by
  refine ownersStay_actD ?_
  split <;> simp only [setEngine_owners, updArr_owners, arrayError_owners, apply_ite owners, ite_self]

theorem execArrayClearDone_owners (d : Die) (e a : Nat) (s : State) : OwnersStay s (execArrayClearDone d e a s) := by
  refine ownersStay_actD ?_
  dsimp only
  repeat' split
  all_goals simp only [updArr_owners, arrayError_owners]

theorem execTargetedSelfTestDone_owners (d : Die) (st : Struct) (pass : Bool) (s : State) :
    OwnersStay s (execTargetedSelfTestDone d st pass s) := by
  refine ownersStay_actD ?_
  split <;> simp only [testEnd_owners]

theorem execTransientLimit_owners (d : Die) (st : Struct) (s : State) : OwnersStay s (execTransientLimit d st s) := by
  refine ownersStay_actD ?_
  simp only [failTest_owners, apply_ite owners, ite_self]

theorem execErrorDetected_owners (d : Die) (st : Struct) (cls : ErrClass) (pa : Nat) (s : State) :
    OwnersStay s (execErrorDetected d st cls pa s) := by
  refine ownersStay_actD ?_
  split
  · exact crossParity_owners _ _ _
  · refine ite_owners rfl ?_
    split
    · exact countCorr_owners _ _ _
    · exact detect_owners _ _ _ _ _
    · exact detect_owners _ _ _ _ _
    · rw [detect_owners, logRec_owners, spoil_owners]
    · exact fatal_owners _ _ _
    · rfl
    · rfl

theorem execWriteLost_owners (r : Requester) (pa : Nat) (retired : Bool) (s : State) : OwnersStay s (execWriteLost r pa retired s) := by
  refine ownersStay_act ?_
  split <;> simp only [writeLostRec_owners, bump_owners, raise_owners, answer_owners, apply_ite owners, ite_self]
theorem execBistRun_owners (d : Die) (s : State) : OwnersStay s (execBistRun d s) := by
  refine ownersStay_actD ?_
  simp only [setF_owners, apply_ite owners, ite_self]

theorem execBistComplete_owners (d : Die) (isl : Nat) (sig : BitVec 64) (vOk : Bool) (s : State) :
    OwnersStay s (execBistComplete d isl sig vOk s) := by
  refine ownersStay_actD ?_
  simp only [bistEnd_owners, setF_owners, bistSummary_owners, raise_owners, apply_ite owners, ite_self]

theorem execInjArm_owners (pg : Page) (s : State) : OwnersStay s (execInjArm pg s) := by
  refine ownersStay_actD ?_
  dsimp only
  repeat' split
  all_goals simp only [setF_owners, pageErr_owners, countCorr_owners, detect_owners, loseLane_owners]

theorem execTstRun_owners (pg : Page) (pass : Bool) (s : State) : OwnersStay s (execTstRun pg pass s) := by
  refine ownersStay_actD ?_
  simp only [pageErr_owners, setF_owners, bump_owners, failTest_owners, apply_ite owners, ite_self]
theorem execFreezeN_owners (s : State) : OwnersStay s (execFreezeN s) := by
  refine ownersStay_auxAct ?_
  simp only [freezeStart_owners]
theorem execFreezeDebug_owners (s : State) : OwnersStay s (execFreezeDebug s) :=
  ownersStay_auxAct (freezeStart_owners _ _ _)
theorem execFreezeCapture_owners (s : State) : OwnersStay s (execFreezeCapture s) :=
  ownersStay_auxAct (freezeStart_owners _ _ _)
theorem execThaw_owners (s : State) : OwnersStay s (execThaw s) :=
  ownersStay_auxAct (thawNow_owners _)
theorem execThawLimitExpiry_owners (s : State) : OwnersStay s (execThawLimitExpiry s) := by
  refine ownersStay_auxAct ?_
  simp only [linkTimeout_owners, apply_ite owners, ite_self]
theorem execScanShift_owners (recirculate : Bool) (s : State) : OwnersStay s (execScanShift recirculate s) := by
  refine ownersStay_auxAct ?_
  simp only [setF_owners, apply_ite owners, ite_self]
theorem execInstrumentWrite_owners (s : State) : OwnersStay s (execInstrumentWrite s) := by
  refine ownersStay_auxAct ?_
  simp only [setF_owners, apply_ite owners, ite_self]
theorem execInspectEn_owners (level : Bool) (s : State) : OwnersStay s (execInspectEn level s) := by
  refine ownersStay_auxAct ?_
  simp only [notePromise_owners]

/-! ### Clocks, power and temperature (R541 to R569). -/

theorem execSourceQualified_owners (src : ClkSrc) (s : State) : OwnersStay s (execSourceQualified src s) := by
  refine ownersStay_auxAct ?_
  simp only [setF_owners, seekSource_owners, apply_ite owners, ite_self]

theorem execSourceLoss_owners (src : ClkSrc) (s : State) : OwnersStay s (execSourceLoss src s) := by
  refine ownersStay_auxAct ?_
  simp only [setF_owners, coastDie_owners, bump_owners, raise_owners, noteCause_owners, seekSource_owners, portsDown_owners, foldl_owners,
    implies_true, apply_ite owners, ite_self]

theorem execClockSourceSwitch_owners (s : State) : OwnersStay s (execClockSourceSwitch s) := by
  have hc (t : State) : (allDies.foldl State.coastDie t).owners = t.owners := foldl_owners (fun t e => coastDie_owners t e) _ _
  refine ownersStay_auxAct ?_
  dsimp only
  split
  · refine ite_owners ?_ ?_
    · rw [setF_owners, hc, setTv_owners]
    · rw [setF_owners, hc]
  · split
    · rw [setF_owners, hc]
    · rfl

theorem execPllLock_owners (s : State) : OwnersStay s (execPllLock s) := by
  refine ownersStay_auxAct ?_
  simp only [setF_owners, noteCause_owners, setMax_owners, seekSource_owners, foldl_owners, implies_true, apply_ite owners, ite_self]
theorem execClkSrcSelWrite_owners (v : W32) (s : State) : OwnersStay s (execClkSrcSelWrite v s) := by
  refine ownersStay_auxAct ?_
  simp only [setTv_owners, seekSource_owners, apply_ite owners, ite_self]
theorem execClkSscWrite_owners (v : W32) (s : State) : OwnersStay s (execClkSscWrite v s) :=
  ownersStay_auxAct rfl
theorem execClkIslMaxWrite_owners (d : Die) (v : W32) (s : State) : OwnersStay s (execClkIslMaxWrite d v s) := by
  refine ownersStay_powerAct ?_
  simp only [setMax_owners, apply_ite owners, ite_self]
theorem execFrequencyStep_owners (d : Die) (isl : Nat) (up : Bool) (s : State) : OwnersStay s (execFrequencyStep d isl up s) := by
  refine ownersStay_powerAct ?_
  split <;> simp only [moveIsland_owners, noteOp_owners, apply_ite owners, ite_self]
theorem execClkModeWrite_owners (d : Die) (v : W32) (s : State) : OwnersStay s (execClkModeWrite d v s) :=
  ownersStay_powerAct rfl

theorem execCrossingModeChange_owners (d : Die) (isl : Nat) (async : Bool) (s : State) :
    OwnersStay s (execCrossingModeChange d isl async s) := by
  refine ownersStay_powerAct ?_
  simp only [setCrossing_owners, apply_ite owners, ite_self]

theorem execPowerRound_owners (demands : List (Die × Nat)) (s : State) : OwnersStay s (execPowerRound demands s) := by
  refine ownersStay_powerAct ?_
  simp only [roundTick_owners, foldl_owners, implies_true, apply_ite owners, ite_self]

theorem execBudgetMessage_owners (d src : Die) (round demand : Nat) (s : State) :
    OwnersStay s (execBudgetMessage d src round demand s) := by
  refine ownersStay_powerAct ?_
  simp only [setBudget_owners, apply_ite owners, ite_self]

theorem execCapRaise_owners (d : Die) (s : State) : OwnersStay s (execCapRaise d s) := by
  refine ownersStay_powerAct ?_
  split <;> simp only [setF_owners, setBudget_owners, noteCause_owners, apply_ite owners, ite_self]

theorem execPowerMeasure_owners (d : Die) (p : Nat) (s : State) : OwnersStay s (execPowerMeasure d p s) := by
  refine ownersStay_powerAct (owners_of ?_)
  extract_lets b s1 cur slow s2 main low
  have h2 : s2.owners = s.owners := ite_owners (bump_owners ..) rfl
  clear_value s2
  refine ite_owning (owning_of ?_) (owning_of h2)
  rw [noteOp_owners, follow_owners, ← h2]
  exact foldl_owners (fun t i => setF_owners ..) _ _

theorem execThermalSample_owners (d : Die) (readings : List Nat) (s : State) : OwnersStay s (execThermalSample d readings s) := by
  refine ownersStay_powerAct (ite_owners rfl (owners_of ?_))
  extract_lets pg rs tj s1 s2 s3 cool since
  have h1 : s1.owners = s.owners := foldl_owners (fun t e => setF_owners ..) _ _
  have h2 : s2.owners = s1.owners := raiseMax_owners ..
  have h3 : s3.owners = s2.owners := (noteSwing_owners _).trans (ite_owners rfl (bump_owners ..))
  clear_value s3
  exact owning_of ((thermalRise_owners _ _ _).trans (h3.trans (h2.trans h1)))

theorem execThermalHysteresisTimer_owners (d : Die) (s : State) : OwnersStay s (execThermalHysteresisTimer d s) := by
  refine ownersStay_powerAct ?_
  split <;> simp only [setThermal_owners, apply_ite owners, ite_self]

/-! ### The start (R602 to R607). -/

theorem execRom_owners (s : State) : OwnersStay s (execRom s) := by
  refine ownersStay_auxAct ?_
  simp only [setStage_owners, noteReset_owners, setF_owners, apply_ite owners, ite_self]

theorem execMc_owners (s : State) : OwnersStay s (execMc s) := by
  refine ownersStay_auxAct ?_
  simp only [setStage_owners, setF_owners, summary_owners, ledg_owners, pldm_owners, setRtc_owners, drawNow_owners, apply_ite owners,
    ite_self]

theorem execMainPower_owners (s : State) : OwnersStay s (execMainPower s) := by
  refine ownersStay_auxAct ?_
  simp only [setFlash_owners, setF_owners, setStage_owners, apply_ite owners, ite_self]
theorem execLinks_owners (bad : List (Die × Nat × Nat × Nat)) (s : State) : OwnersStay s (execLinks bad s) := by
  refine ownersStay_act ?_
  simp only [trainLinks_owners, startLane_owners, setStage_owners, foldl_owners, implies_true, apply_ite owners, ite_self]
theorem execMemory_owners (badStacks badSets : List Nat) (s : State) : OwnersStay s (execMemory badStacks badSets s) := by
  refine ownersStay_act ?_
  simp only [limitMemory_owners, applyLanes_owners, allBankRefresh_owners, setStage_owners, apply_ite owners, ite_self]

theorem execBist_owners (failed notRun : List (Die × Nat)) (s : State) : OwnersStay s (execBist failed notRun s) := by
  refine ownersStay_act ?_
  simp only [startBist_owners, applyRetired_owners, loseDies_owners, setWord_owners, setStage_owners, setF_owners, foldl_owners,
    implies_true, apply_ite owners, ite_self]

theorem execHost_owners (s : State) : OwnersStay s (execHost s) := by
  refine ownersStay_act (ite_owners rfl (owners_of ?_))
  extract_lets s1 s2 s3
  have h1 : s1.owners = s.owners := setStage_owners _ _
  have h2 : s2.owners = s1.owners := ite_owners rfl (foldl_owners (fun t d => toService_owners t d) _ _)
  have h3 : s3.owners = s2.owners := (notePromise_owners _ _).trans (setF_owners ..)
  refine ite_owning (owning_of ((setF_owners ..).trans h1)) (owning_of ?_)
  split
  · exact (freeHart_owners _ _).trans (h3.trans (h2.trans h1))
  · exact h3.trans (h2.trans h1)

theorem execOpenBoot_owners (s : State) : OwnersStay s (execOpenBoot s) := by
  refine ownersStay_act ?_
  simp only [setF_owners, setStage_owners, apply_ite owners, ite_self]

/-! ### The module's connector, its input, hot-plug, the PCIe link and the management buses (R570 to R601). -/

theorem execLeverSwitchClose_owners (s : State) : OwnersStay s (execLeverSwitchClose s) := by
  refine ownersStay_next ?_
  simp only [setF_owners, apply_ite owners, ite_self]
theorem execLeverSwitchOpen_owners (s : State) : OwnersStay s (execLeverSwitchOpen s) := by
  refine ownersStay_next ?_
  simp only [setF_owners, powerFail_owners, apply_ite owners, ite_self]
theorem execInputUndervoltage_owners (mv : Nat) (s : State) : OwnersStay s (execInputUndervoltage mv s) := by
  refine ownersStay_next ?_
  simp only [setVolt_owners, powerFail_owners, apply_ite owners, ite_self]
theorem execInputOvervoltage_owners (mv : Nat) (s : State) : OwnersStay s (execInputOvervoltage mv s) := by
  refine ownersStay_next ?_
  simp only [setVolt_owners, setF_owners, powerFail_owners, apply_ite owners, ite_self]
theorem execMainOvercurrent_owners (ma : Nat) (s : State) : OwnersStay s (execMainOvercurrent ma s) := by
  refine ownersStay_next ?_
  simp only [setF_owners, powerFail_owners, apply_ite owners, ite_self]
theorem execUvWarn_owners (mv : Nat) (s : State) : OwnersStay s (execUvWarn mv s) := by
  refine ownersStay_auxAct ?_
  simp only [setVolt_owners, setF_owners, raise_owners, apply_ite owners, ite_self]
theorem execUndervoltageLockoutRelease_owners (mv : Nat) (s : State) : OwnersStay s (execUndervoltageLockoutRelease mv s) := by
  refine ownersStay_next ?_
  simp only [setVolt_owners, apply_ite owners, ite_self]
theorem execReducedRangeExit_owners (mv : Nat) (s : State) : OwnersStay s (execReducedRangeExit mv s) := by
  refine ownersStay_auxAct ?_
  simp only [setVolt_owners, setF_owners, apply_ite owners, ite_self]
theorem execAuxiliaryPathOff_owners (s : State) : OwnersStay s (execAuxiliaryPathOff s) := by
  refine ownersStay_auxAct ?_
  simp only [setF_owners, apply_ite owners, ite_self]

theorem execAttentionButtonPress_owners (s : State) : OwnersStay s (execAttentionButtonPress s) := by
  refine ownersStay_auxAct ?_
  dsimp only
  repeat' split
  all_goals simp only [bump_owners, wake_owners, setHp_owners, enterDown_owners]

theorem execAbortWindowExpiry_owners (s : State) : OwnersStay s (execAbortWindowExpiry s) := by
  refine ownersStay_auxAct ?_
  simp only [enterDrain_owners, apply_ite owners, ite_self]
theorem execStartDrain_owners (s : State) : OwnersStay s (execStartDrain s) := by
  refine ownersStay_auxAct ?_
  simp only [enterDrain_owners, hpReject_owners, apply_ite owners, ite_self]
theorem execDrainDone_owners (s : State) : OwnersStay s (execDrainDone s) := by
  refine ownersStay_auxAct ?_
  simp only [enterDown_owners, hpReject_owners, apply_ite owners, ite_self]
theorem execCancel_owners (s : State) : OwnersStay s (execCancel s) := by
  refine ownersStay_auxAct ?_
  simp only [setHp_owners, hpReject_owners, apply_ite owners, ite_self]
theorem execDrainTimeout_owners (s : State) : OwnersStay s (execDrainTimeout s) := by
  refine ownersStay_auxAct ?_
  simp only [setF_owners, raise_owners, pldm_owners, apply_ite owners, ite_self]
theorem execPoweringDown_owners (s : State) : OwnersStay s (execPoweringDown s) := by
  refine ownersStay_act ?_
  simp only [abortStream_owners, flushWrites_owners, foldl_owners, implies_true, apply_ite owners, ite_self]
theorem execPowerDownLinkTimeout_owners (s : State) : OwnersStay s (execPowerDownLinkTimeout s) := by
  refine ownersStay_act ?_
  simp only [dropLink_owners, apply_ite owners, ite_self]
theorem execPowerDownComplete_owners (s : State) : OwnersStay s (execPowerDownComplete s) := by
  refine ownersStay_act ?_
  simp only [ledg_owners, mainOff_owners, setHp_owners, drawNow_owners, apply_ite owners, ite_self]
theorem execPerstNAssert_owners (s : State) : OwnersStay s (execPerstNAssert s) := by
  refine ownersStay_next ?_
  simp only [pcieReset_owners]
theorem execPerstNDeassert_owners (s : State) : OwnersStay s (execPerstNDeassert s) := by
  refine ownersStay_next ?_
  simp only [wake_owners, apply_ite owners, ite_self]
theorem execHotReset_owners (s : State) : OwnersStay s (execHotReset s) := by
  refine ownersStay_next ?_
  simp only [pcieReset_owners, apply_ite owners, ite_self]
theorem execPcieLinkUp_owners (speed width : Nat) (flitMode : Bool) (s : State) : OwnersStay s (execPcieLinkUp speed width flitMode s) := by
  refine ownersStay_act ?_
  simp only [setF_owners, apply_ite owners, ite_self]
theorem execPcieLinkDown_owners (s : State) : OwnersStay s (execPcieLinkDown s) := by
  refine ownersStay_next ?_
  simp only [dropLink_owners, apply_ite owners, ite_self]
theorem execPldmIdentify_owners (seconds : Nat) (s : State) : OwnersStay s (execPldmIdentify seconds s) :=
  ownersStay_mcAct rfl
theorem execPldmSetTime_owners (sec : Nat) (s : State) : OwnersStay s (execPldmSetTime sec s) := by
  refine ownersStay_mcAct ?_
  simp only [rtcSet_owners]
theorem execPldmFreeze_owners (s : State) : OwnersStay s (execPldmFreeze s) :=
  ownersStay_mcAct (freezeStart_owners _ _ _)
theorem execPldmThaw_owners (s : State) : OwnersStay s (execPldmThaw s) :=
  ownersStay_mcAct (thawNow_owners _)
theorem execPldmFirmwareUpdate_owners (image : Bytes) (s : State) : OwnersStay s (execPldmFirmwareUpdate image s) :=
  ownersStay_mcAct rfl
theorem execPldmSensorRead_owners (sensor : Sensor) (s : State) : OwnersStay s (execPldmSensorRead sensor s) := by
  refine ownersStay_mcAct ?_
  split <;> simp only [answer_owners, drawFree_owners]
theorem execPldmFruRead_owners (s : State) : OwnersStay s (execPldmFruRead s) :=
  ownersStay_mcAct rfl
theorem execEntdaa_owners (addr : Nat) (s : State) : OwnersStay s (execEntdaa addr s) :=
  ownersStay_mcAct rfl

/-! ### The common header of the register pages (R522 to R535): enables, block resets, applications of buffered fields, interrupt enables
and votes. -/

theorem execPageEnable_owners (r : Requester) (pg : Page) (v : W32) (s : State) : OwnersStay s (execPageEnable r pg v s) := by
  refine ownersStay_next ?_
  simp only [refuse_owners, ctrlWrite_owners, apply_ite owners, ite_self]
theorem execBlockReset_owners (r : Requester) (pg : Page) (s : State) : OwnersStay s (execBlockReset r pg s) := by
  refine ownersStay_next ?_
  simp only [refuse_owners, ctrlWrite_owners, apply_ite owners, ite_self]
theorem execBlockResetEnd_owners (pg : Page) (s : State) : OwnersStay s (execBlockResetEnd pg s) := by
  refine ownersStay_next ?_
  simp only [clearRegs_owners, apply_ite owners, ite_self]
theorem execApplyRequest_owners (pg : Page) (v : W32) (s : State) : OwnersStay s (execApplyRequest pg v s) := by
  refine ownersStay_next ?_
  simp only [applyAsk_owners, apply_ite owners, ite_self]
theorem execApplyCancel_owners (pg : Page) (s : State) : OwnersStay s (execApplyCancel pg s) := by
  refine ownersStay_next ?_
  simp only [applyDrop_owners, apply_ite owners, ite_self]
theorem execApplyAtBoundary_owners (pg : Page) (s : State) : OwnersStay s (execApplyAtBoundary pg s) := by
  refine ownersStay_next ?_
  simp only [applyNow_owners, apply_ite owners, ite_self]
theorem execPageIrqEnWrite_owners (pg : Page) (v : W32) (s : State) : OwnersStay s (execPageIrqEnWrite pg v s) := by
  refine ownersStay_next ?_
  simp only [irqEnWrite_owners, apply_ite owners, ite_self]
theorem execTvRevote_owners (pg : Page) (s : State) : OwnersStay s (execTvRevote pg s) := by
  refine ownersStay_next ?_
  simp only [votePage_owners, apply_ite owners, ite_self]

/-! ### Accesses to the device map by harts, by inbound PCIe requests and by the inspection port (R59, R228, R255, R440, R463, R489, R490,
R495, R536, R537, R587, R604). -/

theorem execPcieInboundRead_owners (bar off len : Nat) (s : State) : OwnersStay s (execPcieInboundRead bar off len s) := by
  refine ownersStay_next ?_
  dsimp only
  repeat' split
  all_goals simp only [answer_owners, readWord_owners, pcieRead_owners]

theorem execInspectionRead_owners (pa : Nat) (s : State) : OwnersStay s (execInspectionRead pa s) := by
  refine ownersStay_next ?_
  dsimp only
  repeat' split
  all_goals simp only [answer_owners, inspectFail_owners]

/-! ### What ends the waits of accesses (R228, R234, R240): a lot that arrives, a move that commits, a buffer that is freed, by FREE or by
a release. -/

theorem execLotMoveCommit_owners (lot : Nat) (s : State) : OwnersStay s (execLotMoveCommit lot s) := by
  refine ownersStay_act ?_
  split <;> simp only [noteLotUe_owners, takeFrame_owners, plcMarks_owners, bump_owners, serveStalls_owners, apply_ite owners, ite_self]
theorem execPageInComplete_owners (lot way : Nat) (s : State) : OwnersStay s (execPageInComplete lot way s) := by
  refine ownersStay_act ?_
  split <;> simp only [arrive_owners, serveStalls_owners, bump_owners, updPageIn_owners, dropPageIn_owners, apply_ite owners, ite_self]

theorem execFreeComplete_owners (c : Nat) (s : State) : OwnersStay s (execFreeComplete c s) := by
  refine ownersStay_actD ?_
  dsimp only
  repeat' split
  all_goals simp only [freeBuffer_owners, poolDone_owners, serveStalls_owners]

/-! ### All commands -/

/-- Every command outside `movesOwners` leaves the owner records. -/
theorem exec_owners : ∀ (c : Instr) (s : State), movesOwners c = false → OwnersStay s (exec c s)
  | .dataFlitReceive d p flit, s, _ => execDataFlitReceive_owners d p flit s
  | .idleFlitReceive d p flit, s, _ => execIdleFlitReceive_owners d p flit s
  | .retryRequest d p flit, s, _ => execRetryRequest_owners d p flit s
  | .linkControlFlit d p flit, s, _ => execLinkControlFlit_owners d p flit s
  | .ackTimer d p, s, _ => execAckTimer_owners d p s
  | .flitSend d p, s, _ => execFlitSend_owners d p s
  | .messageSend x m, s, _ => execMessageSend_owners x m s
  | .laneDiagnosis d p bad, s, _ => execLaneDiagnosis_owners d p bad s
  | .laneLoss d p m l, s, _ => execLaneLoss_owners d p m l s
  | .spareSubstitution d p m l, s, _ => execSpareSubstitution_owners d p m l s
  | .halfWidthEntry d p, s, _ => execHalfWidthEntry_owners d p s
  | .linkDown d p, s, _ => execLinkDown_owners d p s
  | .matmul d n q, s, _ => execMatmul_owners d n q s
  | .matmulAcc d n q, s, _ => execMatmulAcc_owners d n q s
  | .weightPreload d e a, s, _ => execWeightPreload_owners d e a s
  | .tileComplete d e a, s, _ => execTileComplete_owners d e a s
  | .arrayDetectedError d e a w, s, _ => execArrayDetectedError_owners d e a w s
  | .targetedSelfTestDone d st pass, s, _ => execTargetedSelfTestDone_owners d st pass s
  | .transientLimit d st, s, _ => execTransientLimit_owners d st s
  | .arrayClearDone d e a, s, _ => execArrayClearDone_owners d e a s
  | .feCtxEnable d, s, _ => execFeCtxEnable_owners d s
  | .feCtxDrain d, s, _ => execFeCtxDrain_owners d s
  | .feCtxAbort d, s, _ => execFeCtxAbort_owners d s
  | .feCtxDataWrite d w v, s, _ => execFeCtxDataWrite_owners d w v s
  | .dbRing d c v, s, _ => execDbRing_owners d c v s
  | .descriptorFetch d n, s, _ => execDescriptorFetch_owners d n s
  | .descriptorStart d n q, s, _ => execDescriptorStart_owners d n q s
  | .completionRecordWrite d n, s, _ => execCompletionRecordWrite_owners d n s
  | .fillStart d e, s, _ => execFillStart_owners d e s
  | .fillPreempt d e, s, _ => execFillPreempt_owners d e s
  | .fillResume d e, s, _ => execFillResume_owners d e s
  | .engFillCistWrite d e v, s, _ => execEngFillCistWrite_owners d e v s
  | .add d n q, s, _ => execAdd_owners d n q s
  | .sub d n q, s, _ => execSub_owners d n q s
  | .mul d n q, s, _ => execMul_owners d n q s
  | .fma d n q, s, _ => execFma_owners d n q s
  | .div d n q, s, _ => execDiv_owners d n q s
  | .sqrt d n q, s, _ => execSqrt_owners d n q s
  | .max d n q, s, _ => execMax_owners d n q s
  | .min d n q, s, _ => execMin_owners d n q s
  | .exp d n q, s, _ => execExp_owners d n q s
  | .log d n q, s, _ => execLog_owners d n q s
  | .recip d n q, s, _ => execRecip_owners d n q s
  | .rsqrt d n q, s, _ => execRsqrt_owners d n q s
  | .tanh d n q, s, _ => execTanh_owners d n q s
  | .sigmoid d n q, s, _ => execSigmoid_owners d n q s
  | .erf d n q, s, _ => execErf_owners d n q s
  | .convert d n q, s, _ => execConvert_owners d n q s
  | .sum d n q, s, _ => execSum_owners d n q s
  | .sumsq d n q, s, _ => execSumsq_owners d n q s
  | .dot d n q, s, _ => execDot_owners d n q s
  | .rmax d n q, s, _ => execRmax_owners d n q s
  | .partialRecordMerge d n q, s, _ => execPartialRecordMerge_owners d n q s
  | .orfValueSum d n q, s, _ => execOrfValueSum_owners d n q s
  | .anchorMaximum d n q, s, _ => execAnchorMaximum_owners d n q s
  | .nrm128Sum d n q, s, _ => execNrm128Sum_owners d n q s
  | .moveCopy d n q, s, _ => execMoveCopy_owners d n q s
  | .moveFill d n q, s, _ => execMoveFill_owners d n q s
  | .migrate d n q, s, _ => execMigrate_owners d n q s
  | .lotMoveCommit lot, s, _ => execLotMoveCommit_owners lot s
  | .nop d n q, s, _ => execNop_owners d n q s
  | .fence d n q, s, _ => execFence_owners d n q s
  | .fenceComplete d n q, s, _ => execFenceComplete_owners d n q s
  | .tallyWait d n q, s, _ => execTallyWait_owners d n q s
  | .tallySignalAdd d n q, s, _ => execTallySignalAdd_owners d n q s
  | .tallySignalSet d n q, s, _ => execTallySignalSet_owners d n q s
  | .tallyOperation ix, s, _ => execTallyOperation_owners ix s
  | .waitPoll ix, s, _ => execWaitPoll_owners ix s
  | .lockAcquire d n q, s, _ => execLockAcquire_owners d n q s
  | .lockRelease d n q, s, _ => execLockRelease_owners d n q s
  | .leaseLapse t, s, _ => execLeaseLapse_owners t s
  | .talwAdd h t v, s, _ => execTalwAdd_owners h t v s
  | .talwSetHi h t v, s, _ => execTalwSetHi_owners h t v s
  | .talwTry h t, s, _ => execTalwTry_owners h t s
  | .talwRelease h t, s, _ => execTalwRelease_owners h t s
  | .talwClearAbandoned h t, s, _ => execTalwClearAbandoned_owners h t s
  | .talCfgWrite d v, s, _ => execTalCfgWrite_owners d v s
  | .hartDebugEnter h, s, _ => execHartDebugEnter_owners h s
  | .hartDebugExit h, s, _ => execHartDebugExit_owners h s
  | .ageStep k, s, _ => execAgeStep_owners k s
  | .evictAhead near bucket way, s, _ => execEvictAhead_owners near bucket way s
  | .writebackComplete lot, s, _ => execWritebackComplete_owners lot s
  | .pageInComplete lot way, s, _ => execPageInComplete_owners lot way s
  | .plcQueryLot k v, s, _ => execPlcQueryLot_owners k v s
  | .poolQTail c v, s, _ => execPoolQTail_owners c v s
  | .poolQEnable c v, s, _ => execPoolQEnable_owners c v s
  | .poolRequestFetch c, s, _ => execPoolRequestFetch_owners c s
  | .alloc c base idx, s, _ => execAlloc_owners c base idx s
  | .free c, s, _ => execFree_owners c s
  | .freeComplete c, s, _ => execFreeComplete_owners c s
  | .setPlacement c, s, _ => execSetPlacement_owners c s
  | .memRead r pa x tagBad, s, _ => execMemRead_owners r pa x tagBad s
  | .memWrite r pa x, s, _ => execMemWrite_owners r pa x s
  | .narrowRead k pa x, s, _ => execNarrowRead_owners k pa x s
  | .narrowWaitExpiry d ch, s, _ => execNarrowWaitExpiry_owners d ch s
  | .refreshDue d ch, s, _ => execRefreshDue_owners d ch s
  | .refreshPullIn d ch, s, _ => execRefreshPullIn_owners d ch s
  | .calibrationDue d ch, s, _ => execCalibrationDue_owners d ch s
  | .forcedCalibration d ch, s, _ => execForcedCalibration_owners d ch s
  | .calibrationEnd d ch, s, _ => execCalibrationEnd_owners d ch s
  | .guaranteedScrub d ch errs, s, _ => execGuaranteedScrub_owners d ch errs s
  | .patrolScrub d ch errs, s, _ => execPatrolScrub_owners d ch errs s
  | .dqPairMark d ch pair, s, _ => execDqPairMark_owners d ch pair s
  | .telemetrySample d, s, _ => execTelemetrySample_owners d s
  | .stackTemperatureSample d temp, s, _ => execStackTemperatureSample_owners d temp s
  | .mr4Read d ch rate, s, _ => execMr4Read_owners d ch rate s
  | .localGibWrite v, s, _ => execLocalGibWrite_owners v s
  | .update d n q, s, _ => execUpdate_owners d n q s
  | .updateAdmit d n q, s, _ => execUpdateAdmit_owners d n q s
  | .updateLotApply d n q l, s, _ => execUpdateLotApply_owners d n q l s
  | .dsRecordWrite u, s, _ => execDsRecordWrite_owners u s
  | .updDsTail u v, s, _ => execUpdDsTail_owners u v s
  | .updDsCfgWrite u off v, s, _ => execUpdDsCfgWrite_owners u off v s
  | .orderGapTimeout d n q, s, _ => execOrderGapTimeout_owners d n q s
  | .snapshot d n q, s, _ => execSnapshot_owners d n q s
  | .snapshotLotShip d n q l, s, _ => execSnapshotLotShip_owners d n q l s
  | .snapshotAck d n q l, s, _ => execSnapshotAck_owners d n q l s
  | .snapshotDelayLimit d n q l, s, _ => execSnapshotDelayLimit_owners d n q l s
  | .lookup d n q, s, _ => execLookup_owners d n q s
  | .lookupGrad d n q, s, _ => execLookupGrad_owners d n q s
  | .lookupRowUpdate d n q row, s, _ => execLookupRowUpdate_owners d n q row s
  | .load v, s, _ => execLoad_owners v s
  | .loadComplete, s, _ => execLoadComplete_owners s
  | .unload v, s, _ => execUnload_owners v s
  | .switch v, s, _ => execSwitch_owners v s
  | .tombstone v, s, _ => execTombstone_owners v s
  | .revive v, s, _ => execRevive_owners v s
  | .sweep tbl, s, _ => execSweep_owners tbl s
  | .hotSlotFree tbl sl w hot, s, _ => execHotSlotFree_owners tbl sl w hot s
  | .netPortModeWrite d p v, s, _ => execNetPortModeWrite_owners d p v s
  | .portLinkUp d p sub, s, _ => execPortLinkUp_owners d p sub s
  | .ethLaneLockLoss d p lane, s, _ => execEthLaneLockLoss_owners d p lane s
  | .qpEnable d, s, _ => execQpEnable_owners d s
  | .qpReset d, s, _ => execQpReset_owners d s
  | .send d n q, s, _ => execSend_owners d n q s
  | .rdmaWrite d n q, s, _ => execRdmaWrite_owners d n q s
  | .rdmaRead d n q, s, _ => execRdmaRead_owners d n q s
  | .recv d n q, s, _ => execRecv_owners d n q s
  | .inboundRdmaWrite d ix pk, s, _ => execInboundRdmaWrite_owners d ix pk s
  | .inboundRdmaRead d ix pk, s, _ => execInboundRdmaRead_owners d ix pk s
  | .inboundSend d ix pk, s, _ => execInboundSend_owners d ix pk s
  | .rdmaAck d ix psn, s, _ => execRdmaAck_owners d ix psn s
  | .rdmaNak d ix psn kind, s, _ => execRdmaNak_owners d ix psn kind s
  | .rdmaReadResponse d ix pk, s, _ => execRdmaReadResponse_owners d ix pk s
  | .ackTimeout d ix, s, _ => execAckTimeout_owners d ix s
  | .cnpReceive d ix, s, _ => execCnpReceive_owners d ix s
  | .dcqcnRateIncrease d ix, s, _ => execDcqcnRateIncrease_owners d ix s
  | .register d, s, _ => execRegister_owners d s
  | .deregister d, s, _ => execDeregister_owners d s
  | .netQpDb d v, s, _ => execNetQpDb_owners d v s
  | .nvmeCompletion d ix cid status result data, s, _ => execNvmeCompletion_owners d ix cid status result data s
  | .fileQueueRead d ix, s, _ => execFileQueueRead_owners d ix s
  | .fileQueueWrite d ix, s, _ => execFileQueueWrite_owners d ix s
  | .fileQueueWriteDone d ix, s, _ => execFileQueueWriteDone_owners d ix s
  | .fileQueueFlush d ix, s, _ => execFileQueueFlush_owners d ix s
  | .fileQueueWriteZeroes d ix, s, _ => execFileQueueWriteZeroes_owners d ix s
  | .fileQueueDeallocate d ix, s, _ => execFileQueueDeallocate_owners d ix s
  | .netPtpAdj v, s, _ => execNetPtpAdj_owners v s
  | .netPtpStep v, s, _ => execNetPtpStep_owners v s
  | .applyAtSecond, s, _ => execApplyAtSecond_owners s
  | .ppsOutEdge, s, _ => execPpsOutEdge_owners s
  | .ppsInEdge, s, _ => execPpsInEdge_owners s
  | .exchangeDispatch d n q, s, _ => execExchangeDispatch_owners d n q s
  | .exchangeCombine d n q, s, _ => execExchangeCombine_owners d n q s
  | .exchangeMessage x m, s, _ => execExchangeMessage_owners x m s
  | .reduceNetBoth d n q, s, _ => execReduceNetBoth_owners d n q s
  | .reduceNetAnchor d n q, s, _ => execReduceNetAnchor_owners d n q s
  | .reduceNetValue d n q, s, _ => execReduceNetValue_owners d n q s
  | .reduceNetNrm128 d n q, s, _ => execReduceNetNrm128_owners d n q s
  | .gatherWindow d n q, s, _ => execGatherWindow_owners d n q s
  | .windowRelease x w, s, _ => execWindowRelease_owners x w s
  | .xchWinRelease x, s, _ => execXchWinRelease_owners x s
  | .start k, s, _ => execStart_owners k s
  | .stop k, s, _ => execStop_owners k s
  | .admitRank k r, s, _ => execAdmitRank_owners k r s
  | .resume k, s, _ => execResume_owners k s
  | .heartbeatSend k, s, _ => execHeartbeatSend_owners k s
  | .heartbeat k m, s, _ => execHeartbeat_owners k m s
  | .hbReply k m, s, _ => execHbReply_owners k m s
  | .workerLost k r, s, _ => execWorkerLost_owners k r s
  | .managerLost k, s, _ => execManagerLost_owners k s
  | .takeoverTimer k, s, _ => execTakeoverTimer_owners k s
  | .takeover k m, s, _ => execTakeover_owners k m s
  | .query k m, s, _ => execQuery_owners k m s
  | .state k m, s, _ => execState_owners k m s
  | .convBarrier k v, s, _ => execConvBarrier_owners k v s
  | .arrive k m, s, _ => execArrive_owners k m s
  | .release k m, s, _ => execRelease_owners k m s
  | .convReady k v, s, _ => execConvReady_owners k v s
  | .ready k m, s, _ => execReady_owners k m s
  | .commit k m, s, _ => execCommit_owners k m s
  | .convApplied k v, s, _ => execConvApplied_owners k v s
  | .applied k m, s, _ => execApplied_owners k m s
  | .abortStep k m, s, _ => execAbortStep_owners k m s
  | .prepBatch d n q, s, _ => execPrepBatch_owners d n q s
  | .xltInvGo d, s, _ => execXltInvGo_owners d s
  | .invalidationAck d g, s, _ => execInvalidationAck_owners d g s
  | .rdShared x line, s, _ => execRdShared_owners x line s
  | .rdUnique x line, s, _ => execRdUnique_owners x line s
  | .upgrade x line, s, _ => execUpgrade_owners x line s
  | .rdOnce line, s, _ => execRdOnce_owners line s
  | .wrLine line data, s, _ => execWrLine_owners line data s
  | .wrPart line off data, s, _ => execWrPart_owners line off data s
  | .snpShared x line, s, _ => execSnpShared_owners x line s
  | .snpInv x line, s, _ => execSnpInv_owners x line s
  | .snpOnce x line, s, _ => execSnpOnce_owners x line s
  | .snpResp ring line, s, _ => execSnpResp_owners ring line s
  | .data line, s, _ => execData_owners line s
  | .wbDirty x line, s, _ => execWbDirty_owners x line s
  | .wbAck x line, s, _ => execWbAck_owners x line s
  | .comp line, s, _ => execComp_owners line s
  | .compAck line, s, _ => execCompAck_owners line s
  | .msiDelivery ix keep, s, _ => execMsiDelivery_owners ix keep s
  | .cohMsiFlush, s, _ => execCohMsiFlush_owners s
  | .hartAccess .., _, h => Bool.noConfusion h
  | .pcieInboundRead bar off len, s, _ => execPcieInboundRead_owners bar off len s
  | .pcieInboundWrite .., _, h => Bool.noConfusion h
  | .inspectionRead pa, s, _ => execInspectionRead_owners pa s
  | .inspectionWrite .., _, h => Bool.noConfusion h
  | .create .., _, h => Bool.noConfusion h
  | .compartmentRelease .., _, h => Bool.noConfusion h
  | .releaseComplete .., _, h => Bool.noConfusion h
  | .grant .., _, h => Bool.noConfusion h
  | .grantComplete .., _, h => Bool.noConfusion h
  | .returnUnit .., _, h => Bool.noConfusion h
  | .returnComplete .., _, h => Bool.noConfusion h
  | .cptLock, s, _ => execCptLock_owners s
  | .cptEntCfgWrite v, s, _ => execCptEntCfgWrite_owners v s
  | .openBuf c, s, _ => execOpenBuf_owners c s
  | .closeBuf c, s, _ => execCloseBuf_owners c s
  | .pageEnable r pg v, s, _ => execPageEnable_owners r pg v s
  | .blockReset r pg, s, _ => execBlockReset_owners r pg s
  | .blockResetEnd pg, s, _ => execBlockResetEnd_owners pg s
  | .applyRequest pg v, s, _ => execApplyRequest_owners pg v s
  | .applyCancel pg, s, _ => execApplyCancel_owners pg s
  | .applyAtBoundary pg, s, _ => execApplyAtBoundary_owners pg s
  | .pageIrqEnWrite pg v, s, _ => execPageIrqEnWrite_owners pg v s
  | .tvRevote pg, s, _ => execTvRevote_owners pg s
  | .registerWrite .., _, h => Bool.noConfusion h
  | .sourceQualified src, s, _ => execSourceQualified_owners src s
  | .sourceLoss src, s, _ => execSourceLoss_owners src s
  | .clockSourceSwitch, s, _ => execClockSourceSwitch_owners s
  | .pllLock, s, _ => execPllLock_owners s
  | .clkSrcSelWrite v, s, _ => execClkSrcSelWrite_owners v s
  | .clkSscWrite v, s, _ => execClkSscWrite_owners v s
  | .clkIslMaxWrite d v, s, _ => execClkIslMaxWrite_owners d v s
  | .frequencyStep d isl up, s, _ => execFrequencyStep_owners d isl up s
  | .clkModeWrite d v, s, _ => execClkModeWrite_owners d v s
  | .crossingModeChange d isl async, s, _ => execCrossingModeChange_owners d isl async s
  | .powerRound demands, s, _ => execPowerRound_owners demands s
  | .budgetMessage d src round demand, s, _ => execBudgetMessage_owners d src round demand s
  | .capRaise d, s, _ => execCapRaise_owners d s
  | .powerMeasure d p, s, _ => execPowerMeasure_owners d p s
  | .thermalSample d readings, s, _ => execThermalSample_owners d readings s
  | .thermalHysteresisTimer d, s, _ => execThermalHysteresisTimer_owners d s
  | .leverSwitchClose, s, _ => execLeverSwitchClose_owners s
  | .auxPathOn .., _, h => Bool.noConfusion h
  | .rom, s, _ => execRom_owners s
  | .mc, s, _ => execMc_owners s
  | .mainPower, s, _ => execMainPower_owners s
  | .links bad, s, _ => execLinks_owners bad s
  | .memory badStacks badSets, s, _ => execMemory_owners badStacks badSets s
  | .bist failed notRun, s, _ => execBist_owners failed notRun s
  | .host, s, _ => execHost_owners s
  | .openBoot, s, _ => execOpenBoot_owners s
  | .leverSwitchOpen, s, _ => execLeverSwitchOpen_owners s
  | .inputUndervoltage mv, s, _ => execInputUndervoltage_owners mv s
  | .inputOvervoltage mv, s, _ => execInputOvervoltage_owners mv s
  | .overvoltageRecovery .., _, h => Bool.noConfusion h
  | .mainOvercurrent ma, s, _ => execMainOvercurrent_owners ma s
  | .uvWarn mv, s, _ => execUvWarn_owners mv s
  | .attentionButtonPress, s, _ => execAttentionButtonPress_owners s
  | .abortWindowExpiry, s, _ => execAbortWindowExpiry_owners s
  | .startDrain, s, _ => execStartDrain_owners s
  | .drainDone, s, _ => execDrainDone_owners s
  | .cancel, s, _ => execCancel_owners s
  | .drainTimeout, s, _ => execDrainTimeout_owners s
  | .poweringDown, s, _ => execPoweringDown_owners s
  | .powerDownLinkTimeout, s, _ => execPowerDownLinkTimeout_owners s
  | .powerDownComplete, s, _ => execPowerDownComplete_owners s
  | .modResetN, s, _ => execModResetN_owners s
  | .perstNAssert, s, _ => execPerstNAssert_owners s
  | .perstNDeassert, s, _ => execPerstNDeassert_owners s
  | .hotReset, s, _ => execHotReset_owners s
  | .functionLevelReset, s, _ => execFunctionLevelReset_owners s
  | .pldmReset, s, _ => execPldmReset_owners s
  | .pldmWake, s, _ => execPldmWake_owners s
  | .pldmIdentify seconds, s, _ => execPldmIdentify_owners seconds s
  | .pldmSetTime sec, s, _ => execPldmSetTime_owners sec s
  | .pldmFreeze, s, _ => execPldmFreeze_owners s
  | .pldmThaw, s, _ => execPldmThaw_owners s
  | .pldmFirmwareUpdate image, s, _ => execPldmFirmwareUpdate_owners image s
  | .pldmSensorRead sensor, s, _ => execPldmSensorRead_owners sensor s
  | .pldmFruRead, s, _ => execPldmFruRead_owners s
  | .entdaa addr, s, _ => execEntdaa_owners addr s
  | .resetCmdModule, s, _ => execResetCmdModule_owners s
  | .resetCmdDie target, s, _ => execResetCmdDie_owners target s
  | .resetCmdCompartment target, s, _ => execResetCmdCompartment_owners target s
  | .coreHold target, s, _ => execCoreHold_owners target s
  | .coreRelease target, s, _ => execCoreRelease_owners target s
  | .dieRecoveryComplete d, s, _ => execDieRecoveryComplete_owners d s
  | .park d, s, _ => execPark_owners d s
  | .unpark d, s, _ => execUnpark_owners d s
  | .standbyEnter keepH0, s, _ => execStandbyEnter_owners keepH0 s
  | .standbyWake, s, _ => execStandbyWake_owners s
  | .h0L3Miss h, s, _ => execH0L3Miss_owners h s
  | .wakeComplete, s, _ => execWakeComplete_owners s
  | .errorDetected d st cls pa, s, _ => execErrorDetected_owners d st cls pa s
  | .writeLost r pa retired, s, _ => execWriteLost_owners r pa retired s
  | .bistRun d, s, _ => execBistRun_owners d s
  | .bistComplete d isl sig vOk, s, _ => execBistComplete_owners d isl sig vOk s
  | .injArm pg, s, _ => execInjArm_owners pg s
  | .tstRun pg pass, s, _ => execTstRun_owners pg pass s
  | .freezeN, s, _ => execFreezeN_owners s
  | .freezeDebug, s, _ => execFreezeDebug_owners s
  | .freezeCapture, s, _ => execFreezeCapture_owners s
  | .thaw, s, _ => execThaw_owners s
  | .thawLimitExpiry, s, _ => execThawLimitExpiry_owners s
  | .scanShift recirculate, s, _ => execScanShift_owners recirculate s
  | .instrumentWrite, s, _ => execInstrumentWrite_owners s
  | .inspectEn level, s, _ => execInspectEn_owners level s
  | .hourlyRecord mvh, s, _ => execHourlyRecord_owners mvh s
  | .eraseAhead, s, _ => execEraseAhead_owners s
  | .pageProgramFail erase, s, _ => execPageProgramFail_owners erase s
  | .ledgRtcHi v, s, _ => execLedgRtcHi_owners v s
  | .ptpRtcSet, s, _ => execPtpRtcSet_owners s
  | .ledgLogData7 r, s, _ => execLedgLogData7_owners r s
  | .warehouseCreditExhausted d, s, _ => execWarehouseCreditExhausted_owners d s
  | .warehouseWorn d, s, _ => execWarehouseWorn_owners d s
  | .reserveLow d, s, _ => execReserveLow_owners d s
  | .serviceTagDraw, s, _ => execServiceTagDraw_owners s
  | .tagRefreshDone, s, _ => execTagRefreshDone_owners s
  | .redraw, s, _ => execRedraw_owners s
  | .svcLocate v, s, _ => execSvcLocate_owners v s
  | .locateExpiry, s, _ => execLocateExpiry_owners s
  | .sounderShort, s, _ => execSounderShort_owners s
  | .sounderRetry short, s, _ => execSounderRetry_owners short s
  | .svcSndClear, s, _ => execSvcSndClear_owners s
  | .pcieLinkUp speed width flitMode, s, _ => execPcieLinkUp_owners speed width flitMode s
  | .pcieLinkDown, s, _ => execPcieLinkDown_owners s
  | .pfcPauseFrameReceive d p prio quanta, s, _ => execPfcPauseFrameReceive_owners d p prio quanta s
  | .undervoltageLockoutRelease mv, s, _ => execUndervoltageLockoutRelease_owners mv s
  | .reducedRangeExit mv, s, _ => execReducedRangeExit_owners mv s
  | .auxiliaryPathOff, s, _ => execAuxiliaryPathOff_owners s
  | .supercapacitorRunDown, s, _ => execSupercapacitorRunDown_owners s
  | .garbageCollection d moved freed, s, _ => execGarbageCollection_owners d moved freed s
  | .creditAccrual d, s, _ => execCreditAccrual_owners d s
  | .standbyEntryComplete, s, _ => execStandbyEntryComplete_owners s

/-- Equal owner records answer the same owner, but for a unit that has gone out of service (0x7E). -/
theorem owner_of_owners {s t : State} (h : t.owners = s.owners) (k i : Nat) (hs : s.owner k i < 64) :
    t.owner k i = s.owner k i ∨ t.owner k i = 0x7E := by
  have hr : s.owner k i = SMap.getD s.owners (k * 2 ^ 21 + i) 0x7F := by
    unfold State.owner at hs ⊢
    split
    · rw [if_pos ‹_›] at hs; omega
    · rw [if_neg ‹_›] at hs
      split
      · rw [if_pos ‹_›] at hs; omega
      · rfl
  rw [hr]
  unfold State.owner
  split
  · exact .inr rfl
  · split
    · exact .inr rfl
    · exact .inl (by rw [h])

end Sys2Proof.Machine

namespace Sys2Proof

open Sys2Proof.Machine

/-- Settles O52: a case per command (`exec_owners`), each of whose parts leaves the owner records. -/
theorem ownersMoveThroughTheTable : Obligations.OwnersMoveThroughTheTable := fun c s t hc he =>
  have h := exec_owners c s hc t he
  ⟨h, fun k i hs => owner_of_owners h k i hs⟩

end Sys2Proof
